-- ==== Sys2Proof/Word.lean ====
section
/-!
DEFINITION. The word types of the machine and their plainest arithmetic. Registers, instruction operands and addresses under
computation are bit vectors; a memory key, a count, a number of a unit is a natural number.
-/
namespace Sys2Proof

/-- A register or memory word (spec/00_scope.md: every register is 32 bits wide). -/
abbrev Word := BitVec 32
/-- A byte of memory. -/
abbrev Byte := BitVec 8
/-- Device time: a 64-bit count of ticks of 31.25 ps that wraps (spec/00_scope.md, R5). -/
abbrev Time := BitVec 64

end Sys2Proof
end

