-- ==== Sys2Proof/Types.lean ====
section
/-!
DEFINITION. The kinds of thing that commands and state speak about: who makes an access, at which level, what kind of access it is,
and the named alternatives of the blocks. They are the operand types of the commands of Syntax.lean.
-/
namespace Sys2Proof

/-- Privilege levels of a core (spec/12, R292). -/
inductive Priv where
  | u | s | m
  deriving DecidableEq, Repr

/-- Who makes an access on the crossbar or the peripheral bus (spec/17, Table 17.6 and PART_FENCE_INFO; spec/18,
MEMC_ERR_INFO). `core 8` is the supervisor. -/
inductive Requester where
  | core (n : Fin 9)
  | lane (n : Fin 16)
  | dap
  | pcie (n : Fin 8)
  | session
  | eth (p : Fin 2)
  | feeder
  | dma (n : Fin 32)
  deriving DecidableEq, Repr

/-- The number of a requester in PART_FENCE_INFO.REQ and MEMC_ERR_INFO.REQ (spec/17, spec/18). -/
def Requester.code : Requester → Nat
  | .core n => n.val
  | .lane _ => 0x0A
  | .dap => 0x0C
  | .pcie n => 0x10 + n.val
  | .session => 0x18
  | .eth p => 0x19 + p.val
  | .feeder => 0x1B
  | .dma n => 0x20 + n.val

/-- The number of a requester at the arbiters (spec/19, Table 19.2); a lane is attached to none. -/
def Requester.arbNo : Requester → Option Nat
  | .core n => some n.val
  | .lane _ => none
  | .dap => some 15
  | .pcie _ => some 13
  | .session => some 10
  | .eth p => some (11 + p.val)
  | .feeder => some 14
  | .dma _ => some 9

/-- The kind of an access. -/
inductive Access where
  | read | write | fetch
  deriving DecidableEq, Repr

/-- Word of a processor: a host core or the supervisor (`hart` 0 to 8) or a control lane. -/
inductive Proc where
  | core (n : Fin 9)
  | lane (n : Fin 16)
  deriving DecidableEq, Repr

/-- The key of a processor in the state's table of processors: cores 0 to 8, lane n at 16 + n, as DBG_Cc numbers them
(spec/22). -/
def Proc.key : Proc → Nat
  | .core n => n.val
  | .lane n => 16 + n.val

/-- A processor as a requester. -/
def Proc.req : Proc → Requester
  | .core n => .core n
  | .lane n => .lane n

/-- Number of a general register, w0 to w15 (R229). -/
abbrev RegNo := Fin 16

/-- The address form of a load or store (Table 10.4, R241, R247, R250): base and offset, indexed, post-modify, pre-modify,
short absolute; and the 16-bit forms: base and offset, sp and offset, short absolute. -/
inductive Addr where
  | base (rb : RegNo) (imm : BitVec 17)
  | index (rb ri : RegNo)
  | post (rb : RegNo) (imm : BitVec 10)
  | pre (rb : RegNo) (imm : BitVec 10)
  | abs (imm : BitVec 12)
  | shortBase (rb : RegNo) (imm : BitVec 3)
  | shortSp (imm : BitVec 7)
  | shortAbs (imm : BitVec 7)
  deriving DecidableEq, Repr

/-- Is it a 16-bit form? -/
def Addr.short : Addr → Bool
  | .shortBase _ _ | .shortSp _ | .shortAbs _ => true
  | _ => false

/-- An address of a MAC frame on a feeder. -/
inductive MacAddr where
  | short (pan addr : BitVec 16)
  | ext (addr : BitVec 64)
  | broadcast
  deriving DecidableEq, Repr

/-- A frame that a feeder port received, as the IEEE 802.15.4 framing of R336 gives it: whether its FCS passes, its addresses,
security fields, flags, a tone-map response (modulation, groups on), MAC header and payload (with the MIC when secured),
mean SNR, modulation, and the mean SNR of each carrier group. -/
structure AirFrame where
  fcs     : Bool
  dest    : MacAddr
  src     : MacAddr
  secured : Bool
  level   : Nat
  keyMode : Nat
  keyIdx  : Nat
  fc      : BitVec 32
  ackReq  : Bool
  tmReq   : Bool
  tmResp  : Option (Nat × Nat)
  header  : List Byte
  payload : List Byte
  snr     : Byte
  mod     : Nat
  groups  : List Nat
  deriving DecidableEq, Repr

end Sys2Proof
end

