-- ==== Sys2Proof/Syntax.lean ====
section
/-!
DEFINITION. The commands of the SR9420: one constructor for each row of spec/opcode_table.json.
-/
namespace Sys2Proof

/-- A command: a step of the device that software, a block, the environment or time brings about. -/
inductive Instr where
  /-- DEVICE_BOOT: On release of a DEVICE reset ROM runs the boot steps: read fuses, wipe, lock PLLs, rebuild journal, load calibration, apply image, test comparators, release partitions. (R524) -/
  | deviceBoot (rcv lock : Bool) (cmp : BitVec 6)
  /-- PLL_WAIT_RETRY: While PLL_SYS or PLL_PWM fails to lock ROM restarts it every 10 ms and releases nothing. (R527) -/
  | pllWaitRetry (lock : Bool) (cmp : BitVec 6)
  /-- RELOAD_START: A write of START to SCFG_RQn_CTRL tests busy and staging, makes the range read-only and begins CHECKING. (R47) -/
  | reloadStart (q : Requester) (p : Fin 8)
  /-- RELOAD_PERSIST_REQUEST: PERSIST written with START asks ROM to write the reloaded image into the other slot after DONE. (R51) -/
  | reloadPersistRequest (q : Requester) (p : Fin 8)
  /-- RELOAD_CHECK_DONE: The check of a staged image ends: REJECTED on failure, otherwise PREPARING loads new lanes and requests held domains. (R47) -/
  | reloadCheckDone
  /-- RELOAD_PREPARE_DONE: PREPARING ends and ROM arms each changed binding's switch, entering SWITCHING and applying other changes. (R50) -/
  | reloadPrepareDone
  /-- BINDING_SWITCH: When the period start at the boundary reaches the commit stage the binding's epoch increments and its lanes, trigger, routing and destinations change. (R126) -/
  | bindingSwitch (b : Fin 64)
  /-- RELOAD_DONE: The last changed binding has switched; the new image runs and SCFG_SEQ holds its SEQ. (R47) -/
  | reloadDone
  /-- PERSIST_DONE: The persist finishes erasing, programming and verifying the other slot, sets BASE_SLOT and PERSISTED or PERSIST_FAIL. (R51) -/
  | persistDone (ok : Bool)
  /-- FLOOR_ADVANCE: A write of ADVANCE with KEY 0xA5 to SCFG_FLOOR_CTRL asks ROM to raise the floor, or sets FLOOR_REFUSED when IN_SLOT is 0. (R46) -/
  | floorAdvance (q : Requester) (key : Byte)
  /-- FLOOR_WRITTEN: ROM has raised the floor to the running SEQ and clears TRIAL. (R46) -/
  | floorWritten
  /-- SAMPLE_HOLD: At each grid point a running channel holds its input and makes a word, applying committed settings and delivering or copying it. (R58) -/
  | sampleHold (n : Fin 24) (vd : Int)
  /-- CONVERTER_WORD_OUT: A sample word leaves the converter 12.0 ns after its hold edge towards mailboxes and copies. (R66) -/
  | converterWordOut (n : Fin 24)
  /-- MAILBOX_WORD_ARRIVAL: A word arrives in a lane mailbox, possibly triggering or completing the dispatch gate. (R107) -/
  | mailboxWordArrival (l : Fin 16) (m : Fin 8)
  /-- FC_ARM_EVENT: An event at FCn_ARM arms a channel in ALIGNED mode, or sets TRIG_OVERRUN if already armed. (R62) -/
  | fcArmEvent (n : Fin 24)
  /-- FCV_FIRE: A write of ARM to FCV_CHn_FIRE arms the channel like an event. (R62) -/
  | fcvFire (q : Requester) (n : Fin 24)
  /-- FCV_COMMIT: A write to FCV_CHn_COMMIT schedules the trigger, phase, TMOD and TPHASE shadows to apply after the next grid point. (R64) -/
  | fcvCommit (q : Requester) (n : Fin 24)
  /-- FCV_DDIV_WRITE: A write to DDIV takes effect at the start of the next converter buffer block. (R68) -/
  | fcvDdivWrite (q : Requester) (n : Fin 24) (v : Word)
  /-- CAL_STEP_START: A group begins a background calibration step by calibrating its spare slice. (R71) -/
  | calStepStart (g : Fin 3)
  /-- CAL_COMPARE: After calibration and 256 grid points of parallel sampling the group compares the slices and schedules a swap or repeats. (R71) -/
  | calCompare (g : Fin 3) (diff : Int)
  /-- SLICE_SWAP: At the grid point after a mailbox delivery, or after 100 µs, the new slice takes the channel and the old one becomes spare. (R72) -/
  | sliceSwap (g : Fin 3)
  /-- FREEZE_WRITE: Setting FREEZE stops further calibration steps; clearing it starts a new step. (R78) -/
  | freezeWrite (q : Requester) (g : Fin 3) (freeze : Bool)
  /-- CMP_OUTPUT_ACTIVE: A comparator output becomes active, drives the trip inputs of its bound PWM units, sets TRIPPED and raises CMPc_TRIP. (R81) -/
  | cmpOutputActive (c : Fin 48) (vd : Int)
  /-- CMP_OUTPUT_INACTIVE: A comparator output returns inactive once Vd passes the threshold less hysteresis. (R80) -/
  | cmpOutputInactive (c : Fin 48) (vd : Int)
  /-- CMP_LOCK: Setting LOCK makes the threshold, EN and HYST read-only until DEVICE reset. (R82) -/
  | cmpLock (q : Requester) (c : Fin 48) (v : BitVec 5)
  /-- CMP_TEST_PULSE: A write of PULSE forces an enabled comparator's output active for 1.0 µs. (R84) -/
  | cmpTestPulse (q : Requester) (c : Fin 48)
  /-- CMP_TEST_PULSE_END: The 1.0 µs forced activation of a test pulse expires. (R84) -/
  | cmpTestPulseEnd (c : Fin 48) (vd : Int)
  /-- SCAN_ROUND_START: A round begins in CONTINUOUS mode on its interval, reading the scan mask and new configuration. (R90) -/
  | scanRoundStart (k : Fin 4)
  /-- SCV_START_EVENT: An event at SCVk_START starts a round in EVENT mode, or sets START_OVERRUN. (R92) -/
  | scvStartEvent (k : Fin 4)
  /-- SCAN_CONVERSION: A channel's conversion completes and is accumulated; every 2^AVG samples a result is made and window-checked. (R93) -/
  | scanConversion (k : Fin 4) (x : Int)
  /-- WIN_LIMIT_WRITE: A write to WIN_LO or WIN_HI resets the window counter and keeps the state. (R96) -/
  | winLimitWrite (q : Requester) (n : Fin 80) (hi : Bool) (v : BitVec 24)
  /-- LANE_TRIGGER: A binding receives a trigger with instant T; it waits at the gate or is dropped as an overrun. (R106) -/
  | laneTrigger (b : Fin 64) (t : Time)
  /-- CL_TRIG_EVENT: An event at CLn_TRIG triggers the binding of LANE_A under TRIG_KIND 0x03. (R106) -/
  | clTrigEvent (n : Fin 16)
  /-- FIRE: A write of FIRE to LNC_Bb_CMD triggers the binding with T at its arrival. (R106) -/
  | bindingFire (q : Requester) (b : Fin 64)
  /-- DISPATCH: When the gate condition holds the activation dispatches: snapshot, position capture, FEED, page swap and pc at ENTRY. (R107) -/
  | dispatch (b : Fin 64) (l : Bool)
  /-- WAIT_LIMIT_EXPIRY: The gate has not completed within WAIT_LIMIT; the activation dispatches with STARVED set. (R107) -/
  | waitLimitExpiry (b : Fin 64) (l : Bool)
  /-- OUT_SEND: A store to OUTk is the committing write, sending port k and all staged words in one cycle. (R115) -/
  | outSend (n : Fin 16) (k : Fin 4) (v : Word)
  /-- OUT_HOLD: A store to OUTk_HOLD stages a word on port k without sending. (R115) -/
  | outHold (n : Fin 16) (k : Fin 4) (v : Word)
  /-- ACTIVATION_DONE: A store to DONE ends the activation, discards staged words and raises CLn_DONE. (R110) -/
  | activationDone (n : Fin 16)
  /-- DEADLINE_MISS: An activation that has not stored to DONE within DEADLINE cycles is abandoned as a lane fault. (R110) -/
  | deadlineMiss (n : Fin 16)
  /-- COMMIT_WORD_ARRIVAL: A lane word reaches the commit stage, is epoch-checked and, in a compare group, paired and compared. (R116) -/
  | commitWordArrival (n : Fin 16)
  /-- PAIR_WAIT_EXPIRY: A word has waited CMP_WAIT without its partner; MISSING forces the binding safe. (R123) -/
  | pairWaitExpiry (b : Fin 64)
  /-- COMMIT_DELIVERY: An accepted word reaches its PWM compare register, arm reference or link command queue 3.0 ns after acceptance. (R117) -/
  | commitDelivery (b : Fin 64)
  /-- LANE_RESET: A write of RESET to LNC_Ln_CTRL resets the lane, counting as a fault of a bound lane. (R520) -/
  | laneReset (q : Requester) (n : Fin 16)
  /-- CLRFAULT_LANE: A write of CLRFAULT to LNC_Ln_CTRL sets CAUSE, EXC and PC to 0. (R113) -/
  | clrfaultLane (q : Requester) (n : Fin 16)
  /-- SWAP: A write of SWAP schedules the parameter page swap for the binding's next dispatch. (R103) -/
  | laneSwap (q : Requester) (b : Fin 64)
  /-- RELEASE_BINDING: A write of RELEASE clears FORCED unless a clock force on the path is active. (R125) -/
  | releaseBinding (q : Requester) (b : Fin 64)
  /-- CLEAR_BINDING_COUNTS: A write of CLEAR sets LATEDROPS, OVERRUNS and STARVES to 0. (R111) -/
  | clearBindingCounts (q : Requester) (b : Fin 64)
  /-- PERIOD_START: A running unit makes a period start: transfers shadows and compares, releases forced outputs, triggers lanes, reaches the commit stage and raises PUn_PS. (R135) -/
  | periodStart (n : Fin 32)
  /-- UNIT_FIRST_PERIOD_START: A starting unit makes its first period start on the grid from START after the enabling commit. (R134) -/
  | unitFirstPeriodStart (n : Fin 32)
  /-- HALF_PERIOD: A running unit reaches its half-period instant, triggering lanes, HALF_PERIOD transfers and PUn_HP. (R136) -/
  | halfPeriod (n : Fin 32)
  /-- PWM_EDGE: The carrier position reaches a rise or fall position and the reference and outputs change after dead time. (R139) -/
  | pwmEdge (n : Fin 32)
  /-- PWM_COMMIT: A write of COMMIT applies the unit's shadows at once or at the next period start, starting or stopping the unit. (R134) -/
  | pwmCommit (q : Requester) (n : Fin 32)
  /-- PWM_COMMIT_ALL: A write to PWM_COMMIT_ALL commits every owned unit whose bit is set. (R134) -/
  | pwmCommitAll (q : Requester) (units : Word)
  /-- PWM_CMP_WRITE: A software write to PWM_Un_CMP lands in an unbound unit, or sets CMP_IGNORED in a bound one. (R142) -/
  | pwmCmpWrite (q : Requester) (n : Fin 32) (v : Word)
  /-- PWM_FORCE_ACTIVE: A force source becomes active and the unit's outputs drive their safe states within 3.0 ns, raising PUn_TRIP. (R146) -/
  | pwmForceActive (n : Fin 32)
  /-- TRIPEV_EVENT: An event at PUn_TRIPEV sets TRIP_EVT and forces the unit safe. (R148) -/
  | tripevEvent (n : Fin 32)
  /-- PWM_LATCH_CLEAR: A W1C write to PWM_Un_LATCH clears latches whose causes have ended. (R145) -/
  | pwmLatchClear (q : Requester) (n : Fin 32) (mask : BitVec 4)
  /-- SW_FORCE_PWM: A write to SW_FORCE sets or ends the software force of a unit. (R145) -/
  | swForcePwm (q : Requester) (n : Fin 32) (force : Bool)
  /-- PWM_GROUP_ALIGNED: A started group has aligned local time and locked sub-step calibration, so its units may make period starts. (R132) -/
  | pwmGroupAligned (g : Fin 4)
  /-- PWM_RESUME_GRID: A unit that lost its clock or alignment resumes on the grid of its last period start and sets START_LATE. (R137) -/
  | pwmResumeGrid (n : Fin 32)
  /-- FRAME_SLOT: At each 256 ns slot the link transmits a downstream frame, filling command blocks from its queue and the header flags. (R155) -/
  | frameSlot (l : Fin 32) (delay : Fin 169)
  /-- UPSTREAM_FRAME: An upstream frame arrives: header, records, events and reply are checked, the mirror, log and delay watch are updated. (R175) -/
  | upstreamFrame (l : Fin 32) (rtt : BitVec 24) (bad : BitVec 48) (fr : List Byte)
  /-- UPSTREAM_MISSED: No valid upstream header arrives within R(0) ± 64 ticks; MISSED counts and four in a row send the link DOWN. (R175) -/
  | upstreamMissed (l : Fin 32)
  /-- LINK_START: A write of START moves a link from OFF or DOWN to ENUM. (R166) -/
  | linkStart (q : Requester) (l : Fin 32)
  /-- LINK_STOP: A write of STOP sends the SAFE order and takes the link to OFF. (R166) -/
  | linkStop (q : Requester) (l : Fin 32)
  /-- CLRCNT: A write of CLRCNT sets FLK_Ln_ERRCNT to 0. (R175) -/
  | clrcnt (q : Requester) (l : Fin 32)
  /-- REMEASURE: A write of REMEASURE runs one measurement round in RUN. (R172) -/
  | remeasure (q : Requester) (l : Fin 32)
  /-- LINK_SLEEP: A write of SLEEP starts the sleep handshake, or sets SLEEP_DENIED. (R180) -/
  | linkSleep (q : Requester) (l : Fin 32)
  /-- LINK_WAKE: A write of WAKE starts the bring-up of a sleeping link. (R180) -/
  | linkWake (q : Requester) (l : Fin 32)
  /-- SLEEP_HANDSHAKE_END: After 16 SLEEP frames the link squelches and enters SLEEP. (R180) -/
  | sleepHandshakeEnd (l : Fin 32)
  /-- ENUM_TIMEOUT: COUNT has not settled within 1 ms of START and the link goes DOWN with cause 1. (R167) -/
  | enumTimeout (l : Fin 32)
  /-- MEASURE_COMPLETE: The measurement rounds end, offsets are computed and written, TIME_VALID is broadcast and the link enters RUN. (R168) -/
  | measureComplete (l : Fin 32)
  /-- MGMT_REPLY_TIMEOUT: A cell's reply is missing 8 frames after the request; the link asks again, goes DOWN, or ends a software request with TIMEOUT. (R168) -/
  | mgmtReplyTimeout (l : Fin 32) (own : Bool)
  /-- REMEAS_ROUND: Every REMEAS × 64 µs the link runs a background round and moves offsets by at most 2 ticks. (R172) -/
  | remeasRound (l : Fin 32)
  /-- BLOCK_LOCK_LOST: The link loses block lock or enters hi-BER and goes DOWN with cause 5 or 6. (R175) -/
  | blockLockLost (l : Fin 32) (hiBer : Bool)
  /-- LINK_FORCE_ACTIVE: A force source becomes active: the queue empties, the SAFE order is sent and headers carry SAFE. (R177) -/
  | linkForceActive (l : Fin 32)
  /-- SW_FORCE_LINK: A write to FLK_Ln_FORCE SW_FORCE sets or ends the software force of a link. (R176) -/
  | swForceLink (q : Requester) (l : Fin 32) (force : Bool)
  /-- LINK_WARN_CLEAR: A W1C write to FLK_Ln_LATCH clears the warning latch once the warning has ended. (R176) -/
  | linkWarnClear (q : Requester) (l : Fin 32)
  /-- MGMT_GO: A write of GO to FLK_Ln_MGMT_CMD sends a management request to a cell. (R162) -/
  | mgmtGo (q : Requester) (l : Fin 32) (v : Word)
  /-- BALANCER_ROUND: At each 1 µs boundary an enabled arm ranks its available cells, selects and queues SET and PULSE commands. (R193) -/
  | balancerRound (a : Fin 32)
  /-- ABL_SWCMD_GO: A write of GO to ABL_Ln_SWCMD queues a software command or refuses it for an enabled arm. (R189) -/
  | ablSwcmdGo (q : Requester) (l : Fin 32) (v : Word)
  /-- ARM_ENABLE_WRITE: A write to ENABLE starts or stops rounds; setting it makes every model UNKNOWN. (R202) -/
  | armEnableWrite (q : Requester) (a : Fin 32) (v : Word)
  /-- ARM_RESUME: A write of RESUME clears HALTED and rounds run again. (R201) -/
  | armResume (q : Requester) (a : Fin 32) (v : Word)
  /-- POSITION_EDGE: A digital input level is seen on FILT + 1 samples and accepted as a time-stamped edge, updating Hall, tooth or probe state. (R205) -/
  | positionEdge (n : Fin 16) (levels : BitVec 3) (t : Time)
  /-- SINCOS_HOLD: Both sine and cosine inputs are held at the phase and the angle, window and speed are updated. (R216) -/
  | sincosHold (n : Fin 8) (vs vc : Int)
  /-- STANDSTILL_TIMEOUT: No edge for STILL_TO µs sets speed 0, STANDSTILL and, for a tooth wheel, loses sync. (R222) -/
  | standstillTimeout (n : Fin 16)
  /-- PROBE_EVENT: An event at PFn_PROBE captures the interface state into the probe registers. (R225) -/
  | probeEvent (n : Fin 16)
  /-- PRB_FIRE: A write of FIRE to POS_Pn_PRB_CTRL probes the interface. (R225) -/
  | prbFire (q : Requester) (n : Fin 16)
  /-- POS_MODE_WRITE: A write that changes MODE restarts the interface from cold. (R228) -/
  | posModeWrite (q : Requester) (n : Fin 16) (v : Word)
  /-- NOP: No operation. (R239) -/
  | nop (p : Proc)
  /-- MOV: Copies a register. (R239) -/
  | mov (p : Proc) (rd rs : RegNo)
  /-- MOVI: Loads a signed immediate into a register. (R241) -/
  | movi (p : Proc) (rd : RegNo) (imm : BitVec 21) (short : Bool)
  /-- MOVHI: Loads a 16-bit immediate into the upper half of a register. (R241) -/
  | movhi (p : Proc) (rd : RegNo) (imm : BitVec 16)
  /-- ADR: Forms a pc-relative address. (R241) -/
  | adr (p : Proc) (rd : RegNo) (off : BitVec 21)
  /-- ADD: Adds two registers. (R244) -/
  | add (p : Proc) (rd rs1 rs2 : RegNo) (short : Bool)
  /-- ADDS: Adds two registers and sets NZCV. (R244) -/
  | adds (p : Proc) (rd rs1 rs2 : RegNo)
  /-- ADDI: Adds a signed immediate. (R241) -/
  | addi (p : Proc) (rd rs1 : RegNo) (imm : BitVec 17) (short : Bool)
  /-- SUB: Subtracts two registers. (R244) -/
  | sub (p : Proc) (rd rs1 rs2 : RegNo) (short : Bool)
  /-- SUBS: Subtracts and sets NZCV. (R244) -/
  | subs (p : Proc) (rd rs1 rs2 : RegNo)
  /-- ADC: Adds with carry and sets NZCV. (R243) -/
  | adc (p : Proc) (rd rs1 rs2 : RegNo)
  /-- SBC: Subtracts with borrow and sets NZCV. (R243) -/
  | sbc (p : Proc) (rd rs1 rs2 : RegNo)
  /-- AND: Bitwise AND. (R244) -/
  | and (p : Proc) (rd rs1 rs2 : RegNo) (short : Bool)
  /-- ANDS: Bitwise AND setting NZ. (R244) -/
  | ands (p : Proc) (rd rs1 rs2 : RegNo)
  /-- OR: Bitwise OR. (R244) -/
  | or (p : Proc) (rd rs1 rs2 : RegNo) (short : Bool)
  /-- XOR: Bitwise exclusive OR. (R244) -/
  | xor (p : Proc) (rd rs1 rs2 : RegNo) (short : Bool)
  /-- ANDN: AND with the complement of the second operand. (R244) -/
  | andn (p : Proc) (rd rs1 rs2 : RegNo)
  /-- ANDI: AND with a zero-extended immediate. (R241) -/
  | andi (p : Proc) (rd rs1 : RegNo) (imm : BitVec 17)
  /-- ORI: OR with a zero-extended immediate. (R241) -/
  | ori (p : Proc) (rd rs1 : RegNo) (imm : BitVec 17)
  /-- XORI: XOR with a zero-extended immediate. (R241) -/
  | xori (p : Proc) (rd rs1 : RegNo) (imm : BitVec 17)
  /-- NOT: Bitwise complement. (R239) -/
  | not (p : Proc) (rd rs : RegNo)
  /-- NEG: Negates a register and sets NZCV. (R239) -/
  | neg (p : Proc) (rd rs : RegNo)
  /-- LSL: Logical left shift by a register amount. (R245) -/
  | lsl (p : Proc) (rd rs1 rs2 : RegNo) (short : Bool)
  /-- LSR: Logical right shift by a register amount. (R245) -/
  | lsr (p : Proc) (rd rs1 rs2 : RegNo) (short : Bool)
  /-- ASR: Arithmetic right shift by a register amount. (R245) -/
  | asr (p : Proc) (rd rs1 rs2 : RegNo) (short : Bool)
  /-- ROR: Rotate right by a register amount. (R245) -/
  | ror (p : Proc) (rd rs1 rs2 : RegNo)
  /-- LSLI: Logical left shift by an immediate. (R245) -/
  | lsli (p : Proc) (rd rs1 : RegNo) (n : Fin 32)
  /-- LSRI: Logical right shift by an immediate. (R245) -/
  | lsri (p : Proc) (rd rs1 : RegNo) (n : Fin 32)
  /-- ASRI: Arithmetic right shift by an immediate. (R245) -/
  | asri (p : Proc) (rd rs1 : RegNo) (n : Fin 32)
  /-- RORI: Rotate right by an immediate. (R245) -/
  | rori (p : Proc) (rd rs1 : RegNo) (n : Fin 32)
  /-- CMP: Compares two registers, setting NZCV. (R244) -/
  | cmp (p : Proc) (rs1 rs2 : RegNo) (short : Bool)
  /-- CMN: Compares against a negated operand, setting NZCV. (R244) -/
  | cmn (p : Proc) (rs1 rs2 : RegNo)
  /-- TST: Tests bits, setting NZ. (R244) -/
  | tst (p : Proc) (rs1 rs2 : RegNo) (short : Bool)
  /-- CMPI: Compares with an immediate, setting NZCV. (R241) -/
  | cmpi (p : Proc) (rs1 : RegNo) (imm : BitVec 17) (short : Bool)
  /-- MIN: Signed minimum. (R244) -/
  | min (p : Proc) (rd rs1 rs2 : RegNo)
  /-- MAX: Signed maximum. (R244) -/
  | max (p : Proc) (rd rs1 rs2 : RegNo)
  /-- MINU: Unsigned minimum. (R244) -/
  | minu (p : Proc) (rd rs1 rs2 : RegNo)
  /-- MAXU: Unsigned maximum. (R244) -/
  | maxu (p : Proc) (rd rs1 rs2 : RegNo)
  /-- CLZ: Counts leading zeros. (R244) -/
  | clz (p : Proc) (rd rs1 : RegNo)
  /-- SXTB: Sign-extends a byte. (R244) -/
  | sxtb (p : Proc) (rd rs1 : RegNo)
  /-- SXTH: Sign-extends a halfword. (R244) -/
  | sxth (p : Proc) (rd rs1 : RegNo) (short : Bool)
  /-- ZXTB: Zero-extends a byte. (R244) -/
  | zxtb (p : Proc) (rd rs1 : RegNo)
  /-- ZXTH: Zero-extends a halfword. (R244) -/
  | zxth (p : Proc) (rd rs1 : RegNo) (short : Bool)
  /-- CSEL: Selects one of two registers by a condition. (R244) -/
  | csel (p : Proc) (rd rs1 rs2 : RegNo) (cond : Fin 16)
  /-- REV: Reverses byte order. (R244) -/
  | rev (p : Proc) (rd rs1 : RegNo)
  /-- MUL: Low 32 bits of a product. (R246) -/
  | mul (p : Proc) (rd rs1 rs2 : RegNo) (short : Bool)
  /-- MULH: High 32 bits of the signed product. (R246) -/
  | mulh (p : Proc) (rd rs1 rs2 : RegNo)
  /-- MULHU: High 32 bits of the unsigned product. (R246) -/
  | mulhu (p : Proc) (rd rs1 rs2 : RegNo)
  /-- DIV: Signed division rounding toward zero. (R246) -/
  | div (p : Proc) (rd rs1 rs2 : RegNo)
  /-- DIVU: Unsigned division. (R246) -/
  | divu (p : Proc) (rd rs1 rs2 : RegNo)
  /-- REM: Signed remainder. (R246) -/
  | rem (p : Proc) (rd rs1 rs2 : RegNo)
  /-- REMU: Unsigned remainder. (R246) -/
  | remu (p : Proc) (rd rs1 rs2 : RegNo)
  /-- LD_B: Loads a sign-extended byte. (R247) -/
  | ldB (p : Proc) (rd : RegNo) (m : Addr) (rivals : List (Fin 18))
  /-- LD_BU: Loads a zero-extended byte. (R247) -/
  | ldBu (p : Proc) (rd : RegNo) (m : Addr) (rivals : List (Fin 18))
  /-- LD_H: Loads a sign-extended halfword. (R247) -/
  | ldH (p : Proc) (rd : RegNo) (m : Addr) (rivals : List (Fin 18))
  /-- LD_HU: Loads a zero-extended halfword. (R247) -/
  | ldHu (p : Proc) (rd : RegNo) (m : Addr) (rivals : List (Fin 18))
  /-- LD_W: Loads a word, in any addressing form. (R247) -/
  | ldW (p : Proc) (rd : RegNo) (m : Addr) (rivals : List (Fin 18))
  /-- ST_B: Stores a byte. (R247) -/
  | stB (p : Proc) (rd : RegNo) (m : Addr) (rivals : List (Fin 18))
  /-- ST_H: Stores a halfword. (R247) -/
  | stH (p : Proc) (rd : RegNo) (m : Addr) (rivals : List (Fin 18))
  /-- ST_W: Stores a word. (R247) -/
  | stW (p : Proc) (rd : RegNo) (m : Addr) (rivals : List (Fin 18))
  /-- PUSH: Pushes a short register list through sp. (R251) -/
  | push (p : Proc) (list : BitVec 8) (xl : Bool) (rivals : List (Fin 18))
  /-- POP: Pops a short register list, possibly into pc. (R251) -/
  | pop (p : Proc) (list : BitVec 8) (xl : Bool) (rivals : List (Fin 18))
  /-- PUSHM: Pushes a masked register list. (R251) -/
  | pushm (p : Proc) (mask : BitVec 16) (rivals : List (Fin 18))
  /-- POPM: Pops a masked register list, possibly into pc. (R251) -/
  | popm (p : Proc) (mask : BitVec 16) (rivals : List (Fin 18))
  /-- BCC: Branches if the condition holds. (R242) -/
  | bcc (p : Proc) (cond : Fin 16) (off : BitVec 21) (short : Bool)
  /-- BR: Unconditional pc-relative branch. (R252) -/
  | br (p : Proc) (off : BitVec 25) (short : Bool)
  /-- BL: Branch with link. (R252) -/
  | bl (p : Proc) (off : BitVec 25)
  /-- JR: Jumps to a register target. (R253) -/
  | jr (p : Proc) (rs : RegNo)
  /-- JLR: Jumps to a register target with link. (R252) -/
  | jlr (p : Proc) (rd rs1 : RegNo) (short : Bool)
  /-- RET: Returns to lk. (R253) -/
  | ret (p : Proc)
  /-- CBZ: Branches if a register is zero. (R241) -/
  | cbz (p : Proc) (rs : RegNo) (off : BitVec 20)
  /-- CBNZ: Branches if a register is not zero. (R241) -/
  | cbnz (p : Proc) (rs : RegNo) (off : BitVec 20)
  /-- LOOP: Starts hardware loop 0 or 1 with a count and body length. (R262) -/
  | loop (p : Proc) (x : Bool) (imm : Bool) (count : BitVec 9) (len : BitVec 8) (rc : RegNo)
  /-- MFC: Reads a control register. (R232) -/
  | mfc (p : Proc) (rd : RegNo) (num : BitVec 8)
  /-- MTC: Writes a control register under level and loop checks. (R231) -/
  | mtc (p : Proc) (num : BitVec 8) (rs : RegNo)
  /-- SWI: Raises the software-interrupt exception. (R254) -/
  | swi (p : Proc) (num : BitVec 8)
  /-- RFE: Checks and restores the exception frame and returns. (R301) -/
  | rfe (p : Proc) (rivals : List (Fin 18))
  /-- WFI: Waits until an interrupt or NMI may be taken. (R307) -/
  | wfi (p : Proc)
  /-- SYNC: Orders and makes visible earlier loads and stores. (R255) -/
  | sync (p : Proc)
  /-- SYNC_I: Invalidates the line and branch-target buffers so instructions are fetched afresh. (R281) -/
  | syncI (p : Proc)
  /-- BRK: Raises the breakpoint exception or halts for debug. (R512) -/
  | brk (p : Proc) (num : BitVec 8)
  /-- QADD: Saturating addition. (R256) -/
  | qadd (p : Proc) (rd rs1 rs2 : RegNo)
  /-- QSUB: Saturating subtraction. (R256) -/
  | qsub (p : Proc) (rd rs1 rs2 : RegNo)
  /-- QNEG: Saturating negation. (R256) -/
  | qneg (p : Proc) (rd rs1 : RegNo)
  /-- QABS: Saturating absolute value. (R256) -/
  | qabs (p : Proc) (rd rs1 : RegNo)
  /-- QMUL: Q31 multiply with rounding and saturation. (R256) -/
  | qmul (p : Proc) (rd rs1 rs2 : RegNo)
  /-- QMULH: Q15 multiply with rounding and saturation. (R256) -/
  | qmulh (p : Proc) (rd rs1 rs2 : RegNo)
  /-- QSHL: Saturating left shift. (R256) -/
  | qshl (p : Proc) (rd rs1 rs2 : RegNo)
  /-- SAT: Limits to an n-bit signed range. (R256) -/
  | sat (p : Proc) (rd rs1 : RegNo) (n : Fin 32)
  /-- SATU: Limits to an n-bit unsigned range. (R256) -/
  | satu (p : Proc) (rd rs1 : RegNo) (n : Fin 32)
  /-- CLAMP: Clamps rd between two registers. (R256) -/
  | clamp (p : Proc) (rd rs1 rs2 : RegNo)
  /-- MAC: Multiply-accumulate. (R258) -/
  | mac (p : Proc) (rd rs1 rs2 : RegNo)
  /-- MSU: Multiply-subtract. (R258) -/
  | msu (p : Proc) (rd rs1 rs2 : RegNo)
  /-- QMAC: Saturating Q31 multiply-accumulate. (R258) -/
  | qmac (p : Proc) (rd rs1 rs2 : RegNo)
  /-- QMSU: Saturating Q31 multiply-subtract. (R258) -/
  | qmsu (p : Proc) (rd rs1 rs2 : RegNo)
  /-- MACL: Signed 64-bit multiply-accumulate into a register pair. (R258) -/
  | macl (p : Proc) (rd rs1 rs2 : RegNo)
  /-- MACLU: Unsigned 64-bit multiply-accumulate into a register pair. (R258) -/
  | maclu (p : Proc) (rd rs1 rs2 : RegNo)
  /-- FADD: FP32 addition. (R260) -/
  | fadd (p : Proc) (rd rs1 rs2 : RegNo)
  /-- FSUB: FP32 subtraction. (R260) -/
  | fsub (p : Proc) (rd rs1 rs2 : RegNo)
  /-- FMUL: FP32 multiplication. (R260) -/
  | fmul (p : Proc) (rd rs1 rs2 : RegNo)
  /-- FMADD: FP32 fused multiply-add. (R260) -/
  | fmadd (p : Proc) (rd rs1 rs2 : RegNo)
  /-- FMSUB: FP32 fused multiply-subtract. (R260) -/
  | fmsub (p : Proc) (rd rs1 rs2 : RegNo)
  /-- FMIN: FP32 minimum. (R260) -/
  | fmin (p : Proc) (rd rs1 rs2 : RegNo)
  /-- FMAX: FP32 maximum. (R260) -/
  | fmax (p : Proc) (rd rs1 rs2 : RegNo)
  /-- FABS: FP32 absolute value. (R260) -/
  | fabs (p : Proc) (rd rs1 : RegNo)
  /-- FNEG: FP32 negation. (R260) -/
  | fneg (p : Proc) (rd rs1 : RegNo)
  /-- FCMP: FP32 compare setting NZCV. (R261) -/
  | fcmp (p : Proc) (rs1 rs2 : RegNo)
  /-- FTOQ: Converts FP32 to fixed point. (R260) -/
  | ftoq (p : Proc) (rd rs1 : RegNo) (f : Fin 32)
  /-- FFROMQ: Converts fixed point to FP32. (R260) -/
  | ffromq (p : Proc) (rd rs1 : RegNo) (f : Fin 32)
  /-- INTERRUPT_ENTRY: At a boundary an eligible interrupt is entered, abandoning a divide if one runs. (R299) -/
  | interruptEntry (c : Fin 9)
  /-- NMI_ENTRY: At a boundary a pending NMI is entered while NMI_ACTIVE is 0. (R304) -/
  | nmiEntry (c : Fin 9)
  /-- IRQ_EVENT: An event at HCn_IRQk or SV_IRQk sets PEND of the interrupt. (R303) -/
  | irqEvent (c : Fin 9) (k : Fin 256)
  /-- NMI_EVENT: An event at an NMI input makes the NMI pending. (R304) -/
  | nmiEvent (c : Fin 9)
  /-- CPS_IRQ_SET: A write to CPS_IRQ_SETj sets PEND bits. (R303) -/
  | cpsIrqSet (c : Fin 9) (j : Fin 8) (v : Word)
  /-- CPS_IRQ_CLR: A write to CPS_IRQ_CLRj clears PEND bits. (R305) -/
  | cpsIrqClr (c : Fin 9) (j : Fin 8) (v : Word)
  /-- CPS_IRQ_CFG_WRITE: A write to CPS_IRQ_CFGn changes LVL, EN or PRIO from the next boundary. (R306) -/
  | cpsIrqCfgWrite (c : Fin 9) (n : Fin 256) (v : Word)
  /-- CPS_NMI_SET: A write of SET at M makes the NMI pending. (R304) -/
  | cpsNmiSet (c : Fin 9)
  /-- PRODUCER_EVENT: A producer raises an event that crosses into the matrix, or is held and merged at the producer. (R314) -/
  | producerEvent (line : Fin 768) (hop : Fin 8)
  /-- PRODUCER_HOLD_RELEASE: A held event leaves the producer 8.0 ns after the previous one. (R314) -/
  | producerHoldRelease (line : Fin 768)
  /-- CHANNEL_STAGE: A channel ORs arriving events and fires into one emission, counting coincidences and merging overruns. (R315) -/
  | channelStage (c : Fin 256)
  /-- EVENT_DELIVERY: A pending event reaches its consumer input after resynchronisation and is taken. (R316) -/
  | eventDelivery (c : Fin 256)
  /-- EVM_FIRE: A write of FIRE enters the channel stage with HOP. (R320) -/
  | evmFire (q : Requester) (c : Fin 256) (hop : Fin 8)
  /-- EVM_TIMED: A write of TIMED arms a timed fire at AT, or fires at once with LATE_AT. (R320) -/
  | evmTimed (q : Requester) (c : Fin 256) (hop : Fin 8)
  /-- EVM_CANCEL: A write of CANCEL disarms the timed fire. (R321) -/
  | evmCancel (q : Requester) (c : Fin 256)
  /-- EVM_CLEAR: A write of CLEAR sets COINCIDE and COUNT to 0. (R313) -/
  | evmClear (q : Requester) (c : Fin 256)
  /-- TIMED_FIRE_DUE: Device time reaches AT and the timed fire enters the channel stage. (R320) -/
  | timedFireDue (c : Fin 256)
  /-- FSE_TXTAIL_WRITE: Advancing TXTAIL posts transmit descriptors to the port. (R338) -/
  | fseTxtailWrite (q : Requester) (n : Fin 4) (tail : BitVec 10)
  /-- FSE_TX_START: After CSMA/CA the port starts a frame at TX_START if RATE_OK, or ends it RATE. (R329) -/
  | fseTxStart (n : Fin 4) (clear : Bool)
  /-- FSE_TX_END: The last waveform sample passes and FEED returns to 0. (R327) -/
  | fseTxEnd (n : Fin 4)
  /-- FSE_ACK_TIMEOUT: No acknowledgement arrives; the port retries or completes the descriptor NO_ACK. (R339) -/
  | fseAckTimeout (n : Fin 4)
  /-- FSE_DESCRIPTOR_DONE: The port writes the descriptor back with its status and raises FPn_TXDONE. (R339) -/
  | fseDescriptorDone (n : Fin 4) (acked : Bool)
  /-- FSE_RX_FRAME: A received frame passing FCS and address filter enters the feeder buffer and is handed to the session engine. (R335) -/
  | fseRxFrame (n : Fin 4) (f : AirFrame)
  /-- FP_GO_EVENT: An event at FPn_GO releases a gated head descriptor. (R339) -/
  | fpGoEvent (n : Fin 4)
  /-- MUTE: Setting MUTE zeroes FEED and abandons any transmission with MUTED. (R330) -/
  | mute (q : Requester) (n : Fin 4) (on : Bool)
  /-- FSE_ENABLE_WRITE: Clearing ENABLE ends the frame in progress DISABLED. (R340) -/
  | fseEnableWrite (q : Requester) (n : Fin 4) (v : BitVec 4)
  /-- LOOKUP: The LOOKUP command finds a context by key. (R347) -/
  | sesLookup (q : Requester) (p : Fin 8) (short : Bool)
  /-- CREATE: The CREATE command takes a free context and inserts its keys. (R346) -/
  | sesCreate (q : Requester) (p : Fin 8)
  /-- SES_READ: The READ command copies a context to DATA0 to DATA11. (R347) -/
  | sesRead (q : Requester) (p : Fin 8)
  /-- UPDATE: The UPDATE command writes the selected field groups. (R348) -/
  | sesUpdate (q : Requester) (p : Fin 8) (mask : Byte)
  /-- READ_CLEAR: The READ_CLEAR command reads a context and clears counts and selected faults. (R347) -/
  | readClear (q : Requester) (p : Fin 8) (mask : Byte)
  /-- RETIRE: The RETIRE command zeroes a context, removes its keys and frees it. (R346) -/
  | sesRetire (q : Requester) (p : Fin 8)
  /-- FOLD: The FOLD command folds a report into a context. (R354) -/
  | sesFold (q : Requester) (p : Fin 8) (mask : Byte)
  /-- SES_COMMAND_DONE: A session command completes: CODE is set, BUSY clears and DONE sets. (R347) -/
  | sesCommandDone (p : Fin 8)
  /-- SES_FRAME: A handed-over frame is looked up, authenticated, folded or queued, or rejected. (R352) -/
  | sesFrame (n : Fin 4)
  /-- KEY_APPLY: A write to KEYk_W3 applies the staged key words. (R351) -/
  | keyApply (q : Requester) (p : Fin 8) (k : Fin 8) (v : Word)
  /-- TXFC_WRITE: A write to TXFC sets the send counter unless lower than the current value. (R351) -/
  | txfcWrite (q : Requester) (p : Fin 8) (k : Fin 8) (v : Word)
  /-- ETH_RX_FRAME: A received Ethernet frame is checked, steered by VLAN to a ring and stored with a time-stamp. (R362) -/
  | ethRxFrame (p : Fin 2) (fr : List Byte) (t : Time)
  /-- ETH_TX_SELECT: At a frame end or gate opening the port sends the head frame of the highest eligible queue. (R366) -/
  | ethTxSelect (p : Fin 2)
  /-- ETH_TAIL_WRITE: Advancing a ring TAIL posts descriptors. (R363) -/
  | ethTailWrite (q : Requester) (p : Fin 2) (r : Fin 9) (rx : Bool) (tail : BitVec 12)
  /-- GCL_CHANGE: A write of CHANGE sets PENDING for the admin gate list. (R367) -/
  | gclChange (q : Requester) (p : Fin 2) (v : Word)
  /-- GCL_SWITCH: At the qualifying instant the admin list becomes operating and PENDING clears. (R367) -/
  | gclSwitch (p : Fin 2)
  /-- ETH_LINK_CHANGE: LINK_UP changes, setting LINK_CHG and raising ETHp_LINK. (R361) -/
  | ethLinkChange (p : Fin 2) (lock hiBer : Bool)
  /-- ETH_CAPTURE: An event at ETHp_CAPTURE latches device time and raises ETHp_CAP. (R374) -/
  | ethCapture (p : Fin 2)
  /-- TIME_RATE_WRITE: A write to ETH_TIME_RATE steers PLL_PWM continuously to the new rate. (R372) -/
  | timeRateWrite (q : Requester) (v : Word)
  /-- PTP_OFS_APPLY: A write to ETH_PTP_OFS_HI applies the staged OFS. (R373) -/
  | ptpOfsApply (q : Requester) (v : Word)
  /-- PTP_SEC_APPLY: A write to ETH_PTP_SEC_HI applies the staged SEC. (R373) -/
  | ptpSecApply (q : Requester) (v : Word)
  /-- PCIE_BAR_ACCESS: A host access through a BAR is made in the partition's view or refused. (R378) -/
  | pcieBarAccess (f : Fin 8) (bar : Fin 6) (o : BitVec 25) (n : Nat) (w : Option (List Byte)) (rivals : List (Fin 18))
  /-- FUNCTION_LEVEL_RESET: A function-level reset resets the function's configuration and ends its requests. (R381) -/
  | functionLevelReset (n : Fin 8)
  /-- HOT_RESET: A hot reset or link-down resets every function of the link. (R381) -/
  | hotReset (l : Fin 2) (down : Bool)
  /-- VREQ: A write to VREQ requests MSI-X vectors. (R380) -/
  | vreq (q : Requester) (n : Fin 8) (hi : Bool) (mask : Word)
  /-- MSIX_MESSAGE: A requested vector that may be sent is sent as one message. (R380) -/
  | msixMessage (n : Fin 8) (v : Fin 64)
  /-- GPIO_INPUT_EVENT: A selected edge on a named pin raises input event k. (R383) -/
  | gpioInputEvent (k : Fin 16) (rising : Bool)
  /-- GPIO_OUTPUT_EVENT: An event at output input k sets, clears or toggles its pin. (R383) -/
  | gpioOutputEvent (k : Fin 16)
  /-- GPIO_EV_WRITE: A write to GPIO_EVk or GPIO_OEVk takes effect only under the ownership rule. (R383) -/
  | gpioEvWrite (q : Requester) (k : Fin 16) (oev : Bool) (v : Word)
  /-- PARTITION_RESET_REQUEST: A reset request puts the partition into ASSERTING: cores stop, bindings forced, links stopped, locks released. (R391) -/
  | partitionResetRequest (p : Fin 8) (cause : Fin 4)
  /-- PART_SELF_RESET: A write of RESET with KEY 0x5A to PART_Pn_SELF requests a partition reset. (R390) -/
  | partSelfReset (q : Requester) (p : Fin 8) (key : Byte)
  /-- PART_RSTCTRL_RESET: A platform write of RESET to PART_Pn_RSTCTRL requests a partition reset. (R390) -/
  | partRstctrlReset (q : Requester) (p : Fin 8) (hold : Bool)
  /-- PARTITION_WIPE_DONE: The partition wipe ends and the partition is held or released. (R392) -/
  | partitionWipeDone (p : Fin 8)
  /-- PART_START: A write of START to PART_Pn_SELF starts the waiting cores. (R393) -/
  | partStart (q : Requester) (p : Fin 8)
  /-- HOLD_WRITE: Clearing HOLD releases a HELD partition. (R393) -/
  | holdWrite (q : Requester) (p : Fin 8) (hold : Bool)
  /-- LOCK_ACQUIRE: A read of PART_LOCKk_ACQ acquires a free lock or reports its holder. (R396) -/
  | lockAcquire (q : Requester) (k : Fin 256)
  /-- LOCK_RELEASE: The owner's RELEASE write frees the lock. (R397) -/
  | lockRelease (q : Requester) (k : Fin 256)
  /-- LOCK_RENEW: The owner's RENEW write restarts the lease. (R397) -/
  | lockRenew (q : Requester) (k : Fin 256)
  /-- CLEAR_BROKEN: The owner's CLEAR_BROKEN write clears BROKEN. (R397) -/
  | clearBroken (q : Requester) (k : Fin 256)
  /-- FORCE_RELEASE: A platform FORCE_RELEASE write frees the lock and marks it BROKEN with cause 6. (R399) -/
  | forceRelease (q : Requester) (k : Fin 256)
  /-- LEASE_EXPIRY: A held lock's lease expires; it is freed and marked BROKEN with cause 4. (R399) -/
  | leaseExpiry (k : Fin 256)
  /-- ECC_WRITE_BACK: The corrected word is written back in the memory's next free cycle. (R406) -/
  | eccWriteBack (line : BitVec 26)
  /-- MEMC_INJECT: A write to MEMC_INJ_CTRL arms an injection on the next write to the line. (R414) -/
  | memcInject (q : Requester) (kind : Fin 4)
  /-- DMA_START: A write of START fetches the descriptor at HEAD or resumes at CUR. (R422) -/
  | dmaStart (q : Requester) (n : Fin 32)
  /-- DMA_STOP: A write of STOP stops the channel at the next descriptor boundary. (R422) -/
  | dmaStop (q : Requester) (n : Fin 32)
  /-- DMA_REQ_WRITE: A write to DMA_Cn_REQ sets REQ. (R419) -/
  | dmaReqWrite (q : Requester) (n : Fin 32)
  /-- DCN_REQ_EVENT: An event at DCn_REQ sets REQ. (R419) -/
  | dcnReqEvent (n : Fin 32)
  /-- DMA_DESCRIPTOR_FETCH: The channel fetches and checks a descriptor, then waits or moves data. (R419) -/
  | dmaDescriptorFetch (n : Fin 32) (rivals : List (Fin 18))
  /-- DMA_STREAM_READY: Enough stream data waits and the waiting descriptor proceeds. (R419) -/
  | dmaStreamReady (n : Fin 32)
  /-- DMA_BURST: The engine issues a burst of a ready channel in round order. (R421) -/
  | dmaBurst (rivals : List (Fin 18)) (data : List Byte) (err : Bool)
  /-- DMA_DESCRIPTOR_DONE: All data writes are visible; STATUS is written, DCn or a vector raised and the next descriptor follows. (R419) -/
  | dmaDescriptorDone (n : Fin 32)
  /-- ARB_COMMIT: A write of COMMIT applies an arbiter's shadows at the next slot. (R434) -/
  | arbCommit (q : Requester) (a : Fin 50)
  /-- ARB_COMMIT_MULTI: A write to ARB_COMMIT_LO or ARB_COMMIT_HI commits the arbiters whose bits are set. (R434) -/
  | arbCommitMulti (q : Requester) (hi : Bool) (mask : Word)
  /-- CLEAR_WAIT: A write of CLEAR_WAIT sets ARB_Aa_WAITMAX to 0. (R433) -/
  | clearWait (q : Requester) (a : Fin 50)
  /-- PROGRAM: The PROGRAM service programs and verifies flash units. (R450) -/
  | flashProgram (c : Fin 9)
  /-- ERASE: The ERASE service journals, erases and verifies a block. (R451) -/
  | flashErase (c : Fin 9)
  /-- SUSPEND: The SUSPEND service suspends an array's operation. (R456) -/
  | flashSuspend (c : Fin 9)
  /-- RESUME: The RESUME service returns a suspended operation to RUNNING. (R456) -/
  | flashResume (c : Fin 9)
  /-- STATUS: The STATUS service writes an array's operation status. (R449) -/
  | flashStatus (c : Fin 9)
  /-- FLASH_READ: The READ service copies flash with a normal or margin threshold. (R465) -/
  | flashRead (c : Fin 9)
  /-- BLOCK_INFO: The BLOCK_INFO service returns a block's erase count and marks. (R464) -/
  | blockInfo (c : Fin 9)
  /-- PROTECT: The PROTECT service locks blocks against program and erase. (R452) -/
  | flashProtect (c : Fin 9)
  /-- CAL_READ: The CAL_READ service copies the calibration record. (R467) -/
  | calRead (c : Fin 9)
  /-- CAL_WRITE: The CAL_WRITE service erases and programs a new calibration record. (R467) -/
  | calWrite (c : Fin 9)
  /-- JOURNAL_READ: The JOURNAL_READ service copies one journal entry. (R461) -/
  | journalRead (c : Fin 9)
  /-- FLASH_OP_DONE: A flash operation reaches DONE; buffers are invalidated, FLASH_DONE raised and a blocking call returns. (R447) -/
  | flashOpDone (b : Fin 5) (bad : Option (Fin 128))
  /-- READ_WINDOW: At the end of a pulse or sub-pulse a read window admits waiting reads of a busy array. (R444) -/
  | readWindow (b : Fin 5)
  /-- AUTO_RESUME: An operation suspended for 50 ms resumes by itself with AUTO_RESUMED. (R456) -/
  | autoResume (b : Fin 5)
  /-- SUPPLY_HOLD_END: 20 µs after all warnings clear a held operation returns to RUNNING. (R458) -/
  | supplyHoldEnd
  /-- DOMAIN_REQUEST: A request rises for a closed domain and its gate opens, starting its PLL if needed. (R472) -/
  | domainRequest (d : Fin 104)
  /-- DOMAIN_GATE_CLOSE: A demand domain with no request for 64 cycles closes its gate. (R470) -/
  | domainGateClose (d : Fin 104)
  /-- PLL_LOCKED: A started PLL locks and the waiting gates open. (R469) -/
  | pllLocked (k : Fin 24)
  /-- PLL_IDLE_STOP: A PLL whose domains have all been stopped for 100 µs stops. (R469) -/
  | pllIdleStop (k : Fin 24)
  /-- CLK_SEL_WRITE: A write changing SEL starts a glitch-free source switch. (R473) -/
  | clkSelWrite (q : Requester) (d : Fin 104) (v : BitVec 2)
  /-- CLK_SWITCH_DONE: The switch selects the new clock and SWITCHING clears. (R473) -/
  | clkSwitchDone (d : Fin 104)
  /-- BREAK: A write of BREAK with HOLD_RESET set connects the selected source at once. (R475) -/
  | clkBreak (q : Requester) (d : Fin 104) (keep : BitVec 2)
  /-- CLRFAULT: A write of CLRFAULT ends a domain's clock force once it has had edges for 1 µs. (R478) -/
  | clrfault (q : Requester) (d : Fin 104) (keep : BitVec 2)
  /-- HOLD_RESET_WRITE: A write of HOLD_RESET asserts or releases a DOMAIN reset. (R479) -/
  | holdResetWrite (q : Requester) (d : Fin 104) (v : BitVec 2)
  /-- RELOCK: A write of RELOCK restarts every failed PLL. (R479) -/
  | relock (q : Requester) (keep : Word)
  /-- MISSING_EDGE: A watched domain clock has no edge for 1 µs; HANG sets and its forces assert. (R476) -/
  | missingEdge (d : Fin 104)
  /-- SOURCE_FAIL: A source has no edge for 1 µs; FAIL sets and its domains are forced and held in reset. (R479) -/
  | sourceFail (k : Fin 24)
  /-- BRC_FAIL: The backup RC count is out of range twice and BRC_FAIL is set. (R481) -/
  | brcFail
  /-- XTAL32_FAIL: The 32 kHz crystal gives no edge for 100 µs and the RTC holds. (R483) -/
  | xtal32Fail
  /-- RTC_SET: A write to PWR_RTC_HI applies both RTC words and sets VALID. (R483) -/
  | rtcSet (q : Requester) (v : BitVec 16)
  /-- RTC_ALARM: The RTC reaches ALM, sets ALARM and acts as a wake source. (R483) -/
  | rtcAlarm
  /-- PARK: A PWR_CTRL write of PARK stops every unheld domain and non-system PLL. (R485) -/
  | park (q : Requester) (key : Byte)
  /-- STANDBY: A PWR_CTRL write of STANDBY forces outputs, resets partitions, latches pads and powers off all but the Pavane domain and context store. (R486) -/
  | standby (q : Requester) (key : Byte)
  /-- DORMANT: A PWR_CTRL write of DORMANT powers off everything but the Pavane domain. (R486) -/
  | dormant (q : Requester) (key : Byte)
  /-- WAKE: WAKE_N or the RTC alarm leaves STANDBY or DORMANT and boots the device. (R487) -/
  | wake (rtc : Bool)
  /-- WARN_ASSERT: A supply stays below its warning level; WARN asserts, latches set and blocks react. (R491) -/
  | warnAssert (m : Fin 16)
  /-- WARN_CLEAR: The supply stays above its level plus hysteresis for 2.0 µs and WARN clears. (R491) -/
  | warnClear (m : Fin 16)
  /-- SUPPLY_RESET: A supply falls to its reset level and requests a DEVICE reset. (R491) -/
  | supplyReset (m : Fin 16)
  /-- LOCKSTEP_FAILURE: A pair's compared outputs differ; the pair stops and its locks are released. (R495) -/
  | lockstepFailure (k : Fin 5) (g : Fin 4)
  /-- SUP_FORCE_WRITE: A write to SUP_FORCE_PWM or SUP_FORCE_LINK sets or ends the supervisor force. (R500) -/
  | supForceWrite (q : Requester) (link : Bool) (v : Word)
  /-- SUP_FAULTOUT_WRITE: A write of ASSERT drives FAULT_N. (R508) -/
  | supFaultoutWrite (q : Requester) (on : Bool)
  /-- WDT_LOCK: Setting LOCK fixes the watchdog MIN and MAX until DEVICE reset. (R502) -/
  | wdtLock (q : Requester) (min max : BitVec 10)
  /-- KICK: A write to SUP_KICK restarts the watchdog, or is a bad kick. (R502) -/
  | kick (q : Requester) (key : Byte)
  /-- WATCHDOG_TIMEOUT: No kick within MAX ms is a watchdog failure. (R502) -/
  | watchdogTimeout
  /-- RECOVERY_FAILURE: A failure input latches the recovery force and starts the recovery sequence. (R503) -/
  | recoveryFailure (cause : Fin 8)
  /-- RECOVERY_STEP: On each 32 kHz edge the recovery machine advances through resetting, restarting or SAFE_HOLD. (R504) -/
  | recoveryStep
  /-- SUPERVISOR_RESTARTED: The restarted supervisor reaches ENTRY and the machine enters WATCH. (R504) -/
  | supervisorRestarted
  /-- REC_RELEASE: A write of RELEASE with KEY 0x96 ends the recovery force in WATCH. (R506) -/
  | recRelease (q : Requester) (key : Byte)
  /-- SELF_RESET: A write of SELF_RESET is recovery failure cause 7. (R503) -/
  | selfReset (q : Requester) (key : Byte)
  /-- LRT_REARM: Every 256 RC cycles the recovery machine re-arms the analogue timer. (R507) -/
  | lrtRearm
  /-- LRT_EXPIRY: The analogue timer expires and drives pads safe, squelches links and asserts FAULT_N. (R507) -/
  | lrtExpiry
  /-- CHALLENGE: A write of CHALLENGE fills the nonce registers. (R511) -/
  | challenge (q : Requester) (v : Word)
  /-- VERIFY: A write of VERIFY starts verification of the debug grant signature. (R511) -/
  | dbgVerify (q : Requester) (v : Word)
  /-- VERIFY_DONE: Verification ends, opening scopes or counting a failure. (R511) -/
  | verifyDone
  /-- CLOSE: A write of CLOSE ends the debug grant. (R511) -/
  | dbgClose (q : Requester) (v : Word)
  /-- HALT: A debug HALT halts a core at the next boundary or a lane at once. (R512) -/
  | dbgHalt (q : Requester) (c : Fin 32) (brk : Bool)
  /-- DEBUG_RESUME: A debug RESUME continues a core at DPC or returns a lane to dispatch. (R512) -/
  | debugResume (q : Requester) (c : Fin 32) (brk : Bool)
  /-- STEP: A debug STEP executes one instruction and halts again. (R512) -/
  | dbgStep (q : Requester) (c : Fin 32) (brk : Bool)
  /-- BREAKPOINT_HALT: A breakpoint match halts the core at the boundary. (R512) -/
  | breakpointHalt (c : Fin 9)
  /-- DEBUG_DATA_ACCESS: A DBG_Cc_DATA access reads or writes the selected register of a halted core. (R512) -/
  | debugDataAccess (q : Requester) (c : Fin 32) (w : Option Word)
  /-- RESET_N_ASSERT: RESET_N low for 1 µs asserts a DEVICE reset with cause PIN. (R517) -/
  | resetNAssert
  /-- POWER_ON: VDD_AON rises from below its reset level and resets the device and Pavane domain. (R516) -/
  | powerOn
  /-- RST_CTRL_DEVICE: A write of DEVICE with KEY 0x3C requests a DEVICE reset. (R516) -/
  | rstCtrlDevice (q : Requester) (key : Byte)
  /-- RESET_RELEASE: 100 µs after all reset conditions end the internal reset is released. (R517) -/
  | resetRelease (split : Bool)
  /-- MAILBOX_POLL: Every 10 µs ROM reads the recovery mailbox and acts on a written command. (R530) -/
  | mailboxPoll
  /-- RECOVERY_RUN: The RUN command checks and applies the image at ADDR and continues the boot. (R531) -/
  | recoveryRun (cmp : BitVec 6)
  /-- WRITE_A: The WRITE_A command checks an image and writes it into slot A. (R531) -/
  | writeA (ok : Bool)
  /-- WRITE_B: The WRITE_B command checks an image and writes it into slot B. (R531) -/
  | writeB (ok : Bool)
  /-- RECOVERY_PROVISION: The PROVISION command writes a key hash into an empty slot. (R539) -/
  | recoveryProvision (fuseOk : Bool)
  /-- RECOVERY_ADVANCE: The ADVANCE command performs a life-cycle transition. (R535) -/
  | recoveryAdvance (fuseOk : Bool)
  /-- RECOVERY_RESET: The RESET command performs a DEVICE reset with cause SOFTWARE. (R531) -/
  | recoveryReset
  /-- LCS_ADVANCE: LCS_CTRL ADVANCE checks, verifies a token, blows the state fuses and resets. (R535) -/
  | lcsAdvance (q : Requester) (target : Fin 8) (fuseOk : Bool)
  /-- LCS_PROVISION: LCS_CTRL PROVISION writes a key hash from LCS_PROV_HASH. (R539) -/
  | lcsProvision (q : Requester) (slot : Fin 4) (fuseOk : Bool)
  /-- REVOKE: LCS_CTRL REVOKE blows a key slot's revoke fuse. (R539) -/
  | revoke (q : Requester) (slot : Fin 4) (fuseOk : Bool)
  /-- IDCODE: The TAP IDCODE instruction selects the identification register. (R565) -/
  | idcode
  /-- SAMPLE_PRELOAD: The TAP SAMPLE/PRELOAD instruction samples pads and loads the update stage. (R565) -/
  | samplePreload (board level drive : BitVec 214)
  /-- EXTEST: The TAP EXTEST instruction drives and samples pads while RESET_N is low. (R566) -/
  | extest (board level drive : BitVec 214)
  /-- CLAMP_TAP: The TAP CLAMP instruction holds pads at boundary values while RESET_N is low. (R566) -/
  | clampTap
  /-- HIGHZ: The TAP HIGHZ instruction puts boundary outputs in high impedance while RESET_N is low. (R566) -/
  | highz
  /-- DAP_ACCESS: The TAP DAP_ACCESS instruction reaches the debug access port. (R565) -/
  | dapAccess
  /-- BYPASS: The TAP BYPASS instruction selects the 1-bit bypass register. (R565) -/
  | bypass (code : Byte)
  /-- TAP_RESET: TRST_N low or five TCK cycles with TMS high reset the TAP to IDCODE. (R565) -/
  | tapReset
  /-- REGISTER_WRITE: A write to a register with no row of its own acts by its field access types. (R9) -/
  | registerWrite (q : Requester) (a : BitVec 32) (v : Word)
  /-- UNDEFINED_INSTRUCTION: A core or lane issues an encoding that is undefined, raising UNDEF (a lane fault on a lane). (R236) -/
  | undefinedInstruction (p : Proc) (short : Bool)
  /-- FETCH_FAULT: An instruction fetch is refused or meets an uncorrectable error, raising BUS or ECC at the instruction that would be fetched. (R292) -/
  | fetchFault (p : Proc) (second : Bool)
  /-- PCIE_CONFIG_WRITE: A host configuration write changes Bus Master Enable, MSI-X enable or the function mask, raising PCIEn_CFG and possibly releasing pending vectors. (R380) -/
  | pcieConfigWrite (n : Fin 8) (mem bme msix mask : Bool)
  /-- PCIE_LINK_UP: A PCIe link completes training and UP sets in PCIE_LINKl_STATUS. (R375) -/
  | pcieLinkUp (l : Fin 2) (speed : Fin 4) (width : Fin 5)
  /-- PCIE_PERST_N: PCIE_PERST_N changes level, holding domains 90 and 91 in DOMAIN reset while low and releasing them when high. (R555) -/
  | pciePerstN (high : Bool)
  /-- DEBUG_ACCESS_PORT_ACCESS: The debug access port makes a memory or register access as requester 15 in the view DBG_DAP_VIEW names. (R509) -/
  | debugAccessPortAccess (a : BitVec 32) (n : Nat) (w : Option (List Byte)) (rivals : List (Fin 18))
  /-- ENTROPY_TEST_FAIL: A continuous health test of the entropy source fails and ENT_FAIL sets. (R540) -/
  | entropyTestFail
  /-- CAN_FRAME_RECEIVED: A CAN FD controller receives a frame from the bus into a matching buffer with a device-time stamp, updating status and error counts. (R382) -/
  | canFrameReceived (c : Fin 2) (ok ext : Bool) (id : BitVec 29) (fd : Bool) (dlc : Fin 16) (data : List Byte)
  /-- CAN_TX_DONE: A CAN FD transmission attempt ends, setting TX done or raising error counts toward error passive or bus-off. (R382) -/
  | canTxDone (c : Fin 2) (m : Fin 32) (ok : Bool)
  /-- CAN_BUS_OFF_RECOVERY: A bus-off controller recovers automatically after 128 × 11 recessive bits. (R382) -/
  | canBusOffRecovery (c : Fin 2)
  /-- UART_BYTE_RECEIVED: A UART receives a character into its FIFO, or flags break, framing, parity or overrun. (R382) -/
  | uartByteReceived (u : Fin 4) (b : Byte) (brk framing parity : Bool)
  /-- SPI_WORD_TRANSFER: An SPI controller or target completes shifting one word, updating FIFOs and underrun or overrun. (R382) -/
  | spiWordTransfer (u : Fin 4) (v : Word)
  /-- I2C_TRANSFER_DONE: An I²C controller command ends with done, NACK or arbitration lost. (R382) -/
  | i2cTransferDone (c : Fin 2) (outcome : Fin 3) (data : List Byte)
  /-- I2C_TARGET_ADDRESSED: An I²C target recognises its own address on the bus and sets addressed. (R382) -/
  | i2cTargetAddressed (c : Fin 2) (a : BitVec 10) (tenBit : Bool)
  /-- RESET_N_HIGH: RESET_N rises, ending a TAP test state on the pads and starting the 100 µs release count. (R517) -/
  | resetNHigh
  deriving DecidableEq, Repr

end Sys2Proof
end

