-- ==== Sys2Proof/WellFormed.lean ====
section
/-!
DEFINITION. Which commands are well formed: their operands are ones that an encoding, or the interface that carries them, has. The types of
Syntax.lean hold most bounds; the checks here are the rest.
-/
namespace Sys2Proof

/-- A 16-bit form has a signed 7-bit immediate (R238). -/
def imm7 {w : Nat} (short : Bool) (imm : BitVec w) : Bool := !short || (decide (-64 ≤ imm.toInt) && decide (imm.toInt ≤ 63))
/-- A 16-bit two-register form takes rd as its first operand (R239). -/
def sameFirst (short : Bool) (rd rs1 : RegNo) : Bool := !short || rs1 == rd
/-- A modifying load does not load its base register (R249). -/
def loadBase (m : Addr) (rd : RegNo) : Bool := match m with | .post rb _ | .pre rb _ => rb != rd | _ => true
/-- An access of `n` bytes carries `n` bytes when it writes. -/
def accessSize (n : Nat) (w : Option (List Byte)) : Bool := decide (1 ≤ n) && decide (n ≤ 4096) && match w with | some bs => bs.length == n | none => true
/-- Data bytes of a CAN frame by its length code (ISO 11898-1, R382). -/
def canLength (fd : Bool) (dlc : Fin 16) : Nat :=
  if dlc.val ≤ 8 then dlc.val
  else if !fd then 8
  else match dlc.val with | 9 => 12 | 10 => 16 | 11 => 20 | 12 => 24 | 13 => 32 | 14 => 48 | _ => 64

/-- Is a command well formed? -/
def Instr.wf : Instr → Bool
  | .deviceBoot _ _ _ => true
  | .pllWaitRetry _ _ => true
  | .reloadStart _ _ => true
  | .reloadPersistRequest _ _ => true
  | .reloadCheckDone => true
  | .reloadPrepareDone => true
  | .bindingSwitch _ => true
  | .reloadDone => true
  | .persistDone _ => true
  | .floorAdvance _ _ => true
  | .floorWritten => true
  | .sampleHold _ _ => true
  | .converterWordOut _ => true
  | .mailboxWordArrival _ _ => true
  | .fcArmEvent _ => true
  | .fcvFire _ _ => true
  | .fcvCommit _ _ => true
  | .fcvDdivWrite _ _ _ => true
  | .calStepStart _ => true
  | .calCompare _ _ => true
  | .sliceSwap _ => true
  | .freezeWrite _ _ _ => true
  | .cmpOutputActive _ _ => true
  | .cmpOutputInactive _ _ => true
  | .cmpLock _ _ _ => true
  | .cmpTestPulse _ _ => true
  | .cmpTestPulseEnd _ _ => true
  | .scanRoundStart _ => true
  | .scvStartEvent _ => true
  | .scanConversion _ _ => true
  | .winLimitWrite _ _ _ _ => true
  | .laneTrigger _ _ => true
  | .clTrigEvent _ => true
  | .bindingFire _ _ => true
  | .dispatch _ _ => true
  | .waitLimitExpiry _ _ => true
  | .outSend _ _ _ => true
  | .outHold _ _ _ => true
  | .activationDone _ => true
  | .deadlineMiss _ => true
  | .commitWordArrival _ => true
  | .pairWaitExpiry _ => true
  | .commitDelivery _ => true
  | .laneReset _ _ => true
  | .clrfaultLane _ _ => true
  | .laneSwap _ _ => true
  | .releaseBinding _ _ => true
  | .clearBindingCounts _ _ => true
  | .periodStart _ => true
  | .unitFirstPeriodStart _ => true
  | .halfPeriod _ => true
  | .pwmEdge _ => true
  | .pwmCommit _ _ => true
  | .pwmCommitAll _ _ => true
  | .pwmCmpWrite _ _ _ => true
  | .pwmForceActive _ => true
  | .tripevEvent _ => true
  | .pwmLatchClear _ _ _ => true
  | .swForcePwm _ _ _ => true
  | .pwmGroupAligned _ => true
  | .pwmResumeGrid _ => true
  | .frameSlot _ _ => true
  | .upstreamFrame _ _ _ fr => fr.length == 379
  | .upstreamMissed _ => true
  | .linkStart _ _ => true
  | .linkStop _ _ => true
  | .clrcnt _ _ => true
  | .remeasure _ _ => true
  | .linkSleep _ _ => true
  | .linkWake _ _ => true
  | .sleepHandshakeEnd _ => true
  | .enumTimeout _ => true
  | .measureComplete _ => true
  | .mgmtReplyTimeout _ _ => true
  | .remeasRound _ => true
  | .blockLockLost _ _ => true
  | .linkForceActive _ => true
  | .swForceLink _ _ _ => true
  | .linkWarnClear _ _ => true
  | .mgmtGo _ _ _ => true
  | .balancerRound _ => true
  | .ablSwcmdGo _ _ _ => true
  | .armEnableWrite _ _ _ => true
  | .armResume _ _ _ => true
  | .positionEdge _ _ _ => true
  | .sincosHold _ _ _ => true
  | .standstillTimeout _ => true
  | .probeEvent _ => true
  | .prbFire _ _ => true
  | .posModeWrite _ _ _ => true
  | .nop _ => true
  | .mov _ _ _ => true
  | .movi _ _ imm short => imm7 short imm
  | .movhi _ _ _ => true
  | .adr _ _ _ => true
  | .add _ rd rs1 _ short => sameFirst short rd rs1
  | .adds _ _ _ _ => true
  | .addi _ rd rs1 imm short => imm7 short imm && sameFirst short rd rs1
  | .sub _ rd rs1 _ short => sameFirst short rd rs1
  | .subs _ _ _ _ => true
  | .adc _ _ _ _ => true
  | .sbc _ _ _ _ => true
  | .and _ rd rs1 _ short => sameFirst short rd rs1
  | .ands _ _ _ _ => true
  | .or _ rd rs1 _ short => sameFirst short rd rs1
  | .xor _ rd rs1 _ short => sameFirst short rd rs1
  | .andn _ _ _ _ => true
  | .andi _ _ _ _ => true
  | .ori _ _ _ _ => true
  | .xori _ _ _ _ => true
  | .not _ _ _ => true
  | .neg _ _ _ => true
  | .lsl _ rd rs1 _ short => sameFirst short rd rs1
  | .lsr _ rd rs1 _ short => sameFirst short rd rs1
  | .asr _ rd rs1 _ short => sameFirst short rd rs1
  | .ror _ _ _ _ => true
  | .lsli _ _ _ _ => true
  | .lsri _ _ _ _ => true
  | .asri _ _ _ _ => true
  | .rori _ _ _ _ => true
  | .cmp _ _ _ _ => true
  | .cmn _ _ _ => true
  | .tst _ _ _ _ => true
  | .cmpi _ _ imm short => imm7 short imm
  | .min _ _ _ _ => true
  | .max _ _ _ _ => true
  | .minu _ _ _ _ => true
  | .maxu _ _ _ _ => true
  | .clz _ _ _ => true
  | .sxtb _ _ _ => true
  | .sxth _ _ _ _ => true
  | .zxtb _ _ _ => true
  | .zxth _ _ _ _ => true
  | .csel _ _ _ _ cond => cond != 15
  | .rev _ _ _ => true
  | .mul _ rd rs1 _ short => sameFirst short rd rs1
  | .mulh _ _ _ _ => true
  | .mulhu _ _ _ _ => true
  | .div _ _ _ _ => true
  | .divu _ _ _ _ => true
  | .rem _ _ _ _ => true
  | .remu _ _ _ _ => true
  | .ldB _ rd m _ => !m.short && loadBase m rd
  | .ldBu _ rd m _ => !m.short && loadBase m rd
  | .ldH _ rd m _ => !m.short && loadBase m rd
  | .ldHu _ rd m _ => !m.short && loadBase m rd
  | .ldW _ rd m _ => loadBase m rd
  | .stB _ _ m _ => !m.short
  | .stH _ _ m _ => !m.short
  | .stW _ _ _ _ => true
  | .push _ list xl _ => list != 0#8 || xl
  | .pop _ list xl _ => list != 0#8 || xl
  | .pushm _ mask _ => mask != 0#16 && !mask.getLsbD 15
  | .popm _ mask _ => mask != 0#16
  | .bcc _ cond off short => cond != 15 && imm7 short off
  | .br _ off short => !short || (decide (-1024 ≤ off.toInt) && decide (off.toInt ≤ 1023))
  | .bl _ _ => true
  | .jr _ _ => true
  | .jlr _ rd _ short => !short || rd == 14
  | .ret _ => true
  | .cbz _ _ _ => true
  | .cbnz _ _ _ => true
  | .loop _ _ imm count len rc => len != 0#8 && (if imm then rc == 0 else count == 0#9)
  | .mfc _ _ _ => true
  | .mtc _ _ _ => true
  | .swi _ _ => true
  | .rfe _ _ => true
  | .wfi _ => true
  | .sync _ => true
  | .syncI _ => true
  | .brk _ _ => true
  | .qadd _ _ _ _ => true
  | .qsub _ _ _ _ => true
  | .qneg _ _ _ => true
  | .qabs _ _ _ => true
  | .qmul _ _ _ _ => true
  | .qmulh _ _ _ _ => true
  | .qshl _ _ _ _ => true
  | .sat _ _ _ _ => true
  | .satu _ _ _ _ => true
  | .clamp _ _ _ _ => true
  | .mac _ _ _ _ => true
  | .msu _ _ _ _ => true
  | .qmac _ _ _ _ => true
  | .qmsu _ _ _ _ => true
  | .macl _ rd _ _ => rd.val % 2 == 0 && rd != 14
  | .maclu _ rd _ _ => rd.val % 2 == 0 && rd != 14
  | .fadd _ _ _ _ => true
  | .fsub _ _ _ _ => true
  | .fmul _ _ _ _ => true
  | .fmadd _ _ _ _ => true
  | .fmsub _ _ _ _ => true
  | .fmin _ _ _ _ => true
  | .fmax _ _ _ _ => true
  | .fabs _ _ _ => true
  | .fneg _ _ _ => true
  | .fcmp _ _ _ => true
  | .ftoq _ _ _ _ => true
  | .ffromq _ _ _ _ => true
  | .interruptEntry _ => true
  | .nmiEntry _ => true
  | .irqEvent _ _ => true
  | .nmiEvent _ => true
  | .cpsIrqSet _ _ _ => true
  | .cpsIrqClr _ _ _ => true
  | .cpsIrqCfgWrite _ _ _ => true
  | .cpsNmiSet _ => true
  | .producerEvent _ _ => true
  | .producerHoldRelease _ => true
  | .channelStage _ => true
  | .eventDelivery _ => true
  | .evmFire _ _ _ => true
  | .evmTimed _ _ _ => true
  | .evmCancel _ _ => true
  | .evmClear _ _ => true
  | .timedFireDue _ => true
  | .fseTxtailWrite _ _ _ => true
  | .fseTxStart _ _ => true
  | .fseTxEnd _ => true
  | .fseAckTimeout _ => true
  | .fseDescriptorDone _ _ => true
  | .fseRxFrame _ f => decide (f.level < 8) && decide (f.keyMode < 4) && decide (f.keyIdx < 256)
  | .fpGoEvent _ => true
  | .mute _ _ _ => true
  | .fseEnableWrite _ _ _ => true
  | .sesLookup _ _ _ => true
  | .sesCreate _ _ => true
  | .sesRead _ _ => true
  | .sesUpdate _ _ _ => true
  | .readClear _ _ _ => true
  | .sesRetire _ _ => true
  | .sesFold _ _ _ => true
  | .sesCommandDone _ => true
  | .sesFrame _ => true
  | .keyApply _ _ _ _ => true
  | .txfcWrite _ _ _ _ => true
  | .ethRxFrame _ fr _ => decide (18 ≤ fr.length)
  | .ethTxSelect _ => true
  | .ethTailWrite _ _ _ _ _ => true
  | .gclChange _ _ _ => true
  | .gclSwitch _ => true
  | .ethLinkChange _ _ _ => true
  | .ethCapture _ => true
  | .timeRateWrite _ _ => true
  | .ptpOfsApply _ _ => true
  | .ptpSecApply _ _ => true
  | .pcieBarAccess _ _ o n w _ => accessSize n w && decide (o.toNat + n ≤ 2 ^ 25)
  | .functionLevelReset _ => true
  | .hotReset _ _ => true
  | .vreq _ _ _ _ => true
  | .msixMessage _ _ => true
  | .gpioInputEvent _ _ => true
  | .gpioOutputEvent _ => true
  | .gpioEvWrite _ _ _ _ => true
  | .partitionResetRequest _ _ => true
  | .partSelfReset _ _ _ => true
  | .partRstctrlReset _ _ _ => true
  | .partitionWipeDone _ => true
  | .partStart _ _ => true
  | .holdWrite _ _ _ => true
  | .lockAcquire _ _ => true
  | .lockRelease _ _ => true
  | .lockRenew _ _ => true
  | .clearBroken _ _ => true
  | .forceRelease _ _ => true
  | .leaseExpiry _ => true
  | .eccWriteBack _ => true
  | .memcInject _ _ => true
  | .dmaStart _ _ => true
  | .dmaStop _ _ => true
  | .dmaReqWrite _ _ => true
  | .dcnReqEvent _ => true
  | .dmaDescriptorFetch _ _ => true
  | .dmaStreamReady _ => true
  | .dmaBurst _ data _ => decide (data.length ≤ 4096)
  | .dmaDescriptorDone _ => true
  | .arbCommit _ _ => true
  | .arbCommitMulti _ _ _ => true
  | .clearWait _ _ => true
  | .flashProgram _ => true
  | .flashErase _ => true
  | .flashSuspend _ => true
  | .flashResume _ => true
  | .flashStatus _ => true
  | .flashRead _ => true
  | .blockInfo _ => true
  | .flashProtect _ => true
  | .calRead _ => true
  | .calWrite _ => true
  | .journalRead _ => true
  | .flashOpDone _ _ => true
  | .readWindow _ => true
  | .autoResume _ => true
  | .supplyHoldEnd => true
  | .domainRequest _ => true
  | .domainGateClose _ => true
  | .pllLocked _ => true
  | .pllIdleStop _ => true
  | .clkSelWrite _ _ _ => true
  | .clkSwitchDone _ => true
  | .clkBreak _ _ _ => true
  | .clrfault _ _ _ => true
  | .holdResetWrite _ _ _ => true
  | .relock _ _ => true
  | .missingEdge _ => true
  | .sourceFail _ => true
  | .brcFail => true
  | .xtal32Fail => true
  | .rtcSet _ _ => true
  | .rtcAlarm => true
  | .park _ _ => true
  | .standby _ _ => true
  | .dormant _ _ => true
  | .wake _ => true
  | .warnAssert _ => true
  | .warnClear _ => true
  | .supplyReset _ => true
  | .lockstepFailure _ _ => true
  | .supForceWrite _ _ _ => true
  | .supFaultoutWrite _ _ => true
  | .wdtLock _ _ _ => true
  | .kick _ _ => true
  | .watchdogTimeout => true
  | .recoveryFailure _ => true
  | .recoveryStep => true
  | .supervisorRestarted => true
  | .recRelease _ _ => true
  | .selfReset _ _ => true
  | .lrtRearm => true
  | .lrtExpiry => true
  | .challenge _ _ => true
  | .dbgVerify _ _ => true
  | .verifyDone => true
  | .dbgClose _ _ => true
  | .dbgHalt _ _ _ => true
  | .debugResume _ _ _ => true
  | .dbgStep _ _ _ => true
  | .breakpointHalt _ => true
  | .debugDataAccess _ _ _ => true
  | .resetNAssert => true
  | .powerOn => true
  | .rstCtrlDevice _ _ => true
  | .resetRelease _ => true
  | .mailboxPoll => true
  | .recoveryRun _ => true
  | .writeA _ => true
  | .writeB _ => true
  | .recoveryProvision _ => true
  | .recoveryAdvance _ => true
  | .recoveryReset => true
  | .lcsAdvance _ _ _ => true
  | .lcsProvision _ _ _ => true
  | .revoke _ _ _ => true
  | .idcode => true
  | .samplePreload _ _ _ => true
  | .extest _ _ _ => true
  | .clampTap => true
  | .highz => true
  | .dapAccess => true
  | .bypass _ => true
  | .tapReset => true
  | .registerWrite _ _ _ => true
  | .undefinedInstruction _ _ => true
  | .fetchFault _ _ => true
  | .pcieConfigWrite _ _ _ _ _ => true
  | .pcieLinkUp _ _ _ => true
  | .pciePerstN _ => true
  | .debugAccessPortAccess a n w _ => accessSize n w && (n == 1 || n == 2 || n == 4) && a.toNat % n == 0
  | .entropyTestFail => true
  | .canFrameReceived _ _ ext id fd dlc data => (ext || decide (id.toNat < 2 ^ 11)) && data.length == canLength fd dlc
  | .canTxDone _ _ _ => true
  | .canBusOffRecovery _ => true
  | .uartByteReceived _ _ _ _ _ => true
  | .spiWordTransfer _ _ => true
  | .i2cTransferDone _ _ _ => true
  | .i2cTargetAddressed _ a tenBit => tenBit || decide (a.toNat < 128)
  | .resetNHigh => true

end Sys2Proof
end

