-- ==== Sys2Proof/Decode.lean ====
section
/-!
DEFINITION. The commands of this block have no encoding as words in spec/opcode_table.json, which gives no row any bits. The instructions of
Helel-32 among them have the encodings of spec/10 (Tables 10.3 to 10.14): a decoder and an encoder of instruction words.
-/
namespace Sys2Proof

/-- No word spells a command: the table gives bits to none of its rows. -/
def decodeTableWord (_nbits _w : Nat) : Option Instr := none

/-! ### Fields of an instruction word -/

/-- `n` bits of a word from bit `lo` up. -/
def wbits (w lo n : Nat) : Nat := w / 2 ^ lo % 2 ^ n
/-- The register named by four bits from bit `lo` up. -/
def regAt (w lo : Nat) : RegNo := ⟨w / 2 ^ lo % 16, Nat.mod_lt _ (by decide)⟩
/-- A number below 32 from bit `lo` up. -/
def fiveAt (w lo : Nat) : Fin 32 := ⟨w / 2 ^ lo % 32, Nat.mod_lt _ (by decide)⟩
/-- A decoded form, where its fields are ones that the spec defines. -/
def form (ok : Bool) (i : Instr) : Option Instr := if ok then some i else none

/-- The three-register instructions without a 16-bit form, by OP, FUNC (Tables 10.9, 10.10, 10.12 to 10.14). -/
def threeRegister : List (Nat × Nat × (Proc → RegNo → RegNo → RegNo → Instr)) :=
  [(0, 0x01, .adds), (0, 0x03, .subs), (0, 0x04, .adc), (0, 0x05, .sbc), (0, 0x07, .ands), (0, 0x0A, .andn), (0, 0x0F, .ror),
   (0, 0x13, .min), (0, 0x14, .max), (0, 0x15, .minu), (0, 0x16, .maxu),
   (0x1B, 0x01, .mulh), (0x1B, 0x02, .mulhu), (0x1B, 0x03, .div), (0x1B, 0x04, .divu), (0x1B, 0x05, .rem), (0x1B, 0x06, .remu),
   (0x1C, 0x00, .qadd), (0x1C, 0x01, .qsub), (0x1C, 0x04, .qmul), (0x1C, 0x05, .qmulh), (0x1C, 0x06, .qshl), (0x1C, 0x09, .clamp),
   (0x1D, 0x00, .mac), (0x1D, 0x01, .msu), (0x1D, 0x02, .qmac), (0x1D, 0x03, .qmsu),
   (0x1E, 0x00, .fadd), (0x1E, 0x01, .fsub), (0x1E, 0x02, .fmul), (0x1E, 0x03, .fmadd), (0x1E, 0x04, .fmsub), (0x1E, 0x05, .fmin),
   (0x1E, 0x06, .fmax)]
/-- The three-register instructions that also have a 16-bit form (Tables 10.5, 10.9, 10.10): OP, FUNC, and OP16, SUB. -/
def bothRegister : List (Nat × Nat × Nat × Nat × (Proc → RegNo → RegNo → RegNo → Bool → Instr)) :=
  [(0, 0x00, 1, 1, .add), (0, 0x02, 1, 2, .sub), (0, 0x06, 1, 3, .and), (0, 0x08, 1, 4, .or), (0, 0x09, 1, 5, .xor),
   (0, 0x0C, 2, 0, .lsl), (0, 0x0D, 2, 1, .lsr), (0, 0x0E, 2, 2, .asr), (0x1B, 0x00, 2, 3, .mul)]
/-- The instructions of rd and rs1 (Tables 10.9, 10.12, 10.14), whose rs2 is 0. -/
def twoRegister : List (Nat × Nat × (Proc → RegNo → RegNo → Instr)) :=
  [(0, 0x17, .clz), (0, 0x18, .sxtb), (0, 0x19, fun p d a => .sxth p d a false), (0, 0x1A, .zxtb),
   (0, 0x1B, fun p d a => .zxth p d a false), (0, 0x1E, .rev), (0x1C, 0x02, .qneg), (0x1C, 0x03, .qabs), (0x1E, 0x07, .fabs),
   (0x1E, 0x08, .fneg)]
/-- The comparisons of rs1 and rs2 (Tables 10.9, 10.14), whose rd is 0. -/
def compareRegister : List (Nat × Nat × (Proc → RegNo → RegNo → Instr)) :=
  [(0, 0x10, fun p a b => .cmp p a b false), (0, 0x11, .cmn), (0, 0x12, fun p a b => .tst p a b false), (0x1E, 0x09, .fcmp)]
/-- The instructions of rd, rs1 and a number below 32 in AUX[30:26] (Tables 10.12, 10.14), whose rs2 and AUX[31] are 0. -/
def numberRegister : List (Nat × Nat × (Proc → RegNo → RegNo → Fin 32 → Instr)) :=
  [(0x1C, 0x07, .sat), (0x1C, 0x08, .satu), (0x1E, 0x0A, .ftoq), (0x1E, 0x0B, .ffromq)]
/-- The loads and stores by SZ and ST (R247), with the opcode of their base form (Table 10.7). -/
def loadStore : List (Nat × Bool × Nat × (Proc → RegNo → Addr → List (Fin 18) → Instr)) :=
  [(0, false, 0x09, .ldB), (1, false, 0x0A, .ldBu), (2, false, 0x0B, .ldH), (3, false, 0x0C, .ldHu), (4, false, 0x0D, .ldW),
   (0, true, 0x0E, .stB), (2, true, 0x0F, .stH), (4, true, 0x10, .stW)]

/-! ### Decoding (R234, R236, R238 to R241) -/

/-- The WR-format groups (R240): a field that the entry does not name is 0. -/
def decodeWr (p : Proc) (w : Nat) : Option Instr :=
  let op := wbits w 1 6
  let func := wbits w 19 7
  let aux := wbits w 26 6
  let rd := regAt w 7
  let r1 := regAt w 11
  let r2 := regAt w 15
  if op = 0 ∧ func = 0x1C then form (decide (aux < 15)) (.csel p rd r1 r2 (regAt w 26))
  else if op = 0x17 then form (func == 0 && aux == 0 && r2 == 0) (.jlr p rd r1 false)
  else if op = 0x1D ∧ (func = 4 ∨ func = 5) then
    form (aux == 0 && rd.val % 2 == 0 && rd != 14) (if func = 4 then .macl p rd r1 r2 else .maclu p rd r1 r2)
  else match threeRegister.find? fun e => e.1 == op && e.2.1 == func with
  | some e => form (aux == 0) (e.2.2 p rd r1 r2)
  | none => match bothRegister.find? fun e => e.1 == op && e.2.1 == func with
  | some e => form (aux == 0) (e.2.2.2.2 p rd r1 r2 false)
  | none => match twoRegister.find? fun e => e.1 == op && e.2.1 == func with
  | some e => form (aux == 0 && r2 == 0) (e.2.2 p rd r1)
  | none => match compareRegister.find? fun e => e.1 == op && e.2.1 == func with
  | some e => form (aux == 0 && rd == 0) (e.2.2 p r1 r2)
  | none => match numberRegister.find? fun e => e.1 == op && e.2.1 == func with
  | some e => form (decide (aux < 32) && r2 == 0) (e.2.2 p rd r1 (fiveAt w 26))
  | none => none

/-- The indexed and modifying loads and stores of OP 0x11 (R247, R249). -/
def decodeWm (p : Proc) (rv : List (Fin 18)) (w : Nat) : Option Instr :=
  let st := wbits w 19 1 == 1
  let rd := regAt w 7
  let rb := regAt w 11
  let imm := BitVec.ofNat 10 (wbits w 22 10)
  match loadStore.find? fun e => e.1 == wbits w 16 3 && e.2.1 == st with
  | none => none
  | some e =>
    let free := wbits w 15 1 == 0
    match wbits w 20 2 with
    | 0 => form (free && wbits w 26 6 == 0) (e.2.2.2 p rd (.index rb (regAt w 22)) rv)
    | 1 => form (free && (st || rb != rd)) (e.2.2.2 p rd (.post rb imm) rv)
    | 2 => form (free && (st || rb != rd)) (e.2.2.2 p rd (.pre rb imm) rv)
    | _ => none

/-- The system group (Table 10.11). -/
def decodeWs (p : Proc) (rv : List (Fin 18)) (w : Nat) : Option Instr :=
  let num := BitVec.ofNat 8 (wbits w 15 8)
  let rs := regAt w 11
  let rd := regAt w 7
  let top := wbits w 27 5 == 0
  let bare := top && num == 0#8 && rs == 0 && rd == 0
  match wbits w 23 4 with
  | 0 => form (top && rs == 0) (.mfc p rd num)
  | 1 => form (top && rd == 0) (.mtc p num rs)
  | 2 => form (top && rs == 0 && rd == 0) (.swi p num)
  | 3 => form bare (.rfe p rv)
  | 4 => form bare (.wfi p)
  | 5 => form bare (.sync p)
  | 6 => form bare (.syncI p)
  | 7 => form (top && rs == 0 && rd == 0) (.brk p num)
  | _ => none

/-- Shifts by an immediate (OP 0x08). -/
def decodeShift (p : Proc) (w : Nat) : Option Instr :=
  let rd := regAt w 7
  let r1 := regAt w 11
  let n := fiveAt w 15
  form (wbits w 22 10 == 0) (match wbits w 20 2 with
    | 0 => .lsli p rd r1 n
    | 1 => .lsri p rd r1 n
    | 2 => .asri p rd r1 n
    | _ => .rori p rd r1 n)

/-- A 32-bit instruction of word `w` (R240, R241); none for an undefined encoding (R236). -/
def decode32 (p : Proc) (rv : List (Fin 18)) (w : Nat) : Option Instr :=
  let op := wbits w 1 6
  let rd := regAt w 7
  let r1 := regAt w 11
  let i17 := BitVec.ofNat 17 (wbits w 15 17)
  let i21 := BitVec.ofNat 21 (wbits w 11 21)
  match op with
  | 0x01 => some (.addi p rd r1 i17 false)
  | 0x02 => some (.andi p rd r1 i17)
  | 0x03 => some (.ori p rd r1 i17)
  | 0x04 => some (.xori p rd r1 i17)
  | 0x05 => form (rd == 0) (.cmpi p r1 i17 false)
  | 0x06 => some (.movi p rd i21 false)
  | 0x07 => form (wbits w 27 5 == 0) (.movhi p rd (BitVec.ofNat 16 (wbits w 11 16)))
  | 0x08 => decodeShift p w
  | 0x11 => decodeWm p rv w
  | 0x12 => match loadStore.find? fun e => e.1 == wbits w 11 3 && e.2.1 == (wbits w 14 1 == 1) with
    | some e => form (wbits w 15 1 == 0 && wbits w 28 4 == 0) (e.2.2.2 p rd (.abs (BitVec.ofNat 12 (wbits w 16 12))) rv)
    | none => none
  | 0x13 =>
    let mask := BitVec.ofNat 16 (wbits w 16 16)
    form (wbits w 8 8 == 0 && mask != 0#16 && (wbits w 7 1 == 1 || !mask.getLsbD 15)) (if wbits w 7 1 = 1 then .popm p mask rv else .pushm p mask rv)
  | 0x14 => form (wbits w 7 4 != 15) (.bcc p rd i21 false)
  | 0x15 => some (.br p (BitVec.ofNat 25 (wbits w 7 25)) false)
  | 0x16 => some (.bl p (BitVec.ofNat 25 (wbits w 7 25)))
  | 0x18 => some (if wbits w 11 1 = 0 then .cbz p rd (BitVec.ofNat 20 (wbits w 12 20)) else .cbnz p rd (BitVec.ofNat 20 (wbits w 12 20)))
  | 0x19 => some (.adr p rd i21)
  | 0x1A =>
    let i := wbits w 8 1 == 1
    form (wbits w 9 2 == 0 && wbits w 15 8 != 0 && (if i then r1 == 0 else wbits w 23 9 == 0))
      (.loop p (wbits w 7 1 == 1) i (BitVec.ofNat 9 (wbits w 23 9)) (BitVec.ofNat 8 (wbits w 15 8)) r1)
  | 0x1F => decodeWs p rv w
  | _ => match loadStore.find? fun e => e.2.2.1 == op with
    | some e => some (e.2.2.2 p rd (.base r1 i17) rv)
    | none => decodeWr p w

/-- The 16-bit ALU groups (Table 10.5). -/
def decodeHr (p : Proc) (w : Nat) : Option Instr :=
  let op := wbits w 1 4
  let sub := wbits w 5 3
  let rs := regAt w 12
  let rd := regAt w 8
  match bothRegister.find? fun e => e.2.2.1 == op && e.2.2.2.1 == sub with
  | some e => some (e.2.2.2.2 p rd rd rs true)
  | none => match op, sub with
    | 1, 0 => some (.mov p rd rs)
    | 1, 6 => some (.cmp p rd rs true)
    | 1, 7 => some (.tst p rd rs true)
    | 2, 4 => some (.not p rd rs)
    | 2, 5 => some (.neg p rd rs)
    | 2, 6 => some (.sxth p rd rs true)
    | 2, 7 => some (.zxth p rd rs true)
    | _, _ => none

/-- A 16-bit instruction of halfword `w` (R238, R239); none for an undefined encoding (R236). -/
def decode16 (p : Proc) (rv : List (Fin 18)) (w : Nat) : Option Instr :=
  let imm := BitVec.ofNat 7 (wbits w 9 7)
  let rd := regAt w 5
  let rs := regAt w 9
  let i3 := BitVec.ofNat 3 (wbits w 13 3)
  match wbits w 1 4 with
  | 1 | 2 => decodeHr p w
  | 3 => some (.movi p rd (imm.signExtend 21) true)
  | 4 => some (.addi p rd rd (imm.signExtend 17) true)
  | 5 => some (.cmpi p rd (imm.signExtend 17) true)
  | 6 => some (.ldW p rd (.shortBase rs i3) rv)
  | 7 => some (.stW p rd (.shortBase rs i3) rv)
  | 8 => some (.ldW p rd (.shortSp imm) rv)
  | 9 => some (.stW p rd (.shortSp imm) rv)
  | 10 => some (.ldW p rd (.shortAbs imm) rv)
  | 11 => some (.stW p rd (.shortAbs imm) rv)
  | 12 => form (wbits w 5 4 != 15) (.bcc p rd (imm.signExtend 21) true)
  | 13 => some (.br p ((BitVec.ofNat 11 (wbits w 5 11)).signExtend 25) true)
  | 14 =>
    let top := wbits w 13 3 == 0
    match wbits w 5 4 with
    | 0 => form (top && rs == 0) (.nop p)
    | 1 => form top (.jr p rs)
    | 2 => form top (.jlr p 14 rs true)
    | 3 => form (top && rs == 0) (.ret p)
    | _ => none
  | 15 =>
    let list := BitVec.ofNat 8 (wbits w 8 8)
    let xl := wbits w 6 1 == 1
    form (wbits w 7 1 == 0 && (xl || list != 0#8)) (if wbits w 5 1 = 1 then .pop p list xl rv else .push p list xl rv)
  | _ => none

/-- Is the instruction whose first halfword is `h` a 16-bit one (R234)? -/
def isShort (h : Nat) : Bool := h % 2 == 0

/-- The instruction of processor `p` whose halfwords are `h0` and, for a 32-bit one, `h1` (R234). The rivals of its accesses are no part of it. -/
def decodeInsn (p : Proc) (rv : List (Fin 18)) (h0 h1 : Nat) : Option Instr :=
  if isShort h0 then decode16 p rv (h0 % 65536) else decode32 p rv (h0 % 65536 + 65536 * (h1 % 65536))

/-! ### Encoding -/

/-- A WR-format word. -/
def encWr (op func : Nat) (rd r1 r2 : RegNo) (aux : Nat := 0) : Nat :=
  1 + 2 * op + 2 ^ 7 * rd.val + 2 ^ 11 * r1.val + 2 ^ 15 * r2.val + 2 ^ 19 * func + 2 ^ 26 * aux
/-- A WI-format word. -/
def encWi (op : Nat) (rd r1 : RegNo) (imm : Nat) : Nat := 1 + 2 * op + 2 ^ 7 * rd.val + 2 ^ 11 * r1.val + 2 ^ 15 * imm
/-- A WK- or WB-format word. -/
def encWk (op rd imm : Nat) : Nat := 1 + 2 * op + 2 ^ 7 * rd + 2 ^ 11 * imm
/-- An HR-format halfword. -/
def encHr (op sub : Nat) (rd rs : RegNo) : Nat := 2 * op + 2 ^ 5 * sub + 2 ^ 8 * rd.val + 2 ^ 12 * rs.val
/-- An HI- or HB-format halfword. -/
def encHi (op rd imm : Nat) : Nat := 2 * op + 2 ^ 5 * rd + 2 ^ 9 * (imm % 128)
/-- A WS-format word. -/
def encWs (func num : Nat) (rs rd : RegNo) : Nat := 1 + 2 * 0x1F + 2 ^ 7 * rd.val + 2 ^ 11 * rs.val + 2 ^ 15 * num + 2 ^ 23 * func

/-- The word of a load or store of size code `sz`, store bit `st` and base opcode `op`; whether it is a 16-bit one. -/
def encodeMem (sz st op : Nat) (rd : RegNo) : Addr → Bool × Nat
  | .base rb imm => (false, encWi op rd rb imm.toNat)
  | .index rb ri => (false, 1 + 2 * 0x11 + 2 ^ 7 * rd.val + 2 ^ 11 * rb.val + 2 ^ 16 * sz + 2 ^ 19 * st + 2 ^ 22 * ri.val)
  | .post rb imm => (false, 1 + 2 * 0x11 + 2 ^ 7 * rd.val + 2 ^ 11 * rb.val + 2 ^ 16 * sz + 2 ^ 19 * st + 2 ^ 20 + 2 ^ 22 * imm.toNat)
  | .pre rb imm => (false, 1 + 2 * 0x11 + 2 ^ 7 * rd.val + 2 ^ 11 * rb.val + 2 ^ 16 * sz + 2 ^ 19 * st + 2 ^ 21 + 2 ^ 22 * imm.toNat)
  | .abs imm => (false, 1 + 2 * 0x12 + 2 ^ 7 * rd.val + 2 ^ 11 * sz + 2 ^ 14 * st + 2 ^ 16 * imm.toNat)
  | .shortBase rb imm => (true, 2 * (6 + st) + 2 ^ 5 * rd.val + 2 ^ 9 * rb.val + 2 ^ 13 * imm.toNat)
  | .shortSp imm => (true, 2 * (8 + st) + 2 ^ 5 * rd.val + 2 ^ 9 * imm.toNat)
  | .shortAbs imm => (true, 2 * (10 + st) + 2 ^ 5 * rd.val + 2 ^ 9 * imm.toNat)

/-- A form that is 16 or 32 bits long. -/
def bothForms (short : Bool) (h w : Nat) : Option (Bool × Nat) := some (if short then (true, h) else (false, w))

/-- The encoding of a Helel-32 instruction: whether it is a 16-bit one, and its word; none for a command that is no instruction. -/
def encodeInsn : Instr → Option (Bool × Nat)
  | .nop _ => some (true, 2 * 14)
  | .mov _ rd rs => some (true, encHr 1 0 rd rs)
  | .movi _ rd imm short => bothForms short (encHi 3 rd imm.toNat) (encWk 0x06 rd imm.toNat)
  | .movhi _ rd imm => some (false, encWk 0x07 rd imm.toNat)
  | .adr _ rd off => some (false, encWk 0x19 rd off.toNat)
  | .add _ rd a b short => bothForms short (encHr 1 1 rd b) (encWr 0 0x00 rd a b)
  | .adds _ rd a b => some (false, encWr 0 0x01 rd a b)
  | .addi _ rd a imm short => bothForms short (encHi 4 rd imm.toNat) (encWi 0x01 rd a imm.toNat)
  | .sub _ rd a b short => bothForms short (encHr 1 2 rd b) (encWr 0 0x02 rd a b)
  | .subs _ rd a b => some (false, encWr 0 0x03 rd a b)
  | .adc _ rd a b => some (false, encWr 0 0x04 rd a b)
  | .sbc _ rd a b => some (false, encWr 0 0x05 rd a b)
  | .and _ rd a b short => bothForms short (encHr 1 3 rd b) (encWr 0 0x06 rd a b)
  | .ands _ rd a b => some (false, encWr 0 0x07 rd a b)
  | .or _ rd a b short => bothForms short (encHr 1 4 rd b) (encWr 0 0x08 rd a b)
  | .xor _ rd a b short => bothForms short (encHr 1 5 rd b) (encWr 0 0x09 rd a b)
  | .andn _ rd a b => some (false, encWr 0 0x0A rd a b)
  | .andi _ rd a imm => some (false, encWi 0x02 rd a imm.toNat)
  | .ori _ rd a imm => some (false, encWi 0x03 rd a imm.toNat)
  | .xori _ rd a imm => some (false, encWi 0x04 rd a imm.toNat)
  | .not _ rd rs => some (true, encHr 2 4 rd rs)
  | .neg _ rd rs => some (true, encHr 2 5 rd rs)
  | .lsl _ rd a b short => bothForms short (encHr 2 0 rd b) (encWr 0 0x0C rd a b)
  | .lsr _ rd a b short => bothForms short (encHr 2 1 rd b) (encWr 0 0x0D rd a b)
  | .asr _ rd a b short => bothForms short (encHr 2 2 rd b) (encWr 0 0x0E rd a b)
  | .ror _ rd a b => some (false, encWr 0 0x0F rd a b)
  | .lsli _ rd a n => some (false, encWi 0x08 rd a n.val)
  | .lsri _ rd a n => some (false, encWi 0x08 rd a (n.val + 32))
  | .asri _ rd a n => some (false, encWi 0x08 rd a (n.val + 64))
  | .rori _ rd a n => some (false, encWi 0x08 rd a (n.val + 96))
  | .cmp _ a b short => bothForms short (encHr 1 6 a b) (encWr 0 0x10 0 a b)
  | .cmn _ a b => some (false, encWr 0 0x11 0 a b)
  | .tst _ a b short => bothForms short (encHr 1 7 a b) (encWr 0 0x12 0 a b)
  | .cmpi _ a imm short => bothForms short (encHi 5 a imm.toNat) (encWi 0x05 0 a imm.toNat)
  | .min _ rd a b => some (false, encWr 0 0x13 rd a b)
  | .max _ rd a b => some (false, encWr 0 0x14 rd a b)
  | .minu _ rd a b => some (false, encWr 0 0x15 rd a b)
  | .maxu _ rd a b => some (false, encWr 0 0x16 rd a b)
  | .clz _ rd a => some (false, encWr 0 0x17 rd a 0)
  | .sxtb _ rd a => some (false, encWr 0 0x18 rd a 0)
  | .sxth _ rd a short => bothForms short (encHr 2 6 rd a) (encWr 0 0x19 rd a 0)
  | .zxtb _ rd a => some (false, encWr 0 0x1A rd a 0)
  | .zxth _ rd a short => bothForms short (encHr 2 7 rd a) (encWr 0 0x1B rd a 0)
  | .csel _ rd a b cond => some (false, encWr 0 0x1C rd a b cond.val)
  | .rev _ rd a => some (false, encWr 0 0x1E rd a 0)
  | .mul _ rd a b short => bothForms short (encHr 2 3 rd b) (encWr 0x1B 0x00 rd a b)
  | .mulh _ rd a b => some (false, encWr 0x1B 0x01 rd a b)
  | .mulhu _ rd a b => some (false, encWr 0x1B 0x02 rd a b)
  | .div _ rd a b => some (false, encWr 0x1B 0x03 rd a b)
  | .divu _ rd a b => some (false, encWr 0x1B 0x04 rd a b)
  | .rem _ rd a b => some (false, encWr 0x1B 0x05 rd a b)
  | .remu _ rd a b => some (false, encWr 0x1B 0x06 rd a b)
  | .ldB _ rd m _ => some (encodeMem 0 0 0x09 rd m)
  | .ldBu _ rd m _ => some (encodeMem 1 0 0x0A rd m)
  | .ldH _ rd m _ => some (encodeMem 2 0 0x0B rd m)
  | .ldHu _ rd m _ => some (encodeMem 3 0 0x0C rd m)
  | .ldW _ rd m _ => some (encodeMem 4 0 0x0D rd m)
  | .stB _ rd m _ => some (encodeMem 0 1 0x0E rd m)
  | .stH _ rd m _ => some (encodeMem 2 1 0x0F rd m)
  | .stW _ rd m _ => some (encodeMem 4 1 0x10 rd m)
  | .push _ list xl _ => some (true, 2 * 15 + 2 ^ 6 * xl.toNat + 2 ^ 8 * list.toNat)
  | .pop _ list xl _ => some (true, 2 * 15 + 2 ^ 5 + 2 ^ 6 * xl.toNat + 2 ^ 8 * list.toNat)
  | .pushm _ mask _ => some (false, 1 + 2 * 0x13 + 2 ^ 16 * mask.toNat)
  | .popm _ mask _ => some (false, 1 + 2 * 0x13 + 2 ^ 7 + 2 ^ 16 * mask.toNat)
  | .bcc _ cond off short => bothForms short (encHi 12 cond off.toNat) (encWk 0x14 cond off.toNat)
  | .br _ off short => bothForms short (2 * 13 + 2 ^ 5 * (off.toNat % 2048)) (1 + 2 * 0x15 + 2 ^ 7 * off.toNat)
  | .bl _ off => some (false, 1 + 2 * 0x16 + 2 ^ 7 * off.toNat)
  | .jr _ rs => some (true, 2 * 14 + 2 ^ 5 + 2 ^ 9 * rs.val)
  | .jlr _ rd rs short => bothForms short (2 * 14 + 2 ^ 6 + 2 ^ 9 * rs.val) (encWr 0x17 0 rd rs 0)
  | .ret _ => some (true, 2 * 14 + 3 * 2 ^ 5)
  | .cbz _ rs off => some (false, 1 + 2 * 0x18 + 2 ^ 7 * rs.val + 2 ^ 12 * off.toNat)
  | .cbnz _ rs off => some (false, 1 + 2 * 0x18 + 2 ^ 7 * rs.val + 2 ^ 11 + 2 ^ 12 * off.toNat)
  | .loop _ x imm count len rc => some (false,
      1 + 2 * 0x1A + 2 ^ 7 * x.toNat + 2 ^ 8 * imm.toNat + 2 ^ 11 * rc.val + 2 ^ 15 * len.toNat + 2 ^ 23 * count.toNat)
  | .mfc _ rd num => some (false, encWs 0 num.toNat 0 rd)
  | .mtc _ num rs => some (false, encWs 1 num.toNat rs 0)
  | .swi _ num => some (false, encWs 2 num.toNat 0 0)
  | .rfe _ _ => some (false, encWs 3 0 0 0)
  | .wfi _ => some (false, encWs 4 0 0 0)
  | .sync _ => some (false, encWs 5 0 0 0)
  | .syncI _ => some (false, encWs 6 0 0 0)
  | .brk _ num => some (false, encWs 7 num.toNat 0 0)
  | .qadd _ rd a b => some (false, encWr 0x1C 0x00 rd a b)
  | .qsub _ rd a b => some (false, encWr 0x1C 0x01 rd a b)
  | .qneg _ rd a => some (false, encWr 0x1C 0x02 rd a 0)
  | .qabs _ rd a => some (false, encWr 0x1C 0x03 rd a 0)
  | .qmul _ rd a b => some (false, encWr 0x1C 0x04 rd a b)
  | .qmulh _ rd a b => some (false, encWr 0x1C 0x05 rd a b)
  | .qshl _ rd a b => some (false, encWr 0x1C 0x06 rd a b)
  | .sat _ rd a n => some (false, encWr 0x1C 0x07 rd a 0 n.val)
  | .satu _ rd a n => some (false, encWr 0x1C 0x08 rd a 0 n.val)
  | .clamp _ rd a b => some (false, encWr 0x1C 0x09 rd a b)
  | .mac _ rd a b => some (false, encWr 0x1D 0x00 rd a b)
  | .msu _ rd a b => some (false, encWr 0x1D 0x01 rd a b)
  | .qmac _ rd a b => some (false, encWr 0x1D 0x02 rd a b)
  | .qmsu _ rd a b => some (false, encWr 0x1D 0x03 rd a b)
  | .macl _ rd a b => some (false, encWr 0x1D 0x04 rd a b)
  | .maclu _ rd a b => some (false, encWr 0x1D 0x05 rd a b)
  | .fadd _ rd a b => some (false, encWr 0x1E 0x00 rd a b)
  | .fsub _ rd a b => some (false, encWr 0x1E 0x01 rd a b)
  | .fmul _ rd a b => some (false, encWr 0x1E 0x02 rd a b)
  | .fmadd _ rd a b => some (false, encWr 0x1E 0x03 rd a b)
  | .fmsub _ rd a b => some (false, encWr 0x1E 0x04 rd a b)
  | .fmin _ rd a b => some (false, encWr 0x1E 0x05 rd a b)
  | .fmax _ rd a b => some (false, encWr 0x1E 0x06 rd a b)
  | .fabs _ rd a => some (false, encWr 0x1E 0x07 rd a 0)
  | .fneg _ rd a => some (false, encWr 0x1E 0x08 rd a 0)
  | .fcmp _ a b => some (false, encWr 0x1E 0x09 0 a b)
  | .ftoq _ rd a f => some (false, encWr 0x1E 0x0A rd a 0 f.val)
  | .ffromq _ rd a f => some (false, encWr 0x1E 0x0B rd a 0 f.val)
  | _ => none

/-- The processor that issues an instruction. -/
def Instr.proc : Instr → Option Proc
  | .nop p | .mov p _ _ | .movi p _ _ _ | .movhi p _ _ | .adr p _ _ | .add p _ _ _ _ | .adds p _ _ _ | .addi p _ _ _ _ | .sub p _ _ _ _
  | .subs p _ _ _ | .adc p _ _ _ | .sbc p _ _ _ | .and p _ _ _ _ | .ands p _ _ _ | .or p _ _ _ _ | .xor p _ _ _ _ | .andn p _ _ _
  | .andi p _ _ _ | .ori p _ _ _ | .xori p _ _ _ | .not p _ _ | .neg p _ _ | .lsl p _ _ _ _ | .lsr p _ _ _ _ | .asr p _ _ _ _ | .ror p _ _ _
  | .lsli p _ _ _ | .lsri p _ _ _ | .asri p _ _ _ | .rori p _ _ _ | .cmp p _ _ _ | .cmn p _ _ | .tst p _ _ _ | .cmpi p _ _ _ | .min p _ _ _
  | .max p _ _ _ | .minu p _ _ _ | .maxu p _ _ _ | .clz p _ _ | .sxtb p _ _ | .sxth p _ _ _ | .zxtb p _ _ | .zxth p _ _ _ | .csel p _ _ _ _
  | .rev p _ _ | .mul p _ _ _ _ | .mulh p _ _ _ | .mulhu p _ _ _ | .div p _ _ _ | .divu p _ _ _ | .rem p _ _ _ | .remu p _ _ _
  | .ldB p _ _ _ | .ldBu p _ _ _ | .ldH p _ _ _ | .ldHu p _ _ _ | .ldW p _ _ _ | .stB p _ _ _ | .stH p _ _ _ | .stW p _ _ _
  | .push p _ _ _ | .pop p _ _ _ | .pushm p _ _ | .popm p _ _ | .bcc p _ _ _ | .br p _ _ | .bl p _ | .jr p _ | .jlr p _ _ _ | .ret p
  | .cbz p _ _ | .cbnz p _ _ | .loop p _ _ _ _ _ | .mfc p _ _ | .mtc p _ _ | .swi p _ | .rfe p _ | .wfi p | .sync p | .syncI p | .brk p _
  | .qadd p _ _ _ | .qsub p _ _ _ | .qneg p _ _ | .qabs p _ _ | .qmul p _ _ _ | .qmulh p _ _ _ | .qshl p _ _ _ | .sat p _ _ _ | .satu p _ _ _
  | .clamp p _ _ _ | .mac p _ _ _ | .msu p _ _ _ | .qmac p _ _ _ | .qmsu p _ _ _ | .macl p _ _ _ | .maclu p _ _ _ | .fadd p _ _ _
  | .fsub p _ _ _ | .fmul p _ _ _ | .fmadd p _ _ _ | .fmsub p _ _ _ | .fmin p _ _ _ | .fmax p _ _ _ | .fabs p _ _ | .fneg p _ _
  | .fcmp p _ _ | .ftoq p _ _ _ | .ffromq p _ _ _ => some p
  | _ => none

/-- The requesters that compete with the accesses of an instruction. -/
def Instr.rivals : Instr → List (Fin 18)
  | .ldB _ _ _ rv | .ldBu _ _ _ rv | .ldH _ _ _ rv | .ldHu _ _ _ rv | .ldW _ _ _ rv | .stB _ _ _ rv | .stH _ _ _ rv | .stW _ _ _ rv
  | .push _ _ _ rv | .pop _ _ _ rv | .pushm _ _ rv | .popm _ _ rv | .rfe _ rv => rv
  | _ => []

end Sys2Proof
end

