-- ==== Sys2Proof/Config.lean ====
section
/-!
DEFINITION. What the spec leaves open or takes from a named outside standard, as constants that nothing can evaluate: a
statement about one of them holds for every value. Each has a row in notes/assumptions.
-/
namespace Sys2Proof.Config

/-- A fresh free value: the step applies it to the counter `State.free` and advances the counter. -/
opaque freeValue : Nat → Nat

/-- Free bytes: the byte at an address under the free value that seeds them. -/
opaque mixByte : Nat → Nat → Byte

/-- The ECC of a flash unit whose bytes are free, under the free value that seeds them: modulo 3, 0 sound, 1 a correctable error, 2 an
uncorrectable one. -/
opaque mixEcc : Nat → Nat → Nat

/-- The bytes of ROM, which the spec does not give (R402, R445). -/
opaque romByte : Nat → Byte

/-- Iluntova's manufacturer identity code of the IDCODE register, which the spec names without its value (R565). -/
opaque manufacturerId : Nat

/-- The device serial of the identity record, whose layout the spec does not give (Table 20.2, LCS_ID_LO). -/
opaque serial : Nat

/-- The PCIe vendor identifier of PCIE_IDENT, for which the spec gives no value. -/
opaque pcieVendorId : Nat

/-- What the interface's angle differs by from that of its corrected codes, in units of a 65,536th of a turn (R217, which bounds it). -/
opaque angleError : Int → Int → Int

/-- Sample `k` of the G.9903 waveform, in units of 2^-15 (R326, R327): arguments FCC band, modulation, groups on, bytes, k. -/
opaque waveform : Bool → Nat → Nat → List Byte → Nat → Int

/-- The number of samples of that waveform. -/
opaque waveLength : Bool → Nat → Nat → List Byte → Nat

/-- The bytes of the frame that answers a tone-map request, which G.9903 lays out (R337): modulation and groups on. -/
opaque toneReply : Nat → Nat → List Byte

/-- AES-128-CCM verification and decryption of a received frame (R350): key, source extended address, frame counter, MAC
header, payload with MIC; the plaintext when the MIC verifies. -/
opaque ccmOpen : List Byte → Nat → Nat → List Byte → List Byte → Option (List Byte)

/-- The secured frame made of a plaintext one (R350): key, source extended address, frame counter, key index, MAC header and
payload. -/
opaque ccmSeal : List Byte → Nat → Nat → Nat → List Byte → List Byte

end Sys2Proof.Config
end

