-- ==== Sys2Proof/Machine/Flags.lean ====
section
/-!
DEFINITION. The arithmetic of Helel-32 results and flags (spec/10): the condition flags (R243), the conditions (R242), saturation
(R256, R257), shifts (R245), division (R246) and the FP32 subset (R259 to R261). Operands become integers, the
result is computed exactly, and it is narrowed once at the end.
-/
namespace Sys2Proof.Machine

/-- The four condition flags of PS (R230). -/
structure Nzcv where
  n : Bool
  z : Bool
  c : Bool
  v : Bool
  deriving DecidableEq, Repr

/-- A word from an integer, modulo 2^32. -/
def wordOf (x : Int) : Word := BitVec.ofInt 32 x

/-- N and Z of a result (R243). -/
def flagN (r : Word) : Bool := r.msb
/-- Z of a result (R243). -/
def flagZ (r : Word) : Bool := r == 0#32

/-- a + b + carry with its flags (R243). -/
def addFlags (a b : Word) (cin : Bool) : Word × Nzcv :=
  let k : Nat := if cin then 1 else 0
  let r := wordOf ((a.toNat + b.toNat + k : Nat) : Int)
  let sum : Int := a.toInt + b.toInt + (k : Int)
  (r, ⟨flagN r, flagZ r, decide (2 ^ 32 ≤ a.toNat + b.toNat + k), decide (r.toInt ≠ sum)⟩)

/-- a - b - (1 - carry) with its flags: C is 1 when there is no borrow (R243). -/
def subFlags (a b : Word) (cin : Bool) : Word × Nzcv :=
  let k : Nat := if cin then 0 else 1
  let r := wordOf (a.toInt - b.toInt - (k : Int))
  (r, ⟨flagN r, flagZ r, decide (b.toNat + k ≤ a.toNat), decide (r.toInt ≠ a.toInt - b.toInt - (k : Int))⟩)

/-- N and Z take the result's, C and V stay (R243). -/
def nzFlags (r : Word) (old : Nzcv) : Nzcv := ⟨flagN r, flagZ r, old.c, old.v⟩

/-- The sixteen conditions of Table 10.8; code 15 is reserved and never holds here (its encoding is undefined, R236). -/
def condHolds (f : Nzcv) : Nat → Bool
  | 0 => f.z
  | 1 => !f.z
  | 2 => f.c
  | 3 => !f.c
  | 4 => f.n
  | 5 => !f.n
  | 6 => f.v
  | 7 => !f.v
  | 8 => f.c && !f.z
  | 9 => !f.c || f.z
  | 10 => f.n == f.v
  | 11 => f.n != f.v
  | 12 => !f.z && (f.n == f.v)
  | 13 => f.z || (f.n != f.v)
  | 14 => true
  | _ => false

/-- Logical left shift by the amount of bits [7:0] of `b`: 32 or more gives 0 (R245). -/
def shl (a b : Word) : Word := a <<< (b.toNat % 256)
/-- Logical right shift by bits [7:0] of `b` (R245). -/
def shr (a b : Word) : Word := a >>> (b.toNat % 256)
/-- Arithmetic right shift by bits [7:0] of `b`: 32 or more copies bit 31 (R245). -/
def sar (a b : Word) : Word := a.sshiftRight (b.toNat % 256)
/-- Rotate right by the amount modulo 32 (R245). -/
def ror (a b : Word) : Word := a.rotateRight (b.toNat % 32)

/-- Signed division toward zero with the corners of Table 10.10. -/
def divS (a b : Word) : Word := if b = 0#32 then 0xFFFFFFFF#32 else wordOf (Int.tdiv a.toInt b.toInt)
/-- Unsigned division (Table 10.10). -/
def divU (a b : Word) : Word := if b = 0#32 then 0xFFFFFFFF#32 else BitVec.ofNat 32 (a.toNat / b.toNat)
/-- Signed remainder with the sign of the dividend (Table 10.10). -/
def remS (a b : Word) : Word := if b = 0#32 then a else wordOf (Int.tmod a.toInt b.toInt)
/-- Unsigned remainder (Table 10.10). -/
def remU (a b : Word) : Word := if b = 0#32 then a else BitVec.ofNat 32 (a.toNat % b.toNat)

/-- Leading zeros, 0 to 32 (Table 10.9). -/
def clzW (a : Word) : Word := BitVec.ofNat 32 (if a = 0#32 then 32 else 31 - Nat.log2 a.toNat)
/-- Byte order reversed (Table 10.9). -/
def revW (a : Word) : Word :=
  (a <<< 24) ||| ((a &&& 0xFF00#32) <<< 8) ||| ((a >>> 8) &&& 0xFF00#32) ||| (a >>> 24)

/-- Limit an exact value to lo .. hi (R256). -/
def limit (lo hi x : Int) : Int := if x < lo then lo else if hi < x then hi else x
/-- The word written and whether Q sets: the exact result differs from the value written (R257). -/
def saturate (lo hi x : Int) : Word × Bool := (wordOf (limit lo hi x), decide (limit lo hi x ≠ x))
/-- sat32 of an exact value (R256). -/
def sat32 (x : Int) : Word × Bool := saturate (-(2 ^ 31)) (2 ^ 31 - 1) x
/-- sat16 of an exact value, sign-extended (R256). -/
def sat16 (x : Int) : Word × Bool := saturate (-(2 ^ 15)) (2 ^ 15 - 1) x
/-- Arithmetic right shift of an exact value. -/
def shrI (x : Int) (n : Nat) : Int := x.fdiv ((2 : Int) ^ n)

/-- QMULH works on the signed lower halfwords (Table 10.12). -/
def lowHalf (a : Word) : Int := (a.setWidth 16).toInt

/-- QMAC and QMSU: rd at Q31 plus or minus the product, rounded once, half upward (Table 10.13). -/
def qmac (neg : Bool) (d a b : Word) : Word × Bool :=
  let p := a.toInt * b.toInt
  sat32 (shrI (d.toInt * 2 ^ 31 + (if neg then -p else p) + 2 ^ 30) 31)

/-! ### FP32 (R259 to R261) -/

/-- A binary32 operand as the subset takes it: a subnormal is a zero of its sign (R259). -/
inductive FpVal where
  | nan (signalling : Bool)
  | inf (neg : Bool)
  | zero (neg : Bool)
  | fin (neg : Bool) (mant : Nat) (exp : Int)   -- mant * 2^exp
  deriving DecidableEq, Repr

/-- Decode a binary32 word (R259). -/
def fpDecode (w : Word) : FpVal :=
  let n : Nat := w.toNat
  let sgn := decide (2 ^ 31 ≤ n)
  let e : Nat := n / 2 ^ 23 % 256
  let f : Nat := n % 2 ^ 23
  if e = 255 then (if f = 0 then .inf sgn else .nan (decide (f < 2 ^ 22)))
  else if e = 0 then .zero sgn
  else .fin sgn (f + 2 ^ 23) ((e : Int) - 150)

/-- The sticky flags of FPCS as one number: IO 8, OF 4, UF 2, NX 1 (R259). -/
abbrev FpFlags := Nat

/-- The NaN every NaN result is (R259). -/
def fpNaN : Word := 0x7FC00000#32
/-- A signed infinity. -/
def fpInf (neg : Bool) : Word := if neg then 0xFF800000#32 else 0x7F800000#32
/-- A signed zero. -/
def fpZero (neg : Bool) : Word := if neg then 0x80000000#32 else 0#32

/-- Does rounding a magnitude with discarded part `rem` of `2^k` round away from zero under RM (R259)? -/
def roundsUp (rm : Nat) (neg : Bool) (q rem k : Nat) : Bool :=
  if rem = 0 then false
  else match rm with
    | 0 => decide (2 ^ k < 2 * rem) || (decide (2 * rem = 2 ^ k) && q % 2 == 1)
    | 1 => false
    | 2 => !neg
    | _ => neg

/-- Round `mant * 2^exp` to an integer multiple of `2^g`; answers the multiple and whether it is inexact. -/
def roundTo (rm : Nat) (neg : Bool) (mant : Nat) (exp g : Int) : Nat × Bool :=
  if g ≤ exp then (mant * 2 ^ (exp - g).toNat, false)
  else
    let k := (g - exp).toNat
    let q := mant / 2 ^ k
    let rem := mant % 2 ^ k
    (if roundsUp rm neg q rem k then q + 1 else q, decide (rem ≠ 0))

/-- Round an exact non-zero magnitude to binary32 under RM (R259): overflow gives OF and NX, a result that would be
subnormal is a zero of its sign with UF and NX. -/
def fpRound (rm : Nat) (neg : Bool) (mant : Nat) (exp : Int) : Word × FpFlags :=
  if mant = 0 then (fpZero neg, 0)
  else
    let top : Int := (Nat.log2 mant : Int) + exp
    let g : Int := max (top - 23) (-149)
    let (q, inex) := roundTo rm neg mant exp g
    let (q, g) := if q = 2 ^ 24 then (2 ^ 23, g + 1) else (q, g)
    if q < 2 ^ 23 then (fpZero neg, 3)
    else if 104 < g then
      let toInf := match rm with
        | 0 => true
        | 1 => false
        | 2 => !neg
        | _ => neg
      (if toInf then fpInf neg else (if neg then 0xFF7FFFFF#32 else 0x7F7FFFFF#32), 5)
    else
      (BitVec.ofNat 32 ((if neg then 2 ^ 31 else 0) + (g + 150).toNat * 2 ^ 23 + (q - 2 ^ 23)), if inex then 1 else 0)

/-- A signed exact value as integer times 2^exp. -/
def fpSigned (neg : Bool) (m : Nat) : Int := if neg then -(m : Int) else (m : Int)

/-- The sign of an exact zero sum: that of equal signs, else + but - toward minus infinity. -/
def zeroSumSign (rm : Nat) (a b : Bool) : Bool := if a == b then a else decide (rm = 3)

/-- Add two exact non-zero values and round once. -/
def fpAddExact (rm : Nat) (na : Bool) (ma : Nat) (ea : Int) (nb : Bool) (mb : Nat) (eb : Int) : Word × FpFlags :=
  let e := min ea eb
  let x := fpSigned na (ma * 2 ^ (ea - e).toNat) + fpSigned nb (mb * 2 ^ (eb - e).toNat)
  if x = 0 then (fpZero (zeroSumSign rm na nb), 0)
  else fpRound rm (decide (x < 0)) x.natAbs e

/-- IO for a signalling NaN among the operands (R259). -/
def fpSig (vs : List FpVal) : FpFlags := if vs.any (· == .nan true) then 8 else 0
/-- Is an operand a NaN? -/
def FpVal.isNaN : FpVal → Bool
  | .nan _ => true
  | _ => false

/-- Sum of two decoded values, at most one of them an unrounded product (R260). -/
def fpAddV (rm : Nat) (a b : FpVal) : Word × FpFlags :=
  match a, b with
  | .nan _, _ => (fpNaN, 0)
  | _, .nan _ => (fpNaN, 0)
  | .inf x, .inf y => if x == y then (fpInf x, 0) else (fpNaN, 8)
  | .inf x, _ => (fpInf x, 0)
  | _, .inf y => (fpInf y, 0)
  | .zero x, .zero y => (fpZero (zeroSumSign rm x y), 0)
  | .zero _, .fin n m e => fpRound rm n m e
  | .fin n m e, .zero _ => fpRound rm n m e
  | .fin n m e, .fin n' m' e' => fpAddExact rm n m e n' m' e'

/-- The exact product of two decoded values, with IO for 0 × ∞ (R259). -/
def fpMulV (a b : FpVal) : FpVal × FpFlags :=
  match a, b with
  | .nan _, _ => (.nan false, 0)
  | _, .nan _ => (.nan false, 0)
  | .inf _, .zero _ => (.nan false, 8)
  | .zero _, .inf _ => (.nan false, 8)
  | .inf x, .inf y => (.inf (x != y), 0)
  | .inf x, .fin n _ _ => (.inf (x != n), 0)
  | .fin n _ _, .inf y => (.inf (n != y), 0)
  | .zero x, .zero y => (.zero (x != y), 0)
  | .zero x, .fin n _ _ => (.zero (x != n), 0)
  | .fin n _ _, .zero y => (.zero (n != y), 0)
  | .fin n m e, .fin n' m' e' => (.fin (n != n') (m * m') (e + e'), 0)

/-- A value with its sign inverted. -/
def FpVal.negate : FpVal → FpVal
  | .nan s => .nan s
  | .inf n => .inf (!n)
  | .zero n => .zero (!n)
  | .fin n m e => .fin (!n) m e

/-- FADD and FSUB (Table 10.14). -/
def fpAdd (rm : Nat) (a b : Word) : Word × FpFlags :=
  let x := fpDecode a
  let y := fpDecode b
  let (r, f) := fpAddV rm x y
  (r, f ||| fpSig [x, y])
/-- FSUB (Table 10.14). -/
def fpSub (rm : Nat) (a b : Word) : Word × FpFlags :=
  let x := fpDecode a
  let y := fpDecode b
  let (r, f) := fpAddV rm x y.negate
  (r, f ||| fpSig [x, y])
/-- A product rounded to binary32. -/
def fpOut (rm : Nat) : FpVal → Word × FpFlags
  | .nan _ => (fpNaN, 0)
  | .inf n => (fpInf n, 0)
  | .zero n => (fpZero n, 0)
  | .fin n m e => fpRound rm n m e
/-- FMUL (Table 10.14). -/
def fpMul (rm : Nat) (a b : Word) : Word × FpFlags :=
  let x := fpDecode a
  let y := fpDecode b
  let (p, f) := fpMulV x y
  let (r, g) := fpOut rm p
  (r, f ||| g ||| fpSig [x, y])
/-- FMADD and FMSUB: rd plus or minus the product, rounded once (Table 10.14). -/
def fpMadd (rm : Nat) (neg : Bool) (d a b : Word) : Word × FpFlags :=
  let z := fpDecode d
  let x := fpDecode a
  let y := fpDecode b
  let (p, f) := fpMulV x y
  let (r, g) := fpAddV rm z (if neg then p.negate else p)
  (r, f ||| g ||| fpSig [x, y, z])

/-- A decoded value as a word again, for the operations that hand an operand on. -/
def fpEncode : FpVal → Word
  | .nan _ => fpNaN
  | .inf n => fpInf n
  | .zero n => fpZero n
  | .fin n m e => (fpRound 1 n m e).1

/-- Is a below b, with -0 below +0 where `zeroes` says so? -/
def fpLt (zeroes : Bool) (a b : FpVal) : Bool :=
  match a, b with
  | .nan _, _ => false
  | _, .nan _ => false
  | .inf x, .inf y => x && !y
  | .inf x, _ => x
  | _, .inf y => !y
  | .zero x, .zero y => zeroes && x && !y
  | .zero _, .fin n _ _ => !n
  | .fin n _ _, .zero _ => n
  | .fin n m e, .fin n' m' e' =>
    let g := min e e'
    decide (fpSigned n (m * 2 ^ (e - g).toNat) < fpSigned n' (m' * 2 ^ (e' - g).toNat))

/-- FMIN and FMAX: -0 is below +0, a single quiet NaN operand yields the other operand (Table 10.14). -/
def fpMinMax (isMax : Bool) (a b : Word) : Word × FpFlags :=
  let x := fpDecode a
  let y := fpDecode b
  let sig := fpSig [x, y]
  if sig ≠ 0 then (fpNaN, sig)
  else match x.isNaN, y.isNaN with
    | true, true => (fpNaN, 0)
    | true, false => (fpEncode y, 0)
    | false, true => (fpEncode x, 0)
    | false, false => (fpEncode (if fpLt true (if isMax then x else y) (if isMax then y else x) then y else x), 0)

/-- FCMP (R261): flags of the relation, and IO for a signalling NaN. -/
def fpCmp (a b : Word) : Nzcv × FpFlags :=
  let x := fpDecode a
  let y := fpDecode b
  (if x.isNaN || y.isNaN then ⟨false, false, true, true⟩
   else if fpLt false x y then ⟨true, false, false, false⟩
   else if fpLt false y x then ⟨false, false, true, false⟩
   else ⟨false, true, true, false⟩, fpSig [x, y])

/-- FTOQ: sat32 of the rounded scaled value; a NaN gives 0; IO out of range or NaN, NX when inexact (Table 10.14). -/
def fpToQ (rm : Nat) (a : Word) (f : Nat) : Word × FpFlags :=
  match fpDecode a with
  | .nan _ => (0#32, 8)
  | .inf n => (if n then 0x80000000#32 else 0x7FFFFFFF#32, 8)
  | .zero _ => (0#32, 0)
  | .fin n m e =>
    let (q, inex) := roundTo rm n m (e + f) 0
    let x := fpSigned n q
    let (w, out) := sat32 x
    (w, if out then 8 else if inex then 1 else 0)

/-- FFROMQ: a signed word times 2^-F as FP32 (Table 10.14). -/
def fpFromQ (rm : Nat) (a : Word) (f : Nat) : Word × FpFlags :=
  if a = 0#32 then (0#32, 0)
  else fpRound rm (decide (a.toInt < 0)) a.toInt.natAbs (-(f : Int))

end Sys2Proof.Machine
end

