-- ==== Sys2Proof/Machine/RegFile.lean ====
section
/-!
DEFINITION. Registers as the spec lays them out: a register has an address and a reset value, a field is a run of bits of a
register (R4), and the values of all registers stand in one sorted list that holds the registers that have been
written since their reset. Core-private registers of core c stand at their address plus c * 2^32.
-/
namespace Sys2Proof.Machine

/-- A register: its key (its address, plus 2^32 for each core for core-private space) and its reset value. -/
structure Reg where
  addr : Nat
  rst  : Nat
  deriving DecidableEq, Repr

/-- A field of a register: least significant bit and width (R4). -/
structure RF where
  reg : Reg
  lsb : Nat
  wid : Nat
  deriving DecidableEq, Repr

/-- The reset levels of the register maps (spec/00_scope.md; R519). `part` is PARTITION of the owner, `core` is the
level of a core's own registers, `por` returns to reset at VDD_AON power-on only (R482). -/
inductive Level where
  | dev | part | lane | core | por
  deriving DecidableEq, Repr

/-- One register class of the maps: base address, strides with counts in falling order, reset level, reset
value, and the bits of each access type of Table 0.6; `fix` holds the bits whose value the image or a fuse gives. -/
structure RegClass where
  name  : String
  base  : Nat
  dims  : List (Nat × Nat)
  level : Level
  rst   : Nat
  rw    : Nat
  w1c   : Nat
  w1s   : Nat
  rws   : Nat
  wo    : Nat
  fix   : Nat
  deriving DecidableEq, Repr

/-- Does offset `off` from the base of a class name one of its registers? -/
def RegClass.hits : List (Nat × Nat) → Nat → Bool
  | [], off => off == 0
  | (st, n) :: ds, off => off / st < n && RegClass.hits ds (off % st)

/-- The register class at address `a`, if the maps list one there. -/
def RegClass.find (cs : List RegClass) (a : Nat) : Option RegClass :=
  cs.find? fun c => decide (c.base ≤ a) && RegClass.hits c.dims (a - c.base)

/-- A sparse table keyed by numbers, keys rising. It holds the values of registers that differ from reset, or the
state of like blocks numbered from 0; what is not listed has the default that the reader names. -/
abbrev Tab (α : Type) := List (Nat × α)

/-- Read entry `k`, or `d` where none is listed. -/
def Tab.get {α : Type} (d : α) : Tab α → Nat → α
  | [], _ => d
  | (k', v) :: t, k => if k = k' then v else Tab.get d t k

/-- Write entry `k`, keeping the keys in rising order. -/
def Tab.set {α : Type} : Tab α → Nat → α → Tab α
  | [], k, v => [(k, v)]
  | (k', v') :: t, k, v =>
    if k = k' then (k, v) :: t
    else if k < k' then (k, v) :: (k', v') :: t
    else (k', v') :: Tab.set t k v

/-- Change entry `k` by `f`. -/
def Tab.upd {α : Type} (d : α) (t : Tab α) (k : Nat) (f : α → α) : Tab α := t.set k (f (t.get d k))

/-- Drop the entries whose key satisfies `p`: they return to the default. -/
def Tab.drop {α : Type} (t : Tab α) (p : Nat → Bool) : Tab α := t.filter fun e => !p e.1

/-- The bits of a field of width `w` at bit 0. -/
def fieldMask (w : Nat) : Word := BitVec.ofNat 32 (2 ^ w - 1)

/-- The value of bits [lsb + w - 1 : lsb] of `v` (R4). -/
def fieldGet (v : Word) (lsb w : Nat) : Nat := ((v >>> lsb) &&& fieldMask w).toNat

/-- `v` with bits [lsb + w - 1 : lsb] replaced by `x` modulo 2^w. -/
def fieldPut (v : Word) (lsb w x : Nat) : Word :=
  (v &&& ~~~(fieldMask w <<< lsb)) ||| ((BitVec.ofNat 32 x &&& fieldMask w) <<< lsb)

/-- The register file: the values that differ from reset, and by register the bits that hardware has set in the present
cycle of device time (R10). -/
structure RegFile where
  vals : Tab Word := []
  hot  : Tab Word := []
  deriving DecidableEq, Repr

/-- The value of register `r`. -/
def RegFile.rd (f : RegFile) (r : Reg) : Word := f.vals.get (BitVec.ofNat 32 r.rst) r.addr

/-- Register `r` takes value `v`. -/
def RegFile.wr (f : RegFile) (r : Reg) (v : Word) : RegFile := { f with vals := f.vals.set r.addr v }

/-- The bits of register `r` that hardware has set in this cycle (R10). -/
def RegFile.hotAt (f : RegFile) (r : Reg) : Word := f.hot.get 0#32 r.addr

/-- Note bits of register `r` as set in this cycle. -/
def RegFile.heat (f : RegFile) (r : Reg) (m : Word) : RegFile :=
  if m = 0#32 then f else { f with hot := f.hot.set r.addr (f.hotAt r ||| m) }

/-- A write of 1 to the bits `m` of register `r` clears them, but for those that hardware has set in the same cycle (R10). -/
def RegFile.clr (f : RegFile) (r : Reg) (m : Word) : RegFile := f.wr r (f.rd r &&& ~~~(m &&& ~~~(f.hotAt r)))

/-- The value of a field. -/
def RegFile.fld (f : RegFile) (q : RF) : Nat := fieldGet (f.rd q.reg) q.lsb q.wid

/-- A field takes value `x`; a field of one bit that takes 1 has been set in this cycle (R10). -/
def RegFile.put (f : RegFile) (q : RF) (x : Nat) : RegFile :=
  (f.wr q.reg (fieldPut (f.rd q.reg) q.lsb q.wid x)).heat q.reg (if q.wid = 1 then fieldPut 0#32 q.lsb q.wid x else 0#32)

end Sys2Proof.Machine
end

