-- ==== Sys2Proof/Machine/Regs.lean ====
section
/-!
DEFINITION. The register maps of spec/ (R9, Table 0.6): one name per register, with its address and reset value, one name per
field, with its bits, and the table of register classes that a plain register write consults. The names are the
spec's own. A field whose reset the spec gives as "image", "fuse", "strap" or a record reads 0 until that
source is applied. Indices that the spec writes in lower case are the arguments.
-/
namespace Sys2Proof.Machine.R

open Sys2Proof.Machine

/-! ### Registers of spec/02_structure_image.md -/

def SCFG_STATUS : Reg := ⟨0x40000000, 0xFF0003⟩
def SCFG_STATUS_RELOAD_PART : RF := ⟨SCFG_STATUS, 16, 8⟩
def SCFG_STATUS_RELOAD_STATE : RF := ⟨SCFG_STATUS, 10, 3⟩
def SCFG_STATUS_RST_DEFERRED : RF := ⟨SCFG_STATUS, 9, 1⟩
def SCFG_STATUS_FLOOR_REFUSED : RF := ⟨SCFG_STATUS, 8, 1⟩
def SCFG_STATUS_PERSISTING : RF := ⟨SCFG_STATUS, 5, 1⟩
def SCFG_STATUS_FALLBACK : RF := ⟨SCFG_STATUS, 4, 1⟩
def SCFG_STATUS_TRIAL : RF := ⟨SCFG_STATUS, 3, 1⟩
def SCFG_STATUS_IN_SLOT : RF := ⟨SCFG_STATUS, 2, 1⟩
def SCFG_STATUS_BASE_SLOT : RF := ⟨SCFG_STATUS, 0, 2⟩
def SCFG_BOOT_CODE : Reg := ⟨0x40000004, 0x0⟩
def SCFG_BOOT_CODE_CODE_B : RF := ⟨SCFG_BOOT_CODE, 16, 16⟩
def SCFG_BOOT_CODE_CODE_A : RF := ⟨SCFG_BOOT_CODE, 0, 16⟩
def SCFG_SEQ : Reg := ⟨0x40000008, 0x0⟩
def SCFG_SEQ_SEQ : RF := ⟨SCFG_SEQ, 0, 32⟩
def SCFG_FLOOR : Reg := ⟨0x4000000C, 0x0⟩
def SCFG_FLOOR_FLOOR : RF := ⟨SCFG_FLOOR, 0, 32⟩
def SCFG_FLOOR_CTRL : Reg := ⟨0x40000010, 0x0⟩
def SCFG_FLOOR_CTRL_KEY : RF := ⟨SCFG_FLOOR_CTRL, 8, 8⟩
def SCFG_FLOOR_CTRL_ADVANCE : RF := ⟨SCFG_FLOOR_CTRL, 0, 1⟩
def SCFG_CHK_CODE : Reg := ⟨0x40000014, 0x0⟩
def SCFG_CHK_CODE_CODE : RF := ⟨SCFG_CHK_CODE, 0, 16⟩
def SCFG_CHK_OFFSET : Reg := ⟨0x40000018, 0x0⟩
def SCFG_CHK_OFFSET_OFFSET : RF := ⟨SCFG_CHK_OFFSET, 0, 32⟩
def SCFG_DIG_SEL : Reg := ⟨0x40000020, 0x0⟩
def SCFG_DIG_SEL_SEG : RF := ⟨SCFG_DIG_SEL, 0, 4⟩
def SCFG_DIGk (k : Nat) : Reg := ⟨0x40000024 + 0x4 * k, 0x0⟩
def SCFG_DIGk_DIGEST (k : Nat) : RF := ⟨SCFG_DIGk k, 0, 32⟩
def SCFG_RQn_ADDR (n : Nat) : Reg := ⟨0x40000100 + 0x20 * n, 0x0⟩
def SCFG_RQn_ADDR_ADDR (n : Nat) : RF := ⟨SCFG_RQn_ADDR n, 6, 26⟩
def SCFG_RQn_LEN (n : Nat) : Reg := ⟨0x40000104 + 0x20 * n, 0x0⟩
def SCFG_RQn_LEN_LEN (n : Nat) : RF := ⟨SCFG_RQn_LEN n, 2, 21⟩
def SCFG_RQn_CTRL (n : Nat) : Reg := ⟨0x40000108 + 0x20 * n, 0x0⟩
def SCFG_RQn_CTRL_PERSIST (n : Nat) : RF := ⟨SCFG_RQn_CTRL n, 1, 1⟩
def SCFG_RQn_CTRL_START (n : Nat) : RF := ⟨SCFG_RQn_CTRL n, 0, 1⟩
def SCFG_RQn_STAT (n : Nat) : Reg := ⟨0x4000010C + 0x20 * n, 0x0⟩
def SCFG_RQn_STAT_CODE (n : Nat) : RF := ⟨SCFG_RQn_STAT n, 16, 16⟩
def SCFG_RQn_STAT_PERSIST_FAIL (n : Nat) : RF := ⟨SCFG_RQn_STAT n, 4, 1⟩
def SCFG_RQn_STAT_PERSISTED (n : Nat) : RF := ⟨SCFG_RQn_STAT n, 3, 1⟩
def SCFG_RQn_STAT_STATE (n : Nat) : RF := ⟨SCFG_RQn_STAT n, 0, 3⟩

/-! ### Registers of spec/03_fast_converters.md -/

def FCV_Gg_STATUS (g : Nat) : Reg := ⟨0x40100000 + 0x10 * g, 0x800⟩
def FCV_Gg_STATUS_ROTATIONS (g : Nat) : RF := ⟨FCV_Gg_STATUS g, 16, 16⟩
def FCV_Gg_STATUS_NEXT_CH (g : Nat) : RF := ⟨FCV_Gg_STATUS g, 12, 3⟩
def FCV_Gg_STATUS_SPARE (g : Nat) : RF := ⟨FCV_Gg_STATUS g, 8, 4⟩
def FCV_Gg_STATUS_FROZEN (g : Nat) : RF := ⟨FCV_Gg_STATUS g, 4, 1⟩
def FCV_Gg_STATUS_CAL_FAULT (g : Nat) : RF := ⟨FCV_Gg_STATUS g, 3, 1⟩
def FCV_Gg_STATUS_CAL_MISSING (g : Nat) : RF := ⟨FCV_Gg_STATUS g, 2, 1⟩
def FCV_Gg_STATUS_STARTING (g : Nat) : RF := ⟨FCV_Gg_STATUS g, 1, 1⟩
def FCV_Gg_STATUS_CAL_SETTLED (g : Nat) : RF := ⟨FCV_Gg_STATUS g, 0, 1⟩
def FCV_Gg_CAL_CTRL (g : Nat) : Reg := ⟨0x40100004 + 0x10 * g, 0x0⟩
def FCV_Gg_CAL_CTRL_FREEZE (g : Nat) : RF := ⟨FCV_Gg_CAL_CTRL g, 0, 1⟩
def FCV_CHn_CFG (n : Nat) : Reg := ⟨0x40101000 + 0x100 * n, 0x0⟩
def FCV_CHn_CFG_LANES (n : Nat) : RF := ⟨FCV_CHn_CFG n, 16, 16⟩
def FCV_CHn_CFG_MAILBOX (n : Nat) : RF := ⟨FCV_CHn_CFG n, 13, 3⟩
def FCV_CHn_CFG_COPY_DMA (n : Nat) : RF := ⟨FCV_CHn_CFG n, 12, 1⟩
def FCV_CHn_CFG_COPY_FEEDER (n : Nat) : RF := ⟨FCV_CHn_CFG n, 11, 1⟩
def FCV_CHn_CFG_FORMAT (n : Nat) : RF := ⟨FCV_CHn_CFG n, 10, 1⟩
def FCV_CHn_CFG_RANGE (n : Nat) : RF := ⟨FCV_CHn_CFG n, 0, 8⟩
def FCV_CHn_TRIG (n : Nat) : Reg := ⟨0x40101004 + 0x100 * n, 0x0⟩
def FCV_CHn_TRIG_DIV (n : Nat) : RF := ⟨FCV_CHn_TRIG n, 16, 16⟩
def FCV_CHn_TRIG_EVT_EN (n : Nat) : RF := ⟨FCV_CHn_TRIG n, 2, 1⟩
def FCV_CHn_TRIG_MODE (n : Nat) : RF := ⟨FCV_CHn_TRIG n, 0, 2⟩
def FCV_CHn_PHASE (n : Nat) : Reg := ⟨0x40101008 + 0x100 * n, 0x0⟩
def FCV_CHn_PHASE_PHASE (n : Nat) : RF := ⟨FCV_CHn_PHASE n, 0, 7⟩
def FCV_CHn_TMOD (n : Nat) : Reg := ⟨0x4010100C + 0x100 * n, 0x0⟩
def FCV_CHn_TMOD_TMOD (n : Nat) : RF := ⟨FCV_CHn_TMOD n, 0, 32⟩
def FCV_CHn_TPHASE (n : Nat) : Reg := ⟨0x40101010 + 0x100 * n, 0x0⟩
def FCV_CHn_TPHASE_TPHASE (n : Nat) : RF := ⟨FCV_CHn_TPHASE n, 0, 32⟩
def FCV_CHn_FIRE (n : Nat) : Reg := ⟨0x40101014 + 0x100 * n, 0x0⟩
def FCV_CHn_FIRE_ARM (n : Nat) : RF := ⟨FCV_CHn_FIRE n, 0, 1⟩
def FCV_CHn_COMMIT (n : Nat) : Reg := ⟨0x40101018 + 0x100 * n, 0x0⟩
def FCV_CHn_COMMIT_COMMIT (n : Nat) : RF := ⟨FCV_CHn_COMMIT n, 0, 1⟩
def FCV_CHn_DMA (n : Nat) : Reg := ⟨0x4010101C + 0x100 * n, 0x100⟩
def FCV_CHn_DMA_WATERMARK (n : Nat) : RF := ⟨FCV_CHn_DMA n, 8, 8⟩
def FCV_CHn_DMA_DDIV (n : Nat) : RF := ⟨FCV_CHn_DMA n, 0, 4⟩
def FCV_CHn_STATUS (n : Nat) : Reg := ⟨0x40101020 + 0x100 * n, 0x40 + (n % 8) * 256⟩
def FCV_CHn_STATUS_SLICE (n : Nat) : RF := ⟨FCV_CHn_STATUS n, 8, 4⟩
def FCV_CHn_STATUS_ARMED (n : Nat) : RF := ⟨FCV_CHn_STATUS n, 7, 1⟩
def FCV_CHn_STATUS_UNSETTLED (n : Nat) : RF := ⟨FCV_CHn_STATUS n, 6, 1⟩
def FCV_CHn_STATUS_DROP (n : Nat) : RF := ⟨FCV_CHn_STATUS n, 5, 1⟩
def FCV_CHn_STATUS_ARM_LATE (n : Nat) : RF := ⟨FCV_CHn_STATUS n, 4, 1⟩
def FCV_CHn_STATUS_TRIG_OVERRUN (n : Nat) : RF := ⟨FCV_CHn_STATUS n, 3, 1⟩
def FCV_CHn_STATUS_SUSPECT_SEEN (n : Nat) : RF := ⟨FCV_CHn_STATUS n, 2, 1⟩
def FCV_CHn_STATUS_CLIPPED (n : Nat) : RF := ⟨FCV_CHn_STATUS n, 1, 1⟩
def FCV_CHn_DROPCNT (n : Nat) : Reg := ⟨0x40101024 + 0x100 * n, 0x0⟩
def FCV_CHn_DROPCNT_COUNT (n : Nat) : RF := ⟨FCV_CHn_DROPCNT n, 0, 32⟩
def FCV_CHn_LAST (n : Nat) : Reg := ⟨0x40101028 + 0x100 * n, 0x0⟩
def FCV_CHn_LAST_WORD (n : Nat) : RF := ⟨FCV_CHn_LAST n, 0, 32⟩
def FCV_CHn_LAST_TIME_LO (n : Nat) : Reg := ⟨0x4010102C + 0x100 * n, 0x0⟩
def FCV_CHn_LAST_TIME_LO_TIME_LO (n : Nat) : RF := ⟨FCV_CHn_LAST_TIME_LO n, 0, 32⟩
def FCV_CHn_LAST_TIME_HI (n : Nat) : Reg := ⟨0x40101030 + 0x100 * n, 0x0⟩
def FCV_CHn_LAST_TIME_HI_TIME_HI (n : Nat) : RF := ⟨FCV_CHn_LAST_TIME_HI n, 0, 32⟩
def CMP_Cc_CTRL (c : Nat) : Reg := ⟨0x40120000 + 0x20 * c, 0x0⟩
def CMP_Cc_CTRL_EVT_EN (c : Nat) : RF := ⟨CMP_Cc_CTRL c, 4, 1⟩
def CMP_Cc_CTRL_HYST (c : Nat) : RF := ⟨CMP_Cc_CTRL c, 2, 2⟩
def CMP_Cc_CTRL_LOCK (c : Nat) : RF := ⟨CMP_Cc_CTRL c, 1, 1⟩
def CMP_Cc_CTRL_EN (c : Nat) : RF := ⟨CMP_Cc_CTRL c, 0, 1⟩
def CMP_Cc_THR (c : Nat) : Reg := ⟨0x40120004 + 0x20 * c, 0x0⟩
def CMP_Cc_THR_THRESH (c : Nat) : RF := ⟨CMP_Cc_THR c, 0, 10⟩
def CMP_Cc_STATUS (c : Nat) : Reg := ⟨0x40120008 + 0x20 * c, 0x0⟩
def CMP_Cc_STATUS_TRIPPED (c : Nat) : RF := ⟨CMP_Cc_STATUS c, 1, 1⟩
def CMP_Cc_STATUS_LIVE (c : Nat) : RF := ⟨CMP_Cc_STATUS c, 0, 1⟩
def CMP_Cc_TEST (c : Nat) : Reg := ⟨0x4012000C + 0x20 * c, 0x0⟩
def CMP_Cc_TEST_PULSE (c : Nat) : RF := ⟨CMP_Cc_TEST c, 0, 1⟩

/-! ### Registers of spec/04_scan_converters.md -/

def SCV_Ck_CTRL (k : Nat) : Reg := ⟨0x40110000 + 0x20 * k, 0x1⟩
def SCV_Ck_CTRL_ROUND (k : Nat) : RF := ⟨SCV_Ck_CTRL k, 16, 16⟩
def SCV_Ck_CTRL_MODE (k : Nat) : RF := ⟨SCV_Ck_CTRL k, 0, 2⟩
def SCV_Ck_STATUS (k : Nat) : Reg := ⟨0x40110004 + 0x20 * k, 0x0⟩
def SCV_Ck_STATUS_ROUNDS (k : Nat) : RF := ⟨SCV_Ck_STATUS k, 16, 16⟩
def SCV_Ck_STATUS_CAL_MISSING (k : Nat) : RF := ⟨SCV_Ck_STATUS k, 4, 1⟩
def SCV_Ck_STATUS_START_OVERRUN (k : Nat) : RF := ⟨SCV_Ck_STATUS k, 3, 1⟩
def SCV_Ck_STATUS_ROUND_LATE (k : Nat) : RF := ⟨SCV_Ck_STATUS k, 2, 1⟩
def SCV_Ck_STATUS_BUSY (k : Nat) : RF := ⟨SCV_Ck_STATUS k, 1, 1⟩
def SCV_Ck_STATUS_RUNNING (k : Nat) : RF := ⟨SCV_Ck_STATUS k, 0, 1⟩
def SCV_Ck_MASK (k : Nat) : Reg := ⟨0x40110008 + 0x20 * k, 0x0⟩
def SCV_Ck_MASK_MASK (k : Nat) : RF := ⟨SCV_Ck_MASK k, 0, 20⟩
def SCV_WIN_LIVEj (j : Nat) : Reg := ⟨0x40110080 + 0x4 * j, 0x0⟩
def SCV_WIN_LIVEj_LIVE (j : Nat) : RF := ⟨SCV_WIN_LIVEj j, 0, 32⟩
def SCV_CHn_CFG (n : Nat) : Reg := ⟨0x40111000 + 0x40 * n, if 64 ≤ n then 0x800000 else 0⟩
def SCV_CHn_CFG_RANGE (n : Nat) : RF := ⟨SCV_CHn_CFG n, 16, 8⟩
def SCV_CHn_CFG_PERSIST (n : Nat) : RF := ⟨SCV_CHn_CFG n, 12, 4⟩
def SCV_CHn_CFG_SHIFT (n : Nat) : RF := ⟨SCV_CHn_CFG n, 8, 4⟩
def SCV_CHn_CFG_AVG (n : Nat) : RF := ⟨SCV_CHn_CFG n, 4, 4⟩
def SCV_CHn_CFG_WIN_EN (n : Nat) : RF := ⟨SCV_CHn_CFG n, 2, 1⟩
def SCV_CHn_CFG_EVT_EN (n : Nat) : RF := ⟨SCV_CHn_CFG n, 1, 1⟩
def SCV_CHn_CFG_EN (n : Nat) : RF := ⟨SCV_CHn_CFG n, 0, 1⟩
def SCV_CHn_RESULT (n : Nat) : Reg := ⟨0x40111004 + 0x40 * n, 0x0⟩
def SCV_CHn_RESULT_RSEQ (n : Nat) : RF := ⟨SCV_CHn_RESULT n, 28, 4⟩
def SCV_CHn_RESULT_VALID (n : Nat) : RF := ⟨SCV_CHn_RESULT n, 26, 1⟩
def SCV_CHn_RESULT_CLIP (n : Nat) : RF := ⟨SCV_CHn_RESULT n, 25, 1⟩
def SCV_CHn_RESULT_SUSPECT (n : Nat) : RF := ⟨SCV_CHn_RESULT n, 24, 1⟩
def SCV_CHn_RESULT_VALUE (n : Nat) : RF := ⟨SCV_CHn_RESULT n, 0, 24⟩
def SCV_CHn_WIN_LO (n : Nat) : Reg := ⟨0x40111008 + 0x40 * n, 0x0⟩
def SCV_CHn_WIN_LO_LO (n : Nat) : RF := ⟨SCV_CHn_WIN_LO n, 0, 24⟩
def SCV_CHn_WIN_HI (n : Nat) : Reg := ⟨0x4011100C + 0x40 * n, 0xFFFFFF⟩
def SCV_CHn_WIN_HI_HI (n : Nat) : RF := ⟨SCV_CHn_WIN_HI n, 0, 24⟩
def SCV_CHn_STATUS (n : Nat) : Reg := ⟨0x40111010 + 0x40 * n, 0x0⟩
def SCV_CHn_STATUS_LIVE_OUT (n : Nat) : RF := ⟨SCV_CHn_STATUS n, 4, 1⟩
def SCV_CHn_STATUS_OUT_HI (n : Nat) : RF := ⟨SCV_CHn_STATUS n, 3, 1⟩
def SCV_CHn_STATUS_OUT_LO (n : Nat) : RF := ⟨SCV_CHn_STATUS n, 2, 1⟩
def SCV_CHn_STATUS_CLIPPED (n : Nat) : RF := ⟨SCV_CHn_STATUS n, 1, 1⟩
def SCV_CHn_STATUS_SUSPECT_SEEN (n : Nat) : RF := ⟨SCV_CHn_STATUS n, 0, 1⟩

/-! ### Registers of spec/05_control_lanes.md -/

def LNC_Ln_STATUS (n : Nat) : Reg := ⟨0x40140000 + 0x1000 * n, 0x0⟩
def LNC_Ln_STATUS_BOUND (n : Nat) : RF := ⟨LNC_Ln_STATUS n, 23, 1⟩
def LNC_Ln_STATUS_BINDING (n : Nat) : RF := ⟨LNC_Ln_STATUS n, 16, 6⟩
def LNC_Ln_STATUS_EPOCH (n : Nat) : RF := ⟨LNC_Ln_STATUS n, 8, 8⟩
def LNC_Ln_STATUS_HALTED (n : Nat) : RF := ⟨LNC_Ln_STATUS n, 4, 1⟩
def LNC_Ln_STATUS_OUT_NONE (n : Nat) : RF := ⟨LNC_Ln_STATUS n, 3, 1⟩
def LNC_Ln_STATUS_LATE_START (n : Nat) : RF := ⟨LNC_Ln_STATUS n, 2, 1⟩
def LNC_Ln_STATUS_PENDING (n : Nat) : RF := ⟨LNC_Ln_STATUS n, 1, 1⟩
def LNC_Ln_STATUS_RUNNING (n : Nat) : RF := ⟨LNC_Ln_STATUS n, 0, 1⟩
def LNC_Ln_FAULT (n : Nat) : Reg := ⟨0x40140004 + 0x1000 * n, 0x0⟩
def LNC_Ln_FAULT_EXC (n : Nat) : RF := ⟨LNC_Ln_FAULT n, 8, 4⟩
def LNC_Ln_FAULT_CAUSE (n : Nat) : RF := ⟨LNC_Ln_FAULT n, 0, 4⟩
def LNC_Ln_FAULT_PC (n : Nat) : Reg := ⟨0x40140008 + 0x1000 * n, 0x0⟩
def LNC_Ln_FAULT_PC_PC (n : Nat) : RF := ⟨LNC_Ln_FAULT_PC n, 0, 32⟩
def LNC_Ln_ACTCNT (n : Nat) : Reg := ⟨0x4014000C + 0x1000 * n, 0x0⟩
def LNC_Ln_ACTCNT_COUNT (n : Nat) : RF := ⟨LNC_Ln_ACTCNT n, 0, 32⟩
def LNC_Ln_CTRL (n : Nat) : Reg := ⟨0x40140010 + 0x1000 * n, 0x0⟩
def LNC_Ln_CTRL_CLRFAULT (n : Nat) : RF := ⟨LNC_Ln_CTRL n, 1, 1⟩
def LNC_Ln_CTRL_RESET (n : Nat) : RF := ⟨LNC_Ln_CTRL n, 0, 1⟩
def LNC_LATEDROP : Reg := ⟨0x40150000, 0x0⟩
def LNC_LATEDROP_COUNT : RF := ⟨LNC_LATEDROP, 0, 32⟩
def LNC_Bb_MAP (b : Nat) : Reg := ⟨0x40151000 + 0x40 * b, 0x0⟩
def LNC_Bb_MAP_DEFINED (b : Nat) : RF := ⟨LNC_Bb_MAP b, 31, 1⟩
def LNC_Bb_MAP_FEEDER_PORT (b : Nat) : RF := ⟨LNC_Bb_MAP b, 27, 2⟩
def LNC_Bb_MAP_FEEDER (b : Nat) : RF := ⟨LNC_Bb_MAP b, 26, 1⟩
def LNC_Bb_MAP_COMPARED (b : Nat) : RF := ⟨LNC_Bb_MAP b, 25, 1⟩
def LNC_Bb_MAP_HOLD (b : Nat) : RF := ⟨LNC_Bb_MAP b, 24, 1⟩
def LNC_Bb_MAP_TRIG_SRC (b : Nat) : RF := ⟨LNC_Bb_MAP b, 16, 8⟩
def LNC_Bb_MAP_TRIG_KIND (b : Nat) : RF := ⟨LNC_Bb_MAP b, 13, 3⟩
def LNC_Bb_MAP_PERIOD_UNIT (b : Nat) : RF := ⟨LNC_Bb_MAP b, 8, 5⟩
def LNC_Bb_MAP_LANE_B (b : Nat) : RF := ⟨LNC_Bb_MAP b, 4, 4⟩
def LNC_Bb_MAP_LANE_A (b : Nat) : RF := ⟨LNC_Bb_MAP b, 0, 4⟩
def LNC_Bb_DEST (b : Nat) : Reg := ⟨0x40151004 + 0x40 * b, 0x0⟩
def LNC_Bb_DEST_KIND (b k : Nat) : RF := ⟨LNC_Bb_DEST b, 6 + 8 * k, 2⟩
def LNC_Bb_DEST_ID (b k : Nat) : RF := ⟨LNC_Bb_DEST b, 0 + 8 * k, 5⟩
def LNC_Bb_ENTRY (b : Nat) : Reg := ⟨0x40151008 + 0x40 * b, 0x0⟩
def LNC_Bb_ENTRY_ENTRY (b : Nat) : RF := ⟨LNC_Bb_ENTRY b, 0, 16⟩
def LNC_Bb_CTRL (b : Nat) : Reg := ⟨0x4015100C + 0x40 * b, 0x1001⟩
def LNC_Bb_CTRL_DEADLINE (b : Nat) : RF := ⟨LNC_Bb_CTRL b, 16, 16⟩
def LNC_Bb_CTRL_CMP_WAIT (b : Nat) : RF := ⟨LNC_Bb_CTRL b, 8, 8⟩
def LNC_Bb_CTRL_ON_FAULT (b : Nat) : RF := ⟨LNC_Bb_CTRL b, 0, 1⟩
def LNC_Bb_WAIT (b : Nat) : Reg := ⟨0x40151010 + 0x40 * b, 0x0⟩
def LNC_Bb_WAIT_WAIT_LIMIT (b : Nat) : RF := ⟨LNC_Bb_WAIT b, 16, 16⟩
def LNC_Bb_WAIT_WAIT_MASK (b : Nat) : RF := ⟨LNC_Bb_WAIT b, 0, 8⟩
def LNC_Bb_POSSEL (b : Nat) : Reg := ⟨0x40151014 + 0x40 * b, 0x0⟩
def LNC_Bb_POSSEL_EN1 (b : Nat) : RF := ⟨LNC_Bb_POSSEL b, 12, 1⟩
def LNC_Bb_POSSEL_PSEL1 (b : Nat) : RF := ⟨LNC_Bb_POSSEL b, 8, 4⟩
def LNC_Bb_POSSEL_EN0 (b : Nat) : RF := ⟨LNC_Bb_POSSEL b, 4, 1⟩
def LNC_Bb_POSSEL_PSEL0 (b : Nat) : RF := ⟨LNC_Bb_POSSEL b, 0, 4⟩
def LNC_Bb_CMD (b : Nat) : Reg := ⟨0x40151018 + 0x40 * b, 0x0⟩
def LNC_Bb_CMD_CLEAR (b : Nat) : RF := ⟨LNC_Bb_CMD b, 3, 1⟩
def LNC_Bb_CMD_SWAP (b : Nat) : RF := ⟨LNC_Bb_CMD b, 2, 1⟩
def LNC_Bb_CMD_RELEASE (b : Nat) : RF := ⟨LNC_Bb_CMD b, 1, 1⟩
def LNC_Bb_CMD_FIRE (b : Nat) : RF := ⟨LNC_Bb_CMD b, 0, 1⟩
def LNC_Bb_STATUS (b : Nat) : Reg := ⟨0x4015101C + 0x40 * b, 0x0⟩
def LNC_Bb_STATUS_EPOCH (b : Nat) : RF := ⟨LNC_Bb_STATUS b, 24, 8⟩
def LNC_Bb_STATUS_LATEDROPS (b : Nat) : RF := ⟨LNC_Bb_STATUS b, 16, 8⟩
def LNC_Bb_STATUS_PARAM_ACTIVE (b : Nat) : RF := ⟨LNC_Bb_STATUS b, 10, 1⟩
def LNC_Bb_STATUS_SWAP_PENDING (b : Nat) : RF := ⟨LNC_Bb_STATUS b, 9, 1⟩
def LNC_Bb_STATUS_POS_FOREIGN (b : Nat) : RF := ⟨LNC_Bb_STATUS b, 8, 1⟩
def LNC_Bb_STATUS_FORCED (b : Nat) : RF := ⟨LNC_Bb_STATUS b, 7, 1⟩
def LNC_Bb_STATUS_SEQUENCE (b : Nat) : RF := ⟨LNC_Bb_STATUS b, 6, 1⟩
def LNC_Bb_STATUS_MISSING (b : Nat) : RF := ⟨LNC_Bb_STATUS b, 5, 1⟩
def LNC_Bb_STATUS_MISMATCH (b : Nat) : RF := ⟨LNC_Bb_STATUS b, 4, 1⟩
def LNC_Bb_STATUS_FAULTED (b : Nat) : RF := ⟨LNC_Bb_STATUS b, 3, 1⟩
def LNC_Bb_STATUS_STARVED (b : Nat) : RF := ⟨LNC_Bb_STATUS b, 2, 1⟩
def LNC_Bb_STATUS_OVERRUN (b : Nat) : RF := ⟨LNC_Bb_STATUS b, 1, 1⟩
def LNC_Bb_STATUS_RUNNING (b : Nat) : RF := ⟨LNC_Bb_STATUS b, 0, 1⟩
def LNC_Bb_COUNTS (b : Nat) : Reg := ⟨0x40151020 + 0x40 * b, 0x0⟩
def LNC_Bb_COUNTS_STARVES (b : Nat) : RF := ⟨LNC_Bb_COUNTS b, 16, 16⟩
def LNC_Bb_COUNTS_OVERRUNS (b : Nat) : RF := ⟨LNC_Bb_COUNTS b, 0, 16⟩

/-! ### Registers of spec/06_pwm.md -/

def PWM_Gg_STATUS (g : Nat) : Reg := ⟨0x40180000 + 0x10 * g, 0x0⟩
def PWM_Gg_STATUS_CLK_FORCE (g : Nat) : RF := ⟨PWM_Gg_STATUS g, 3, 1⟩
def PWM_Gg_STATUS_SUBSTEP_OK (g : Nat) : RF := ⟨PWM_Gg_STATUS g, 2, 1⟩
def PWM_Gg_STATUS_ALIGNED (g : Nat) : RF := ⟨PWM_Gg_STATUS g, 1, 1⟩
def PWM_Gg_STATUS_RUNNING (g : Nat) : RF := ⟨PWM_Gg_STATUS g, 0, 1⟩
def PWM_COMMIT_ALL : Reg := ⟨0x40180100, 0x0⟩
def PWM_COMMIT_ALL_UNITS : RF := ⟨PWM_COMMIT_ALL, 0, 32⟩
def PWM_Un_CFG (n : Nat) : Reg := ⟨0x40181000 + 0x100 * n, 0x0⟩
def PWM_Un_CFG_EVT_DIV (n : Nat) : RF := ⟨PWM_Un_CFG n, 16, 8⟩
def PWM_Un_CFG_ENABLE (n : Nat) : RF := ⟨PWM_Un_CFG n, 8, 1⟩
def PWM_Un_CFG_POL_B (n : Nat) : RF := ⟨PWM_Un_CFG n, 7, 1⟩
def PWM_Un_CFG_POL_A (n : Nat) : RF := ⟨PWM_Un_CFG n, 6, 1⟩
def PWM_Un_CFG_OUT_MODE (n : Nat) : RF := ⟨PWM_Un_CFG n, 4, 2⟩
def PWM_Un_CFG_UPDATE (n : Nat) : RF := ⟨PWM_Un_CFG n, 2, 2⟩
def PWM_Un_CFG_CARRIER (n : Nat) : RF := ⟨PWM_Un_CFG n, 0, 2⟩
def PWM_Un_PERIOD (n : Nat) : Reg := ⟨0x40181004 + 0x100 * n, 0x27100⟩
def PWM_Un_PERIOD_PERIOD (n : Nat) : RF := ⟨PWM_Un_PERIOD n, 0, 32⟩
def PWM_Un_DEADTIME (n : Nat) : Reg := ⟨0x40181008 + 0x100 * n, 0x0⟩
def PWM_Un_DEADTIME_DT_B (n : Nat) : RF := ⟨PWM_Un_DEADTIME n, 16, 16⟩
def PWM_Un_DEADTIME_DT_A (n : Nat) : RF := ⟨PWM_Un_DEADTIME n, 0, 16⟩
def PWM_Un_START_LO (n : Nat) : Reg := ⟨0x4018100C + 0x100 * n, 0x0⟩
def PWM_Un_START_LO_START_LO (n : Nat) : RF := ⟨PWM_Un_START_LO n, 0, 32⟩
def PWM_Un_START_HI (n : Nat) : Reg := ⟨0x40181010 + 0x100 * n, 0x0⟩
def PWM_Un_START_HI_START_HI (n : Nat) : RF := ⟨PWM_Un_START_HI n, 0, 32⟩
def PWM_Un_COMMIT (n : Nat) : Reg := ⟨0x40181014 + 0x100 * n, 0x0⟩
def PWM_Un_COMMIT_COMMIT (n : Nat) : RF := ⟨PWM_Un_COMMIT n, 0, 1⟩
def PWM_Un_CMP (n : Nat) : Reg := ⟨0x40181018 + 0x100 * n, 0x0⟩
def PWM_Un_CMP_C (n : Nat) : RF := ⟨PWM_Un_CMP n, 0, 32⟩
def PWM_Un_CMP_ACTIVE (n : Nat) : Reg := ⟨0x4018101C + 0x100 * n, 0x0⟩
def PWM_Un_CMP_ACTIVE_C (n : Nat) : RF := ⟨PWM_Un_CMP_ACTIVE n, 0, 32⟩
def PWM_Un_FORCE (n : Nat) : Reg := ⟨0x40181020 + 0x100 * n, 0x0⟩
def PWM_Un_FORCE_SW_FORCE (n : Nat) : RF := ⟨PWM_Un_FORCE n, 0, 1⟩
def PWM_Un_LATCH (n : Nat) : Reg := ⟨0x40181024 + 0x100 * n, 0x0⟩
def PWM_Un_LATCH_WARN_B (n : Nat) : RF := ⟨PWM_Un_LATCH n, 3, 1⟩
def PWM_Un_LATCH_WARN_A (n : Nat) : RF := ⟨PWM_Un_LATCH n, 2, 1⟩
def PWM_Un_LATCH_TRIP_EVT (n : Nat) : RF := ⟨PWM_Un_LATCH n, 1, 1⟩
def PWM_Un_LATCH_TRIP_CMP (n : Nat) : RF := ⟨PWM_Un_LATCH n, 0, 1⟩
def PWM_Un_STATUS (n : Nat) : Reg := ⟨0x40181028 + 0x100 * n, 0x2000⟩
def PWM_Un_STATUS_BOUND (n : Nat) : RF := ⟨PWM_Un_STATUS n, 15, 1⟩
def PWM_Un_STATUS_RUNNING (n : Nat) : RF := ⟨PWM_Un_STATUS n, 14, 1⟩
def PWM_Un_STATUS_SAFE (n : Nat) : RF := ⟨PWM_Un_STATUS n, 13, 1⟩
def PWM_Un_STATUS_CMP_LIVE (n : Nat) : RF := ⟨PWM_Un_STATUS n, 12, 1⟩
def PWM_Un_STATUS_COMMIT_FORCE (n : Nat) : RF := ⟨PWM_Un_STATUS n, 11, 1⟩
def PWM_Un_STATUS_SUP_FORCE (n : Nat) : RF := ⟨PWM_Un_STATUS n, 10, 1⟩
def PWM_Un_STATUS_CLK_FORCE (n : Nat) : RF := ⟨PWM_Un_STATUS n, 9, 1⟩
def PWM_Un_STATUS_REC_FORCE (n : Nat) : RF := ⟨PWM_Un_STATUS n, 8, 1⟩
def PWM_Un_STATUS_WARN_LIVE (n : Nat) : RF := ⟨PWM_Un_STATUS n, 7, 1⟩
def PWM_Un_STATUS_CMP_IGNORED (n : Nat) : RF := ⟨PWM_Un_STATUS n, 3, 1⟩
def PWM_Un_STATUS_LATE_EDGE (n : Nat) : RF := ⟨PWM_Un_STATUS n, 2, 1⟩
def PWM_Un_STATUS_START_LATE (n : Nat) : RF := ⟨PWM_Un_STATUS n, 1, 1⟩
def PWM_Un_NEXT_LO (n : Nat) : Reg := ⟨0x4018102C + 0x100 * n, 0x0⟩
def PWM_Un_NEXT_LO_NEXT_LO (n : Nat) : RF := ⟨PWM_Un_NEXT_LO n, 0, 32⟩
def PWM_Un_NEXT_HI (n : Nat) : Reg := ⟨0x40181030 + 0x100 * n, 0x0⟩
def PWM_Un_NEXT_HI_NEXT_HI (n : Nat) : RF := ⟨PWM_Un_NEXT_HI n, 0, 32⟩
def PWM_Un_PERIODS (n : Nat) : Reg := ⟨0x40181034 + 0x100 * n, 0x0⟩
def PWM_Un_PERIODS_COUNT (n : Nat) : RF := ⟨PWM_Un_PERIODS n, 0, 32⟩
def PWM_Un_SAFE (n : Nat) : Reg := ⟨0x40181038 + 0x100 * n, 0x0⟩
def PWM_Un_SAFE_WARN_SAFE_B (n : Nat) : RF := ⟨PWM_Un_SAFE n, 5, 1⟩
def PWM_Un_SAFE_WARN_SAFE_A (n : Nat) : RF := ⟨PWM_Un_SAFE n, 4, 1⟩
def PWM_Un_SAFE_STATE_B (n : Nat) : RF := ⟨PWM_Un_SAFE n, 2, 2⟩
def PWM_Un_SAFE_STATE_A (n : Nat) : RF := ⟨PWM_Un_SAFE n, 0, 2⟩
def PWM_Un_TRIPSRC_LO (n : Nat) : Reg := ⟨0x4018103C + 0x100 * n, 0x0⟩
def PWM_Un_TRIPSRC_LO_CMP_LO (n : Nat) : RF := ⟨PWM_Un_TRIPSRC_LO n, 0, 32⟩
def PWM_Un_TRIPSRC_HI (n : Nat) : Reg := ⟨0x40181040 + 0x100 * n, 0x0⟩
def PWM_Un_TRIPSRC_HI_CMP_HI (n : Nat) : RF := ⟨PWM_Un_TRIPSRC_HI n, 0, 16⟩

/-! ### Registers of spec/07_cell_links.md -/

def FLK_QUAD_STATUS : Reg := ⟨0x40200000, 0x0⟩
def FLK_QUAD_STATUS_RUNNING : RF := ⟨FLK_QUAD_STATUS, 8, 8⟩
def FLK_QUAD_STATUS_LOCKED : RF := ⟨FLK_QUAD_STATUS, 0, 8⟩
def FLK_Ln_CTRL (n : Nat) : Reg := ⟨0x40201000 + 0x400 * n, 0x0⟩
def FLK_Ln_CTRL_STOP (n : Nat) : RF := ⟨FLK_Ln_CTRL n, 5, 1⟩
def FLK_Ln_CTRL_CLRCNT (n : Nat) : RF := ⟨FLK_Ln_CTRL n, 4, 1⟩
def FLK_Ln_CTRL_REMEASURE (n : Nat) : RF := ⟨FLK_Ln_CTRL n, 3, 1⟩
def FLK_Ln_CTRL_WAKE (n : Nat) : RF := ⟨FLK_Ln_CTRL n, 2, 1⟩
def FLK_Ln_CTRL_SLEEP (n : Nat) : RF := ⟨FLK_Ln_CTRL n, 1, 1⟩
def FLK_Ln_CTRL_START (n : Nat) : RF := ⟨FLK_Ln_CTRL n, 0, 1⟩
def FLK_Ln_CFG (n : Nat) : Reg := ⟨0x40201004 + 0x400 * n, 0x100001⟩
def FLK_Ln_CFG_REMEAS (n : Nat) : RF := ⟨FLK_Ln_CFG n, 16, 8⟩
def FLK_Ln_CFG_LOGDIV (n : Nat) : RF := ⟨FLK_Ln_CFG n, 12, 4⟩
def FLK_Ln_CFG_LOG_EN (n : Nat) : RF := ⟨FLK_Ln_CFG n, 11, 1⟩
def FLK_Ln_CFG_ON_BREAK (n : Nat) : RF := ⟨FLK_Ln_CFG n, 8, 1⟩
def FLK_Ln_CFG_WATERMARK (n : Nat) : RF := ⟨FLK_Ln_CFG n, 0, 8⟩
def FLK_Ln_IMAGE (n : Nat) : Reg := ⟨0x40201008 + 0x400 * n, 0x0⟩
def FLK_Ln_IMAGE_ARM (n : Nat) : RF := ⟨FLK_Ln_IMAGE n, 24, 8⟩
def FLK_Ln_IMAGE_WARN_SAFE (n : Nat) : RF := ⟨FLK_Ln_IMAGE n, 11, 1⟩
def FLK_Ln_IMAGE_SAFE_KIND (n : Nat) : RF := ⟨FLK_Ln_IMAGE n, 10, 1⟩
def FLK_Ln_IMAGE_SLEEP_OK (n : Nat) : RF := ⟨FLK_Ln_IMAGE n, 9, 1⟩
def FLK_Ln_IMAGE_BOOT_START (n : Nat) : RF := ⟨FLK_Ln_IMAGE n, 8, 1⟩
def FLK_Ln_IMAGE_CELLS (n : Nat) : RF := ⟨FLK_Ln_IMAGE n, 0, 6⟩
def FLK_Ln_LEAD (n : Nat) : Reg := ⟨0x4020100C + 0x400 * n, 0x0⟩
def FLK_Ln_LEAD_LEAD (n : Nat) : RF := ⟨FLK_Ln_LEAD n, 0, 32⟩
def FLK_Ln_STATUS (n : Nat) : Reg := ⟨0x40201010 + 0x400 * n, 0x0⟩
def FLK_Ln_STATUS_CAUSE (n : Nat) : RF := ⟨FLK_Ln_STATUS n, 16, 4⟩
def FLK_Ln_STATUS_COUNT (n : Nat) : RF := ⟨FLK_Ln_STATUS n, 8, 6⟩
def FLK_Ln_STATUS_LOG_DROP (n : Nat) : RF := ⟨FLK_Ln_STATUS n, 7, 1⟩
def FLK_Ln_STATUS_SLEEP_DENIED (n : Nat) : RF := ⟨FLK_Ln_STATUS n, 6, 1⟩
def FLK_Ln_STATUS_DELAY_JUMP (n : Nat) : RF := ⟨FLK_Ln_STATUS n, 5, 1⟩
def FLK_Ln_STATUS_BREAK (n : Nat) : RF := ⟨FLK_Ln_STATUS n, 4, 1⟩
def FLK_Ln_STATUS_SHORT (n : Nat) : RF := ⟨FLK_Ln_STATUS n, 3, 1⟩
def FLK_Ln_STATUS_STATE (n : Nat) : RF := ⟨FLK_Ln_STATUS n, 0, 3⟩
def FLK_Ln_FORCE (n : Nat) : Reg := ⟨0x40201014 + 0x400 * n, 0x0⟩
def FLK_Ln_FORCE_SW_FORCE (n : Nat) : RF := ⟨FLK_Ln_FORCE n, 0, 1⟩
def FLK_Ln_LATCH (n : Nat) : Reg := ⟨0x40201018 + 0x400 * n, 0x0⟩
def FLK_Ln_LATCH_WARN (n : Nat) : RF := ⟨FLK_Ln_LATCH n, 0, 1⟩
def FLK_Ln_FORCESRC (n : Nat) : Reg := ⟨0x4020101C + 0x400 * n, 0x81⟩
def FLK_Ln_FORCESRC_WARN_LIVE (n : Nat) : RF := ⟨FLK_Ln_FORCESRC n, 8, 1⟩
def FLK_Ln_FORCESRC_SAFE (n : Nat) : RF := ⟨FLK_Ln_FORCESRC n, 7, 1⟩
def FLK_Ln_FORCESRC_SW (n : Nat) : RF := ⟨FLK_Ln_FORCESRC n, 6, 1⟩
def FLK_Ln_FORCESRC_WARN (n : Nat) : RF := ⟨FLK_Ln_FORCESRC n, 5, 1⟩
def FLK_Ln_FORCESRC_REC (n : Nat) : RF := ⟨FLK_Ln_FORCESRC n, 4, 1⟩
def FLK_Ln_FORCESRC_CLK (n : Nat) : RF := ⟨FLK_Ln_FORCESRC n, 3, 1⟩
def FLK_Ln_FORCESRC_SUP (n : Nat) : RF := ⟨FLK_Ln_FORCESRC n, 2, 1⟩
def FLK_Ln_FORCESRC_COMMIT (n : Nat) : RF := ⟨FLK_Ln_FORCESRC n, 1, 1⟩
def FLK_Ln_FORCESRC_NOT_RUN (n : Nat) : RF := ⟨FLK_Ln_FORCESRC n, 0, 1⟩
def FLK_Ln_QSTAT (n : Nat) : Reg := ⟨0x40201020 + 0x400 * n, 0x0⟩
def FLK_Ln_QSTAT_LOGWAIT (n : Nat) : RF := ⟨FLK_Ln_QSTAT n, 16, 8⟩
def FLK_Ln_QSTAT_QOVF (n : Nat) : RF := ⟨FLK_Ln_QSTAT n, 8, 1⟩
def FLK_Ln_QSTAT_DEPTH (n : Nat) : RF := ⟨FLK_Ln_QSTAT n, 0, 7⟩
def FLK_Ln_CMDDROP (n : Nat) : Reg := ⟨0x40201024 + 0x400 * n, 0x0⟩
def FLK_Ln_CMDDROP_COUNT (n : Nat) : RF := ⟨FLK_Ln_CMDDROP n, 0, 32⟩
def FLK_Ln_ERRCNT (n : Nat) : Reg := ⟨0x40201028 + 0x400 * n, 0x0⟩
def FLK_Ln_ERRCNT_MISSED (n : Nat) : RF := ⟨FLK_Ln_ERRCNT n, 24, 8⟩
def FLK_Ln_ERRCNT_CRC (n : Nat) : RF := ⟨FLK_Ln_ERRCNT n, 16, 8⟩
def FLK_Ln_ERRCNT_CHECK (n : Nat) : RF := ⟨FLK_Ln_ERRCNT n, 8, 8⟩
def FLK_Ln_ERRCNT_BLOCK (n : Nat) : RF := ⟨FLK_Ln_ERRCNT n, 0, 8⟩
def FLK_Ln_ERRLOC (n : Nat) : Reg := ⟨0x4020102C + 0x400 * n, 0x0⟩
def FLK_Ln_ERRLOC_FAULT_ADDR (n : Nat) : RF := ⟨FLK_Ln_ERRLOC n, 8, 6⟩
def FLK_Ln_ERRLOC_ERR_ADDR (n : Nat) : RF := ⟨FLK_Ln_ERRLOC n, 0, 6⟩
def FLK_Ln_RTT (n : Nat) : Reg := ⟨0x40201030 + 0x400 * n, 0x0⟩
def FLK_Ln_RTT_RTT (n : Nat) : RF := ⟨FLK_Ln_RTT n, 0, 24⟩
def FLK_Ln_MGMT_CMD (n : Nat) : Reg := ⟨0x40201080 + 0x400 * n, 0x0⟩
def FLK_Ln_MGMT_CMD_REG (n : Nat) : RF := ⟨FLK_Ln_MGMT_CMD n, 16, 16⟩
def FLK_Ln_MGMT_CMD_LEN (n : Nat) : RF := ⟨FLK_Ln_MGMT_CMD n, 10, 6⟩
def FLK_Ln_MGMT_CMD_OP (n : Nat) : RF := ⟨FLK_Ln_MGMT_CMD n, 8, 2⟩
def FLK_Ln_MGMT_CMD_ADDR (n : Nat) : RF := ⟨FLK_Ln_MGMT_CMD n, 2, 6⟩
def FLK_Ln_MGMT_CMD_GO (n : Nat) : RF := ⟨FLK_Ln_MGMT_CMD n, 0, 1⟩
def FLK_Ln_MGMT_STAT (n : Nat) : Reg := ⟨0x40201084 + 0x400 * n, 0x0⟩
def FLK_Ln_MGMT_STAT_RLEN (n : Nat) : RF := ⟨FLK_Ln_MGMT_STAT n, 16, 6⟩
def FLK_Ln_MGMT_STAT_CSTAT (n : Nat) : RF := ⟨FLK_Ln_MGMT_STAT n, 8, 8⟩
def FLK_Ln_MGMT_STAT_REFUSED (n : Nat) : RF := ⟨FLK_Ln_MGMT_STAT n, 3, 1⟩
def FLK_Ln_MGMT_STAT_TIMEOUT (n : Nat) : RF := ⟨FLK_Ln_MGMT_STAT n, 2, 1⟩
def FLK_Ln_MGMT_STAT_DONE (n : Nat) : RF := ⟨FLK_Ln_MGMT_STAT n, 1, 1⟩
def FLK_Ln_MGMT_STAT_BUSY (n : Nat) : RF := ⟨FLK_Ln_MGMT_STAT n, 0, 1⟩
def FLK_Ln_MGMT_DATAi (n i : Nat) : Reg := ⟨0x40201088 + 0x400 * n + 0x4 * i, 0x0⟩
def FLK_Ln_MGMT_DATAi_DATA (n i : Nat) : RF := ⟨FLK_Ln_MGMT_DATAi n i, 0, 32⟩
def FLK_Ln_ASYMk (n k : Nat) : Reg := ⟨0x40201100 + 0x400 * n + 0x4 * (k - 1), 0x0⟩
def FLK_Ln_ASYMk_ASYM (n k : Nat) : RF := ⟨FLK_Ln_ASYMk n k, 0, 16⟩
def FLK_RECn_k_LO (n k : Nat) : Reg := ⟨0x40210000 + 0x100 * n + 0x8 * (k - 1), 0x0⟩
def FLK_RECn_k_LO_W_LO (n k : Nat) : RF := ⟨FLK_RECn_k_LO n k, 0, 32⟩
def FLK_RECn_k_HI (n k : Nat) : Reg := ⟨0x40210004 + 0x100 * n + 0x8 * (k - 1), 0xFF000000⟩
def FLK_RECn_k_HI_AGE (n k : Nat) : RF := ⟨FLK_RECn_k_HI n k, 24, 8⟩
def FLK_RECn_k_HI_W_HI (n k : Nat) : RF := ⟨FLK_RECn_k_HI n k, 0, 24⟩
def FLK_OFSn_k (n k : Nat) : Reg := ⟨0x40212000 + 0x80 * n + 0x4 * (k - 1), 0x0⟩
def FLK_OFSn_k_OFFSET (n k : Nat) : RF := ⟨FLK_OFSn_k n k, 0, 32⟩

/-! ### Registers of spec/08_cell_scheduling.md -/

def ABL_LEAD_SHORT : Reg := ⟨0x40220000, 0x0⟩
def ABL_LEAD_SHORT_SHORT : RF := ⟨ABL_LEAD_SHORT, 0, 32⟩
def ABL_Ln_SWCMD (n : Nat) : Reg := ⟨0x40220100 + 0x10 * n, 0x0⟩
def ABL_Ln_SWCMD_ADDR (n : Nat) : RF := ⟨ABL_Ln_SWCMD n, 26, 6⟩
def ABL_Ln_SWCMD_OP (n : Nat) : RF := ⟨ABL_Ln_SWCMD n, 20, 6⟩
def ABL_Ln_SWCMD_ARG (n : Nat) : RF := ⟨ABL_Ln_SWCMD n, 8, 12⟩
def ABL_Ln_SWCMD_GO (n : Nat) : RF := ⟨ABL_Ln_SWCMD n, 0, 1⟩
def ABL_Ln_SWAT (n : Nat) : Reg := ⟨0x40220104 + 0x10 * n, 0x0⟩
def ABL_Ln_SWAT_AT (n : Nat) : RF := ⟨ABL_Ln_SWAT n, 0, 32⟩
def ABL_Ln_SWSTAT (n : Nat) : Reg := ⟨0x40220108 + 0x10 * n, 0x0⟩
def ABL_Ln_SWSTAT_SW_REFUSED (n : Nat) : RF := ⟨ABL_Ln_SWSTAT n, 0, 1⟩
def ABL_Ln_NEED (n : Nat) : Reg := ⟨0x4022010C + 0x10 * n, 0x0⟩
def ABL_Ln_NEED_NEED (n : Nat) : RF := ⟨ABL_Ln_NEED n, 0, 32⟩
def ABL_Aa_CTRL (a : Nat) : Reg := ⟨0x40221000 + 0x100 * a, 0x8000000⟩
def ABL_Aa_CTRL_AGE_MAX (a : Nat) : RF := ⟨ABL_Aa_CTRL a, 24, 8⟩
def ABL_Aa_CTRL_HYST_MV (a : Nat) : RF := ⟨ABL_Aa_CTRL a, 8, 16⟩
def ABL_Aa_CTRL_RESUME (a : Nat) : RF := ⟨ABL_Aa_CTRL a, 3, 1⟩
def ABL_Aa_CTRL_LINK_LOSS (a : Nat) : RF := ⟨ABL_Aa_CTRL a, 2, 1⟩
def ABL_Aa_CTRL_AUTO_CLOSE (a : Nat) : RF := ⟨ABL_Aa_CTRL a, 1, 1⟩
def ABL_Aa_CTRL_ENABLE (a : Nat) : RF := ⟨ABL_Aa_CTRL a, 0, 1⟩
def ABL_Aa_CFG (a : Nat) : Reg := ⟨0x40221004 + 0x100 * a, 0x0⟩
def ABL_Aa_CFG_COUNT (a : Nat) : RF := ⟨ABL_Aa_CFG a, 0, 8⟩
def ABL_Aa_LINKS (a : Nat) : Reg := ⟨0x40221008 + 0x100 * a, 0x0⟩
def ABL_Aa_LINKS_LINKS (a : Nat) : RF := ⟨ABL_Aa_LINKS a, 0, 32⟩
def ABL_Aa_NOMINAL (a : Nat) : Reg := ⟨0x4022100C + 0x100 * a, 0x0⟩
def ABL_Aa_NOMINAL_NOMINAL_MV (a : Nat) : RF := ⟨ABL_Aa_NOMINAL a, 0, 32⟩
def ABL_Aa_REF (a : Nat) : Reg := ⟨0x40221010 + 0x100 * a, 0x0⟩
def ABL_Aa_REF_REF (a : Nat) : RF := ⟨ABL_Aa_REF a, 0, 32⟩
def ABL_Aa_STATUS (a : Nat) : Reg := ⟨0x40221014 + 0x100 * a, 0x0⟩
def ABL_Aa_STATUS_INSERTED (a : Nat) : RF := ⟨ABL_Aa_STATUS a, 24, 8⟩
def ABL_Aa_STATUS_AVAIL (a : Nat) : RF := ⟨ABL_Aa_STATUS a, 16, 8⟩
def ABL_Aa_STATUS_HALTED (a : Nat) : RF := ⟨ABL_Aa_STATUS a, 7, 1⟩
def ABL_Aa_STATUS_REF_BAD (a : Nat) : RF := ⟨ABL_Aa_STATUS a, 6, 1⟩
def ABL_Aa_STATUS_SHORTFALL (a : Nat) : RF := ⟨ABL_Aa_STATUS a, 5, 1⟩
def ABL_Aa_STATUS_NOMINAL (a : Nat) : RF := ⟨ABL_Aa_STATUS a, 4, 1⟩
def ABL_Aa_STATUS_EXCL (a : Nat) : RF := ⟨ABL_Aa_STATUS a, 3, 1⟩
def ABL_Aa_STATUS_AUTO_CLOSED (a : Nat) : RF := ⟨ABL_Aa_STATUS a, 2, 1⟩
def ABL_Aa_STATUS_LINK_LOST (a : Nat) : RF := ⟨ABL_Aa_STATUS a, 1, 1⟩
def ABL_Aa_STATUS_RUNNING (a : Nat) : RF := ⟨ABL_Aa_STATUS a, 0, 1⟩
def ABL_Aa_ROUNDS (a : Nat) : Reg := ⟨0x40221018 + 0x100 * a, 0x0⟩
def ABL_Aa_ROUNDS_COUNT (a : Nat) : RF := ⟨ABL_Aa_ROUNDS a, 0, 32⟩
def ABL_Aa_EXCLk (a k : Nat) : Reg := ⟨0x40221020 + 0x100 * a + 0x4 * k, 0x0⟩
def ABL_Aa_EXCLk_EXCLUDE (a k : Nat) : RF := ⟨ABL_Aa_EXCLk a k, 0, 32⟩
def ABL_Aa_MODELk (a k : Nat) : Reg := ⟨0x40221040 + 0x100 * a + 0x4 * k, 0x44444444⟩
def ABL_Aa_MODELk_STATE (a k j : Nat) : RF := ⟨ABL_Aa_MODELk a k, 0 + 4 * j, 4⟩

/-! ### Registers of spec/09_position_feedback.md -/

def POS_Pn_CFG (n : Nat) : Reg := ⟨0x40241000 + 0x100 * n, 0x0⟩
def POS_Pn_CFG_STILL_TO (n : Nat) : RF := ⟨POS_Pn_CFG n, 16, 16⟩
def POS_Pn_CFG_LSPD_SHIFT (n : Nat) : RF := ⟨POS_Pn_CFG n, 12, 4⟩
def POS_Pn_CFG_FILT (n : Nat) : RF := ⟨POS_Pn_CFG n, 8, 4⟩
def POS_Pn_CFG_PRB_SRC (n : Nat) : RF := ⟨POS_Pn_CFG n, 6, 2⟩
def POS_Pn_CFG_EDGE (n : Nat) : RF := ⟨POS_Pn_CFG n, 5, 1⟩
def POS_Pn_CFG_DIR_INV (n : Nat) : RF := ⟨POS_Pn_CFG n, 4, 1⟩
def POS_Pn_CFG_MODE (n : Nat) : RF := ⟨POS_Pn_CFG n, 0, 2⟩
def POS_Pn_OFS (n : Nat) : Reg := ⟨0x40241004 + 0x100 * n, 0x0⟩
def POS_Pn_OFS_ANG_OFS (n : Nat) : RF := ⟨POS_Pn_OFS n, 0, 16⟩
def POS_Pn_TW (n : Nat) : Reg := ⟨0x40241008 + 0x100 * n, 0x40C103C⟩
def POS_Pn_TW_EXTRA_RATIO (n : Nat) : RF := ⟨POS_Pn_TW n, 24, 8⟩
def POS_Pn_TW_GAP_RATIO (n : Nat) : RF := ⟨POS_Pn_TW n, 16, 8⟩
def POS_Pn_TW_GAP_N (n : Nat) : RF := ⟨POS_Pn_TW n, 12, 2⟩
def POS_Pn_TW_TYPE (n : Nat) : RF := ⟨POS_Pn_TW n, 10, 1⟩
def POS_Pn_TW_P (n : Nat) : RF := ⟨POS_Pn_TW n, 0, 10⟩
def POS_Pn_SC (n : Nat) : Reg := ⟨0x4024100C + 0x100 * n, 0x0⟩
def POS_Pn_SC_PHASE (n : Nat) : RF := ⟨POS_Pn_SC n, 8, 15⟩
def POS_Pn_SC_SPD_WIN (n : Nat) : RF := ⟨POS_Pn_SC n, 0, 3⟩
def POS_Pn_AMP (n : Nat) : Reg := ⟨0x40241010 + 0x100 * n, 0xFFFF0000⟩
def POS_Pn_AMP_AMP_HI (n : Nat) : RF := ⟨POS_Pn_AMP n, 16, 16⟩
def POS_Pn_AMP_AMP_LO (n : Nat) : RF := ⟨POS_Pn_AMP n, 0, 16⟩
def POS_Pn_SCOFS (n : Nat) : Reg := ⟨0x40241014 + 0x100 * n, 0x0⟩
def POS_Pn_SCOFS_COS_OFS (n : Nat) : RF := ⟨POS_Pn_SCOFS n, 16, 16⟩
def POS_Pn_SCOFS_SIN_OFS (n : Nat) : RF := ⟨POS_Pn_SCOFS n, 0, 16⟩
def POS_Pn_RAW (n : Nat) : Reg := ⟨0x40241018 + 0x100 * n, 0x0⟩
def POS_Pn_RAW_COS (n : Nat) : RF := ⟨POS_Pn_RAW n, 16, 16⟩
def POS_Pn_RAW_SIN (n : Nat) : RF := ⟨POS_Pn_RAW n, 0, 16⟩
def POS_Pn_POS (n : Nat) : Reg := ⟨0x4024101C + 0x100 * n, 0x0⟩
def POS_Pn_POS_VALUE (n : Nat) : RF := ⟨POS_Pn_POS n, 0, 32⟩
def POS_Pn_TIME_LO (n : Nat) : Reg := ⟨0x40241020 + 0x100 * n, 0x0⟩
def POS_Pn_TIME_LO_TIME_LO (n : Nat) : RF := ⟨POS_Pn_TIME_LO n, 0, 32⟩
def POS_Pn_TIME_HI (n : Nat) : Reg := ⟨0x40241024 + 0x100 * n, 0x0⟩
def POS_Pn_TIME_HI_TIME_HI (n : Nat) : RF := ⟨POS_Pn_TIME_HI n, 0, 32⟩
def POS_Pn_SPEED (n : Nat) : Reg := ⟨0x40241028 + 0x100 * n, 0x0⟩
def POS_Pn_SPEED_SPEED (n : Nat) : RF := ⟨POS_Pn_SPEED n, 0, 32⟩
def POS_Pn_INFO (n : Nat) : Reg := ⟨0x4024102C + 0x100 * n, 0x0⟩
def POS_Pn_INFO_INFO (n : Nat) : RF := ⟨POS_Pn_INFO n, 0, 32⟩
def POS_Pn_STATUS (n : Nat) : Reg := ⟨0x40241030 + 0x100 * n, 0x0⟩
def POS_Pn_STATUS_IDX (n : Nat) : RF := ⟨POS_Pn_STATUS n, 16, 10⟩
def POS_Pn_STATUS_SUSPECT_SEEN (n : Nat) : RF := ⟨POS_Pn_STATUS n, 4, 1⟩
def POS_Pn_STATUS_AMP_FAULT (n : Nat) : RF := ⟨POS_Pn_STATUS n, 3, 1⟩
def POS_Pn_STATUS_SYNC_LOST (n : Nat) : RF := ⟨POS_Pn_STATUS n, 2, 1⟩
def POS_Pn_STATUS_SEQ_ERR (n : Nat) : RF := ⟨POS_Pn_STATUS n, 1, 1⟩
def POS_Pn_STATUS_HALL_INVALID (n : Nat) : RF := ⟨POS_Pn_STATUS n, 0, 1⟩
def POS_Pn_PRB_CTRL (n : Nat) : Reg := ⟨0x40241034 + 0x100 * n, 0x0⟩
def POS_Pn_PRB_CTRL_OVR (n : Nat) : RF := ⟨POS_Pn_PRB_CTRL n, 2, 1⟩
def POS_Pn_PRB_CTRL_FULL (n : Nat) : RF := ⟨POS_Pn_PRB_CTRL n, 1, 1⟩
def POS_Pn_PRB_CTRL_FIRE (n : Nat) : RF := ⟨POS_Pn_PRB_CTRL n, 0, 1⟩
def POS_Pn_PRB_POS (n : Nat) : Reg := ⟨0x40241038 + 0x100 * n, 0x0⟩
def POS_Pn_PRB_POS_VALUE (n : Nat) : RF := ⟨POS_Pn_PRB_POS n, 0, 32⟩
def POS_Pn_PRB_PTIME_LO (n : Nat) : Reg := ⟨0x4024103C + 0x100 * n, 0x0⟩
def POS_Pn_PRB_PTIME_LO_PTIME_LO (n : Nat) : RF := ⟨POS_Pn_PRB_PTIME_LO n, 0, 32⟩
def POS_Pn_PRB_PTIME_HI (n : Nat) : Reg := ⟨0x40241040 + 0x100 * n, 0x0⟩
def POS_Pn_PRB_PTIME_HI_PTIME_HI (n : Nat) : RF := ⟨POS_Pn_PRB_PTIME_HI n, 0, 32⟩
def POS_Pn_PRB_UTIME_LO (n : Nat) : Reg := ⟨0x40241044 + 0x100 * n, 0x0⟩
def POS_Pn_PRB_UTIME_LO_UTIME_LO (n : Nat) : RF := ⟨POS_Pn_PRB_UTIME_LO n, 0, 32⟩
def POS_Pn_PRB_UTIME_HI (n : Nat) : Reg := ⟨0x40241048 + 0x100 * n, 0x0⟩
def POS_Pn_PRB_UTIME_HI_UTIME_HI (n : Nat) : RF := ⟨POS_Pn_PRB_UTIME_HI n, 0, 32⟩
def POS_Pn_PRB_SPEED (n : Nat) : Reg := ⟨0x4024104C + 0x100 * n, 0x0⟩
def POS_Pn_PRB_SPEED_SPEED (n : Nat) : RF := ⟨POS_Pn_PRB_SPEED n, 0, 32⟩
def POS_Pn_PRB_INFO (n : Nat) : Reg := ⟨0x40241050 + 0x100 * n, 0x0⟩
def POS_Pn_PRB_INFO_INFO (n : Nat) : RF := ⟨POS_Pn_PRB_INFO n, 0, 32⟩

/-! ### Registers of spec/12_exceptions_privilege.md -/

def CPS_EXC_INFO (c : Nat) : Reg := ⟨0xE0000000 + 0x100000000 * c, 0x0⟩
def CPS_EXC_INFO_IRQ (c : Nat) : RF := ⟨CPS_EXC_INFO c, 24, 8⟩
def CPS_EXC_INFO_NUM (c : Nat) : RF := ⟨CPS_EXC_INFO c, 16, 8⟩
def CPS_EXC_INFO_WRITE (c : Nat) : RF := ⟨CPS_EXC_INFO c, 9, 1⟩
def CPS_EXC_INFO_FETCH (c : Nat) : RF := ⟨CPS_EXC_INFO c, 8, 1⟩
def CPS_EXC_INFO_EXC (c : Nat) : RF := ⟨CPS_EXC_INFO c, 0, 4⟩
def CPS_FAULT_ADDR (c : Nat) : Reg := ⟨0xE0000004 + 0x100000000 * c, 0x0⟩
def CPS_FAULT_ADDR_ADDR (c : Nat) : RF := ⟨CPS_FAULT_ADDR c, 0, 32⟩
def CPS_NMI (c : Nat) : Reg := ⟨0xE0000008 + 0x100000000 * c, 0x0⟩
def CPS_NMI_SET (c : Nat) : RF := ⟨CPS_NMI c, 8, 1⟩
def CPS_NMI_ACTIVE (c : Nat) : RF := ⟨CPS_NMI c, 1, 1⟩
def CPS_NMI_PEND (c : Nat) : RF := ⟨CPS_NMI c, 0, 1⟩
def CPS_IRQ_TOP (c : Nat) : Reg := ⟨0xE000000C + 0x100000000 * c, 0x0⟩
def CPS_IRQ_TOP_VALID (c : Nat) : RF := ⟨CPS_IRQ_TOP c, 31, 1⟩
def CPS_IRQ_TOP_PRIO (c : Nat) : RF := ⟨CPS_IRQ_TOP c, 16, 4⟩
def CPS_IRQ_TOP_IRQ (c : Nat) : RF := ⟨CPS_IRQ_TOP c, 0, 8⟩
def CPS_LOCKUP (c : Nat) : Reg := ⟨0xE0000010 + 0x100000000 * c, 0x0⟩
def CPS_LOCKUP_IRQ (c : Nat) : RF := ⟨CPS_LOCKUP c, 8, 8⟩
def CPS_LOCKUP_EXC (c : Nat) : RF := ⟨CPS_LOCKUP c, 4, 4⟩
def CPS_LOCKUP_CAUSE (c : Nat) : RF := ⟨CPS_LOCKUP c, 0, 4⟩
def CPS_LOCKUP_PC (c : Nat) : Reg := ⟨0xE0000014 + 0x100000000 * c, 0x0⟩
def CPS_LOCKUP_PC_PC (c : Nat) : RF := ⟨CPS_LOCKUP_PC c, 0, 32⟩
def CPS_IRQ_SETj (c j : Nat) : Reg := ⟨0xE0000080 + 0x4 * j + 0x100000000 * c, 0x0⟩
def CPS_IRQ_SETj_PEND (c j : Nat) : RF := ⟨CPS_IRQ_SETj c j, 0, 32⟩
def CPS_IRQ_CLRj (c j : Nat) : Reg := ⟨0xE00000A0 + 0x4 * j + 0x100000000 * c, 0x0⟩
def CPS_IRQ_CLRj_PEND (c j : Nat) : RF := ⟨CPS_IRQ_CLRj c j, 0, 32⟩
def CPS_IRQ_CFGn (c n : Nat) : Reg := ⟨0xE0001000 + 0x4 * n + 0x100000000 * c, 0x20⟩
def CPS_IRQ_CFGn_LVL (c n : Nat) : RF := ⟨CPS_IRQ_CFGn c n, 5, 1⟩
def CPS_IRQ_CFGn_EN (c n : Nat) : RF := ⟨CPS_IRQ_CFGn c n, 4, 1⟩
def CPS_IRQ_CFGn_PRIO (c n : Nat) : RF := ⟨CPS_IRQ_CFGn c n, 0, 4⟩

/-! ### Registers of spec/13_event_matrix.md -/

def EVM_LOOPSUMj (j : Nat) : Reg := ⟨0x40280000 + 0x4 * j, 0x0⟩
def EVM_LOOPSUMj_LOOP (j : Nat) : RF := ⟨EVM_LOOPSUMj j, 0, 32⟩
def EVM_OVRSUMj (j : Nat) : Reg := ⟨0x40280020 + 0x4 * j, 0x0⟩
def EVM_OVRSUMj_OVERRUN (j : Nat) : RF := ⟨EVM_OVRSUMj j, 0, 32⟩
def EVM_PMERGEj (j : Nat) : Reg := ⟨0x40280040 + 0x4 * j, 0x0⟩
def EVM_PMERGEj_MERGE (j : Nat) : RF := ⟨EVM_PMERGEj j, 0, 32⟩
def EVM_Cc_CONS (c : Nat) : Reg := ⟨0x40281000 + 0x20 * c, 0x0⟩
def EVM_Cc_CONS_VALID (c : Nat) : RF := ⟨EVM_Cc_CONS c, 31, 1⟩
def EVM_Cc_CONS_INPUT (c : Nat) : RF := ⟨EVM_Cc_CONS c, 0, 16⟩
def EVM_Cc_STATUS (c : Nat) : Reg := ⟨0x40281004 + 0x20 * c, 0x0⟩
def EVM_Cc_STATUS_COINCIDE (c : Nat) : RF := ⟨EVM_Cc_STATUS c, 16, 16⟩
def EVM_Cc_STATUS_LASTHOP (c : Nat) : RF := ⟨EVM_Cc_STATUS c, 8, 3⟩
def EVM_Cc_STATUS_LATE_AT (c : Nat) : RF := ⟨EVM_Cc_STATUS c, 5, 1⟩
def EVM_Cc_STATUS_DROPPED (c : Nat) : RF := ⟨EVM_Cc_STATUS c, 4, 1⟩
def EVM_Cc_STATUS_ARMED (c : Nat) : RF := ⟨EVM_Cc_STATUS c, 3, 1⟩
def EVM_Cc_STATUS_PENDING (c : Nat) : RF := ⟨EVM_Cc_STATUS c, 2, 1⟩
def EVM_Cc_STATUS_LOOP (c : Nat) : RF := ⟨EVM_Cc_STATUS c, 1, 1⟩
def EVM_Cc_STATUS_OVERRUN (c : Nat) : RF := ⟨EVM_Cc_STATUS c, 0, 1⟩
def EVM_Cc_FIRE (c : Nat) : Reg := ⟨0x40281008 + 0x20 * c, 0x0⟩
def EVM_Cc_FIRE_HOP (c : Nat) : RF := ⟨EVM_Cc_FIRE c, 4, 3⟩
def EVM_Cc_FIRE_CLEAR (c : Nat) : RF := ⟨EVM_Cc_FIRE c, 3, 1⟩
def EVM_Cc_FIRE_CANCEL (c : Nat) : RF := ⟨EVM_Cc_FIRE c, 2, 1⟩
def EVM_Cc_FIRE_TIMED (c : Nat) : RF := ⟨EVM_Cc_FIRE c, 1, 1⟩
def EVM_Cc_FIRE_FIRE (c : Nat) : RF := ⟨EVM_Cc_FIRE c, 0, 1⟩
def EVM_Cc_AT_LO (c : Nat) : Reg := ⟨0x4028100C + 0x20 * c, 0x0⟩
def EVM_Cc_AT_LO_AT_LO (c : Nat) : RF := ⟨EVM_Cc_AT_LO c, 0, 32⟩
def EVM_Cc_AT_HI (c : Nat) : Reg := ⟨0x40281010 + 0x20 * c, 0x0⟩
def EVM_Cc_AT_HI_AT_HI (c : Nat) : RF := ⟨EVM_Cc_AT_HI c, 0, 32⟩
def EVM_Cc_COUNT (c : Nat) : Reg := ⟨0x40281014 + 0x20 * c, 0x0⟩
def EVM_Cc_COUNT_COUNT (c : Nat) : RF := ⟨EVM_Cc_COUNT c, 0, 32⟩
def EVM_Cc_ENj (c j : Nat) : Reg := ⟨0x40284000 + 0x60 * c + 0x4 * j, 0x0⟩
def EVM_Cc_ENj_EN (c j : Nat) : RF := ⟨EVM_Cc_ENj c j, 0, 32⟩

/-! ### Registers of spec/14_feeder_signalling.md -/

def FSE_Pn_IMAGE (n : Nat) : Reg := ⟨0x40301000 + 0x100 * n, 0x0⟩
def FSE_Pn_IMAGE_CEILING (n : Nat) : RF := ⟨FSE_Pn_IMAGE n, 16, 15⟩
def FSE_Pn_IMAGE_BAND (n : Nat) : RF := ⟨FSE_Pn_IMAGE n, 15, 1⟩
def FSE_Pn_IMAGE_RX_FC (n : Nat) : RF := ⟨FSE_Pn_IMAGE n, 10, 5⟩
def FSE_Pn_IMAGE_BINDING (n : Nat) : RF := ⟨FSE_Pn_IMAGE n, 4, 6⟩
def FSE_Pn_IMAGE_OWNER (n : Nat) : RF := ⟨FSE_Pn_IMAGE n, 0, 3⟩
def FSE_Pn_CTRL (n : Nat) : Reg := ⟨0x40301004 + 0x100 * n, 0x4⟩
def FSE_Pn_CTRL_PROMISC (n : Nat) : RF := ⟨FSE_Pn_CTRL n, 3, 1⟩
def FSE_Pn_CTRL_ACK_EN (n : Nat) : RF := ⟨FSE_Pn_CTRL n, 2, 1⟩
def FSE_Pn_CTRL_RX_EN (n : Nat) : RF := ⟨FSE_Pn_CTRL n, 1, 1⟩
def FSE_Pn_CTRL_ENABLE (n : Nat) : RF := ⟨FSE_Pn_CTRL n, 0, 1⟩
def FSE_Pn_TXLEVEL (n : Nat) : Reg := ⟨0x40301008 + 0x100 * n, 0x0⟩
def FSE_Pn_TXLEVEL_TX_ADV (n : Nat) : RF := ⟨FSE_Pn_TXLEVEL n, 16, 16⟩
def FSE_Pn_TXLEVEL_TX_LEVEL (n : Nat) : RF := ⟨FSE_Pn_TXLEVEL n, 0, 15⟩
def FSE_Pn_CSMA (n : Nat) : Reg := ⟨0x4030100C + 0x100 * n, 0x53283⟩
def FSE_Pn_CSMA_MAX_RETRIES (n : Nat) : RF := ⟨FSE_Pn_CSMA n, 16, 4⟩
def FSE_Pn_CSMA_MAX_BACKOFFS (n : Nat) : RF := ⟨FSE_Pn_CSMA n, 8, 8⟩
def FSE_Pn_CSMA_MAX_BE (n : Nat) : RF := ⟨FSE_Pn_CSMA n, 4, 4⟩
def FSE_Pn_CSMA_MIN_BE (n : Nat) : RF := ⟨FSE_Pn_CSMA n, 0, 4⟩
def FSE_Pn_ADDR (n : Nat) : Reg := ⟨0x40301010 + 0x100 * n, 0xFFFFFFFF⟩
def FSE_Pn_ADDR_PAN_ID (n : Nat) : RF := ⟨FSE_Pn_ADDR n, 16, 16⟩
def FSE_Pn_ADDR_SHORT (n : Nat) : RF := ⟨FSE_Pn_ADDR n, 0, 16⟩
def FSE_Pn_EXT_LO (n : Nat) : Reg := ⟨0x40301014 + 0x100 * n, 0x0⟩
def FSE_Pn_EXT_LO_EXT_LO (n : Nat) : RF := ⟨FSE_Pn_EXT_LO n, 0, 32⟩
def FSE_Pn_EXT_HI (n : Nat) : Reg := ⟨0x40301018 + 0x100 * n, 0x0⟩
def FSE_Pn_EXT_HI_EXT_HI (n : Nat) : RF := ⟨FSE_Pn_EXT_HI n, 0, 32⟩
def FSE_Pn_TMTHR (n : Nat) : Reg := ⟨0x4030101C + 0x100 * n, 0x402808⟩
def FSE_Pn_TMTHR_T_D3 (n : Nat) : RF := ⟨FSE_Pn_TMTHR n, 16, 8⟩
def FSE_Pn_TMTHR_T_D2 (n : Nat) : RF := ⟨FSE_Pn_TMTHR n, 8, 8⟩
def FSE_Pn_TMTHR_G_OFF (n : Nat) : RF := ⟨FSE_Pn_TMTHR n, 0, 8⟩
def FSE_Pn_TXBASE (n : Nat) : Reg := ⟨0x40301020 + 0x100 * n, 0x0⟩
def FSE_Pn_TXBASE_BASE (n : Nat) : RF := ⟨FSE_Pn_TXBASE n, 5, 27⟩
def FSE_Pn_TXSIZE (n : Nat) : Reg := ⟨0x40301024 + 0x100 * n, 0x0⟩
def FSE_Pn_TXSIZE_SIZE (n : Nat) : RF := ⟨FSE_Pn_TXSIZE n, 0, 11⟩
def FSE_Pn_TXRING (n : Nat) : Reg := ⟨0x40301028 + 0x100 * n, 0x0⟩
def FSE_Pn_TXRING_TXHEAD (n : Nat) : RF := ⟨FSE_Pn_TXRING n, 16, 10⟩
def FSE_Pn_TXRING_TXTAIL (n : Nat) : RF := ⟨FSE_Pn_TXRING n, 0, 10⟩
def FSE_Pn_STATUS (n : Nat) : Reg := ⟨0x40301030 + 0x100 * n, 0x0⟩
def FSE_Pn_STATUS_GATED (n : Nat) : RF := ⟨FSE_Pn_STATUS n, 11, 1⟩
def FSE_Pn_STATUS_CARRIER (n : Nat) : RF := ⟨FSE_Pn_STATUS n, 10, 1⟩
def FSE_Pn_STATUS_RATE_OK (n : Nat) : RF := ⟨FSE_Pn_STATUS n, 9, 1⟩
def FSE_Pn_STATUS_TX_ACTIVE (n : Nat) : RF := ⟨FSE_Pn_STATUS n, 8, 1⟩
def FSE_Pn_STATUS_RX_NOSIGNAL (n : Nat) : RF := ⟨FSE_Pn_STATUS n, 5, 1⟩
def FSE_Pn_STATUS_SUSPECT_SEEN (n : Nat) : RF := ⟨FSE_Pn_STATUS n, 4, 1⟩
def FSE_Pn_STATUS_MISSED_DISPATCH (n : Nat) : RF := ⟨FSE_Pn_STATUS n, 3, 1⟩
def FSE_Pn_STATUS_RX_OVERFLOW (n : Nat) : RF := ⟨FSE_Pn_STATUS n, 2, 1⟩
def FSE_Pn_STATUS_CLIPPED (n : Nat) : RF := ⟨FSE_Pn_STATUS n, 1, 1⟩
def FSE_Pn_ERRCNT (n : Nat) : Reg := ⟨0x40301034 + 0x100 * n, 0x0⟩
def FSE_Pn_ERRCNT_ACK_FAIL (n : Nat) : RF := ⟨FSE_Pn_ERRCNT n, 24, 8⟩
def FSE_Pn_ERRCNT_RX_FCS_FAIL (n : Nat) : RF := ⟨FSE_Pn_ERRCNT n, 16, 8⟩
def FSE_Pn_ERRCNT_RX_CLIPS (n : Nat) : RF := ⟨FSE_Pn_ERRCNT n, 8, 8⟩
def FSE_Pn_ERRCNT_CLIPS (n : Nat) : RF := ⟨FSE_Pn_ERRCNT n, 0, 8⟩
def FSE_Pn_FRAMES (n : Nat) : Reg := ⟨0x40301038 + 0x100 * n, 0x0⟩
def FSE_Pn_FRAMES_RX (n : Nat) : RF := ⟨FSE_Pn_FRAMES n, 16, 16⟩
def FSE_Pn_FRAMES_TX (n : Nat) : RF := ⟨FSE_Pn_FRAMES n, 0, 16⟩
def FSE_Pn_FEED (n : Nat) : Reg := ⟨0x4030103C + 0x100 * n, 0x0⟩
def FSE_Pn_FEED_FEED (n : Nat) : RF := ⟨FSE_Pn_FEED n, 0, 32⟩
def FSE_Pn_LOOP (n : Nat) : Reg := ⟨0x40301080 + 0x100 * n, 0x0⟩
def FSE_Pn_LOOP_INJECTING (n : Nat) : RF := ⟨FSE_Pn_LOOP n, 1, 1⟩
def FSE_Pn_LOOP_MUTE (n : Nat) : RF := ⟨FSE_Pn_LOOP n, 0, 1⟩

/-! ### Registers of spec/15_sessions.md -/

def SES_FREE : Reg := ⟨0x40340000, 0x100000⟩
def SES_FREE_FREE : RF := ⟨SES_FREE, 0, 21⟩
def SES_INDEX : Reg := ⟨0x40340004, 0x0⟩
def SES_INDEX_INDEX_FULL : RF := ⟨SES_INDEX, 8, 1⟩
def SES_INDEX_STASH : RF := ⟨SES_INDEX, 0, 7⟩
def SES_LOOKUPS : Reg := ⟨0x40340008, 0x0⟩
def SES_LOOKUPS_COUNT : RF := ⟨SES_LOOKUPS, 0, 32⟩
def SES_NOCTX : Reg := ⟨0x4034000C, 0x0⟩
def SES_NOCTX_COUNT : RF := ⟨SES_NOCTX, 0, 32⟩
def SES_Pp_CMD (p : Nat) : Reg := ⟨0x40341000 + 0x400 * p, 0x0⟩
def SES_Pp_CMD_GO (p : Nat) : RF := ⟨SES_Pp_CMD p, 31, 1⟩
def SES_Pp_CMD_MASK (p : Nat) : RF := ⟨SES_Pp_CMD p, 16, 8⟩
def SES_Pp_CMD_KIND (p : Nat) : RF := ⟨SES_Pp_CMD p, 4, 1⟩
def SES_Pp_CMD_OP (p : Nat) : RF := ⟨SES_Pp_CMD p, 0, 4⟩
def SES_Pp_CSTAT (p : Nat) : Reg := ⟨0x40341004 + 0x400 * p, 0x0⟩
def SES_Pp_CSTAT_CODE (p : Nat) : RF := ⟨SES_Pp_CSTAT p, 8, 8⟩
def SES_Pp_CSTAT_DONE (p : Nat) : RF := ⟨SES_Pp_CSTAT p, 1, 1⟩
def SES_Pp_CSTAT_BUSY (p : Nat) : RF := ⟨SES_Pp_CSTAT p, 0, 1⟩
def SES_Pp_CTX (p : Nat) : Reg := ⟨0x40341008 + 0x400 * p, 0x0⟩
def SES_Pp_CTX_CTX (p : Nat) : RF := ⟨SES_Pp_CTX p, 0, 20⟩
def SES_Pp_ID_LO (p : Nat) : Reg := ⟨0x4034100C + 0x400 * p, 0x0⟩
def SES_Pp_ID_LO_ID_LO (p : Nat) : RF := ⟨SES_Pp_ID_LO p, 0, 32⟩
def SES_Pp_ID_HI (p : Nat) : Reg := ⟨0x40341010 + 0x400 * p, 0x0⟩
def SES_Pp_ID_HI_ID_HI (p : Nat) : RF := ⟨SES_Pp_ID_HI p, 0, 32⟩
def SES_Pp_DATAi (p i : Nat) : Reg := ⟨0x40341040 + 0x400 * p + 0x4 * i, 0x0⟩
def SES_Pp_DATAi_DATA (p i : Nat) : RF := ⟨SES_Pp_DATAi p i, 0, 32⟩
def SES_Pp_RXBASE (p : Nat) : Reg := ⟨0x40341080 + 0x400 * p, 0x0⟩
def SES_Pp_RXBASE_BASE (p : Nat) : RF := ⟨SES_Pp_RXBASE p, 6, 26⟩
def SES_Pp_RXSIZE (p : Nat) : Reg := ⟨0x40341084 + 0x400 * p, 0x0⟩
def SES_Pp_RXSIZE_SIZE (p : Nat) : RF := ⟨SES_Pp_RXSIZE p, 0, 13⟩
def SES_Pp_RXPTR (p : Nat) : Reg := ⟨0x40341088 + 0x400 * p, 0x0⟩
def SES_Pp_RXPTR_WRPTR (p : Nat) : RF := ⟨SES_Pp_RXPTR p, 16, 12⟩
def SES_Pp_RXPTR_RDPTR (p : Nat) : RF := ⟨SES_Pp_RXPTR p, 0, 12⟩
def SES_Pp_RXCFG (p : Nat) : Reg := ⟨0x4034108C + 0x400 * p, 0x1⟩
def SES_Pp_RXCFG_REJ_COPY (p : Nat) : RF := ⟨SES_Pp_RXCFG p, 16, 1⟩
def SES_Pp_RXCFG_WATERMARK (p : Nat) : RF := ⟨SES_Pp_RXCFG p, 0, 12⟩
def SES_Pp_RXSTAT (p : Nat) : Reg := ⟨0x40341090 + 0x400 * p, 0x0⟩
def SES_Pp_RXSTAT_REJECTS (p : Nat) : RF := ⟨SES_Pp_RXSTAT p, 16, 16⟩
def SES_Pp_RXSTAT_DROPS (p : Nat) : RF := ⟨SES_Pp_RXSTAT p, 0, 16⟩
def SES_Pp_QUOTA (p : Nat) : Reg := ⟨0x403410A0 + 0x400 * p, 0x0⟩
def SES_Pp_QUOTA_QUOTA (p : Nat) : RF := ⟨SES_Pp_QUOTA p, 0, 21⟩
def SES_Pp_USED (p : Nat) : Reg := ⟨0x403410A4 + 0x400 * p, 0x0⟩
def SES_Pp_USED_USED (p : Nat) : RF := ⟨SES_Pp_USED p, 0, 21⟩
def SES_Pp_KEYk_Wj (p k j : Nat) : Reg := ⟨0x40341100 + 0x400 * p + 0x20 * k + 0x4 * j, 0x0⟩
def SES_Pp_KEYk_Wj_KEY (p k j : Nat) : RF := ⟨SES_Pp_KEYk_Wj p k j, 0, 32⟩
def SES_Pp_KEYk_CTRL (p k : Nat) : Reg := ⟨0x40341110 + 0x400 * p + 0x20 * k, 0x0⟩
def SES_Pp_KEYk_CTRL_KEY_ID (p k : Nat) : RF := ⟨SES_Pp_KEYk_CTRL p k, 8, 8⟩
def SES_Pp_KEYk_CTRL_VALID (p k : Nat) : RF := ⟨SES_Pp_KEYk_CTRL p k, 0, 1⟩
def SES_Pp_KEYk_TXFC (p k : Nat) : Reg := ⟨0x40341114 + 0x400 * p + 0x20 * k, 0x0⟩
def SES_Pp_KEYk_TXFC_TXFC (p k : Nat) : RF := ⟨SES_Pp_KEYk_TXFC p k, 0, 32⟩
def SES_Pp_TMPLt_CFG (p t : Nat) : Reg := ⟨0x40341200 + 0x400 * p + 0x20 * t, 0x0⟩
def SES_Pp_TMPLt_CFG_VALID (p t : Nat) : RF := ⟨SES_Pp_TMPLt_CFG p t, 31, 1⟩
def SES_Pp_TMPLt_CFG_COPY (p t : Nat) : RF := ⟨SES_Pp_TMPLt_CFG p t, 30, 1⟩
def SES_Pp_TMPLt_CFG_MOFS (p t : Nat) : RF := ⟨SES_Pp_TMPLt_CFG p t, 16, 8⟩
def SES_Pp_TMPLt_CFG_PLEN (p t : Nat) : RF := ⟨SES_Pp_TMPLt_CFG p t, 0, 11⟩
def SES_Pp_TMPLt_MVAL_LO (p t : Nat) : Reg := ⟨0x40341204 + 0x400 * p + 0x20 * t, 0x0⟩
def SES_Pp_TMPLt_MVAL_LO_BYTES (p t : Nat) : RF := ⟨SES_Pp_TMPLt_MVAL_LO p t, 0, 32⟩
def SES_Pp_TMPLt_MVAL_HI (p t : Nat) : Reg := ⟨0x40341208 + 0x400 * p + 0x20 * t, 0x0⟩
def SES_Pp_TMPLt_MVAL_HI_BYTES (p t : Nat) : RF := ⟨SES_Pp_TMPLt_MVAL_HI p t, 0, 32⟩
def SES_Pp_TMPLt_MMASK_LO (p t : Nat) : Reg := ⟨0x4034120C + 0x400 * p + 0x20 * t, 0x0⟩
def SES_Pp_TMPLt_MMASK_LO_BYTES (p t : Nat) : RF := ⟨SES_Pp_TMPLt_MMASK_LO p t, 0, 32⟩
def SES_Pp_TMPLt_MMASK_HI (p t : Nat) : Reg := ⟨0x40341210 + 0x400 * p + 0x20 * t, 0x0⟩
def SES_Pp_TMPLt_MMASK_HI_BYTES (p t : Nat) : RF := ⟨SES_Pp_TMPLt_MMASK_HI p t, 0, 32⟩
def SES_Pp_TMPLt_FIELDS (p t : Nat) : Reg := ⟨0x40341214 + 0x400 * p + 0x20 * t, 0x0⟩
def SES_Pp_TMPLt_FIELDS_C0_OFS (p t : Nat) : RF := ⟨SES_Pp_TMPLt_FIELDS p t, 24, 8⟩
def SES_Pp_TMPLt_FIELDS_C1_OFS (p t : Nat) : RF := ⟨SES_Pp_TMPLt_FIELDS p t, 16, 8⟩
def SES_Pp_TMPLt_FIELDS_F_OFS (p t : Nat) : RF := ⟨SES_Pp_TMPLt_FIELDS p t, 8, 8⟩
def SES_Pp_TMPLt_FIELDS_C0_SIZE (p t : Nat) : RF := ⟨SES_Pp_TMPLt_FIELDS p t, 6, 2⟩
def SES_Pp_TMPLt_FIELDS_C1_SIZE (p t : Nat) : RF := ⟨SES_Pp_TMPLt_FIELDS p t, 4, 2⟩
def SES_Pp_TMPLt_FIELDS_F_SIZE (p t : Nat) : RF := ⟨SES_Pp_TMPLt_FIELDS p t, 2, 2⟩
def SES_Pp_TMPLt_FIELDS_C0_SET (p t : Nat) : RF := ⟨SES_Pp_TMPLt_FIELDS p t, 1, 1⟩
def SES_Pp_TMPLt_FIELDS_C1_SET (p t : Nat) : RF := ⟨SES_Pp_TMPLt_FIELDS p t, 0, 1⟩

/-! ### Registers of spec/16_network_host_ports.md -/

def ETH_TIME_RATE : Reg := ⟨0x40380000, 0x0⟩
def ETH_TIME_RATE_RATE : RF := ⟨ETH_TIME_RATE, 0, 32⟩
def ETH_TIME_LO : Reg := ⟨0x40380004, 0x0⟩
def ETH_TIME_LO_TIME_LO : RF := ⟨ETH_TIME_LO, 0, 32⟩
def ETH_TIME_HI : Reg := ⟨0x40380008, 0x0⟩
def ETH_TIME_HI_TIME_HI : RF := ⟨ETH_TIME_HI, 0, 32⟩
def ETH_PTP_OFS_LO : Reg := ⟨0x4038000C, 0x0⟩
def ETH_PTP_OFS_LO_OFS_LO : RF := ⟨ETH_PTP_OFS_LO, 0, 32⟩
def ETH_PTP_OFS_HI : Reg := ⟨0x40380010, 0x0⟩
def ETH_PTP_OFS_HI_OFS_HI : RF := ⟨ETH_PTP_OFS_HI, 0, 32⟩
def ETH_PTP_SEC_LO : Reg := ⟨0x40380014, 0x0⟩
def ETH_PTP_SEC_LO_SEC_LO : RF := ⟨ETH_PTP_SEC_LO, 0, 32⟩
def ETH_PTP_SEC_HI : Reg := ⟨0x40380018, 0x0⟩
def ETH_PTP_SEC_HI_SEC_HI : RF := ⟨ETH_PTP_SEC_HI, 0, 16⟩
def ETH_Pp_STATUS (p : Nat) : Reg := ⟨0x40381000 + 0x1000 * p, 0x0⟩
def ETH_Pp_STATUS_CAP_DONE (p : Nat) : RF := ⟨ETH_Pp_STATUS p, 4, 1⟩
def ETH_Pp_STATUS_LINK_CHG (p : Nat) : RF := ⟨ETH_Pp_STATUS p, 3, 1⟩
def ETH_Pp_STATUS_HI_BER (p : Nat) : RF := ⟨ETH_Pp_STATUS p, 2, 1⟩
def ETH_Pp_STATUS_BLOCK_LOCK (p : Nat) : RF := ⟨ETH_Pp_STATUS p, 1, 1⟩
def ETH_Pp_STATUS_LINK_UP (p : Nat) : RF := ⟨ETH_Pp_STATUS p, 0, 1⟩
def ETH_Pp_TSLAT (p : Nat) : Reg := ⟨0x40381004 + 0x1000 * p, 0x0⟩
def ETH_Pp_TSLAT_EGRESS (p : Nat) : RF := ⟨ETH_Pp_TSLAT p, 16, 16⟩
def ETH_Pp_TSLAT_INGRESS (p : Nat) : RF := ⟨ETH_Pp_TSLAT p, 0, 16⟩
def ETH_Pp_CAP_LO (p : Nat) : Reg := ⟨0x40381008 + 0x1000 * p, 0x0⟩
def ETH_Pp_CAP_LO_CAP_LO (p : Nat) : RF := ⟨ETH_Pp_CAP_LO p, 0, 32⟩
def ETH_Pp_CAP_HI (p : Nat) : Reg := ⟨0x4038100C + 0x1000 * p, 0x0⟩
def ETH_Pp_CAP_HI_CAP_HI (p : Nat) : RF := ⟨ETH_Pp_CAP_HI p, 0, 32⟩
def ETH_Pp_DROPS (p : Nat) : Reg := ⟨0x40381010 + 0x1000 * p, 0x0⟩
def ETH_Pp_DROPS_FCS (p : Nat) : RF := ⟨ETH_Pp_DROPS p, 24, 8⟩
def ETH_Pp_DROPS_SIZE (p : Nat) : RF := ⟨ETH_Pp_DROPS p, 16, 8⟩
def ETH_Pp_DROPS_NOVLAN (p : Nat) : RF := ⟨ETH_Pp_DROPS p, 8, 8⟩
def ETH_Pp_DROPS_FULL (p : Nat) : RF := ⟨ETH_Pp_DROPS p, 0, 8⟩
def ETH_Pp_RXSUM (p : Nat) : Reg := ⟨0x40381014 + 0x1000 * p, 0x0⟩
def ETH_Pp_RXSUM_RING (p : Nat) : RF := ⟨ETH_Pp_RXSUM p, 0, 9⟩
def ETH_Pp_GCL_CTRL (p : Nat) : Reg := ⟨0x40381020 + 0x1000 * p, 0x100⟩
def ETH_Pp_GCL_CTRL_ADMIN_LEN (p : Nat) : RF := ⟨ETH_Pp_GCL_CTRL p, 8, 7⟩
def ETH_Pp_GCL_CTRL_PENDING (p : Nat) : RF := ⟨ETH_Pp_GCL_CTRL p, 2, 1⟩
def ETH_Pp_GCL_CTRL_CHANGE (p : Nat) : RF := ⟨ETH_Pp_GCL_CTRL p, 1, 1⟩
def ETH_Pp_GCL_CTRL_GCL_EN (p : Nat) : RF := ⟨ETH_Pp_GCL_CTRL p, 0, 1⟩
def ETH_Pp_GCL_BASE_LO (p : Nat) : Reg := ⟨0x40381024 + 0x1000 * p, 0x0⟩
def ETH_Pp_GCL_BASE_LO_BASE_LO (p : Nat) : RF := ⟨ETH_Pp_GCL_BASE_LO p, 0, 32⟩
def ETH_Pp_GCL_BASE_HI (p : Nat) : Reg := ⟨0x40381028 + 0x1000 * p, 0x0⟩
def ETH_Pp_GCL_BASE_HI_BASE_HI (p : Nat) : RF := ⟨ETH_Pp_GCL_BASE_HI p, 0, 32⟩
def ETH_Pp_GCLk (p k : Nat) : Reg := ⟨0x40381100 + 0x1000 * p + 0x4 * k, 0xFF0003E8⟩
def ETH_Pp_GCLk_GATES (p k : Nat) : RF := ⟨ETH_Pp_GCLk p k, 24, 8⟩
def ETH_Pp_GCLk_INTERVAL (p k : Nat) : RF := ⟨ETH_Pp_GCLk p k, 0, 24⟩
def ETH_Pp_Rr_TXBASE (p r : Nat) : Reg := ⟨0x40381400 + 0x1000 * p + 0x40 * r, 0x0⟩
def ETH_Pp_Rr_TXBASE_BASE (p r : Nat) : RF := ⟨ETH_Pp_Rr_TXBASE p r, 4, 28⟩
def ETH_Pp_Rr_RXBASE (p r : Nat) : Reg := ⟨0x40381408 + 0x1000 * p + 0x40 * r, 0x0⟩
def ETH_Pp_Rr_RXBASE_BASE (p r : Nat) : RF := ⟨ETH_Pp_Rr_RXBASE p r, 4, 28⟩
def ETH_Pp_Rr_TXPTR (p r : Nat) : Reg := ⟨0x40381404 + 0x1000 * p + 0x40 * r, 0x0⟩
def ETH_Pp_Rr_TXPTR_HEAD (p r : Nat) : RF := ⟨ETH_Pp_Rr_TXPTR p r, 16, 12⟩
def ETH_Pp_Rr_TXPTR_TAIL (p r : Nat) : RF := ⟨ETH_Pp_Rr_TXPTR p r, 0, 12⟩
def ETH_Pp_Rr_RXPTR (p r : Nat) : Reg := ⟨0x4038140C + 0x1000 * p + 0x40 * r, 0x0⟩
def ETH_Pp_Rr_RXPTR_HEAD (p r : Nat) : RF := ⟨ETH_Pp_Rr_RXPTR p r, 16, 12⟩
def ETH_Pp_Rr_RXPTR_TAIL (p r : Nat) : RF := ⟨ETH_Pp_Rr_RXPTR p r, 0, 12⟩
def ETH_Pp_Rr_SIZE (p r : Nat) : Reg := ⟨0x40381410 + 0x1000 * p + 0x40 * r, 0x0⟩
def ETH_Pp_Rr_SIZE_RXSIZE (p r : Nat) : RF := ⟨ETH_Pp_Rr_SIZE p r, 16, 12⟩
def ETH_Pp_Rr_SIZE_TXSIZE (p r : Nat) : RF := ⟨ETH_Pp_Rr_SIZE p r, 0, 12⟩
def ETH_Pp_Rr_MAC_LO (p r : Nat) : Reg := ⟨0x40381414 + 0x1000 * p + 0x40 * r, 0x0⟩
def ETH_Pp_Rr_MAC_LO_MAC_LO (p r : Nat) : RF := ⟨ETH_Pp_Rr_MAC_LO p r, 0, 32⟩
def ETH_Pp_Rr_CTRL (p r : Nat) : Reg := ⟨0x40381418 + 0x1000 * p + 0x40 * r, 0x1000000⟩
def ETH_Pp_Rr_CTRL_WATERMARK (p r : Nat) : RF := ⟨ETH_Pp_Rr_CTRL p r, 24, 8⟩
def ETH_Pp_Rr_CTRL_TX_EN (p r : Nat) : RF := ⟨ETH_Pp_Rr_CTRL p r, 18, 1⟩
def ETH_Pp_Rr_CTRL_RX_EN (p r : Nat) : RF := ⟨ETH_Pp_Rr_CTRL p r, 17, 1⟩
def ETH_Pp_Rr_CTRL_MCAST (p r : Nat) : RF := ⟨ETH_Pp_Rr_CTRL p r, 16, 1⟩
def ETH_Pp_Rr_CTRL_MAC_HI (p r : Nat) : RF := ⟨ETH_Pp_Rr_CTRL p r, 0, 16⟩
def PCIE_LINKl_STATUS (l : Nat) : Reg := ⟨0x403C0000 + 0x4 * l, 0x0⟩
def PCIE_LINKl_STATUS_SPLIT (l : Nat) : RF := ⟨PCIE_LINKl_STATUS l, 11, 1⟩
def PCIE_LINKl_STATUS_L1 (l : Nat) : RF := ⟨PCIE_LINKl_STATUS l, 10, 1⟩
def PCIE_LINKl_STATUS_SPEED (l : Nat) : RF := ⟨PCIE_LINKl_STATUS l, 8, 2⟩
def PCIE_LINKl_STATUS_WIDTH (l : Nat) : RF := ⟨PCIE_LINKl_STATUS l, 4, 4⟩
def PCIE_LINKl_STATUS_UP (l : Nat) : RF := ⟨PCIE_LINKl_STATUS l, 0, 1⟩
def PCIE_IDENT : Reg := ⟨0x403C0008, 0x94200000⟩
def PCIE_IDENT_DEVICE_ID : RF := ⟨PCIE_IDENT, 16, 16⟩
def PCIE_IDENT_VENDOR_ID : RF := ⟨PCIE_IDENT, 0, 16⟩
def PCIE_Fn_STATUS (n : Nat) : Reg := ⟨0x403C1000 + 0x100 * n, 0x0⟩
def PCIE_Fn_STATUS_PRESENT (n : Nat) : RF := ⟨PCIE_Fn_STATUS n, 31, 1⟩
def PCIE_Fn_STATUS_PART (n : Nat) : RF := ⟨PCIE_Fn_STATUS n, 24, 4⟩
def PCIE_Fn_STATUS_REFUSED (n : Nat) : RF := ⟨PCIE_Fn_STATUS n, 7, 1⟩
def PCIE_Fn_STATUS_FLR (n : Nat) : RF := ⟨PCIE_Fn_STATUS n, 6, 1⟩
def PCIE_Fn_STATUS_HOT_RESET (n : Nat) : RF := ⟨PCIE_Fn_STATUS n, 5, 1⟩
def PCIE_Fn_STATUS_FN_MASK (n : Nat) : RF := ⟨PCIE_Fn_STATUS n, 3, 1⟩
def PCIE_Fn_STATUS_MSIX_EN (n : Nat) : RF := ⟨PCIE_Fn_STATUS n, 2, 1⟩
def PCIE_Fn_STATUS_BME (n : Nat) : RF := ⟨PCIE_Fn_STATUS n, 1, 1⟩
def PCIE_Fn_STATUS_MEM_EN (n : Nat) : RF := ⟨PCIE_Fn_STATUS n, 0, 1⟩
def PCIE_Fn_REFADDR (n : Nat) : Reg := ⟨0x403C1004 + 0x100 * n, 0x0⟩
def PCIE_Fn_REFADDR_ADDR (n : Nat) : RF := ⟨PCIE_Fn_REFADDR n, 0, 32⟩
def PCIE_Fn_VREQ_LO (n : Nat) : Reg := ⟨0x403C1008 + 0x100 * n, 0x0⟩
def PCIE_Fn_VREQ_LO_VREQ (n : Nat) : RF := ⟨PCIE_Fn_VREQ_LO n, 0, 32⟩
def PCIE_Fn_VREQ_HI (n : Nat) : Reg := ⟨0x403C100C + 0x100 * n, 0x0⟩
def PCIE_Fn_VREQ_HI_VREQ (n : Nat) : RF := ⟨PCIE_Fn_VREQ_HI n, 0, 32⟩
def PCIE_Fn_VMAPk (n k : Nat) : Reg := ⟨0x403C1010 + 0x100 * n + 0x4 * k, 0x0⟩
def PCIE_Fn_VMAPk_EN (n k j : Nat) : RF := ⟨PCIE_Fn_VMAPk n k, 7 + 8 * j, 1⟩
def PCIE_Fn_VMAPk_VECTOR (n k j : Nat) : RF := ⟨PCIE_Fn_VMAPk n k, 0 + 8 * j, 6⟩

/-! ### Registers of spec/17_partitions_locks.md -/

def PART_Pn_CFG (n : Nat) : Reg := ⟨0x40010000 + 0x40 * n, 0x0⟩
def PART_Pn_CFG_PRESENT (n : Nat) : RF := ⟨PART_Pn_CFG n, 31, 1⟩
def PART_Pn_CFG_DEBUG_ALLOWED (n : Nat) : RF := ⟨PART_Pn_CFG n, 25, 1⟩
def PART_Pn_CFG_RELOAD_ALLOWED (n : Nat) : RF := ⟨PART_Pn_CFG n, 24, 1⟩
def PART_Pn_CFG_PCIE_FN (n : Nat) : RF := ⟨PART_Pn_CFG n, 16, 8⟩
def PART_Pn_CFG_CORES (n : Nat) : RF := ⟨PART_Pn_CFG n, 0, 8⟩
def PART_Pn_SRAM (n : Nat) : Reg := ⟨0x40010004 + 0x40 * n, 0x0⟩
def PART_Pn_SRAM_BANKS (n : Nat) : RF := ⟨PART_Pn_SRAM n, 0, 32⟩
def PART_Pn_FLASH (n : Nat) : Reg := ⟨0x40010008 + 0x40 * n, 0x0⟩
def PART_Pn_FLASH_COUNT (n : Nat) : RF := ⟨PART_Pn_FLASH n, 16, 16⟩
def PART_Pn_FLASH_FIRST (n : Nat) : RF := ⟨PART_Pn_FLASH n, 0, 9⟩
def PART_Pn_LOCKS (n : Nat) : Reg := ⟨0x4001000C + 0x40 * n, 0x0⟩
def PART_Pn_LOCKS_COUNT (n : Nat) : RF := ⟨PART_Pn_LOCKS n, 16, 9⟩
def PART_Pn_LOCKS_FIRST (n : Nat) : RF := ⟨PART_Pn_LOCKS n, 0, 8⟩
def PART_Pn_DMA (n : Nat) : Reg := ⟨0x40010010 + 0x40 * n, 0x0⟩
def PART_Pn_DMA_CHANNELS (n : Nat) : RF := ⟨PART_Pn_DMA n, 0, 32⟩
def PART_Pn_BOOT (n : Nat) : Reg := ⟨0x40010014 + 0x40 * n, 0x0⟩
def PART_Pn_BOOT_BOOT_ADDR (n : Nat) : RF := ⟨PART_Pn_BOOT n, 0, 32⟩
def PART_Pn_STATE (n : Nat) : Reg := ⟨0x40010018 + 0x40 * n, 0x0⟩
def PART_Pn_STATE_RESETS (n : Nat) : RF := ⟨PART_Pn_STATE n, 16, 16⟩
def PART_Pn_STATE_LAST_CAUSE (n : Nat) : RF := ⟨PART_Pn_STATE n, 8, 2⟩
def PART_Pn_STATE_STATE (n : Nat) : RF := ⟨PART_Pn_STATE n, 0, 3⟩
def PART_Pn_RSTCTRL (n : Nat) : Reg := ⟨0x4001001C + 0x40 * n, 0x0⟩
def PART_Pn_RSTCTRL_HOLD (n : Nat) : RF := ⟨PART_Pn_RSTCTRL n, 1, 1⟩
def PART_Pn_RSTCTRL_RESET (n : Nat) : RF := ⟨PART_Pn_RSTCTRL n, 0, 1⟩
def PART_FENCE_INFO : Reg := ⟨0x40010400, 0x0⟩
def PART_FENCE_INFO_VALID : RF := ⟨PART_FENCE_INFO, 31, 1⟩
def PART_FENCE_INFO_OVER : RF := ⟨PART_FENCE_INFO, 30, 1⟩
def PART_FENCE_INFO_REQ : RF := ⟨PART_FENCE_INFO, 24, 6⟩
def PART_FENCE_INFO_WRITE : RF := ⟨PART_FENCE_INFO, 9, 1⟩
def PART_FENCE_INFO_FETCH : RF := ⟨PART_FENCE_INFO, 8, 1⟩
def PART_FENCE_INFO_PART : RF := ⟨PART_FENCE_INFO, 0, 4⟩
def PART_FENCE_ADDR : Reg := ⟨0x40010404, 0x0⟩
def PART_FENCE_ADDR_ADDR : RF := ⟨PART_FENCE_ADDR, 0, 32⟩
def PART_Pn_SELF (n : Nat) : Reg := ⟨0x40010800 + 0x20 * n, 0x0⟩
def PART_Pn_SELF_KEY (n : Nat) : RF := ⟨PART_Pn_SELF n, 8, 8⟩
def PART_Pn_SELF_START (n : Nat) : RF := ⟨PART_Pn_SELF n, 1, 1⟩
def PART_Pn_SELF_RESET (n : Nat) : RF := ⟨PART_Pn_SELF n, 0, 1⟩
def PART_Pn_SELFSTAT (n : Nat) : Reg := ⟨0x40010804 + 0x20 * n, 0x0⟩
def PART_Pn_SELFSTAT_STATE (n : Nat) : RF := ⟨PART_Pn_SELFSTAT n, 0, 32⟩
def PART_Pn_LOCKERR (n : Nat) : Reg := ⟨0x40010808 + 0x20 * n, 0x0⟩
def PART_Pn_LOCKERR_NOT_OWNER (n : Nat) : RF := ⟨PART_Pn_LOCKERR n, 8, 1⟩
def PART_Pn_LOCKERR_LOCK (n : Nat) : RF := ⟨PART_Pn_LOCKERR n, 0, 8⟩
def PART_LOCKk_ACQ (k : Nat) : Reg := ⟨0x40011000 + 0x10 * k, 0x3F000000⟩
def PART_LOCKk_ACQ_GRANTED (k : Nat) : RF := ⟨PART_LOCKk_ACQ k, 31, 1⟩
def PART_LOCKk_ACQ_BROKEN (k : Nat) : RF := ⟨PART_LOCKk_ACQ k, 30, 1⟩
def PART_LOCKk_ACQ_OWNER (k : Nat) : RF := ⟨PART_LOCKk_ACQ k, 24, 6⟩
def PART_LOCKk_ACQ_REPEAT (k : Nat) : RF := ⟨PART_LOCKk_ACQ k, 23, 1⟩
def PART_LOCKk_CTRL (k : Nat) : Reg := ⟨0x40011004 + 0x10 * k, 0x0⟩
def PART_LOCKk_CTRL_FORCE_RELEASE (k : Nat) : RF := ⟨PART_LOCKk_CTRL k, 3, 1⟩
def PART_LOCKk_CTRL_CLEAR_BROKEN (k : Nat) : RF := ⟨PART_LOCKk_CTRL k, 2, 1⟩
def PART_LOCKk_CTRL_RENEW (k : Nat) : RF := ⟨PART_LOCKk_CTRL k, 1, 1⟩
def PART_LOCKk_CTRL_RELEASE (k : Nat) : RF := ⟨PART_LOCKk_CTRL k, 0, 1⟩
def PART_LOCKk_STAT (k : Nat) : Reg := ⟨0x40011008 + 0x10 * k, 0x3F000000⟩
def PART_LOCKk_STAT_HELD (k : Nat) : RF := ⟨PART_LOCKk_STAT k, 31, 1⟩
def PART_LOCKk_STAT_BROKEN (k : Nat) : RF := ⟨PART_LOCKk_STAT k, 30, 1⟩
def PART_LOCKk_STAT_OWNER (k : Nat) : RF := ⟨PART_LOCKk_STAT k, 24, 6⟩
def PART_LOCKk_STAT_CAUSE (k : Nat) : RF := ⟨PART_LOCKk_STAT k, 20, 4⟩
def PART_LOCKk_STAT_UNIT (k : Nat) : RF := ⟨PART_LOCKk_STAT k, 16, 1⟩
def PART_LOCKk_STAT_LEFT (k : Nat) : RF := ⟨PART_LOCKk_STAT k, 0, 16⟩
def PART_LOCKk_LEASE (k : Nat) : Reg := ⟨0x4001100C + 0x10 * k, 0x3E8⟩
def PART_LOCKk_LEASE_UNIT (k : Nat) : RF := ⟨PART_LOCKk_LEASE k, 16, 1⟩
def PART_LOCKk_LEASE_LEASE (k : Nat) : RF := ⟨PART_LOCKk_LEASE k, 0, 16⟩

/-! ### Registers of spec/18_memory_integrity_dma.md -/

def MEMC_ERR_INFO : Reg := ⟨0x40460000, 0x0⟩
def MEMC_ERR_INFO_VALID : RF := ⟨MEMC_ERR_INFO, 31, 1⟩
def MEMC_ERR_INFO_OVER : RF := ⟨MEMC_ERR_INFO, 30, 1⟩
def MEMC_ERR_INFO_REQ : RF := ⟨MEMC_ERR_INFO, 24, 6⟩
def MEMC_ERR_INFO_LANE : RF := ⟨MEMC_ERR_INFO, 20, 4⟩
def MEMC_ERR_INFO_PART : RF := ⟨MEMC_ERR_INFO, 16, 4⟩
def MEMC_ERR_INFO_MEM : RF := ⟨MEMC_ERR_INFO, 8, 4⟩
def MEMC_ERR_INFO_KIND : RF := ⟨MEMC_ERR_INFO, 0, 2⟩
def MEMC_ERR_ADDR : Reg := ⟨0x40460004, 0x0⟩
def MEMC_ERR_ADDR_ADDR : RF := ⟨MEMC_ERR_ADDR, 0, 32⟩
def MEMC_CORR : Reg := ⟨0x40460008, 0x0⟩
def MEMC_CORR_COUNT : RF := ⟨MEMC_CORR, 0, 32⟩
def MEMC_UNCORR : Reg := ⟨0x4046000C, 0x0⟩
def MEMC_UNCORR_COUNT : RF := ⟨MEMC_UNCORR, 0, 32⟩
def MEMC_PARCEL : Reg := ⟨0x40460010, 0x0⟩
def MEMC_PARCEL_COUNT : RF := ⟨MEMC_PARCEL, 0, 32⟩
def MEMC_INJ_ADDR : Reg := ⟨0x40460020, 0x0⟩
def MEMC_INJ_ADDR_LINE : RF := ⟨MEMC_INJ_ADDR, 6, 26⟩
def MEMC_INJ_CTRL : Reg := ⟨0x40460024, 0x0⟩
def MEMC_INJ_CTRL_ARMED : RF := ⟨MEMC_INJ_CTRL, 2, 1⟩
def MEMC_INJ_CTRL_KIND : RF := ⟨MEMC_INJ_CTRL, 0, 2⟩
def DMA_RUNNING : Reg := ⟨0x40400000, 0x0⟩
def DMA_RUNNING_CH : RF := ⟨DMA_RUNNING, 0, 32⟩
def DMA_Cn_CTRL (n : Nat) : Reg := ⟨0x40401000 + 0x40 * n, 0x0⟩
def DMA_Cn_CTRL_STOP (n : Nat) : RF := ⟨DMA_Cn_CTRL n, 1, 1⟩
def DMA_Cn_CTRL_START (n : Nat) : RF := ⟨DMA_Cn_CTRL n, 0, 1⟩
def DMA_Cn_CFG (n : Nat) : Reg := ⟨0x40401004 + 0x40 * n, 0x0⟩
def DMA_Cn_CFG_PRIO (n : Nat) : RF := ⟨DMA_Cn_CFG n, 0, 2⟩
def DMA_Cn_HEAD (n : Nat) : Reg := ⟨0x40401008 + 0x40 * n, 0x0⟩
def DMA_Cn_HEAD_ADDR (n : Nat) : RF := ⟨DMA_Cn_HEAD n, 5, 27⟩
def DMA_Cn_CUR (n : Nat) : Reg := ⟨0x4040100C + 0x40 * n, 0x0⟩
def DMA_Cn_CUR_ADDR (n : Nat) : RF := ⟨DMA_Cn_CUR n, 0, 32⟩
def DMA_Cn_STATUS (n : Nat) : Reg := ⟨0x40401010 + 0x40 * n, 0x0⟩
def DMA_Cn_STATUS_CODE (n : Nat) : RF := ⟨DMA_Cn_STATUS n, 24, 8⟩
def DMA_Cn_STATUS_REQ (n : Nat) : RF := ⟨DMA_Cn_STATUS n, 16, 1⟩
def DMA_Cn_STATUS_STATE (n : Nat) : RF := ⟨DMA_Cn_STATUS n, 0, 3⟩
def DMA_Cn_DONE (n : Nat) : Reg := ⟨0x40401014 + 0x40 * n, 0x0⟩
def DMA_Cn_DONE_BYTES (n : Nat) : RF := ⟨DMA_Cn_DONE n, 0, 17⟩
def DMA_Cn_COUNT (n : Nat) : Reg := ⟨0x40401018 + 0x40 * n, 0x0⟩
def DMA_Cn_COUNT_COUNT (n : Nat) : RF := ⟨DMA_Cn_COUNT n, 0, 32⟩
def DMA_Cn_ERRADDR (n : Nat) : Reg := ⟨0x4040101C + 0x40 * n, 0x0⟩
def DMA_Cn_ERRADDR_ADDR (n : Nat) : RF := ⟨DMA_Cn_ERRADDR n, 0, 32⟩
def DMA_Cn_REQ (n : Nat) : Reg := ⟨0x40401020 + 0x40 * n, 0x0⟩
def DMA_Cn_REQ_SET (n : Nat) : RF := ⟨DMA_Cn_REQ n, 0, 1⟩

/-! ### Registers of spec/19_arbitration_guarantees.md -/

def ARB_HOGSUM_LO : Reg := ⟨0x40440000, 0x0⟩
def ARB_HOGSUM_LO_HOGGED : RF := ⟨ARB_HOGSUM_LO, 0, 32⟩
def ARB_HOGSUM_HI : Reg := ⟨0x40440004, 0x0⟩
def ARB_HOGSUM_HI_HOGGED : RF := ⟨ARB_HOGSUM_HI, 0, 18⟩
def ARB_COMMIT_LO : Reg := ⟨0x40440010, 0x0⟩
def ARB_COMMIT_LO_COMMIT : RF := ⟨ARB_COMMIT_LO, 0, 32⟩
def ARB_COMMIT_HI : Reg := ⟨0x40440014, 0x0⟩
def ARB_COMMIT_HI_COMMIT : RF := ⟨ARB_COMMIT_HI, 0, 18⟩
def ARB_Aa_REQr (a r : Nat) : Reg := ⟨0x40441000 + 0x100 * a + 0x4 * r, 0x0⟩
def ARB_Aa_REQr_PRESENT (a r : Nat) : RF := ⟨ARB_Aa_REQr a r, 31, 1⟩
def ARB_Aa_REQr_PRIORITY (a r : Nat) : RF := ⟨ARB_Aa_REQr a r, 8, 3⟩
def ARB_Aa_REQr_HOG (a r : Nat) : RF := ⟨ARB_Aa_REQr a r, 0, 8⟩
def ARB_Aa_COMMIT (a : Nat) : Reg := ⟨0x40441080 + 0x100 * a, 0x0⟩
def ARB_Aa_COMMIT_CLEAR_WAIT (a : Nat) : RF := ⟨ARB_Aa_COMMIT a, 1, 1⟩
def ARB_Aa_COMMIT_COMMIT (a : Nat) : RF := ⟨ARB_Aa_COMMIT a, 0, 1⟩
def ARB_Aa_STATUS (a : Nat) : Reg := ⟨0x40441084 + 0x100 * a, 0x0⟩
def ARB_Aa_STATUS_HOGGED (a : Nat) : RF := ⟨ARB_Aa_STATUS a, 31, 1⟩
def ARB_Aa_STATUS_HOG_REQ (a : Nat) : RF := ⟨ARB_Aa_STATUS a, 16, 5⟩
def ARB_Aa_STATUS_PENDING (a : Nat) : RF := ⟨ARB_Aa_STATUS a, 0, 1⟩
def ARB_Aa_CUT (a : Nat) : Reg := ⟨0x40441088 + 0x100 * a, 0x0⟩
def ARB_Aa_CUT_CUT (a : Nat) : RF := ⟨ARB_Aa_CUT a, 0, 18⟩
def ARB_Aa_BOUND (a : Nat) : Reg := ⟨0x4044108C + 0x100 * a, 0x0⟩
def ARB_Aa_BOUND_BOUND (a : Nat) : RF := ⟨ARB_Aa_BOUND a, 0, 16⟩
def ARB_Aa_WAITMAX (a : Nat) : Reg := ⟨0x40441090 + 0x100 * a, 0x0⟩
def ARB_Aa_WAITMAX_REQ (a : Nat) : RF := ⟨ARB_Aa_WAITMAX a, 27, 5⟩
def ARB_Aa_WAITMAX_SLOTS (a : Nat) : RF := ⟨ARB_Aa_WAITMAX a, 0, 16⟩

/-! ### Registers of spec/21_clocks_power.md -/

def CLK_SRC_STATUS : Reg := ⟨0x40020000, 0x4⟩
def CLK_SRC_STATUS_QUAD_LOCK : RF := ⟨CLK_SRC_STATUS, 16, 8⟩
def CLK_SRC_STATUS_PCIE_LOCK : RF := ⟨CLK_SRC_STATUS, 9, 1⟩
def CLK_SRC_STATUS_ETH_LOCK : RF := ⟨CLK_SRC_STATUS, 8, 1⟩
def CLK_SRC_STATUS_PWM_LOCK : RF := ⟨CLK_SRC_STATUS, 7, 1⟩
def CLK_SRC_STATUS_CONV_LOCK : RF := ⟨CLK_SRC_STATUS, 6, 1⟩
def CLK_SRC_STATUS_SYS_LOCK : RF := ⟨CLK_SRC_STATUS, 5, 1⟩
def CLK_SRC_STATUS_BRC_OK : RF := ⟨CLK_SRC_STATUS, 2, 1⟩
def CLK_SRC_STATUS_XTAL32_OK : RF := ⟨CLK_SRC_STATUS, 1, 1⟩
def CLK_SRC_STATUS_MAIN_OK : RF := ⟨CLK_SRC_STATUS, 0, 1⟩
def CLK_SRC_FAIL : Reg := ⟨0x40020004, 0x0⟩
def CLK_SRC_FAIL_QUAD_FAIL : RF := ⟨CLK_SRC_FAIL, 16, 8⟩
def CLK_SRC_FAIL_PCIE_FAIL : RF := ⟨CLK_SRC_FAIL, 9, 1⟩
def CLK_SRC_FAIL_ETH_FAIL : RF := ⟨CLK_SRC_FAIL, 8, 1⟩
def CLK_SRC_FAIL_PWM_FAIL : RF := ⟨CLK_SRC_FAIL, 7, 1⟩
def CLK_SRC_FAIL_CONV_FAIL : RF := ⟨CLK_SRC_FAIL, 6, 1⟩
def CLK_SRC_FAIL_SYS_FAIL : RF := ⟨CLK_SRC_FAIL, 5, 1⟩
def CLK_SRC_FAIL_BRC_FAIL : RF := ⟨CLK_SRC_FAIL, 2, 1⟩
def CLK_SRC_FAIL_XTAL32_FAIL : RF := ⟨CLK_SRC_FAIL, 1, 1⟩
def CLK_SRC_FAIL_MAIN_FAIL : RF := ⟨CLK_SRC_FAIL, 0, 1⟩
def CLK_PLL_CTRL : Reg := ⟨0x40020008, 0x0⟩
def CLK_PLL_CTRL_QUAD_KEEP : RF := ⟨CLK_PLL_CTRL, 16, 8⟩
def CLK_PLL_CTRL_ETH_KEEP : RF := ⟨CLK_PLL_CTRL, 2, 1⟩
def CLK_PLL_CTRL_CONV_KEEP : RF := ⟨CLK_PLL_CTRL, 1, 1⟩
def CLK_PLL_CTRL_RELOCK : RF := ⟨CLK_PLL_CTRL, 0, 1⟩
def CLK_RUNj (j : Nat) : Reg := ⟨0x40020010 + 0x4 * j, 0x0⟩
def CLK_RUNj_DOMAINS (j : Nat) : RF := ⟨CLK_RUNj j, 0, 32⟩
def CLK_HELDj (j : Nat) : Reg := ⟨0x40020020 + 0x4 * j, 0x0⟩
def CLK_HELDj_DOMAINS (j : Nat) : RF := ⟨CLK_HELDj j, 0, 32⟩
def CLK_FORCEj (j : Nat) : Reg := ⟨0x40020030 + 0x4 * j, 0x0⟩
def CLK_FORCEj_DOMAINS (j : Nat) : RF := ⟨CLK_FORCEj j, 0, 32⟩
def CLK_Dd_CTRL (d : Nat) : Reg := ⟨0x40021000 + 0x8 * d, 0x0 + (if d = 21 ∨ d = 22 ∨ d = 93 ∨ d = 100 then 1 else 0)⟩
def CLK_Dd_CTRL_CLRFAULT (d : Nat) : RF := ⟨CLK_Dd_CTRL d, 3, 1⟩
def CLK_Dd_CTRL_BREAK (d : Nat) : RF := ⟨CLK_Dd_CTRL d, 2, 1⟩
def CLK_Dd_CTRL_HOLD_RESET (d : Nat) : RF := ⟨CLK_Dd_CTRL d, 1, 1⟩
def CLK_Dd_CTRL_SEL (d : Nat) : RF := ⟨CLK_Dd_CTRL d, 0, 1⟩
def CLK_Dd_STATUS (d : Nat) : Reg := ⟨0x40021004 + 0x8 * d, 0x0⟩
def CLK_Dd_STATUS_STARTS (d : Nat) : RF := ⟨CLK_Dd_STATUS d, 24, 8⟩
def CLK_Dd_STATUS_BREAK_REFUSED (d : Nat) : RF := ⟨CLK_Dd_STATUS d, 10, 1⟩
def CLK_Dd_STATUS_MODE (d : Nat) : RF := ⟨CLK_Dd_STATUS d, 8, 2⟩
def CLK_Dd_STATUS_HELD (d : Nat) : RF := ⟨CLK_Dd_STATUS d, 7, 1⟩
def CLK_Dd_STATUS_IN_RESET (d : Nat) : RF := ⟨CLK_Dd_STATUS d, 6, 1⟩
def CLK_Dd_STATUS_FORCING (d : Nat) : RF := ⟨CLK_Dd_STATUS d, 5, 1⟩
def CLK_Dd_STATUS_SRC_FAIL (d : Nat) : RF := ⟨CLK_Dd_STATUS d, 4, 1⟩
def CLK_Dd_STATUS_HANG (d : Nat) : RF := ⟨CLK_Dd_STATUS d, 3, 1⟩
def CLK_Dd_STATUS_HANG_LIVE (d : Nat) : RF := ⟨CLK_Dd_STATUS d, 2, 1⟩
def CLK_Dd_STATUS_SWITCHING (d : Nat) : RF := ⟨CLK_Dd_STATUS d, 1, 1⟩
def CLK_Dd_STATUS_RUNNING (d : Nat) : RF := ⟨CLK_Dd_STATUS d, 0, 1⟩
def PWR_CTRL : Reg := ⟨0x40030000, 0x0⟩
def PWR_CTRL_KEY : RF := ⟨PWR_CTRL, 8, 8⟩
def PWR_CTRL_TARGET : RF := ⟨PWR_CTRL, 0, 2⟩
def PWR_STATUS : Reg := ⟨0x40030004, 0x0⟩
def PWR_STATUS_REFUSE : RF := ⟨PWR_STATUS, 20, 4⟩
def PWR_STATUS_REFUSED : RF := ⟨PWR_STATUS, 16, 1⟩
def PWR_STATUS_ENTERING : RF := ⟨PWR_STATUS, 2, 1⟩
def PWR_STATUS_STATE : RF := ⟨PWR_STATUS, 0, 2⟩
def PWR_WAKE_EN : Reg := ⟨0x40030008, 0x0⟩
def PWR_WAKE_EN_RTC : RF := ⟨PWR_WAKE_EN, 1, 1⟩
def PWR_WAKE_EN_WAKE_N : RF := ⟨PWR_WAKE_EN, 0, 1⟩
def PWR_WAKE_CAUSE : Reg := ⟨0x4003000C, 0x0⟩
def PWR_WAKE_CAUSE_RET_LOST : RF := ⟨PWR_WAKE_CAUSE, 7, 1⟩
def PWR_WAKE_CAUSE_FROM : RF := ⟨PWR_WAKE_CAUSE, 2, 2⟩
def PWR_WAKE_CAUSE_RTC : RF := ⟨PWR_WAKE_CAUSE, 1, 1⟩
def PWR_WAKE_CAUSE_WAKE_N : RF := ⟨PWR_WAKE_CAUSE, 0, 1⟩
def PWR_SUP_LIVE : Reg := ⟨0x40030010, 0x0⟩
def PWR_SUP_LIVE_VDDIO : RF := ⟨PWR_SUP_LIVE, 8, 8⟩
def PWR_SUP_LIVE_CORE : RF := ⟨PWR_SUP_LIVE, 0, 7⟩
def PWR_SUP_LATCH : Reg := ⟨0x40030014, 0x0⟩
def PWR_SUP_LATCH_VDDIO : RF := ⟨PWR_SUP_LATCH, 8, 8⟩
def PWR_SUP_LATCH_CORE : RF := ⟨PWR_SUP_LATCH, 0, 7⟩
def PWR_SUP_LAST : Reg := ⟨0x40030018, 0x0⟩
def PWR_SUP_LAST_VDDIO : RF := ⟨PWR_SUP_LAST, 8, 8⟩
def PWR_SUP_LAST_CORE : RF := ⟨PWR_SUP_LAST, 0, 7⟩
def PWR_RTC_LO : Reg := ⟨0x40030020, 0x0⟩
def PWR_RTC_LO_RTC_LO : RF := ⟨PWR_RTC_LO, 0, 32⟩
def PWR_RTC_HI : Reg := ⟨0x40030024, 0x0⟩
def PWR_RTC_HI_RTC_HI : RF := ⟨PWR_RTC_HI, 0, 16⟩
def PWR_ALM_HI : Reg := ⟨0x4003002C, 0x0⟩
def PWR_ALM_HI_RTC_HI : RF := ⟨PWR_ALM_HI, 0, 16⟩
def PWR_ALM_LO : Reg := ⟨0x40030028, 0x0⟩
def PWR_ALM_LO_ALM_LO : RF := ⟨PWR_ALM_LO, 0, 32⟩
def PWR_RTC_CTRL : Reg := ⟨0x40030030, 0x0⟩
def PWR_RTC_CTRL_TRIM : RF := ⟨PWR_RTC_CTRL, 16, 16⟩
def PWR_RTC_CTRL_XTAL32_FAIL : RF := ⟨PWR_RTC_CTRL, 3, 1⟩
def PWR_RTC_CTRL_VALID : RF := ⟨PWR_RTC_CTRL, 2, 1⟩
def PWR_RTC_CTRL_ALARM : RF := ⟨PWR_RTC_CTRL, 1, 1⟩
def PWR_RTC_CTRL_ALM_EN : RF := ⟨PWR_RTC_CTRL, 0, 1⟩
def PWR_KEEPk (k : Nat) : Reg := ⟨0x40030040 + 0x4 * k, 0x0⟩
def PWR_KEEPk_DATA (k : Nat) : RF := ⟨PWR_KEEPk k, 0, 32⟩

/-! ### Registers of spec/22_redundancy_supervision_debug.md -/

def SUP_FAULT : Reg := ⟨0x40050000, 0x0⟩
def SUP_FAULT_RESTARTED : RF := ⟨SUP_FAULT, 11, 1⟩
def SUP_FAULT_CMPTEST : RF := ⟨SUP_FAULT, 10, 1⟩
def SUP_FAULT_HOG : RF := ⟨SUP_FAULT, 9, 1⟩
def SUP_FAULT_MEM_ERR : RF := ⟨SUP_FAULT, 8, 1⟩
def SUP_FAULT_DEBUG_BROKEN : RF := ⟨SUP_FAULT, 4, 4⟩
def SUP_FAULT_PAIR_FAIL : RF := ⟨SUP_FAULT, 0, 4⟩
def SUP_PAIRk_STATUS (k : Nat) : Reg := ⟨0x40050010 + 0x4 * k, 0x0⟩
def SUP_PAIRk_STATUS_GROUP (k : Nat) : RF := ⟨SUP_PAIRk_STATUS k, 6, 2⟩
def SUP_PAIRk_STATUS_STOPPED (k : Nat) : RF := ⟨SUP_PAIRk_STATUS k, 5, 1⟩
def SUP_PAIRk_STATUS_DEBUG_BROKEN (k : Nat) : RF := ⟨SUP_PAIRk_STATUS k, 4, 1⟩
def SUP_PAIRk_STATUS_FAILED (k : Nat) : RF := ⟨SUP_PAIRk_STATUS k, 3, 1⟩
def SUP_PAIRk_STATUS_COMPARING (k : Nat) : RF := ⟨SUP_PAIRk_STATUS k, 2, 1⟩
def SUP_PAIRk_STATUS_LOCKSTEP (k : Nat) : RF := ⟨SUP_PAIRk_STATUS k, 0, 1⟩
def SUP_FORCE_PWM : Reg := ⟨0x40050020, 0x0⟩
def SUP_FORCE_PWM_UNITS : RF := ⟨SUP_FORCE_PWM, 0, 32⟩
def SUP_FORCE_LINK : Reg := ⟨0x40050024, 0x0⟩
def SUP_FORCE_LINK_LINKS : RF := ⟨SUP_FORCE_LINK, 0, 32⟩
def SUP_FAULTOUT : Reg := ⟨0x40050028, 0x2⟩
def SUP_FAULTOUT_LIVE : RF := ⟨SUP_FAULTOUT, 1, 1⟩
def SUP_FAULTOUT_ASSERT : RF := ⟨SUP_FAULTOUT, 0, 1⟩
def SUP_WDT : Reg := ⟨0x40050030, 0x64⟩
def SUP_WDT_LOCK : RF := ⟨SUP_WDT, 31, 1⟩
def SUP_WDT_MIN : RF := ⟨SUP_WDT, 16, 10⟩
def SUP_WDT_MAX : RF := ⟨SUP_WDT, 0, 10⟩
def SUP_KICK : Reg := ⟨0x40050034, 0x0⟩
def SUP_KICK_KEY : RF := ⟨SUP_KICK, 0, 8⟩
def SUP_REC_STATUS : Reg := ⟨0x40050040, 0x0⟩
def SUP_REC_STATUS_TOTAL : RF := ⟨SUP_REC_STATUS, 24, 8⟩
def SUP_REC_STATUS_LRT_EXPIRED : RF := ⟨SUP_REC_STATUS, 14, 1⟩
def SUP_REC_STATUS_FORCE : RF := ⟨SUP_REC_STATUS, 13, 1⟩
def SUP_REC_STATUS_LAST_CAUSE : RF := ⟨SUP_REC_STATUS, 8, 4⟩
def SUP_REC_STATUS_ATTEMPTS : RF := ⟨SUP_REC_STATUS, 4, 2⟩
def SUP_REC_STATUS_STATE : RF := ⟨SUP_REC_STATUS, 0, 3⟩
def SUP_REC_CTRL : Reg := ⟨0x40050044, 0x0⟩
def SUP_REC_CTRL_KEY : RF := ⟨SUP_REC_CTRL, 8, 8⟩
def SUP_REC_CTRL_SELF_RESET : RF := ⟨SUP_REC_CTRL, 1, 1⟩
def SUP_REC_CTRL_RELEASE : RF := ⟨SUP_REC_CTRL, 0, 1⟩
def SUP_CMPTEST : Reg := ⟨0x40050050, 0x0⟩
def SUP_CMPTEST_DONE : RF := ⟨SUP_CMPTEST, 31, 1⟩
def SUP_CMPTEST_COMMIT : RF := ⟨SUP_CMPTEST, 5, 1⟩
def SUP_CMPTEST_SV : RF := ⟨SUP_CMPTEST, 4, 1⟩
def SUP_CMPTEST_PAIR : RF := ⟨SUP_CMPTEST, 0, 4⟩
def DBG_OPEN : Reg := ⟨0x404C0000, 0x0⟩
def DBG_OPEN_TAP_LIMITED : RF := ⟨DBG_OPEN, 9, 1⟩
def DBG_OPEN_PLATFORM : RF := ⟨DBG_OPEN, 8, 1⟩
def DBG_OPEN_PARTS : RF := ⟨DBG_OPEN, 0, 8⟩
def DBG_DAP_VIEW : Reg := ⟨0x404C0004, 0xF⟩
def DBG_DAP_VIEW_VIEW : RF := ⟨DBG_DAP_VIEW, 0, 4⟩
def DBG_AUTH_CTRL : Reg := ⟨0x404C0010, 0x0⟩
def DBG_AUTH_CTRL_PLAT : RF := ⟨DBG_AUTH_CTRL, 16, 1⟩
def DBG_AUTH_CTRL_PARTS : RF := ⟨DBG_AUTH_CTRL, 8, 8⟩
def DBG_AUTH_CTRL_KEY_INDEX : RF := ⟨DBG_AUTH_CTRL, 6, 2⟩
def DBG_AUTH_CTRL_CLOSE : RF := ⟨DBG_AUTH_CTRL, 2, 1⟩
def DBG_AUTH_CTRL_VERIFY : RF := ⟨DBG_AUTH_CTRL, 1, 1⟩
def DBG_AUTH_CTRL_CHALLENGE : RF := ⟨DBG_AUTH_CTRL, 0, 1⟩
def DBG_AUTH_STATUS : Reg := ⟨0x404C0014, 0x0⟩
def DBG_AUTH_STATUS_GRANT_PARTS : RF := ⟨DBG_AUTH_STATUS, 16, 8⟩
def DBG_AUTH_STATUS_GRANT_PLAT : RF := ⟨DBG_AUTH_STATUS, 15, 1⟩
def DBG_AUTH_STATUS_FAILS : RF := ⟨DBG_AUTH_STATUS, 8, 3⟩
def DBG_AUTH_STATUS_LOCKED_OUT : RF := ⟨DBG_AUTH_STATUS, 3, 1⟩
def DBG_AUTH_STATUS_STATE : RF := ⟨DBG_AUTH_STATUS, 0, 3⟩
def DBG_AUTH_NONCEj (j : Nat) : Reg := ⟨0x404C0020 + 0x4 * j, 0x0⟩
def DBG_AUTH_NONCEj_BYTES (j : Nat) : RF := ⟨DBG_AUTH_NONCEj j, 0, 32⟩
def DBG_AUTH_KEYj (j : Nat) : Reg := ⟨0x404C0040 + 0x4 * j, 0x0⟩
def DBG_AUTH_KEYj_BYTES (j : Nat) : RF := ⟨DBG_AUTH_KEYj j, 0, 32⟩
def DBG_AUTH_SIGj (j : Nat) : Reg := ⟨0x404C0080 + 0x4 * j, 0x0⟩
def DBG_AUTH_SIGj_BYTES (j : Nat) : RF := ⟨DBG_AUTH_SIGj j, 0, 32⟩
def DBG_Cc_CTRL (c : Nat) : Reg := ⟨0x404C1000 + 0x40 * c, 0x0⟩
def DBG_Cc_CTRL_HALT_ON_BRK (c : Nat) : RF := ⟨DBG_Cc_CTRL c, 3, 1⟩
def DBG_Cc_CTRL_STEP (c : Nat) : RF := ⟨DBG_Cc_CTRL c, 2, 1⟩
def DBG_Cc_CTRL_RESUME (c : Nat) : RF := ⟨DBG_Cc_CTRL c, 1, 1⟩
def DBG_Cc_CTRL_HALT (c : Nat) : RF := ⟨DBG_Cc_CTRL c, 0, 1⟩
def DBG_Cc_STATUS (c : Nat) : Reg := ⟨0x404C1004 + 0x40 * c, 0x0⟩
def DBG_Cc_STATUS_REFUSED (c : Nat) : RF := ⟨DBG_Cc_STATUS c, 8, 1⟩
def DBG_Cc_STATUS_CAUSE (c : Nat) : RF := ⟨DBG_Cc_STATUS c, 4, 4⟩
def DBG_Cc_STATUS_OPEN (c : Nat) : RF := ⟨DBG_Cc_STATUS c, 3, 1⟩
def DBG_Cc_STATUS_STATE (c : Nat) : RF := ⟨DBG_Cc_STATUS c, 0, 3⟩
def DBG_Cc_REGSEL (c : Nat) : Reg := ⟨0x404C1008 + 0x40 * c, 0x0⟩
def DBG_Cc_REGSEL_REG (c : Nat) : RF := ⟨DBG_Cc_REGSEL c, 0, 8⟩
def DBG_Cc_DATA (c : Nat) : Reg := ⟨0x404C100C + 0x40 * c, 0x0⟩
def DBG_Cc_DATA_DATA (c : Nat) : RF := ⟨DBG_Cc_DATA c, 0, 32⟩
def DBG_Cc_BPk (c k : Nat) : Reg := ⟨0x404C1010 + 0x40 * c + 0x4 * k, 0x0⟩
def DBG_Cc_BPk_ADDR (c k : Nat) : RF := ⟨DBG_Cc_BPk c k, 1, 31⟩
def DBG_Cc_BPk_EN (c k : Nat) : RF := ⟨DBG_Cc_BPk c k, 0, 1⟩

/-! ### Registers of spec/23_reset_boot_lifecycle.md -/

def RST_CAUSE : Reg := ⟨0x40040000, 0x1⟩
def RST_CAUSE_LAST : RF := ⟨RST_CAUSE, 16, 3⟩
def RST_CAUSE_CAUSES : RF := ⟨RST_CAUSE, 0, 7⟩
def RST_CTRL : Reg := ⟨0x40040004, 0x0⟩
def RST_CTRL_KEY : RF := ⟨RST_CTRL, 8, 8⟩
def RST_CTRL_DEVICE : RF := ⟨RST_CTRL, 0, 1⟩
def RST_BOOT : Reg := ⟨0x40040008, 0x1⟩
def RST_BOOT_BOOT_TIME : RF := ⟨RST_BOOT, 16, 16⟩
def RST_BOOT_JOURNAL_REBUILT : RF := ⟨RST_BOOT, 8, 1⟩
def RST_BOOT_RETURN_ERASED : RF := ⟨RST_BOOT, 7, 1⟩
def RST_BOOT_PLL_WAIT : RF := ⟨RST_BOOT, 6, 1⟩
def RST_BOOT_RCV_STRAP : RF := ⟨RST_BOOT, 5, 1⟩
def RST_BOOT_RECOVERY : RF := ⟨RST_BOOT, 4, 1⟩
def RST_BOOT_PHASE : RF := ⟨RST_BOOT, 0, 4⟩
def RST_COUNT : Reg := ⟨0x4004000C, 0x0⟩
def RST_COUNT_COUNT : RF := ⟨RST_COUNT, 0, 32⟩
def LCS_STATE : Reg := ⟨0x40060000, 0x0⟩
def LCS_STATE_ENT_FAIL : RF := ⟨LCS_STATE, 4, 1⟩
def LCS_STATE_RETURN_CLEAN : RF := ⟨LCS_STATE, 3, 1⟩
def LCS_STATE_STATE : RF := ⟨LCS_STATE, 0, 3⟩
def LCS_KEYS : Reg := ⟨0x40060004, 0x0⟩
def LCS_KEYS_RUNNING : RF := ⟨LCS_KEYS, 8, 2⟩
def LCS_KEYS_REVOKED : RF := ⟨LCS_KEYS, 4, 4⟩
def LCS_KEYS_PROVISIONED : RF := ⟨LCS_KEYS, 0, 4⟩
def LCS_CTRL : Reg := ⟨0x40060008, 0x0⟩
def LCS_CTRL_TARGET : RF := ⟨LCS_CTRL, 20, 3⟩
def LCS_CTRL_SLOT : RF := ⟨LCS_CTRL, 16, 2⟩
def LCS_CTRL_KEY : RF := ⟨LCS_CTRL, 8, 8⟩
def LCS_CTRL_OP : RF := ⟨LCS_CTRL, 0, 4⟩
def LCS_REQ : Reg := ⟨0x4006000C, 0x0⟩
def LCS_REQ_CODE : RF := ⟨LCS_REQ, 8, 8⟩
def LCS_REQ_DONE : RF := ⟨LCS_REQ, 1, 1⟩
def LCS_REQ_BUSY : RF := ⟨LCS_REQ, 0, 1⟩
def LCS_TOKEN_ADDR : Reg := ⟨0x40060010, 0x0⟩
def LCS_TOKEN_ADDR_ADDR : RF := ⟨LCS_TOKEN_ADDR, 2, 30⟩
def LCS_ID_LO : Reg := ⟨0x40060018, 0x0⟩
def LCS_ID_LO_SERIAL : RF := ⟨LCS_ID_LO, 0, 32⟩
def LCS_ID_HI : Reg := ⟨0x4006001C, 0x0⟩
def LCS_ID_HI_SERIAL : RF := ⟨LCS_ID_HI, 0, 32⟩
def LCS_PROV_HASHj (j : Nat) : Reg := ⟨0x40060040 + 0x4 * j, 0x0⟩
def LCS_PROV_HASHj_BYTES (j : Nat) : RF := ⟨LCS_PROV_HASHj j, 0, 32⟩
def LCS_KEYk_HASHj (k j : Nat) : Reg := ⟨0x40060100 + 0x20 * k + 0x4 * j, 0x0⟩
def LCS_KEYk_HASHj_BYTES (k j : Nat) : RF := ⟨LCS_KEYk_HASHj k j, 0, 32⟩

/-- Part 0 of the register table. -/
def regTab0 : List RegClass :=
  [ ⟨"SCFG_STATUS", 0x40000000, [], .dev, 0xFF0003, 0x0, 0x300, 0x0, 0x0, 0x0, 0x0⟩,
    ⟨"SCFG_BOOT_CODE", 0x40000004, [], .dev, 0x0, 0x0, 0x0, 0x0, 0x0, 0x0, 0x0⟩,
    ⟨"SCFG_SEQ", 0x40000008, [], .dev, 0x0, 0x0, 0x0, 0x0, 0x0, 0x0, 0xFFFFFFFF⟩,
    ⟨"SCFG_FLOOR", 0x4000000C, [], .dev, 0x0, 0x0, 0x0, 0x0, 0x0, 0x0, 0xFFFFFFFF⟩,
    ⟨"SCFG_FLOOR_CTRL", 0x40000010, [], .dev, 0x0, 0x0, 0x0, 0x0, 0x0, 0xFF01, 0x0⟩,
    ⟨"SCFG_CHK_CODE", 0x40000014, [], .dev, 0x0, 0x0, 0x0, 0x0, 0x0, 0x0, 0x0⟩,
    ⟨"SCFG_CHK_OFFSET", 0x40000018, [], .dev, 0x0, 0x0, 0x0, 0x0, 0x0, 0x0, 0x0⟩,
    ⟨"SCFG_DIG_SEL", 0x40000020, [], .dev, 0x0, 0xF, 0x0, 0x0, 0x0, 0x0, 0x0⟩,
    ⟨"SCFG_DIGk", 0x40000024, [(0x4, 8)], .dev, 0x0, 0x0, 0x0, 0x0, 0x0, 0x0, 0xFFFFFFFF⟩,
    ⟨"SCFG_RQn_ADDR", 0x40000100, [(0x20, 8)], .part, 0x0, 0xFFFFFFC0, 0x0, 0x0, 0x0, 0x0, 0x0⟩,
    ⟨"SCFG_RQn_LEN", 0x40000104, [(0x20, 8)], .part, 0x0, 0x7FFFFC, 0x0, 0x0, 0x0, 0x0, 0x0⟩,
    ⟨"SCFG_RQn_CTRL", 0x40000108, [(0x20, 8)], .part, 0x0, 0x0, 0x0, 0x0, 0x0, 0x3, 0x0⟩,
    ⟨"SCFG_RQn_STAT", 0x4000010C, [(0x20, 8)], .part, 0x0, 0x0, 0x0, 0x0, 0x0, 0x0, 0x0⟩,
    ⟨"FCV_Gg_STATUS", 0x40100000, [(0x10, 3)], .dev, 0x800, 0x0, 0x0, 0x0, 0x0, 0x0, 0x0⟩,
    ⟨"FCV_Gg_CAL_CTRL", 0x40100004, [(0x10, 3)], .dev, 0x0, 0x1, 0x0, 0x0, 0x0, 0x0, 0x0⟩,
    ⟨"FCV_CHn_CFG", 0x40101000, [(0x100, 24)], .dev, 0x0, 0x0, 0x0, 0x0, 0x0, 0x0, 0xFFFFFCFF⟩,
    ⟨"FCV_CHn_TRIG", 0x40101004, [(0x100, 24)], .part, 0x0, 0x0, 0x0, 0x0, 0xFFFF0007, 0x0, 0x0⟩,
    ⟨"FCV_CHn_PHASE", 0x40101008, [(0x100, 24)], .part, 0x0, 0x0, 0x0, 0x0, 0x7F, 0x0, 0x0⟩,
    ⟨"FCV_CHn_TMOD", 0x4010100C, [(0x100, 24)], .part, 0x0, 0x0, 0x0, 0x0, 0xFFFFFFFF, 0x0, 0x0⟩,
    ⟨"FCV_CHn_TPHASE", 0x40101010, [(0x100, 24)], .part, 0x0, 0x0, 0x0, 0x0, 0xFFFFFFFF, 0x0, 0x0⟩,
    ⟨"FCV_CHn_FIRE", 0x40101014, [(0x100, 24)], .part, 0x0, 0x0, 0x0, 0x0, 0x0, 0x1, 0x0⟩,
    ⟨"FCV_CHn_COMMIT", 0x40101018, [(0x100, 24)], .part, 0x0, 0x0, 0x0, 0x0, 0x0, 0x1, 0x0⟩,
    ⟨"FCV_CHn_DMA", 0x4010101C, [(0x100, 24)], .part, 0x100, 0xFF0F, 0x0, 0x0, 0x0, 0x0, 0x0⟩,
    ⟨"FCV_CHn_STATUS", 0x40101020, [(0x100, 24)], .part, 0x40, 0x0, 0x3E, 0x0, 0x0, 0x0, 0x0⟩ ]

/-- Part 1 of the register table. -/
def regTab1 : List RegClass :=
  [ ⟨"FCV_CHn_DROPCNT", 0x40101024, [(0x100, 24)], .part, 0x0, 0xFFFFFFFF, 0x0, 0x0, 0x0, 0x0, 0x0⟩,
    ⟨"FCV_CHn_LAST", 0x40101028, [(0x100, 24)], .part, 0x0, 0x0, 0x0, 0x0, 0x0, 0x0, 0x0⟩,
    ⟨"FCV_CHn_LAST_TIME_LO", 0x4010102C, [(0x100, 24)], .part, 0x0, 0x0, 0x0, 0x0, 0x0, 0x0, 0x0⟩,
    ⟨"FCV_CHn_LAST_TIME_HI", 0x40101030, [(0x100, 24)], .part, 0x0, 0x0, 0x0, 0x0, 0x0, 0x0, 0x0⟩,
    ⟨"CMP_Cc_CTRL", 0x40120000, [(0x20, 48)], .dev, 0x0, 0x1D, 0x0, 0x2, 0x0, 0x0, 0x0⟩,
    ⟨"CMP_Cc_THR", 0x40120004, [(0x20, 48)], .dev, 0x0, 0x3FF, 0x0, 0x0, 0x0, 0x0, 0x0⟩,
    ⟨"CMP_Cc_STATUS", 0x40120008, [(0x20, 48)], .dev, 0x0, 0x0, 0x2, 0x0, 0x0, 0x0, 0x0⟩,
    ⟨"CMP_Cc_TEST", 0x4012000C, [(0x20, 48)], .dev, 0x0, 0x0, 0x0, 0x0, 0x0, 0x1, 0x0⟩,
    ⟨"SCV_Ck_CTRL", 0x40110000, [(0x20, 4)], .dev, 0x1, 0xFFFF0003, 0x0, 0x0, 0x0, 0x0, 0x0⟩,
    ⟨"SCV_Ck_STATUS", 0x40110004, [(0x20, 4)], .dev, 0x0, 0x0, 0xC, 0x0, 0x0, 0x0, 0x0⟩,
    ⟨"SCV_Ck_MASK", 0x40110008, [(0x20, 4)], .dev, 0x0, 0x0, 0x0, 0x0, 0x0, 0x0, 0x0⟩,
    ⟨"SCV_WIN_LIVEj", 0x40110080, [(0x4, 3)], .dev, 0x0, 0x0, 0x0, 0x0, 0x0, 0x0, 0x0⟩,
    ⟨"SCV_CHn_CFG", 0x40111000, [(0x40, 80)], .part, 0x0, 0xFFF7, 0x0, 0x0, 0x0, 0x0, 0xFF0000⟩,
    ⟨"SCV_CHn_RESULT", 0x40111004, [(0x40, 80)], .part, 0x0, 0x0, 0x0, 0x0, 0x0, 0x0, 0x0⟩,
    ⟨"SCV_CHn_WIN_LO", 0x40111008, [(0x40, 80)], .part, 0x0, 0xFFFFFF, 0x0, 0x0, 0x0, 0x0, 0x0⟩,
    ⟨"SCV_CHn_WIN_HI", 0x4011100C, [(0x40, 80)], .part, 0xFFFFFF, 0xFFFFFF, 0x0, 0x0, 0x0, 0x0, 0x0⟩,
    ⟨"SCV_CHn_STATUS", 0x40111010, [(0x40, 80)], .part, 0x0, 0x0, 0xF, 0x0, 0x0, 0x0, 0x0⟩,
    ⟨"LNC_Ln_STATUS", 0x40140000, [(0x1000, 16)], .lane, 0x0, 0x0, 0xC, 0x0, 0x0, 0x0, 0x0⟩,
    ⟨"LNC_Ln_FAULT", 0x40140004, [(0x1000, 16)], .part, 0x0, 0x0, 0x0, 0x0, 0x0, 0x0, 0x0⟩,
    ⟨"LNC_Ln_FAULT_PC", 0x40140008, [(0x1000, 16)], .part, 0x0, 0x0, 0x0, 0x0, 0x0, 0x0, 0x0⟩,
    ⟨"LNC_Ln_ACTCNT", 0x4014000C, [(0x1000, 16)], .lane, 0x0, 0x0, 0x0, 0x0, 0x0, 0x0, 0x0⟩,
    ⟨"LNC_Ln_CTRL", 0x40140010, [(0x1000, 16)], .lane, 0x0, 0x0, 0x0, 0x0, 0x0, 0x3, 0x0⟩,
    ⟨"LNC_LATEDROP", 0x40150000, [], .dev, 0x0, 0xFFFFFFFF, 0x0, 0x0, 0x0, 0x0, 0x0⟩,
    ⟨"LNC_Bb_MAP", 0x40151000, [(0x40, 64)], .part, 0x0, 0x0, 0x0, 0x0, 0x0, 0x0, 0x9FFFFFFF⟩ ]

/-- Part 2 of the register table. -/
def regTab2 : List RegClass :=
  [ ⟨"LNC_Bb_DEST", 0x40151004, [(0x40, 64)], .part, 0x0, 0x0, 0x0, 0x0, 0x0, 0x0, 0xDFDFDFDF⟩,
    ⟨"LNC_Bb_ENTRY", 0x40151008, [(0x40, 64)], .part, 0x0, 0x0, 0x0, 0x0, 0x0, 0x0, 0xFFFF⟩,
    ⟨"LNC_Bb_CTRL", 0x4015100C, [(0x40, 64)], .part, 0x1001, 0xFFFFFF01, 0x0, 0x0, 0x0, 0x0, 0x0⟩,
    ⟨"LNC_Bb_WAIT", 0x40151010, [(0x40, 64)], .part, 0x0, 0xFFFF00FF, 0x0, 0x0, 0x0, 0x0, 0x0⟩,
    ⟨"LNC_Bb_POSSEL", 0x40151014, [(0x40, 64)], .part, 0x0, 0x1F1F, 0x0, 0x0, 0x0, 0x0, 0x0⟩,
    ⟨"LNC_Bb_CMD", 0x40151018, [(0x40, 64)], .part, 0x0, 0x0, 0x0, 0x0, 0x0, 0xF, 0x0⟩,
    ⟨"LNC_Bb_STATUS", 0x4015101C, [(0x40, 64)], .part, 0x0, 0x0, 0x17E, 0x0, 0x0, 0x0, 0xFF000000⟩,
    ⟨"LNC_Bb_COUNTS", 0x40151020, [(0x40, 64)], .part, 0x0, 0x0, 0x0, 0x0, 0x0, 0x0, 0x0⟩,
    ⟨"PWM_Gg_STATUS", 0x40180000, [(0x10, 4)], .dev, 0x0, 0x0, 0x0, 0x0, 0x0, 0x0, 0x0⟩,
    ⟨"PWM_COMMIT_ALL", 0x40180100, [], .dev, 0x0, 0x0, 0x0, 0x0, 0x0, 0xFFFFFFFF, 0x0⟩,
    ⟨"PWM_Un_CFG", 0x40181000, [(0x100, 32)], .part, 0x0, 0x0, 0x0, 0x0, 0xFF01FF, 0x0, 0x0⟩,
    ⟨"PWM_Un_PERIOD", 0x40181004, [(0x100, 32)], .part, 0x27100, 0x0, 0x0, 0x0, 0xFFFFFFFF, 0x0, 0x0⟩,
    ⟨"PWM_Un_DEADTIME", 0x40181008, [(0x100, 32)], .part, 0x0, 0x0, 0x0, 0x0, 0xFFFFFFFF, 0x0, 0x0⟩,
    ⟨"PWM_Un_START_LO", 0x4018100C, [(0x100, 32)], .part, 0x0, 0x0, 0x0, 0x0, 0xFFFFFFFF, 0x0, 0x0⟩,
    ⟨"PWM_Un_START_HI", 0x40181010, [(0x100, 32)], .part, 0x0, 0x0, 0x0, 0x0, 0xFFFFFFFF, 0x0, 0x0⟩,
    ⟨"PWM_Un_COMMIT", 0x40181014, [(0x100, 32)], .part, 0x0, 0x0, 0x0, 0x0, 0x0, 0x1, 0x0⟩,
    ⟨"PWM_Un_CMP", 0x40181018, [(0x100, 32)], .part, 0x0, 0xFFFFFFFF, 0x0, 0x0, 0x0, 0x0, 0x0⟩,
    ⟨"PWM_Un_CMP_ACTIVE", 0x4018101C, [(0x100, 32)], .part, 0x0, 0x0, 0x0, 0x0, 0x0, 0x0, 0x0⟩,
    ⟨"PWM_Un_FORCE", 0x40181020, [(0x100, 32)], .part, 0x0, 0x1, 0x0, 0x0, 0x0, 0x0, 0x0⟩,
    ⟨"PWM_Un_LATCH", 0x40181024, [(0x100, 32)], .part, 0x0, 0x0, 0xF, 0x0, 0x0, 0x0, 0x0⟩,
    ⟨"PWM_Un_STATUS", 0x40181028, [(0x100, 32)], .part, 0x2000, 0x0, 0xE, 0x0, 0x0, 0x0, 0x0⟩,
    ⟨"PWM_Un_NEXT_LO", 0x4018102C, [(0x100, 32)], .part, 0x0, 0x0, 0x0, 0x0, 0x0, 0x0, 0x0⟩,
    ⟨"PWM_Un_NEXT_HI", 0x40181030, [(0x100, 32)], .part, 0x0, 0x0, 0x0, 0x0, 0x0, 0x0, 0x0⟩,
    ⟨"PWM_Un_PERIODS", 0x40181034, [(0x100, 32)], .part, 0x0, 0x0, 0x0, 0x0, 0x0, 0x0, 0x0⟩ ]

/-- Part 3 of the register table. -/
def regTab3 : List RegClass :=
  [ ⟨"PWM_Un_SAFE", 0x40181038, [(0x100, 32)], .dev, 0x0, 0x0, 0x0, 0x0, 0x0, 0x0, 0x3F⟩,
    ⟨"PWM_Un_TRIPSRC_LO", 0x4018103C, [(0x100, 32)], .dev, 0x0, 0x0, 0x0, 0x0, 0x0, 0x0, 0xFFFFFFFF⟩,
    ⟨"PWM_Un_TRIPSRC_HI", 0x40181040, [(0x100, 32)], .dev, 0x0, 0x0, 0x0, 0x0, 0x0, 0x0, 0xFFFF⟩,
    ⟨"FLK_QUAD_STATUS", 0x40200000, [], .dev, 0x0, 0x0, 0x0, 0x0, 0x0, 0x0, 0x0⟩,
    ⟨"FLK_Ln_CTRL", 0x40201000, [(0x400, 32)], .part, 0x0, 0x0, 0x0, 0x0, 0x0, 0x3F, 0x0⟩,
    ⟨"FLK_Ln_CFG", 0x40201004, [(0x400, 32)], .part, 0x100001, 0xFFF9FF, 0x0, 0x0, 0x0, 0x0, 0x0⟩,
    ⟨"FLK_Ln_IMAGE", 0x40201008, [(0x400, 32)], .part, 0x0, 0x0, 0x0, 0x0, 0x0, 0x0, 0xFF000F3F⟩,
    ⟨"FLK_Ln_LEAD", 0x4020100C, [(0x400, 32)], .part, 0x0, 0x0, 0x0, 0x0, 0x0, 0x0, 0xFFFFFFFF⟩,
    ⟨"FLK_Ln_STATUS", 0x40201010, [(0x400, 32)], .part, 0x0, 0x0, 0xF0, 0x0, 0x0, 0x0, 0x0⟩,
    ⟨"FLK_Ln_FORCE", 0x40201014, [(0x400, 32)], .part, 0x0, 0x1, 0x0, 0x0, 0x0, 0x0, 0x0⟩,
    ⟨"FLK_Ln_LATCH", 0x40201018, [(0x400, 32)], .part, 0x0, 0x0, 0x1, 0x0, 0x0, 0x0, 0x0⟩,
    ⟨"FLK_Ln_FORCESRC", 0x4020101C, [(0x400, 32)], .part, 0x81, 0x0, 0x0, 0x0, 0x0, 0x0, 0x0⟩,
    ⟨"FLK_Ln_QSTAT", 0x40201020, [(0x400, 32)], .part, 0x0, 0x0, 0x100, 0x0, 0x0, 0x0, 0x0⟩,
    ⟨"FLK_Ln_CMDDROP", 0x40201024, [(0x400, 32)], .part, 0x0, 0xFFFFFFFF, 0x0, 0x0, 0x0, 0x0, 0x0⟩,
    ⟨"FLK_Ln_ERRCNT", 0x40201028, [(0x400, 32)], .part, 0x0, 0x0, 0x0, 0x0, 0x0, 0x0, 0x0⟩,
    ⟨"FLK_Ln_ERRLOC", 0x4020102C, [(0x400, 32)], .part, 0x0, 0x0, 0x0, 0x0, 0x0, 0x0, 0x0⟩,
    ⟨"FLK_Ln_RTT", 0x40201030, [(0x400, 32)], .part, 0x0, 0x0, 0x0, 0x0, 0x0, 0x0, 0x0⟩,
    ⟨"FLK_Ln_MGMT_CMD", 0x40201080, [(0x400, 32)], .part, 0x0, 0xFFFFFFFC, 0x0, 0x0, 0x0, 0x1, 0x0⟩,
    ⟨"FLK_Ln_MGMT_STAT", 0x40201084, [(0x400, 32)], .part, 0x0, 0x0, 0xE, 0x0, 0x0, 0x0, 0x0⟩,
    ⟨"FLK_Ln_MGMT_DATAi", 0x40201088, [(0x400, 32), (0x4, 8)], .part, 0x0, 0xFFFFFFFF, 0x0, 0x0, 0x0, 0x0, 0x0⟩,
    ⟨"FLK_Ln_ASYMk", 0x40201100, [(0x400, 32), (0x4, 32)], .part, 0x0, 0xFFFF, 0x0, 0x0, 0x0, 0x0, 0x0⟩,
    ⟨"FLK_RECn_k_LO", 0x40210000, [(0x100, 32), (0x8, 32)], .part, 0x0, 0x0, 0x0, 0x0, 0x0, 0x0, 0x0⟩,
    ⟨"FLK_RECn_k_HI", 0x40210004, [(0x100, 32), (0x8, 32)], .part, 0xFF000000, 0x0, 0x0, 0x0, 0x0, 0x0, 0x0⟩,
    ⟨"FLK_OFSn_k", 0x40212000, [(0x80, 32), (0x4, 32)], .part, 0x0, 0x0, 0x0, 0x0, 0x0, 0x0, 0x0⟩ ]

/-- Part 4 of the register table. -/
def regTab4 : List RegClass :=
  [ ⟨"ABL_LEAD_SHORT", 0x40220000, [], .dev, 0x0, 0x0, 0x0, 0x0, 0x0, 0x0, 0x0⟩,
    ⟨"ABL_Ln_SWCMD", 0x40220100, [(0x10, 32)], .part, 0x0, 0xFFFFFF00, 0x0, 0x0, 0x0, 0x1, 0x0⟩,
    ⟨"ABL_Ln_SWAT", 0x40220104, [(0x10, 32)], .part, 0x0, 0xFFFFFFFF, 0x0, 0x0, 0x0, 0x0, 0x0⟩,
    ⟨"ABL_Ln_SWSTAT", 0x40220108, [(0x10, 32)], .part, 0x0, 0x0, 0x1, 0x0, 0x0, 0x0, 0x0⟩,
    ⟨"ABL_Ln_NEED", 0x4022010C, [(0x10, 32)], .part, 0x0, 0x0, 0x0, 0x0, 0x0, 0x0, 0x0⟩,
    ⟨"ABL_Aa_CTRL", 0x40221000, [(0x100, 32)], .part, 0x8000000, 0xFFFFFF07, 0x0, 0x0, 0x0, 0x8, 0x0⟩,
    ⟨"ABL_Aa_CFG", 0x40221004, [(0x100, 32)], .part, 0x0, 0x0, 0x0, 0x0, 0x0, 0x0, 0xFF⟩,
    ⟨"ABL_Aa_LINKS", 0x40221008, [(0x100, 32)], .part, 0x0, 0x0, 0x0, 0x0, 0x0, 0x0, 0xFFFFFFFF⟩,
    ⟨"ABL_Aa_NOMINAL", 0x4022100C, [(0x100, 32)], .part, 0x0, 0x0, 0x0, 0x0, 0x0, 0x0, 0xFFFFFFFF⟩,
    ⟨"ABL_Aa_REF", 0x40221010, [(0x100, 32)], .part, 0x0, 0x0, 0x0, 0x0, 0x0, 0x0, 0x0⟩,
    ⟨"ABL_Aa_STATUS", 0x40221014, [(0x100, 32)], .part, 0x0, 0x0, 0x6E, 0x0, 0x0, 0x0, 0x0⟩,
    ⟨"ABL_Aa_ROUNDS", 0x40221018, [(0x100, 32)], .part, 0x0, 0x0, 0x0, 0x0, 0x0, 0x0, 0x0⟩,
    ⟨"ABL_Aa_EXCLk", 0x40221020, [(0x100, 32), (0x4, 4)], .part, 0x0, 0xFFFFFFFF, 0x0, 0x0, 0x0, 0x0, 0x0⟩,
    ⟨"ABL_Aa_MODELk", 0x40221040, [(0x100, 32), (0x4, 16)], .part, 0x44444444, 0x0, 0x0, 0x0, 0x0, 0x0, 0x0⟩,
    ⟨"POS_Pn_CFG", 0x40241000, [(0x100, 16)], .part, 0x0, 0xFFFFFFF3, 0x0, 0x0, 0x0, 0x0, 0x0⟩,
    ⟨"POS_Pn_OFS", 0x40241004, [(0x100, 16)], .part, 0x0, 0xFFFF, 0x0, 0x0, 0x0, 0x0, 0x0⟩,
    ⟨"POS_Pn_TW", 0x40241008, [(0x100, 16)], .part, 0x40C103C, 0xFFFF37FF, 0x0, 0x0, 0x0, 0x0, 0x0⟩,
    ⟨"POS_Pn_SC", 0x4024100C, [(0x100, 16)], .part, 0x0, 0x7FFF07, 0x0, 0x0, 0x0, 0x0, 0x0⟩,
    ⟨"POS_Pn_AMP", 0x40241010, [(0x100, 16)], .part, 0xFFFF0000, 0xFFFFFFFF, 0x0, 0x0, 0x0, 0x0, 0x0⟩,
    ⟨"POS_Pn_SCOFS", 0x40241014, [(0x100, 16)], .part, 0x0, 0xFFFFFFFF, 0x0, 0x0, 0x0, 0x0, 0x0⟩,
    ⟨"POS_Pn_RAW", 0x40241018, [(0x100, 16)], .part, 0x0, 0x0, 0x0, 0x0, 0x0, 0x0, 0x0⟩,
    ⟨"POS_Pn_POS", 0x4024101C, [(0x100, 16)], .part, 0x0, 0x0, 0x0, 0x0, 0x0, 0x0, 0x0⟩,
    ⟨"POS_Pn_TIME_LO", 0x40241020, [(0x100, 16)], .part, 0x0, 0x0, 0x0, 0x0, 0x0, 0x0, 0x0⟩,
    ⟨"POS_Pn_TIME_HI", 0x40241024, [(0x100, 16)], .part, 0x0, 0x0, 0x0, 0x0, 0x0, 0x0, 0x0⟩ ]

/-- Part 5 of the register table. -/
def regTab5 : List RegClass :=
  [ ⟨"POS_Pn_SPEED", 0x40241028, [(0x100, 16)], .part, 0x0, 0x0, 0x0, 0x0, 0x0, 0x0, 0x0⟩,
    ⟨"POS_Pn_INFO", 0x4024102C, [(0x100, 16)], .part, 0x0, 0x0, 0x0, 0x0, 0x0, 0x0, 0x0⟩,
    ⟨"POS_Pn_STATUS", 0x40241030, [(0x100, 16)], .part, 0x0, 0x0, 0x1F, 0x0, 0x0, 0x0, 0x0⟩,
    ⟨"POS_Pn_PRB_CTRL", 0x40241034, [(0x100, 16)], .part, 0x0, 0x0, 0x6, 0x0, 0x0, 0x1, 0x0⟩,
    ⟨"POS_Pn_PRB_POS", 0x40241038, [(0x100, 16)], .part, 0x0, 0x0, 0x0, 0x0, 0x0, 0x0, 0x0⟩,
    ⟨"POS_Pn_PRB_PTIME_LO", 0x4024103C, [(0x100, 16)], .part, 0x0, 0x0, 0x0, 0x0, 0x0, 0x0, 0x0⟩,
    ⟨"POS_Pn_PRB_PTIME_HI", 0x40241040, [(0x100, 16)], .part, 0x0, 0x0, 0x0, 0x0, 0x0, 0x0, 0x0⟩,
    ⟨"POS_Pn_PRB_UTIME_LO", 0x40241044, [(0x100, 16)], .part, 0x0, 0x0, 0x0, 0x0, 0x0, 0x0, 0x0⟩,
    ⟨"POS_Pn_PRB_UTIME_HI", 0x40241048, [(0x100, 16)], .part, 0x0, 0x0, 0x0, 0x0, 0x0, 0x0, 0x0⟩,
    ⟨"POS_Pn_PRB_SPEED", 0x4024104C, [(0x100, 16)], .part, 0x0, 0x0, 0x0, 0x0, 0x0, 0x0, 0x0⟩,
    ⟨"POS_Pn_PRB_INFO", 0x40241050, [(0x100, 16)], .part, 0x0, 0x0, 0x0, 0x0, 0x0, 0x0, 0x0⟩,
    ⟨"CPS_EXC_INFO", 0xE0000000, [], .core, 0x0, 0x0, 0x0, 0x0, 0x0, 0x0, 0x0⟩,
    ⟨"CPS_FAULT_ADDR", 0xE0000004, [], .core, 0x0, 0x0, 0x0, 0x0, 0x0, 0x0, 0x0⟩,
    ⟨"CPS_NMI", 0xE0000008, [], .core, 0x0, 0x0, 0x0, 0x0, 0x0, 0x100, 0x0⟩,
    ⟨"CPS_IRQ_TOP", 0xE000000C, [], .core, 0x0, 0x0, 0x0, 0x0, 0x0, 0x0, 0x0⟩,
    ⟨"CPS_LOCKUP", 0xE0000010, [], .dev, 0x0, 0x0, 0x0, 0x0, 0x0, 0x0, 0x0⟩,
    ⟨"CPS_LOCKUP_PC", 0xE0000014, [], .dev, 0x0, 0x0, 0x0, 0x0, 0x0, 0x0, 0x0⟩,
    ⟨"CPS_IRQ_SETj", 0xE0000080, [(0x4, 8)], .core, 0x0, 0x0, 0x0, 0xFFFFFFFF, 0x0, 0x0, 0x0⟩,
    ⟨"CPS_IRQ_CLRj", 0xE00000A0, [(0x4, 8)], .core, 0x0, 0x0, 0xFFFFFFFF, 0x0, 0x0, 0x0, 0x0⟩,
    ⟨"CPS_IRQ_CFGn", 0xE0001000, [(0x4, 256)], .core, 0x20, 0x3F, 0x0, 0x0, 0x0, 0x0, 0x0⟩,
    ⟨"EVM_LOOPSUMj", 0x40280000, [(0x4, 8)], .dev, 0x0, 0x0, 0x0, 0x0, 0x0, 0x0, 0x0⟩,
    ⟨"EVM_OVRSUMj", 0x40280020, [(0x4, 8)], .dev, 0x0, 0x0, 0x0, 0x0, 0x0, 0x0, 0x0⟩,
    ⟨"EVM_PMERGEj", 0x40280040, [(0x4, 24)], .dev, 0x0, 0x0, 0xFFFFFFFF, 0x0, 0x0, 0x0, 0x0⟩,
    ⟨"EVM_Cc_CONS", 0x40281000, [(0x20, 256)], .dev, 0x0, 0x0, 0x0, 0x0, 0x0, 0x0, 0x8000FFFF⟩ ]

/-- Part 6 of the register table. -/
def regTab6 : List RegClass :=
  [ ⟨"EVM_Cc_STATUS", 0x40281004, [(0x20, 256)], .part, 0x0, 0x0, 0x33, 0x0, 0x0, 0x0, 0x0⟩,
    ⟨"EVM_Cc_FIRE", 0x40281008, [(0x20, 256)], .part, 0x0, 0x0, 0x0, 0x0, 0x0, 0x7F, 0x0⟩,
    ⟨"EVM_Cc_AT_LO", 0x4028100C, [(0x20, 256)], .part, 0x0, 0xFFFFFFFF, 0x0, 0x0, 0x0, 0x0, 0x0⟩,
    ⟨"EVM_Cc_AT_HI", 0x40281010, [(0x20, 256)], .part, 0x0, 0xFFFFFFFF, 0x0, 0x0, 0x0, 0x0, 0x0⟩,
    ⟨"EVM_Cc_COUNT", 0x40281014, [(0x20, 256)], .part, 0x0, 0x0, 0x0, 0x0, 0x0, 0x0, 0x0⟩,
    ⟨"EVM_Cc_ENj", 0x40284000, [(0x60, 256), (0x4, 24)], .dev, 0x0, 0x0, 0x0, 0x0, 0x0, 0x0, 0xFFFFFFFF⟩,
    ⟨"FSE_Pn_IMAGE", 0x40301000, [(0x100, 4)], .dev, 0x0, 0x0, 0x0, 0x0, 0x0, 0x0, 0x7FFFFFF7⟩,
    ⟨"FSE_Pn_CTRL", 0x40301004, [(0x100, 4)], .part, 0x4, 0xF, 0x0, 0x0, 0x0, 0x0, 0x0⟩,
    ⟨"FSE_Pn_TXLEVEL", 0x40301008, [(0x100, 4)], .part, 0x0, 0xFFFF7FFF, 0x0, 0x0, 0x0, 0x0, 0x0⟩,
    ⟨"FSE_Pn_CSMA", 0x4030100C, [(0x100, 4)], .part, 0x53283, 0xFFFFF, 0x0, 0x0, 0x0, 0x0, 0x0⟩,
    ⟨"FSE_Pn_ADDR", 0x40301010, [(0x100, 4)], .part, 0xFFFFFFFF, 0xFFFFFFFF, 0x0, 0x0, 0x0, 0x0, 0x0⟩,
    ⟨"FSE_Pn_EXT_LO", 0x40301014, [(0x100, 4)], .part, 0x0, 0xFFFFFFFF, 0x0, 0x0, 0x0, 0x0, 0x0⟩,
    ⟨"FSE_Pn_EXT_HI", 0x40301018, [(0x100, 4)], .part, 0x0, 0xFFFFFFFF, 0x0, 0x0, 0x0, 0x0, 0x0⟩,
    ⟨"FSE_Pn_TMTHR", 0x4030101C, [(0x100, 4)], .part, 0x402808, 0xFFFFFF, 0x0, 0x0, 0x0, 0x0, 0x0⟩,
    ⟨"FSE_Pn_TXBASE", 0x40301020, [(0x100, 4)], .part, 0x0, 0xFFFFFFE0, 0x0, 0x0, 0x0, 0x0, 0x0⟩,
    ⟨"FSE_Pn_TXSIZE", 0x40301024, [(0x100, 4)], .part, 0x0, 0x7FF, 0x0, 0x0, 0x0, 0x0, 0x0⟩,
    ⟨"FSE_Pn_TXRING", 0x40301028, [(0x100, 4)], .part, 0x0, 0x3FF, 0x0, 0x0, 0x0, 0x0, 0x0⟩,
    ⟨"FSE_Pn_STATUS", 0x40301030, [(0x100, 4)], .part, 0x0, 0x0, 0x3E, 0x0, 0x0, 0x0, 0x0⟩,
    ⟨"FSE_Pn_ERRCNT", 0x40301034, [(0x100, 4)], .part, 0x0, 0x0, 0x0, 0x0, 0x0, 0x0, 0x0⟩,
    ⟨"FSE_Pn_FRAMES", 0x40301038, [(0x100, 4)], .part, 0x0, 0x0, 0x0, 0x0, 0x0, 0x0, 0x0⟩,
    ⟨"FSE_Pn_FEED", 0x4030103C, [(0x100, 4)], .part, 0x0, 0x0, 0x0, 0x0, 0x0, 0x0, 0x0⟩,
    ⟨"FSE_Pn_LOOP", 0x40301080, [(0x100, 4)], .part, 0x0, 0x1, 0x0, 0x0, 0x0, 0x0, 0x0⟩,
    ⟨"SES_FREE", 0x40340000, [], .dev, 0x100000, 0x0, 0x0, 0x0, 0x0, 0x0, 0x0⟩,
    ⟨"SES_INDEX", 0x40340004, [], .dev, 0x0, 0x0, 0x100, 0x0, 0x0, 0x0, 0x0⟩ ]

/-- Part 7 of the register table. -/
def regTab7 : List RegClass :=
  [ ⟨"SES_LOOKUPS", 0x40340008, [], .dev, 0x0, 0x0, 0x0, 0x0, 0x0, 0x0, 0x0⟩,
    ⟨"SES_NOCTX", 0x4034000C, [], .dev, 0x0, 0x0, 0x0, 0x0, 0x0, 0x0, 0x0⟩,
    ⟨"SES_Pp_CMD", 0x40341000, [(0x400, 8)], .part, 0x0, 0xFF001F, 0x0, 0x0, 0x0, 0x80000000, 0x0⟩,
    ⟨"SES_Pp_CSTAT", 0x40341004, [(0x400, 8)], .part, 0x0, 0x0, 0x2, 0x0, 0x0, 0x0, 0x0⟩,
    ⟨"SES_Pp_CTX", 0x40341008, [(0x400, 8)], .part, 0x0, 0xFFFFF, 0x0, 0x0, 0x0, 0x0, 0x0⟩,
    ⟨"SES_Pp_ID_LO", 0x4034100C, [(0x400, 8)], .part, 0x0, 0xFFFFFFFF, 0x0, 0x0, 0x0, 0x0, 0x0⟩,
    ⟨"SES_Pp_ID_HI", 0x40341010, [(0x400, 8)], .part, 0x0, 0xFFFFFFFF, 0x0, 0x0, 0x0, 0x0, 0x0⟩,
    ⟨"SES_Pp_DATAi", 0x40341040, [(0x400, 8), (0x4, 12)], .part, 0x0, 0xFFFFFFFF, 0x0, 0x0, 0x0, 0x0, 0x0⟩,
    ⟨"SES_Pp_RXBASE", 0x40341080, [(0x400, 8)], .part, 0x0, 0xFFFFFFC0, 0x0, 0x0, 0x0, 0x0, 0x0⟩,
    ⟨"SES_Pp_RXSIZE", 0x40341084, [(0x400, 8)], .part, 0x0, 0x1FFF, 0x0, 0x0, 0x0, 0x0, 0x0⟩,
    ⟨"SES_Pp_RXPTR", 0x40341088, [(0x400, 8)], .part, 0x0, 0xFFF, 0x0, 0x0, 0x0, 0x0, 0x0⟩,
    ⟨"SES_Pp_RXCFG", 0x4034108C, [(0x400, 8)], .part, 0x1, 0x10FFF, 0x0, 0x0, 0x0, 0x0, 0x0⟩,
    ⟨"SES_Pp_RXSTAT", 0x40341090, [(0x400, 8)], .part, 0x0, 0x0, 0x0, 0x0, 0x0, 0x0, 0x0⟩,
    ⟨"SES_Pp_QUOTA", 0x403410A0, [(0x400, 8)], .dev, 0x0, 0x0, 0x0, 0x0, 0x0, 0x0, 0x1FFFFF⟩,
    ⟨"SES_Pp_USED", 0x403410A4, [(0x400, 8)], .dev, 0x0, 0x0, 0x0, 0x0, 0x0, 0x0, 0x0⟩,
    ⟨"SES_Pp_KEYk_Wj", 0x40341100, [(0x400, 8), (0x20, 8), (0x4, 4)], .dev, 0x0, 0x0, 0x0, 0x0, 0x0, 0xFFFFFFFF, 0x0⟩,
    ⟨"SES_Pp_KEYk_CTRL", 0x40341110, [(0x400, 8), (0x20, 8)], .dev, 0x0, 0xFF01, 0x0, 0x0, 0x0, 0x0, 0x0⟩,
    ⟨"SES_Pp_KEYk_TXFC", 0x40341114, [(0x400, 8), (0x20, 8)], .dev, 0x0, 0xFFFFFFFF, 0x0, 0x0, 0x0, 0x0, 0x0⟩,
    ⟨"SES_Pp_TMPLt_CFG", 0x40341200, [(0x400, 8), (0x20, 8)], .dev, 0x0, 0xC0FF07FF, 0x0, 0x0, 0x0, 0x0, 0x0⟩,
    ⟨"SES_Pp_TMPLt_MVAL_LO", 0x40341204, [(0x400, 8), (0x20, 8)], .dev, 0x0, 0xFFFFFFFF, 0x0, 0x0, 0x0, 0x0, 0x0⟩,
    ⟨"SES_Pp_TMPLt_MVAL_HI", 0x40341208, [(0x400, 8), (0x20, 8)], .dev, 0x0, 0xFFFFFFFF, 0x0, 0x0, 0x0, 0x0, 0x0⟩,
    ⟨"SES_Pp_TMPLt_MMASK_LO", 0x4034120C, [(0x400, 8), (0x20, 8)], .dev, 0x0, 0xFFFFFFFF, 0x0, 0x0, 0x0, 0x0, 0x0⟩,
    ⟨"SES_Pp_TMPLt_MMASK_HI", 0x40341210, [(0x400, 8), (0x20, 8)], .dev, 0x0, 0xFFFFFFFF, 0x0, 0x0, 0x0, 0x0, 0x0⟩,
    ⟨"SES_Pp_TMPLt_FIELDS", 0x40341214, [(0x400, 8), (0x20, 8)], .dev, 0x0, 0xFFFFFFFF, 0x0, 0x0, 0x0, 0x0, 0x0⟩ ]

/-- Part 8 of the register table. -/
def regTab8 : List RegClass :=
  [ ⟨"ETH_TIME_RATE", 0x40380000, [], .dev, 0x0, 0xFFFFFFFF, 0x0, 0x0, 0x0, 0x0, 0x0⟩,
    ⟨"ETH_TIME_LO", 0x40380004, [], .dev, 0x0, 0x0, 0x0, 0x0, 0x0, 0x0, 0x0⟩,
    ⟨"ETH_TIME_HI", 0x40380008, [], .dev, 0x0, 0x0, 0x0, 0x0, 0x0, 0x0, 0x0⟩,
    ⟨"ETH_PTP_OFS_LO", 0x4038000C, [], .dev, 0x0, 0xFFFFFFFF, 0x0, 0x0, 0x0, 0x0, 0x0⟩,
    ⟨"ETH_PTP_OFS_HI", 0x40380010, [], .dev, 0x0, 0xFFFFFFFF, 0x0, 0x0, 0x0, 0x0, 0x0⟩,
    ⟨"ETH_PTP_SEC_LO", 0x40380014, [], .dev, 0x0, 0xFFFFFFFF, 0x0, 0x0, 0x0, 0x0, 0x0⟩,
    ⟨"ETH_PTP_SEC_HI", 0x40380018, [], .dev, 0x0, 0xFFFF, 0x0, 0x0, 0x0, 0x0, 0x0⟩,
    ⟨"ETH_Pp_STATUS", 0x40381000, [(0x1000, 2)], .dev, 0x0, 0x0, 0x18, 0x0, 0x0, 0x0, 0x0⟩,
    ⟨"ETH_Pp_TSLAT", 0x40381004, [(0x1000, 2)], .dev, 0x0, 0xFFFFFFFF, 0x0, 0x0, 0x0, 0x0, 0x0⟩,
    ⟨"ETH_Pp_CAP_LO", 0x40381008, [(0x1000, 2)], .dev, 0x0, 0x0, 0x0, 0x0, 0x0, 0x0, 0x0⟩,
    ⟨"ETH_Pp_CAP_HI", 0x4038100C, [(0x1000, 2)], .dev, 0x0, 0x0, 0x0, 0x0, 0x0, 0x0, 0x0⟩,
    ⟨"ETH_Pp_DROPS", 0x40381010, [(0x1000, 2)], .dev, 0x0, 0x0, 0x0, 0x0, 0x0, 0x0, 0x0⟩,
    ⟨"ETH_Pp_RXSUM", 0x40381014, [(0x1000, 2)], .dev, 0x0, 0x0, 0x0, 0x0, 0x0, 0x0, 0x0⟩,
    ⟨"ETH_Pp_GCL_CTRL", 0x40381020, [(0x1000, 2)], .dev, 0x100, 0x7F01, 0x0, 0x0, 0x0, 0x2, 0x0⟩,
    ⟨"ETH_Pp_GCL_BASE_LO", 0x40381024, [(0x1000, 2)], .dev, 0x0, 0xFFFFFFFF, 0x0, 0x0, 0x0, 0x0, 0x0⟩,
    ⟨"ETH_Pp_GCL_BASE_HI", 0x40381028, [(0x1000, 2)], .dev, 0x0, 0xFFFFFFFF, 0x0, 0x0, 0x0, 0x0, 0x0⟩,
    ⟨"ETH_Pp_GCLk", 0x40381100, [(0x1000, 2), (0x4, 64)], .dev, 0xFF0003E8, 0xFFFFFFFF, 0x0, 0x0, 0x0, 0x0, 0x0⟩,
    ⟨"ETH_Pp_Rr_TXBASE", 0x40381400, [(0x1000, 2), (0x40, 9)], .part, 0x0, 0xFFFFFFF0, 0x0, 0x0, 0x0, 0x0, 0x0⟩,
    ⟨"ETH_Pp_Rr_RXBASE", 0x40381408, [(0x1000, 2), (0x40, 9)], .part, 0x0, 0xFFFFFFF0, 0x0, 0x0, 0x0, 0x0, 0x0⟩,
    ⟨"ETH_Pp_Rr_TXPTR", 0x40381404, [(0x1000, 2), (0x40, 9)], .part, 0x0, 0xFFF, 0x0, 0x0, 0x0, 0x0, 0x0⟩,
    ⟨"ETH_Pp_Rr_RXPTR", 0x4038140C, [(0x1000, 2), (0x40, 9)], .part, 0x0, 0xFFF, 0x0, 0x0, 0x0, 0x0, 0x0⟩,
    ⟨"ETH_Pp_Rr_SIZE", 0x40381410, [(0x1000, 2), (0x40, 9)], .part, 0x0, 0xFFF0FFF, 0x0, 0x0, 0x0, 0x0, 0x0⟩,
    ⟨"ETH_Pp_Rr_MAC_LO", 0x40381414, [(0x1000, 2), (0x40, 9)], .part, 0x0, 0xFFFFFFFF, 0x0, 0x0, 0x0, 0x0, 0x0⟩,
    ⟨"ETH_Pp_Rr_CTRL", 0x40381418, [(0x1000, 2), (0x40, 9)], .part, 0x1000000, 0xFF07FFFF, 0x0, 0x0, 0x0, 0x0, 0x0⟩ ]

/-- Part 9 of the register table. -/
def regTab9 : List RegClass :=
  [ ⟨"PCIE_LINKl_STATUS", 0x403C0000, [(0x4, 2)], .dev, 0x0, 0x0, 0x0, 0x0, 0x0, 0x0, 0x800⟩,
    ⟨"PCIE_IDENT", 0x403C0008, [], .dev, 0x94200000, 0x0, 0x0, 0x0, 0x0, 0x0, 0xFFFF⟩,
    ⟨"PCIE_Fn_STATUS", 0x403C1000, [(0x100, 8)], .dev, 0x0, 0x0, 0xE0, 0x0, 0x0, 0x0, 0x8F000000⟩,
    ⟨"PCIE_Fn_REFADDR", 0x403C1004, [(0x100, 8)], .dev, 0x0, 0x0, 0x0, 0x0, 0x0, 0x0, 0x0⟩,
    ⟨"PCIE_Fn_VREQ_LO", 0x403C1008, [(0x100, 8)], .part, 0x0, 0x0, 0x0, 0x0, 0x0, 0xFFFFFFFF, 0x0⟩,
    ⟨"PCIE_Fn_VREQ_HI", 0x403C100C, [(0x100, 8)], .part, 0x0, 0x0, 0x0, 0x0, 0x0, 0xFFFFFFFF, 0x0⟩,
    ⟨"PCIE_Fn_VMAPk", 0x403C1010, [(0x100, 8), (0x4, 3)], .part, 0x0, 0xBFBFBFBF, 0x0, 0x0, 0x0, 0x0, 0x0⟩,
    ⟨"PART_Pn_CFG", 0x40010000, [(0x40, 8)], .dev, 0x0, 0x0, 0x0, 0x0, 0x0, 0x0, 0x83FF00FF⟩,
    ⟨"PART_Pn_SRAM", 0x40010004, [(0x40, 8)], .dev, 0x0, 0x0, 0x0, 0x0, 0x0, 0x0, 0xFFFFFFFF⟩,
    ⟨"PART_Pn_FLASH", 0x40010008, [(0x40, 8)], .dev, 0x0, 0x0, 0x0, 0x0, 0x0, 0x0, 0xFFFF01FF⟩,
    ⟨"PART_Pn_LOCKS", 0x4001000C, [(0x40, 8)], .dev, 0x0, 0x0, 0x0, 0x0, 0x0, 0x0, 0x1FF00FF⟩,
    ⟨"PART_Pn_DMA", 0x40010010, [(0x40, 8)], .dev, 0x0, 0x0, 0x0, 0x0, 0x0, 0x0, 0xFFFFFFFF⟩,
    ⟨"PART_Pn_BOOT", 0x40010014, [(0x40, 8)], .dev, 0x0, 0x0, 0x0, 0x0, 0x0, 0x0, 0xFFFFFFFF⟩,
    ⟨"PART_Pn_STATE", 0x40010018, [(0x40, 8)], .dev, 0x0, 0x0, 0x0, 0x0, 0x0, 0x0, 0x7⟩,
    ⟨"PART_Pn_RSTCTRL", 0x4001001C, [(0x40, 8)], .dev, 0x0, 0x2, 0x0, 0x0, 0x0, 0x1, 0x0⟩,
    ⟨"PART_FENCE_INFO", 0x40010400, [], .dev, 0x0, 0x0, 0xC0000000, 0x0, 0x0, 0x0, 0x0⟩,
    ⟨"PART_FENCE_ADDR", 0x40010404, [], .dev, 0x0, 0x0, 0x0, 0x0, 0x0, 0x0, 0x0⟩,
    ⟨"PART_Pn_SELF", 0x40010800, [(0x20, 8)], .part, 0x0, 0x0, 0x0, 0x0, 0x0, 0xFF03, 0x0⟩,
    ⟨"PART_Pn_SELFSTAT", 0x40010804, [(0x20, 8)], .dev, 0x0, 0x0, 0x0, 0x0, 0x0, 0x0, 0x0⟩,
    ⟨"PART_Pn_LOCKERR", 0x40010808, [(0x20, 8)], .part, 0x0, 0x0, 0x100, 0x0, 0x0, 0x0, 0x0⟩,
    ⟨"PART_LOCKk_ACQ", 0x40011000, [(0x10, 256)], .dev, 0x3F000000, 0x0, 0x0, 0x0, 0x0, 0x0, 0x0⟩,
    ⟨"PART_LOCKk_CTRL", 0x40011004, [(0x10, 256)], .dev, 0x0, 0x0, 0x0, 0x0, 0x0, 0xF, 0x0⟩,
    ⟨"PART_LOCKk_STAT", 0x40011008, [(0x10, 256)], .dev, 0x3F000000, 0x0, 0x0, 0x0, 0x0, 0x0, 0x0⟩,
    ⟨"PART_LOCKk_LEASE", 0x4001100C, [(0x10, 256)], .part, 0x3E8, 0x1FFFF, 0x0, 0x0, 0x0, 0x0, 0x0⟩ ]

/-- Part 10 of the register table. -/
def regTab10 : List RegClass :=
  [ ⟨"MEMC_ERR_INFO", 0x40460000, [], .dev, 0x0, 0x0, 0xC0000000, 0x0, 0x0, 0x0, 0x0⟩,
    ⟨"MEMC_ERR_ADDR", 0x40460004, [], .dev, 0x0, 0x0, 0x0, 0x0, 0x0, 0x0, 0x0⟩,
    ⟨"MEMC_CORR", 0x40460008, [], .dev, 0x0, 0xFFFFFFFF, 0x0, 0x0, 0x0, 0x0, 0x0⟩,
    ⟨"MEMC_UNCORR", 0x4046000C, [], .dev, 0x0, 0xFFFFFFFF, 0x0, 0x0, 0x0, 0x0, 0x0⟩,
    ⟨"MEMC_PARCEL", 0x40460010, [], .dev, 0x0, 0xFFFFFFFF, 0x0, 0x0, 0x0, 0x0, 0x0⟩,
    ⟨"MEMC_INJ_ADDR", 0x40460020, [], .dev, 0x0, 0xFFFFFFC0, 0x0, 0x0, 0x0, 0x0, 0x0⟩,
    ⟨"MEMC_INJ_CTRL", 0x40460024, [], .dev, 0x0, 0x3, 0x0, 0x0, 0x0, 0x0, 0x0⟩,
    ⟨"DMA_RUNNING", 0x40400000, [], .dev, 0x0, 0x0, 0x0, 0x0, 0x0, 0x0, 0x0⟩,
    ⟨"DMA_Cn_CTRL", 0x40401000, [(0x40, 32)], .part, 0x0, 0x0, 0x0, 0x0, 0x0, 0x3, 0x0⟩,
    ⟨"DMA_Cn_CFG", 0x40401004, [(0x40, 32)], .part, 0x0, 0x3, 0x0, 0x0, 0x0, 0x0, 0x0⟩,
    ⟨"DMA_Cn_HEAD", 0x40401008, [(0x40, 32)], .part, 0x0, 0xFFFFFFE0, 0x0, 0x0, 0x0, 0x0, 0x0⟩,
    ⟨"DMA_Cn_CUR", 0x4040100C, [(0x40, 32)], .part, 0x0, 0x0, 0x0, 0x0, 0x0, 0x0, 0x0⟩,
    ⟨"DMA_Cn_STATUS", 0x40401010, [(0x40, 32)], .part, 0x0, 0x0, 0x0, 0x0, 0x0, 0x0, 0x0⟩,
    ⟨"DMA_Cn_DONE", 0x40401014, [(0x40, 32)], .part, 0x0, 0x0, 0x0, 0x0, 0x0, 0x0, 0x0⟩,
    ⟨"DMA_Cn_COUNT", 0x40401018, [(0x40, 32)], .part, 0x0, 0x0, 0x0, 0x0, 0x0, 0x0, 0x0⟩,
    ⟨"DMA_Cn_ERRADDR", 0x4040101C, [(0x40, 32)], .part, 0x0, 0x0, 0x0, 0x0, 0x0, 0x0, 0x0⟩,
    ⟨"DMA_Cn_REQ", 0x40401020, [(0x40, 32)], .part, 0x0, 0x0, 0x0, 0x0, 0x0, 0x1, 0x0⟩,
    ⟨"ARB_HOGSUM_LO", 0x40440000, [], .dev, 0x0, 0x0, 0xFFFFFFFF, 0x0, 0x0, 0x0, 0x0⟩,
    ⟨"ARB_HOGSUM_HI", 0x40440004, [], .dev, 0x0, 0x0, 0x3FFFF, 0x0, 0x0, 0x0, 0x0⟩,
    ⟨"ARB_COMMIT_LO", 0x40440010, [], .dev, 0x0, 0x0, 0x0, 0x0, 0x0, 0xFFFFFFFF, 0x0⟩,
    ⟨"ARB_COMMIT_HI", 0x40440014, [], .dev, 0x0, 0x0, 0x0, 0x0, 0x0, 0x3FFFF, 0x0⟩,
    ⟨"ARB_Aa_REQr", 0x40441000, [(0x100, 50), (0x4, 18)], .dev, 0x0, 0x0, 0x0, 0x0, 0x7FF, 0x0, 0x800007FF⟩,
    ⟨"ARB_Aa_COMMIT", 0x40441080, [(0x100, 50)], .dev, 0x0, 0x0, 0x0, 0x0, 0x0, 0x3, 0x0⟩,
    ⟨"ARB_Aa_STATUS", 0x40441084, [(0x100, 50)], .dev, 0x0, 0x0, 0x80000000, 0x0, 0x0, 0x0, 0x0⟩ ]

/-- Part 11 of the register table. -/
def regTab11 : List RegClass :=
  [ ⟨"ARB_Aa_CUT", 0x40441088, [(0x100, 50)], .dev, 0x0, 0x0, 0x3FFFF, 0x0, 0x0, 0x0, 0x0⟩,
    ⟨"ARB_Aa_BOUND", 0x4044108C, [(0x100, 50)], .dev, 0x0, 0x0, 0x0, 0x0, 0x0, 0x0, 0xFFFF⟩,
    ⟨"ARB_Aa_WAITMAX", 0x40441090, [(0x100, 50)], .dev, 0x0, 0x0, 0x0, 0x0, 0x0, 0x0, 0x0⟩,
    ⟨"CLK_SRC_STATUS", 0x40020000, [], .dev, 0x4, 0x0, 0x0, 0x0, 0x0, 0x0, 0x0⟩,
    ⟨"CLK_SRC_FAIL", 0x40020004, [], .dev, 0x0, 0x0, 0xFF03E7, 0x0, 0x0, 0x0, 0x0⟩,
    ⟨"CLK_PLL_CTRL", 0x40020008, [], .dev, 0x0, 0xFF0006, 0x0, 0x0, 0x0, 0x1, 0x0⟩,
    ⟨"CLK_RUNj", 0x40020010, [(0x4, 4)], .dev, 0x0, 0x0, 0x0, 0x0, 0x0, 0x0, 0x0⟩,
    ⟨"CLK_HELDj", 0x40020020, [(0x4, 4)], .dev, 0x0, 0x0, 0x0, 0x0, 0x0, 0x0, 0x0⟩,
    ⟨"CLK_FORCEj", 0x40020030, [(0x4, 4)], .dev, 0x0, 0x0, 0x0, 0x0, 0x0, 0x0, 0x0⟩,
    ⟨"CLK_Dd_CTRL", 0x40021000, [(0x8, 104)], .dev, 0x0, 0x3, 0x0, 0x0, 0x0, 0xC, 0x0⟩,
    ⟨"CLK_Dd_STATUS", 0x40021004, [(0x8, 104)], .dev, 0x0, 0x0, 0x400, 0x0, 0x0, 0x0, 0x380⟩,
    ⟨"PWR_CTRL", 0x40030000, [], .dev, 0x0, 0x0, 0x0, 0x0, 0x0, 0xFF03, 0x0⟩,
    ⟨"PWR_STATUS", 0x40030004, [], .dev, 0x0, 0x0, 0x10000, 0x0, 0x0, 0x0, 0x0⟩,
    ⟨"PWR_WAKE_EN", 0x40030008, [], .por, 0x0, 0x3, 0x0, 0x0, 0x0, 0x0, 0x0⟩,
    ⟨"PWR_WAKE_CAUSE", 0x4003000C, [], .por, 0x0, 0x0, 0x83, 0x0, 0x0, 0x0, 0x0⟩,
    ⟨"PWR_SUP_LIVE", 0x40030010, [], .dev, 0x0, 0x0, 0x0, 0x0, 0x0, 0x0, 0x0⟩,
    ⟨"PWR_SUP_LATCH", 0x40030014, [], .dev, 0x0, 0x0, 0xFF7F, 0x0, 0x0, 0x0, 0x0⟩,
    ⟨"PWR_SUP_LAST", 0x40030018, [], .por, 0x0, 0x0, 0xFF7F, 0x0, 0x0, 0x0, 0x0⟩,
    ⟨"PWR_RTC_LO", 0x40030020, [], .por, 0x0, 0xFFFFFFFF, 0x0, 0x0, 0x0, 0x0, 0x0⟩,
    ⟨"PWR_RTC_HI", 0x40030024, [], .por, 0x0, 0xFFFF, 0x0, 0x0, 0x0, 0x0, 0x0⟩,
    ⟨"PWR_ALM_HI", 0x4003002C, [], .por, 0x0, 0xFFFF, 0x0, 0x0, 0x0, 0x0, 0x0⟩,
    ⟨"PWR_ALM_LO", 0x40030028, [], .por, 0x0, 0xFFFFFFFF, 0x0, 0x0, 0x0, 0x0, 0x0⟩,
    ⟨"PWR_RTC_CTRL", 0x40030030, [], .por, 0x0, 0xFFFF0001, 0xA, 0x0, 0x0, 0x0, 0x0⟩,
    ⟨"PWR_KEEPk", 0x40030040, [(0x4, 8)], .por, 0x0, 0xFFFFFFFF, 0x0, 0x0, 0x0, 0x0, 0x0⟩ ]

/-- Part 12 of the register table. -/
def regTab12 : List RegClass :=
  [ ⟨"SUP_FAULT", 0x40050000, [], .dev, 0x0, 0x0, 0x8FF, 0x0, 0x0, 0x0, 0x0⟩,
    ⟨"SUP_PAIRk_STATUS", 0x40050010, [(0x4, 4)], .dev, 0x0, 0x0, 0x0, 0x0, 0x0, 0x0, 0x1⟩,
    ⟨"SUP_FORCE_PWM", 0x40050020, [], .dev, 0x0, 0xFFFFFFFF, 0x0, 0x0, 0x0, 0x0, 0x0⟩,
    ⟨"SUP_FORCE_LINK", 0x40050024, [], .dev, 0x0, 0xFFFFFFFF, 0x0, 0x0, 0x0, 0x0, 0x0⟩,
    ⟨"SUP_FAULTOUT", 0x40050028, [], .dev, 0x2, 0x1, 0x0, 0x0, 0x0, 0x0, 0x0⟩,
    ⟨"SUP_WDT", 0x40050030, [], .dev, 0x64, 0x3FF03FF, 0x0, 0x80000000, 0x0, 0x0, 0x0⟩,
    ⟨"SUP_KICK", 0x40050034, [], .dev, 0x0, 0x0, 0x0, 0x0, 0x0, 0xFF, 0x0⟩,
    ⟨"SUP_REC_STATUS", 0x40050040, [], .dev, 0x0, 0x0, 0x0, 0x0, 0x0, 0x0, 0x0⟩,
    ⟨"SUP_REC_CTRL", 0x40050044, [], .dev, 0x0, 0x0, 0x0, 0x0, 0x0, 0xFF03, 0x0⟩,
    ⟨"SUP_CMPTEST", 0x40050050, [], .dev, 0x0, 0x0, 0x0, 0x0, 0x0, 0x0, 0x0⟩,
    ⟨"DBG_OPEN", 0x404C0000, [], .dev, 0x0, 0x0, 0x0, 0x0, 0x0, 0x0, 0x0⟩,
    ⟨"DBG_DAP_VIEW", 0x404C0004, [], .dev, 0xF, 0xF, 0x0, 0x0, 0x0, 0x0, 0x0⟩,
    ⟨"DBG_AUTH_CTRL", 0x404C0010, [], .dev, 0x0, 0x1FFC0, 0x0, 0x0, 0x0, 0x7, 0x0⟩,
    ⟨"DBG_AUTH_STATUS", 0x404C0014, [], .dev, 0x0, 0x0, 0x0, 0x0, 0x0, 0x0, 0x0⟩,
    ⟨"DBG_AUTH_NONCEj", 0x404C0020, [(0x4, 8)], .dev, 0x0, 0x0, 0x0, 0x0, 0x0, 0x0, 0x0⟩,
    ⟨"DBG_AUTH_KEYj", 0x404C0040, [(0x4, 16)], .dev, 0x0, 0x0, 0x0, 0x0, 0x0, 0xFFFFFFFF, 0x0⟩,
    ⟨"DBG_AUTH_SIGj", 0x404C0080, [(0x4, 16)], .dev, 0x0, 0x0, 0x0, 0x0, 0x0, 0xFFFFFFFF, 0x0⟩,
    ⟨"DBG_Cc_CTRL", 0x404C1000, [(0x40, 32)], .dev, 0x0, 0x8, 0x0, 0x0, 0x0, 0x7, 0x0⟩,
    ⟨"DBG_Cc_STATUS", 0x404C1004, [(0x40, 32)], .dev, 0x0, 0x0, 0x100, 0x0, 0x0, 0x0, 0x0⟩,
    ⟨"DBG_Cc_REGSEL", 0x404C1008, [(0x40, 32)], .dev, 0x0, 0xFF, 0x0, 0x0, 0x0, 0x0, 0x0⟩,
    ⟨"DBG_Cc_DATA", 0x404C100C, [(0x40, 32)], .dev, 0x0, 0xFFFFFFFF, 0x0, 0x0, 0x0, 0x0, 0x0⟩,
    ⟨"DBG_Cc_BPk", 0x404C1010, [(0x40, 32), (0x4, 2)], .dev, 0x0, 0xFFFFFFFF, 0x0, 0x0, 0x0, 0x0, 0x0⟩,
    ⟨"RST_CAUSE", 0x40040000, [], .por, 0x1, 0x0, 0x7F, 0x0, 0x0, 0x0, 0x0⟩,
    ⟨"RST_CTRL", 0x40040004, [], .dev, 0x0, 0x0, 0x0, 0x0, 0x0, 0xFF01, 0x0⟩ ]

/-- Part 13 of the register table. -/
def regTab13 : List RegClass :=
  [ ⟨"RST_BOOT", 0x40040008, [], .dev, 0x1, 0x0, 0x0, 0x0, 0x0, 0x0, 0x0⟩,
    ⟨"RST_COUNT", 0x4004000C, [], .por, 0x0, 0x0, 0x0, 0x0, 0x0, 0x0, 0x0⟩,
    ⟨"LCS_STATE", 0x40060000, [], .dev, 0x0, 0x0, 0x0, 0x0, 0x0, 0x0, 0xF⟩,
    ⟨"LCS_KEYS", 0x40060004, [], .dev, 0x0, 0x0, 0x0, 0x0, 0x0, 0x0, 0x3FF⟩,
    ⟨"LCS_CTRL", 0x40060008, [], .dev, 0x0, 0x0, 0x0, 0x0, 0x0, 0x73FF0F, 0x0⟩,
    ⟨"LCS_REQ", 0x4006000C, [], .dev, 0x0, 0x0, 0x2, 0x0, 0x0, 0x0, 0x0⟩,
    ⟨"LCS_TOKEN_ADDR", 0x40060010, [], .dev, 0x0, 0xFFFFFFFC, 0x0, 0x0, 0x0, 0x0, 0x0⟩,
    ⟨"LCS_ID_LO", 0x40060018, [], .dev, 0x0, 0x0, 0x0, 0x0, 0x0, 0x0, 0xFFFFFFFF⟩,
    ⟨"LCS_ID_HI", 0x4006001C, [], .dev, 0x0, 0x0, 0x0, 0x0, 0x0, 0x0, 0xFFFFFFFF⟩,
    ⟨"LCS_PROV_HASHj", 0x40060040, [(0x4, 8)], .dev, 0x0, 0x0, 0x0, 0x0, 0x0, 0xFFFFFFFF, 0x0⟩,
    ⟨"LCS_KEYk_HASHj", 0x40060100, [(0x20, 4), (0x4, 8)], .dev, 0x0, 0x0, 0x0, 0x0, 0x0, 0x0, 0xFFFFFFFF⟩ ]

/-- Every register class of the maps of spec/ (R9), with the masks of its access types. -/
def regClasses : List RegClass :=
  regTab0 ++ regTab1 ++ regTab2 ++ regTab3 ++ regTab4 ++ regTab5 ++ regTab6 ++ regTab7 ++ regTab8 ++ regTab9 ++ regTab10 ++ regTab11 ++ regTab12 ++ regTab13

end Sys2Proof.Machine.R
end

