-- ==== Sys2Proof/Machine/State.lean ====
section
/-!
DEFINITION. The state of the SR9420: every register of the register maps (`regs`, `shad`), memory, and for each block
what the spec gives it beside its registers. Plain data throughout. `pending` is the queue of commands.
-/
namespace Sys2Proof.Machine

/-! ### Event matrix (spec/13) -/

/-- What an emission is due to: none, or an event received with a hop count from a channel (R318). -/
abbrev Cause := Option (Nat × Nat)


/-- A producer line (R314): when its last event left the producer, and the hop count of a held event. -/
structure Line where
  left : Option Time := none
  held : Option Nat := none
  deriving DecidableEq, Repr

/-- A channel (R315, R316, R320): hop counts that have arrived and wait for the channel stage, the events emitted that
the consumer has not taken (one, but for those in flight to a consumer that takes on arrival), whether an interrupt
or NMI input has already been handed the event, and the hop count of an armed timed fire. -/
structure Chan where
  arrived : List Nat := []
  pend    : List Nat := []
  handed  : Bool := false
  timed   : Option Nat := none
  deriving DecidableEq, Repr

/-- The event matrix: lines, channels, and their channels (R310). -/
structure Evm where
  lines : Tab Line := []
  chans : Tab Chan := []
  deriving DecidableEq, Repr

/-! ### Memory integrity, arbiters and DMA (spec/18, spec/19) -/

/-- What a stored line carries beside its bytes: a correctable error, an uncorrectable one, a correction waiting to
be written back (R406), and the difference between the stored parcel check and the right one (R407, R410). -/
structure LineMark where
  single : Bool := false
  double : Bool := false
  wback  : Bool := false
  chk    : Word := 0#32
  deriving DecidableEq, Repr

/-- A request that waits at an arbiter (R429): slots waited and grants to each other requester since it was presented, and the
last turn hint that it was sent (R431). -/
structure Wait where
  req   : Nat
  slots : Nat
  k     : Tab Nat
  hint  : Nat := 0
  deriving DecidableEq, Repr

/-- An arbiter (R428, R429, R434): waiting requests and, per priority, the requester last granted; and the shadows by requester that a
commit write has taken, with the slot in which it came: the next slot applies them (R11, R435). -/
structure Arb where
  waiting : List Wait := []
  last    : Tab Nat := []
  commit  : Option (Nat × List (Nat × Word)) := none
  deriving DecidableEq, Repr

/-- The lease of a held lock (R398): when it began, its length in units and its unit (true for 1 ms), and when the lock was acquired. A
lock that hardware has broken keeps one of length 0 from that instant, with the code of the owner it struck (R401). -/
structure Lease where
  start  : Time
  len    : Nat
  ms     : Bool
  got    : Time := start
  struck : Option Nat := none
  deriving DecidableEq, Repr

/-- The descriptor in progress on a DMA channel (Table 18.5). -/
structure Desc where
  srcLo : Nat
  srcHi : Nat
  dstLo : Nat
  dstHi : Nat
  len   : Nat
  ctl   : Nat
  next  : Nat
  deriving DecidableEq, Repr

/-- A DMA channel beside its registers (R419): the descriptor in progress, bytes moved, the hop count with which an
event set REQ, that of the event that started the descriptor, and a STOP that waits for the boundary. -/
structure DmaCh where
  desc   : Option Desc := none
  moved  : Nat := 0
  reqHop : Cause := none
  hop    : Cause := none
  stop   : Bool := false
  fetch  : Bool := false
  deriving DecidableEq, Repr

/-! ### Fast converters and comparators (spec/03) -/

/-- A fast channel beside its registers: the last hold edge, the PHASE that stays in force until the next one after a partition reset (R60),
the instant an arming selected (R62), the last arming and whether it was a FIRE (R63), whether an arming came at the armed word's hold edge
before that word was made (R62), whether the last grid word was delivered, deliveries and grid words counted under the settings in force, a commit that waits (was the
channel armed when it came, and the shadows it took), the block being assembled (R67, R68), GAP, the previous word's
CLIP, whether the next word is the first of a new slice, the TIME of the last word, and the blocks in the buffer. -/
structure FcChan where
  hold      : Option Time := none
  old       : Option Nat := none
  target    : Option Time := none
  armed     : Option (Time × Bool) := none
  again     : Bool := false
  delivered : Bool := false
  dseq      : Nat := 0
  count     : Nat := 0
  commit    : Option (Bool × List Word) := none
  ddiv      : Nat := 0
  skip      : Nat := 0
  btime     : Time := 0#64
  bflags    : Nat := 0
  samples   : List Nat := []
  gap       : Bool := false
  clip      : Bool := false
  swapped   : Bool := false
  lastTime  : Time := 0#64
  buf       : List (List Byte) := []
  deriving DecidableEq, Repr

/-- Background calibration of a group (R71 to R76): whether a first step has begun, whether a step runs and since when its calibration of
the spare, whether a swap is due and since when, the comparison that is being made, steps completed, and the slices calibrated in the
background (bit k for slice k). -/
structure FcGroup where
  begun : Bool := false
  step  : Bool := false
  since : Time := 0#64
  due   : Bool := false
  dueAt : Time := 0#64
  tries : Nat := 0
  steps : Nat := 0
  good  : Nat := 0
  deriving DecidableEq, Repr

/-- A delivered word inside the converter (R66) or on its way to a mailbox: sample word, TIME, receiving lanes (a mask)
and mailbox. -/
structure Sample where
  chan  : Nat
  word  : Word
  time  : Time
  lanes : Nat
  box   : Nat
  deriving DecidableEq, Repr

/-! ### Scan converters (spec/04) -/

/-- A scan channel beside its registers: EN, AVG and SHIFT in force since the last round start (R91), the accumulation of
R93, the window counter of R95, whether its owner's reset discards the sample that the round in progress still takes (R91), and the last
write to a limit with the limits and the counter before it (R96). -/
structure ScanChan where
  en    : Bool := false
  avg   : Nat := 0
  shift : Nat := 0
  sum   : Nat := 0
  count : Nat := 0
  clip  : Bool := false
  susp  : Bool := false
  wcnt  : Nat := 0
  void  : Bool := false
  wrote : Option (Time × Nat × Nat × Nat) := none
  deriving DecidableEq, Repr

/-- A scan converter: the slots of the round in progress that it has still to convert and the event that started the round (R90, R92), MODE
and ROUND in force (R91), the start of the last round under them with the interval in converter cycles from it to the next one, and the
last event at SCVk_START. -/
structure ScanConv where
  slots : List Nat := []
  cause : Cause := none
  mode  : Nat := 1
  rnd   : Nat := 0
  began : Option Time := none
  gap   : Nat := 0
  event : Option Time := none
  deriving DecidableEq, Repr



/-! ### PWM units (spec/06) -/

/-- A PWM unit beside its registers: starting or not, the instants of the last and the next period start, whether the
start skipped grid instants, whether it has lost the clock or the alignment of its group (R137), the count of period starts towards PUn_PS,
compares that land at the start of a cycle to come (R141), the landing instant of a compare that is not
active yet and the compare that landed in a cycle before it, commits that wait with their arrival and the shadows they took, oldest first, the
reference of R139 and its last edge, and
per output whether it shows its safe state, whether this cycle's period start releases it (R148), when it left it, whether a source acted on it and
when the last one ended. -/
structure PwmUnit where
  starting  : Bool := false
  late      : Bool := false
  last      : Time := 0#64
  next      : Time := 0#64
  lost      : Bool := false
  psCount   : Nat := 0
  coming    : List (Nat × Word) := []
  landed    : Option Time := none
  before    : Option Word := none
  commits   : List (Time × List Word) := []
  ref       : Bool := false
  rose      : Bool := false
  fell      : Bool := false
  edge      : Time := 0#64
  safeA     : Bool := true
  safeB     : Bool := true
  relA      : Bool := false
  relB      : Bool := false
  freedA    : Time := 0#64
  freedB    : Time := 0#64
  srcA      : Bool := true
  srcB      : Bool := true
  endA      : Option Time := none
  endB      : Option Time := none
  deriving DecidableEq, Repr

/-! ### Cell links (spec/07) -/

/-- A management request (Table 7.6): the device's own or software's, the frame number it left with, frames since, and
whether it was sent before. -/
structure MgmtReq where
  own   : Bool
  addr  : Nat
  op    : Nat
  reg   : Nat
  len   : Nat
  data  : List Byte
  tag   : Nat := 0
  seq   : Nat := 0
  age   : Nat := 0
  again : Bool := false
  deriving DecidableEq, Repr

/-- What the link knows of a cell: R_DN, R_UP and CAPS, R(k) of the round in progress, F(k) of the last 16 rounds (R172),
whether it sent a valid record since the link entered RUN (R194), its consecutive faulty records, whether two in a row ask for
CLOSE_BYPASS and whether that was sent (R200). -/
structure Cell where
  rdn    : Nat := 0
  rup    : Nat := 0
  caps   : Nat := 0
  r      : Nat := 0
  hist   : List Int := []
  seen   : Bool := false
  faulty : Nat := 0
  bypass : Bool := false
  closed : Bool := false
  deriving DecidableEq, Repr

/-- A downstream frame that a link sends (R156, R173): its SEQ, FLAGS and STAMP, its management request, the number of its next block, and
the words of the command blocks fetched so far. -/
structure Sending where
  seq   : Nat
  flags : Nat
  stamp : Time
  req   : Option MgmtReq
  next  : Nat := 0
  cmds  : List Nat := []
  deriving DecidableEq, Repr

/-- A link beside its registers: the command queue of words W, the number of the next frame, the frame being sent, the bytes of the last
frame sent, the next block boundary of the transmitter in units of 1/25 tick (none while it sends nothing), the state of its scrambler, the
66-bit blocks that left since the last frame began, a SAFE order that takes the place of the next block (R177),
the instant and kind of the last SAFE order, the instant of START, enumeration (the last COUNT and how
often it stood), the frames left of a sleep handshake and a WAKE during it, missed frames and departures of R(0) in a
row, management requests waiting and sent and whose turn was last, the measurement round (wanted, the number of its
frame, R(0), cells still to be read, rounds done, the sum of R(0)), ASYM as the last round took it (R169), whether TIME_VALID has been
asked for (R168), when the last background round fell due (R172), the receiver's headers and invalid headers towards block lock and invalid
blocks towards hi-BER since when (R153), frames since the last log entry, and the buffer; `entered` has the places in the order of R190 (0 balancer, 1 lane,
2 software) of the words at the queue's end that entered in the cycle of an instant, `soon` the software commands that enter in the next
cycle (R189). -/
structure Flink where
  queue  : List Nat := []
  entered : Time × List Nat := (0#64, [])
  soon   : List Nat := []
  seq    : Nat := 0
  sending : Option Sending := none
  frame  : List Byte := []
  next   : Option Nat := none
  scr    : Nat := 0
  line   : List Nat := []
  swap   : Option Nat := none
  order  : Option (Time × Nat) := none
  began  : Time := 0#64
  last   : Option Nat := none
  same   : Nat := 0
  sleep  : Option Nat := none
  wake   : Bool := false
  missed : Nat := 0
  jumps  : Nat := 0
  own    : List MgmtReq := []
  soft   : List MgmtReq := []
  sent   : List MgmtReq := []
  turn   : Bool := false
  want   : Bool := false
  meas   : Option Nat := none
  r0     : Nat := 0
  left   : List Nat := []
  rounds : Nat := 0
  r0sum  : Nat := 0
  asym   : List Int := []
  valid  : Bool := false
  remeas : Time := 0#64
  heads  : Nat := 0
  wrong  : Nat := 0
  ber    : Nat := 0
  berAt  : Time := 0#64
  logged : Nat := 0
  log    : List (List Byte) := []
  cells  : Tab Cell := []
  deriving DecidableEq, Repr

/-! ### Arm balancer (spec/08) -/

/-- An arm beside its registers: the reference word held, the one before it and when the held one was delivered (R192),
the cells available in the previous round (bit i), whether a link was lost since the last round (R201), and CTRL with EXCL0 to EXCL3 as
they stood before the writes of the cycle of an instant (R202). -/
structure Arm where
  ref    : Nat := 0
  old    : Nat := 0
  refAt  : Option Time := none
  avail  : Nat := 0
  lost   : Bool := false
  cfg    : Option (Time × Word × List Word) := none
  deriving DecidableEq, Repr

/-! ### Position feedback (spec/09) -/

/-- What a reader of a position interface gets (R206, R224). -/
structure PosView where
  value : Nat := 0
  time  : Time := 0#64
  speed : Int := 0
  info  : Nat := 0
  deriving DecidableEq, Repr

/-- What a Hall interface knew before a change of H, with the time-stamp of that change (R209). -/
structure HallBase where
  t        : Time
  value    : Nat
  time     : Time
  speed    : Int
  speedOk  : Bool
  coarse   : Bool
  sync     : Bool
  dir      : Bool
  valid    : Bool
  sector   : Option Nat
  lastDir  : Option Bool
  lastEdge : Option Time
  deriving DecidableEq, Repr

/-- A position interface beside its registers: accepted input levels (bit 0 A, 1 B, 2 C), whether the mode has started,
VALUE, TIME and SPEED with the bits of Table 9.3, the Hall sector (none while invalid) and the direction of the last edge
if the next one may give a speed, the time of the last counted edge, the tooth decoder of R213, the hold phase in force
and the last hold (R216), VALUE at the last in-window samples (newest first, R221), the number of updates of VALUE, what
a reader got before the last change with the number of updates then and the instant of that change (R223), the time-stamps of the last edges
of A, B and C (R205), what stood before the last change of H (R209), when an edge was last accepted or the mode started (R222), CFG as the
last update took it and the last write that changed MODE (R228), and the last capture of the probe latch: when, and by FIRE (R227). -/
structure Pos where
  levels    : Nat := 0
  started   : Bool := false
  value     : Nat := 0
  time      : Time := 0#64
  speed     : Int := 0
  suspect   : Bool := false
  ampOut    : Bool := false
  coarse    : Bool := false
  sync      : Bool := false
  dir       : Bool := false
  still     : Bool := false
  speedOk   : Bool := false
  valid     : Bool := false
  sector    : Option Nat := none
  lastDir   : Option Bool := none
  lastEdge  : Option Time := none
  ref       : Option Nat := none
  ever      : Bool := false
  idx       : Nat := 0
  mark      : Bool := false
  phase     : Nat := 0
  hold      : Option Time := none
  win       : List Nat := []
  serial    : Nat := 0
  prev      : PosView := {}
  prevSer   : Nat := 0
  changed   : Option Time := none
  edges     : Tab Time := []
  base      : Option HallBase := none
  heard     : Time := 0#64
  cfg       : Word := 0#32
  moded     : Option Time := none
  probed    : Option (Time × Bool) := none
  deriving DecidableEq, Repr

/-! ### Control lanes and the commit stage (spec/05) -/

/-- A mailbox: its latest word and TIME, the arrivals since the previous dispatch, and the snapshot (word, TIME, INFO). -/
structure Box where
  word  : Word := 0#32
  time  : Time := 0#64
  count : Nat := 0
  sword : Word := 0#32
  stime : Time := 0#64
  sinfo : Nat := 0
  deriving DecidableEq, Repr

/-- What a dispatch captures for both lanes: FEED and the two position latches (R108, R223). -/
structure Capture where
  feed : Int := 0
  pos0 : PosView := {}
  pos1 : PosView := {}
  deriving DecidableEq, Repr

/-- A running activation: its binding, epoch and T, the trigger kind with its cause, whether it is stale (R127), the
staged words by port (R115), the number of its next send (R116), ticks that the lane's clock ran since the dispatch up to its last stop, and
since when it runs (R110). -/
structure Act where
  binding : Nat
  epoch   : Nat
  t       : Time
  cause   : Cause
  stale   : Bool := false
  stage   : Tab Word := []
  sends   : Nat := 0
  ran     : Nat := 0
  since   : Option Time := none
  deriving DecidableEq, Repr

/-- A send: binding, epoch, number, whether the activation was stale, T, and the words by port. -/
structure Send where
  binding : Nat
  epoch   : Nat
  num     : Nat
  stale   : Bool
  t       : Time
  words   : Tab Word
  deriving DecidableEq, Repr

/-- A lane beside its registers: mailboxes, the running activation, the rest of the snapshot (ACT_T, ACT_INFO, the
capture), and sends that have not reached the commit stage, oldest first. -/
structure Lane where
  boxes : Tab Box := []
  act   : Option Act := none
  actT  : Time := 0#64
  info  : Nat := 0
  cap   : Capture := {}
  out   : List Send := []
  deriving DecidableEq, Repr

/-- A trigger that waits at the gate: T, kind (4 for FIRE), cause, when it came, the lanes that have not dispatched (A, B) and
the capture once the first has. -/
structure Trig where
  t     : Time
  kind  : Nat
  cause : Cause
  at_   : Time
  a     : Bool
  b     : Bool
  cap   : Option Capture := none
  deriving DecidableEq, Repr

/-- A send in the pair slots (R122): from the second lane or the first, since when. -/
structure Half where
  second : Bool
  at_    : Time
  send   : Send
  deriving DecidableEq, Repr

/-- A reload's boundary that has passed and has not reached the commit stage (R126): the binding's MAP before it, its DEST and
its epoch from then on. -/
structure Ahead where
  map   : Word
  dest  : Word
  epoch : Nat
  deriving DecidableEq, Repr

/-- A binding beside its registers: the waiting trigger, the pair slots, sends accepted and not yet delivered with the DEST in
force, whether lane A or B has faulted since the last dispatch, the position updates seen at it, a reload's boundary
that has not reached the commit stage (R126), and the last trigger if it can still merge with one of the other kind, FIRE or hardware (R111). -/
structure Bind where
  wait   : Option Trig := none
  pairs  : List Half := []
  due    : List (Word × Send) := []
  badA   : Bool := false
  badB   : Bool := false
  seen   : Tab Nat := []
  ahead  : Option Ahead := none
  trig   : Option (Time × Bool) := none
  deriving DecidableEq, Repr

/-! ### Processors (spec/10, spec/12) -/

/-- A processor: w0 to w15, pc, PS, the other control registers of Table 10.2 by number, whether it waits in WFI, whether it
has started since its reset, whether a debug STEP halts it again after its next instruction, whether a HALT waits for the end of a ROM service, whether it
has been resumed from a halt and has issued nothing since, and the routine of ROM's default vector table in which it last waited (R308). -/
structure Cpu where
  w       : Tab Word := []
  pc      : Word := 0#32
  ps      : Word := 0x200#32
  ctl     : Tab Word := [(0x14, 2#32)]
  wfi     : Bool := false
  started : Bool := false
  step    : Bool := false
  want    : Bool := false
  resumed : Bool := false
  rom     : Option Word := none
  deriving DecidableEq, Repr

/-- An entry of a branch-target buffer (R280): the address of a taken transfer, its target, and the line that contains the target. -/
structure Btb where
  addr   : Nat
  target : Nat
  line   : List Byte
  deriving DecidableEq, Repr

/-- An entry of a store buffer (R284): where the store goes, its bytes, the level and view it was made with, and the requesters that compete
with it when it drains. -/
structure Buffered where
  addr   : Nat
  bytes  : List Byte
  lvl    : Nat
  view   : Nat
  rivals : List Nat
  deriving DecidableEq, Repr

/-- The buffers of a core: the lines of the line buffer by number with their bytes, the most recently used first, and the line from which the
last instruction issued (R278, R279); the branch-target buffer, the most recently used entry first (R280); the last instruction's address and
the bytes from there on as they stood when it issued (R283); the store buffer, the oldest store first, and since when that one is the oldest
(R284). -/
structure CoreBuf where
  lines  : List (Nat × List Byte) := []
  cur    : Option Nat := none
  btb    : List Btb := []
  ahead  : Nat × List Byte := (0, [])
  stores : List Buffered := []
  since  : Time := 0#64
  deriving DecidableEq, Repr

/-- A processor at its reset: level M, or S on a lane (R230, R302, R308). -/
def Cpu.init (key : Nat) : Cpu := if 16 ≤ key then { ps := 0x100#32 } else {}

/-! ### Feeder ports (spec/14) -/

/-- A transmission (R326, R327): an acknowledgement or a frame, TX_START, the bytes on the air, modulation and groups on, and whether it
is the port's own answer to a tone-map request (R337), which no descriptor posted. -/
structure FseTx where
  ack   : Bool
  start : Time
  bytes : List Byte
  mod   : Nat
  map   : Nat
  reply : Bool := false
  deriving DecidableEq, Repr

/-- A feeder port beside its registers: the transmission in progress, the intervals between the last dispatches (newest
first) and the last dispatch (R329), limited FEED values and clipped words counted, the status that waits for write-back,
transmissions made of the head frame and TX_START of the last, whether the head waits for an acknowledgement, the go of a
gated head with its cause, acknowledgements and tone-map answers due, when the receiver is heard again after its own last transmission (R334), the last
grid word that its receiver was given, with its TIME (R70), and
received frames in the buffer with the time of handover. -/
structure FsePort where
  tx      : Option FseTx := none
  ivs     : List Nat := []
  lastAct : Option Time := none
  clips   : Nat := 0
  rxClips : Nat := 0
  result  : Option Nat := none
  tries   : Nat := 0
  tstamp  : Time := 0#64
  wait    : Bool := false
  last    : Option FseTx := none
  go      : Option Cause := none
  acks    : Nat := 0
  answers : List (MacAddr × Nat × Nat) := []
  quiet   : Option Time := none
  rx      : Option (Word × Time) := none
  buf     : List (AirFrame × Time) := []
  deriving DecidableEq, Repr

/-! ### Sessions (spec/15) -/

/-- The result of a session command that has not completed: CODE, the context number and the data it gives. -/
structure SesResult where
  code : Nat
  ctx  : Option Nat := none
  data : Option (List Byte) := none
  deriving DecidableEq, Repr

/-- The session engine beside its registers: the free list (contexts never taken from `fresh` up, then retired ones, R346),
the stash by position (R343), keys in force by 8 p + k (R351), and results on their way by partition. -/
structure Ses where
  fresh   : Nat := 0
  retired : List Nat := []
  stash   : Tab Nat := []
  keys    : Tab (List Byte) := []
  busy    : Tab SesResult := []
  deriving DecidableEq, Repr

/-! ### Network, host and service ports (spec/16) -/

/-- The head frame of a transmit ring in the port: descriptor FLAGS and the frame with its tag, without padding and FCS. -/
structure EthHead where
  flags : Nat
  frame : List Byte
  deriving DecidableEq, Repr

/-- A frame on the wire: its ring (none once a partition reset took the ring), FLAGS, the time-stamp, the instant at which the
wire is free again, and its bytes with FCS. -/
structure EthWire where
  ring  : Option Nat
  flags : Nat
  stamp : Time
  done  : Time
  bytes : List Byte
  deriving DecidableEq, Repr

/-- A received frame in the buffer of an Ethernet port (Table 1.5, R362): its ring, its bytes without FCS, and when its time-stamp point
passed. -/
structure EthFrame where
  ring  : Nat
  bytes : List Byte
  time  : Time
  deriving DecidableEq, Repr

/-- An Ethernet port beside its registers: received frames in its buffer that its engine has not moved yet (Table 1.5), head frames by ring, the ring last served by queue (R364), the frame on the wire,
the operating list (GATES, INTERVAL) and its base (R367), the instant of CHANGE, and by ring the receive descriptors that
hold frames that software has not posted again. -/
structure EthPort where
  buf     : List EthFrame := []
  heads   : Tab EthHead := []
  served  : Tab Nat := []
  wire    : Option EthWire := none
  oper    : List (Nat × Nat) := []
  base    : Time := 0#64
  changed : Option Time := none
  waiting : Tab (List Nat) := []
  deriving DecidableEq, Repr

/-- A PCIe function beside its registers (R380): the words of its MSI-X table, vectors requested that may be sent, and
pending bits; and payloads written through a BAR that wait in its 64 KiB buffer with their device address (Table 1.5). -/
structure PcieFn where
  buf   : List (Nat × List Byte) := []
  table : Tab Word := []
  want  : Nat := 0
  pend  : Nat := 0
  deriving DecidableEq, Repr

/-- A posted write that left on PCIe: function, host address, bytes. -/
structure HostWrite where
  fn    : Nat
  addr  : Nat
  bytes : List Byte
  deriving DecidableEq, Repr

/-- A service-port controller beside its registers: received and queued words, oldest first, and the CAN transmit and receive error counts. -/
structure SerPort where
  rx  : List Nat := []
  tx  : List Nat := []
  tec : Nat := 0
  cnt : Nat := 0
  deriving DecidableEq, Repr

/-! ### Flash (spec/20) -/

/-- The operation an array holds (R447, Table 20.6): state, service number (0 for a persist), owner, flags, code, results w1
and w2, units done; its arguments, the bytes of a calibration record, the core that waits for it, and since when it is
suspended. -/
structure FlashOp where
  state : Nat := 0
  op    : Nat := 0
  owner : Nat := 0
  flags : Nat := 0
  code  : Nat := 0
  w1    : Nat := 0
  w2    : Nat := 0
  units : Nat := 0
  addr  : Nat := 0
  src   : Nat := 0
  len   : Nat := 0
  mode  : Nat := 0
  data  : List Byte := []
  core  : Option Nat := none
  since : Time := 0#64
  deriving DecidableEq, Repr

/-- Flash beside its contents: operations by array (information area 4), the read window that is open on an array since when
(R444), erase counts and INCOMPLETE_ERASE marks by block, the owner of each block's PROTECT lock, corrected and uncorrectable
reads by array, the active journal block (0 or 1), the number of its next entry and of the next SEQ, the blocks whose
bytes an erase has left indeterminate, with the seed of the free bytes (information block k is 512 + k), and by unit (address / 32) an
ECC error that it holds: 1 correctable, 2 not (R443); and when the last supply warning that stops pulses cleared (R458). -/
structure Flash where
  ops    : Tab FlashOp := []
  window : Tab Time := []
  count  : Tab Nat := []
  incom  : Tab Bool := []
  lock   : Tab Nat := []
  corr   : Tab Nat := []
  uncorr : Tab Nat := []
  active : Option Nat := none
  entry  : Nat := 0
  seq    : Nat := 0
  mix    : Tab Nat := []
  ecc    : Tab Nat := []
  clear  : Time := 0#64
  deriving DecidableEq, Repr

/-! ### The structure image (spec/02) -/

/-- A segment reload in progress (R47): the partition that asked, the whole image as it will be, the changed bindings that have
not switched, the domains that PREPARING requested, whether a persist is wanted, when START came, and the staging range that START
found in SCFG_RQn_ADDR and SCFG_RQn_LEN (R48, R53). -/
structure Reload where
  part    : Nat
  image   : List Byte
  todo    : List Nat := []
  holds   : List Nat := []
  persist : Bool := false
  began   : Time := 0#64
  stage   : Nat := 0
  len     : Nat := 0
  deriving DecidableEq, Repr

/-- A blocking flash service that a core is in (R453 to R455): the array it waits for, whether an NMI suspended it, and the code, w1
and w2 of its operation once it is DONE. -/
structure SvcCall where
  bank      : Nat
  suspended : Bool := false
  result    : Option (Nat × Nat × Nat) := none
  deriving DecidableEq, Repr

/-! ### Clocks, the Pavane domain, reset and the TAP (spec/21 to spec/24) -/

/-- The clock tree beside its registers (R469 to R478): masks of the PLLs that have been started (by their bit of
CLK_SRC_STATUS), of the two-source domains whose multiplexer connects PLL_SYS and of the domains whose gate waits for
a PLL; since when a domain has shown edges, and since when its gate is shut (R469); and whether the main
reference is the external clock (MAIN_SRC). -/
structure Clk where
  started : Nat := 0
  onSys   : Nat := 0
  waiting : Nat := 0
  edges   : Tab Time := []
  shut    : Tab Time := []
  ext     : Bool := false
  deriving DecidableEq, Repr

/-- The Pavane domain beside its registers (R481 to R483, R502 to R507): the RTC count, its fraction in units of
1 / (125 * 2^20), ticks counted towards the next crystal cycle, and the staged low word; RC edges
since the recovery machine was reset, the edges at which restarts were attempted, a failure that waits for the RC, whether
the machine holds the supervisor in reset; the watchdog's count (none while it does not run), whether a kick came since the
start, the KEY of the next one and the edges until a written one takes effect; and edges since the last-resort timer was
re-armed. -/
structure Pav where
  rtc    : Nat := 0
  frac   : Nat := 0
  xtal   : Nat := 0
  stage  : Nat := 0
  edges  : Nat := 0
  tries  : List Nat := []
  fail   : Option Nat := none
  hold   : Bool := false
  wdt    : Option Nat := none
  kicked : Bool := false
  key    : Nat := 0x5A
  kick   : Option Nat := none
  lrt    : Nat := 0
  deriving DecidableEq, Repr

/-- The fuses (R533, R539, R541): life-cycle state, key hashes by slot, revoked slots (a mask), RETURN_CLEAN. -/
structure Fuses where
  lcs     : Nat := 0
  keys    : Tab (List Byte) := []
  revoked : Nat := 0
  clean   : Bool := false
  deriving DecidableEq, Repr

/-- The TAP (R565, R566): the instruction, and the boundary register's update stage and capture stage by pad. -/
structure Tap where
  instr   : Nat := 1
  update  : Tab Nat := []
  capture : Tab Nat := []
  deriving DecidableEq, Repr

/-- The device as a whole (R484, R486, R489, R507, R516, R517, R530): is a DEVICE reset asserted, is it that of a wake from STANDBY
with its context, the levels of RESET_N and PCIE_PERST_N, the monitors whose reset output is asserted (a mask), the power
state it sleeps in (0 awake, 2 STANDBY, 3 DORMANT), was the context lost there, the pad states latched there (0 low, 1 high,
2 high impedance), has the last-resort timer expired, the recovery command that ROM
has taken from the mailbox, the partition and instant of the last START of a reload that was not busy (R50), did a debug halt break the supervisor's lockstep (R514), is the nonce unused, and the result of a
verification that runs: the scope it grants, or none (R511); `cal` is the calibration record that the blocks loaded at the last DEVICE
reset, empty where none was valid (R467). `io33` are the VDDIO banks of the 3.3 V class (a mask), taken at the release of a POR, `por` says
that the reset in progress is, or overtook, one (R551), and `struck` that no tick has passed since the last DEVICE reset (R518). -/
structure Chip where
  held    : Bool := false
  standby : Bool := false
  resetN  : Bool := true
  perstN  : Bool := true
  low     : Nat := 0
  asleep  : Nat := 0
  lost    : Bool := false
  latch   : Tab Nat := []
  expired : Bool := false
  cmd     : Option Nat := none
  cal     : List Byte := []
  start   : Option (Nat × Time) := none
  svBroken : Bool := false
  nonce   : Bool := false
  verify  : Option (Option Nat) := none
  por     : Bool := false
  io33    : Nat := 0
  struck  : Bool := false
  deriving DecidableEq, Repr

/-- The state of the device. -/
structure State where
  /-- Device time in ticks of 31.25 ps (R5, R372). -/
  now : Time := 0#64
  /-- Values of registers that differ from their reset values, active values of RWS fields. -/
  regs : RegFile := {}
  /-- Shadow values of RWS fields (R9, R11). -/
  shad : RegFile := {}
  /-- Memory bytes that differ from what an unlisted address reads as, addresses rising. -/
  mem : List Host.Cell := []
  /-- MODEL: how many free values have been used. -/
  free : Nat := 0
  /-- The event matrix beside its registers. -/
  evm : Evm := {}
  /-- Memory lines with an error or a wrong check, keyed by address / 64. -/
  marks : Tab LineMark := []
  /-- Arbiters 0 to 49, and the ports without settings: lane RAM n at 50 + n, TCMs of core n at 66 + n, the supervisor's at 74 (R428). -/
  arbs : Tab Arb := []
  /-- DMA channels 0 to 31. -/
  dma : Tab DmaCh := []
  /-- The leases of held locks (R398). -/
  leases : Tab Lease := []
  /-- MODEL: the data that the last read gave back to a requester outside the cores and lanes. -/
  resp : Option Word := none
  /-- Owners of the OWNERSHIP classes, keyed class * 256 + number: 0 to 7, 15 platform, 254 unassigned (R29). Class 14 holds the OWNER of
  each port that a FEEDER entry names (R324). -/
  own : Tab Nat := []
  /-- Fast channels 0 to 23 beside their registers. -/
  fc : Tab FcChan := []
  /-- Background calibration of groups 0 to 2. -/
  fcGroup : Tab FcGroup := []
  /-- Delivered words that have not left their converter, oldest first. -/
  fcOut : List Sample := []
  /-- Words on their way to mailboxes. -/
  fcBox : List Sample := []
  /-- Comparators whose output a test pulse forces: since when, and whether the input alone keeps the output active (R84). -/
  cmpPulse : Tab (Option (Time × Bool)) := []
  /-- Comparators with a trip event that waits for their group's domain (bit c, R81). -/
  cmpEvt : Nat := 0
  /-- Scan converters 0 to 3. -/
  scan : Tab ScanConv := []
  /-- Scan channels 0 to 79 beside their registers. -/
  scanCh : Tab ScanChan := []
  /-- The rest of the DMA engine's round: channels and bursts left (R421). -/
  dmaRound : List (Nat × Nat) := []
  /-- PWM units 0 to 31 beside their registers. -/
  pwm : Tab PwmUnit := []
  /-- Destinations (kind, number) that the commit stage forces since a reload removed their binding (R49). -/
  orphans : List (Nat × Nat) := []
  /-- Cell links 0 to 31 beside their registers. -/
  link : Tab Flink := []
  /-- Arms 0 to 31 beside their registers. -/
  arm : Tab Arm := []
  /-- Position interfaces 0 to 15 beside their registers. -/
  pos : Tab Pos := []
  /-- Lanes 0 to 15 beside their registers. -/
  lane : Tab Lane := []
  /-- Bindings 0 to 63 beside their registers. -/
  bind : Tab Bind := []
  /-- Processors by key: host cores 0 to 7, supervisor 8, lanes 16 to 31. -/
  cpus : Tab Cpu := []
  /-- Fetch and store buffers of host cores 0 to 7 and the supervisor 8. -/
  bufs : Tab CoreBuf := []
  /-- Feeder ports 0 to 3 beside their registers. -/
  fse : Tab FsePort := []
  /-- The session engine beside its registers. -/
  ses : Ses := {}
  /-- The VLAN of partition p on Ethernet port k at 8 k + p, 0 for none (R28). -/
  vlan : Tab Nat := []
  /-- Ethernet ports 0 and 1 beside their registers. -/
  eth : Tab EthPort := []
  /-- OFS in force (R373). -/
  ptpOfs : Nat := 0
  /-- SEC in force (R373). -/
  ptpSec : Nat := 0
  /-- PCIe functions 0 to 7 beside their registers. -/
  pcie : Tab PcieFn := []
  /-- MODEL: the last posted write to the host. -/
  up : Option HostWrite := none
  /-- Service-port controllers beside their registers: CAN 0 and 1, UART 2 to 5, SPI 6 to 9, I²C 10 and 11. -/
  ser : Tab SerPort := []
  /-- Levels that output events gave the general-purpose pins (bit p, R383). -/
  gpioOut : Nat := 0
  /-- Flash beside its contents. -/
  flash : Flash := {}
  /-- The image that runs, empty before one is applied (R45). -/
  image : List Byte := []
  /-- Function and attributes of pads by number, FUNC + 8 * ATTR, as PINMUX gives them (R32). -/
  pads : Tab Nat := []
  /-- Safe states of pads by number, as SAFE_STATES gives them (R36): 0 low, 1 high, 2 high impedance. -/
  padSafe : Tab Nat := []
  /-- A segment reload in progress (R47). -/
  reload : Option Reload := none
  /-- A persist in progress: the partition and the image written (R51). -/
  persisting : Option (Nat × List Byte) := none
  /-- The floor that an accepted advance asks for until ROM has written it (R46). -/
  floorWant : Option Nat := none
  /-- Partition resets that a reload in SWITCHING defers, with their cause (R50). -/
  deferred : Tab Nat := []
  /-- Blocking flash services by core, innermost first (R453). -/
  svc : Tab (List SvcCall) := []
  /-- The clock tree beside its registers. -/
  clk : Clk := {}
  /-- The Pavane domain beside its registers. -/
  pav : Pav := {}
  /-- The fuses. -/
  fuses : Fuses := {}
  /-- The TAP. -/
  tap : Tap := {}
  /-- The device as a whole. -/
  chip : Chip := {}
  /-- MODEL: the commands that wait, first in first out. -/
  pending : List Instr := []
  deriving DecidableEq, Repr

/-- Why a step stops with a fault. -/
inductive Fault where
  /-- A command would describe a partner that breaks an interface specification, for which R2 promises nothing. No command of this
  model raises it. Safe: a step that stops proves nothing of the device. -/
  | environment (what : String)
  deriving DecidableEq, Repr

/-- Why a command is refused. -/
inductive Refusal where
  /-- The command has no meaning in this model. No command answers with it: each has one. Safe. -/
  | notModelled (mnemonic : String)
  deriving DecidableEq, Repr

/-- The device right after the release of a power-on reset, before ROM's boot (R516, R517, R524): every register at its
reset value, memories wiped, no image applied, an empty queue. -/
def State.reset : State := {}

end Sys2Proof.Machine
end

