-- ==== Sys2Proof/Machine/Ops.lean ====
section
/-!
DEFINITION. The named operations that every block uses: registers and fields, free values, device time, owners and partition
states, clock domains, and the raising of events (spec/00_scope.md, spec/13, spec/17, spec/21).
-/
namespace Sys2Proof.Machine

/-- What a command answers. -/
abbrev Out := Host.Outcome State Fault Refusal

/-! ### Registers -/

/-- The stored value of a register (for RWS fields the active value). -/
def State.rd (s : State) (r : Reg) : Word := s.regs.rd r
/-- Store a register. -/
def State.wr (s : State) (r : Reg) (v : Word) : State := { s with regs := s.regs.wr r v }
/-- The value of a field. -/
def State.get (s : State) (q : RF) : Nat := s.regs.fld q
/-- Is a one-bit field 1? -/
def State.on (s : State) (q : RF) : Bool := s.regs.fld q != 0
/-- A field takes value `x`. -/
def State.put (s : State) (q : RF) (x : Nat) : State := { s with regs := s.regs.put q x }
/-- A one-bit field takes a truth value. -/
def State.putB (s : State) (q : RF) (b : Bool) : State := s.put q (if b then 1 else 0)
/-- The shadow value of an RWS field (R9). -/
def State.shadow (s : State) (q : RF) : Nat := s.shad.fld q
/-- An RWS field's shadow takes value `x`. -/
def State.putShadow (s : State) (q : RF) (x : Nat) : State := { s with shad := s.shad.put q x }
/-- The active value of an RWS field takes its shadow (R11). -/
def State.commit (s : State) (q : RF) : State := s.put q (s.shadow q)
/-- Software writes 1 to the W1C bits `m` of a register (R9, R10). -/
def State.clr (s : State) (r : Reg) (m : Word) : State := { s with regs := s.regs.clr r m }
/-- Does instant `t` lie in the present cycle of 1.0 ns, the cycle of device time (R10; DEDUCED, log 54)? -/
def State.sameCycle (s : State) (t : Time) : Bool := t.toNat / 32 == s.now.toNat / 32
/-- A counter field counts one up, modulo its width. -/
def State.inc (s : State) (q : RF) : State := s.put q (s.get q + 1)
/-- A counter field counts `d` up and saturates. -/
def State.incSat (s : State) (q : RF) (d : Nat := 1) : State := s.put q (min (s.get q + d) (2 ^ q.wid - 1))

/-- A bit of a number. -/
def bit (x k : Nat) : Bool := x.testBit k
/-- A number with bit `k` set or cleared. -/
def setBit (x k : Nat) (b : Bool) : Nat := if b then x ||| (2 ^ k) else x ^^^ (if x.testBit k then 2 ^ k else 0)
/-- Bits [lsb + w - 1 : lsb] of a number. -/
def bitsOf (x lsb w : Nat) : Nat := x / 2 ^ lsb % 2 ^ w
/-- A number of `w` bits read as two's complement. -/
def signed (w x : Nat) : Int := if x % 2 ^ w < 2 ^ (w - 1) then (x % 2 ^ w : Nat) else (x % 2 ^ w : Nat) - (2 ^ w : Int)
/-- An integer as `w` bits of two's complement. -/
def unsigned (w : Nat) (x : Int) : Nat := (x % (2 ^ w : Int)).toNat
/-- Limit an integer to a range. -/
def clampI (lo hi x : Int) : Int := if x < lo then lo else if hi < x then hi else x
/-- num / den rounded to the nearest integer, halves away from zero (R568). -/
def roundDiv (num den : Int) : Int :=
  if 0 ≤ num then (2 * num + den) / (2 * den) else -((2 * -num + den) / (2 * den))

/-- Bit `k` of a field of several bits is 1. -/
def State.bitOn (s : State) (q : RF) (k : Nat) : Bool := bit (s.get q) k
/-- Note bits of a register as set by hardware in this cycle (R10). -/
def State.heat (s : State) (r : Reg) (m : Word) : State := { s with regs := s.regs.heat r m }
/-- Bit `k` of a field takes a truth value; a bit that takes 1 has been set in this cycle (R10). -/
def State.putBit (s : State) (q : RF) (k : Nat) (b : Bool) : State :=
  (s.put q (setBit (s.get q) k b)).heat q.reg (if b then BitVec.ofNat 32 (2 ^ (q.lsb + k)) else 0#32)

/-- Has hardware set a one-bit field in this cycle (R10)? -/
def State.isHot (s : State) (q : RF) : Bool := fieldGet (s.regs.hotAt q.reg) q.lsb q.wid != 0

/-- Do an operation when a condition holds. -/
def State.when (s : State) (c : Bool) (f : State → State) : State := if c then f s else s
/-- Do an operation for each element of a list, in order. -/
def State.each {α : Type} (s : State) (l : List α) (f : α → State → State) : State := l.foldl (fun t x => f x t) s

/-- Use one fresh free value: nothing constrains it. -/
def State.fresh (s : State) : Nat × State := (Config.freeValue s.free, { s with free := s.free + 1 })

/-! ### Time -/

/-- Ticks of 31.25 ps in `n` nanoseconds. -/
def ns (n : Nat) : Nat := 32 * n
/-- Ticks in `n` microseconds. -/
def us (n : Nat) : Nat := 32000 * n
/-- Ticks from instant `t` to now. -/
def State.since (s : State) (t : Time) : Nat := (s.now - t).toNat
/-- An instant given by two register words (R8). -/
def timeOf (lo hi : Nat) : Time := BitVec.ofNat 64 (lo + hi * 2 ^ 32)
/-- Is instant `t` now or past? -/
def State.reached (s : State) (t : Time) : Bool := decide (t.toNat ≤ s.now.toNat)
/-- Write an instant to a pair of register words (R8). -/
def State.putTime (s : State) (lo hi : Reg) (t : Time) : State :=
  (s.wr lo (BitVec.ofNat 32 t.toNat)).wr hi (BitVec.ofNat 32 (t.toNat / 2 ^ 32))

/-! ### Owners (R29, R384, R415) -/

/-- Owner code of the platform. -/
def platform : Nat := 15
/-- Owner code of an unassigned resource. -/
def unassigned : Nat := 254

/-- The owner that the OWNERSHIP record gives number `n` of a class (R29); SC64 to SC79 belong to the platform. -/
def State.owner (s : State) (cls n : Nat) : Nat :=
  if cls = 3 ∧ 64 ≤ n then platform else s.own.get unassigned (cls * 256 + n)

/-- Does a FEEDER entry name port `n`? A port that none names is held in reset, and its registers read 0 (R324). -/
def State.portUsed (s : State) (n : Nat) : Bool := s.owner 14 n != unassigned

/-- The first partition that exists and satisfies `f`. -/
def State.partWith (s : State) (f : Nat → Bool) : Option Nat :=
  (List.range 8).find? fun p => s.on (R.PART_Pn_CFG_PRESENT p) && f p

/-- The partition of a host core, `platform` for the supervisor, `unassigned` for a core that no record names (R426). -/
def State.coreOwner (s : State) (c : Nat) : Nat :=
  if c = 8 then platform
  else (s.partWith fun p => s.bitOn (R.PART_Pn_CFG_CORES p) c).getD unassigned

/-- The owner of a PCIe function; a function that no partition holds belongs to the platform (R376). -/
def State.fnOwner (s : State) (f : Nat) : Nat :=
  (s.partWith fun p => s.get (R.PART_Pn_CFG_PCIE_FN p) == f).getD platform

/-- The owner of a DMA channel (R415). -/
def State.dmaOwner (s : State) (c : Nat) : Nat :=
  (s.partWith fun p => s.bitOn (R.PART_Pn_DMA_CHANNELS p) c).getD platform

/-- The owner of a hardware lock (R395). -/
def State.lockOwner (s : State) (k : Nat) : Nat :=
  (s.partWith fun p => let f := s.get (R.PART_Pn_LOCKS_FIRST p)
    f ≤ k && k < f + s.get (R.PART_Pn_LOCKS_COUNT p)).getD platform

/-- The owner of an SRAM bank (R384). -/
def State.bankOwner (s : State) (b : Nat) : Nat :=
  (s.partWith fun p => s.bitOn (R.PART_Pn_SRAM_BANKS p) b).getD unassigned

/-- Is a binding defined by the running image? -/
def State.bound (s : State) (b : Nat) : Bool := s.on (R.LNC_Bb_MAP_DEFINED b)
/-- The owner of a binding: that of its lanes (spec/05). -/
def State.bindingOwner (s : State) (b : Nat) : Nat :=
  if s.bound b then s.owner 1 (s.get (R.LNC_Bb_MAP_LANE_A b)) else unassigned

/-- The owner of an arm: that of the links that form it (spec/08). -/
def State.armOwner (s : State) (a : Nat) : Nat :=
  match (List.range 32).find? fun l => s.bitOn (R.ABL_Aa_LINKS_LINKS a) l with
  | some l => s.owner 5 l
  | none => unassigned

/-- State of a partition (Table 17.5). -/
def State.partState (s : State) (p : Nat) : Nat := s.get (R.PART_Pn_STATE_STATE p)
/-- Is a partition in ASSERTING, WIPING or HELD, that is, held in reset? -/
def State.inPartReset (s : State) (p : Nat) : Bool :=
  s.partState p == 2 || s.partState p == 3 || s.partState p == 4
/-- Is what owner `o` owns held in reset? Unassigned resources always are (R29). -/
def State.ownerInReset (s : State) (o : Nat) : Bool :=
  if o = platform then false else if o < 8 then s.inPartReset o || s.partState o == 0 else true

/-! ### Clock domains (spec/21) -/

/-- Is the gate of domain `d` open? -/
def State.gateOpen (s : State) (d : Nat) : Bool := s.on (R.CLK_Dd_STATUS_RUNNING d)
/-- The sequencer does not gate the SPI target domains and the TAP's (R468). -/
def ungated (d : Nat) : Bool := (96 ≤ d && d < 100) || d == 101
/-- Does domain `d` have a clock: its gate is open and its edges come? -/
def State.running (s : State) (d : Nat) : Bool := ungated d || (s.gateOpen d && !s.on (R.CLK_Dd_STATUS_HANG_LIVE d))
/-- Is the domain in DOMAIN reset? -/
def State.domReset (s : State) (d : Nat) : Bool := s.on (R.CLK_Dd_STATUS_IN_RESET d)
/-- Is the clock force of the domain active (R477)? -/
def State.forcing (s : State) (d : Nat) : Bool := s.on (R.CLK_Dd_STATUS_FORCING d)
/-- Does host pair `k` run in lockstep? The supervisor is pair 4. -/
def State.lockstep (s : State) (k : Nat) : Bool := k == 4 || s.on (R.SUP_PAIRk_STATUS_LOCKSTEP k)

/-! ### Events (spec/13) -/

/-- A line of the event matrix. -/
def State.line (s : State) (p : Nat) : Line := s.evm.lines.get {} p
/-- A channel. -/
def State.chan (s : State) (c : Nat) : Chan := s.evm.chans.get {} c
/-- Change a line. -/
def State.setLine (s : State) (p : Nat) (l : Line) : State := { s with evm := { s.evm with lines := s.evm.lines.set p l } }
/-- Change a channel; PENDING and ARMED of its status register follow it. -/
def State.setChan (s : State) (c : Nat) (x : Chan) : State :=
  (({ s with evm := { s.evm with chans := s.evm.chans.set c x } } : State).putB (R.EVM_Cc_STATUS_PENDING c) (!x.pend.isEmpty)).putB
    (R.EVM_Cc_STATUS_ARMED c) x.timed.isSome

/-- The owner of a producer line (Table 13.1, R311). -/
def State.lineOwner (s : State) (p : Nat) : Nat :=
  if p < 24 then s.owner 2 p
  else if p < 48 then s.owner 2 (p - 24)
  else if p < 96 then s.owner 2 ((p - 48) / 2)
  else if p < 102 then platform
  else if p < 182 then s.owner 3 (p - 102)
  else if p < 186 then platform
  else if p < 202 then s.owner 1 (p - 186)
  else if p < 218 then s.owner 1 (p - 202)
  else if p < 234 then s.owner 1 (p - 218)
  else if p < 298 then s.bindingOwner (p - 234)
  else if p < 330 then s.owner 4 (p - 298)
  else if p < 362 then s.owner 4 (p - 330)
  else if p < 394 then s.owner 4 (p - 362)
  else if p < 426 then s.owner 4 (p - 394)
  else if p < 458 then s.owner 5 (p - 426)
  else if p < 490 then s.owner 5 (p - 458)
  else if p < 522 then s.owner 5 (p - 490)
  else if p < 554 then s.owner 5 (p - 522)
  else if p < 586 then s.armOwner (p - 554)
  else if p < 587 then platform
  else if p < 603 then s.owner 6 (p - 587)
  else if p < 619 then s.owner 6 (p - 603)
  else if p < 635 then s.owner 6 (p - 619)
  else if p < 643 then s.coreOwner (p - 635)
  else if p < 644 then platform
  else if p < 652 then p - 644
  else if p < 684 then s.dmaOwner (p - 652)
  else if p < 700 then s.owner 7 ((p - 684) / 4)
  else if p < 716 then (p - 700) % 8
  else if p < 724 then platform
  else if p < 732 then s.fnOwner (p - 724)
  else if p < 734 then s.owner 9 (p - 732)
  else if p < 738 then s.owner 10 (p - 734)
  else if p < 742 then s.owner 11 (p - 738)
  else if p < 744 then s.owner 12 (p - 742)
  else platform

/-- Is line `p` joined onto channel `c` (R310)? -/
def State.joined (s : State) (p c : Nat) : Bool := s.bitOn (R.EVM_Cc_ENj_EN c (p / 32)) (p % 32)

/-- An event arrives at the channel stage of channel `c` with hop count `h` (R315). -/
def State.arrive (s : State) (c h : Nat) : State :=
  let x := s.chan c
  s.setChan c { x with arrived := x.arrived ++ [h] }

/-- An event leaves the producer of line `p`: it arrives at every joined channel, once each (R314, R315). -/
def State.leave (s : State) (p h : Nat) : State :=
  let t := s.setLine p ⟨some s.now, none⟩
  t.each ((List.range 256).filter fun c => s.joined p c) fun c u => u.arrive c h

/-- A producer raises an event on line `p` with hop count `h`: it leaves at once, or within 8.0 ns of the line's last
event is held and merged (R314). A line whose owner is held in reset raises nothing (R322). -/
def State.raise (s : State) (p : Nat) (h : Nat := 0) : State :=
  if s.ownerInReset (s.lineOwner p) then s
  else
    let l := s.line p
    match l.held with
    | some h' => (s.setLine p { l with held := some (max h h') }).putBit (R.EVM_PMERGEj_MERGE (p / 32)) (p % 32) true
    | none =>
      match l.left with
      | some t =>
        if s.since t < ns 8 then
          (s.setLine p { l with held := some h }).putBit (R.EVM_PMERGEj_MERGE (p / 32)) (p % 32) true
        else s.leave p h
      | none => s.leave p h

/-- LOOP of channel `c` sets; on its rise EVM_LOOP is raised (R319). -/
def State.setLoop (s : State) (c : Nat) : State :=
  (s.put (R.EVM_Cc_STATUS_LOOP c) 1).when (!s.on (R.EVM_Cc_STATUS_LOOP c)) fun s => s.raise 760

/-- A block emits on line `p` because of an event it received with hop count `h` from channel `c`: the emission
carries h + 1, and hop 8 is suppressed with LOOP set on the delivering channel (R318, R319). -/
def State.emit (s : State) (p : Nat) (cause : Cause) : State :=
  match cause with
  | none => s.raise p 0
  | some (h, c) => if h + 1 < 8 then s.raise p (h + 1) else s.setLoop c

end Sys2Proof.Machine
end

