-- ==== Sys2Proof/Machine/View.lean ====
section
/-!
DEFINITION. The address map (spec/18), views and fences (spec/17): which addresses a requester reaches, who sees which register,
and the record of a refusal.
-/
namespace Sys2Proof.Machine

/-- A region of the address map (Table 18.1). -/
inductive Region where
  | rom | flash | info
  | sram (bank : Nat)
  | ctx
  | laneCode (n : Nat)
  | laneData (n : Nat)
  | itcm (n : Nat)
  | dtcm (n : Nat)
  | supTcm
  | per
  | priv
  deriving DecidableEq, Repr

/-- The peripheral pages of Table 18.2. -/
def listedPages : List Nat :=
  [0x4000, 0x4001, 0x4002, 0x4003, 0x4004, 0x4005, 0x4006, 0x4010, 0x4011, 0x4012, 0x4014, 0x4015, 0x4018, 0x4020,
   0x4021, 0x4022, 0x4024, 0x4028, 0x4030, 0x4034, 0x4038, 0x403C, 0x403E, 0x4040, 0x4044, 0x4046, 0x4048, 0x404C]

/-- The region of an address; none where the map has nothing (R402, R403). -/
def regionOf (a : Nat) : Option Region :=
  if a < 0x00040000 then some .rom
  else if a < 0x08000000 then none
  else if a < 0x0A000000 then some .flash
  else if a < 0x0A040000 then some .info
  else if a < 0x10000000 then none
  else if a < 0x11800000 then some (.sram ((a - 0x10000000) / 0xC0000))
  else if a < 0x20000000 then none
  else if a < 0x23800000 then some .ctx
  else if a < 0x30000000 then none
  else if a < 0x30200000 then
    let n := (a - 0x30000000) / 0x20000
    if a % 0x20000 < 0x10000 then some (.laneCode n) else some (.laneData n)
  else if a < 0x38000000 then none
  else if a < 0x38200000 then
    let n := (a - 0x38000000) / 0x40000
    if a % 0x40000 < 0x20000 then some (.itcm n) else some (.dtcm n)
  else if a < 0x38280000 then some .supTcm
  else if a < 0x40000000 then none
  else if a < 0x404D0000 then if listedPages.contains (a / 0x10000) then some .per else none
  else if a < 0xE0000000 then none
  else if a < 0xE0010000 then some .priv
  else none

/-- Does a binding of the running image name lane `n` (R102)? -/
def State.laneBound (s : State) (n : Nat) : Bool :=
  (List.range 64).any fun b => s.bound b &&
    (s.get (R.LNC_Bb_MAP_LANE_A b) == n || (s.on (R.LNC_Bb_MAP_COMPARED b) && s.get (R.LNC_Bb_MAP_LANE_B b) == n))

/-- The owner of a feeder port's binding (spec/14), for FSE_Pn_LOOP. -/
def State.feederLoopOwner (s : State) (n : Nat) : Nat := s.bindingOwner (s.get (R.FSE_Pn_IMAGE_BINDING n))

/-- Does partition `p` see the register at `a`? The owning chapters' view rules; `w` is true for a write. -/
def State.regInView (s : State) (p : Nat) (w : Bool) (a : Nat) : Bool :=
  let o := a % 0x10000
  match a / 0x10000 with
  | 0x4000 => 0x100 ≤ o && o < 0x200 && (o - 0x100) / 0x20 == p
  | 0x4001 =>
    if 0x1000 ≤ o then o < 0x2000 && s.lockOwner ((o - 0x1000) / 0x10) == p
    else 0x800 ≤ o && o < 0x900 && (o - 0x800) / 0x20 == p
  | 0x4010 =>
    if 0x1000 ≤ o then o < 0x2800 && s.owner 2 ((o - 0x1000) / 0x100) == p
    else !w && o < 0x30 && o % 0x10 == 0 && (List.range 8).any fun k => s.owner 2 (8 * (o / 0x10) + k) == p
  | 0x4011 => 0x1000 ≤ o && o < 0x2400 && s.owner 3 ((o - 0x1000) / 0x40) == p
  | 0x4012 => o < 0x600 && s.owner 2 (o / 0x40) == p
  | 0x4014 => s.owner 1 (o / 0x1000) == p
  | 0x4015 => 0x1000 ≤ o && o < 0x2000 && s.bindingOwner ((o - 0x1000) / 0x40) == p
  | 0x4018 =>
    if 0x1000 ≤ o then o < 0x3000 && s.owner 4 ((o - 0x1000) / 0x100) == p
    else o == 0x100 || (!w && o < 0x40 && o % 0x10 == 0 && (List.range 8).any fun k => s.owner 4 (8 * (o / 0x10) + k) == p)
  | 0x4020 => 0x1000 ≤ o && o < 0x9000 && s.owner 5 ((o - 0x1000) / 0x400) == p
  | 0x4021 =>
    if o < 0x2000 then s.owner 5 (o / 0x100) == p else o < 0x3000 && s.owner 5 ((o - 0x2000) / 0x80) == p
  | 0x4022 =>
    if o < 0x100 then true
    else if o < 0x300 then s.owner 5 ((o - 0x100) / 0x10) == p
    else 0x1000 ≤ o && o < 0x3000 && s.armOwner ((o - 0x1000) / 0x100) == p
  | 0x4024 => 0x1000 ≤ o && o < 0x2000 && s.owner 6 ((o - 0x1000) / 0x100) == p
  | 0x4028 =>
    if o < 0x1000 then true
    else if o < 0x3000 then s.owner 8 ((o - 0x1000) / 0x20) == p
    else 0x4000 ≤ o && o < 0xA000 && s.owner 8 ((o - 0x4000) / 0x60) == p
  | 0x4030 =>
    let n := (o - 0x1000) / 0x100
    let r := (o - 0x1000) % 0x100
    0x1000 ≤ o && o < 0x1400 &&
      ((r != 0x80 && s.owner 7 n == p) || ((r == 0x80 || r == 0 || r == 0x3C) && s.feederLoopOwner n == p))
  | 0x4034 => 0x1000 ≤ o && o < 0x3000 && (o - 0x1000) / 0x400 == p
  | 0x4038 =>
    let r := o % 0x1000
    0x1000 ≤ o && o < 0x3000 && (r == 0x14 || (0x400 ≤ r && r < 0x600 && (r - 0x400) / 0x40 == p))
  | 0x403C => 0x1000 ≤ o && o < 0x1800 && s.fnOwner ((o - 0x1000) / 0x100) == p
  | 0x403E =>
    let c := o / 0x1000
    if c < 2 then s.owner 9 c == p
    else if c < 6 then s.owner 10 (c - 2) == p
    else if c < 10 then s.owner 11 (c - 6) == p
    else if c < 12 then s.owner 12 (c - 10) == p
    else c == 12
  | 0x4040 => o == 0 || (0x1000 ≤ o && o < 0x1800 && s.dmaOwner ((o - 0x1000) / 0x40) == p)
  | _ => false

/-- Is a register one of a hardware lock (R389)? -/
def isLockReg (a : Nat) : Bool := 0x40011000 ≤ a && a < 0x40012000

/-- Can a requester acquire locks (Table 17.6, R396)? -/
def canLock : Requester → Bool
  | .core _ | .pcie _ => true
  | _ => false

/-- The code of a requester at the locks: a lockstep pair has that of its even core (R395). -/
def State.lockCode (s : State) : Requester → Nat
  | .core c => if c.val < 8 ∧ s.lockstep (c.val / 2) then c.val / 2 * 2 else c.val
  | q => q.code

/-- The owner of the view in which a requester acts (R387, R509). The session, Ethernet and feeder engines act in the
view of the partition they serve, which the operation names. -/
def State.viewOf (s : State) : Requester → Nat
  | .core c => s.coreOwner c
  | .lane n => s.owner 1 n
  | .dap => let v := s.get R.DBG_DAP_VIEW_VIEW; if v < 8 then v else platform
  | .pcie n => s.fnOwner n
  | .dma n => s.dmaOwner n
  | _ => platform

/-- Does the view of owner `view` hold address `a` for an access of kind `k` (R386, Table 17.3)? -/
def State.inView (s : State) (view : Nat) (k : Access) (a : Nat) : Bool :=
  let plat := view == platform
  match regionOf a with
  | none => false
  | some .rom => k != .write && (plat || a < 0x1000)
  | some .flash => k != .write && (plat ||
      (let b := (a - 0x08000000) / 0x10000
       let f := s.get (R.PART_Pn_FLASH_FIRST view)
       view < 8 && f ≤ b && b < f + s.get (R.PART_Pn_FLASH_COUNT view)))
  | some .info => k == .read && plat
  | some (.sram b) => plat || (view < 8 && s.bankOwner b == view)
  | some .ctx => k == .read && plat
  | some (.laneCode n) => (plat || s.owner 1 n == view) && k != .fetch && (k == .read || !s.laneBound n)
  | some (.laneData n) => (plat || s.owner 1 n == view) && k != .fetch
  | some (.itcm n) | some (.dtcm n) => plat || (s.coreOwner n == view && (n % 2 == 0 || !s.lockstep (n / 2)))
  | some .supTcm => plat
  | some .per => k != .fetch && a / 0x10000 != 0x4048 && (plat || (view < 8 && s.regInView view (k == .write) a))
  | some .priv => false

/-- Is an access of `n` bytes at `a` of a form its region allows (R7, R248, R417)? -/
def formOk (a n : Nat) : Bool :=
  match regionOf a with
  | some .per | some .priv => n == 4 && a % 4 == 0
  | _ => true

/-- Is the debug scope of a partition, or of the platform, open (R510, Table 22.8)? -/
def State.scopeOpen (s : State) (o : Nat) : Bool :=
  let allowed := o < 8 && s.on (R.PART_Pn_CFG_DEBUG_ALLOWED o)
  match s.fuses.lcs with
  | 0 | 1 | 4 => true
  | 2 => if o < 8 then allowed else s.on R.DBG_AUTH_STATUS_GRANT_PLAT
  | 3 => allowed && s.bitOn R.DBG_AUTH_STATUS_GRANT_PARTS o
  | _ => false

/-- Does the TAP reach the debug access port (R509, R565)? -/
def State.dapLinked (s : State) : Bool := s.tap.instr == 0x20 && s.fuses.lcs != 5

/-- Does the fence let requester `q`, at level U when `u`, acting in `view`, make an access of kind `k` to the `n` bytes at `a`?
Core-private space is reached by its own core alone, at S or M (R291); a host core at U reaches no peripheral register but those
of locks (R389); only lock holders read ACQ (R396). The debug access port acts in a view whose scope is open (R509), and
reaches the registers of its own block in any. -/
def State.fenceOk (s : State) (q : Requester) (view : Nat) (u : Bool) (k : Access) (a n : Nat) : Bool :=
  match q, regionOf a with
  | .core _, some .priv => !u && k != .fetch
  | .dap, some .per => (k != .fetch && a / 0x10000 == 0x404C) || (s.scopeOpen view && s.inView view k a && !(isLockReg a && a % 0x10 == 0))
  | .dap, some _ => s.scopeOpen view && s.inView view k a && s.inView view k (a + n - 1)
  | _, some .per => s.inView view k a && !(u && !isLockReg a) &&
      !(isLockReg a && a % 0x10 == 0 && k == .read && !canLock q)
  | .core c, some (.itcm m) => s.inView view k a && (k != .fetch || c.val == m)
  | _, some _ => s.inView view k a && s.inView view k (a + n - 1)
  | _, none => false

/-- Does a write of `n` bytes at `a` touch the staging range of a reload that `view` asked for, which is read-only from START to the
end of SWITCHING (R48)? -/
def State.staged (s : State) (view a n : Nat) : Bool :=
  match s.reload with
  | some r => r.part == view && decide (r.stage < a + n) && decide (a < r.stage + r.len)
  | none => false

/-- May requester `q`, at level U when `u`, acting in `view`, make an access of kind `k` to the `n` bytes at `a`: the form is one that the
region allows, the fence lets it pass, and a write leaves the staging range alone? -/
def State.reach (s : State) (q : Requester) (view : Nat) (u : Bool) (k : Access) (a n : Nat) : Bool :=
  formOk a n && s.fenceOk q view u k a n && !(k == .write && s.staged view a n)

/-- An access of `n` bytes at `a` that `State.reach` does not allow is refused. One outside the view is recorded (R388). One that only
has a form its region does not allow, or that only writes into a staging range, is a bus error that changes nothing (R7, R48). -/
def State.refuse (s : State) (q : Requester) (view : Nat) (k : Access) (a n : Nat) (u : Bool := false) : State :=
  if s.fenceOk q view u k a n then s
  else if s.on R.PART_FENCE_INFO_VALID then s.put R.PART_FENCE_INFO_OVER 1
  else
    let v := 2 ^ 31 + (s.get R.PART_FENCE_INFO_OVER) * 2 ^ 30 + q.code * 2 ^ 24 + (if k = .write then 2 ^ 9 else 0)
      + (if k = .fetch then 2 ^ 8 else 0) + view % 16
    (((s.wr R.PART_FENCE_INFO (BitVec.ofNat 32 v)).put R.PART_FENCE_INFO_VALID 1).wr R.PART_FENCE_ADDR (BitVec.ofNat 32 a)).raise 766

/-- Is the device in a DEVICE reset, STANDBY or DORMANT, so that nothing reaches a register (R486, R516)? -/
def State.dead (s : State) : Bool := s.chip.held || s.chip.asleep != 0

/-- Is a requester a core that runs at level U (R389)? -/
def State.atU (s : State) : Requester → Bool
  | .core c => fieldGet (s.cpus.get (Cpu.init c) c).ps 8 2 == 0
  | _ => false

/-- A register access of requester `q` to address `a` that arrives at its block: the effect where the view allows it,
the record of a refusal elsewhere (R388). -/
def State.access (s : State) (q : Requester) (k : Access) (r : Reg) (eff : State → State) : State :=
  if s.dead || (q == .dap && !s.dapLinked) then s
  else if s.reach q (s.viewOf q) (s.atU q) k r.addr 4 then eff s else s.refuse q (s.viewOf q) k r.addr 4 (s.atU q)

/-- A command that writes a register. -/
def regWrite (q : Requester) (r : Reg) (eff : State → State) (s : State) : Out := .next (s.access q .write r eff)
/-- A command that reads a register for its side effect. -/
def regRead (q : Requester) (r : Reg) (eff : State → State) (s : State) : Out := .next (s.access q .read r eff)

end Sys2Proof.Machine
end

