-- ==== Sys2Proof/Machine/Locks.lean ====
section
/-!
DEFINITION. Hardware locks (spec/17, R395 to R401): acquiring, renewing, releasing and breaking.
-/
namespace Sys2Proof.Machine

/-- The lease of lock `k`, where it has one. -/
def State.lease (s : State) (k : Nat) : Option Lease := (s.leases.find? fun e => e.1 == k).map (·.2)

/-- Start the lease of lock `k`, acquired at `got`, from its full length (R398). -/
def State.startLease (s : State) (k : Nat) (got : Time) : State :=
  let ms := s.on (R.PART_LOCKk_LEASE_UNIT k)
  ({ s with leases := s.leases.set k ⟨s.now, s.get (R.PART_LOCKk_LEASE_LEASE k), ms, got, none⟩ } : State).putB (R.PART_LOCKk_STAT_UNIT k) ms

/-- Ticks in a unit of a lease. -/
def Lease.unit (l : Lease) : Nat := if l.ms then us 1000 else us 1

/-- Units of the lease of lock `k` that remain; 0 when it is free (R398). -/
def State.leaseLeft (s : State) (k : Nat) : Nat :=
  match s.lease k with
  | some l => l.len - s.since l.start / l.unit
  | none => 0

/-- The lock becomes free; BROKEN keeps its value (R397). -/
def State.freeLock (s : State) (k : Nat) : State :=
  ((({ s with leases := s.leases.drop (· == k) } : State).put (R.PART_LOCKk_STAT_HELD k) 0).put (R.PART_LOCKk_STAT_OWNER k) 0x3F).put
    (R.PART_LOCKk_STAT_UNIT k) 0

/-- The owner that a break of lock `k` in this cycle has struck (R401). -/
def State.justStruck (s : State) (k : Nat) : Option Nat :=
  match s.lease k with | some l => if s.sameCycle l.start then l.struck else none | none => none

/-- Hardware releases a held lock and marks it BROKEN with a cause of Table 17.7 (R399); of two causes in one cycle CAUSE takes the
lower number (R401). -/
def State.breakLock (s : State) (k cause : Nat) : State :=
  if s.on (R.PART_LOCKk_STAT_HELD k) then
    let owner := s.get (R.PART_LOCKk_STAT_OWNER k)
    let s := (((s.freeLock k).put (R.PART_LOCKk_STAT_BROKEN k) 1).put (R.PART_LOCKk_STAT_CAUSE k) cause).raise 767
    { s with leases := s.leases.set k ⟨s.now, 0, false, s.now, some owner⟩ }
  else if (s.justStruck k).isSome && decide (cause < s.get (R.PART_LOCKk_STAT_CAUSE k)) then s.put (R.PART_LOCKk_STAT_CAUSE k) cause
  else s

/-- Break every held lock whose owner code satisfies `f` (R399). -/
def State.breakLocks (s : State) (f : Nat → Bool) (cause : Nat) : State :=
  s.each ((List.range 256).filter fun k =>
      (s.on (R.PART_LOCKk_STAT_HELD k) && f (s.get (R.PART_LOCKk_STAT_OWNER k))) ||
      (match s.justStruck k with | some o => f o | none => false))
    fun k t => t.breakLock k cause

/-- The lease of a held lock has run out, `margin` ticks ago at least: it expires (R399). -/
def State.lockExpire (s : State) (k margin : Nat) : State :=
  s.when (s.on (R.PART_LOCKk_STAT_HELD k) && match s.lease k with
    | some l => decide (l.len * l.unit + margin ≤ s.since l.start)
    | none => true) fun s => s.breakLock k 4

/-- A lock acquired in the cycle in which a reset of its owner's partition begins was not acquired; others break (R399, R401). -/
def State.resetLock (s : State) (k : Nat) : State :=
  match s.lease k with
  | some l => if s.sameCycle l.got then s.freeLock k else s.breakLock k 1
  | none => s.breakLock k 1
/-- The locks whose owner code satisfies `f` at a reset of a partition. -/
def State.resetLocks (s : State) (f : Nat → Bool) : State :=
  let s := s.each ((List.range 256).filter fun k => s.on (R.PART_LOCKk_STAT_HELD k) && f (s.get (R.PART_LOCKk_STAT_OWNER k))) fun k t => t.resetLock k
  s.breakLocks f 1

/-- A read of PART_LOCKk_ACQ by a requester that can hold locks: the value returned and the new state (R396). A lease that runs out in
this cycle expires first (R401). -/
def State.lockAcquire (s : State) (q : Requester) (k : Nat) : Word × State :=
  let s := s.lockExpire k 0
  let code := s.lockCode q
  let broken := s.get (R.PART_LOCKk_STAT_BROKEN k)
  if !s.on (R.PART_LOCKk_STAT_HELD k) then
    (BitVec.ofNat 32 (2 ^ 31 + broken * 2 ^ 30 + code * 2 ^ 24),
     ((s.put (R.PART_LOCKk_STAT_HELD k) 1).put (R.PART_LOCKk_STAT_OWNER k) code).startLease k s.now)
  else
    let owner := s.get (R.PART_LOCKk_STAT_OWNER k)
    if owner = code then (BitVec.ofNat 32 (2 ^ 31 + broken * 2 ^ 30 + owner * 2 ^ 24 + 2 ^ 23), s)
    else (BitVec.ofNat 32 (broken * 2 ^ 30 + owner * 2 ^ 24), s)

/-- A write of `v` to PART_LOCKk_CTRL (R397, R399): the owner's bits act in the order CLEAR_BROKEN, RENEW, RELEASE. A lease that runs out
in this cycle of the peripheral bus, of 10 ns, expires after the write (R401). -/
def lockCtrlWrite (q : Requester) (k v : Nat) (s : State) : State :=
  let s := s.lockExpire k (ns 10)
  let view := s.viewOf q
  let mine := s.on (R.PART_LOCKk_STAT_HELD k) && s.get (R.PART_LOCKk_STAT_OWNER k) == s.lockCode q && canLock q
  let s := s.when (bit v 3 && view == platform) fun s => s.breakLock k 6
  if mine then
    let s := s.when (bit v 2) fun s => s.put (R.PART_LOCKk_STAT_BROKEN k) 0
    let s := s.when (bit v 1 && s.on (R.PART_LOCKk_STAT_HELD k)) fun s => s.startLease k (match s.lease k with | some l => l.got | none => s.now)
    s.when (bit v 0 && s.on (R.PART_LOCKk_STAT_HELD k)) fun s => s.freeLock k
  else if view < 8 then (s.put (R.PART_Pn_LOCKERR_NOT_OWNER view) 1).put (R.PART_Pn_LOCKERR_LOCK view) k
  else s

/-- LOCK_ACQUIRE (R396): a read of PART_LOCKk_ACQ. -/
def execLockAcquire (q : Requester) (k : Fin 256) (s : State) : Out :=
  regRead q (R.PART_LOCKk_ACQ k) (fun s => let (v, s) := s.lockAcquire q k; { s with resp := some v }) s

/-- LOCK_RELEASE (R397). -/
def execLockRelease (q : Requester) (k : Fin 256) (s : State) : Out := regWrite q (R.PART_LOCKk_CTRL k) (lockCtrlWrite q k 1) s
/-- LOCK_RENEW (R397). -/
def execLockRenew (q : Requester) (k : Fin 256) (s : State) : Out := regWrite q (R.PART_LOCKk_CTRL k) (lockCtrlWrite q k 2) s
/-- CLEAR_BROKEN (R397). -/
def execClearBroken (q : Requester) (k : Fin 256) (s : State) : Out := regWrite q (R.PART_LOCKk_CTRL k) (lockCtrlWrite q k 4) s
/-- FORCE_RELEASE (R399). -/
def execForceRelease (q : Requester) (k : Fin 256) (s : State) : Out := regWrite q (R.PART_LOCKk_CTRL k) (lockCtrlWrite q k 8) s
/-- LEASE_EXPIRY (R399): the lease of a held lock expires. -/
def execLeaseExpiry (k : Fin 256) (s : State) : Out := .next (if s.leaseLeft k = 0 then s.breakLock k 4 else s)

end Sys2Proof.Machine
end

