-- ==== Sys2Proof/Machine/Msix.lean ====
section
/-!
DEFINITION. MSI-X vectors of the PCIe functions (spec/16, R380): requests, pending bits and the sources of Table 16.4.
-/
namespace Sys2Proof.Machine

/-- A PCIe function beside its registers. -/
def State.fn (s : State) (f : Nat) : PcieFn := s.pcie.get {} f
/-- Change it. -/
def State.setFn (s : State) (f : Nat) (x : PcieFn) : State := { s with pcie := s.pcie.set f x }

/-- Word `w` of the MSI-X table; the vector-control words are masked at reset. -/
def PcieFn.word (x : PcieFn) (w : Nat) : Word := x.table.get (if w % 4 = 3 then 1#32 else 0#32) w

/-- May vector `v` of function `f` be sent (R380)? -/
def State.maySend (s : State) (f v : Nat) : Bool :=
  s.on (R.PCIE_Fn_STATUS_MSIX_EN f) && s.on (R.PCIE_Fn_STATUS_BME f) && !s.on (R.PCIE_Fn_STATUS_FN_MASK f) &&
    !bit ((s.fn f).word (4 * v + 3)).toNat 0

/-- A request for vector `v` of function `f` (R380). -/
def State.vector (s : State) (f v : Nat) : State :=
  if !s.on (R.PCIE_Fn_STATUS_PRESENT f) then s
  else
    let x := s.fn f
    if s.maySend f v && !bit x.pend v then s.setFn f { x with want := setBit x.want v true }
    else s.setFn f { x with pend := setBit x.pend v true }

/-- Source `j` of Table 16.4 of partition `p` rises (R380). -/
def State.source (s : State) (p j : Nat) : State :=
  let f := s.get (R.PART_Pn_CFG_PCIE_FN p)
  if p < 8 && s.on (R.PART_Pn_CFG_PRESENT p) && f < 8 && s.on (R.PCIE_Fn_VMAPk_EN f (j / 4) (j % 4)) then
    s.vector f (s.get (R.PCIE_Fn_VMAPk_VECTOR f (j / 4) (j % 4)))
  else s

/-- The bits of a write to VREQ_LO, or to VREQ_HI when `hi` (R380). -/
def vreqWrite (f : Nat) (hi : Bool) (v : Nat) (s : State) : State :=
  s.each ((List.range 32).filter fun b => bit v b) fun b t => t.vector f (if hi then 32 + b else b)

/-- VREQ (R380). -/
def execVreq (q : Requester) (n : Fin 8) (hi : Bool) (mask : Word) (s : State) : Out :=
  regWrite q (if hi then R.PCIE_Fn_VREQ_HI n else R.PCIE_Fn_VREQ_LO n) (vreqWrite n hi mask.toNat) s

/-- MSIX_MESSAGE (R380): a requested vector that may be sent leaves as one message; one that may no longer be sent becomes
pending. -/
def execMsixMessage (n : Fin 8) (v : Fin 64) (s : State) : Out :=
  .next (let x := s.fn n
    if !(bit x.want v || bit x.pend v) then s
    else if s.maySend n v then
      { s.setFn n { x with want := setBit x.want v false, pend := setBit x.pend v false } with
        up := some ⟨n, (x.word (4 * v)).toNat + 2 ^ 32 * (x.word (4 * v + 1)).toNat,
          [(x.word (4 * v + 2)).extractLsb' 0 8, (x.word (4 * v + 2)).extractLsb' 8 8, (x.word (4 * v + 2)).extractLsb' 16 8,
           (x.word (4 * v + 2)).extractLsb' 24 8]⟩ }
    else s.setFn n { x with want := setBit x.want v false, pend := setBit x.pend v true })

/-- A configuration write sets Memory Space Enable, Bus Master Enable, MSI-X enable and the function mask (R380, Table 16.6). -/
def State.pcieConfig (s : State) (f : Nat) (mem bme msix mask : Bool) : State :=
  let ev := bme != s.on (R.PCIE_Fn_STATUS_BME f) || msix != s.on (R.PCIE_Fn_STATUS_MSIX_EN f)
  ((((s.putB (R.PCIE_Fn_STATUS_MEM_EN f) mem).putB (R.PCIE_Fn_STATUS_BME f) bme).putB (R.PCIE_Fn_STATUS_MSIX_EN f) msix).putB
    (R.PCIE_Fn_STATUS_FN_MASK f) mask).when ev fun s => s.raise (724 + f)

/-- PCIE_CONFIG_WRITE (R380). -/
def execPcieConfigWrite (n : Fin 8) (mem bme msix mask : Bool) (s : State) : Out :=
  .next (if s.on (R.PCIE_Fn_STATUS_PRESENT n) then s.pcieConfig n mem bme msix mask else s)

/-- Is function `f` on link `l` (R376)? -/
def State.onLink (s : State) (l f : Nat) : Bool := if s.on (R.PCIE_LINKl_STATUS_SPLIT 0) then f / 4 == l else l == 0

/-- A function's configuration, MSI-X table and pending bits return to reset, the flag that says why sets (R381), and the
locks that the function holds break (R399). -/
def State.fnReset (s : State) (f : Nat) (flag : RF) : State :=
  (((((((s.breakLocks (· == 16 + f) 5).put (R.PCIE_Fn_STATUS_MEM_EN f) 0).put (R.PCIE_Fn_STATUS_BME f) 0).put (R.PCIE_Fn_STATUS_MSIX_EN f) 0).put
    (R.PCIE_Fn_STATUS_FN_MASK f) 0).setFn f {}).put flag 1).when
    (!s.on flag || s.on (R.PCIE_Fn_STATUS_BME f) || s.on (R.PCIE_Fn_STATUS_MSIX_EN f)) fun s => s.raise (724 + f)

/-- FUNCTION_LEVEL_RESET (R381). -/
def execFunctionLevelReset (n : Fin 8) (s : State) : Out :=
  .next (if s.on (R.PCIE_Fn_STATUS_PRESENT n) then s.fnReset n (R.PCIE_Fn_STATUS_FLR n) else s)

/-- A hot reset of link `l`, or, when `down`, a link-down (R381). -/
def State.hotReset (s : State) (l : Nat) (down : Bool) : State :=
  let s := s.when down fun s => (((s.put (R.PCIE_LINKl_STATUS_UP l) 0).put (R.PCIE_LINKl_STATUS_WIDTH l) 0).put
    (R.PCIE_LINKl_STATUS_SPEED l) 0).put (R.PCIE_LINKl_STATUS_L1 l) 0
  s.each ((List.range 8).filter fun f => s.onLink l f && s.on (R.PCIE_Fn_STATUS_PRESENT f)) fun f t =>
    t.fnReset f (R.PCIE_Fn_STATUS_HOT_RESET f)

/-- HOT_RESET (R381). -/
def execHotReset (l : Fin 2) (down : Bool) (s : State) : Out := .next (s.hotReset l down)

/-- PCIE_LINK_UP (R375, R376): link `l` trains, with its speed code and width. -/
def execPcieLinkUp (l : Fin 2) (speed : Fin 4) (width : Fin 5) (s : State) : Out :=
  .next (if (List.range 8).any (fun f => s.onLink l f && s.on (R.PCIE_Fn_STATUS_PRESENT f)) && s.running 90 && s.running 91 &&
      !s.domReset 90 && !s.domReset 91 then
    ((s.put (R.PCIE_LINKl_STATUS_UP l) 1).put (R.PCIE_LINKl_STATUS_SPEED l) speed).put (R.PCIE_LINKl_STATUS_WIDTH l) width
  else s)

end Sys2Proof.Machine
end

