-- ==== Sys2Proof/Machine/Mem.lean ====
section
/-!
DEFINITION. Memory: bytes in one canonical form, lines with their ECC and parcel checks (spec/18), and the arbiters in front of the
memories (spec/19).
-/
namespace Sys2Proof.Machine

/-! ### Bytes -/

/-- What a byte that the list does not hold reads as: erased flash reads 0xFF, wiped RAM reads 0 (R392, R407). -/
def memDefault (a : Nat) : Byte := if 0x08000000 ≤ a ∧ a < 0x0A040000 then 0xFF#8 else 0#8

/-- Read one byte of the list. -/
def Mem.get : List Host.Cell → Nat → Byte
  | [], a => memDefault a
  | (k, v) :: t, a => if k = a then v else Mem.get t a

/-- Write one byte, keeping the canonical form: keys rise and no entry equals the default. -/
def Mem.put : List Host.Cell → Nat → Byte → List Host.Cell
  | [], a, v => if v = memDefault a then [] else [(a, v)]
  | (k, w) :: t, a, v =>
    if a < k then (if v = memDefault a then (k, w) :: t else (a, v) :: (k, w) :: t)
    else if a = k then (if v = memDefault a then t else (a, v) :: t)
    else (k, w) :: Mem.put t a v

/-- Write bytes from address `a` on. -/
def Mem.puts : List Host.Cell → Nat → List Byte → List Host.Cell
  | m, _, [] => m
  | m, a, b :: bs => Mem.puts (Mem.put m a b) (a + 1) bs

/-- The canonical form of memory. -/
def Mem.wf : List Host.Cell → Bool
  | [] => true
  | [(a, v)] => v != memDefault a
  | (a, v) :: (b, w) :: t => v != memDefault a && decide (a < b) && Mem.wf ((b, w) :: t)

/-- Forget what is listed in [lo, hi): those bytes read their default again (a wipe of RAM, an erase of flash). -/
def Mem.clear (m : List Host.Cell) (lo hi : Nat) : List Host.Cell := m.filter fun c => !(decide (lo ≤ c.1) && decide (c.1 < hi))

/-- The flash block of an address: user blocks 0 to 511, information blocks 512 to 515. -/
def flashBlock (a : Nat) : Nat := if a < 0x0A000000 then (a - 0x08000000) / 0x10000 else 512 + (a - 0x0A000000) / 0x10000

/-- The seed of the free bytes of an address in a flash block that an erase has left indeterminate (R451, R460). -/
def State.mixSeed (s : State) (a : Nat) : Option Nat :=
  if 0x08000000 ≤ a ∧ a < 0x0A040000 then (s.flash.mix.find? fun e => e.1 == flashBlock a).map (·.2) else none

/-- One byte as stored; ROM holds bytes that the spec does not give (R402). -/
def State.byteAt (s : State) (a : Nat) : Byte :=
  if a < 0x40000 then Config.romByte a
  else match s.mixSeed a with
    | some k => Config.mixByte k a
    | none => Mem.get s.mem a
/-- `n` bytes as stored. -/
def State.bytesAt (s : State) (a n : Nat) : List Byte := (List.range n).map fun i => s.byteAt (a + i)
/-- Store bytes with no check of any kind. -/
def State.poke (s : State) (a : Nat) (bs : List Byte) : State := { s with mem := Mem.puts s.mem a bs }

/-- A number from little-endian bytes (R5). -/
def leNat : List Byte → Nat
  | [] => 0
  | b :: bs => b.toNat + 256 * leNat bs
/-- `n` little-endian bytes of a number (R5). -/
def leBytes : Nat → Nat → List Byte
  | 0, _ => []
  | n + 1, v => BitVec.ofNat 8 v :: leBytes n (v / 256)
/-- A number from big-endian bytes. -/
def beNat (bs : List Byte) : Nat := leNat bs.reverse
/-- The `n` bytes of a number, most significant first. -/
def beBytes (n v : Nat) : List Byte := (leBytes n v).reverse
/-- A little-endian number stored at `a`. -/
def State.numAt (s : State) (a n : Nat) : Nat := leNat (s.bytesAt a n)

/-! ### CRCs (R157, R407) -/

/-- One bit step of a reflected CRC-32C. -/
def crc32Bit (c : Nat) : Nat := if c % 2 = 1 then (c / 2) ^^^ 0x82F63B78 else c / 2
/-- One byte into a CRC-32C register. -/
def crc32Byte (c : Nat) (b : Byte) : Nat :=
  crc32Bit (crc32Bit (crc32Bit (crc32Bit (crc32Bit (crc32Bit (crc32Bit (crc32Bit (c ^^^ b.toNat))))))))
/-- CRC-32C of a byte string (R157). -/
def crc32c (bs : List Byte) : Nat := (bs.foldl crc32Byte 0xFFFFFFFF) ^^^ 0xFFFFFFFF
/-- One bit step of CRC-8 with polynomial 0x2F. -/
def crc8Bit (c : Nat) : Nat := if 128 ≤ c % 256 then ((c * 2) ^^^ 0x2F) % 256 else c * 2 % 256
/-- One byte into a CRC-8 register. -/
def crc8Byte (c : Nat) (b : Byte) : Nat :=
  crc8Bit (crc8Bit (crc8Bit (crc8Bit (crc8Bit (crc8Bit (crc8Bit (crc8Bit (c ^^^ b.toNat))))))))
/-- The CRC-8 of a block or a header (R157). -/
def crc8 (bs : List Byte) : Nat := (bs.foldl crc8Byte 0xFF) ^^^ 0xFF

/-! ### Lines, ECC and parcel checks (R405 to R414) -/

/-- The memory code of MEMC_ERR_INFO for a region that stores lines (R405). -/
def memCode : Option Region → Option Nat
  | some (.sram _) => some 0
  | some .ctx => some 1
  | some (.laneCode _) | some (.laneData _) => some 2
  | some (.itcm _) | some (.dtcm _) => some 3
  | some .supTcm => some 4
  | _ => none

/-- What is known of the line of address `a`. -/
def State.mark (s : State) (a : Nat) : LineMark := s.marks.get {} (a / 64)
/-- Set it; a sound line is not listed. -/
def State.setMark (s : State) (a : Nat) (m : LineMark) : State :=
  { s with marks := if m = {} then s.marks.drop (· == a / 64) else s.marks.set (a / 64) m }

/-- Who makes an access: the requester and the owner of its view. -/
structure Who where
  req  : Requester
  view : Nat
  deriving DecidableEq, Repr

/-- Record an uncorrectable error (kind 1) or a parcel mismatch (kind 2) at `addr` of memory `m` (R413); MEM_ERR of SUP_FAULT
rises with VALID (R499). -/
def State.memError (s : State) (w : Who) (m addr kind : Nat) : State :=
  let s := if kind = 1 then s.incSat R.MEMC_UNCORR_COUNT else s.incSat R.MEMC_PARCEL_COUNT
  if s.on R.MEMC_ERR_INFO_VALID then s.put R.MEMC_ERR_INFO_OVER 1
  else
    let lane := match w.req with | .lane n => n.val | _ => 0
    let v := 2 ^ 31 + s.get R.MEMC_ERR_INFO_OVER * 2 ^ 30 + w.req.code * 2 ^ 24 + lane * 2 ^ 20 + w.view % 16 * 2 ^ 16
      + m * 2 ^ 8 + kind
    (((s.wr R.MEMC_ERR_INFO (BitVec.ofNat 32 v)).put R.MEMC_ERR_INFO_VALID 1).wr R.MEMC_ERR_ADDR (BitVec.ofNat 32 addr)).raise 764

/-- Is an address one of flash, user blocks or information area? -/
def inFlash (a : Nat) : Bool := decide (0x08000000 ≤ a) && decide (a < 0x0A040000)
/-- The array of a flash address (Table 20.1). -/
def flashArray (a : Nat) : Nat := if a < 0x0A000000 then (a - 0x08000000) / 0x800000 else 4

/-- The ECC of the flash unit of `a` (R443): 0 sound, 1 a correctable error, 2 an uncorrectable one. -/
def State.unitEcc (s : State) (a : Nat) : Nat :=
  match s.mixSeed a with
  | some k => Config.mixEcc k (a / 32) % 3
  | none => s.flash.ecc.get 0 (a / 32)

/-- A counter of 32 bits counts up and saturates. -/
def countUp (n : Nat) : Nat := min (n + 1) (2 ^ 32 - 1)

/-- Read the flash unit of `a` (R443): an error is corrected or detected, and counted for the array. The answer is false when the stored
bits come uncorrected. -/
def State.flashEcc (s : State) (a : Nat) : Bool × State :=
  let b := flashArray a
  match s.unitEcc a with
  | 0 => (true, s)
  | 1 => (true, { s with flash := { s.flash with corr := s.flash.corr.upd 0 b countUp } })
  | _ => (false, { s with flash := { s.flash with uncorr := s.flash.uncorr.upd 0 b countUp } })

/-- Read the line of `a` under ECC (R406, R443): a single error is corrected and counted, an uncorrectable one recorded. The
answer is false when the line is uncorrectable. -/
def State.lineRead (s : State) (w : Who) (a : Nat) : Bool × State :=
  match memCode (regionOf a) with
  | none => if inFlash a then s.flashEcc a else (true, s)
  | some m =>
    let mk := s.mark a
    if mk.double then (false, s.memError w m (a / 64 * 64) 1)
    else if mk.single then (true, (s.setMark a { mk with wback := true }).incSat R.MEMC_CORR_COUNT)
    else (true, s)

/-- Read the line of `a` whole at an egress point (R411). -/
def State.lineEgress (s : State) (w : Who) (a : Nat) : Bool × State :=
  let (ok, s) := s.lineRead w a
  if !ok then (false, s)
  else match memCode (regionOf a) with
    | some m => if (s.mark a).chk = 0#32 then (true, s) else (false, s.memError w m (a / 64 * 64) 2)
    | none => (true, s)

/-- The lines that the `n` bytes at `a` touch; in flash, the units. -/
def linesOf (a n : Nat) : List Nat :=
  let g := if inFlash a then 32 else 64
  if n = 0 then [] else (List.range ((a + n - 1) / g - a / g + 1)).map fun i => (a / g + i) * g

/-- Read several lines by `f`, stopping at the first that fails. -/
def State.linesBy (f : State → Nat → Bool × State) : List Nat → State → Bool × State
  | [], s => (true, s)
  | l :: ls, s => let (ok, s) := f s l; if ok then State.linesBy f ls s else (false, s)

/-- Read `n` bytes at `a` under ECC only, as loads and fetches do: none where a line is uncorrectable. -/
def State.memRead (s : State) (w : Who) (a n : Nat) : Option (List Byte) × State :=
  let (ok, s) := State.linesBy (fun s l => s.lineRead w l) (linesOf a n) s
  (if ok then some (s.bytesAt a n) else none, s)

/-- Read `n` bytes at `a` at an egress point (R411): none where a line fails. -/
def State.memEgress (s : State) (w : Who) (a n : Nat) : Option (List Byte) × State :=
  let (ok, s) := State.linesBy (fun s l => s.lineEgress w l) (linesOf a n) s
  (if ok then some (s.bytesAt a n) else none, s)

/-- After a write to the line of `a`, an armed injection for it alters the stored line (R414). Which bits it inverts the
spec leaves open: the inverted check bit is a free value. -/
def State.inject (s : State) (a : Nat) : State :=
  if s.on R.MEMC_INJ_CTRL_ARMED && s.get R.MEMC_INJ_ADDR_LINE == a / 64 then
    let s := s.put R.MEMC_INJ_CTRL_ARMED 0
    let mk := s.mark a
    match s.get R.MEMC_INJ_CTRL_KIND with
    | 1 => s.setMark a { mk with single := true }
    | 2 => s.setMark a { mk with double := true }
    | 3 => let (v, s) := s.fresh
           s.setMark a { mk with chk := mk.chk ^^^ BitVec.ofNat 32 (2 ^ (v % 32)) }
    | _ => s
  else s

/-- Write bytes within one line (R408, R410): a whole aligned line takes a check made from its bytes; part of a line
updates the check and writes nothing when the old line is uncorrectable. The answer is false in that case. -/
def State.lineWrite (s : State) (w : Who) (a : Nat) (bs : List Byte) : Bool × State :=
  match memCode (regionOf a) with
  | none => (true, s.poke a bs)
  | some _ =>
    if a % 64 = 0 ∧ bs.length = 64 then (true, ((s.setMark a {}).poke a bs).inject a)
    else
      let (ok, s) := s.lineRead w a
      if !ok then (false, s)
      else (true, ((s.setMark a { chk := (s.mark a).chk }).poke a bs).inject a)

/-- Move a whole line with its check unchanged (R409): `chk` is the difference the source's check carried. -/
def State.lineMove (s : State) (a : Nat) (bs : List Byte) (chk : Word) : State :=
  ((s.setMark a { chk := chk }).poke a bs).inject a

/-- Split bytes at line ends: pieces of (address, bytes). The first argument bounds the number of pieces. -/
def pieces : Nat → Nat → List Byte → List (Nat × List Byte)
  | 0, _, _ => []
  | f + 1, a, bs => if bs.isEmpty then [] else
      let n := 64 - a % 64
      (a, bs.take n) :: pieces f (a + n) (bs.drop n)

/-- Write bytes line by line, stopping at the first line that is uncorrectable. -/
def State.memWrite (s : State) (w : Who) (a : Nat) (bs : List Byte) : Bool × State :=
  (pieces (bs.length / 64 + 2) a bs).foldl (fun r p => if r.1 then r.2.lineWrite w p.1 p.2 else r) (true, s)

/-- Wipe RAM in [lo, hi): zero bytes with valid checks (R392, R407). -/
def State.wipe (s : State) (lo hi : Nat) : State :=
  { s with mem := Mem.clear s.mem lo hi, marks := s.marks.drop fun l => decide (lo ≤ l * 64) && decide (l * 64 < hi) }

/-! ### Arbiters (spec/19) -/

/-- The arbiter in front of an address (Table 19.1). -/
def arbOf (a : Nat) : Option Nat :=
  match regionOf a with
  | some (.sram b) => some b
  | some .ctx => some (32 + (a - 0x20000000) / 0x380000)
  | some .flash | some .info | some .rom => if a < 0x40000 then none else some 48
  | some .per => some 49
  | _ => none

/-- The hog limit of requester `r` at arbiter `a` in force now. -/
def State.hog (s : State) (a r : Nat) : Nat := s.get (R.ARB_Aa_REQr_HOG a r)
/-- Is requester `r` present at arbiter `a` (R426)? -/
def State.arbPresent (s : State) (a r : Nat) : Bool := s.on (R.ARB_Aa_REQr_PRESENT a r)

/-- Is requester `r` cut off for some other waiting requester (R429)? -/
def cutOff (hog r : Nat) (ws : List Wait) : Bool := ws.any fun w => w.req != r && hog ≤ w.k.get 0 r

/-- The eligible requester that one slot grants (R429): highest PRIORITY, then the lowest number above the last granted of
that priority, wrapping. -/
def arbPick (prio : Nat → Nat) (last : Tab Nat) : List Nat → Option Nat
  | [] => none
  | r :: rs =>
    match arbPick prio last rs with
    | none => some r
    | some b =>
      let pr := prio r
      let pb := prio b
      let rot (x : Nat) : Nat := let l := last.get 31 pr; if l < x then x else x + 32
      if pb < pr then some r else if pr < pb then some b else if rot r < rot b then some r else some b

/-- One slot of arbiter `a` among the requests that wait (R429, R432, R433). The answer is the requester granted. -/
def State.arbSlot (s : State) (a : Nat) : Option Nat × State :=
  let x := s.arbs.get {} a
  let ws := x.waiting
  let cut := (ws.map (·.req)).filter fun r => cutOff (s.hog a r) r ws
  let s := s.when (!cut.isEmpty && s.get R.ARB_HOGSUM_LO_HOGGED == 0 && s.get R.ARB_HOGSUM_HI_HOGGED == 0) fun s => s.raise 764
  let s := s.each cut fun r t =>
    let t := ((t.put (R.ARB_Aa_STATUS_HOGGED a) 1).put (R.ARB_Aa_STATUS_HOG_REQ a) r).putBit (R.ARB_Aa_CUT_CUT a) r true
    if a < 32 then t.putBit R.ARB_HOGSUM_LO_HOGGED a true else t.putBit R.ARB_HOGSUM_HI_HOGGED (a - 32) true
  let elig := (ws.map (·.req)).filter fun r => !cut.contains r
  match arbPick (fun r => s.get (R.ARB_Aa_REQr_PRIORITY a r)) x.last elig with
  | none => (none, s)
  | some g =>
    let slots := ((ws.find? fun w => w.req == g).map (·.slots)).getD 0
    let s := if s.get (R.ARB_Aa_WAITMAX_SLOTS a) < slots then
        (s.put (R.ARB_Aa_WAITMAX_SLOTS a) slots).put (R.ARB_Aa_WAITMAX_REQ a) g else s
    let ws' := (ws.filter fun w => w.req != g).map fun w => { w with slots := w.slots + 1, k := w.k.upd 0 g (· + 1) }
    (some g, { s with arbs := s.arbs.set a { x with waiting := ws', last := x.last.set (s.get (R.ARB_Aa_REQr_PRIORITY a g)) g } })

/-- HINT of a waiting request at arbiter `a` (R431). -/
def State.hint (s : State) (a : Nat) (w : Wait) : Nat :=
  min 255 ((((List.range 18).filter fun r => r != w.req && s.arbPresent a r).map fun r => s.hog a r - w.k.get 0 r).sum)

/-- Every waiting requester of arbiter `a` is sent its turn hint (R431). -/
def State.sendHints (s : State) (a : Nat) : State :=
  let x := s.arbs.get {} a
  { s with arbs := s.arbs.set a { x with waiting := x.waiting.map fun w => { w with hint := s.hint a w } } }

/-- Ticks in a slot of arbiter `a` (Table 19.1). -/
def slotTicks (a : Nat) : Nat := if a < 48 then ns 2 else if a = 48 then ns 4 else ns 10
/-- The number of the slot of arbiter `a` that holds the present instant. -/
def State.slotNow (s : State) (a : Nat) : Nat := s.now.toNat / slotTicks a

/-- At the start of slot `slot`, arbiter `a` applies a commit that came in an earlier slot: the shadows as they stood when the commit
write arrived (R11, R434, R435). -/
def State.arbApply (s : State) (a slot : Nat) : State :=
  let x := s.arbs.get {} a
  match x.commit with
  | none => s
  | some (at_, l) =>
    if slot ≤ at_ then s
    else
      let s := s.each l fun e t =>
        (t.put (R.ARB_Aa_REQr_PRIORITY a e.1) (fieldGet e.2 8 3)).put (R.ARB_Aa_REQr_HOG a e.1) (fieldGet e.2 0 8)
      let s := ({ s with arbs := s.arbs.set a { x with commit := none } } : State).put (R.ARB_Aa_STATUS_PENDING a) 0
      let hogs := ((List.range 18).filter fun r => s.arbPresent a r).map fun r => s.hog a r
      s.put (R.ARB_Aa_BOUND_BOUND a) (hogs.foldl (· + ·) 0 - hogs.foldl min 256)

/-- Present a request of `r` unless one of its own already waits. -/
def Arb.present (x : Arb) (r : Nat) : Arb :=
  if x.waiting.any fun w => w.req == r then x else { x with waiting := x.waiting ++ [{ req := r, slots := 0, k := [] }] }

/-- Run slots from number `slot` on until the request of `w` is granted; the requesters in `rivals` present a request whenever they
have none waiting. The first argument bounds the slots (R430). -/
def State.arbRun : Nat → Nat → Nat → Nat → List Nat → State → State
  | 0, _, _, _, _, s => s
  | f + 1, slot, a, w, rivals, s =>
    let x := rivals.foldl Arb.present ((s.arbs.get {} a).present w)
    let (g, s) := (({ s with arbs := s.arbs.set a x } : State).arbApply a slot |>.sendHints a).arbSlot a
    if g = some w then s else State.arbRun f (slot + 1) a w rivals s

/-! ### Ports without settings (R428) -/

/-- The crossbar port of lane RAM, or the external port of a TCM, that an access of requester number `r` to `addr` meets. A core's own
TCM port is not one. -/
def portOf (addr r : Nat) : Option Nat :=
  match regionOf addr with
  | some (.laneCode n) | some (.laneData n) => some (50 + n)
  | some (.itcm n) | some (.dtcm n) => if r = n then none else some (66 + n)
  | some .supTcm => if r = 8 then none else some 74
  | _ => none

/-- One slot of a port: of the waiting requesters, the next one after the last granted. -/
def State.portSlot (s : State) (a : Nat) : Option Nat × State :=
  let x := s.arbs.get {} a
  match arbPick (fun _ => 0) x.last (x.waiting.map (·.req)) with
  | none => (none, s)
  | some g =>
    let ws := (x.waiting.filter fun w => w.req != g).map fun w => { w with slots := w.slots + 1 }
    (some g, { s with arbs := s.arbs.set a { x with waiting := ws, last := x.last.set 0 g } })

/-- Run slots of a port until the request of `w` is granted, within as many slots as there are other requesters. -/
def State.portRun : Nat → Nat → Nat → List Nat → State → State
  | 0, _, _, _, s => s
  | f + 1, a, w, rivals, s =>
    let x := rivals.foldl Arb.present ((s.arbs.get {} a).present w)
    let (g, s) := ({ s with arbs := s.arbs.set a x } : State).portSlot a
    if g = some w then s else State.portRun f a w rivals s

/-- An access of requester number `w` passes the arbiter or the port in front of address `a`, if there is one. -/
def State.arbitrate (s : State) (addr : Nat) (w : Option Nat) (rivals : List Nat) : State :=
  match w with
  | none => s
  | some r => match arbOf addr with
    | some a =>
      if s.arbPresent a r then s.arbRun 4097 (s.slotNow a) a r (rivals.filter fun x => x != r && s.arbPresent a x) else s
    | none => match portOf addr r with
      | some a => s.portRun 19 a r (rivals.filter fun x => x != r && (portOf addr x).isSome)
      | none => s

end Sys2Proof.Machine
end

