-- ==== Sys2Proof/Machine/Line.lean ====
section
/-!
DEFINITION. The line coding of a cell link (R153, R154, R163): 66-bit blocks, the scrambler, the blocks that occur on a link, and what the
receiver makes of invalid blocks.
-/
namespace Sys2Proof.Machine

/-- Length of a block in units of 1/25 tick: 66 bits of 80 ps. -/
def blockUnits : Nat := 4224

/-- 64 bits through the self-synchronous scrambler x^58 + x^39 + 1, least significant first: the bits out and the new state. -/
def scramble (st d : Nat) : Nat × Nat :=
  (List.range 64).foldl (fun (acc : Nat × Nat) i =>
    let b := (d.testBit i != acc.2.testBit 38) != acc.2.testBit 57
    (acc.1 + b.toNat * 2 ^ i, (acc.2 * 2 + b.toNat) % 2 ^ 58)) (0, st)

/-- A block leaves: two sync bits, 10 before a control block and 01 before data, and eight scrambled bytes; bit 0 leaves first. -/
def Flink.put (x : Flink) (ctl : Bool) (bs : List Byte) : Flink :=
  let (w, st) := scramble x.scr (leNat bs)
  { x with line := x.line ++ [4 * w + (if ctl then 1 else 2)], scr := st }

/-- An idle block (Table 7.1). -/
def idleBlock : List Byte := 0x1E#8 :: List.replicate 7 0#8

/-- The SAFE order: O code 0xF, D1, D2, and D3 with the kind (R163). -/
def orderBlock (kind : Nat) : List Byte := [0x4B#8, 0x46#8, 0x53#8, BitVec.ofNat 8 kind, 0x0F#8, 0#8, 0#8, 0#8]

/-- Block `i` of a frame with these 382 bytes: control or data, and its eight bytes (Tables 7.1, 7.2). -/
def frameBlock (fr : List Byte) (i : Nat) : Bool × List Byte :=
  if i = 0 then (true, 0x78#8 :: fr.take 7)
  else if i = 47 then (true, 0xFF#8 :: (fr.drop 375).take 7)
  else (false, (fr.drop (7 + 8 * (i - 1))).take 8)

/-- The receiver over the blocks of a frame, of which `bad` marks the invalid ones: Clause 49 loses block lock at the 16th invalid header of
64, and enters hi-BER at the 16th within 125 µs. The answer is the new counts and the cause of Table 7.12 with which the link is lost. -/
def Flink.receive (x : Flink) (now : Time) (bad : Nat) : Flink × Option Nat :=
  let fresh := decide (us 125 ≤ (now - x.berAt).toNat)
  let x := if fresh then { x with ber := 0, berAt := now } else x
  (List.range 48).foldl (fun (acc : Flink × Option Nat) b =>
    let (x, lost) := acc
    let e := (bad.testBit b).toNat
    let x := { x with heads := x.heads + 1, wrong := x.wrong + e, ber := x.ber + e }
    let lost := if lost.isSome then lost else if 16 ≤ x.wrong then some 5 else if 16 ≤ x.ber then some 6 else none
    (if 64 ≤ x.heads then { x with heads := 0, wrong := 0 } else x, lost)) (x, none)

end Sys2Proof.Machine
end

