-- ==== Sys2Proof/Machine/Pwm.lean ====
section
/-!
DEFINITION. PWM units (spec/06): period grid, compare, reference and outputs, force sources and release. Period starts and
half-periods, which also trigger lanes, are in LaneTrig.lean.
-/
namespace Sys2Proof.Machine

/-- A unit beside its registers. -/
def State.unit (s : State) (n : Nat) : PwmUnit := s.pwm.get {} n
/-- Change it. -/
def State.setUnit (s : State) (n : Nat) (u : PwmUnit) : State := { s with pwm := s.pwm.set n u }

/-! ### Force sources (Table 6.7) -/

/-- Is a supply monitor's WARN output asserted (Table 21.6)? Monitors 8 to 15 are the VDDIO banks. -/
def State.warn (s : State) (m : Nat) : Bool :=
  if m < 8 then s.bitOn R.PWR_SUP_LIVE_CORE m else s.bitOn R.PWR_SUP_LIVE_VDDIO (m - 8)

/-- The comparators that trip unit `n`. -/
def State.tripSrc (s : State) (n c : Nat) : Bool :=
  if c < 32 then s.bitOn (R.PWM_Un_TRIPSRC_LO_CMP_LO n) c else s.bitOn (R.PWM_Un_TRIPSRC_HI_CMP_HI n) (c - 32)

/-- Is an output of a comparator joined to unit `n` active? -/
def State.cmpLive (s : State) (n : Nat) : Bool :=
  (List.range 48).any fun c => s.tripSrc n c && s.on (R.CMP_Cc_STATUS_LIVE c)

/-- Does binding `b` name destination (kind, id)? -/
def State.names (s : State) (b kind id : Nat) : Bool :=
  s.bound b && (List.range 4).any fun k => s.get (R.LNC_Bb_DEST_KIND b k) == kind && s.get (R.LNC_Bb_DEST_ID b k) == id

/-- Does some binding name destination (kind, id)? -/
def State.named (s : State) (kind id : Nat) : Bool := (List.range 64).any fun b => s.names b kind id

/-- Does the commit stage force destination (kind, id): FORCED of a binding that names it, or the force left by a removed
binding (R49, R118)? -/
def State.commitForce (s : State) (kind id : Nat) : Bool :=
  s.orphans.contains (kind, id) ||
  (List.range 64).any fun b => s.on (R.LNC_Bb_STATUS_FORCED b) && s.names b kind id

/-- Is the group of unit `n` aligned and its sub-step calibration locked (R132)? -/
def State.groupReady (s : State) (g : Nat) : Bool :=
  s.running (41 + g) && !s.domReset (41 + g) && s.on (R.PWM_Gg_STATUS_ALIGNED g) && s.on (R.PWM_Gg_STATUS_SUBSTEP_OK g)

/-- The source "unit not running" of Table 6.7, with R134 for a starting unit. -/
def State.unitIdle (s : State) (n : Nat) : Bool :=
  s.ownerInReset (s.owner 4 n) || !s.groupReady (n / 8) || !(s.on (R.PWM_Un_STATUS_RUNNING n) || (s.unit n).starting)

/-- A missing-edge detector forces unit `n` (Table 21.3). -/
def State.unitClkForce (s : State) (n : Nat) : Bool := s.forcing (41 + n / 8) || s.forcing 45

/-- The sources, other than "unit not running", that act on both outputs of unit `n`. -/
def State.unitForce (s : State) (n : Nat) : Bool :=
  s.on (R.PWM_Un_LATCH_TRIP_CMP n) || s.on (R.PWM_Un_LATCH_TRIP_EVT n) || s.commitForce 1 n ||
  s.bitOn R.SUP_FORCE_PWM_UNITS n || s.unitClkForce n || s.on R.SUP_REC_STATUS_FORCE || s.on (R.PWM_Un_FORCE_SW_FORCE n)

/-- Output A (`false`) or B (`true`) of unit `n` has WARN_SAFE set. -/
def State.warnSafe (s : State) (n : Nat) (b : Bool) : Bool :=
  if b then s.on (R.PWM_Un_SAFE_WARN_SAFE_B n) else s.on (R.PWM_Un_SAFE_WARN_SAFE_A n)

/-- Is a supply warning of R149 asserted for unit `n`: VDD_CORE or the bank of its group (spec/24)? -/
def State.unitWarn (s : State) (n : Nat) : Bool := s.warn 0 || s.warn (8 + 3 + n / 8)

/-- Does a source act on the output? -/
def State.outForced (s : State) (n : Nat) (b : Bool) : Bool :=
  s.unitIdle n || s.unitForce n || (if b then s.on (R.PWM_Un_LATCH_WARN_B n) else s.on (R.PWM_Un_LATCH_WARN_A n))

/-- The level bits of PWM_Un_STATUS follow their origins. -/
def State.unitStatus (s : State) (n : Nat) : State :=
  let u := s.unit n
  ((((((((s.putB (R.PWM_Un_STATUS_BOUND n) (s.named 1 n)).putB (R.PWM_Un_STATUS_CMP_LIVE n) (s.cmpLive n)).putB
    (R.PWM_Un_STATUS_COMMIT_FORCE n) (s.commitForce 1 n)).putB (R.PWM_Un_STATUS_SUP_FORCE n) (s.bitOn R.SUP_FORCE_PWM_UNITS n)).putB
    (R.PWM_Un_STATUS_CLK_FORCE n) (s.unitClkForce n)).putB (R.PWM_Un_STATUS_REC_FORCE n) (s.on R.SUP_REC_STATUS_FORCE)).putB
    (R.PWM_Un_STATUS_WARN_LIVE n) (s.unitWarn n)).putB (R.PWM_Un_STATUS_SAFE n) (u.safeA || u.safeB))

/-- The latched sources of unit `n` take what their causes assert: TRIP_CMP a live comparator, WARN_A and WARN_B an
asserted warning (R145, R149). -/
def State.unitLatch (s : State) (n : Nat) : State :=
  let s := s.when (s.cmpLive n) fun s => s.put (R.PWM_Un_LATCH_TRIP_CMP n) 1
  let s := s.when (s.unitWarn n && s.warnSafe n false) fun s => s.put (R.PWM_Un_LATCH_WARN_A n) 1
  s.when (s.unitWarn n && s.warnSafe n true) fun s => s.put (R.PWM_Un_LATCH_WARN_B n) 1

/-- Bring the outputs of unit `n` up to date with the force sources: a forced output drives its safe state (R145, R146),
and PUn_TRIP is raised when the unit goes from no output forced to one forced by a source other than "unit not
running" (Table 6.9). Leaving safe state is for a period start (R147); a source of that cycle undoes it (R148). -/
def State.settleUnit (s : State) (n : Nat) (cause : Cause := none) : State :=
  let s := s.unitLatch n
  let u := s.unit n
  let fA := s.outForced n false
  let fB := s.outForced n true
  let real := s.unitForce n || s.on (R.PWM_Un_LATCH_WARN_A n) || s.on (R.PWM_Un_LATCH_WARN_B n)
  let u' : PwmUnit :=
    { u with safeA := u.safeA || fA, safeB := u.safeB || fB, relA := u.relA && !fA, relB := u.relB && !fB, srcA := fA, srcB := fB,
             endA := if u.srcA && !fA then some s.now else u.endA,
             endB := if u.srcB && !fB then some s.now else u.endB }
  let t := (s.setUnit n u').unitStatus n
  if !u.safeA && !u.safeB && (fA || fB) && real then t.emit (362 + n) cause else t

/-- Every unit brings its outputs up to date. -/
def State.settleUnits (s : State) : State := s.each (List.range 32) fun n t => t.settleUnit n

/-! ### Carrier, compare and reference -/

/-- The active period P of unit `n` in ticks. -/
def State.period (s : State) (n : Nat) : Nat := s.get (R.PWM_Un_PERIOD_PERIOD n)
/-- Carrier position c: ticks since the latest period start. -/
def State.carrier (s : State) (n : Nat) : Nat := s.since (s.unit n).last

/-- Rise and fall positions of Table 6.2 for carrier mode `m`, period `p` and compare `c`; carrier code 3 is reserved
and makes no pulse. -/
def pulse (m p c : Nat) : Nat × Nat :=
  if p ≤ c then (0, p)
  else match m with
    | 0 => (0, c)
    | 1 => (p - c, p)
    | 2 => ((p - c) / 2, (p + c) / 2)
    | _ => (0, 0)

/-- Evaluate the reference of unit `n` at this tick (R139). -/
def State.evalRef (s : State) (n : Nat) : State :=
  if !s.on (R.PWM_Un_STATUS_RUNNING n) then s
  else
    let u := s.unit n
    let c := s.carrier n
    let (r, f) := pulse (s.get (R.PWM_Un_CFG_CARRIER n)) (s.period n) (s.get (R.PWM_Un_CMP_ACTIVE_C n))
    let want := decide (r ≤ c) && decide (c < f)
    let u1 : PwmUnit := if c = 0 then { u with fell := false, rose := u.ref && want, ref := u.ref && want } else u
    let (u2, late) : PwmUnit × Bool :=
      if !u1.rose && want then ({ u1 with ref := true, rose := true }, decide (r < c))
      else if u1.rose && !u1.fell && decide (f ≤ c) then ({ u1 with ref := false, fell := true }, decide (f < c))
      else (u1, false)
    let u3 : PwmUnit := if u2.ref = u.ref then u2 else { u2 with edge := s.now }
    (s.setUnit n u3).when late fun s => s.put (R.PWM_Un_STATUS_LATE_EDGE n) 1

/-- What an output drives at its ball. -/
inductive Drive where
  | low | high | hiz
  deriving DecidableEq, Repr

/-- A safe state of Table 2.9. -/
def safeDrive : Nat → Drive
  | 0 => .low
  | 1 => .high
  | _ => .hiz

/-- The output of unit `n`, A (`false`) or B (`true`), at this tick (R143, R144, R147): its safe state while safe, else the
reference or its inverse delayed by the dead time, counted from the last edge or the release, XOR the polarity. -/
def State.pwmOut (s : State) (n : Nat) (b : Bool) : Drive :=
  let u := s.unit n
  if (if b then u.safeB && !u.relB else u.safeA && !u.relA) then
    safeDrive (s.get (if b then R.PWM_Un_SAFE_STATE_B n else R.PWM_Un_SAFE_STATE_A n))
  else
    let freed := s.since (if b then u.freedB else u.freedA)
    let held (src : Bool) (d : Nat) : Bool := src && decide (d ≤ s.since u.edge) && decide (d ≤ freed)
    let a := held u.ref (s.get (R.PWM_Un_DEADTIME_DT_A n))
    let v := if !b then a else match s.get (R.PWM_Un_CFG_OUT_MODE n) with
      | 0 => held (!u.ref) (s.get (R.PWM_Un_DEADTIME_DT_B n))
      | 2 => a
      | _ => false
    if v != s.on (if b then R.PWM_Un_CFG_POL_B n else R.PWM_Un_CFG_POL_A n) then .high else .low

/-- The PWM cycle, of 32 ticks, in which an instant falls (R141). -/
def pwmCycle (t : Time) : Nat := t.toNat / 32

/-- A compare lands now, at the start of a cycle (R140, R141): at once active in a stopped unit or under IMMEDIATE, else it waits for a
transfer. -/
def State.landCompare (s : State) (n : Nat) (v : Word) : State :=
  let u := s.unit n
  let before := match u.landed with
    | some t => if pwmCycle t < pwmCycle s.now then some (s.rd (R.PWM_Un_CMP n)) else u.before
    | none => none
  let s := s.wr (R.PWM_Un_CMP n) v
  if !s.on (R.PWM_Un_STATUS_RUNNING n) || s.get (R.PWM_Un_CFG_UPDATE n) == 2 then
    ((s.wr (R.PWM_Un_CMP_ACTIVE n) v).setUnit n { u with landed := none, before := none }).evalRef n
  else s.setUnit n { u with landed := some s.now, before := before }

/-- A compare will land at the start of cycle `k`. -/
def State.landAt (s : State) (n k : Nat) (v : Word) : State := s.setUnit n { s.unit n with coming := (s.unit n).coming ++ [(k, v)] }

/-- A lane word has crossed into the group of unit `n` (R141): it lands at the start of the first cycle from now on. -/
def State.laneCompare (s : State) (n : Nat) (v : Word) : State :=
  if s.now.toNat % 32 = 0 then s.landCompare n v else s.landAt n (pwmCycle s.now + 1) v

/-- The start of a cycle at unit `n`: compares land, and the outputs that the period start of the last cycle released have left their safe
states (R141, R147, R148). -/
def State.unitCycle (s : State) (n : Nat) : State :=
  let k := pwmCycle s.now
  let u := s.unit n
  let s := s.setUnit n { u with coming := u.coming.filter fun x => k < x.1 }
  let s := s.each (u.coming.filter fun x => x.1 ≤ k) fun x t => t.landCompare n x.2
  if u.relA || u.relB then
    let u := s.unit n
    let u' : PwmUnit := { u with safeA := u.safeA && !u.relA, safeB := u.safeB && !u.relB, relA := false, relB := false }
    let s := (s.setUnit n u').unitStatus n
    if !u'.safeA && !u'.safeB then s.raise (394 + n) else s
  else s

/-- A transfer at this instant: a compare that landed before this cycle becomes active (R141). -/
def State.transfer (s : State) (n : Nat) : State :=
  match (s.unit n).landed with
  | some t =>
    if pwmCycle t < pwmCycle s.now then
      (s.wr (R.PWM_Un_CMP_ACTIVE n) (s.rd (R.PWM_Un_CMP n))).setUnit n { s.unit n with landed := none, before := none }
    else match (s.unit n).before with
      | some v => (s.wr (R.PWM_Un_CMP_ACTIVE n) v).setUnit n { s.unit n with before := none }
      | none => s
  | none => s

/-! ### Commit and start (R134, R135) -/

/-- The registers of unit `n` with RWS fields, in order. -/
def pwmShadowed (n : Nat) : List Reg :=
  [R.PWM_Un_CFG n, R.PWM_Un_PERIOD n, R.PWM_Un_DEADTIME n, R.PWM_Un_START_LO n, R.PWM_Un_START_HI n]

/-- The shadows of unit `n` as they stand. -/
def State.pwmShadow (s : State) (n : Nat) : List Word := (pwmShadowed n).map fun r => s.shad.rd r
/-- The active values of unit `n` take the given words. -/
def State.pwmApply (s : State) (n : Nat) (ws : List Word) : State :=
  s.each ((pwmShadowed n).zip ws) fun p t => t.wr p.1 p.2

/-- A compare that landed in the cycle of a period start that brings IMMEDIATE acts as if it landed in the following one (R135). -/
def State.carryCompare (s : State) (n : Nat) : State :=
  match (s.unit n).landed with
  | some _ => (s.setUnit n { s.unit n with landed := none, before := none }).landAt n (pwmCycle s.now + 1) (s.rd (R.PWM_Un_CMP n))
  | none => s

/-- A landed compare that waits becomes active at once in a unit that does not run (R141). -/
def State.flushCompare (s : State) (n : Nat) : State :=
  match (s.unit n).landed with
  | some _ => (s.wr (R.PWM_Un_CMP_ACTIVE n) (s.rd (R.PWM_Un_CMP n))).setUnit n { s.unit n with landed := none, before := none }
  | none => s

/-- The first instant START + k * P, k from 0, at or after `a + 2048`, with k > 0 (R134). -/
def firstStart (start p a : Nat) : Nat × Bool :=
  if a + 2048 ≤ start ∨ p = 0 then (start, false)
  else let k := (a + 2048 - start + p - 1) / p; (start + k * p, decide (0 < k))

/-- A commit reaches unit `n` now (R134, R135); a unit that is held in reset takes none (R130). -/
def State.pwmCommit (s : State) (n : Nat) : State :=
  let ws := s.pwmShadow n
  if s.ownerInReset (s.owner 4 n) then s
  else if s.on (R.PWM_Un_STATUS_RUNNING n) then s.setUnit n { s.unit n with commits := (s.unit n).commits ++ [(s.now, ws)] }
  else
    let s := s.pwmApply n ws
    if s.on (R.PWM_Un_CFG_ENABLE n) then
      let start := s.get (R.PWM_Un_START_LO_START_LO n) + s.get (R.PWM_Un_START_HI_START_HI n) * 2 ^ 32
      let (t, late) := firstStart start (s.period n) s.now.toNat
      (s.setUnit n { s.unit n with starting := true, late := late, next := BitVec.ofNat 64 t }).settleUnit n
    else (s.setUnit n { s.unit n with starting := false }).settleUnit n

/-- The unit stops: its carrier ends and its outputs show their safe states (R135). -/
def State.pwmStop (s : State) (n : Nat) : State :=
  let s := s.put (R.PWM_Un_STATUS_RUNNING n) 0
  ((s.setUnit n { s.unit n with starting := false, ref := false, rose := false, fell := false, lost := false, commits := [] }).flushCompare n).settleUnit n

/-- Release at a period start (R147): an output leaves safe state when no source acts on it and none ended in this
cycle; it has left it for good, with PUn_RESUME, when the cycle ends without a source (R148). -/
def State.release (s : State) (n : Nat) : State :=
  let s := s.settleUnit n
  let u := s.unit n
  let due (e : Option Time) : Bool := match e with
    | some t => decide (pwmCycle t ≠ pwmCycle s.now)
    | none => true
  let rA := u.safeA && !u.srcA && due u.endA
  let rB := u.safeB && !u.srcB && due u.endB
  s.setUnit n { u with relA := rA, relB := rB, freedA := if rA then s.now else u.freedA, freedB := if rB then s.now else u.freedB }

/-- What every period start does inside the unit (R135 to R139, R141, R147): the count, the transfer, the reference, the
release, PUn_PS. `restart` restarts the count towards PUn_PS. -/
def State.periodStart (s : State) (n : Nat) (restart : Bool) : State :=
  let p := s.period n
  let u := s.unit n
  let s := (s.setUnit n { u with last := s.now, next := s.now + BitVec.ofNat 64 p, psCount := if restart then 0 else u.psCount }).inc
    (R.PWM_Un_PERIODS_COUNT n)
  let s := ((s.transfer n).evalRef n).release n
  let u := s.unit n
  let s := s.setUnit n { u with psCount := (u.psCount + 1) % (s.get (R.PWM_Un_CFG_EVT_DIV n) + 1) }
  if u.psCount = 0 then s.raise (298 + n) else s

/-! ### Commands -/

/-- PWM_EDGE (R139): the carrier reaches a rise or fall position. -/
def execPwmEdge (n : Fin 32) (s : State) : Out := .next (s.evalRef n)

/-- PWM_COMMIT (R134, R135). -/
def execPwmCommit (q : Requester) (n : Fin 32) (s : State) : Out := regWrite q (R.PWM_Un_COMMIT n) (fun s => s.pwmCommit n) s

/-- A write of `v` to PWM_COMMIT_ALL by a requester in view `view`: bits of units it does not own are ignored, also the platform's. -/
def pwmCommitAll (view v : Nat) (s : State) : State :=
  s.each ((List.range 32).filter fun n => bit v n && s.owner 4 n == view) fun n t => t.pwmCommit n

/-- PWM_COMMIT_ALL (R134). -/
def execPwmCommitAll (q : Requester) (units : Word) (s : State) : Out :=
  regWrite q R.PWM_COMMIT_ALL (fun s => pwmCommitAll (s.viewOf q) units.toNat s) s

/-- A software write of `v` to PWM_Un_CMP (R142): it lands in the first cycle after this one. -/
def pwmCmpWrite (n : Nat) (v : Word) (s : State) : State :=
  if s.named 1 n then s.put (R.PWM_Un_STATUS_CMP_IGNORED n) 1 else s.landAt n (pwmCycle s.now + 1) v

/-- PWM_CMP_WRITE (R142). -/
def execPwmCmpWrite (q : Requester) (n : Fin 32) (v : Word) (s : State) : Out := regWrite q (R.PWM_Un_CMP n) (pwmCmpWrite n v) s

/-- PWM_FORCE_ACTIVE (R146): the outputs of a unit follow a force source that has become active. -/
def execPwmForceActive (n : Fin 32) (s : State) : Out := .next (s.settleUnit n)

/-- A write of `v` to PWM_Un_LATCH: W1C bits whose causes have ended, and that did not set in this cycle, clear (R145, R148). -/
def pwmLatchWrite (n v : Nat) (s : State) : State :=
  (s.clr (R.PWM_Un_LATCH n) (BitVec.ofNat 32 (v % 16))).settleUnit n

/-- PWM_LATCH_CLEAR (R145). -/
def execPwmLatchClear (q : Requester) (n : Fin 32) (mask : BitVec 4) (s : State) : Out :=
  regWrite q (R.PWM_Un_LATCH n) (pwmLatchWrite n mask.toNat) s

/-- A write of `v` to PWM_Un_FORCE. -/
def pwmForceWrite (n v : Nat) (s : State) : State := (s.put (R.PWM_Un_FORCE_SW_FORCE n) v).settleUnit n

/-- SW_FORCE_PWM (R145). -/
def execSwForcePwm (q : Requester) (n : Fin 32) (force : Bool) (s : State) : Out :=
  regWrite q (R.PWM_Un_FORCE n) (pwmForceWrite n force.toNat) s

/-- PWM_GROUP_ALIGNED (R132): a group whose domain runs has aligned and locked. -/
def execPwmGroupAligned (g : Fin 4) (s : State) : Out :=
  .next (if s.running (41 + g) && !s.domReset (41 + g) then
      ((s.put (R.PWM_Gg_STATUS_ALIGNED g) 1).put (R.PWM_Gg_STATUS_SUBSTEP_OK g) 1).each (List.range 8) fun k t => t.settleUnit (8 * g + k)
    else s)

/-- PWM_RESUME_GRID (R137): a running unit that had lost its clock or alignment and whose group is aligned again takes the first instant
last + k * P from now on. -/
def execPwmResumeGrid (n : Fin 32) (s : State) : Out :=
  .next (if s.on (R.PWM_Un_STATUS_RUNNING n) && (s.unit n).lost && s.groupReady (n / 8) && s.period n != 0 then
      let u := s.unit n
      let p := s.period n
      let k := max 1 ((s.since u.last + p - 1) / p)
      (s.setUnit n { u with lost := false, next := u.last + BitVec.ofNat 64 (k * p) }).put (R.PWM_Un_STATUS_START_LATE n) 1
    else s)

end Sys2Proof.Machine
end

