-- ==== Sys2Proof/Machine/Flk.lean ====
section
/-!
DEFINITION. Cell links (spec/07): force sources, the command queue, frames down and up, enumeration, measurement and
management, and the lead of spec/08 (R184).
-/
namespace Sys2Proof.Machine

/-- A link beside its registers. -/
def State.flink (s : State) (l : Nat) : Flink := s.link.get {} l
/-- Change it; DEPTH and LOGWAIT follow. -/
def State.setFlink (s : State) (l : Nat) (x : Flink) : State :=
  (({ s with link := s.link.set l x } : State).put (R.FLK_Ln_QSTAT_DEPTH l) x.queue.length).put (R.FLK_Ln_QSTAT_LOGWAIT l) x.log.length
/-- What the link knows of cell `k`. -/
def Flink.cell (x : Flink) (k : Nat) : Cell := x.cells.get {} k
/-- Change it. -/
def Flink.setCell (x : Flink) (k : Nat) (c : Cell) : Flink := { x with cells := x.cells.set k c }
/-- STATE of a link (Table 7.9). -/
def State.lstate (s : State) (l : Nat) : Nat := s.get (R.FLK_Ln_STATUS_STATE l)
/-- The arm of a link. -/
def State.linkArm (s : State) (l : Nat) : Option Nat :=
  let a := s.get (R.FLK_Ln_IMAGE_ARM l)
  if a < 32 then some a else none

/-! ### Force sources (Table 7.13) -/

/-- The commit stage forces a binding that commands link `l` or its arm (R118). -/
def State.linkCommit (s : State) (l : Nat) : Bool :=
  s.commitForce 3 l || (match s.linkArm l with | some a => s.commitForce 2 a | none => false)

/-- A supply warning of R176 is asserted. -/
def State.linkWarn (s : State) : Bool := s.warn 0 || s.warn 4 || s.warn 5

/-- The active sources of link `l`, numbered as bits [6:0] of FLK_Ln_FORCESRC. -/
def State.linkSources (s : State) (l : Nat) : Nat :=
  setBit (setBit (setBit (setBit (setBit (setBit (setBit 0 0 (s.lstate l != 3)) 1 (s.linkCommit l)) 2 (s.bitOn R.SUP_FORCE_LINK_LINKS l))
    3 (s.forcing (46 + l) || s.forcing (78 + l / 4) || s.forcing 45)) 4 (s.on R.SUP_REC_STATUS_FORCE))
    5 (s.on (R.FLK_Ln_LATCH_WARN l) && s.on (R.FLK_Ln_IMAGE_WARN_SAFE l))) 6 (s.on (R.FLK_Ln_FORCE_SW_FORCE l))

/-- Is the link forced safe (R176)? -/
def State.linkForced (s : State) (l : Nat) : Bool := s.linkSources l != 0

/-- The SAFE order leaves with SAFE_KIND in place of the next block, and headers carry SAFE (R163, R177). -/
def State.safeOrder (s : State) (l : Nat) : State :=
  let kind := s.get (R.FLK_Ln_IMAGE_SAFE_KIND l)
  (s.setFlink l { s.flink l with order := some (s.now, kind), swap := some kind }).put (R.FLK_Ln_FORCESRC_SAFE l) 1

/-- The first cell index of link `l` in its arm, by CELLS of the lower links of the arm (R193). -/
def State.armBase (s : State) (a l : Nat) : Nat :=
  ((List.range l).filter fun j => s.bitOn (R.ABL_Aa_LINKS_LINKS a) j).foldl (fun n j => n + s.get (R.FLK_Ln_IMAGE_CELLS j)) 0

/-- The model of cell `i` of arm `a` (R198). -/
def State.model (s : State) (a i : Nat) : Nat := s.get (R.ABL_Aa_MODELk_STATE a (i / 8) (i % 8))
/-- It takes state `m`. -/
def State.setModel (s : State) (a i m : Nat) : State := s.put (R.ABL_Aa_MODELk_STATE a (i / 8) (i % 8)) m

/-- Every cell of link `l` takes model UNKNOWN (R198). -/
def State.forget (s : State) (l : Nat) : State :=
  match s.linkArm l with
  | some a => s.each (List.range (s.get (R.FLK_Ln_IMAGE_CELLS l))) fun k t => t.setModel a (s.armBase a l + k) 4
  | none => s

/-- RUNNING of an arm follows its links (R193). -/
def State.armStatus (s : State) (a : Nat) : State :=
  s.putB (R.ABL_Aa_STATUS_RUNNING a) (s.on (R.ABL_Aa_CTRL_ENABLE a) && !s.on (R.ABL_Aa_STATUS_HALTED a) &&
    (List.range 32).any fun l => s.bitOn (R.ABL_Aa_LINKS_LINKS a) l && s.lstate l == 3)

/-- A link of an enabled arm is lost (R201); LINK_LOSS is looked at in the next round (R202). -/
def State.armLost (s : State) (a : Nat) : State :=
  if s.on (R.ABL_Aa_CTRL_ENABLE a) then
    (({ s with arm := s.arm.set a { s.arm.get {} a with lost := true } } : State).put (R.ABL_Aa_STATUS_LINK_LOST a) 1).raise (554 + a)
  else s

/-- Bring link `l` up to date with its force sources: the WARN latch, FORCESRC, and on the first active source the empty
queue and the SAFE order of R177. A link that becomes forced or leaves RUN makes models UNKNOWN and is lost to its arm (R198, R201). -/
def State.settleLink (s : State) (l : Nat) : State :=
  let s := s.when (s.linkWarn && s.on (R.FLK_Ln_IMAGE_WARN_SAFE l)) fun s => s.put (R.FLK_Ln_LATCH_WARN l) 1
  let was := s.get ⟨R.FLK_Ln_FORCESRC l, 0, 7⟩
  let now := s.linkSources l
  let s := (s.put ⟨R.FLK_Ln_FORCESRC l, 0, 7⟩ now).putB (R.FLK_Ln_FORCESRC_WARN_LIVE l) s.linkWarn
  let s := s.when (was == 0 && now != 0) fun s =>
    (s.setFlink l { s.flink l with queue := [] }).safeOrder l
  let s := s.when ((was == 0 && now != 0) || (was % 2 == 0 && now % 2 == 1)) fun s =>
    let s := s.forget l
    match s.linkArm l with | some a => s.armLost a | none => s
  match s.linkArm l with | some a => s.armStatus a | none => s

/-- Every link brings itself up to date. -/
def State.settleLinks (s : State) : State := s.each (List.range 32) fun l t => t.settleLink l

/-- Is the transmitter squelched (R179)? -/
def State.squelched (s : State) (l : Nat) : Bool :=
  s.lstate l == 0 || s.lstate l == 4 || s.on R.SUP_REC_STATUS_LRT_EXPIRED

/-! ### Command queue -/

/-- The word W of a command block (Table 7.4). -/
def cmdWord (addr op arg at_ : Nat) : Nat := addr % 64 * 2 ^ 50 + op % 64 * 2 ^ 44 + arg % 4096 * 2 ^ 32 + at_ % 2 ^ 32

/-- A word enters the queue at its place in the order of R190 among the words that entered in this cycle (`same`): behind all of them
whose place does not come later. -/
def Flink.enqueueWord (x : Flink) (same : Bool) (now : Time) (place w : Nat) : Flink :=
  let places := if same then x.entered.2.drop (x.entered.2.length - x.queue.length) else []
  let later := (places.filter fun p => place < p).length
  let at_ (n : Nat) := n - later
  { x with
    queue := x.queue.take (at_ x.queue.length) ++ [w] ++ x.queue.drop (at_ x.queue.length)
    entered := (now, places.take (at_ places.length) ++ [place] ++ places.drop (at_ places.length)) }

/-- A command of place `place` in the order of R190 arrives at the queue of link `l`; a queue of 64 drops the last one (R173). -/
def State.enqueue (s : State) (l place w : Nat) : State :=
  if s.linkForced l then s.incSat (R.FLK_Ln_CMDDROP_COUNT l)
  else
    let x := (s.flink l).enqueueWord (s.sameCycle (s.flink l).entered.1) s.now place w
    if 64 < x.queue.length then
      (((s.setFlink l { x with queue := x.queue.take 64, entered := (s.now, x.entered.2.dropLast) }).incSat
        (R.FLK_Ln_CMDDROP_COUNT l)).put (R.FLK_Ln_QSTAT_QOVF l) 1).raise (522 + l)
    else s.setFlink l x

/-- The software commands of the cycle before enter the queue of link `l` (R189). -/
def State.softEnter (s : State) (l : Nat) : State :=
  let ws := (s.flink l).soon
  if ws.isEmpty then s else (s.setFlink l { s.flink l with soon := [] }).each ws fun w t => t.enqueue l 2 w

/-! ### States (Table 7.9) -/

/-- What ends with a change of state: requests of the link, the round, the handshake. -/
def Flink.quiet (x : Flink) : Flink :=
  { x with own := [], sent := x.sent.filter (!·.own), want := false, meas := none, left := [], sleep := none, wake := false,
           missed := 0, jumps := 0, valid := false }

/-- A pending SAFE order leaves now, and the transmitter falls silent. -/
def Flink.hush (x : Flink) : Flink :=
  let y := match x.next, x.swap with | some _, some k => x.put true (orderBlock k) | _, _ => x
  { y with swap := none, sending := none, next := none }

/-- The link leaves for OFF, SLEEP or DOWN: the SAFE order first (R166). -/
def State.leaveTo (s : State) (l st : Nat) : State :=
  let s := s.safeOrder l
  let x := (s.flink l).quiet
  (((s.setFlink l (if st = 5 then x else x.hush)).put (R.FLK_Ln_STATUS_SHORT l) 0).put (R.FLK_Ln_STATUS_STATE l) st).settleLink l

/-- The link enters DOWN with a cause. -/
def State.goDown (s : State) (l cause : Nat) : State := ((s.leaveTo l 5).put (R.FLK_Ln_STATUS_CAUSE l) cause).raise (426 + l)

/-- Bring-up starts: to ENUM (R166, R180). -/
def State.bringUp (s : State) (l : Nat) : State :=
  ((s.setFlink l { (s.flink l).quiet with began := s.now, last := none, same := 0 }).put (R.FLK_Ln_STATUS_STATE l) 1).settleLink l

/-- START: from OFF or DOWN. -/
def State.startLink (s : State) (l : Nat) : State := if s.lstate l = 0 ∨ s.lstate l = 5 then s.bringUp l else s

/-- STOP: to OFF from any state. -/
def State.stopLink (s : State) (l : Nat) : State := s.leaveTo l 0

/-- An own request. -/
def ownReq (addr op reg len : Nat) (data : List Byte := []) : MgmtReq := ⟨true, addr, op, reg, len, data, 0, 0, 0, false⟩

/-- MEASURE begins: the identity of each cell is read first (R168). -/
def State.measure (s : State) (l count : Nat) : State :=
  let ks := (List.range count).map (· + 1)
  let x := { (s.flink l).quiet with own := ks.map fun k => ownReq k 1 0 32, want := count == 0, rounds := 0, r0sum := 0,
                                        cells := (s.flink l).cells.map fun c => (c.1, { closed := c.2.closed, bypass := c.2.bypass }) }
  ((s.setFlink l x).put (R.FLK_Ln_STATUS_STATE l) 2).settleLink l

/-- COUNT has settled (R167). -/
def State.countSettled (s : State) (l count : Nat) : State :=
  let want := s.get (R.FLK_Ln_IMAGE_CELLS l)
  let s := s.put (R.FLK_Ln_STATUS_COUNT l) count
  if count = want then s.measure l count
  else if want < count then s.goDown l 2
  else if s.on (R.FLK_Ln_CFG_ON_BREAK l) then (s.measure l count).put (R.FLK_Ln_STATUS_SHORT l) 1
  else s.goDown l 3

/-! ### Measurement (R168, R169, R172, R184) -/

/-- F(k) of a round (R169). -/
def Flink.fiber (x : Flink) (k : Nat) : Int :=
  if k = 1 then (x.r0 : Int) - (x.cell 1).r
  else ((x.cell (k - 1)).r : Int) - (x.cell k).r - (x.cell (k - 1)).rdn - (x.cell (k - 1)).rup

/-- OFFSET(1) to OFFSET(count) from the averages of the last rounds (R169): `asym k` is ASYM(k), `d` is D(k - 1) in units of
1 / (2 n) tick for `n` rounds. -/
def Flink.offsets (x : Flink) (asym : Nat → Int) (count : Nat) : List Int :=
  let n : Int := (x.cell 1).hist.length
  let go := (List.range count).foldl (fun (acc : Int × List Int) i =>
    let k := i + 1
    let d := acc.1 + ((x.cell k).hist.foldl (· + ·) 0) + 2 * n * asym k + (if k = 1 then 0 else 2 * n * (x.cell (k - 1)).rdn)
    (d, acc.2 ++ [if n = 0 then 0 else roundDiv d (2 * n)])) (0, [])
  go.2

/-- ASYM(k) of link `l`. -/
def State.asym (s : State) (l k : Nat) : Int := signed 16 (s.get (R.FLK_Ln_ASYMk_ASYM l k))
/-- ASYM(k) as the last round took it: a write takes effect at the next round (R169). -/
def Flink.asymOf (x : Flink) (k : Nat) : Int := x.asym.getD (k - 1) 0

/-- ABL_LEAD_SHORT says whether LEAD is below LEAD_NEED, and a bit that becomes 1 raises ABL_LEADSHORT (R184). -/
def State.leadShort (s : State) (l : Nat) : State :=
  let short := decide (s.get (R.FLK_Ln_LEAD_LEAD l) < s.get (R.ABL_Ln_NEED_NEED l))
  let rose := short && !s.bitOn R.ABL_LEAD_SHORT_SHORT l
  (s.putBit R.ABL_LEAD_SHORT_SHORT l short).when rose fun s => s.raise 586

/-- LEAD_NEED is recomputed on writing an OFFSET (R184). -/
def State.leadNeed (s : State) (l : Nat) : State :=
  let c := s.get (R.FLK_Ln_STATUS_COUNT l)
  let need := (10496 + (if c = 0 then 0 else s.get (R.FLK_OFSn_k_OFFSET l c))) % 2 ^ 32
  (s.put (R.ABL_Ln_NEED_NEED l) need).leadShort l

/-- Write OFFSET(k) to cell `k`: the register of the last OFFSET written, and the request. -/
def State.writeOffset (s : State) (l k : Nat) (o : Int) : State :=
  let s := s.put (R.FLK_OFSn_k_OFFSET l k) (unsigned 32 o)
  let x := s.flink l
  (s.setFlink l { x with own := x.own ++ [ownReq k 2 0x20 4 (leBytes 4 (unsigned 32 o))] }).leadNeed l

/-- In MEASURE, once the offsets have been written, TCTRL is broadcast (R168, step 4). -/
def State.timeValid (s : State) (l : Nat) : State :=
  let x := s.flink l
  if s.lstate l = 2 ∧ 16 ≤ x.rounds ∧ x.valid = false ∧ x.own = [] ∧ (x.sent.any (·.own)) = false then
    s.setFlink l { x with valid := true, own := [ownReq 0x3F 2 0x24 1 [1#8]] }
  else s

/-- A round has read every cell: its F(k) enter the last 16; after the 16th round of MEASURE the offsets are written, and in RUN changed
offsets follow by at most 2 ticks (R168, R172). -/
def State.roundDone (s : State) (l : Nat) : State :=
  let x := s.flink l
  let count := s.get (R.FLK_Ln_STATUS_COUNT l)
  let ks := (List.range count).map (· + 1)
  let y := ks.foldl (fun (y : Flink) k =>
    let h := (x.cell k).hist ++ [x.fiber k]
    y.setCell k { y.cell k with hist := h.drop (h.length - 16) }) x
  let y := { y with rounds := y.rounds + 1, r0sum := y.r0sum + y.r0 }
  if s.lstate l = 2 then
    let s := s.setFlink l { y with want := decide (y.rounds < 16) }
    if y.rounds < 16 then s
    else (s.each (ks.zip (y.offsets y.asymOf count)) fun p t => t.writeOffset l p.1 p.2).timeValid l
  else
    let s := s.setFlink l y
    s.each (ks.zip (y.offsets y.asymOf count)) fun p t =>
      let last := signed 32 (t.get (R.FLK_OFSn_k_OFFSET l p.1))
      let o := clampI (last - 2) (last + 2) p.2
      if o = last then t else t.writeOffset l p.1 o

/-- A measurement round is asked for, unless one is in progress. -/
def Flink.wantRound (x : Flink) : Flink := if x.meas.isSome || !x.left.isEmpty then x else { x with want := true }

/-! ### Frames down (R155 to R159, R162) -/

/-- The 40 bytes of a management request. -/
def MgmtReq.bytes (r : MgmtReq) : List Byte :=
  leBytes 1 r.addr ++ leBytes 1 r.op ++ leBytes 1 r.tag ++ leBytes 1 r.len ++ leBytes 2 r.reg ++ leBytes 2 0 ++ (r.data ++ List.replicate 32 0#8).take 32

/-- A block of a word W with its check. -/
def blockBytes (w : Nat) : List Byte := let d := leBytes 7 w; d ++ leBytes 1 (crc8 d)

/-- The 382 bytes of a downstream frame. -/
def frameBytes (seq flags : Nat) (stamp : Time) (cmds : List Nat) (req : Option MgmtReq) : List Byte :=
  let h := leBytes 1 0x11 ++ leBytes 1 seq ++ leBytes 1 flags ++ leBytes 1 0 ++ leBytes 8 stamp.toNat ++ leBytes 2 0
  let c := ((List.range 40).map fun i => blockBytes (cmds.getD i 0)).flatten
  let m := match req with | some r => r.bytes | none => List.replicate 40 0#8
  let b := h ++ leBytes 1 (crc8 h) ++ c ++ m
  b ++ leBytes 4 (crc32c b) ++ leBytes 3 0

/-- The request of this frame: own and software requests alternate when both wait (R172). -/
def Flink.choose (x : Flink) : Option MgmtReq :=
  match x.own.head?, x.soft.head? with
  | some o, some w => some (if x.turn then w else o)
  | some o, none => some o
  | none, w => w

/-- The chosen request leaves in frame `seq` with a tag. -/
def Flink.send (x : Flink) (seq tag : Nat) : Flink × Option MgmtReq :=
  match x.choose with
  | none => (x, none)
  | some r =>
    let r := { r with seq := seq, tag := tag, age := 0 }
    let x := { x with turn := r.own, own := if r.own then x.own.tail else x.own, soft := if r.own then x.soft else x.soft.tail }
    (if r.addr = 0x3F then x else { x with sent := x.sent ++ [r] }, some r)

/-- May the transmitter of link `l` send? -/
def State.linkSends (s : State) (l : Nat) : Bool := !s.squelched l && s.running (78 + l / 4) && !s.domReset (78 + l / 4)

/-- The link begins the frame of this slot at the first block boundary from now on (R155); where the transmitter has only started, its
first boundary comes `delay` ticks from now, and its scrambler holds a free value. -/
def State.frameSlot (s : State) (l delay : Nat) : State :=
  if s.now.toNat % 8192 != 0 || !s.linkSends l then s
  else
    let x := s.flink l
    let (x, s) := match x.next with
      | some _ => (x, s)
      | none => let (f, s) := s.fresh
                ({ x with next := some (25 * (s.now.toNat + delay)), scr := f % 2 ^ 58 }, s)
    let stamp := BitVec.ofNat 64 (x.next.getD 0 / 25)
    let st := s.lstate l
    let active := s.linkForced l || x.sleep.isSome
    let meas := x.want && x.own.isEmpty && !x.sent.any (·.own) && (st == 2 || st == 3)
    let (f, s) := s.fresh
    let (y, req) := x.send x.seq (f % 256)
    let soft := match req with | some r => !r.own && r.addr == 0x3F | none => false
    let flags := setBit (setBit (setBit (setBit (setBit (setBit 0 0 (st == 1)) 1 meas) 2 active) 3 (s.on (R.FLK_Ln_IMAGE_SAFE_KIND l)))
      4 x.sleep.isSome) 5 req.isSome
    let y := { y with
      sending := some ⟨x.seq, flags, stamp, req, 0, []⟩
      line := []
      seq := (x.seq + 1) % 256
      sent := y.sent.map fun r => { r with age := r.age + 1 }
      sleep := x.sleep.map (· - 1)
      want := x.want && !meas
      meas := if meas then some x.seq else x.meas
      asym := if meas then (List.range 32).map fun k => s.asym l (k + 1) else x.asym }
    let s := (s.setFlink l y).putB (R.FLK_Ln_FORCESRC_SAFE l) active
    s.when soft fun s => (s.put (R.FLK_Ln_MGMT_STAT_DONE l) 1).put (R.FLK_Ln_MGMT_STAT_BUSY l) 0

/-- The next block of a link leaves at its boundary: of the frame being sent, a command block being filled from the head of the queue as it is
fetched (R173), or an idle block; a SAFE order takes its place (R177, R178). -/
def Flink.nextBlock (x : Flink) (boundary : Nat) : Flink :=
  let x := { x with next := some (boundary + blockUnits) }
  let (x, ctl, bs) : Flink × Bool × List Byte := match x.sending with
    | none => (x, true, idleBlock)
    | some f =>
      let cmd := 2 ≤ f.next && f.next < 42
      let g := { f with next := f.next + 1, cmds := if cmd then f.cmds ++ [x.queue.headD 0] else f.cmds }
      let fr := frameBytes g.seq g.flags g.stamp g.cmds g.req
      let y := { x with queue := if cmd then x.queue.tail else x.queue, sending := if f.next < 47 then some g else none,
                        frame := if f.next < 47 then x.frame else fr }
      (y, frameBlock fr f.next)
  match x.swap with
  | some k => { x with swap := none }.put true (orderBlock k)
  | none => x.put ctl bs

/-- A tick of the transmitter of link `l`: block boundaries that have passed send their block. -/
def State.linkTick (s : State) (l : Nat) : State :=
  let x := s.flink l
  match x.next with
  | none => s
  | some b =>
    if !s.linkSends l then s.setFlink l x.hush
    else if b < 25 * s.now.toNat then s.setFlink l (x.nextBlock b)
    else s

/-! ### Frames up (R160, R161, R167, R172, R175, R181, R182) -/

/-- The bytes [i, i + n) of a frame. -/
def part (fr : List Byte) (i n : Nat) : List Byte := (fr.drop i).take n
/-- Does block `b` (2 to 41) pass its check? -/
def blockOk (fr : List Byte) (bad : Nat) (b : Nat) : Bool :=
  !bit bad b && crc8 (part fr (15 + 8 * (b - 2)) 7) == leNat (part fr (22 + 8 * (b - 2)) 1)
/-- The word W of block `b`. -/
def blockWord (fr : List Byte) (b : Nat) : Nat := leNat (part fr (15 + 8 * (b - 2)) 7)
/-- Does the header pass its check? -/
def headerOk (fr : List Byte) (bad : Nat) : Bool := !bit bad 0 && !bit bad 1 && crc8 (part fr 0 14) == leNat (part fr 14 1)
/-- Does the frame pass its CRC? -/
def frameOk (fr : List Byte) (bad : Nat) : Bool := bad % 2 ^ 48 == 0 && crc32c (part fr 0 375) == leNat (part fr 375 4)

/-- STATUS bits 4 to 9 and 13 (Table 7.5). -/
def faultBits (status : Nat) : Nat := status &&& 0x23F0

/-- The entry of cell `k` ages by one frame (R181). -/
def State.ageCell (s : State) (l k : Nat) : State := s.incSat (R.FLK_RECn_k_HI_AGE l k)

/-- A valid record of cell `k` updates the mirror (R181) and the balancer's counts of R200. -/
def State.record (s : State) (l k w : Nat) : State :=
  let status := bitsOf w 40 16
  let old := bitsOf (s.get (R.FLK_RECn_k_HI_W_HI l k)) 8 16
  let s := ((s.put (R.FLK_RECn_k_LO_W_LO l k) (w % 2 ^ 32)).put (R.FLK_RECn_k_HI_W_HI l k) (w / 2 ^ 32)).put (R.FLK_RECn_k_HI_AGE l k) 0
  let x := s.flink l
  let c := x.cell k
  let sick := bit status 7 || bit status 4 || bit status 13
  let n := if sick then c.faulty + 1 else 0
  let s := s.setFlink l (x.setCell k { c with seen := s.lstate l == 3, faulty := n, bypass := c.bypass || decide (2 ≤ n) })
  s.when (faultBits status &&& (0xFFFF - old) != 0) fun s => s.raise (458 + l)

/-- A management reply (R162): its request is the one sent two frames before it with its TAG. -/
def State.mgmtReply (s : State) (l seq : Nat) (m : List Byte) : State :=
  let x := s.flink l
  let addr := leNat (part m 0 1)
  let tag := leNat (part m 2 1)
  match x.sent.find? fun r => r.addr == addr && r.tag == tag && (r.seq + 2) % 256 == seq with
  | none => s
  | some r =>
    let x := { x with sent := x.sent.filter (· != r) }
    let data := part m 8 32
    let n (i w : Nat) : Nat := leNat (part data i w)
    if !r.own then
      let s := s.setFlink l x
      let s := ((((s.put (R.FLK_Ln_MGMT_STAT_RLEN l) (leNat (part m 3 1))).put (R.FLK_Ln_MGMT_STAT_CSTAT l) (leNat (part m 1 1))).put
        (R.FLK_Ln_MGMT_STAT_DONE l) 1).put (R.FLK_Ln_MGMT_STAT_BUSY l) 0)
      s.when (r.op == 1) fun s => s.each (List.range 8) fun i t => t.put (R.FLK_Ln_MGMT_DATAi_DATA l i) (n (4 * i) 4)
    else if r.reg = 0 ∧ r.op = 1 then
      let c := { x.cell addr with caps := n 10 2, rdn := n 12 2, rup := n 14 2 }
      let x := x.setCell addr c
      if n 8 2 != 1 || decide (768 < c.rdn) || decide (768 < c.rup) then (s.setFlink l x).goDown l 8
      else s.setFlink l { x with want := x.own.isEmpty && !x.sent.any (·.own) }
    else if r.reg = 0x20 then (s.setFlink l x).timeValid l
    else if r.reg = 0x18 then
      let x := x.setCell addr { x.cell addr with r := (n 4 4 + 2 ^ 32 - n 0 4) % 2 ^ 32 }
      let x := { x with left := x.left.filter (· != addr) }
      let s := s.setFlink l x
      if x.left.isEmpty then s.roundDone l else s
    else s.setFlink l x

/-- WATERMARK or more log entries wait: FLn_WM is raised (R182). It is raised at each change of the buffer or of WATERMARK that leaves so
many (DESIGN CHOICE, log 58). -/
def State.logLevel (s : State) (l : Nat) : State :=
  s.when (decide (s.get (R.FLK_Ln_CFG_WATERMARK l) ≤ (s.flink l).log.length)) fun s => s.raise (490 + l)

/-- A write of `v` to FLK_Ln_CFG. -/
def linkCfgWrite (l v : Nat) (s : State) : State :=
  let s := ((s.put (R.FLK_Ln_CFG_REMEAS l) (bitsOf v 16 8)).put (R.FLK_Ln_CFG_LOGDIV l) (bitsOf v 12 4)).put (R.FLK_Ln_CFG_LOG_EN l) (bitsOf v 11 1)
  ((s.put (R.FLK_Ln_CFG_ON_BREAK l) (bitsOf v 8 1)).put (R.FLK_Ln_CFG_WATERMARK l) (bitsOf v 0 8)).logLevel l

/-- A log entry (R182). -/
def State.logEntry (s : State) (l : Nat) (fr : List Byte) (bad : Nat) : State :=
  if !s.on (R.FLK_Ln_CFG_LOG_EN l) then s
  else
    let x := s.flink l
    if x.logged + 1 < 2 ^ s.get (R.FLK_Ln_CFG_LOGDIV l) then s.setFlink l { x with logged := x.logged + 1 }
    else
      let x := { x with logged := 0 }
      if 170 ≤ x.log.length then ((s.setFlink l x).put (R.FLK_Ln_STATUS_LOG_DROP l) 1).logLevel l
      else
        let flag := setBit (setBit 0 0 (frameOk fr bad)) 1 (headerOk fr bad)
        let e := leBytes 8 s.now.toNat ++ part fr 0 15 ++ leBytes 1 flag ++ part fr 15 320 ++ part fr 335 40
        (s.setFlink l { x with log := x.log ++ [e] }).logLevel l

/-- COUNT of a valid upstream header, by state (R167, R175). -/
def State.upCount (s : State) (l count : Nat) : State :=
  let x := s.flink l
  match s.lstate l with
  | 1 =>
    let same := if x.last = some count then x.same + 1 else 1
    let s := s.setFlink l { x with last := some count, same := same }
    if 250 ≤ same then s.countSettled l count else s
  | 3 =>
    if count < s.get (R.FLK_Ln_STATUS_COUNT l) then
      let s := ((s.put (R.FLK_Ln_STATUS_COUNT l) count).put (R.FLK_Ln_STATUS_BREAK l) 1).raise (426 + l)
      if s.on (R.FLK_Ln_CFG_ON_BREAK l) then s.put (R.FLK_Ln_STATUS_SHORT l) 1 else s.goDown l 4
    else s
  | _ => s

/-- The delay watch in RUN (R172). The spec does not say how the running average is formed: it is a free value between the average before
and this frame's R(0). -/
def State.delayWatch (s : State) (l rtt : Nat) : State :=
  if s.lstate l != 3 then s
  else
    let x := s.flink l
    let avg := s.get (R.FLK_Ln_RTT_RTT l)
    let off := decide (16 < rtt - avg) || decide (16 < avg - rtt)
    let (f, s) := s.fresh
    let s := s.put (R.FLK_Ln_RTT_RTT l) (min avg rtt + f % (max avg rtt - min avg rtt + 1))
    if off && 1 ≤ x.jumps then
      ((s.setFlink l { x.wantRound with jumps := 0 }).put (R.FLK_Ln_STATUS_DELAY_JUMP l) 1).raise (426 + l)
    else s.setFlink l { x with jumps := if off then x.jumps + 1 else 0 }

/-- R(0) of the MEASURE frame is latched and the cells are asked for T_DN and T_UP (R168). -/
def State.latchR0 (s : State) (l seq rtt : Nat) : State :=
  let x := s.flink l
  if x.meas = some seq then
    let ks := (List.range (s.get (R.FLK_Ln_STATUS_COUNT l))).map (· + 1)
    let s := s.setFlink l { x with meas := none, r0 := rtt, left := ks, own := x.own ++ ks.map fun k => ownReq k 1 0x18 8 }
    if ks.isEmpty then s.roundDone l else s
  else s

/-- R(0) as link `l` expects it: the running average in RUN, the last round's in MEASURE; none before a round (R175). -/
def State.expectedR0 (s : State) (l : Nat) : Option Nat :=
  if s.lstate l = 3 then some (s.get (R.FLK_Ln_RTT_RTT l)) else if s.lstate l = 2 ∧ (s.flink l).rounds ≠ 0 then some (s.flink l).r0 else none

/-- No valid upstream header came at its time (R175): four in a row send the link DOWN. A run of equal COUNTs ends (R167). -/
def State.headerMissed (s : State) (l : Nat) : State :=
  if s.lstate l = 1 then s.setFlink l { s.flink l with last := none, same := 0 }
  else if s.lstate l = 2 ∨ s.lstate l = 3 then
    let s := s.incSat (R.FLK_Ln_ERRCNT_MISSED l)
    let x := s.flink l
    let s := s.setFlink l { x with missed := x.missed + 1 }
    if 4 ≤ x.missed + 1 then s.goDown l 5 else s
  else s

/-- Every entry of the mirror ages by one frame (R181). -/
def State.ageCells (s : State) (l : Nat) : State := s.each (List.range 32) fun i t => t.ageCell l (i + 1)

/-- An upstream frame with a valid header: records, events, COUNT, delays and reply (R167 to R181). -/
def State.upFrame (s : State) (l rtt bad : Nat) (fr : List Byte) : State :=
    let count := leNat (part fr 3 1) % 64
    let seq := leNat (part fr 1 1)
    let late := match s.expectedR0 l with | some r => decide (64 < rtt - r) || decide (64 < r - rtt) | none => false
    let s := if late then s.headerMissed l else s.setFlink l { s.flink l with missed := 0 }
    let s := (s.put (R.FLK_Ln_ERRLOC_ERR_ADDR l) (leNat (part fr 4 1))).put (R.FLK_Ln_ERRLOC_FAULT_ADDR l) (leNat (part fr 5 1))
    let s := s.each (List.range 32) fun i t =>
      if !blockOk fr bad (i + 2) then (t.ageCell l (i + 1)).incSat (R.FLK_Ln_ERRCNT_CHECK l)
      else if count ≤ i then t.ageCell l (i + 1)
      else t.record l (i + 1) (blockWord fr (i + 2))
    let s := s.each (List.range 8) fun i t =>
      if !blockOk fr bad (34 + i) then t.incSat (R.FLK_Ln_ERRCNT_CHECK l)
      else if blockWord fr (34 + i) = 0 then t else t.raise (458 + l)
    let s := (s.upCount l count).delayWatch l rtt
    let s := s.latchR0 l seq rtt
    s.when (frameOk fr bad && bit (leNat (part fr 2 1)) 2) fun s => s.mgmtReply l seq (part fr 335 40)

/-- An upstream frame arrives `rtt` ticks after its downstream frame left; bit b of `bad` marks block b invalid (Table 7.12). -/
def State.upstream (s : State) (l rtt bad : Nat) (fr : List Byte) : State :=
  let s := s.logEntry l fr bad
  let blocks := (List.range 48).filter fun b => bit bad b
  let s := s.incSat (R.FLK_Ln_ERRCNT_BLOCK l) blocks.length
  let s := s.when (!frameOk fr bad) fun s => s.incSat (R.FLK_Ln_ERRCNT_CRC l)
  let (x, lost) := (s.flink l).receive s.now bad
  let s := s.setFlink l x
  let rises := s.lstate l == 3 && decide (s.get (R.FLK_Ln_STATUS_COUNT l) < leNat (part fr 3 1) % 64)
  match lost with
  | some cause => if s.lstate l = 5 then s.ageCells l else (s.ageCells l).goDown l cause
  | none =>
    if !headerOk fr bad || rises then ((s.incSat (R.FLK_Ln_ERRCNT_CHECK l)).ageCells l).headerMissed l
    else s.upFrame l rtt bad fr

/-- Does the link transmit frames: ENUM, MEASURE, RUN or DOWN? -/
def State.linkUp (s : State) (l : Nat) : Bool := let x := s.lstate l; x == 1 || x == 2 || x == 3 || x == 5

/-! ### Register writes -/

/-- Does a binding path hold the domains of link `l` (R31)? -/
def State.linkHeld (s : State) (l : Nat) : Bool :=
  (List.range 64).any fun b => s.on (R.LNC_Bb_MAP_HOLD b) &&
    (s.names b 3 l || (match s.linkArm l with | some a => s.names b 2 a | none => false))

/-- A SLEEP write (R180). -/
def State.sleepLink (s : State) (l : Nat) : State :=
  if s.lstate l = 3 ∧ (s.flink l).sleep = none ∧ s.on (R.FLK_Ln_IMAGE_SLEEP_OK l) = true ∧ s.linkHeld l = false then
    let s := s.safeOrder l
    s.setFlink l { s.flink l with sleep := some 16 }
  else s.put (R.FLK_Ln_STATUS_SLEEP_DENIED l) 1

/-- A WAKE write (R180). -/
def State.wakeLink (s : State) (l : Nat) : State :=
  let x := s.flink l
  if s.lstate l = 4 then s.bringUp l
  else if x.sleep.isSome then s.setFlink l { x with wake := true }
  else s

/-- A write of `v` to FLK_Ln_CTRL. -/
def linkCtrlWrite (l v : Nat) (s : State) : State :=
  let s := s.when (bit v 0) fun s => s.startLink l
  let s := s.when (bit v 1) fun s => s.sleepLink l
  let s := s.when (bit v 2) fun s => s.wakeLink l
  let s := s.when (bit v 3 && s.lstate l == 3) fun s => s.setFlink l (s.flink l).wantRound
  let s := s.when (bit v 4) fun s => s.wr (R.FLK_Ln_ERRCNT l) 0#32
  s.when (bit v 5) fun s => s.stopLink l

/-- A write of `v` to FLK_Ln_FORCE. -/
def linkForceWrite (l v : Nat) (s : State) : State := (s.put (R.FLK_Ln_FORCE_SW_FORCE l) v).settleLink l

/-- A write of `v` to FLK_Ln_LATCH: the latch cannot be cleared while a warning persists (R176). -/
def linkLatchWrite (l v : Nat) (s : State) : State :=
  (s.when (bit v 0 && !s.linkWarn) fun s => s.clr (R.FLK_Ln_LATCH l) 1#32).settleLink l

/-- A write of `v` to FLK_Ln_MGMT_CMD. -/
def mgmtCmdWrite (l v : Nat) (s : State) : State :=
  let s := s.wr (R.FLK_Ln_MGMT_CMD l) (BitVec.ofNat 32 (v / 4 * 4))
  if !bit v 0 || s.on (R.FLK_Ln_MGMT_STAT_BUSY l) || s.lstate l != 3 then s
  else
    let reg := bitsOf v 16 16
    let op := bitsOf v 8 2
    if op = 2 ∧ reg < 0x100 then s.put (R.FLK_Ln_MGMT_STAT_REFUSED l) 1
    else
      let x := s.flink l
      let len := bitsOf v 10 6
      let data := ((List.range 8).map fun i => leBytes 4 (s.get (R.FLK_Ln_MGMT_DATAi_DATA l i))).flatten
      let r : MgmtReq := ⟨false, bitsOf v 2 6, op, reg, len, if op = 2 then data.take len else [], 0, 0, 0, false⟩
      (s.setFlink l { x with soft := x.soft ++ [r] }).put (R.FLK_Ln_MGMT_STAT_BUSY l) 1

/-! ### Commands -/

/-- FRAME_SLOT (R155). -/
def execFrameSlot (l : Fin 32) (delay : Fin 169) (s : State) : Out := .next (s.frameSlot l delay)

/-- UPSTREAM_FRAME (R175). -/
def execUpstreamFrame (l : Fin 32) (rtt : BitVec 24) (bad : BitVec 48) (fr : List Byte) (s : State) : Out :=
  .next (if s.linkUp l then s.upstream l rtt.toNat bad.toNat fr else s)

/-- UPSTREAM_MISSED (R175). -/
def execUpstreamMissed (l : Fin 32) (s : State) : Out :=
  .next (if s.linkUp l then (s.ageCells l).headerMissed l else s)

/-- LINK_START (R166). -/
def execLinkStart (q : Requester) (l : Fin 32) (s : State) : Out := regWrite q (R.FLK_Ln_CTRL l) (linkCtrlWrite l 1) s
/-- LINK_STOP (R166). -/
def execLinkStop (q : Requester) (l : Fin 32) (s : State) : Out := regWrite q (R.FLK_Ln_CTRL l) (linkCtrlWrite l 32) s
/-- CLRCNT (R175). -/
def execClrcnt (q : Requester) (l : Fin 32) (s : State) : Out := regWrite q (R.FLK_Ln_CTRL l) (linkCtrlWrite l 16) s
/-- REMEASURE (R172). -/
def execRemeasure (q : Requester) (l : Fin 32) (s : State) : Out := regWrite q (R.FLK_Ln_CTRL l) (linkCtrlWrite l 8) s
/-- LINK_SLEEP (R180). -/
def execLinkSleep (q : Requester) (l : Fin 32) (s : State) : Out := regWrite q (R.FLK_Ln_CTRL l) (linkCtrlWrite l 2) s
/-- LINK_WAKE (R180). -/
def execLinkWake (q : Requester) (l : Fin 32) (s : State) : Out := regWrite q (R.FLK_Ln_CTRL l) (linkCtrlWrite l 4) s

/-- SLEEP_HANDSHAKE_END (R180): after 16 frames with SLEEP the link enters SLEEP; a WAKE that came meanwhile follows. -/
def execSleepHandshakeEnd (l : Fin 32) (s : State) : Out :=
  .next (if (s.flink l).sleep = some 0 then
      let wake := (s.flink l).wake
      let s := s.leaveTo l 4
      if wake then s.bringUp l else s
    else s)

/-- ENUM_TIMEOUT (R167): 1 ms has passed since START. -/
def execEnumTimeout (l : Fin 32) (s : State) : Out :=
  .next (if s.lstate l = 1 ∧ us 1000 ≤ s.since (s.flink l).began then s.goDown l 1 else s)

/-- MEASURE_COMPLETE (R168): the offsets have been written and TIME_VALID has been broadcast, and the link enters RUN. -/
def execMeasureComplete (l : Fin 32) (s : State) : Out :=
  .next (let x := s.flink l
    if s.lstate l = 2 ∧ x.valid = true ∧ x.own = [] ∧ (x.sent.any (·.own)) = false then
      let y := { x with valid := false, remeas := s.now,
                        cells := x.cells.map fun c => (c.1, { c.2 with seen := false, faulty := 0 }) }
      (((s.setFlink l y).put (R.FLK_Ln_RTT_RTT l) (roundDiv x.r0sum 16).toNat).put (R.FLK_Ln_STATUS_STATE l) 3).settleLink l |>.raise (426 + l)
    else s)

/-- MGMT_REPLY_TIMEOUT (R168, R175): a reply of the link's own request (`own`) or of software's is missing 8 frames after it. -/
def execMgmtReplyTimeout (l : Fin 32) (own : Bool) (s : State) : Out :=
  .next (let x := s.flink l
    match x.sent.find? fun r => r.own == own && decide (8 ≤ r.age) with
    | none => s
    | some r =>
      let s := s.setFlink l { x with sent := x.sent.filter (· != r), own := if own then { r with again := true } :: x.own else x.own }
      if !own then (s.put (R.FLK_Ln_MGMT_STAT_TIMEOUT l) 1).put (R.FLK_Ln_MGMT_STAT_BUSY l) 0
      else if r.again then s.goDown l 7 else s)

/-- REMEAS_ROUND (R172): the background round falls due, REMEAS * 64 µs after the last one or the entry into RUN. -/
def execRemeasRound (l : Fin 32) (s : State) : Out :=
  .next (let m := s.get (R.FLK_Ln_CFG_REMEAS l)
    if s.lstate l = 3 ∧ m ≠ 0 ∧ us (64 * m) ≤ s.since (s.flink l).remeas then s.setFlink l { (s.flink l).wantRound with remeas := s.now } else s)

/-- BLOCK_LOCK_LOST (R175): block lock is lost, or the link is in hi-BER. -/
def execBlockLockLost (l : Fin 32) (hiBer : Bool) (s : State) : Out :=
  .next (if s.lstate l = 1 ∨ s.lstate l = 2 ∨ s.lstate l = 3 then s.goDown l (if hiBer then 6 else 5) else s)

/-- LINK_FORCE_ACTIVE (R177). -/
def execLinkForceActive (l : Fin 32) (s : State) : Out := .next (s.settleLink l)

/-- SW_FORCE_LINK (R176). -/
def execSwForceLink (q : Requester) (l : Fin 32) (force : Bool) (s : State) : Out :=
  regWrite q (R.FLK_Ln_FORCE l) (linkForceWrite l force.toNat) s

/-- LINK_WARN_CLEAR (R176). -/
def execLinkWarnClear (q : Requester) (l : Fin 32) (s : State) : Out := regWrite q (R.FLK_Ln_LATCH l) (linkLatchWrite l 1) s

/-- MGMT_GO (R162): a write of `v` to FLK_Ln_MGMT_CMD with GO set. -/
def execMgmtGo (q : Requester) (l : Fin 32) (v : Word) (s : State) : Out :=
  regWrite q (R.FLK_Ln_MGMT_CMD l) (mgmtCmdWrite l (v ||| 1#32).toNat) s

end Sys2Proof.Machine
end

