-- ==== Sys2Proof/Machine/Abl.lean ====
section
/-!
DEFINITION. The arm balancer and the words that enter command queues (spec/08).
-/
namespace Sys2Proof.Machine

/-- An arm beside its registers. -/
def State.armOf (s : State) (a : Nat) : Arm := s.arm.get {} a
/-- Change it. -/
def State.setArm (s : State) (a : Nat) (x : Arm) : State := { s with arm := s.arm.set a x }

/-- A cell of an arm: its index, its link and its address (R193). -/
structure ArmCell where
  idx  : Nat
  link : Nat
  addr : Nat
  deriving DecidableEq, Repr

/-- The links of arm `a`, ascending. -/
def State.armLinks (s : State) (a : Nat) : List Nat := (List.range 32).filter fun l => s.bitOn (R.ABL_Aa_LINKS_LINKS a) l

/-- The cells of arm `a` in index order. -/
def State.armCells (s : State) (a : Nat) : List ArmCell :=
  ((s.armLinks a).map fun l => (List.range (s.get (R.FLK_Ln_IMAGE_CELLS l))).map fun k => ⟨s.armBase a l + k, l, k + 1⟩).flatten

/-- What the link knows of a cell. -/
def State.armCell (s : State) (c : ArmCell) : Cell := (s.flink c.link).cell c.addr
/-- STATUS of a cell's last record. -/
def State.cellStatus (s : State) (c : ArmCell) : Nat := bitsOf (s.get (R.FLK_RECn_k_HI_W_HI c.link c.addr)) 8 16

/-- The settings of a round: CTRL and the EXCLUDE words. -/
structure ArmCfg where
  ctrl : Word
  excl : List Word
  deriving DecidableEq, Repr

/-- CTRL and EXCL0 to EXCL3 of arm `a` as they stand. -/
def State.armSet (s : State) (a : Nat) : ArmCfg := ⟨s.rd (R.ABL_Aa_CTRL a), (List.range 4).map fun k => s.rd (R.ABL_Aa_EXCLk a k)⟩
/-- The settings that a round at this instant uses: a write in its own cycle takes effect from the next round (R202). -/
def State.armCfg (s : State) (a : Nat) : ArmCfg :=
  match (s.armOf a).cfg with
  | some (t, c, e) => if s.sameCycle t then ⟨c, e⟩ else s.armSet a
  | none => s.armSet a
/-- Remember the settings of arm `a` before the first write of a cycle (R202). -/
def State.keepCfg (s : State) (a : Nat) : State :=
  let c := s.armCfg a
  s.setArm a { s.armOf a with cfg := some (s.now, c.ctrl, c.excl) }

/-- Is the cell available under settings `g` (R194)? STATUS must show TIME_VALID alone of bits 2 to 9 and 13. -/
def State.available (s : State) (g : ArmCfg) (ref : Nat) (c : ArmCell) : Bool :=
  !s.linkForced c.link && decide (c.addr ≤ s.get (R.FLK_Ln_STATUS_COUNT c.link)) &&
  !(g.excl.getD (c.idx / 32) 0#32).getLsbD (c.idx % 32) &&
  (!(s.armCell c).seen ||
    (decide (s.get (R.FLK_RECn_k_HI_AGE c.link c.addr) ≤ fieldGet g.ctrl 24 8) && (s.cellStatus c &&& 0x23FC) == 8)) &&
  (!bit ref 16 || bit (s.armCell c).caps 0)

/-- The key of a cell in mV before hysteresis (R195). -/
def State.cellKey (s : State) (a : Nat) (c : ArmCell) : Int :=
  if (s.armCell c).seen then (s.get (R.FLK_RECn_k_LO_W_LO c.link c.addr) % 65536 * 100 : Nat) else s.get (R.ABL_Aa_NOMINAL_NOMINAL_MV a)

/-- A cell with its ranking key and whether it is held. -/
structure Ranked where
  cell : ArmCell
  key  : Int
  held : Bool
  deriving DecidableEq, Repr

/-- Does `x` rank before `y` (R196)? -/
def Ranked.before (chg : Bool) (x y : Ranked) : Bool :=
  if x.key ≠ y.key then decide (if chg then x.key < y.key else y.key < x.key)
  else if x.held != y.held then x.held
  else decide (x.cell.idx < y.cell.idx)

/-- Insert a cell at its rank. -/
def rankIn (chg : Bool) (x : Ranked) : List Ranked → List Ranked
  | [] => [x]
  | y :: ys => if x.before chg y then x :: y :: ys else y :: rankIn chg x ys

/-- Rank cells (R196). -/
def rank (chg : Bool) (xs : List Ranked) : List Ranked := xs.foldr (rankIn chg) []

/-- The duration of the pulse in ns, halves up (R197). -/
def pulseNs (frac : Nat) : Nat := (frac * 2000 + 256) / 512

/-- The reference of a round at this instant: words delivered in this commit-stage cycle serve the next (R192). -/
def Arm.refFor (x : Arm) (now : Time) : Nat :=
  match x.refAt with
  | some t => if t.toNat / 32 < now.toNat / 32 then x.ref else x.old
  | none => x.ref

/-- A lane word is delivered to the arm reference of arm `a` (R191, R192). -/
def State.armWord (s : State) (a w : Nat) : State :=
  if 2 ^ 18 ≤ w then s.put (R.ABL_Aa_STATUS_REF_BAD a) 1
  else
    let x := s.armOf a
    s.setArm a { x with ref := w, old := x.refFor s.now, refAt := some s.now }

/-- A lane word with trigger instant `t` is delivered to the queue of link `l` (R188). -/
def State.linkWord (s : State) (l : Nat) (t : Time) (w : Nat) : State :=
  s.enqueue l 1 (cmdWord (bitsOf w 26 6) (bitsOf w 20 6) (bitsOf w 8 12) (t.toNat + s.get (R.FLK_Ln_LEAD_LEAD l) + w % 256 * 1024))

/-- The largest LEAD among the links of arm `a` (R193). -/
def State.armLead (s : State) (a : Nat) : Nat := (s.armLinks a).foldl (fun m l => max m (s.get (R.FLK_Ln_LEAD_LEAD l))) 0

/-- The balancer commands a cell: the command enters the queue, and the model takes the state commanded (R198). -/
def State.armCommand (s : State) (a : Nat) (c : ArmCell) (op arg model : Nat) : State :=
  (s.enqueue c.link 0 (cmdWord c.addr op arg (s.now.toNat + s.armLead a))).setModel a c.idx model

/-- What a round has for one cell beside CLOSE_BYPASS: PULSE, SET or nothing (R198). -/
def State.cellSwitch (s : State) (a : Nat) (sel : Nat) (targets : List Nat) (pulse : Option (Nat × Nat)) (c : ArmCell) : State :=
  if pulse.map (·.1) = some c.idx then s.armCommand a c 2 ((pulse.getD (0, 0)).2 * 4 + sel) 0
  else
    let target := if targets.contains c.idx then sel else 0
    if s.model a c.idx ≠ target ∧ s.linkForced c.link = false ∧ bit (s.cellStatus c) 8 = false then s.armCommand a c 1 target target else s

/-- SET bypass in a round that follows the loss of a link, to each cell whose link takes commands (R201). -/
def State.cellBypass (s : State) (a : Nat) (c : ArmCell) : State :=
  if s.linkForced c.link then s else s.armCommand a c 1 0 0

/-- The command of a round for one cell: CLOSE_BYPASS in place of any other (R200), or `other`. Two faulty records in a row since the last
round, or the last two, ask for it. -/
def State.cellRound (s : State) (a : Nat) (g : ArmCfg) (other : ArmCell → State → State) (c : ArmCell) : State :=
  let x := s.armCell c
  let auto := g.ctrl.getLsbD 1 && bit x.caps 1
  let mark (closed bypass : Bool) : State :=
    s.setFlink c.link ((s.flink c.link).setCell c.addr { x with closed := closed, bypass := bypass })
  if auto && (x.bypass || decide (2 ≤ x.faulty)) && !x.closed && !s.linkForced c.link then
    ((mark true false).armCommand a c 3 0x5A5 0).put (R.ABL_Aa_STATUS_AUTO_CLOSED a) 1
  else other c (if auto then s else mark x.closed false)

/-- A round of arm `a` (R193 to R201). -/
def State.round (s : State) (a : Nat) : State :=
    let x := s.armOf a
    let ref := x.refFor s.now
    let g := s.armCfg a
    let s := (s.put (R.ABL_Aa_REF_REF a) ref).inc (R.ABL_Aa_ROUNDS_COUNT a)
    let sel := if bit ref 16 then 2 else 1
    let chg := bit ref 17 != bit ref 16
    let hyst : Int := fieldGet g.ctrl 8 16
    let cells := s.armCells a
    let avail := cells.filter (s.available g ref)
    let ranked := rank chg (avail.map fun c =>
      let held := s.model a c.idx == sel
      let k := s.cellKey a c
      ⟨c, if held then (if chg then k - hyst else k + hyst) else k, held⟩)
    let m := ranked.length
    let all := x.lost && g.ctrl.getLsbD 2
    let n := if all then 0 else min (bitsOf ref 8 8) m
    let d := pulseNs (ref % 256)
    let targets := (ranked.take n).map fun r => r.cell.idx
    let pulse := match ranked[n]? with
      | some r => if d = 0 then none else some (r.cell.idx, d)
      | none => none
    let mask := avail.foldl (fun w c => setBit w c.idx true) 0
    let gone := cells.any fun c => bit x.avail c.idx && !bit mask c.idx
    let s := s.each cells fun c t =>
      t.cellRound a g (fun c t => if all then t.cellBypass a c else t.cellSwitch a sel targets pulse c) c
    let s := s.setArm a { s.armOf a with avail := mask, lost := false }
    let s := (s.put (R.ABL_Aa_STATUS_INSERTED a) n).put (R.ABL_Aa_STATUS_AVAIL a) m
    let s := s.when gone fun s => (s.put (R.ABL_Aa_STATUS_EXCL a) 1).raise (554 + a)
    if all then (s.put (R.ABL_Aa_STATUS_HALTED a) 1).armStatus a
    else s.when (decide (m < bitsOf ref 8 8)) fun s => (s.put (R.ABL_Aa_STATUS_SHORTFALL a) 1).raise (554 + a)

/-- NOMINAL of arm `a`: an available cell is keyed at NOMINAL_MV (R195). -/
def State.nominal (s : State) (a : Nat) : Bool :=
  s.on (R.ABL_Aa_STATUS_RUNNING a) && (s.armCells a).any fun c =>
    s.available (s.armSet a) ((s.armOf a).refFor s.now) c && !(s.armCell c).seen

/-- A write of `v` to ABL_Aa_CTRL (R201, R202): setting ENABLE makes every model UNKNOWN and the reference 0. -/
def ablCtrlWrite (a v : Nat) (s : State) : State :=
  let s := s.keepCfg a
  let start := bit v 0 && !s.on (R.ABL_Aa_CTRL_ENABLE a)
  let s := s.wr (R.ABL_Aa_CTRL a) (BitVec.ofNat 32 (v &&& 0xFFFFFF07))
  let s := s.when start fun s => (s.each (List.range 16) fun k t => t.wr (R.ABL_Aa_MODELk a k) 0x44444444#32).setArm a { cfg := (s.armOf a).cfg }
  (s.when (bit v 3) fun s => s.put (R.ABL_Aa_STATUS_HALTED a) 0).armStatus a

/-- A write of `v` to ABL_Aa_EXCLk. -/
def exclWrite (a k v : Nat) (s : State) : State := (s.keepCfg a).wr (R.ABL_Aa_EXCLk a k) (BitVec.ofNat 32 v)

/-- A write of `v` to ABL_Ln_SWCMD (R189): the command enters the queue in the next cycle. -/
def swcmdWrite (l v : Nat) (s : State) : State :=
  let s := s.wr (R.ABL_Ln_SWCMD l) (BitVec.ofNat 32 (v &&& 0xFFFFFF00))
  if !bit v 0 then s
  else
    let op := bitsOf v 20 6
    let enabled := match s.linkArm l with | some a => s.on (R.ABL_Aa_CTRL_ENABLE a) | none => false
    if enabled && (op == 1 || op == 2) then s.put (R.ABL_Ln_SWSTAT_SW_REFUSED l) 1
    else s.setFlink l { s.flink l with
      soon := (s.flink l).soon ++ [cmdWord (bitsOf v 26 6) op (bitsOf v 8 12) (s.get (R.ABL_Ln_SWAT_AT l))] }

/-! ### Commands -/

/-- BALANCER_ROUND (R193): at a multiple of 32,000 ticks, for an enabled arm with a link in RUN that is not halted. -/
def execBalancerRound (a : Fin 32) (s : State) : Out :=
  .next (if s.now.toNat % 32000 = 0 ∧ s.running 16 = true ∧ s.on (R.ABL_Aa_STATUS_RUNNING a) = true then s.round a else s)

/-- ABL_SWCMD_GO (R189): a write of `v` to ABL_Ln_SWCMD with GO set. -/
def execAblSwcmdGo (q : Requester) (l : Fin 32) (v : Word) (s : State) : Out :=
  regWrite q (R.ABL_Ln_SWCMD l) (swcmdWrite l (v ||| 1#32).toNat) s

/-- ARM_ENABLE_WRITE (R202): a write of `v` to ABL_Aa_CTRL. -/
def execArmEnableWrite (q : Requester) (a : Fin 32) (v : Word) (s : State) : Out :=
  regWrite q (R.ABL_Aa_CTRL a) (ablCtrlWrite a v.toNat) s

/-- ARM_RESUME (R201): a write of `v` to ABL_Aa_CTRL with RESUME set. -/
def execArmResume (q : Requester) (a : Fin 32) (v : Word) (s : State) : Out :=
  regWrite q (R.ABL_Aa_CTRL a) (ablCtrlWrite a (v ||| 8#32).toNat) s

end Sys2Proof.Machine
end

