-- ==== Sys2Proof/Machine/Buf.lean ====
section
/-!
DEFINITION. The fetch and store buffers of a core beside memory (spec/11, R268, R278 to R285): which lines the line buffer holds, the
branch-target buffer, and what of memory buffered stores hide from their own core.
-/
namespace Sys2Proof.Machine

/-- The buffers of core `c`. -/
def State.buf (s : State) (c : Nat) : CoreBuf := s.bufs.get {} c
/-- Change them. -/
def State.setBuf (s : State) (c : Nat) (b : CoreBuf) : State := { s with bufs := s.bufs.set c b }

/-- The number of the 32-byte fetch line of an address. -/
def fetchLine (a : Nat) : Nat := a / 32

/-! ### Lines (R278, R279) -/

/-- Does the line buffer hold line `l`? -/
def CoreBuf.holds (b : CoreBuf) (l : Nat) : Bool := b.lines.any fun e => e.1 == l
/-- Line `l` is used, or arrives with bytes `bs` on demand: it becomes the most recently used one of 4. -/
def CoreBuf.use (b : CoreBuf) (l : Nat) (bs : List Byte) : CoreBuf :=
  let e := (b.lines.find? fun e => e.1 == l).getD (l, bs)
  { b with lines := (e :: b.lines.filter fun e => e.1 != l).take 4 }
/-- Line `l` arrives with bytes `bs` by prefetch: it replaces the least recently used line, and not the line in use. -/
def CoreBuf.prefetch (b : CoreBuf) (l : Nat) (bs : List Byte) : CoreBuf :=
  { b with lines := (b.lines.take 1 ++ [(l, bs)] ++ b.lines.drop 1).take 4 }

/-- Every line and entry whose line `p` names is invalidated (R281). -/
def CoreBuf.forget (b : CoreBuf) (p : Nat → Bool) : CoreBuf :=
  { b with lines := b.lines.filter fun e => !p e.1, btb := b.btb.filter fun e => !p (fetchLine e.target), cur := none }

/-- Do the `n` bytes at `a` meet fetch line `l`? -/
def meets (a n l : Nat) : Bool := decide (32 * l < a + n) && decide (a < 32 * l + 32)

/-! ### The branch-target buffer (R280) -/

/-- The line of a taken transfer from `a` to `t` that an entry matches. -/
def CoreBuf.target (b : CoreBuf) (a t : Nat) : Option Btb := b.btb.find? fun e => e.addr == a && e.target == t
/-- An entry is used or written: the most recently used one of 64, in place of one with the same address. -/
def CoreBuf.record (b : CoreBuf) (e : Btb) : CoreBuf := { b with btb := (e :: b.btb.filter fun x => x.addr != e.addr).take 64 }

/-! ### Code and buffered stores (R235, R281, R283, R285) -/

/-- Bytes at `a` with a buffered store laid over them. -/
def overlaid (a : Nat) (bs : List Byte) (e : Buffered) : List Byte :=
  (List.range bs.length).map fun i => if e.addr ≤ a + i ∧ a + i < e.addr + e.bytes.length then e.bytes.getD (a + i - e.addr) 0#8 else bs.getD i 0#8
/-- Bytes at `a` as core `c` has made them: memory with its buffered stores laid over it, the oldest first. -/
def State.seenBy (s : State) (c a n : Nat) : List Byte := (s.buf c).stores.foldl (overlaid a) (s.bytesAt a n)

/-- The halfword at `a` in the line that the line buffer of core `c` holds. -/
def CoreBuf.held (b : CoreBuf) (a : Nat) : Option Nat :=
  (b.lines.find? fun e => e.1 == fetchLine a).map fun e => leNat ((e.2.drop (a % 32)).take 2)
/-- The halfword at `a` among the bytes that followed the last instruction when it issued. -/
def CoreBuf.followed (b : CoreBuf) (a : Nat) : Option Nat :=
  if b.ahead.1 ≤ a ∧ a + 2 ≤ b.ahead.1 + b.ahead.2.length then some (leNat ((b.ahead.2.drop (a - b.ahead.1)).take 2)) else none

/-- The halfwords that core `c` may execute at `a`: what memory and its own stores hold there now and, where another master has changed
it since, its old forms in the line buffer and in the 16 bytes after the last instruction (R283). -/
def State.halves (s : State) (c a : Nat) : List Nat :=
  leNat (s.seenBy c a 2) :: ((s.buf c).held a).toList ++ ((s.buf c).followed a).toList

/-- A store of the core whose buffers these are: lines that it meets are invalidated, and the fetch path has its bytes (R281, R282). -/
def CoreBuf.stored (b : CoreBuf) (a : Nat) (bs : List Byte) : CoreBuf :=
  let b := if (b.lines.any fun e => meets a bs.length e.1) || (b.btb.any fun e => meets a bs.length (fetchLine e.target)) then
    { b.forget (meets a bs.length) with cur := b.cur } else b
  { b with ahead := (b.ahead.1, overlaid b.ahead.1 b.ahead.2 { addr := a, bytes := bs, lvl := 0, view := 0, rivals := [] }) }

/-- At the end of a flash program or erase operation, every line and entry that holds flash is invalidated (R281). -/
def State.flashForget (s : State) : State :=
  { s with bufs := s.bufs.map fun e => (e.1, e.2.forget fun l => inFlash (32 * l)) }

end Sys2Proof.Machine
end

