-- ==== Sys2Proof/Machine/FlashCtl.lean ====
section
/-!
DEFINITION. The flash arrays (spec/20): operations, the journal, supply holds and resets. The services that start operations are in
Rom.lean.
-/
namespace Sys2Proof.Machine

/-! ### Arrays and blocks -/

/-- The operation of array `b`. -/
def State.flashOp (s : State) (b : Nat) : FlashOp := s.flash.ops.get {} b
/-- Change it. -/
def State.setFlashOp (s : State) (b : Nat) (x : FlashOp) : State := { s with flash := { s.flash with ops := s.flash.ops.set b x } }
/-- The first address of a block (information block k is 512 + k). -/
def blockBase (k : Nat) : Nat := if k < 512 then 0x08000000 + 0x10000 * k else 0x0A000000 + 0x10000 * (k - 512)
/-- Is an operation RUNNING, SUSPENDED or SUPPLY_HOLD (Table 20.4)? -/
def FlashOp.busy (x : FlashOp) : Bool := x.state == 1 || x.state == 2 || x.state == 3
/-- Does the controller start no pulse, because a supply warns (R458)? -/
def State.flashWarn (s : State) : Bool :=
  s.bitOn R.PWR_SUP_LIVE_CORE 2 || s.bitOn R.PWR_SUP_LIVE_CORE 3 || s.bitOn R.PWR_SUP_LIVE_CORE 0

/-- Is a read of address `a` held back, because its array runs an operation and no window is open (R444)? -/
def State.flashHeld (s : State) (a : Nat) : Bool :=
  match regionOf a with
  | some .flash | some .info =>
    let b := flashArray a
    (s.flashOp b).state == 1 && !(match s.flash.window.find? fun e => e.1 == b with
      | some (_, t) => decide (s.since t < us 4)
      | none => false)
  | _ => false

/-- A block reads erased, with valid ECC (R442). -/
def State.blank (s : State) (k : Nat) : State :=
  { s with
    mem := Mem.clear s.mem (blockBase k) (blockBase k + 0x10000)
    flash := { s.flash with mix := s.flash.mix.drop (· == k), ecc := s.flash.ecc.drop fun u => flashBlock (32 * u) == k } }
/-- A unit at `a` holds an indeterminate mix of bits: its bytes and its ECC are free (R450, R460). -/
def State.mixUnit (s : State) (a : Nat) : State :=
  let (v, s) := s.fresh
  let (e, s) := s.fresh
  let s := s.poke a ((List.range 32).map fun i => Config.mixByte v (a + i))
  { s with flash := { s.flash with ecc := s.flash.ecc.set (a / 32) (e % 3) } }
/-- The bytes of a block are indeterminate while an erase runs, and after one that did not complete. -/
def State.scramble (s : State) (k : Nat) : State :=
  let s := s.blank k
  { s with free := s.free + 1, flash := { s.flash with mix := s.flash.mix.set k s.free } }

/-! ### The journal (R461 to R463) -/

/-- First address of journal block `j`. -/
def journalBase (j : Nat) : Nat := 0x0A010000 + 0x10000 * j

/-- A journal entry (Table 20.7). -/
def journalEntry (type owner block seq value : Nat) (t : Time) : List Byte :=
  let b := leBytes 1 type ++ leBytes 1 owner ++ leBytes 2 block ++ leBytes 4 seq ++ leBytes 4 value ++ leBytes 8 t.toNat ++ leBytes 8 0
  b ++ leBytes 4 (crc32c b)

/-- Write the next entry into the active block. -/
def State.putJournal (s : State) (j type owner block value : Nat) : State :=
  let s := s.poke (journalBase j + 32 * s.flash.entry) (journalEntry type owner block s.flash.seq value s.now)
  { s with flash := { s.flash with entry := s.flash.entry + 1, seq := s.flash.seq + 1 } }

/-- Word `k` of a snapshot (R462). -/
def State.snapWord (s : State) (k : Nat) : Nat := s.flash.count.get 0 k % 2 ^ 31 + (s.flash.incom.get false k).toNat * 2 ^ 31

/-- Switch to journal block `j`: erase it, write the snapshot and the SNAPSHOT entry (R462). -/
def State.journalSwitch (s : State) (j : Nat) : State :=
  let s := s.blank (513 + j)
  let s := s.poke (journalBase j) ((List.range 512).map fun k => leBytes 4 (s.snapWord k)).flatten
  let s := { s with flash := { s.flash with active := some j, entry := 64 } }
  s.putJournal j 4 0xFF 0xFFFF (s.get R.SCFG_FLOOR_FLOOR)

/-- Append an entry; a full block, or none that is valid, switches first (R461, R462). -/
def State.journal (s : State) (type owner block value : Nat) : State :=
  let s := match s.flash.active with
    | none => s.journalSwitch 0
    | some j => if 2048 ≤ s.flash.entry then s.journalSwitch (1 - j) else s
  s.putJournal (s.flash.active.getD 0) type owner block value

/-- A byte of flash owner: 0xFF for the platform. -/
def flashOwner (o : Nat) : Nat := if o = platform then 0xFF else o

/-- An erase of user block `k` begins: its count rises, it is marked, and its bytes are indeterminate (R451). -/
def State.eraseStart (s : State) (owner k : Nat) : State :=
  let n := s.flash.count.get 0 k + 1
  let s := s.journal 1 (flashOwner owner) k n
  ({ s with flash := { s.flash with count := s.flash.count.set k n, incom := s.flash.incom.set k true } } : State).scramble k

/-- An erase of user block `k` ends well (R451). -/
def State.eraseEnd (s : State) (owner k : Nat) : State :=
  let s := (s.blank k).journal 2 (flashOwner owner) k 0
  { s with flash := { s.flash with incom := s.flash.incom.set k false } }

/-- Is the entry in 32 bytes sound? -/
def entryOk (e : List Byte) : Bool := crc32c (e.take 28) == leNat (e.drop 28)

/-- Apply the entries from number `i` of journal block `j` on (R463). The first argument bounds their number. -/
def State.replay : Nat → Nat → Nat → State → State
  | 0, _, _, s => s
  | n + 1, j, i, s =>
    let e := s.bytesAt (journalBase j + 32 * i) 32
    let f (o k : Nat) : Nat := leNat ((e.drop o).take k)
    let s := { s with flash := { s.flash with entry := i } }
    if i ≥ 2048 ∨ e.all (· == 0xFF#8) = true ∨ entryOk e = false then s
    else
      let blk := f 2 2
      let s := { s with flash := { s.flash with seq := f 4 4 + 1 } }
      State.replay n j (i + 1) (match f 0 1 with
        | 1 => { s with flash := { s.flash with count := s.flash.count.set blk (f 8 4), incom := s.flash.incom.set blk true } }
        | 2 => { s with flash := { s.flash with incom := s.flash.incom.set blk false } }
        | 3 => s.put R.SCFG_FLOOR_FLOOR (max (s.get R.SCFG_FLOOR_FLOOR) (f 8 4))
        | _ => s)

/-- The SEQ of the SNAPSHOT of journal block `j`, if it is valid. -/
def State.snapSeq (s : State) (j : Nat) : Option Nat :=
  let e := s.bytesAt (journalBase j + 2048) 32
  if entryOk e ∧ leNat (e.take 1) = 4 then some (leNat ((e.drop 4).take 4)) else none

/-- ROM rebuilds counts, marks and the floor (R463); with no valid block everything is zero. -/
def State.journalRebuild (s : State) : State :=
  let s := ({ s with flash := { s.flash with count := [], incom := [], active := none, entry := 0, seq := 0 } } : State).put R.SCFG_FLOOR_FLOOR 0
  let j := match s.snapSeq 0, s.snapSeq 1 with
    | none, none => none
    | some _, none => some 0
    | none, some _ => some 1
    | some a, some b => some (if a < b then 1 else 0)
  match j with
  | none => s
  | some j =>
    let s := s.each (List.range 512) fun k t =>
      let w := t.numAt (journalBase j + 4 * k) 4
      if w = 0 then t
      else { t with flash := { t.flash with count := if w % 2 ^ 31 = 0 then t.flash.count else t.flash.count.set k (w % 2 ^ 31),
                                            incom := if 2 ^ 31 ≤ w then t.flash.incom.set k true else t.flash.incom } }
    let s := s.put R.SCFG_FLOOR_FLOOR (s.numAt (journalBase j + 2048 + 8) 4)
    let s := { s with flash := { s.flash with active := some j, seq := (s.snapSeq j).getD 0 + 1 } }
    s.replay 2000 j 65

/-! ### Progress of an operation -/

/-- The caller in whose view an operation reads and writes. -/
def FlashOp.who (x : FlashOp) : Who :=
  ⟨.core (match x.core with | some c => if h : c < 9 then ⟨c, h⟩ else 8 | none => 8), x.owner⟩

/-- An operation ends with VERIFY_FAIL: w1 the cause, w2 the address (R448, R450). -/
def FlashOp.fail (x : FlashOp) (cause a : Nat) : FlashOp := { x with code := 4, w1 := cause, w2 := a }

/-- One unit of PROGRAM (R450) or READ (R465); `bad` says that a programmed unit does not verify. -/
def State.flashUnit (s : State) (b : Nat) (bad : Bool) : State :=
  let x := s.flashOp b
  let a := x.addr + 32 * x.units
  if x.code != 0 || x.len ≤ 32 * x.units then s
  else if x.op = 1 then
    match s.memEgress x.who (x.src + 32 * x.units) 32 with
    | (none, s) => s.setFlashOp b (x.fail 1 a)
    | (some d, s) =>
      if (s.bytesAt a 32).any (· != 0xFF#8) then s.setFlashOp b (x.fail 3 a)
      else if bad then
        (s.mixUnit a).setFlashOp b (x.fail 2 a)
      else (s.poke a d).setFlashOp b { x with units := x.units + 1 }
  else
    let (sound, s) := s.flashEcc a
    let (_, s) := s.memWrite x.who (x.src + 32 * x.units) (s.bytesAt a 32)
    s.setFlashOp b { x with units := x.units + 1, w1 := if sound then x.w1 else 2 ^ 30 }

/-- The remaining units; `bad` is the unit that does not verify. The first argument bounds their number. -/
def State.flashUnits : Nat → Nat → Option Nat → State → State
  | 0, _, _, s => s
  | n + 1, b, bad, s => State.flashUnits n b bad (s.flashUnit b (bad == some (s.flashOp b).units))

/-- w1 and w2 of a READ (R465): bit 30 tells of an uncorrectable unit; in a margin mode, how many units differ and where is not stated. -/
def State.marginResult (s : State) (x : FlashOp) : Nat × Nat × State :=
  let suspect := if s.flash.incom.get false (flashBlock x.addr) || s.flash.incom.get false (flashBlock (x.addr + x.len - 1)) then 2 ^ 31 else 0
  if x.mode = 0 then (suspect + x.w1, 0, s)
  else
    let (v, s) := s.fresh
    let (u, s) := s.fresh
    let n := v % (x.len / 32 + 1)
    (suspect + x.w1 + n, if n = 0 then 0 else x.addr + 32 * (u % (x.len / 32)), s)

/-- An operation reaches its end (R448, R450, R451, R465, R467); `bad` says where it does not verify. -/
def State.flashFinish (s : State) (b : Nat) (bad : Option Nat) : State :=
  let x := s.flashOp b
  match x.op with
  | 1 => s.flashUnits 130 b bad
  | 2 =>
    let k := flashBlock x.addr
    match bad with
    | none => (s.eraseEnd x.owner k).setFlashOp b x
    | some _ => let (v, s) := s.fresh
                s.setFlashOp b (x.fail 4 (x.addr + 32 * (v % 2048)))
  | 6 =>
    let s := s.flashUnits 130 b none
    let (w1, w2, s) := s.marginResult (s.flashOp b)
    s.setFlashOp b { s.flashOp b with w1 := w1, w2 := w2 }
  | 10 =>
    let s := s.blank 512
    match bad with
    | none => (s.poke 0x0A000000 x.data).setFlashOp b { x with units := 37 }
    | some unit => let u := unit % 37
                ((s.poke 0x0A000000 (x.data.take (32 * u))).mixUnit (0x0A000000 + 32 * u)).setFlashOp b
                  { x with units := u, code := 4, w1 := 2, w2 := 0x0A000000 + 32 * u }
  | _ => s

/-- The flash blocks that an image of `n` bytes covers in slot `k`. -/
def coveredBlocks (k n : Nat) : List Nat := (List.range ((n + 65535) / 65536)).map fun i => 128 * k + i
/-- The slot that a persist writes: the one other than BASE_SLOT (R51). DESIGN CHOICE: slot A where BASE_SLOT is 0b11, the recovery
mailbox (log 56). -/
def State.persistSlot (s : State) : Nat := if s.get R.SCFG_STATUS_BASE_SLOT = 0 then 1 else 0

/-- A persist that waits begins once its array holds no other operation (R51, R447): the blocks that the image covers are erased, the
first one first. -/
def State.persistTry (s : State) : State :=
  match s.persisting with
  | none => s
  | some (_, img) =>
    let k := s.persistSlot
    if (s.flashOp k).busy then s
    else
      let s := s.each (coveredBlocks k img.length) fun b t => t.eraseStart platform b
      (s.blank (128 * k)).setFlashOp k { state := 1, op := 0, owner := platform, addr := blockBase (128 * k), len := img.length }

/-- The operation becomes DONE with its final code; FLASH_DONE is raised (R447, R448, R458), and fetch buffers forget flash (R281). A persist
that waited begins. -/
def State.flashDone (s : State) (b : Nat) : State :=
  let x := s.flashOp b
  let code := if x.code = 4 then 4 else if bit x.flags 0 then 5 else 0
  let s := ({ s with flash := { s.flash with window := s.flash.window.drop (· == b) } } : State).setFlashOp b { x with state := 4, code := code }
  (s.flashForget.raise 765).persistTry

/-! ### Suspension, supply and resets -/

/-- The pulse in progress on array `b` ends: the unit that a PROGRAM writes is done (R456, R458, R459). One that does not verify ends its
operation, which is FLASH_OP_DONE. -/
def State.pulseEnd (s : State) (b : Nat) : State :=
  if (s.flashOp b).state = 1 ∧ (s.flashOp b).op = 1 then s.flashUnit b false else s

/-- SUSPEND of array `b`: answers whether something was running (R456, R457). -/
def State.flashSuspend (s : State) (b : Nat) : Bool × State :=
  let s := s.pulseEnd b
  let x := s.flashOp b
  if x.state = 1 ∨ x.state = 3 then (true, s.setFlashOp b { x with state := 2, since := s.now }) else (false, s)

/-- RESUME of array `b`: answers whether something was suspended; under a supply warning it becomes SUPPLY_HOLD (R457). -/
def State.flashResume (s : State) (b : Nat) : Bool × State :=
  let x := s.flashOp b
  if x.state = 2 then
    (true, s.setFlashOp b (if s.flashWarn then { x with state := 3, flags := setBit x.flags 0 true } else { x with state := 1 }))
  else (false, s)

/-- A supply warning asserts: RUNNING operations are held (R458). -/
def State.flashHold (s : State) : State :=
  s.each ((List.range 5).filter fun b => (s.flashOp b).state == 1) fun b t =>
    let t := t.pulseEnd b
    let x := t.flashOp b
    t.setFlashOp b { x with state := 3, flags := setBit x.flags 0 true }

/-- A partition reset of `p` ends its operations and its PROTECT locks (R452, R459). -/
def State.flashPartReset (s : State) (p : Nat) : State :=
  let s := s.each ((List.range 5).filter fun b => (s.flashOp b).busy && (s.flashOp b).owner == p) fun b t =>
    (t.pulseEnd b).setFlashOp b {}
  ({ s with flash := { s.flash with lock := s.flash.lock.filter fun e => e.2 != p } } : State).persistTry

/-- A CAL_WRITE that a DEVICE reset ends leaves a record that fails its check (R460, R467): its bytes are indeterminate but for that. -/
def State.calBroken (s : State) : State :=
  let (v, s) := s.fresh
  s.poke 0x0A00049C (leBytes 4 (crc32c (s.bytesAt 0x0A000000 1180) + 1 + v % (2 ^ 32 - 1)))

/-- A DEVICE reset ends every operation (R460): the unit that a PROGRAM was writing is indeterminate. -/
def State.flashDeviceReset (s : State) : State :=
  let s := s.each (List.range 5) fun b t =>
    let x := t.flashOp b
    if x.state = 1 ∧ x.op = 1 ∧ 32 * x.units < x.len ∧ x.code = 0 then
      t.mixUnit (x.addr + 32 * x.units)
    else if x.op = 10 ∧ x.busy = true then t.calBroken
    else t
  { s with flash := { mix := s.flash.mix, ecc := s.flash.ecc } }

/-! ### The calibration record (R466, R467) -/

/-- Is a 1,184-byte record valid? -/
def calOk (r : List Byte) : Bool :=
  let f (o n : Nat) : Nat := leNat ((r.drop o).take n)
  r.length == 1184 && r.take 4 == [0x43, 0x41, 0x4C, 0x52] && f 4 2 == 1 && f 6 2 == 1184 && crc32c (r.take 1180) == f 1180 4

/-- The record in flash. -/
def State.calRecord (s : State) : List Byte := s.bytesAt 0x0A000000 1184

/-! ### Commands -/

/-- READ_WINDOW (R444): a pulse or sub-pulse of array `b` ends. One more unit of a PROGRAM, or eight of a READ, are done, and a
window opens. -/
def execReadWindow (b : Fin 5) (s : State) : Out :=
  .next (let x := s.flashOp b
    if x.state != 1 then s
    else
      let s := if x.op = 1 then s.flashUnits 1 b none else if x.op = 6 then s.flashUnits 8 b none else s
      { s with flash := { s.flash with window := s.flash.window.set b s.now } })

/-- AUTO_RESUME (R456): an operation suspended for 50 ms resumes by itself. -/
def execAutoResume (b : Fin 5) (s : State) : Out :=
  .next (let x := s.flashOp b
    if x.state = 2 ∧ us 50000 ≤ s.since x.since then (s.setFlashOp b { x with flags := setBit x.flags 1 true }).flashResume b |>.2 else s)

/-- SUPPLY_HOLD_END (R458): 20 µs after all warnings cleared, held operations run again. -/
def execSupplyHoldEnd (s : State) : Out :=
  .next (if s.flashWarn || decide (s.since s.flash.clear < us 20) then s
    else s.each ((List.range 5).filter fun b => (s.flashOp b).state == 3) fun b t => t.setFlashOp b { t.flashOp b with state := 1 })

end Sys2Proof.Machine
end

