-- ==== Sys2Proof/Machine/Evm.lean ====
section
/-!
DEFINITION. The event matrix (spec/13): consumer inputs, the channel stage, fires and timed fires. Taking an event at its
consumer is in LaneTrig.lean.
-/
namespace Sys2Proof.Machine

/-! ### Consumer inputs (Table 13.2) -/

/-- The owner of a consumer input: that of the block that carries it. -/
def State.inputOwner (s : State) (i : Nat) : Nat :=
  if i < 0x0800 then s.coreOwner (i / 0x100)
  else if i < 0x0900 then platform
  else if i < 0x0908 then s.coreOwner (i - 0x0900)
  else if i < 0x0A00 then platform
  else if i < 0x0A10 then s.owner 1 (i - 0x0A00)
  else if i < 0x0A28 then s.owner 2 (i - 0x0A10)
  else if i < 0x0A30 then platform
  else if i < 0x0A50 then s.owner 4 (i - 0x0A30)
  else if i < 0x0A60 then s.owner 6 (i - 0x0A50)
  else if i < 0x0A80 then s.dmaOwner (i - 0x0A60)
  else if i < 0x0A88 then s.owner 7 (i - 0x0A80)
  else platform

/-- The clock domain of a consumer input (Table 13.2, numbered as Table 2.7). -/
def inputDomain (i : Nat) : Nat :=
  if i < 0x0800 then 17 + i / 0x200
  else if i < 0x0900 then 21
  else if i < 0x0908 then 17 + (i - 0x0900) / 2
  else if i < 0x0A00 then 21
  else if i < 0x0A10 then i - 0x0A00
  else if i < 0x0A28 then 45
  else if i < 0x0A30 then 28 + (i - 0x0A28)
  else if i < 0x0A50 then 41 + (i - 0x0A30) / 8
  else if i < 0x0A60 then 40
  else if i < 0x0A80 then 23
  else if i < 0x0A88 then 92
  else if i < 0x0A8A then 87 + 2 * (i - 0x0A88)
  else 93

/-- Does a consumer input belong to the trailing core of a lockstep pair (R496)? -/
def State.trailing (s : State) (i : Nat) : Bool :=
  let c := if i < 0x0800 then i / 0x100 else if 0x0900 ≤ i ∧ i < 0x0908 then i - 0x0900 else 8
  c % 2 == 1 && s.lockstep (c / 2)

/-- Is the consumer of an input held in reset (R317, R496)? -/
def State.inputInReset (s : State) (i : Nat) : Bool :=
  s.ownerInReset (s.inputOwner i) || s.domReset (inputDomain i) || s.trailing i

/-- Does a consumer take every event on arrival (Table 13.4)? -/
def takesOnArrival (i : Nat) : Bool := 0x0A00 ≤ i && i < 0x0A60

/-- The event of channel `c` is taken by its consumer. -/
def State.takeEvent (s : State) (c : Nat) : State :=
  let x := s.chan c
  s.setChan c { x with pend := x.pend.tail, handed := false }

/-- The channel that an input selects. -/
def State.channelOf (s : State) (i : Nat) : Option Nat :=
  (List.range 256).find? fun c => s.on (R.EVM_Cc_CONS_VALID c) && s.get (R.EVM_Cc_CONS_INPUT c) == i

/-- OVERRUN of a channel sets; on its rise EVM_OVERRUN is raised (R319). -/
def State.setOverrun (s : State) (c : Nat) : State :=
  (s.put (R.EVM_Cc_STATUS_OVERRUN c) 1).when (!s.on (R.EVM_Cc_STATUS_OVERRUN c)) fun s => s.raise 761

/-- One cycle of the channel stage (R315 to R317): everything that has arrived makes one event. -/
def State.channelStage (s : State) (c : Nat) : State :=
  let x := s.chan c
  if x.arrived.isEmpty then s
  else
    let h := x.arrived.foldl max 0
    let s := s.setChan c { x with arrived := [] }
    let s := s.when (decide (1 < x.arrived.length)) fun s => s.incSat (R.EVM_Cc_STATUS_COINCIDE c)
    let s := s.put (R.EVM_Cc_STATUS_LASTHOP c) h
    let i := s.get (R.EVM_Cc_CONS_INPUT c)
    if !s.on (R.EVM_Cc_CONS_VALID c) then s.inc (R.EVM_Cc_COUNT_COUNT c)
    else if s.inputInReset i then
      (s.setChan c { x with arrived := [], pend := [], handed := false }).put (R.EVM_Cc_STATUS_DROPPED c) 1
    else
      let s := s.inc (R.EVM_Cc_COUNT_COUNT c)
      match x.pend with
      | [] => s.setChan c { x with arrived := [], pend := [h] }
      | p :: ps =>
        if takesOnArrival i && s.running (inputDomain i) then s.setChan c { x with arrived := [], pend := p :: ps ++ [h] }
        else (s.setChan c { x with arrived := [], pend := max p h :: ps }).setOverrun c

/-- A write of `v` to EVM_Cc_FIRE (R320, R321). -/
def evmFireWrite (c v : Nat) (s : State) : State :=
  let hop := bitsOf v 4 3
  let s := s.when (bit v 3) fun s => (s.put (R.EVM_Cc_STATUS_COINCIDE c) 0).put (R.EVM_Cc_COUNT_COUNT c) 0
  let s := s.when (bit v 2) fun s => s.setChan c { s.chan c with timed := none }
  let s := s.when (bit v 1) fun s =>
    let at_ := timeOf (s.get (R.EVM_Cc_AT_LO_AT_LO c)) (s.get (R.EVM_Cc_AT_HI_AT_HI c))
    if s.reached at_ && s.now != at_ then
      ((s.setChan c { s.chan c with timed := none }).arrive c hop).put (R.EVM_Cc_STATUS_LATE_AT c) 1
    else s.setChan c { s.chan c with timed := some hop }
  s.when (bit v 0) fun s => s.arrive c hop

/-! ### Commands -/

/-- PRODUCER_EVENT (R314): a producer raises an event. -/
def execProducerEvent (line : Fin 768) (hop : Fin 8) (s : State) : Out := .next (s.raise line hop)

/-- PRODUCER_HOLD_RELEASE (R314): the held event leaves the producer, 8.0 ns after the last one left; a line of a partition held in
reset raises nothing (R322). -/
def execProducerHoldRelease (line : Fin 768) (s : State) : Out :=
  let l := s.line line
  .next (match l.held, l.left with
    | some h, some t =>
      if s.since t < ns 8 then s
      else if s.ownerInReset (s.lineOwner line) then s.setLine line { l with held := none }
      else s.leave line h
    | _, _ => s)

/-- CHANNEL_STAGE (R315). -/
def execChannelStage (c : Fin 256) (s : State) : Out := .next (s.channelStage c)

/-- TIMED_FIRE_DUE (R320): an armed timed fire enters the channel stage and is used up. -/
def execTimedFireDue (c : Fin 256) (s : State) : Out :=
  .next (match (s.chan c).timed with
    | some h => if !s.reached (timeOf (s.get (R.EVM_Cc_AT_LO_AT_LO c)) (s.get (R.EVM_Cc_AT_HI_AT_HI c))) then s else (s.setChan c { s.chan c with timed := none }).arrive c h
    | none => s)

/-- EVM_FIRE (R320): a write of FIRE with HOP. -/
def execEvmFire (q : Requester) (c : Fin 256) (hop : Fin 8) (s : State) : Out :=
  regWrite q (R.EVM_Cc_FIRE c) (evmFireWrite c (1 + 16 * hop)) s

/-- EVM_TIMED (R320): a write of TIMED with HOP. -/
def execEvmTimed (q : Requester) (c : Fin 256) (hop : Fin 8) (s : State) : Out :=
  regWrite q (R.EVM_Cc_FIRE c) (evmFireWrite c (2 + 16 * hop)) s

/-- EVM_CANCEL (R321): a write of CANCEL. -/
def execEvmCancel (q : Requester) (c : Fin 256) (s : State) : Out := regWrite q (R.EVM_Cc_FIRE c) (evmFireWrite c 4) s

/-- EVM_CLEAR: a write of CLEAR to EVM_Cc_FIRE. -/
def execEvmClear (q : Requester) (c : Fin 256) (s : State) : Out := regWrite q (R.EVM_Cc_FIRE c) (evmFireWrite c 8) s

end Sys2Proof.Machine
end

