-- ==== Sys2Proof/Machine/Feed.lean ====
section
/-!
DEFINITION. What a feeder port does at the dispatches of its loop's binding (spec/14): FEED, the ceiling, the rate of dispatches and
the end of a transmission. Frames and the ring are in Fse.lean.
-/
namespace Sys2Proof.Machine

/-- A feeder port beside its registers. -/
def State.port (s : State) (n : Nat) : FsePort := s.fse.get {} n
/-- Change it; TX_ACTIVE and INJECTING follow. -/
def State.setPort (s : State) (n : Nat) (x : FsePort) : State :=
  (({ s with fse := s.fse.set n x } : State).putB (R.FSE_Pn_STATUS_TX_ACTIVE n) x.tx.isSome).putB (R.FSE_Pn_LOOP_INJECTING n) x.tx.isSome

/-- Does the logic of port `n` run (R324, R325)? -/
def State.portRuns (s : State) (n : Nat) : Bool := s.portUsed n && s.running 92 && !s.domReset 92 && !s.ownerInReset (s.owner 7 n)

/-- A status bit rises, with FPn_FAULT on the rise (Table 14.7). -/
def State.portFault (s : State) (n : Nat) (q : RF) : State := (s.put q 1).when (!s.on q) fun s => s.raise (686 + 4 * n)

/-- Port `n` is heard again 40 µs after its own last sample (R334). -/
def State.portQuiet (s : State) : Option Time := some (s.now + BitVec.ofNat 64 (us 40))

/-- A transmission ends with a status code (Table 14.1): a frame waits for its write-back, an acknowledgement fails. -/
def State.endTx (s : State) (n status : Nat) : State :=
  let x := s.port n
  match x.tx with
  | none => s
  | some t =>
    let x := { x with tx := none, quiet := if s.reached t.start then s.portQuiet else x.quiet }
    if t.ack then (s.setPort n x).incSat (R.FSE_Pn_ERRCNT_ACK_FAIL n)
    else if t.reply then s.setPort n x
    else
      let s := s.setPort n { x with result := some status }
      s.when (status == 3 || status == 4 || status == 5) fun s => s.raise (686 + 4 * n)

/-- The instant of sample `k` after TX_START (R327). -/
def sampleTick (fcc : Bool) (k : Nat) : Nat := if fcc then (roundDiv (k * 80000) 3).toNat else k * 80000

/-- The last sample at or before `d` ticks after TX_START. -/
def sampleBefore (fcc : Bool) (d : Nat) : Nat :=
  let k := if fcc then 3 * d / 80000 else d / 80000
  if sampleTick fcc (k + 1) ≤ d then k + 1 else k

/-- The waveform at instant `t` as a fraction of 2^15 with a denominator (R327). -/
def FseTx.wave (x : FseTx) (fcc : Bool) (t : Time) : Int × Int :=
  let d := (t - x.start).toNat
  let k := sampleBefore fcc d
  let w := fun i => clampI (-32768) 32767 (Config.waveform fcc x.mod x.map x.bytes i)
  let n := Config.waveLength fcc x.mod x.map x.bytes
  let a := sampleTick fcc k
  if 2 ^ 63 ≤ d ∨ n ≤ k then (0, 1)
  else if d = a then (w k, 1)
  else if k + 1 = n then (0, 1)
  else
    let den : Int := sampleTick fcc (k + 1) - a
    (w k * den + (w (k + 1) - w k) * (d - a), den)

/-- FEED before and after the ceiling at trigger instant `t` (R326). -/
def State.feedAt (s : State) (n : Nat) (x : FseTx) (t : Time) : Int × Int :=
  let (num, den) := x.wave (s.on (R.FSE_Pn_IMAGE_BAND n)) (t + BitVec.ofNat 64 (s.get (R.FSE_Pn_TXLEVEL_TX_ADV n)))
  let v := roundDiv (s.get (R.FSE_Pn_TXLEVEL_TX_LEVEL n) * num) (32768 * den)
  let c : Int := s.get (R.FSE_Pn_IMAGE_CEILING n)
  (v, clampI (-c) c v)

/-- The interval limit of R329 in ticks. -/
def State.rateLimit (s : State) (n : Nat) : Nat := if s.on (R.FSE_Pn_IMAGE_BAND n) then 26666 else 80000

/-- A dispatch of the port's binding is counted for RATE_OK (R329). -/
def State.rateDispatch (s : State) (n : Nat) : State :=
  let x := s.port n
  let ivs := match x.lastAct with | some t => (s.since t :: x.ivs).take 16 | none => x.ivs
  (s.setPort n { x with lastAct := some s.now, ivs := ivs }).putB (R.FSE_Pn_STATUS_RATE_OK n)
    (ivs.length == 16 && ivs.all fun i => decide (i ≤ s.rateLimit n))

/-- The port supplies FEED for a dispatch of binding `b` with trigger instant `t` (R326, R329, R331). -/
def State.feedDispatch (s : State) (b : Nat) (t : Time) : Int × State :=
  if !s.on (R.LNC_Bb_MAP_FEEDER b) then (0, s)
  else
    let n := s.get (R.LNC_Bb_MAP_FEEDER_PORT b)
    if !s.portRuns n then (0, s)
    else
      let s := s.rateDispatch n
      let s := s.when (s.on (R.LNC_Bb_STATUS_FORCED b)) fun s => s.endTx n 4
      match (s.port n).tx with
      | none => (0, s.wr (R.FSE_Pn_FEED n) 0#32)
      | some x =>
        let (v, f) := s.feedAt n x t
        let s := s.wr (R.FSE_Pn_FEED n) (BitVec.ofInt 32 f)
        if v = f then (f, s)
        else
          let p := s.port n
          let s := s.setPort n { p with clips := p.clips + 1 }
          let s := s.put (R.FSE_Pn_ERRCNT_CLIPS n) (min 255 ((p.clips + 1) / 1000))
          (f, s.portFault n (R.FSE_Pn_STATUS_CLIPPED n))

/-- A dispatch of binding `b` was dropped (R328). -/
def State.feedDropped (s : State) (b : Nat) : State :=
  let n := s.get (R.LNC_Bb_MAP_FEEDER_PORT b)
  if s.on (R.LNC_Bb_MAP_FEEDER b) && (s.port n).tx.isSome then s.portFault n (R.FSE_Pn_STATUS_MISSED_DISPATCH n) else s

/-- The domain of converter group `g` stands still: receivers that take its words have no signal (R334). -/
def State.noSignal (s : State) (g : Nat) : State :=
  s.each ((List.range 4).filter fun n => s.portRuns n && s.on (R.FSE_Pn_CTRL_RX_EN n) && s.get (R.FSE_Pn_IMAGE_RX_FC n) / 8 == g) fun n t =>
    t.portFault n (R.FSE_Pn_STATUS_RX_NOSIGNAL n)

/-- A grid word of channel `c` reaches the receivers of the ports that name it, with its TIME, which is now (R70, R333). -/
def State.feederWord (s : State) (c : Nat) (word : Word) (clip susp : Bool) : State :=
  s.each ((List.range 4).filter fun n => s.portRuns n && s.on (R.FSE_Pn_CTRL_RX_EN n) && s.get (R.FSE_Pn_IMAGE_RX_FC n) == c) fun n t =>
    let x := { t.port n with rx := some (word, t.now) }
    let t := t.setPort n x
    let t := t.when clip fun t =>
      (t.setPort n { x with rxClips := x.rxClips + 1 }).put (R.FSE_Pn_ERRCNT_RX_CLIPS n) (min 255 ((x.rxClips + 1) / 1000))
    t.when susp fun t => t.put (R.FSE_Pn_STATUS_SUSPECT_SEEN n) 1

end Sys2Proof.Machine
end

