-- ==== Sys2Proof/Machine/Fcv.lean ====
section
/-!
DEFINITION. Fast converters and trip comparators (spec/03). Voltages are integers in nanovolts.
-/
namespace Sys2Proof.Machine

/-- A fast channel beside its registers. -/
def State.fch (s : State) (n : Nat) : FcChan := s.fc.get {} n
/-- Change it; ARMED of its status register follows. -/
def State.setFch (s : State) (n : Nat) (x : FcChan) : State :=
  ({ s with fc := s.fc.set n x } : State).putB (R.FCV_CHn_STATUS_ARMED n) x.target.isSome
/-- Calibration of a group. -/
def State.fgr (s : State) (g : Nat) : FcGroup := s.fcGroup.get {} g
/-- Change it. -/
def State.setFgr (s : State) (g : Nat) (x : FcGroup) : State := { s with fcGroup := s.fcGroup.set g x }

/-- Full scale of a range code in nanovolts (Table 3.2). -/
def fullScale : Nat → Int
  | 1 => 500000000
  | 2 => 250000000
  | _ => 1000000000

/-- The code of a differential voltage and whether it was limited (R56). -/
def fcCode (range : Nat) (vd : Int) : Int × Bool :=
  let c := roundDiv (vd * 8192) (fullScale range)
  let l := clampI (-8192) 8191 c
  (l, l != c)

/-- The DATA field of a code (R56). -/
def fcData (left : Bool) (c : Int) : Nat := unsigned 16 (if left then c * 4 else c)

/-- Does the channel make words: its group's domain runs and it has an owner (R54, R58)? -/
def State.fcRuns (s : State) (n : Nat) : Bool :=
  s.running (25 + n / 8) && !s.domReset (25 + n / 8) && s.owner 2 n != unassigned

/-- Is a supply warning of R79 active? -/
def State.suspect (s : State) : Bool := s.warn 0 || s.warn 2 || s.warn 3

/-- Registers of channel `n` that a commit applies (R64). -/
def fcShadowed (n : Nat) : List Reg := [R.FCV_CHn_TRIG n, R.FCV_CHn_PHASE n, R.FCV_CHn_TMOD n, R.FCV_CHn_TPHASE n]

/-- The first tick at or after `t` congruent to `ph` modulo `m`; 0 imposes no congruence (R62). -/
def congruent (m ph t : Nat) : Nat := if m = 0 then t else t + (ph % m + m - t % m) % m

/-- The PHASE of channel `n` in force: after a partition reset the old one, until the next hold edge (R60). -/
def State.fcPhase (s : State) (n : Nat) : Nat := ((s.fch n).old).getD (s.get (R.FCV_CHn_PHASE_PHASE n))

/-- Is now a hold edge of channel `n` that has not been taken (R58, R60)? -/
def State.onGrid (s : State) (n : Nat) : Bool :=
  s.now.toNat % 128 == s.fcPhase n &&
  (match (s.fch n).hold with
   | some h => decide (128 ≤ s.since h)
   | none => true)

/-- An arming of channel `n` selects its instant (R62). DESIGN CHOICE (log 58): of the ends of 'between a and a + 512 ticks' the model counts
a, and leaves out a + 512, which the arming may still select. -/
def State.fcSelect (s : State) (n : Nat) : State :=
  let m := s.get (R.FCV_CHn_TMOD_TMOD n)
  let ph := s.get (R.FCV_CHn_TPHASE_TPHASE n)
  let a := s.now.toNat
  let s := s.setFch n { s.fch n with target := some (BitVec.ofNat 64 (congruent m ph (a + 512))) }
  s.when (decide (m ≠ 0) && decide (congruent m ph a < a + 512)) fun s => s.put (R.FCV_CHn_STATUS_ARM_LATE n) 1

/-- An arming reaches channel `n` now, by a FIRE write or an event (R62, R63). One of each kind in one cycle make one arming, and an arming
at the armed word's hold edge is a new one, also if it comes before the word is made. -/
def State.fcArm (s : State) (n : Nat) (fire : Bool) : State :=
  let x := s.fch n
  let merged := match x.armed with | some (t, f) => s.sameCycle t && f != fire | none => false
  if s.get (R.FCV_CHn_TRIG_MODE n) != 1 || merged then s
  else
    let s := s.setFch n { x with armed := some (s.now, fire) }
    match x.target with
    | none => s.fcSelect n
    | some t =>
      if s.reached t && s.fcRuns n && s.onGrid n && !x.again then s.setFch n { s.fch n with again := true }
      else s.put (R.FCV_CHn_STATUS_TRIG_OVERRUN n) 1

/-- Bytes of a converter buffer block (Table 3.5). -/
def fcBlock (t : Time) (flags : Nat) (samples : List Nat) : List Byte :=
  leBytes 8 t.toNat ++ leBytes 4 flags ++ (samples.map fun x => leBytes 2 x).flatten

/-- WATERMARK or more blocks wait in the converter buffer: FCn_WM is raised (R67). DESIGN CHOICE (log 58): it is raised at each change of the
buffer or of WATERMARK that leaves so many. -/
def State.fcLevel (s : State) (n : Nat) : State :=
  s.when (decide (s.get (R.FCV_CHn_DMA_WATERMARK n) ≤ (s.fch n).buf.length)) fun s => s.raise n

/-- A completed block enters the converter buffer, or is dropped when 512 blocks wait (R67, R69). -/
def State.fcStore (s : State) (n : Nat) : State :=
  let x := s.fch n
  if 512 ≤ x.buf.length then
    (((s.setFch n { x with samples := [], gap := true }).put (R.FCV_CHn_STATUS_DROP n) 1).incSat (R.FCV_CHn_DROPCNT_COUNT n)).fcLevel n
  else
    let b := fcBlock x.btime (x.bflags + (if x.gap then 2 ^ 29 else 0)) x.samples
    (s.setFch n { x with samples := [], gap := false, buf := x.buf ++ [b] }).fcLevel n

/-- The DMA copy takes a grid word (R67, R68). -/
def State.fcCopy (s : State) (n : Nat) (data : Nat) (susp clip swap unset : Bool) : State :=
  if !s.on (R.FCV_CHn_CFG_COPY_DMA n) then s
  else
    let x := s.fch n
    let d := s.get (R.FCV_CHn_DMA_DDIV n)
    let x : FcChan := if x.samples.isEmpty && x.ddiv != d then { x with ddiv := d, skip := 0 } else x
    if 0 < x.skip then s.setFch n { x with skip := x.skip - 1 }
    else
      let k := x.samples.length
      let f0 := if k = 0 then 0 else x.bflags
      let f := f0 ||| (if susp then 2 ^ k else 0) ||| (if clip then 2 ^ 26 else 0) ||| (if swap then 2 ^ 27 else 0)
        ||| (if unset then 2 ^ 28 else 0)
      let x := { x with skip := 2 ^ x.ddiv - 1, bflags := f, samples := x.samples ++ [data], btime := if k = 0 then s.now else x.btime }
      let s := s.setFch n x
      if x.samples.length = 26 then s.fcStore n else s

/-- Settings committed earlier take effect after a hold edge (R60, R64). -/
def State.fcApply (s : State) (n : Nat) (armedDelivered : Bool) : State :=
  match (s.fch n).commit with
  | some (wasArmed, ws) =>
    if wasArmed && !armedDelivered then s
    else
      let old := s.get (R.FCV_CHn_TRIG_MODE n)
      let s := s.each ((fcShadowed n).zip ws) fun p t => t.wr p.1 p.2
      let x := s.fch n
      s.setFch n { x with commit := none, count := 0, dseq := if s.get (R.FCV_CHn_TRIG_MODE n) = old then x.dseq else 0 }
  | none => s

/-- A grid point of channel `n` passes at which no word was made: settings committed to an unarmed channel and the PHASE of a partition reset
take it as their h, whether the group's domain runs or not (R60, R64). -/
def State.fcGridPass (s : State) (n : Nat) : State :=
  let x := s.fch n
  let due := match x.commit with | some (armed, _) => !armed | none => false
  if s.onGrid n && (due || x.old.isSome) then (s.setFch n { x with hold := some s.now, old := none }).fcApply n false else s

/-- A hold edge of channel `n` on input voltage `vd`: the word, its delivery and its copies (R58 to R70). -/
def State.sampleHold (s : State) (n : Nat) (vd : Int) : State :=
  let x := s.fch n
  let (c, clip) := fcCode (s.get (R.FCV_CHn_CFG_RANGE n)) vd
  let data := fcData (s.on (R.FCV_CHn_CFG_FORMAT n)) c
  let susp := s.suspect
  let unset := s.on (R.FCV_CHn_STATUS_UNSETTLED n)
  let mode := s.get (R.FCV_CHn_TRIG_MODE n)
  let aligned := mode == 1 && (match x.target with | some t => s.reached t | none => false)
  let deliver := aligned || (mode == 2 && (x.count + 1) % (s.get (R.FCV_CHn_TRIG_DIV n) + 1) == 0)
  let dseq := if deliver then x.dseq else x.dseq - 1
  let word := BitVec.ofNat 32 (dseq % 256 * 2 ^ 24 + (if unset then 2 ^ 19 else 0) + (if x.swapped then 2 ^ 18 else 0)
    + (if clip then 2 ^ 17 else 0) + (if susp then 2 ^ 16 else 0) + data)
  let s := s.setFch n { x with hold := some s.now, old := none, again := x.again && !aligned, lastTime := s.now, clip := clip, swapped := false, delivered := deliver,
                               count := x.count + 1, dseq := if deliver then x.dseq + 1 else x.dseq,
                               target := if aligned then none else x.target }
  let s := s.wr (R.FCV_CHn_LAST n) word
  let s := s.when clip fun s => s.put (R.FCV_CHn_STATUS_CLIPPED n) 1
  let s := s.when susp fun s => s.put (R.FCV_CHn_STATUS_SUSPECT_SEEN n) 1
  let s := s.when (clip && !x.clip) fun s => s.raise (24 + n)
  let s := s.fcCopy n data susp clip x.swapped unset
  let s := s.when (s.on (R.FCV_CHn_CFG_COPY_FEEDER n)) fun s => s.feederWord n word clip susp
  let s := s.when deliver fun s =>
    { s with fcOut := s.fcOut ++ [⟨n, word, s.now, s.get (R.FCV_CHn_CFG_LANES n), s.get (R.FCV_CHn_CFG_MAILBOX n)⟩] }
  let s := s.fcApply n aligned
  if x.again && aligned && s.get (R.FCV_CHn_TRIG_MODE n) == 1 then s.fcSelect n else s

/-- SAMPLE_HOLD (R58): a grid point of a running channel, whose differential input is `vd` nanovolts. -/
def execSampleHold (n : Fin 24) (vd : Int) (s : State) : Out :=
  .next (if s.fcRuns n && s.onGrid n then s.sampleHold n vd else s)

/-- CONVERTER_WORD_OUT (R66): the oldest delivered word of a channel leaves the converter towards its mailboxes, a copy for
each (R15). -/
def execConverterWordOut (n : Fin 24) (s : State) : Out :=
  .next (match s.fcOut.find? fun w => w.chan == n.val with
    | some w =>
      { s with fcOut := s.fcOut.eraseP (fun w => w.chan == n.val),
               fcBox := s.fcBox ++ ((List.range 16).filter fun l => bit w.lanes l).map fun l => { w with lanes := l } }
    | none => s)

/-- FCV_FIRE (R62): a write of ARM. -/
def execFcvFire (q : Requester) (n : Fin 24) (s : State) : Out := regWrite q (R.FCV_CHn_FIRE n) (fun s => s.fcArm n true) s

/-- A commit write reaches channel `n` (R64): the shadows it applies are those of now. -/
def State.fcCommit (s : State) (n : Nat) : State :=
  let x := s.fch n
  s.setFch n { x with commit := some (x.target.isSome, (fcShadowed n).map fun r => s.shad.rd r) }

/-- FCV_COMMIT (R64). -/
def execFcvCommit (q : Requester) (n : Fin 24) (s : State) : Out := regWrite q (R.FCV_CHn_COMMIT n) (fun s => s.fcCommit n) s

/-- A write of `v` to FCV_CHn_DMA (R67, R68). -/
def fcvDmaWrite (n : Nat) (v : Nat) (s : State) : State :=
  ((s.put (R.FCV_CHn_DMA_WATERMARK n) (bitsOf v 8 8)).put (R.FCV_CHn_DMA_DDIV n) (bitsOf v 0 4)).fcLevel n

/-- FCV_DDIV_WRITE (R68). -/
def execFcvDdivWrite (q : Requester) (n : Fin 24) (v : Word) (s : State) : Out := regWrite q (R.FCV_CHn_DMA n) (fcvDmaWrite n v.toNat) s

/-! ### Background calibration (R71 to R78) -/

/-- Does the logic of group `g` run? -/
def State.calRuns (s : State) (g : Nat) : Bool := s.running (25 + g) && !s.domReset (25 + g)

/-- May group `g` run a step: its domain runs and neither FREEZE nor R73 stops it? -/
def State.calMay (s : State) (g : Nat) : Bool :=
  s.calRuns g && !s.on (R.FCV_Gg_CAL_CTRL_FREEZE g) && !s.on (R.FCV_Gg_STATUS_CAL_FAULT g)

/-- A step begins with the calibration of the spare slice (R71). -/
def State.calStart (s : State) (g : Nat) : State :=
  ((s.setFgr g { s.fgr g with begun := true, step := true, since := s.now, due := false, tries := 0 }).put (R.FCV_Gg_STATUS_STARTING g) 0).put (R.FCV_Gg_STATUS_FROZEN g) 0

/-- The domain of group `g` starts: a step that a stop interrupted begins again, and STARTING shows that no step has begun yet (R76). -/
def State.calResume (s : State) (g : Nat) : State :=
  let x := s.fgr g
  let s := s.putB (R.FCV_Gg_STATUS_STARTING g) (!x.begun)
  if x.step then s.setFgr g { x with since := s.now, due := false, tries := 0 } else s

/-- The domain of group `g` stops: what its step has done so far counts for nothing (R76). -/
def State.calBreak (s : State) (g : Nat) : State :=
  let x := s.fgr g
  (if x.step then s.setFgr g { x with due := false, tries := 0 } else s).put (R.FCV_Gg_STATUS_STARTING g) 0

/-- CAL_STEP_START (R71). -/
def execCalStepStart (g : Fin 3) (s : State) : Out :=
  .next (if s.calMay g && !(s.fgr g).step then s.calStart g else s)

/-- CAL_COMPARE (R71, R73): the mean difference of the two slices' codes over 256 grid points, 1,024 ns, is `diff`. -/
def execCalCompare (g : Fin 3) (diff : Int) (s : State) : Out :=
  let x := s.fgr g
  .next (if !x.step || x.due || !s.calRuns g || decide (s.since x.since < 256 * 128) then s
    else if -16 ≤ diff ∧ diff ≤ 16 then
      s.setFgr g { x with due := true, dueAt := s.now, good := setBit x.good (s.get (R.FCV_Gg_STATUS_SPARE g)) true }
    else if x.tries = 0 then s.setFgr g { x with tries := 1, since := s.now }
    else (((s.setFgr g { x with step := false, tries := 0 }).put (R.FCV_Gg_STATUS_CAL_FAULT g) 1).put (R.FCV_Gg_STATUS_FROZEN g) 1).raise (99 + g))

/-- May a due swap of group `g` take place now, on a grid point of channel `n` (R72): its mode is OFF, its last word went to the mailboxes, or
100 µs have passed since the swap fell due and the channel is not armed? -/
def State.swapMay (s : State) (g n : Nat) : Bool :=
  let x := s.fgr g
  let mode := s.get (R.FCV_CHn_TRIG_MODE n)
  x.due && s.calRuns g && s.onGrid n &&
    (mode == 0 || mode == 3 || (s.fch n).delivered || (decide (us 100 ≤ s.since x.dueAt) && (s.fch n).target.isNone))

/-- SLICE_SWAP (R72, R74): a due swap takes place. -/
def execSliceSwap (g : Fin 3) (s : State) : Out :=
  let x := s.fgr g
  let k := s.get (R.FCV_Gg_STATUS_NEXT_CH g)
  let n := 8 * g + k
  .next (if !s.swapMay g n then s
    else
      let spare := s.get (R.FCV_Gg_STATUS_SPARE g)
      let old := s.get (R.FCV_CHn_STATUS_SLICE n)
      let s := ((s.put (R.FCV_CHn_STATUS_SLICE n) spare).put (R.FCV_CHn_STATUS_UNSETTLED n) 0).setFch n { s.fch n with swapped := true }
      let s := (s.put (R.FCV_Gg_STATUS_SPARE g) old).put (R.FCV_Gg_STATUS_NEXT_CH g) (k + 1)
      let s := s.setFgr g { x with step := false, due := false, steps := (x.steps + 1) % 8 }
      let s := s.when ((x.steps + 1) % 8 == 0) fun s => s.inc (R.FCV_Gg_STATUS_ROTATIONS g)
      let settled := (List.range 8).all fun j => bit x.good (s.get (R.FCV_CHn_STATUS_SLICE (8 * g + j)))
      let s := s.when (settled && !s.on (R.FCV_Gg_STATUS_CAL_SETTLED g)) fun s => (s.put (R.FCV_Gg_STATUS_CAL_SETTLED g) 1).raise (96 + g)
      s.when (s.on (R.FCV_Gg_CAL_CTRL_FREEZE g)) fun s => s.put (R.FCV_Gg_STATUS_FROZEN g) 1)

/-- A write of `v` to FCV_Gg_CAL_CTRL (R78). -/
def calCtrlWrite (g v : Nat) (s : State) : State :=
  let was := s.on (R.FCV_Gg_CAL_CTRL_FREEZE g)
  let s := s.put (R.FCV_Gg_CAL_CTRL_FREEZE g) v
  if bit v 0 then s.when (!(s.fgr g).step) fun s => s.put (R.FCV_Gg_STATUS_FROZEN g) 1
  else if was && !(s.fgr g).step && s.calMay g then s.calStart g
  else s

/-- FREEZE_WRITE (R78). -/
def execFreezeWrite (q : Requester) (g : Fin 3) (freeze : Bool) (s : State) : Out :=
  regWrite q (R.FCV_Gg_CAL_CTRL g) (calCtrlWrite g freeze.toNat) s

/-! ### Trip comparators (R80 to R84) -/

/-- Threshold and hysteresis of comparator `c`, and an input, all times 512, in nanovolts (R80). -/
def State.cmpLevels (s : State) (c : Nat) : Int × Int :=
  let fs := fullScale (s.get (R.FCV_CHn_CFG_RANGE (c / 2)))
  let h : Int := match s.get (R.CMP_Cc_CTRL_HYST c) with | 1 => 1 | 2 => 2 | 3 => 4 | _ => 0
  (signed 10 (s.get (R.CMP_Cc_THR_THRESH c)) * fs, h * fs)

/-- Table 3.6: does the input make the output active? Comparator 2n is H, 2n + 1 is L. -/
def State.cmpRises (s : State) (c : Nat) (vd : Int) : Bool :=
  let (th, _) := s.cmpLevels c
  if c % 2 = 0 then decide (th < vd * 512) else decide (vd * 512 < th)
/-- Table 3.6: does the input make the output inactive? -/
def State.cmpFalls (s : State) (c : Nat) (vd : Int) : Bool :=
  let (th, h) := s.cmpLevels c
  if c % 2 = 0 then decide (vd * 512 < th - h) else decide (th + h < vd * 512)

/-- Is comparator `c` on: enabled, on an assigned channel (R54)? -/
def State.cmpOn (s : State) (c : Nat) : Bool := s.on (R.CMP_Cc_CTRL_EN c) && s.owner 2 (c / 2) != unassigned

/-- The units that comparator `c` trips bring their outputs up to date. -/
def State.cmpSettle (s : State) (c : Nat) : State :=
  s.each ((List.range 32).filter fun n => s.tripSrc n c) fun n t => t.settleUnit n

/-- The output of comparator `c` becomes active (R81). -/
def State.cmpActivate (s : State) (c : Nat) : State :=
  let s := (s.put (R.CMP_Cc_STATUS_LIVE c) 1).put (R.CMP_Cc_STATUS_TRIPPED c) 1
  let s := s.when (s.on (R.CMP_Cc_CTRL_EVT_EN c)) fun s =>
    if s.running (25 + c / 16) then s.raise (48 + c) else { s with cmpEvt := setBit s.cmpEvt c true }
  s.cmpSettle c

/-- The output of comparator `c` becomes inactive. -/
def State.cmpRelease (s : State) (c : Nat) : State := (s.put (R.CMP_Cc_STATUS_LIVE c) 0).cmpSettle c

/-- The test pulse of comparator `c`: since when, and whether its input alone keeps the output active (R84). -/
def State.pulse (s : State) (c : Nat) : Option (Time × Bool) := s.cmpPulse.get none c
/-- Change it. -/
def State.setPulse (s : State) (c : Nat) (x : Option (Time × Bool)) : State := { s with cmpPulse := s.cmpPulse.set c x }

/-- What the input `vd` makes of an output that was as `was` (Table 3.6). -/
def State.cmpOut (s : State) (c : Nat) (was : Bool) (vd : Int) : Bool := s.cmpRises c vd || (was && !s.cmpFalls c vd)

/-- The input of comparator `c`, which is on, is `vd` (R80): the output follows it; a test pulse holds the output active, and the comparator
below it follows alone (R84). -/
def State.cmpInput (s : State) (c : Nat) (vd : Int) : State :=
  match s.pulse c with
  | some (t, was) => s.setPulse c (some (t, s.cmpOut c was vd))
  | none =>
    let was := s.on (R.CMP_Cc_STATUS_LIVE c)
    match was, s.cmpOut c was vd with
    | false, true => s.cmpActivate c
    | true, false => s.cmpRelease c
    | _, _ => s

/-- CMP_OUTPUT_ACTIVE (R80, R81): the input `vd`, in nanovolts, makes the output active. -/
def execCmpOutputActive (c : Fin 48) (vd : Int) (s : State) : Out :=
  .next (if s.cmpOn c && s.cmpRises c vd then s.cmpInput c vd else s)

/-- CMP_OUTPUT_INACTIVE (R80): the input `vd` makes the output inactive; a test pulse holds it active. -/
def execCmpOutputInactive (c : Fin 48) (vd : Int) (s : State) : Out :=
  .next (if s.cmpOn c && s.cmpFalls c vd then s.cmpInput c vd else s)

/-- A write of `v` to CMP_Cc_CTRL: EN and HYST are read-only once LOCK is set, LOCK can only be set (R82). -/
def cmpCtrlWrite (c v : Nat) (s : State) : State :=
  let locked := s.on (R.CMP_Cc_CTRL_LOCK c)
  let s := s.put (R.CMP_Cc_CTRL_EVT_EN c) (bitsOf v 4 1)
  let s := s.when (!locked) fun s => (s.put (R.CMP_Cc_CTRL_HYST c) (bitsOf v 2 2)).put (R.CMP_Cc_CTRL_EN c) (bitsOf v 0 1)
  let s := s.when (bit v 1) fun s => s.put (R.CMP_Cc_CTRL_LOCK c) 1
  if !s.on (R.CMP_Cc_CTRL_EN c) && s.on (R.CMP_Cc_STATUS_LIVE c) then
    (s.setPulse c none).cmpRelease c
  else s

/-- A write of `v` to CMP_Cc_THR (R82). -/
def cmpThrWrite (c v : Nat) (s : State) : State :=
  if s.on (R.CMP_Cc_CTRL_LOCK c) then s else s.put (R.CMP_Cc_THR_THRESH c) v

/-- CMP_LOCK (R82): a write of CMP_Cc_CTRL with LOCK 1; the other fields are those of `v`. -/
def execCmpLock (q : Requester) (c : Fin 48) (v : BitVec 5) (s : State) : Out :=
  regWrite q (R.CMP_Cc_CTRL c) (cmpCtrlWrite c (v ||| 2#5).toNat) s

/-- A write of PULSE to CMP_Cc_TEST (R84). DESIGN CHOICE (log 58): a pulse during a pulse lasts 1.0 µs from the second write. -/
def cmpTestWrite (c v : Nat) (s : State) : State :=
  if bit v 0 && s.cmpOn c then
    let live := s.on (R.CMP_Cc_STATUS_LIVE c)
    let s := s.setPulse c (some (s.now, match s.pulse c with | some (_, was) => was | none => live))
    if live then s else s.cmpActivate c
  else s

/-- CMP_TEST_PULSE (R84). -/
def execCmpTestPulse (q : Requester) (c : Fin 48) (s : State) : Out := regWrite q (R.CMP_Cc_TEST c) (cmpTestWrite c 1) s

/-- CMP_TEST_PULSE_END (R84): 1.0 µs have passed since the write; the output follows the input `vd` again. -/
def execCmpTestPulseEnd (c : Fin 48) (vd : Int) (s : State) : Out :=
  .next (match s.pulse c with
    | some (t, was) =>
      if s.since t < us 1 then s
      else
        let s := s.setPulse c none
        if s.cmpOn c && s.cmpOut c was vd then s else s.cmpRelease c
    | none => s)

end Sys2Proof.Machine
end

