-- ==== Sys2Proof/Machine/Pos.lean ====
section
/-!
DEFINITION. Position and speed feedback (spec/09). Voltages are integers in nanovolts.
-/
namespace Sys2Proof.Machine

/-- A position interface beside its registers. -/
def State.posIf (s : State) (n : Nat) : Pos := s.pos.get {} n
/-- MODE (Table 9.1). -/
def State.posMode (s : State) (n : Nat) : Nat := s.get (R.POS_Pn_CFG_MODE n)

/-- The information word of Table 9.3 with NEW 0; LSPD_SHIFT as the last update took it (R228). -/
def State.posInfo (s : State) (n : Nat) : Nat :=
  let x := s.posIf n
  let spd := clampI (-32768) 32767 (x.speed / (2 ^ fieldGet x.cfg 12 4 : Int))
  unsigned 16 spd * 65536 + s.posMode n * 512 + x.suspect.toNat * 128 + x.ampOut.toNat * 64 + x.coarse.toNat * 32
    + x.sync.toNat * 16 + x.dir.toNat * 8 + x.still.toNat * 4 + x.speedOk.toNat * 2 + x.valid.toNat

/-- What a reader gets now. -/
def State.posView (s : State) (n : Nat) : PosView :=
  let x := s.posIf n
  ⟨x.value, x.time, x.speed, s.posInfo n⟩

/-- The interface changes, by an update of VALUE (`upd`) or without one: the view before is kept, and PFn_SYNC and PFn_REV follow
(Table 9.5). -/
def State.posChange (s : State) (n : Nat) (upd : Bool) (y : Pos) : State :=
  let x := s.posIf n
  let s := { s with pos := s.pos.set n { y with
    prev := s.posView n, prevSer := x.serial, changed := some s.now, serial := x.serial + upd.toNat, cfg := s.rd (R.POS_Pn_CFG n) } }
  let s := s.put (R.POS_Pn_STATUS_IDX n) y.idx
  let s := s.when (y.sync && !x.sync) fun s => s.raise (587 + n)
  s.when (y.value / 65536 != x.value / 65536) fun s => s.raise (603 + n)

/-- A fault bit sets, with PFn_FAULT. -/
def State.posFault (s : State) (n : Nat) (q : RF) : State := (s.put q 1).raise (587 + n)

/-- An update of VALUE to a new ANGLE (R206). -/
def Pos.turnTo (x : Pos) (angle : Nat) (t : Time) : Pos :=
  { x with value := unsigned 32 ((x.value : Int) + signed 16 (unsigned 16 ((angle : Int) - (x.value % 65536 : Nat)))), time := t }

/-- SPEED saturates (R220). -/
def satSpeed (v : Int) : Int := clampI (-2147483647) 2147483647 v

/-! ### Hall (R208 to R211, R220) -/

/-- H of accepted levels. -/
def hallState (inv : Bool) (levels : Nat) : Nat :=
  let b := if inv then bit levels 2 else bit levels 1
  let c := if inv then bit levels 1 else bit levels 2
  4 * c.toNat + 2 * b.toNat + (bit levels 0).toNat

/-- The sector of a Hall state (Table 9.2). -/
def hallSector : Nat → Option Nat
  | 1 => some 0
  | 3 => some 1
  | 2 => some 2
  | 6 => some 3
  | 4 => some 4
  | 5 => some 5
  | _ => none

/-- The boundary of a sector entered forward, without offset. -/
def hallEdge (s : Nat) : Nat := (roundDiv (s * 65536) 6).toNat
/-- The centre of a sector, without offset. -/
def hallCentre (s : Nat) : Nat := (roundDiv (s * 65536 + 32768) 6).toNat

/-- The length of the filter window of interface `n`: FILT + 1 samples of 64 ticks (R205). -/
def State.filtTicks (s : State) (n : Nat) : Nat := 64 * (s.get (R.POS_Pn_CFG_FILT n) + 1)

/-- What stands before a change of H with time-stamp `t`: a change within one filter window of the last one forms one change with it (R209;
the earlier part's flags stay, DEDUCED, log 60). -/
def State.hallFrom (s : State) (n : Nat) (t : Time) : Pos :=
  let x := s.posIf n
  match x.base with
  | some h =>
    if (t - h.t).toNat < s.filtTicks n then
      { x with value := h.value, time := h.time, speed := h.speed, speedOk := h.speedOk, coarse := h.coarse, sync := h.sync, dir := h.dir,
               valid := h.valid, sector := h.sector, lastDir := h.lastDir, lastEdge := h.lastEdge }
    else { x with base := some ⟨t, x.value, x.time, x.speed, x.speedOk, x.coarse, x.sync, x.dir, x.valid, x.sector, x.lastDir, x.lastEdge⟩ }
  | none => { x with base := some ⟨t, x.value, x.time, x.speed, x.speedOk, x.coarse, x.sync, x.dir, x.valid, x.sector, x.lastDir, x.lastEdge⟩ }

/-- The Hall state after accepted levels `v` at time-stamp `t` (R209, R210). -/
def State.hallChange (s : State) (n v : Nat) (t : Time) : State :=
  let x := s.hallFrom n t
  let ofs := s.get (R.POS_Pn_OFS_ANG_OFS n)
  let iv : Int := match x.lastEdge with | some t0 => (t - t0).toNat | none => 0
  let y := { x with levels := v, lastEdge := some t, still := false, heard := s.now }
  match hallSector (hallState (s.on (R.POS_Pn_CFG_DIR_INV n)) v) with
  | none =>
    (s.posChange n false { y with valid := false, sync := false, sector := none, lastDir := none, speed := 0, speedOk := false }).posFault n
      (R.POS_Pn_STATUS_HALL_INVALID n)
  | some new =>
    let d := match x.sector with | some old => (new + 6 - old) % 6 | none => 3
    if d = 0 then s.posChange n false { y with lastEdge := x.lastEdge }
    else if d = 1 ∨ d = 5 then
      let rev := d == 5
      let same := x.lastDir == some rev
      let y := { y.turnTo ((hallEdge (if rev then (new + 1) % 6 else new) + ofs) % 65536) t with
        dir := rev, sector := some new, coarse := false, valid := true, sync := true, lastDir := some rev, speedOk := same
        speed := if same then satSpeed (roundDiv ((if rev then -1 else 1) * 2 ^ 48) (6 * iv)) else 0 }
      s.posChange n true y
    else
      let y := { y.turnTo ((hallCentre new + ofs) % 65536) t with
        sector := some new, coarse := true, valid := true, sync := false, lastDir := none, speedOk := false, speed := 0 }
      (s.posChange n true y).posFault n (R.POS_Pn_STATUS_SEQ_ERR n)

/-! ### Tooth wheel (R212, R213) -/

/-- ANGLE of tooth `i`. -/
def State.toothAngle (s : State) (n i : Nat) : Nat :=
  ((roundDiv (i * 65536) (s.get (R.POS_Pn_TW_P n))).toNat + s.get (R.POS_Pn_OFS_ANG_OFS n)) % 65536

/-- Class of an interval. -/
inductive ToothClass where
  | none | long | short | normal
  deriving DecidableEq, Repr

/-- A counted edge at time-stamp `t` (R213). -/
def State.toothEdge (s : State) (n : Nat) (t : Time) : State :=
  let x := { s.posIf n with still := false, heard := s.now }
  match x.lastEdge with
  | none => s.posChange n false { x with lastEdge := some t, speed := 0, speedOk := false }
  | some t0 =>
    let iv := (t - t0).toNat
    let gap := s.get (R.POS_Pn_TW_GAP_N n)
    let extra := s.on (R.POS_Pn_TW_TYPE n)
    let p := s.get (R.POS_Pn_TW_P n)
    let last := if extra then p - 1 else p - gap - 1
    let cls : ToothClass := match x.ref with
      | none => .none
      | some r => if r * s.get (R.POS_Pn_TW_GAP_RATIO n) ≤ iv * 8 then .long
                  else if iv * 8 ≤ r * s.get (R.POS_Pn_TW_EXTRA_RATIO n) then .short else .normal
    if extra && cls == .short then
      if x.sync && x.idx != last then
        (s.posChange n false { x with mark := true, sync := false, valid := false }).posFault n (R.POS_Pn_STATUS_SYNC_LOST n)
      else s.posChange n false { x with mark := true }
    else
      let refmark := if extra then x.mark else cls == .long
      let steps := if !extra && (cls == .long || (x.sync && x.idx == last)) then gap + 1 else 1
      let ok := cls != .none
      let y := { x with
        mark := false, lastEdge := some t
        ref := some (if cls == .long then iv / (gap + 1) else iv)
        speedOk := ok
        speed := if ok then satSpeed (roundDiv (steps * 2 ^ 48) (p * iv)) else 0 }
      if (!extra && cls == .short) || (extra && cls == .long) || (x.sync && refmark != (x.idx == last)) then
        (s.posChange n false { y with sync := false, valid := false }).posFault n (R.POS_Pn_STATUS_SYNC_LOST n)
      else if x.sync then
        let i := if x.idx = last then 0 else x.idx + 1
        s.posChange n true { y.turnTo (s.toothAngle n i) t with idx := i }
      else if refmark then
        let rev := if x.ever then (x.value / 65536 + 1) % 65536 else 0
        s.posChange n true { y with sync := true, valid := true, ever := true, idx := 0, value := rev * 65536 + s.toothAngle n 0, time := t }
      else s.posChange n false y

/-! ### Sine and cosine (R215 to R219, R221) -/

/-- The code of a differential voltage. -/
def scCode (vd : Int) : Int := clampI (-32768) 32767 (roundDiv (vd * 32768) 1000000000)

/-- The cosine and sine of a 65,536th of a turn times 8192, 4096, .. 1, times 2^48. -/
def turns : List (Nat × Int × Int) :=
  [(8192, 0xB504F333F9DE, 0xB504F333F9DE), (4096, 0xEC835E79946A, 0x61F78A9ABAA6), (2048, 0xFB14BE7FBAE6, 0x31F17078D34C),
   (1024, 0xFEC46D1E8929, 0x1917A6BC29B4), (512, 0xFFB10F1BCB6C, 0xC8FB2F886EC), (256, 0xFFEC43042668, 0x648557DE8DA),
   (128, 0xFFFB10B4DC97, 0x3243A3F9BD9), (64, 0xFFFEC42C7455, 0x1921F0FE670), (32, 0xFFFFB10B10E8, 0xC90FC5F665),
   (16, 0xFFFFEC42C377, 0x6487EABB99), (8, 0xFFFFFB10B0D2, 0x3243F655D9), (4, 0xFFFFFEC42C34, 0x1921FB49EE),
   (2, 0xFFFFFFB10B0D, 0xC90FDA8D7), (1, 0xFFFFFFEC42C3, 0x6487ED4E8)]
/-- round(atan2(s, c) / 2 pi * 65,536) modulo 65,536: the vector is turned back by falling parts of a turn. -/
def angleOf (s c : Int) : Nat :=
  let (q, x, y) := if 0 < c ∧ 0 ≤ s then (0, c, s) else if c ≤ 0 ∧ 0 < s then (1, s, -c) else if c < 0 then (2, -c, -s) else (3, -s, c)
  let r := turns.foldl (fun (a, x, y) (w, co, si) =>
    if x * si ≤ y * co then (a + w, (x * co + y * si) / 2 ^ 48, (y * co - x * si) / 2 ^ 48) else (a, x, y)) (16384 * q, x * 2 ^ 48, y * 2 ^ 48)
  (r.1 + if r.2.1 * 0x3243F6A83 ≤ r.2.2 * 0xFFFFFFFB10B1 then 1 else 0) % 65536
/-- The angle that the interface forms from corrected codes with MAG2 `mag`: within 2 units where R217 says so. -/
def heldAngle (s c : Int) (mag : Nat) : Nat :=
  let e := Config.angleError s c
  unsigned 16 (angleOf s c + if 1024 ≤ mag ∧ mag ≤ 16384 then clampI (-2) 2 e else e)

/-- Both inputs are held now. -/
def State.sincosHold (s : State) (n : Nat) (vs vc : Int) : State :=
  let x := { s.posIf n with hold := some s.now, phase := s.get (R.POS_Pn_SC_PHASE n), started := true }
  let a := scCode vs
  let b := scCode vc
  let s := (s.put (R.POS_Pn_RAW_SIN n) (unsigned 16 a)).put (R.POS_Pn_RAW_COS n) (unsigned 16 b)
  let a' := a - signed 16 (s.get (R.POS_Pn_SCOFS_SIN_OFS n))
  let b' := b - signed 16 (s.get (R.POS_Pn_SCOFS_COS_OFS n))
  let mag := ((a' * a' + b' * b') / 65536).toNat
  let sus := s.suspect
  let s := s.when sus fun s => s.put (R.POS_Pn_STATUS_SUSPECT_SEEN n) 1
  if s.get (R.POS_Pn_AMP_AMP_LO n) ≤ mag ∧ mag ≤ s.get (R.POS_Pn_AMP_AMP_HI n) then
    let angle := (heldAngle a' b' mag + s.get (R.POS_Pn_OFS_ANG_OFS n)) % 65536
    let y := if x.sync then x.turnTo angle s.now else { x with value := angle, time := s.now }
    let w : Nat := s.get (R.POS_Pn_SC_SPD_WIN n)
    let win := (y.value :: x.win).take 65
    let y := match win[(2 ^ w : Nat)]? with
      | some v =>
        let d := signed 32 (unsigned 32 ((y.value : Int) - v))
        { y with speedOk := true, speed := satSpeed (roundDiv (d * 2 ^ 32) (2 ^ w * 32000)) }
      | none => { y with speedOk := false }
    s.posChange n true { y with win := win, valid := true, sync := true, ampOut := false, suspect := sus }
  else
    let s' := (s.posChange n false { x with ampOut := true, valid := false, win := [], speedOk := false }).put (R.POS_Pn_STATUS_AMP_FAULT n) 1
    s'.when (!x.ampOut) fun s => s.raise (587 + n)

/-! ### Probes (R225 to R227) -/

/-- A probe with instant `t`, by FIRE (`fire`) or from the source. Of those accepted in one clock of 64 ticks, one of each makes one capture
(R227). -/
def State.probe (s : State) (n : Nat) (fire : Bool) (t : Time) (cause : Cause) : State :=
  let x := s.posIf n
  let one := match x.probed with | some (t0, f0) => f0 != fire && t0.toNat / 64 == s.now.toNat / 64 | none => false
  if s.on (R.POS_Pn_PRB_CTRL_FULL n) then (if one then s else s.put (R.POS_Pn_PRB_CTRL_OVR n) 1)
  else
    let s := { s with pos := s.pos.set n { x with probed := some (s.now, fire) } }
    let v := s.posView n
    let s := (s.put (R.POS_Pn_PRB_POS_VALUE n) v.value).putTime (R.POS_Pn_PRB_PTIME_LO n) (R.POS_Pn_PRB_PTIME_HI n) t
    let s := s.putTime (R.POS_Pn_PRB_UTIME_LO n) (R.POS_Pn_PRB_UTIME_HI n) v.time
    let s := (s.put (R.POS_Pn_PRB_SPEED_SPEED n) (unsigned 32 v.speed)).put (R.POS_Pn_PRB_INFO_INFO n) v.info
    (s.put (R.POS_Pn_PRB_CTRL_FULL n) 1).emit (619 + n) cause

/-- A write of `v` to POS_Pn_PRB_CTRL. -/
def prbWrite (n v : Nat) (s : State) : State :=
  let s := s.clr (R.POS_Pn_PRB_CTRL n) (BitVec.ofNat 32 (v &&& 6))
  s.when (bit v 0) fun s => s.probe n true s.now none

/-! ### Start and restart (R211, R228) -/

/-- Does the position logic run? -/
def State.posLogic (s : State) : Bool := s.running 40 && !s.domReset 40

/-- The mode of an interface starts once domain 40 runs; HALL reads H (R211). -/
def State.posStart (s : State) (n : Nat) : State :=
  let x := s.posIf n
  if x.started || !s.posLogic then s
  else match s.posMode n with
    | 1 =>
      match hallSector (hallState (s.on (R.POS_Pn_CFG_DIR_INV n)) x.levels) with
      | some k => s.posChange n true { x with
          started := true, heard := s.now, time := s.now, sector := some k
          value := (hallCentre k + s.get (R.POS_Pn_OFS_ANG_OFS n)) % 65536, valid := true, coarse := true }
      | none => (s.posChange n false { x with started := true, heard := s.now }).posFault n (R.POS_Pn_STATUS_HALL_INVALID n)
    | 2 => s.posChange n false { x with started := true, heard := s.now }
    | 3 => s.posChange n false { x with started := true, phase := s.get (R.POS_Pn_SC_PHASE n) }
    | _ => s

/-- The interface restarts from cold (R228). -/
def State.posCold (s : State) (n : Nat) : State :=
  let x := s.posIf n
  let s := { s with pos := s.pos.set n {
    levels := x.levels, edges := x.edges, serial := x.serial, probed := x.probed, moded := x.moded, phase := s.get (R.POS_Pn_SC_PHASE n)
    cfg := s.rd (R.POS_Pn_CFG n) } }
  let s := [R.POS_Pn_TIME_LO n, R.POS_Pn_TIME_HI n, R.POS_Pn_SPEED n, R.POS_Pn_INFO n].foldl (fun t r => t.wr r 0#32) s
  (s.put (R.POS_Pn_STATUS_IDX n) 0).posStart n

/-- A write of `v` to POS_Pn_CFG. -/
def posCfgWrite (n v : Nat) (s : State) : State :=
  let old := s.posMode n
  let s := s.wr (R.POS_Pn_CFG n) (BitVec.ofNat 32 (v &&& 0xFFFFFFF3))
  if s.posMode n = old then s else ({ s with pos := s.pos.set n { s.posIf n with moded := some s.now } } : State).posCold n

/-- Has MODE been written in this clock of domain 40? It discards the clock's edge or sample (R228). -/
def State.posDiscards (s : State) (n : Nat) : Bool :=
  match (s.posIf n).moded with | some t => t.toNat / 64 == s.now.toNat / 64 | none => false

/-- Is HALL_INVALID kept set by an invalid H (R210)? -/
def State.hallBad (s : State) (n : Nat) : Bool :=
  s.posMode n == 1 && (s.posIf n).started && (hallSector (hallState (s.on (R.POS_Pn_CFG_DIR_INV n)) (s.posIf n).levels)).isNone

/-- A write of `v` to POS_Pn_STATUS. -/
def posStatusWrite (n v : Nat) (s : State) : State :=
  let s := s.clr (R.POS_Pn_STATUS n) (BitVec.ofNat 32 (v &&& 0x1F))
  s.when (s.hallBad n) fun s => s.put (R.POS_Pn_STATUS_HALL_INVALID n) 1

/-- Has the filter of interface `n` accepted levels `v` with time-stamp `t` by now (R205)? The first of the FILT + 1 samples was taken at `t`,
the last by now, and the update is available within the bound of R207; an input that changes has not changed within the window. -/
def State.filtered (s : State) (n v : Nat) (t : Time) : Bool :=
  let x := s.posIf n
  let w := s.filtTicks n
  decide (w ≤ s.since t + 64) && decide (s.since t ≤ w + 192) &&
    (List.range 3).all fun i => bit x.levels i == bit v i || (match x.edges.lookup i with | some e => decide (w ≤ (t - e).toNat) | none => true)

/-- The inputs of interface `n` that change to levels `v` have their edge at `t`. -/
def Pos.stamp (x : Pos) (v : Nat) (t : Time) : Pos :=
  { x with edges := (List.range 3).foldl (fun m i => if bit x.levels i == bit v i then m else m.set i t) x.edges }

/-- Accepted levels `v` of an interface with time-stamp `t` (R205). -/
def State.posLevels (s : State) (n v : Nat) (t : Time) : State :=
  let s := { s with pos := s.pos.set n ((s.posIf n).stamp v t) }
  let x := s.posIf n
  let old := x.levels
  let mode := s.posMode n
  if !s.posLogic || !x.started || mode = 0 || s.posDiscards n then { s with pos := s.pos.set n { x with levels := v } }
  else
    let s := if mode = 1 then (if v = old then s else s.hallChange n v t)
      else
        let s := { s with pos := s.pos.set n { x with levels := v } }
        let rises := !bit old 0 && bit v 0
        let falls := bit old 0 && !bit v 0
        if mode = 2 && (if s.on (R.POS_Pn_CFG_EDGE n) then falls else rises) then s.toothEdge n t else s
    let src := s.get (R.POS_Pn_CFG_PRB_SRC n)
    let fire := mode != 1 && ((src == 1 && !bit old 2 && bit v 2) || (src == 2 && bit old 2 && !bit v 2))
    s.when fire fun s => s.probe n false t none

/-! ### Commands -/

/-- POSITION_EDGE (R205): the inputs A, B and C (bits 0 to 2) have stood at these levels since the sample at `t`. What has not stood for FILT + 1
samples is no edge and leaves no trace. -/
def execPositionEdge (n : Fin 16) (levels : BitVec 3) (t : Time) (s : State) : Out :=
  .next (if s.filtered n levels.toNat t then s.posLevels n levels.toNat t else s)

/-- SINCOS_HOLD (R216): the differential voltages of the sine and cosine inputs at a hold edge. -/
def execSincosHold (n : Fin 8) (vs vc : Int) (s : State) : Out :=
  .next (let x := s.posIf n
    let due := match x.hold with | some t => decide (32000 ≤ s.since t) | none => true
    if s.posMode n = 3 ∧ s.posLogic = true ∧ s.running (32 + n) = true ∧ s.domReset (32 + n) = false ∧ s.posDiscards n = false ∧ due = true ∧ s.now.toNat % 32000 = x.phase then s.sincosHold n vs vc else s)

/-- STANDSTILL_TIMEOUT (R222): no edge has been accepted for STILL_TO µs, nor in the clock in which they end. STILL_TO is that of the last
update (R228). -/
def execStandstillTimeout (n : Fin 16) (s : State) : Out :=
  .next (let x := s.posIf n
    let mode := s.posMode n
    if (mode = 1 ∨ mode = 2) ∧ fieldGet x.cfg 16 16 ≠ 0 ∧ us (fieldGet x.cfg 16 16) + 64 ≤ s.since x.heard ∧
      x.started = true ∧ x.still = false ∧ s.posLogic = true then
      let y := { x with speed := 0, speedOk := true, still := true, lastDir := none }
      let y := if mode = 2 then { y with sync := false, valid := false, lastEdge := none, ref := none } else y
      (s.posChange n false y).raise (587 + n)
    else s)

/-- PRB_FIRE (R225). -/
def execPrbFire (q : Requester) (n : Fin 16) (s : State) : Out := regWrite q (R.POS_Pn_PRB_CTRL n) (prbWrite n 1) s

/-- POS_MODE_WRITE (R228): a write of `v` to POS_Pn_CFG. -/
def execPosModeWrite (q : Requester) (n : Fin 16) (v : Word) (s : State) : Out := regWrite q (R.POS_Pn_CFG n) (posCfgWrite n v.toNat) s

end Sys2Proof.Machine
end

