-- ==== Sys2Proof/Machine/Lanes.lean ====
section
/-!
DEFINITION. Control lanes, bindings and the commit stage (spec/05): triggers and the gate, dispatch, sends, compare groups,
delivery, lane faults and resets.
-/
namespace Sys2Proof.Machine

/-- A lane beside its registers. -/
def State.laneOf (s : State) (n : Nat) : Lane := s.lane.get {} n
/-- Change it; RUNNING of its status follows. -/
def State.setLane (s : State) (n : Nat) (x : Lane) : State :=
  ({ s with lane := s.lane.set n x } : State).putB (R.LNC_Ln_STATUS_RUNNING n) x.act.isSome
/-- A binding beside its registers. -/
def State.bnd (s : State) (b : Nat) : Bind := s.bind.get {} b
/-- Change it. -/
def State.setBnd (s : State) (b : Nat) (x : Bind) : State := { s with bind := s.bind.set b x }
/-- A processor by key. -/
def State.cpuAt (s : State) (k : Nat) : Cpu := s.cpus.get (Cpu.init k) k
/-- Change it. -/
def State.setCpuAt (s : State) (k : Nat) (c : Cpu) : State := { s with cpus := s.cpus.set k c }

/-- Is binding `b` a compare group? -/
def State.compared (s : State) (b : Nat) : Bool := s.on (R.LNC_Bb_MAP_COMPARED b)
/-- LANE_A (`false`) or LANE_B (`true`). -/
def State.laneNo (s : State) (b : Nat) (second : Bool) : Nat :=
  if second then s.get (R.LNC_Bb_MAP_LANE_B b) else s.get (R.LNC_Bb_MAP_LANE_A b)
/-- The lanes that binding `b` names. -/
def State.lanesOf (s : State) (b : Nat) : List Nat :=
  if !s.bound b then [] else if s.compared b then [s.laneNo b false, s.laneNo b true] else [s.laneNo b false]
/-- The binding that lane `n` serves. -/
def State.served (s : State) (n : Nat) : Option Nat :=
  if s.on (R.LNC_Ln_STATUS_BOUND n) then some (s.get (R.LNC_Ln_STATUS_BINDING n)) else none

/-- The domains of the path of binding `b` (R31). -/
def State.path (s : State) (b : Nat) : List Nat :=
  let lanes := s.lanesOf b
  let chans := (List.range 24).filter fun c => lanes.any fun n => s.bitOn (R.FCV_CHn_CFG_LANES c) n
  let dests := (List.range 4).map fun k => (s.get (R.LNC_Bb_DEST_KIND b k), s.get (R.LNC_Bb_DEST_ID b k))
  let links := (dests.map fun d => if d.1 = 3 then [d.2] else if d.1 = 2 then s.armLinks d.2 else []).flatten
  lanes ++ [16, 45] ++ chans.map (fun c => 25 + c / 8) ++ ((dests.filter (·.1 == 1)).map fun d => 41 + d.2 / 8)
    ++ links.map (46 + ·) ++ links.map (78 + · / 4)

/-- A clock force is active on the path (R125, R478). -/
def State.pathForced (s : State) (b : Nat) : Bool := (s.path b).any s.forcing

/-- Every destination of binding `b` follows FORCED (R118, R123). -/
def State.settleDests (s : State) (b : Nat) : State :=
  s.each (List.range 4) fun k t =>
    let id := t.get (R.LNC_Bb_DEST_ID b k)
    match t.get (R.LNC_Bb_DEST_KIND b k) with
    | 1 => t.settleUnit id
    | 2 => t.each (t.armLinks id) fun l u => u.settleLink l
    | 3 => t.settleLink id
    | _ => t

/-- The commit stage forces the destinations of binding `b` safe. -/
def State.forceBinding (s : State) (b : Nat) : State := (s.put (R.LNC_Bb_STATUS_FORCED b) 1).settleDests b

/-- RUNNING of binding `b` follows the activations. -/
def State.bindStatus (s : State) (b : Nat) : State :=
  let s := s.putB (R.LNC_Bb_STATUS_RUNNING b) ((List.range 16).any fun n =>
    match (s.laneOf n).act with | some a => a.binding == b | none => false)
  let w := (s.bnd b).wait
  let s := s.putB (R.LNC_Ln_STATUS_PENDING (s.laneNo b false)) (match w with | some t => t.a | none => false)
  if s.compared b then s.putB (R.LNC_Ln_STATUS_PENDING (s.laneNo b true)) (match w with | some t => t.b | none => false) else s

/-- The epoch of an activation that dispatches now (R126). -/
def State.epochNow (s : State) (b : Nat) : Nat :=
  match (s.bnd b).ahead with | some a => a.epoch | none => s.get (R.LNC_Bb_STATUS_EPOCH b)

/-! ### Triggers (R106, R111, R112) -/

/-- A trigger is dropped or replaced (R111): OVERRUN, the count, CLn_OVERRUN, and a sample of the feeder port (R328). -/
def State.overrun (s : State) (b : Nat) : State :=
  (((s.put (R.LNC_Bb_STATUS_OVERRUN b) 1).incSat (R.LNC_Bb_COUNTS_OVERRUNS b)).raise (218 + s.laneNo b false)).feedDropped b

/-- Do the last trigger of binding `b` and one that comes now make one: they come in one cycle, and one of them is a FIRE (R111)? -/
def State.mergedTrig (s : State) (b kind : Nat) : Bool :=
  match (s.bnd b).trig with
  | some (t, fire) => s.sameCycle t && fire != (kind == 4)
  | none => false

/-- A trigger of binding `b` with instant `t` and kind `kind` (R106, R111). -/
def State.trigger (s : State) (b kind : Nat) (t : Time) (cause : Cause := none) : State :=
  if !s.bound b || s.ownerInReset (s.bindingOwner b) then s
  else
    let lanes := s.lanesOf b
    let merged := s.mergedTrig b kind
    let s := s.setBnd b { s.bnd b with trig := if merged then none else some (s.now, kind == 4) }
    let x := s.bnd b
    if lanes.any fun n => (s.laneOf n).act.isSome || s.on (R.LNC_Ln_STATUS_HALTED n) then (if merged then s else s.overrun b)
    else
      let w : Trig := ⟨t, kind, cause, s.now, true, s.compared b, none⟩
      let s := match x.wait with
        | none => if merged then s else s.setBnd b { x with wait := some w }
        | some o =>
          if merged then
            s.setBnd b { x with wait := some (if kind = 4 then o else { w with at_ := o.at_ }) }
          else (s.setBnd b { x with wait := some w }).overrun b
      let s := s.each (lanes.filter fun n => !s.running n) fun n t => t.put (R.LNC_Ln_STATUS_LATE_START n) 1
      s.bindStatus b

/-- Triggers of the bindings that satisfy `f` (TRIG_KIND, TRIG_SRC, LANE_A). -/
def State.triggerAll (s : State) (f : Nat → Nat → Nat → Bool) (t : Time) (cause : Cause := none) : State :=
  s.each ((List.range 64).filter fun b => s.bound b &&
      f (s.get (R.LNC_Bb_MAP_TRIG_KIND b)) (s.get (R.LNC_Bb_MAP_TRIG_SRC b)) (s.laneNo b false)) fun b u =>
    u.trigger b (u.get (R.LNC_Bb_MAP_TRIG_KIND b)) t cause

/-- A word arrives in mailbox `m` of lane `n` (R105 to R107). -/
def State.boxArrive (s : State) (n m : Nat) (w : Word) (t : Time) : State :=
  let x := s.laneOf n
  let bx := x.boxes.get {} m
  let s := s.setLane n { x with boxes := x.boxes.set m { bx with word := w, time := t, count := bx.count + 1 } }
  s.triggerAll (fun kind src a => kind == 2 && src == m && a == n) t

/-! ### Dispatch (R103, R107 to R109, R223) -/

/-- Is instant `a` at or after instant `b`? -/
def atOrAfter (a b : Time) : Bool := decide ((a - b).toNat < 2 ^ 63)

/-- The mailboxes that gate lane A or B of binding `b` (R106, R107). -/
def State.gateMask (s : State) (b : Nat) (second : Bool) (kind : Nat) : Nat :=
  let m := s.get (R.LNC_Bb_WAIT_WAIT_MASK b)
  if second && kind == 2 then setBit m (s.get (R.LNC_Bb_MAP_TRIG_SRC b) % 8) true else m

/-- Does the gate hold for a lane? -/
def State.gateHolds (s : State) (b : Nat) (second : Bool) (w : Trig) : Bool :=
  let x := s.laneOf (s.laneNo b second)
  (List.range 8).all fun m => !bit (s.gateMask b second w.kind) m ||
    (let bx := x.boxes.get {} m; decide (0 < bx.count) && atOrAfter bx.time w.t)

/-- Capture one position selector of binding `b` (R223, R224): an update of the last 2.0 ns is in or out freely. -/
def State.posCapture (s : State) (b : Nat) (en : Bool) (sel : Nat) : PosView × State :=
  if !en then ({}, s)
  else if s.owner 6 sel != s.bindingOwner b then ({}, s.put (R.LNC_Bb_STATUS_POS_FOREIGN b) 1)
  else
    let x := s.posIf sel
    let recent := match x.changed with | some t => decide (s.since t < 64) | none => false
    let (f, s) := if recent then s.fresh else (0, s)
    let out := recent && f % 2 == 1
    let v := if out then x.prev else s.posView sel
    let ser := if out then x.prevSer else x.serial
    let y := s.bnd b
    let new := decide (y.seen.get 0 sel < ser)
    ({ v with info := setBit v.info 8 new }, s.setBnd b { y with seen := y.seen.set sel ser })

/-- The capture of a dispatch of binding `b` with trigger instant `t`: of each interface once (R223). -/
def State.capture (s : State) (b : Nat) (t : Time) : Capture × State :=
  let others := (List.range 16).filter fun n =>
    !(s.on (R.LNC_Bb_POSSEL_EN0 b) && s.get (R.LNC_Bb_POSSEL_PSEL0 b) == n) && !(s.on (R.LNC_Bb_POSSEL_EN1 b) && s.get (R.LNC_Bb_POSSEL_PSEL1 b) == n)
  let (f, s) := s.feedDispatch b t
  let (p0, s) := s.posCapture b (s.on (R.LNC_Bb_POSSEL_EN0 b)) (s.get (R.LNC_Bb_POSSEL_PSEL0 b))
  let one := s.on (R.LNC_Bb_POSSEL_EN0 b) && s.on (R.LNC_Bb_POSSEL_EN1 b) && s.get (R.LNC_Bb_POSSEL_PSEL0 b) == s.get (R.LNC_Bb_POSSEL_PSEL1 b)
  let (p1, s) := if one then (p0, s) else s.posCapture b (s.on (R.LNC_Bb_POSSEL_EN1 b)) (s.get (R.LNC_Bb_POSSEL_PSEL1 b))
  let y := s.bnd b
  (⟨f, p0, p1⟩, s.setBnd b { y with seen := others.foldl (fun m n => m.set n (s.posIf n).serial) y.seen })

/-- A mailbox takes its snapshot (R105, R108). -/
def Box.take (x : Box) : Box :=
  if x.count = 0 then { x with sinfo := 0 }
  else { x with sword := x.word, stime := x.time, count := 0,
                sinfo := 1 + 2 * (decide (1 < x.count)).toNat + 256 * min 255 x.count }

/-- Byte address of lane `n`'s code RAM. -/
def laneCodeBase (n : Nat) : Nat := 0x30000000 + 0x20000 * n
/-- Byte address of lane `n`'s data RAM. -/
def laneDataBase (n : Nat) : Nat := 0x30010000 + 0x20000 * n

/-- The activation of a waiting trigger dispatches on one lane (R108, R109). -/
def State.dispatchLane (s : State) (b : Nat) (second starved : Bool) (w : Trig) : State :=
  let n := s.laneNo b second
  let first := w.cap.isNone
  let s := s.when (first && s.on (R.LNC_Bb_STATUS_SWAP_PENDING b)) fun s =>
    (s.put (R.LNC_Bb_STATUS_PARAM_ACTIVE b) (s.get (R.LNC_Bb_STATUS_PARAM_ACTIVE b) + 1)).put (R.LNC_Bb_STATUS_SWAP_PENDING b) 0
  let (cap, s) := match w.cap with | some c => (c, s) | none => s.capture b w.t
  let s := s.when starved fun s =>
    ((s.put (R.LNC_Bb_STATUS_STARVED b) 1).incSat (R.LNC_Bb_COUNTS_STARVES b)).raise (218 + s.laneNo b false)
  let e := s.epochNow b
  let s := (s.inc (R.LNC_Ln_ACTCNT_COUNT n)).put (R.LNC_Ln_STATUS_EPOCH n) e
  let info := w.kind + 8 * starved.toNat + 256 * e + 65536 * (s.get (R.LNC_Ln_ACTCNT_COUNT n) % 65536)
  let x := s.laneOf n
  let s := s.setLane n { x with boxes := (List.range 8).foldl (fun (m : Tab Box) k => m.set k (Box.take (Tab.get {} m k))) x.boxes,
                                act := some { binding := b, epoch := e, t := w.t, cause := w.cause, since := some s.now },
                                actT := w.t, info := info, cap := cap }
  let c := s.cpuAt (16 + n)
  let s := s.setCpuAt (16 + n) { c with pc := BitVec.ofNat 32 (laneCodeBase n + s.get (R.LNC_Bb_ENTRY_ENTRY b)), ps := c.ps &&& 0x0FFFFFFC#32 }
  let y := s.bnd b
  let left : Trig := { w with a := w.a && second, b := w.b && !second, cap := some cap }
  (s.setBnd b { y with wait := if left.a || left.b then some left else none,
                       badA := y.badA && !first, badB := y.badB && !first }).bindStatus b

/-- May a lane of binding `b` dispatch: its domain runs, and it neither runs nor is halted? -/
def State.laneReady (s : State) (b : Nat) (second : Bool) : Bool :=
  let n := s.laneNo b second
  s.bound b && (s.compared b || !second) && s.running n && !s.domReset n && (s.laneOf n).act.isNone && !s.on (R.LNC_Ln_STATUS_HALTED n)

/-- A waiting trigger of binding `b` that still serves lane A or B. -/
def State.waiting (s : State) (b : Nat) (second : Bool) : Option Trig :=
  match (s.bnd b).wait with
  | some w => if (if second then w.b else w.a) then some w else none
  | none => none

/-! ### Faults, resets (R113, R114, R520) -/

/-- The clock of lane `n` stops: the cycles of its activation are counted so far (R110). -/
def State.lanePause (s : State) (n : Nat) : State :=
  match (s.laneOf n).act with
  | some a => s.setLane n { s.laneOf n with act := some { a with ran := a.ran + (match a.since with | some t => s.since t | none => 0), since := none } }
  | none => s
/-- The clock of lane `n` runs again. -/
def State.laneGo (s : State) (n : Nat) : State :=
  match (s.laneOf n).act with
  | some a => if a.since.isNone then s.setLane n { s.laneOf n with act := some { a with since := some s.now } } else s
  | none => s

/-- The activation on lane `n` ends; its staged words go with it (R115). -/
def State.stopLane (s : State) (n : Nat) : State :=
  match (s.laneOf n).act with
  | some a => (s.setLane n { s.laneOf n with act := none }).bindStatus a.binding
  | none => s

/-- A compare failure of binding `b` (R123): the failure's flag, FORCED and LBb_MISMATCH. -/
def State.compareFail (s : State) (b : Nat) (q : RF) (left : List Half) : State :=
  (((s.setBnd b { s.bnd b with pairs := left }).put q 1).forceBinding b).raise (234 + b)

/-- Has lane A or B of binding `b` a send with number `k` on its way to the commit stage? -/
def State.onItsWay (s : State) (b : Nat) (second : Bool) (k : Nat) : Bool :=
  (s.laneOf (s.laneNo b second)).out.any fun x => x.binding == b && x.num == k

/-- Lane A or B of a compare group has faulted: words that wait for it are MISSING at once (R123). -/
def State.partnerLost (s : State) (b : Nat) (second : Bool) : State :=
  let y := s.bnd b
  let s := s.setBnd b (if second then { y with badB := true } else { y with badA := true })
  let lost (h : Half) : Bool := h.second != second && !s.onItsWay b second h.send.num
  if y.pairs.any lost then s.compareFail b (R.LNC_Bb_STATUS_MISSING b) (y.pairs.filter fun h => !lost h) else s

/-- Does lane `n` run an activation of binding `b`? -/
def State.runs (s : State) (n b : Nat) : Bool := match (s.laneOf n).act with | some a => a.binding == b | none => false

/-- The binding that a fault of lane `n` touches: that of its activation, unless the lane has left it (R113), or the one that it serves. -/
def State.faultBinding (s : State) (n : Nat) : Option Nat :=
  match (s.laneOf n).act with
  | some a => if (s.lanesOf a.binding).contains n then some a.binding else none
  | none => s.served n

/-- Lane `n` faults with a cause, an exception number and the pc at which it stopped (R113, R114). In a compare group the other lane's
activation ends with it, also one that has still to dispatch there. -/
def State.laneFault (s : State) (n cause exc : Nat) (pc : Word) : State :=
  let hit := s.faultBinding n
  let begun (b : Nat) : Bool := match (s.bnd b).wait with | some w => w.cap.isSome | none => false
  let s := ((((s.stopLane n).put (R.LNC_Ln_FAULT_CAUSE n) cause).put (R.LNC_Ln_FAULT_EXC n) exc).wr (R.LNC_Ln_FAULT_PC n) pc).raise (202 + n)
  match hit with
  | none => s
  | some b =>
    let s := s.put (R.LNC_Bb_STATUS_FAULTED b) 1
    let s := s.each ((s.lanesOf b).filter fun m => m != n && s.runs m b) fun m t => t.stopLane m
    let s := s.when (begun b) fun s => (s.setBnd b { s.bnd b with wait := none }).bindStatus b
    let s := s.when (s.on (R.LNC_Bb_CTRL_ON_FAULT b)) fun s => s.forceBinding b
    if s.compared b then s.partnerLost b (s.laneNo b true == n) else s

/-- What a LANE reset does to lane `n` (R520), without the record of a fault. -/
def State.laneClear (s : State) (n : Nat) : State :=
  let keep := s.rd (R.LNC_Ln_STATUS n) &&& 0x00BF0000#32
  let s := (s.stopLane n).setLane n { out := (s.laneOf n).out }
  ((s.setCpuAt (16 + n) (Cpu.init (16 + n))).wr (R.LNC_Ln_STATUS n) keep).wr (R.LNC_Ln_ACTCNT n) 0#32

/-- A LANE reset requested on its own (R113, R520): a fault of a bound lane. Its waiting trigger is dropped. -/
def State.laneResetOwn (s : State) (n : Nat) : State :=
  let pc := (s.cpuAt (16 + n)).pc
  let s := match s.served n with
    | some b => ((s.laneFault n 6 0 pc).setBnd b { (s.laneFault n 6 0 pc).bnd b with wait := none }).bindStatus b
    | none => s
  s.laneClear n

/-- A write of `v` to LNC_Ln_CTRL by a requester in view `view`: the owner's RESET acts on an unbound lane only. -/
def laneCtrlWrite (n view v : Nat) (s : State) : State :=
  let s := s.when (bit v 0 && (view == platform || (s.served n).isNone)) fun s => s.laneResetOwn n
  s.when (bit v 1) fun s =>
    ((s.put (R.LNC_Ln_FAULT_CAUSE n) 0).put (R.LNC_Ln_FAULT_EXC n) 0).wr (R.LNC_Ln_FAULT_PC n) 0#32

/-! ### Sends and the commit stage (R115 to R118, R122 to R127) -/

/-- Discard words under R116. -/
def State.lateDrop (s : State) (b words : Nat) : State :=
  (s.incSat R.LNC_LATEDROP_COUNT words).incSat (R.LNC_Bb_STATUS_LATEDROPS b) words

/-- DEST of binding `b` for an activation of an epoch: from a boundary on it is that of the new image (R126). -/
def State.destOf (s : State) (b epoch : Nat) : Word :=
  match (s.bnd b).ahead with
  | some a => if a.epoch = epoch then a.dest else s.rd (R.LNC_Bb_DEST b)
  | none => s.rd (R.LNC_Bb_DEST b)

/-- A store to OUTk of lane `n` (R115). -/
def State.outSend (s : State) (n k : Nat) (v : Word) : State :=
  let x := s.laneOf n
  match x.act with
  | none => s
  | some a =>
    let all := a.stage.set k v
    let dest := s.destOf a.binding a.epoch
    let words := all.filter fun p => fieldGet dest (8 * p.1 + 6) 2 != 0
    let s := s.when (words.length != all.length) fun s => s.put (R.LNC_Ln_STATUS_OUT_NONE n) 1
    let snd : Send := ⟨a.binding, a.epoch, a.sends, a.stale, a.t, words⟩
    s.setLane n { x with act := some { a with stage := [], sends := a.sends + 1 },
                         out := if words.isEmpty then x.out else x.out ++ [snd] }

/-- A store to OUTk_HOLD of lane `n` (R115). -/
def State.outHold (s : State) (n k : Nat) (v : Word) : State :=
  let x := s.laneOf n
  match x.act with
  | none => s
  | some a => s.setLane n { x with act := some { a with stage := a.stage.set k v } }

/-- A store to DONE of lane `n` (R110): CLn_DONE carries the hop of a CLn_TRIG trigger plus one. -/
def State.actDone (s : State) (n : Nat) : State :=
  match (s.laneOf n).act with
  | none => s
  | some a => (s.stopLane n).emit (186 + n) a.cause

/-- The commit stage accepts a send: a forced binding delivers nothing (R118). -/
def State.acceptSend (s : State) (b : Nat) (x : Send) : State :=
  if s.on (R.LNC_Bb_STATUS_FORCED b) then s else s.setBnd b { s.bnd b with due := (s.bnd b).due ++ [(s.rd (R.LNC_Bb_DEST b), x)] }

/-- A send of lane A or B of a compare group arrives (R122, R123). -/
def State.pairSend (s : State) (b : Nat) (second : Bool) (x : Send) : State :=
  let y := s.bnd b
  let shares (h : Half) : Bool := h.send.words.any fun p => x.words.any fun q => p.1 == q.1
  if y.pairs.any fun h => h.second == second && shares h then
    s.compareFail b (R.LNC_Bb_STATUS_SEQUENCE b) (y.pairs.filter fun h => !(h.second == second && shares h))
  else match y.pairs.find? fun h => h.second != second && h.send.num == x.num with
    | some h =>
      let left := y.pairs.filter (· != h)
      if h.send.words = x.words then (s.setBnd b { y with pairs := left }).acceptSend b x
      else s.compareFail b (R.LNC_Bb_STATUS_MISMATCH b) left
    | none =>
      if y.pairs.any fun h => h.second != second && shares h then
        s.compareFail b (R.LNC_Bb_STATUS_MISMATCH b) (y.pairs.filter fun h => !(h.second != second && shares h))
      else if (if second then y.badA else y.badB) && !s.onItsWay b (!second) x.num then
        s.compareFail b (R.LNC_Bb_STATUS_MISSING b) y.pairs
      else s.setBnd b { y with pairs := y.pairs ++ [⟨second, s.now, x⟩] }

/-- MAP of binding `b` as the commit stage knows it: a boundary reaches it later than the lanes (R126). -/
def State.commitMap (s : State) (b : Nat) : Word := match (s.bnd b).ahead with | some a => a.map | none => s.rd (R.LNC_Bb_MAP b)

/-- The destinations (kind, number) that a DEST word names. -/
def destsOf (d : Word) : List (Nat × Nat) :=
  ((List.range 4).map fun k => (fieldGet d (8 * k + 6) 2, fieldGet d (8 * k) 5)).filter fun x => x.1 != 0

/-- Does a binding name destination `d` now, or from its boundary on? -/
def State.destTaken (s : State) (d : Nat × Nat) : Bool :=
  (List.range 64).any fun b => match (s.bnd b).ahead with
    | some a => (destsOf a.dest).contains d
    | none => s.names b d.1 d.2

/-- A destination follows its force sources. -/
def State.settleDest (s : State) (d : Nat × Nat) : State :=
  if d.1 = 1 then s.settleUnit d.2 else if d.1 = 2 then s.each (s.armLinks d.2) fun l u => u.settleLink l
  else if d.1 = 3 then s.settleLink d.2 else s

/-- The period start at a boundary reaches the commit stage (R126, R127): the epoch, the destinations, pair slots with an old epoch (whose
words count under LNC_LATEDROP) and stale activations; destinations that no binding names any more are forced (Table 2.14). -/
def State.commitSwitch (s : State) (b : Nat) : State :=
  match (s.bnd b).ahead with
  | none => s
  | some a =>
    let old := if a.map.msb then destsOf (s.rd (R.LNC_Bb_DEST b)) else []
    let s := (s.wr (R.LNC_Bb_DEST b) a.dest).put (R.LNC_Bb_STATUS_EPOCH b) a.epoch
    let y := s.bnd b
    let left := y.pairs.filter fun h => h.send.epoch != a.epoch
    let s := s.setBnd b { y with ahead := none, pairs := y.pairs.filter fun h => h.send.epoch == a.epoch }
    let s := s.incSat R.LNC_LATEDROP_COUNT (left.map fun h => h.send.words.length).sum
    let s := s.each (List.range 16) fun n t => match (t.laneOf n).act with
      | some x => if x.binding = b ∧ x.epoch ≠ a.epoch then t.setLane n { t.laneOf n with act := some { x with stale := true } } else t
      | none => t
    let lost := if s.bound b then [] else old.filter fun d => !s.destTaken d
    let now := if s.bound b then destsOf a.dest else []
    let s := { s with orphans := s.orphans.filter (fun d => !now.contains d) ++ lost }
    s.each (old ++ now) fun d t => t.settleDest d

/-- The oldest send of lane `n` reaches the commit stage (R116). A boundary that has passed is seen before a word with the new
epoch (R126). -/
def State.commitArrival (s : State) (n : Nat) : State :=
  let l := s.laneOf n
  match l.out with
  | [] => s
  | x :: rest =>
    let s := s.setLane n { l with out := rest }
    let b := x.binding
    let s := if x.epoch = s.epochNow b then s.commitSwitch b else s
    let m := s.commitMap b
    if x.stale || !m.msb || x.epoch != s.get (R.LNC_Bb_STATUS_EPOCH b) then s.lateDrop b x.words.length
    else if fieldGet m 25 1 == 1 then s.pairSend b (fieldGet m 4 4 == n) x
    else s.acceptSend b x

/-- The words of a send reach the destinations that DEST named when it was accepted (R117). -/
def State.deliver (s : State) (dest : Word) (x : Send) : State :=
  s.each x.words fun p t =>
    let id := fieldGet dest (8 * p.1) 5
    match fieldGet dest (8 * p.1 + 6) 2 with
    | 1 => t.laneCompare id p.2
    | 2 => t.armWord id p.2.toNat
    | 3 => t.linkWord id x.t p.2.toNat
    | _ => t

/-- A write of `v` to LNC_Bb_CMD. A force of the same cycle outlasts a RELEASE (R125). -/
def bindingCmdWrite (b v : Nat) (s : State) : State :=
  let s := s.when (bit v 0) fun s => s.trigger b 4 s.now
  let s := s.when (bit v 1 && !s.isHot (R.LNC_Bb_STATUS_FORCED b) && !s.pathForced b && !(s.compared b && s.on R.SUP_CMPTEST_COMMIT)) fun s => (s.put (R.LNC_Bb_STATUS_FORCED b) 0).settleDests b
  let s := s.when (bit v 2) fun s => s.put (R.LNC_Bb_STATUS_SWAP_PENDING b) 1
  s.when (bit v 3) fun s => (s.put (R.LNC_Bb_STATUS_LATEDROPS b) 0).wr (R.LNC_Bb_COUNTS b) 0#32

/-! ### Commands -/

/-- LANE_TRIGGER (R106): a trigger of the binding's TRIG_KIND with instant `t`. -/
def execLaneTrigger (b : Fin 64) (t : Time) (s : State) : Out := .next (s.trigger b (s.get (R.LNC_Bb_MAP_TRIG_KIND b)) t)

/-- FIRE (R106). -/
def execBindingFire (q : Requester) (b : Fin 64) (s : State) : Out := regWrite q (R.LNC_Bb_CMD b) (bindingCmdWrite b 1) s

/-- MAILBOX_WORD_ARRIVAL (R107): the oldest word on its way to mailbox `m` of lane `l` arrives. -/
def execMailboxWordArrival (l : Fin 16) (m : Fin 8) (s : State) : Out :=
  .next (match s.fcBox.find? fun x => x.lanes == l.val && x.box == m.val with
    | some x => ({ s with fcBox := s.fcBox.erase x } : State).boxArrive l m x.word x.time
    | none => s)

/-- DISPATCH (R107): the gate of lane A or B of a waiting trigger holds. -/
def execDispatch (b : Fin 64) (l : Bool) (s : State) : Out :=
  .next (match s.waiting b l with
    | some w => if s.laneReady b l && s.gateHolds b l w then s.dispatchLane b l false w else s
    | none => s)

/-- WAIT_LIMIT_EXPIRY (R107): WAIT_LIMIT ns have passed since the trigger. -/
def execWaitLimitExpiry (b : Fin 64) (l : Bool) (s : State) : Out :=
  .next (match s.waiting b l with
    | some w =>
      let lim := s.get (R.LNC_Bb_WAIT_WAIT_LIMIT b)
      if s.laneReady b l && !s.gateHolds b l w && lim != 0 && decide (ns lim ≤ s.since w.at_) then s.dispatchLane b l true w else s
    | none => s)

/-- OUT_SEND (R115). -/
def execOutSend (n : Fin 16) (k : Fin 4) (v : Word) (s : State) : Out := .next (s.outSend n k v)
/-- OUT_HOLD (R115). -/
def execOutHold (n : Fin 16) (k : Fin 4) (v : Word) (s : State) : Out := .next (s.outHold n k v)
/-- ACTIVATION_DONE (R110). -/
def execActivationDone (n : Fin 16) (s : State) : Out := .next (s.actDone n)

/-- Ticks for which the lane's clock has run since the dispatch of an activation. -/
def State.actTicks (s : State) (a : Act) : Nat := a.ran + (match a.since with | some t => s.since t | none => 0)

/-- DEADLINE_MISS (R110): DEADLINE cycles of the lane's clock have passed since the dispatch, and the clock runs. -/
def execDeadlineMiss (n : Fin 16) (s : State) : Out :=
  .next (match (s.laneOf n).act with
    | some a =>
      let d := s.get (R.LNC_Bb_CTRL_DEADLINE a.binding)
      if d = 0 ∨ a.since = none ∨ s.actTicks a < 32 * d then s else s.laneFault n 4 0 (s.cpuAt (16 + n)).pc
    | none => s)

/-- COMMIT_WORD_ARRIVAL (R116). -/
def execCommitWordArrival (n : Fin 16) (s : State) : Out := .next (if s.running 16 then s.commitArrival n else s)

/-- PAIR_WAIT_EXPIRY (R123): the word that has waited longest has waited CMP_WAIT ns. -/
def execPairWaitExpiry (b : Fin 64) (s : State) : Out :=
  .next (match (s.bnd b).pairs with
    | [] => s
    | h :: left => if s.since h.at_ < ns (s.get (R.LNC_Bb_CTRL_CMP_WAIT b)) then s else s.compareFail b (R.LNC_Bb_STATUS_MISSING b) left)

/-- COMMIT_DELIVERY (R117): the oldest accepted send arrives, unless the binding is forced (R118). -/
def execCommitDelivery (b : Fin 64) (s : State) : Out :=
  .next (let y := s.bnd b
    match y.due with
    | [] => s
    | x :: rest =>
      let s := s.setBnd b { y with due := rest }
      if s.on (R.LNC_Bb_STATUS_FORCED b) then s else s.deliver x.1 x.2)

/-- LANE_RESET (R520). -/
def execLaneReset (q : Requester) (n : Fin 16) (s : State) : Out :=
  regWrite q (R.LNC_Ln_CTRL n) (fun s => laneCtrlWrite n (s.viewOf q) 1 s) s
/-- CLRFAULT_LANE (R113). -/
def execClrfaultLane (q : Requester) (n : Fin 16) (s : State) : Out :=
  regWrite q (R.LNC_Ln_CTRL n) (fun s => laneCtrlWrite n (s.viewOf q) 2 s) s
/-- SWAP (R103). -/
def execLaneSwap (q : Requester) (b : Fin 64) (s : State) : Out := regWrite q (R.LNC_Bb_CMD b) (bindingCmdWrite b 4) s
/-- RELEASE_BINDING (R125). -/
def execReleaseBinding (q : Requester) (b : Fin 64) (s : State) : Out := regWrite q (R.LNC_Bb_CMD b) (bindingCmdWrite b 2) s
/-- CLEAR_BINDING_COUNTS (R111). -/
def execClearBindingCounts (q : Requester) (b : Fin 64) (s : State) : Out := regWrite q (R.LNC_Bb_CMD b) (bindingCmdWrite b 8) s

end Sys2Proof.Machine
end

