-- ==== Sys2Proof/Machine/Irq.lean ====
section
/-!
DEFINITION. The interrupt controller of a core (spec/12, R303, R304, R306): pending bits, what may be taken at a boundary and what is
chosen. PEND of interrupt k stands in CPS_IRQ_SETj.
-/
namespace Sys2Proof.Machine

/-- PEND of interrupt `k` of core `c`. -/
def State.irqPend (s : State) (c k : Nat) : Bool := s.bitOn (R.CPS_IRQ_SETj_PEND c (k / 32)) (k % 32)
/-- Set or clear it. -/
def State.setPend (s : State) (c k : Nat) (b : Bool) : State := s.putBit (R.CPS_IRQ_SETj_PEND c (k / 32)) (k % 32) b
/-- EN of interrupt `k`. -/
def State.irqEn (s : State) (c k : Nat) : Bool := s.on (R.CPS_IRQ_CFGn_EN c k)
/-- PRIO of interrupt `k`. -/
def State.irqPrio (s : State) (c k : Nat) : Nat := s.get (R.CPS_IRQ_CFGn_PRIO c k)
/-- The handler level of interrupt `k`: S or M. -/
def State.irqLvl (s : State) (c k : Nat) : Nat := if s.on (R.CPS_IRQ_CFGn_LVL c k) then 2 else 1

/-- Level of a processor: 0 U, 1 S, 2 M. -/
def Cpu.lvl (c : Cpu) : Nat := fieldGet c.ps 8 2
/-- IPM of a processor. -/
def Cpu.ipm (c : Cpu) : Nat := fieldGet c.ps 16 4

/-- May interrupt `k` be taken by core `c` at this boundary (R303)? -/
def State.irqMay (s : State) (c k : Nat) : Bool :=
  let x := s.cpuAt c
  s.irqPend c k && s.irqEn c k && decide (x.ipm < s.irqPrio c k) && decide (x.lvl ≤ s.irqLvl c k)

/-- Of the interrupts in a list, the one with the highest PRIO, the lowest number among equals (R304). -/
def State.irqBest (s : State) (c : Nat) (l : List Nat) : Option Nat :=
  l.foldl (fun b k => match b with
    | none => some k
    | some j => if s.irqPrio c j < s.irqPrio c k ∨ (s.irqPrio c j = s.irqPrio c k ∧ k < j) then some k else b) none

/-- The interrupt that core `c` takes at this boundary (R304). -/
def State.irqNext (s : State) (c : Nat) : Option Nat := s.irqBest c ((List.range 256).filter fun k => s.irqMay c k)

/-- May core `c` take its NMI (R304)? -/
def State.nmiMay (s : State) (c : Nat) : Bool := s.on (R.CPS_NMI_PEND c) && !s.on (R.CPS_NMI_ACTIVE c)

/-- CPS_IRQ_TOP: the pending enabled interrupt that R304 chooses whatever IPM and level are. -/
def State.irqTop (s : State) (c : Nat) : Nat :=
  match s.irqBest c ((List.range 256).filter fun k => s.irqPend c k && s.irqEn c k) with
  | some k => 2 ^ 31 + s.irqPrio c k * 2 ^ 16 + k
  | none => 0

/-- PEND of interrupt `k` clears; an event that was handed to the input is taken (R316, Table 13.4). -/
def State.irqTaken (s : State) (c k : Nat) : State :=
  let s := s.setPend c k false
  match s.channelOf (256 * c + k) with
  | some e => s.when (s.chan e).handed fun s => s.takeEvent e
  | none => s

/-- The pending NMI is taken (R299, Table 13.4). -/
def State.nmiTaken (s : State) (c : Nat) : State :=
  let s := s.put (R.CPS_NMI_PEND c) 0
  match s.channelOf (0x0900 + c) with
  | some e => s.when (s.chan e).handed fun s => s.takeEvent e
  | none => s

/-- Level `lvl` writes `v` to CPS_IRQ_SETj (`b`) or CPS_IRQ_CLRj (R306); a PEND that an event has set in this cycle stays set under CLR
(R305). -/
def irqPendWrite (c j lvl v : Nat) (b : Bool) (s : State) : State :=
  let q := R.CPS_IRQ_SETj c j
  let mine := (List.range 32).filter fun i => bit v i && (lvl == 2 || s.irqLvl c (32 * j + i) == 1)
  if b then s.wr q (s.rd q ||| BitVec.ofNat 32 (mine.foldl (fun m i => m + 2 ^ i) 0))
  else s.each (mine.filter fun i => !(s.regs.hotAt q).getLsbD i) fun i t => t.irqTaken c (32 * j + i)

/-- Level `lvl` writes `v` to CPS_IRQ_CFGn (R306). -/
def irqCfgWrite (c n lvl v : Nat) (s : State) : State :=
  if lvl = 2 then s.wr (R.CPS_IRQ_CFGn c n) (BitVec.ofNat 32 (v &&& 0x3F))
  else if s.irqLvl c n = 2 then s
  else s.wr (R.CPS_IRQ_CFGn c n) (BitVec.ofNat 32 (v &&& 0x1F))

/-- Level `lvl` writes `v` to CPS_NMI. -/
def nmiWrite (c lvl v : Nat) (s : State) : State := s.when (lvl == 2 && bit v 8) fun s => s.put (R.CPS_NMI_PEND c) 1

end Sys2Proof.Machine
end

