-- ==== Sys2Proof/Machine/Sup.lean ====
section
/-!
DEFINITION. Redundancy and supervision (spec/22): lockstep failures, the supervisor's forces, the watchdog's registers and the latch of
the Pavane recovery machine. What the machine does on its RC edges is in Recov.lean.
-/
namespace Sys2Proof.Machine

/-! ### FAULT_N and SUP_FAULT -/

/-- Is FAULT_N asserted (R508)? -/
def State.faultN (s : State) : Bool :=
  s.get R.SUP_REC_STATUS_STATE == 3 || s.chip.expired || s.on R.SUP_FAULTOUT_ASSERT || s.chip.held || s.get R.RST_BOOT_PHASE != 9

/-- LIVE of SUP_FAULTOUT follows FAULT_N. -/
def State.settleFault (s : State) : State := s.putB R.SUP_FAULTOUT_LIVE s.faultN

/-- A W1C bit of SUP_FAULT sets, with SUP_EVT (R499). -/
def State.supFault (s : State) (q : RF) (k : Nat) : State := (s.putBit q k true).raise 764

/-- A change of pad or force state reaches every unit and link. -/
def State.settleOutputs (s : State) : State := s.settleUnits.settleLinks

/-! ### Cores that stop -/

/-- A core stops: it issues nothing more. -/
def State.stopCore (s : State) (c : Nat) : State :=
  (s.setCpuAt c { s.cpuAt c with started := false, wfi := false, step := false, want := false }).put (R.DBG_Cc_STATUS_STATE c) 0

/-- A core is held in its reset state; what its buffers hold is lost. -/
def State.clearCore (s : State) (c : Nat) : State := { s.stopCore c with cpus := s.cpus.drop (· == c), svc := s.svc.drop (· == c), bufs := s.bufs.drop (· == c) }

/-- The comparator of pair `k` is on. -/
def State.comparing (s : State) (k : Nat) : Bool := if k < 4 then s.on (R.SUP_PAIRk_STATUS_COMPARING k) else (s.cpuAt 8).started && !s.chip.svBroken

/-! ### The recovery machine's latch (R503) -/

/-- A failure input of the recovery machine: its force acts at once, the rest on the next RC edge. Two failures before that
edge make one, with the lower CAUSE (R506); in SAFE_HOLD none acts. -/
def State.recFail (s : State) (cause : Nat) : State :=
  if s.get R.SUP_REC_STATUS_STATE = 3 then s
  else
    let c := match s.pav.fail with | some d => min cause d | none => cause
    (({ s with pav := { s.pav with fail := some c } } : State).put R.SUP_REC_STATUS_FORCE 1).settleOutputs

/-- Is a failure being handled? -/
def State.recBusy (s : State) : Bool := s.pav.fail.isSome || s.get R.SUP_REC_STATUS_STATE != 0

/-- LOCKSTEP_FAILURE of pair `k`, the supervisor's when `k` is 4, in group `g` (R495). -/
def State.lockstepFail (s : State) (k g : Nat) : State :=
  if !s.comparing k then s
  else if k = 4 then ((s.stopCore 8).breakLocks (· == 8) 3).recFail 1
  else
    let s := (s.stopCore (2 * k)).stopCore (2 * k + 1)
    let s := s.breakLocks (· == 2 * k) 3
    let s := (((s.put (R.SUP_PAIRk_STATUS_FAILED k) 1).put (R.SUP_PAIRk_STATUS_STOPPED k) 1).put (R.SUP_PAIRk_STATUS_GROUP k) g).put
      (R.SUP_PAIRk_STATUS_COMPARING k) 0
    s.supFault R.SUP_FAULT_PAIR_FAIL k

/-! ### Register writes -/

/-- A write of `v` to SUP_FORCE_PWM, or to SUP_FORCE_LINK when `link` (R500). -/
def supForceWrite (link : Bool) (v : Word) (s : State) : State :=
  if link then (s.wr R.SUP_FORCE_LINK v).settleLinks else (s.wr R.SUP_FORCE_PWM v).settleUnits

/-- A write of `v` to SUP_FAULTOUT. -/
def supFaultoutWrite (v : Nat) (s : State) : State := (s.put R.SUP_FAULTOUT_ASSERT v).settleFault

/-- A write of `v` to SUP_WDT (R502): MIN and MAX are read-only once LOCK is set. -/
def wdtWrite (v : Nat) (s : State) : State :=
  let s := if s.on R.SUP_WDT_LOCK then s else (s.put R.SUP_WDT_MIN (bitsOf v 16 10)).put R.SUP_WDT_MAX v
  s.when (bit v 31) fun s => s.put R.SUP_WDT_LOCK 1

/-- A write of `v` to SUP_KICK (R502): a kick before MIN, or with the wrong KEY, is a failure; another one takes effect at the
second RC edge. -/
def kickWrite (v : Nat) (s : State) : State :=
  match s.pav.wdt with
  | none => s
  | some n =>
    let early := s.pav.kick.isSome && s.get R.SUP_WDT_MIN != 0 || s.pav.kicked && decide (n < 32 * s.get R.SUP_WDT_MIN)
    if v % 256 != s.pav.key || early then s.recFail 4
    else { s with pav := { s.pav with kick := some 2, kicked := true, key := if s.pav.key = 0x5A then 0xA5 else 0x5A } }

/-- A write of `v` to SUP_REC_CTRL (R503, R506). -/
def recCtrlWrite (v : Nat) (s : State) : State :=
  if bitsOf v 8 8 != 0x96 then s
  else
    let s := s.when (bit v 0 && !s.recBusy) fun s => (s.put R.SUP_REC_STATUS_FORCE 0).settleOutputs
    s.when (bit v 1 && !s.recBusy) fun s => s.recFail 7

/-! ### Commands -/

/-- LOCKSTEP_FAILURE (R495): compared outputs of pair `k` differ in group `g`. -/
def execLockstepFailure (k : Fin 5) (g : Fin 4) (s : State) : Out := .next (s.lockstepFail k g)
/-- SUP_FORCE_WRITE (R500). -/
def execSupForceWrite (q : Requester) (link : Bool) (v : Word) (s : State) : Out :=
  regWrite q (if link then R.SUP_FORCE_LINK else R.SUP_FORCE_PWM) (supForceWrite link v) s
/-- SUP_FAULTOUT_WRITE (R508). -/
def execSupFaultoutWrite (q : Requester) (on : Bool) (s : State) : Out := regWrite q R.SUP_FAULTOUT (supFaultoutWrite on.toNat) s
/-- WDT_LOCK (R502): a write of LOCK with MIN and MAX. -/
def execWdtLock (q : Requester) (min max : BitVec 10) (s : State) : Out :=
  regWrite q R.SUP_WDT (wdtWrite (2 ^ 31 + min.toNat * 2 ^ 16 + max.toNat)) s
/-- KICK (R502). -/
def execKick (q : Requester) (key : Byte) (s : State) : Out := regWrite q R.SUP_KICK (kickWrite key.toNat) s
/-- REC_RELEASE (R506). -/
def execRecRelease (q : Requester) (key : Byte) (s : State) : Out := regWrite q R.SUP_REC_CTRL (recCtrlWrite (key.toNat * 256 + 1)) s
/-- SELF_RESET (R503). -/
def execSelfReset (q : Requester) (key : Byte) (s : State) : Out := regWrite q R.SUP_REC_CTRL (recCtrlWrite (key.toNat * 256 + 2)) s
/-- WATCHDOG_TIMEOUT (R502): no kick came within MAX ms of 32 RC cycles each. -/
def execWatchdogTimeout (s : State) : Out :=
  .next (match s.pav.wdt with
    | some n => if 32 * s.get R.SUP_WDT_MAX ≤ n then s.recFail 3 else s
    | none => s)

end Sys2Proof.Machine
end

