-- ==== Sys2Proof/Machine/Ctl.lean ====
section
/-!
DEFINITION. The registers of a processor (spec/10, R229 to R232, R259, R266): general registers, PS, and the control registers of
Table 10.2 with the bits of each that exist. Processors have the keys of Proc.key.
-/
namespace Sys2Proof.Machine

/-- General register `r`. -/
def Cpu.reg (x : Cpu) (r : Nat) : Word := x.w.get 0#32 r
/-- General register `r` takes a value. -/
def Cpu.setReg (x : Cpu) (r : Nat) (v : Word) : Cpu := { x with w := x.w.set r v }
/-- sp (R229). -/
def Cpu.sp (x : Cpu) : Word := x.reg 15
/-- A control register other than PS, as stored. -/
def Cpu.cr (x : Cpu) (n : Nat) : Word := x.ctl.get 0#32 n
/-- Store it. -/
def Cpu.setCr (x : Cpu) (n : Nat) (v : Word) : Cpu := { x with ctl := x.ctl.set n v }
/-- A bit of PS. -/
def Cpu.psBit (x : Cpu) (k : Nat) : Bool := x.ps.getLsbD k
/-- The condition flags of PS (R230). -/
def Cpu.flags (x : Cpu) : Nzcv := ⟨x.psBit 31, x.psBit 30, x.psBit 29, x.psBit 28⟩
/-- Set the condition flags. -/
def Cpu.setFlags (x : Cpu) (f : Nzcv) : Cpu :=
  { x with ps := fieldPut x.ps 28 4 (8 * f.n.toNat + 4 * f.z.toNat + 2 * f.c.toNat + f.v.toNat) }
/-- Q is sticky (R257). -/
def Cpu.stickQ (x : Cpu) (q : Bool) : Cpu := if q then { x with ps := fieldPut x.ps 27 1 1 } else x

/-- Loop `k` is active (R230). -/
def Cpu.la (x : Cpu) (k : Nat) : Bool := x.psBit k
/-- LAk takes a value. -/
def Cpu.setLa (x : Cpu) (k : Nat) (b : Bool) : Cpu := { x with ps := fieldPut x.ps k 1 b.toNat }
/-- The numbers of LCk, LSk and LEk. -/
def lcNo (k : Nat) : Nat := if k = 0 then 2 else 5
/-- LSk. -/
def lsNo (k : Nat) : Nat := if k = 0 then 3 else 6
/-- LEk. -/
def leNo (k : Nat) : Nat := if k = 0 then 4 else 7

/-- The bits of PS that exist (R230). -/
def psMask : Word := 0xF80F0303#32
/-- The bits of a control register that exist; none for a number that Table 10.2 does not list. -/
def ctlMask (n : Nat) : Option Word :=
  match n with
  | 0 => some psMask
  | 1 => some 0xFFFFF000#32
  | 2 | 5 | 0x10 | 0x11 | 0x12 => some 0xFFFFFFFF#32
  | 3 | 4 | 6 | 7 => some 0xFFFFFFFE#32
  | 8 => some 0x30F#32
  | 0x13 => some 0xFFFFF800#32
  | 0x14 | 0x18 | 0x19 | 0x1A | 0x1B => some 0#32
  | _ => none

/-- FEAT0 to FEAT3 of the processor with key `k` (R266); LOCKSTEP is 0 once debug broke the pair (R513). -/
def State.feat (s : State) (k n : Nat) : Word :=
  let lane := decide (16 ≤ k)
  let sup := k == 8
  let kind := if lane then 1 else if sup then 2 else 0
  let num := if lane then k - 16 else if sup then 0 else k
  let lock := if sup then !s.chip.svBroken else !lane && s.lockstep (k / 2) && !s.on (R.SUP_PAIRk_STATUS_DEBUG_BROKEN (k / 2))
  BitVec.ofNat 32 (match n with
    | 0 => lock.toNat * 2 ^ 19 + (!lane).toNat * 2 ^ 18 + (kind == 0).toNat * 2 ^ 17 + 0x1C000 + num * 256 + kind * 16 + 1
    | 1 => if lane then 64 * 65536 + 64 else if sup then 512 else 128 * 65536 + 128
    | 2 => if lane then 0 else if sup then 0x4000 else 0x404504
    | _ => if lane then 0 else 0xF0100)

/-- The value of control register `n` of the processor with key `k`; none for a number that Table 10.2 does not list. -/
def State.ctlRead (s : State) (k n : Nat) : Option Word :=
  let x := s.cpuAt k
  match n with
  | 0 => some x.ps
  | 0x18 | 0x19 | 0x1A | 0x1B => some (s.feat k (n - 0x18))
  | _ => (ctlMask n).map fun _ => x.cr n

/-- Control register `n` of a processor takes the bits of `v` that it has; others of PS are 0. -/
def Cpu.ctlWrite (x : Cpu) (n : Nat) (v : Word) : Cpu :=
  match n, ctlMask n with
  | 0, _ => { x with ps := v &&& psMask }
  | _, some m => if m = 0#32 then x else x.setCr n (v &&& m)
  | _, none => x

end Sys2Proof.Machine
end

