-- ==== Sys2Proof/Machine/MemCtl.lean ====
section
/-!
DEFINITION. Commands of the memory-integrity block (spec/18) and of the arbiters (spec/19).
-/
namespace Sys2Proof.Machine

/-- A write of `v` to MEMC_INJ_CTRL: KIND is set and the injection armed, replacing an armed one (R414). -/
def injWrite (v : Nat) (s : State) : State :=
  (s.put R.MEMC_INJ_CTRL_KIND v).put R.MEMC_INJ_CTRL_ARMED 1

/-- MEMC_INJECT (R414). -/
def execMemcInject (q : Requester) (kind : Fin 4) (s : State) : Out := regWrite q R.MEMC_INJ_CTRL (injWrite kind) s

/-- ECC_WRITE_BACK (R406): the corrected word replaces the stored one, unless a later write already did. -/
def execEccWriteBack (line : BitVec 26) (s : State) : Out :=
  let a := line.toNat * 64
  let m := s.mark a
  .next (if m.wback then s.setMark a { m with single := false, wback := false } else s)

/-- A commit write to arbiter `a` takes its shadows as they stand; the next slot applies them (R11, R434). A commit of an earlier slot
that has not been applied applies first; commits of one slot make one (R435). -/
def State.arbCommit (s : State) (a : Nat) : State :=
  let s := s.arbApply a (s.slotNow a)
  let l := ((List.range 18).filter fun r => s.arbPresent a r).map fun r => (r, s.shad.rd (R.ARB_Aa_REQr a r))
  ({ s with arbs := s.arbs.set a { s.arbs.get {} a with commit := some (s.slotNow a, l) } } : State).put (R.ARB_Aa_STATUS_PENDING a) 1

/-- A write of `v` to ARB_Aa_COMMIT (R433, R434). -/
def arbCommitWrite (a v : Nat) (s : State) : State :=
  let s := s.when (bit v 1) fun s => s.wr (R.ARB_Aa_WAITMAX a) 0#32
  s.when (bit v 0) fun s => s.arbCommit a

/-- A write of `v` to ARB_COMMIT_LO, or to ARB_COMMIT_HI when `hi` (R434). -/
def arbCommitMulti (hi : Bool) (v : Nat) (s : State) : State :=
  s.each ((List.range (if hi then 18 else 32)).filter fun b => bit v b) fun b t => t.arbCommit (if hi then 32 + b else b)

/-- ARB_COMMIT (R434). -/
def execArbCommit (q : Requester) (a : Fin 50) (s : State) : Out := regWrite q (R.ARB_Aa_COMMIT a) (arbCommitWrite a 1) s
/-- CLEAR_WAIT (R433). -/
def execClearWait (q : Requester) (a : Fin 50) (s : State) : Out := regWrite q (R.ARB_Aa_COMMIT a) (arbCommitWrite a 2) s
/-- ARB_COMMIT_MULTI (R434). -/
def execArbCommitMulti (q : Requester) (hi : Bool) (mask : Word) (s : State) : Out :=
  regWrite q (if hi then R.ARB_COMMIT_HI else R.ARB_COMMIT_LO) (arbCommitMulti hi mask.toNat) s

end Sys2Proof.Machine
end

