-- ==== Sys2Proof/Machine/DmaCtl.lean ====
section
/-!
DEFINITION. The state machine of a DMA channel (spec/18, R419, R422, R423): requests, START, STOP and HEAD. Fetching and moving
data is in Dma.lean.
-/
namespace Sys2Proof.Machine

/-- A channel beside its registers. -/
def State.dmaCh (s : State) (n : Nat) : DmaCh := s.dma.get {} n
/-- Change it. -/
def State.setDma (s : State) (n : Nat) (x : DmaCh) : State := { s with dma := s.dma.set n x }
/-- STATE of a channel: IDLE 0, RUNNING 1, WAIT_REQ 2, WAIT_STREAM 3, STOPPED 4, ERROR 5. -/
def State.dmaState (s : State) (n : Nat) : Nat := s.get (R.DMA_Cn_STATUS_STATE n)

/-- Does a descriptor read a stream, and is WAIT set (Table 18.6)? -/
def Desc.stream (d : Desc) : Bool := bitsOf d.ctl 0 2 == 2
/-- WAIT of a descriptor. -/
def Desc.wait (d : Desc) : Bool := bit d.ctl 6

/-- Bytes that wait in the stream of a descriptor (R418). -/
def State.streamBytes (s : State) (d : Desc) : Nat :=
  if d.srcLo < 0x18 then 64 * (s.fc.get {} d.srcLo).buf.length else 384 * (s.link.get {} (d.srcLo - 0x20)).log.length

/-- The descriptor starts once its stream holds LEN bytes (R419). -/
def State.dmaStream (s : State) (n : Nat) (d : Desc) : State :=
  s.put (R.DMA_Cn_STATUS_STATE n) (if d.stream && decide (s.streamBytes d < d.len) then 3 else 1)

/-- The channel clears REQ; the event behind it is taken (R419). -/
def State.dmaTakeReq (s : State) (n : Nat) : State :=
  let x := s.dmaCh n
  let s := (s.setDma n { x with reqHop := none, hop := x.reqHop }).put (R.DMA_Cn_STATUS_REQ n) 0
  match s.channelOf (0x0A60 + n) with
  | some c => s.when (s.chan c).handed fun s => s.takeEvent c
  | none => s

/-- A checked descriptor waits for its request and its stream, or starts (R419). -/
def State.dmaWaits (s : State) (n : Nat) (d : Desc) : State :=
  if d.wait then if s.on (R.DMA_Cn_STATUS_REQ n) then (s.dmaTakeReq n).dmaStream n d else s.put (R.DMA_Cn_STATUS_STATE n) 2
  else (s.setDma n { s.dmaCh n with hop := none }).dmaStream n d

/-- REQ sets; a channel that waits for it goes on (R419). -/
def State.dmaRequest (s : State) (n : Nat) (hop : Cause) : State :=
  let s := if s.on (R.DMA_Cn_STATUS_REQ n) then s
    else (s.setDma n { s.dmaCh n with reqHop := hop }).put (R.DMA_Cn_STATUS_REQ n) 1
  match (s.dmaCh n).desc with
  | some d => s.when (s.dmaState n == 2) fun s => s.dmaWaits n d
  | none => s

/-- A write of `v` to DMA_Cn_REQ. -/
def dmaReqWrite (n v : Nat) (s : State) : State := s.when (bit v 0) fun s => s.dmaRequest n none

/-- STOP (R422, R423): at once at a boundary, otherwise when the descriptor in progress ends. -/
def State.dmaStop (s : State) (n : Nat) : State :=
  let x := s.dmaCh n
  match s.dmaState n with
  | 1 => if x.fetch then (s.setDma n { x with fetch := false }).put (R.DMA_Cn_STATUS_STATE n) 4
         else s.setDma n { x with stop := true }
  | 2 | 3 => (s.setDma n { x with desc := none }).put (R.DMA_Cn_STATUS_STATE n) 4
  | _ => s

/-- START (R422). -/
def State.dmaStart (s : State) (n : Nat) : State :=
  let go (s : State) : State := (s.setDma n { s.dmaCh n with fetch := true, desc := none, stop := false }).put (R.DMA_Cn_STATUS_STATE n) 1
  match s.dmaState n with
  | 0 | 5 => go (s.put (R.DMA_Cn_CUR_ADDR n) (s.get (R.DMA_Cn_HEAD_ADDR n) * 32))
  | 4 => go s
  | _ => s

/-- A write of `v` to DMA_Cn_CTRL; STOP governs over START (R423). -/
def dmaCtrlWrite (n v : Nat) (s : State) : State :=
  if bit v 1 then s.dmaStop n else if bit v 0 then s.dmaStart n else s

/-- A write of `v` to DMA_Cn_HEAD, ignored outside IDLE, STOPPED and ERROR (R422). -/
def dmaHeadWrite (n v : Nat) (s : State) : State :=
  let st := s.dmaState n
  if st = 0 ∨ st = 4 ∨ st = 5 then s.wr (R.DMA_Cn_HEAD n) (BitVec.ofNat 32 (v / 32 * 32)) else s

/-- DMA_START (R422). -/
def execDmaStart (q : Requester) (n : Fin 32) (s : State) : Out := regWrite q (R.DMA_Cn_CTRL n) (dmaCtrlWrite n 1) s
/-- DMA_STOP (R422). -/
def execDmaStop (q : Requester) (n : Fin 32) (s : State) : Out := regWrite q (R.DMA_Cn_CTRL n) (dmaCtrlWrite n 2) s
/-- DMA_REQ_WRITE (R419). -/
def execDmaReqWrite (q : Requester) (n : Fin 32) (s : State) : Out := regWrite q (R.DMA_Cn_REQ n) (dmaReqWrite n 1) s
/-- DMA_STREAM_READY (R419): LEN bytes of the stream wait. -/
def execDmaStreamReady (n : Fin 32) (s : State) : Out :=
  .next (match (s.dmaCh n).desc with
    | some d => if s.dmaState n == 3 then s.dmaStream n d else s
    | none => s)

end Sys2Proof.Machine
end

