-- ==== Sys2Proof/Machine/Eth.lean ====
section
/-!
DEFINITION. The Ethernet ports and PTP time (spec/16, R360 to R374).
-/
namespace Sys2Proof.Machine

/-! ### Rings -/

/-- An Ethernet port beside its registers. -/
def State.ethPort (s : State) (p : Nat) : EthPort := s.eth.get {} p
/-- Change it. -/
def State.setEth (s : State) (p : Nat) (x : EthPort) : State := { s with eth := s.eth.set p x }

/-- The VLAN of ring `r` on port `p`. -/
def State.ethVlan (s : State) (p r : Nat) : Nat := s.vlan.get 0 (8 * p + r)
/-- Does ring `r` of port `p` exist? -/
def State.ethRing (s : State) (p r : Nat) : Bool := r == 8 || s.ethVlan p r != 0
/-- The owner of ring `r`. -/
def ringOwner (r : Nat) : Nat := if r = 8 then platform else r
/-- The engine of port `p` acting for ring `r` (R387). -/
def ethWho (p r : Nat) : Who := match p with | 0 => ⟨.eth 0, ringOwner r⟩ | _ => ⟨.eth 1, ringOwner r⟩
/-- Does the logic of port `p` run? Its receive domain is 86 + 2 p, its transmit domain 87 + 2 p. -/
def State.ethRuns (s : State) (p : Nat) (tx : Bool) : Bool :=
  let d := 86 + 2 * p + tx.toNat
  s.running d && !s.domReset d

/-- RXSUM bit of ring `r` follows its waiting frames; on its rise ETHp_RX and the vector source (Table 16.4, Table 16.6). -/
def State.settleRing (s : State) (p r : Nat) : State :=
  let full := decide (s.get (R.ETH_Pp_Rr_CTRL_WATERMARK p r) ≤ ((s.ethPort p).waiting.get [] r).length)
  let was := s.bitOn (R.ETH_Pp_RXSUM_RING p) r
  (s.putBit (R.ETH_Pp_RXSUM_RING p) r full).when (full && !was) fun s => (s.raise (716 + 4 * p)).source r (2 * p)

/-- A software write of TAIL of the receive ring: the descriptors from the old TAIL on are posted again (R363). -/
def State.rxPost (s : State) (p r tail : Nat) : State :=
  let old := s.get (R.ETH_Pp_Rr_RXPTR_TAIL p r)
  let size := s.get (R.ETH_Pp_Rr_SIZE_RXSIZE p r)
  let x := s.ethPort p
  let gone (i : Nat) : Bool := decide ((i + size - old) % size < (tail + size - old) % size)
  ((s.put (R.ETH_Pp_Rr_RXPTR_TAIL p r) tail).setEth p
    { x with waiting := x.waiting.set r ((x.waiting.get [] r).filter fun i => !gone i) }).settleRing p r

/-- A write of `v` to a TXPTR or RXPTR; one of a ring that does not exist is ignored. -/
def ethPtrWrite (p r : Nat) (rx : Bool) (v : Nat) (s : State) : State :=
  if !s.ethRing p r then s
  else if rx then s.rxPost p r (v % 4096) else s.put (R.ETH_Pp_Rr_TXPTR_TAIL p r) v

/-! ### Frames -/

/-- Byte `i` of a frame. -/
def byteOf (f : List Byte) (i : Nat) : Nat := (f.getD i 0#8).toNat
/-- The two bytes at `i`, most significant first. -/
def be16 (f : List Byte) (i : Nat) : Nat := 256 * byteOf f i + byteOf f (i + 1)
/-- `f` with the bytes from `i` on replaced by `bs`. -/
def splice (f : List Byte) (i : Nat) (bs : List Byte) : List Byte := f.take i ++ bs ++ f.drop (i + bs.length)

/-- One bit step of the reflected CRC-32 of IEEE 802.3. -/
def fcsBit (c : Nat) : Nat := if c % 2 = 1 then (c / 2) ^^^ 0xEDB88320 else c / 2
/-- One byte into the FCS register. -/
def fcsByte (c : Nat) (b : Byte) : Nat := fcsBit (fcsBit (fcsBit (fcsBit (fcsBit (fcsBit (fcsBit (fcsBit (c ^^^ b.toNat))))))))
/-- The FCS of a frame, as it stands on the wire. -/
def fcsOf (f : List Byte) : List Byte := leBytes 4 ((f.foldl fcsByte 0xFFFFFFFF) ^^^ 0xFFFFFFFF)

/-- Does the frame carry an outer 802.1Q tag? -/
def tagged (f : List Byte) : Bool := be16 f 12 == 0x8100

/-- The transports over which PTP is recognised (R370). -/
inductive PtpForm where
  | ether | ipv4 | ipv6
  deriving DecidableEq, Repr

/-- Where the PTP message of a frame begins, with its transport and the offset of the UDP header (R370). -/
def ptpAt (f : List Byte) : Option (PtpForm × Nat × Nat) :=
  let t := if tagged f then 16 else 12
  let l := t + 2
  let port (u : Nat) : Bool := be16 f (u + 2) == 319 || be16 f (u + 2) == 320
  if be16 f t = 0x88F7 then some (.ether, l, 0)
  else if be16 f t = 0x0800 then
    let u := l + 4 * (byteOf f l % 16)
    if byteOf f (l + 9) = 17 ∧ port u = true then some (.ipv4, u + 8, u) else none
  else if be16 f t = 0x86DD then
    let u := l + 40
    if byteOf f (l + 6) = 17 ∧ port u = true then some (.ipv6, u + 8, u) else none
  else none

/-- Is ONESTEP allowed: a Sync message over EtherType 0x88F7 or UDP/IPv4 (R371)? -/
def oneStepOk (f : List Byte) : Bool :=
  match ptpAt f with
  | some (.ipv6, _, _) => false
  | some (_, m, _) => byteOf f m % 16 == 0 && decide (m + 44 ≤ f.length)
  | none => false

/-- PTP time of an instant: seconds, and ticks into the second (R373). -/
def State.ptpTime (s : State) (t : Time) : Int × Nat :=
  let x : Int := (t.toNat : Int) + signed 64 s.ptpOfs
  ((s.ptpSec : Int) + x / 32000000000, (x % 32000000000).toNat)

/-- A one-step Sync with originTimestamp and correctionField filled in (R371). -/
def State.oneStep (s : State) (f : List Byte) (t : Time) : List Byte :=
  match ptpAt f with
  | none => f
  | some (form, m, u) =>
    let (sec, tick) := s.ptpTime t
    let corr := leNat ((f.drop (m + 8)).take 8).reverse + tick % 32 * 2048
    let f := splice f (m + 8) (beBytes 8 corr)
    let f := splice f (m + 34) (beBytes 6 (unsigned 48 sec) ++ beBytes 4 (tick / 32))
    if form = .ipv4 then splice f (u + 6) (beBytes 2 0) else f

/-- Padding to 64 bytes and FCS (R365). -/
def onWire (f : List Byte) : List Byte := let g := f ++ List.replicate (60 - f.length) 0#8; g ++ fcsOf g

/-! ### Gate control (R366 to R368) -/

/-- The cycle of a gate list in ticks. -/
def cycleOf (l : List (Nat × Nat)) : Nat := l.foldl (fun a e => a + ns e.2) 0

/-- The runs of a queue's gate from `ph` ticks into the list on: is it open now, and for how long it stays open, none for ever.
The list is walked once more from its start. -/
def openFor (q : Nat) : Nat → List (Nat × Nat) → List (Nat × Nat) → Option Nat
  | ph, (g, i) :: l, again =>
    if ns i ≤ ph then openFor q (ph - ns i) l again
    else if !bit g q then some 0
    else
      let rest := (l ++ again).takeWhile fun e => bit e.1 q
      if rest.length = (l ++ again).length then none else some (cycleOf rest + ns i - ph)
  | _, [], _ => some 0

/-- For how many ticks from now queue `q`'s gate of port `p` stays open: 0 when it is closed, none when it never closes. -/
def State.gclOpen (s : State) (p q : Nat) : Option Nat :=
  let x := s.ethPort p
  if !s.on (R.ETH_Pp_GCL_CTRL_GCL_EN p) || x.oper.isEmpty then none
  else openFor q (s.since x.base % cycleOf x.oper) x.oper x.oper

/-- The longest continuous open window of queue `q` under a list, with wrap (R368): none when it never closes. -/
def longest (q : Nat) (l : List (Nat × Nat)) : Option Nat :=
  if l.all fun e => bit e.1 q then none
  else some ((l ++ l).foldl (fun (a : Nat × Nat) e => if bit e.1 q then (max a.1 (a.2 + ns e.2), a.2 + ns e.2) else (a.1, 0)) (0, 0)).1

/-- Ticks times 5 that a frame of `n` bytes with FCS takes with its preamble and interframe gap, at 25.6 ticks a byte. -/
def wireTime5 (n : Nat) : Nat := (n + 20) * 128

/-- Bytes of a head frame on the wire. -/
def EthHead.size (h : EthHead) : Nat := max 64 (h.frame.length + 4)
/-- The queue of a head frame: its PCP (R364). -/
def EthHead.queue (h : EthHead) : Nat := bitsOf h.flags 2 3

/-- Does a head frame fit no window of its queue (R368)? A queue with no open entry holds its frames. -/
def State.noWindow (s : State) (p : Nat) (h : EthHead) : Bool :=
  let x := s.ethPort p
  s.on (R.ETH_Pp_GCL_CTRL_GCL_EN p) && !x.oper.isEmpty &&
    (match longest h.queue x.oper with
     | none => false
     | some w => w != 0 && decide (5 * w < wireTime5 h.size))

/-- Is now the first instant ADMIN_BASE + k cycles at which the admin list may take over: at or after the end of the operating cycle in
progress at the CHANGE write, and 2.0 µs after it (R367)? -/
def State.gclQualifies (s : State) (p : Nat) : Bool :=
  let x := s.ethPort p
  let n := s.get (R.ETH_Pp_GCL_CTRL_ADMIN_LEN p)
  let cyc := ((List.range n).foldl fun a k => a + ns (s.get (R.ETH_Pp_GCLk_INTERVAL p k))) 0
  let base := timeOf (s.get (R.ETH_Pp_GCL_BASE_LO_BASE_LO p)) (s.get (R.ETH_Pp_GCL_BASE_HI_BASE_HI p))
  match x.changed with
  | none => false
  | some c =>
    let op := cycleOf x.oper
    let rest := if !s.on (R.ETH_Pp_GCL_CTRL_GCL_EN p) || x.oper.isEmpty then 0 else op - (c - x.base).toNat % op
    let first := max base.toNat (c.toNat + max (us 2) rest)
    s.on (R.ETH_Pp_GCL_CTRL_PENDING p) && decide (0 < cyc) && decide (base.toNat ≤ s.now.toNat) && s.since base % cyc == 0 &&
      decide (first ≤ s.now.toNat) && decide (s.now.toNat < first + cyc)

/-- A write of `v` to ETH_Pp_GCL_CTRL (R367): ADMIN_LEN stands while PENDING; CHANGE sets PENDING. -/
def gclCtrlWrite (p v : Nat) (s : State) : State :=
  let pend := s.on (R.ETH_Pp_GCL_CTRL_PENDING p)
  let s := s.put (R.ETH_Pp_GCL_CTRL_GCL_EN p) v
  let s := s.when (!pend) fun s => s.put (R.ETH_Pp_GCL_CTRL_ADMIN_LEN p) (bitsOf v 8 7)
  s.when (bit v 1 && !pend) fun s => (s.put (R.ETH_Pp_GCL_CTRL_PENDING p) 1).setEth p { s.ethPort p with changed := some s.now }

/-- A write of `v` to an admin register of the gate list, ignored while PENDING (R367). -/
def gclAdminWrite (p : Nat) (r : Reg) (v : Nat) (s : State) : State :=
  if s.on (R.ETH_Pp_GCL_CTRL_PENDING p) then s else s.wr r (BitVec.ofNat 32 v)

/-! ### Transmission -/

/-- Address of the descriptor at the head of a transmit ring. -/
def State.txDescAt (s : State) (p r : Nat) : Nat := s.get (R.ETH_Pp_Rr_TXBASE_BASE p r) * 16 + 16 * s.get (R.ETH_Pp_Rr_TXPTR_HEAD p r)

/-- The head descriptor of a transmit ring is written back and HEAD advances (R363). -/
def State.txDone (s : State) (p r flags status : Nat) (stamp : Option Time) : State :=
  let a := s.txDescAt p r
  let w := ethWho p r
  let s := if s.reach w.req w.view false .write a 16 then
      let s := (s.memWrite w (a + 7) (leBytes 1 status)).2
      match stamp with | some t => (s.memWrite w (a + 8) (leBytes 8 t.toNat)).2 | none => s
    else s.refuse w.req w.view .write a 16
  let s := s.put (R.ETH_Pp_Rr_TXPTR_HEAD p r) ((s.get (R.ETH_Pp_Rr_TXPTR_HEAD p r) + 1) % s.get (R.ETH_Pp_Rr_SIZE_TXSIZE p r))
  let x := s.ethPort p
  (s.setEth p { x with heads := x.heads.drop (· == r) }).when (bit flags 5) fun s => (s.raise (717 + 4 * p)).source r (2 * p + 1)

/-- The port takes the head descriptor of ring `r` and reads its frame: the head frame, or the status of Table 16.2, with the
descriptor's FLAGS. -/
def State.txTake (s : State) (p r : Nat) : Nat × Except Nat (List Byte) × State :=
  let w := ethWho p r
  let a := s.txDescAt p r
  if !s.reach w.req w.view false .read a 16 then (0, .error 1, s.refuse w.req w.view .read a 16)
  else match s.memRead w a 16 with
    | (none, s) => (0, .error 2, s)
    | (some d, s) =>
      let addr := leNat (d.take 4)
      let len := leNat ((d.drop 4).take 2)
      let fl := byteOf d 6
      if 64 ≤ fl ∨ len < 14 ∨ 1514 < len then (fl, .error 1, s)
      else if !s.reach w.req w.view false .read addr len then (fl, .error 1, s.refuse w.req w.view .read addr len)
      else match s.memEgress w addr len with
        | (none, s) => (fl, .error 2, s)
        | (some f, s) =>
          if (r < 8 ∧ tagged f = true) ∨ (bit fl 1 = true ∧ oneStepOk f = false) then (fl, .error 1, s)
          else if r < 8 then (fl, .ok (splice (f.take 12 ++ [0, 0, 0, 0] ++ f.drop 12) 12
              (beBytes 2 0x8100 ++ beBytes 2 (bitsOf fl 2 3 * 8192 + s.ethVlan p r))), s)
          else (fl, .ok f, s)

/-- Ring `r` takes descriptors until it has a head frame that some window fits, or none is posted. The first argument bounds
the number of descriptors. -/
def State.txFill : Nat → Nat → Nat → State → State
  | 0, _, _, s => s
  | n + 1, p, r, s =>
    match (s.ethPort p).heads.find? fun e => e.1 == r with
    | some (_, h) => if s.noWindow p h then State.txFill n p r (s.txDone p r h.flags 3 none) else s
    | none =>
      if !s.ethRing p r || !s.on (R.ETH_Pp_Rr_CTRL_TX_EN p r) || s.get (R.ETH_Pp_Rr_SIZE_TXSIZE p r) == 0 ||
          s.get (R.ETH_Pp_Rr_TXPTR_HEAD p r) == s.get (R.ETH_Pp_Rr_TXPTR_TAIL p r) then s
      else
        let (fl, f, s) := s.txTake p r
        match f with
        | .error e => State.txFill n p r (s.txDone p r fl e none)
        | .ok f => let x := s.ethPort p
                   State.txFill n p r (s.setEth p { x with heads := x.heads.set r ⟨fl, f⟩ })

/-- The ring that queue `q` serves next: in ascending order from the one after the last served (R364). -/
def EthPort.nextRing (x : EthPort) (q : Nat) : Option Nat :=
  let l := x.served.get 8 q
  ((List.range 9).map fun i => (l + 1 + i) % 9).find? fun r =>
    match x.heads.find? fun e => e.1 == r with | some (_, h) => h.queue == q | none => false

/-- The head frame of ring `r`, if queue `q` may send it now (R366). -/
def State.mayStart (s : State) (p q r : Nat) : Option EthHead :=
  match (s.ethPort p).heads.find? fun e => e.1 == r with
  | none => none
  | some (_, h) => match s.gclOpen p q with
    | none => some h
    | some w => if wireTime5 h.size ≤ 5 * w then some h else none

/-- A head frame starts (R365, R370, R371): its first bit after the SFD passes 204.8 ticks later, recorded to within 1.0 ns. -/
def State.txBegin (s : State) (p q r : Nat) (h : EthHead) : State :=
  let (v, s) := s.fresh
  let x := s.ethPort p
  let t := s.now + BitVec.ofNat 64 (205 - 31 + v % 63 + s.get (R.ETH_Pp_TSLAT_EGRESS p))
  let f := if bit h.flags 1 then s.oneStep h.frame t else h.frame
  s.setEth p { x with served := x.served.set q r,
                      wire := some ⟨some r, h.flags, t, s.now + BitVec.ofNat 64 ((wireTime5 h.size + 4) / 5), onWire f⟩ }

/-- The frame on the wire has ended: its descriptor is written back (R363). -/
def State.txEnd (s : State) (p : Nat) : State :=
  let x := s.ethPort p
  match x.wire with
  | none => s
  | some w =>
    let s := s.setEth p { x with wire := none }
    match w.ring with
    | none => s
    | some r => s.txDone p r w.flags 0 (if w.flags % 4 = 0 then none else some w.stamp)

/-- Transmission selection (R366). -/
def State.txSelect (s : State) (p : Nat) : State :=
  match (s.ethPort p).wire with
  | some w => if s.reached w.done then go (s.txEnd p) else s
  | none => go s
where
  go (s : State) : State :=
    if !s.ethRuns p true then s
    else
      let s := s.each (List.range 9) fun r t => t.txFill 8192 p r
      if !s.on (R.ETH_Pp_STATUS_LINK_UP p) then s
      else
        let pick := (List.range 8).reverse.findSome? fun q =>
          match (s.ethPort p).nextRing q with
          | some r => match s.mayStart p q r with | some h => some (q, r, h) | none => none
          | none => none
        match pick with
        | some (q, r, h) => s.txBegin p q r h
        | none => s

/-! ### Reception -/

/-- Does ring `r` accept a destination address (R362)? -/
def State.ethAccepts (s : State) (p r : Nat) (f : List Byte) : Bool :=
  let mac := leBytes 4 (s.get (R.ETH_Pp_Rr_MAC_LO_MAC_LO p r)) ++ leBytes 2 (s.get (R.ETH_Pp_Rr_CTRL_MAC_HI p r))
  let d := f.take 6
  d == mac || d == List.replicate 6 0xFF#8 || (byteOf d 0 % 2 == 1 && s.on (R.ETH_Pp_Rr_CTRL_MCAST p r)) ||
    (r == 8 && d == [0x01, 0x80, 0xC2, 0x00, 0x00, 0x0E])

/-- A frame is stored in the ring's next buffer (R362, R363, R370); a ring that cannot take it counts FULL. -/
def State.rxStore (s : State) (p r : Nat) (f : List Byte) (t : Time) : State :=
  let w := ethWho p r
  let full (s : State) : State := s.incSat (R.ETH_Pp_DROPS_FULL p)
  let size := s.get (R.ETH_Pp_Rr_SIZE_RXSIZE p r)
  let head := s.get (R.ETH_Pp_Rr_RXPTR_HEAD p r)
  let a := s.get (R.ETH_Pp_Rr_RXBASE_BASE p r) * 16 + 16 * head
  if !s.on (R.ETH_Pp_Rr_CTRL_RX_EN p r) || size == 0 || head == s.get (R.ETH_Pp_Rr_RXPTR_TAIL p r) then full s
  else if !s.reach w.req w.view false .write a 16 then full (s.refuse w.req w.view .write a 16)
  else match s.memRead w a 4 with
    | (none, s) => full s
    | (some d, s) =>
      let buf := leNat d
      let tag := tagged f
      let g := if tag then f.take 12 ++ f.drop 16 else f
      if !s.reach w.req w.view false .write buf g.length then full (s.refuse w.req w.view .write buf g.length)
      else
        let (ok, s) := s.memWrite w buf g
        if !ok then full s
        else
          let (v, s) := s.fresh
          let st := t + BitVec.ofNat 64 (v % 65) - BitVec.ofNat 64 (32 + s.get (R.ETH_Pp_TSLAT_INGRESS p))
          let fl := (ptpAt f).isSome.toNat + (if tag then 4 * (byteOf f 14 / 32) + 32 else 0)
          let s := (s.memWrite w (a + 4) (leBytes 2 g.length ++ leBytes 1 fl ++ leBytes 1 0 ++ leBytes 8 st.toNat)).2
          let x := s.ethPort p
          ((s.put (R.ETH_Pp_Rr_RXPTR_HEAD p r) ((head + 1) % size)).setEth p
            { x with waiting := x.waiting.upd [] r (· ++ [head]) }).settleRing p r

/-- A frame for ring `r` enters the 256 KiB buffer of port `p` (Table 1.5, R362); one that does not fit is counted in FULL. -/
def State.ethEnter (s : State) (p r : Nat) (f : List Byte) (t : Time) : State :=
  let x := s.ethPort p
  if 262144 < x.buf.foldl (fun k e => k + e.bytes.length) f.length then s.incSat (R.ETH_Pp_DROPS_FULL p)
  else s.setEth p { x with buf := x.buf ++ [⟨r, f, t⟩] }

/-- The engine of port `p` moves the oldest frame of its buffer to the ring's buffer in SRAM (R362). -/
def State.ethMove (s : State) (p : Nat) : State :=
  let x := s.ethPort p
  match x.buf with
  | [] => s
  | e :: es => (s.setEth p { x with buf := es }).rxStore p e.ring e.bytes e.time

/-- A received frame, from destination address to FCS, whose time-stamp point passed at `t` (R362): it has ended, at 25.6 ticks a byte. -/
def State.ethReceive (s : State) (p : Nat) (fr : List Byte) (t : Time) : State :=
  let f := fr.take (fr.length - 4)
  if !s.ethRuns p false || !s.on (R.ETH_Pp_STATUS_LINK_UP p) || !s.reached t || decide (5 * s.since t < 128 * fr.length) then s
  else if fr.drop (fr.length - 4) != fcsOf f then s.incSat (R.ETH_Pp_DROPS_FCS p)
  else if fr.length < 64 || (if tagged f then 1522 else 1518) < fr.length then s.incSat (R.ETH_Pp_DROPS_SIZE p)
  else
    let vid := if tagged f then be16 f 14 % 4096 else 0
    let ring := if vid = 0 then some 8 else (List.range 8).find? fun r => s.ethVlan p r == vid
    match ring with
    | none => s.incSat (R.ETH_Pp_DROPS_NOVLAN p)
    | some r => if s.ethAccepts p r f then (s.ethEnter p r f t).ethMove p else s

/-! ### Link, capture and time -/

/-- Block lock and hi-BER of port `p` (R361); the frame on the wire at a loss is sent again. -/
def State.ethLink (s : State) (p : Nat) (lock hiBer : Bool) : State :=
  let up := lock && !hiBer
  let was := s.on (R.ETH_Pp_STATUS_LINK_UP p)
  let s := ((s.putB (R.ETH_Pp_STATUS_BLOCK_LOCK p) lock).putB (R.ETH_Pp_STATUS_HI_BER p) hiBer).putB (R.ETH_Pp_STATUS_LINK_UP p) up
  if up = was then s
  else
    let s := s.when (!up) fun s => s.setEth p { s.ethPort p with wire := none }
    (s.put (R.ETH_Pp_STATUS_LINK_CHG p) 1).raise (719 + 4 * p)

/-- An event at ETHp_CAPTURE (R374). -/
def State.ethCapture (s : State) (p : Nat) (cause : Cause) : State :=
  ((s.putTime (R.ETH_Pp_CAP_LO p) (R.ETH_Pp_CAP_HI p) s.now).put (R.ETH_Pp_STATUS_CAP_DONE p) 1).emit (718 + 4 * p) cause

/-- A write of `v` to ETH_PTP_OFS_HI applies OFS (R373). -/
def ptpOfsWrite (v : Nat) (s : State) : State :=
  { s.wr R.ETH_PTP_OFS_HI (BitVec.ofNat 32 v) with ptpOfs := s.get R.ETH_PTP_OFS_LO_OFS_LO + v % 2 ^ 32 * 2 ^ 32 }
/-- A write of `v` to ETH_PTP_SEC_HI applies SEC (R373). -/
def ptpSecWrite (v : Nat) (s : State) : State :=
  { s.wr R.ETH_PTP_SEC_HI (BitVec.ofNat 32 (v % 65536)) with ptpSec := s.get R.ETH_PTP_SEC_LO_SEC_LO + v % 65536 * 2 ^ 32 }

/-- Ring `r` of both ports at a reset of its partition (R369): registers and queued frames go, a frame on the wire completes
without write-back. -/
def State.ethRingReset (s : State) (p r : Nat) : State :=
  let x := s.ethPort p
  let x := { x with buf := x.buf.filter (·.ring != r), heads := x.heads.drop (· == r), waiting := x.waiting.drop (· == r),
                    wire := x.wire.map fun w => if w.ring = some r then { w with ring := none } else w }
  (s.setEth p x).putBit (R.ETH_Pp_RXSUM_RING p) r false

/-! ### Commands -/

/-- ETH_RX_FRAME (R362). -/
def execEthRxFrame (p : Fin 2) (fr : List Byte) (t : Time) (s : State) : Out := .next (s.ethReceive p fr t)
/-- ETH_TX_SELECT (R366). -/
def execEthTxSelect (p : Fin 2) (s : State) : Out := .next (s.txSelect p)
/-- ETH_TAIL_WRITE (R363). -/
def execEthTailWrite (q : Requester) (p : Fin 2) (r : Fin 9) (rx : Bool) (tail : BitVec 12) (s : State) : Out :=
  regWrite q (if rx then R.ETH_Pp_Rr_RXPTR p r else R.ETH_Pp_Rr_TXPTR p r) (ethPtrWrite p r rx tail.toNat) s
/-- GCL_CHANGE (R367): a write of `v` to ETH_Pp_GCL_CTRL with CHANGE set. -/
def execGclChange (q : Requester) (p : Fin 2) (v : Word) (s : State) : Out :=
  regWrite q (R.ETH_Pp_GCL_CTRL p) (gclCtrlWrite p v.toNat) s
/-- GCL_SWITCH (R367). -/
def execGclSwitch (p : Fin 2) (s : State) : Out :=
  .next (if !s.gclQualifies p then s
    else
      let l := (List.range (s.get (R.ETH_Pp_GCL_CTRL_ADMIN_LEN p))).map fun k =>
        (s.get (R.ETH_Pp_GCLk_GATES p k), s.get (R.ETH_Pp_GCLk_INTERVAL p k))
      (s.put (R.ETH_Pp_GCL_CTRL_PENDING p) 0).setEth p
        { s.ethPort p with oper := l, changed := none,
                           base := timeOf (s.get (R.ETH_Pp_GCL_BASE_LO_BASE_LO p)) (s.get (R.ETH_Pp_GCL_BASE_HI_BASE_HI p)) })
/-- ETH_LINK_CHANGE (R361). -/
def execEthLinkChange (p : Fin 2) (lock hiBer : Bool) (s : State) : Out := .next (s.ethLink p lock hiBer)
/-- TIME_RATE_WRITE (R372): the rate of device time against the main reference, which no other state shows. -/
def execTimeRateWrite (q : Requester) (v : Word) (s : State) : Out :=
  regWrite q R.ETH_TIME_RATE (fun s => s.wr R.ETH_TIME_RATE v) s
/-- PTP_OFS_APPLY (R373). -/
def execPtpOfsApply (q : Requester) (v : Word) (s : State) : Out := regWrite q R.ETH_PTP_OFS_HI (ptpOfsWrite v.toNat) s
/-- PTP_SEC_APPLY (R373). -/
def execPtpSecApply (q : Requester) (v : Word) (s : State) : Out := regWrite q R.ETH_PTP_SEC_HI (ptpSecWrite v.toNat) s

end Sys2Proof.Machine
end

