-- ==== Sys2Proof/Machine/Ses.lean ====
section
/-!
DEFINITION. Sessions and the context store (spec/15): the identifier index, contexts, commands, keys, receiving and folding, and
the receive queues.
-/
namespace Sys2Proof.Machine

/-- Does the session engine run: its domain has a clock (spec/15)? -/
def State.sesRuns (s : State) : Bool := s.running 24 && !s.domReset 24

/-! ### Contexts in the store (Table 15.1, R359) -/

/-- Address of context `n`. -/
def ctxAddr (n : Nat) : Nat := 0x20000000 + 48 * n
/-- The session engine acting for partition `p`. -/
def sesWho (p : Nat) : Who := ⟨.session, p⟩
/-- The 48 bytes of context `n`. -/
def State.ctx (s : State) (n : Nat) : List Byte := s.bytesAt (ctxAddr n) 48
/-- A little-endian field of context bytes. -/
def ctxField (c : List Byte) (o n : Nat) : Nat := leNat ((c.drop o).take n)
/-- Replace a field of context bytes. -/
def ctxSet (c : List Byte) (o n v : Nat) : List Byte := c.take o ++ leBytes n v ++ c.drop (o + n)
/-- Write a context back. -/
def State.putCtx (s : State) (p n : Nat) (c : List Byte) : State := (s.memWrite (sesWho p) (ctxAddr n) c).2
/-- A bit of a context's FLAGS byte. -/
def ctxFlag (c : List Byte) (k : Nat) : Bool := bit (ctxField c 12 1) k
/-- Set a bit of FLAGS. -/
def ctxSetFlag (c : List Byte) (k : Nat) (b : Bool) : List Byte := ctxSet c 12 1 (setBit (ctxField c 12 1) k b)
/-- OWNER of a context. -/
def ctxOwner (c : List Byte) : Nat := ctxField c 13 1 % 8

/-! ### The index (R342 to R345) -/

/-- A key: KIND, OWNER and eight identifier bytes. -/
structure SesKey where
  kind  : Nat
  owner : Nat
  id    : Nat
  deriving DecidableEq, Repr

/-- The string K. -/
def SesKey.bytes (k : SesKey) : List Byte := leBytes 1 k.kind ++ leBytes 1 k.owner ++ leBytes 8 k.id
/-- Bucket h1. -/
def SesKey.h1 (k : SesKey) : Nat := crc32c k.bytes % 2 ^ 18
/-- Bucket h2. -/
def SesKey.h2 (k : SesKey) : Nat := let h := crc32c (k.bytes ++ [0x5A#8]) % 2 ^ 18; if h = k.h1 then k.h1 ^^^ 1 else h
/-- TAG. -/
def SesKey.tag (k : SesKey) : Nat := crc32c k.bytes / 2 ^ 22 % 1024
/-- The index entry of a key for context `n`. -/
def SesKey.entry (k : SesKey) (n : Nat) : Nat := 2 ^ 31 + k.kind * 2 ^ 30 + k.tag * 2 ^ 20 + n

/-- The keys that context bytes yield: extended, and short with SHORT_VALID. -/
def ctxExtKey (c : List Byte) : SesKey := ⟨0, ctxOwner c, ctxField c 0 8⟩
/-- The short key. -/
def ctxShortKey (c : List Byte) : SesKey := ⟨1, ctxOwner c, ctxField c 8 2 + 65536 * ctxField c 10 2⟩
/-- The key of a kind. -/
def ctxKey (c : List Byte) (kind : Nat) : SesKey := if kind = 0 then ctxExtKey c else ctxShortKey c

/-- Address of entry `i` of bucket `b`. -/
def entryAddr (b i : Nat) : Nat := 0x23000000 + 32 * b + 4 * i
/-- Entry `i` of bucket `b`. -/
def State.entry (s : State) (b i : Nat) : Nat := s.numAt (entryAddr b i) 4
/-- Write it. -/
def State.putEntry (s : State) (b i v : Nat) : State := (s.memWrite (sesWho platform) (entryAddr b i) (leBytes 4 v)).2

/-- Where an entry stands. -/
inductive Place where
  | bucket (b i : Nat)
  | stash (i : Nat)
  deriving DecidableEq, Repr

/-- The entry at a place. -/
def State.placed (s : State) : Place → Nat
  | .bucket b i => s.entry b i
  | .stash i => s.ses.stash.get 0 i

/-- The places a lookup of `k` examines. -/
def SesKey.places (k : SesKey) : List Place :=
  ((List.range 8).map fun i => .bucket k.h1 i) ++ ((List.range 8).map fun i => .bucket k.h2 i) ++ (List.range 64).map fun i => .stash i

/-- Does an entry match key `k`, its context yielding the same key? -/
def State.matchesKey (s : State) (k : SesKey) (e : Nat) : Bool :=
  bit e 31 && (e / 2 ^ 30 % 2 == k.kind) && (e / 2 ^ 20 % 1024 == k.tag) && ctxKey (s.ctx (e % 2 ^ 20)) k.kind == k

/-- The place of key `k` in the index. -/
def State.findPlace (s : State) (k : SesKey) : Option Place := k.places.find? fun p => s.matchesKey k (s.placed p)
/-- The context of key `k` (R343). -/
def State.lookup (s : State) (k : SesKey) : Option Nat := (s.findPlace k).map fun p => s.placed p % 2 ^ 20

/-- The bytes of the store that a lookup of `k` reads (R343): both buckets, and the context of each entry whose KIND and TAG match. -/
def State.lookupReads (s : State) (k : SesKey) : List (Nat × Nat) :=
  let hit (e : Nat) : Bool := bit e 31 && (e / 2 ^ 30 % 2 == k.kind) && (e / 2 ^ 20 % 1024 == k.tag)
  [(entryAddr k.h1 0, 32), (entryAddr k.h2 0, 32)] ++
    ((k.places.map fun p => s.placed p).filter hit).map fun e => (ctxAddr (e % 2 ^ 20), 48)

/-- The engine reads bytes of the store for partition `p` under ECC (R411): false where a line is uncorrectable. -/
def State.sesReads (s : State) (p : Nat) (l : List (Nat × Nat)) : Bool × State :=
  l.foldl (fun r e => let (b, t) := r.2.memRead (sesWho p) e.1 e.2; (r.1 && b.isSome, t)) (true, s)

/-- STASH follows the stash. -/
def State.setStash (s : State) (t : Tab Nat) : State :=
  ({ s with ses := { s.ses with stash := t } } : State).put R.SES_INDEX_STASH ((List.range 64).filter fun i => bit (t.get 0 i) 31).length

/-- Insert key `k` for context `n` (R344): the code when it fails. -/
def State.insertKey (s : State) (k : SesKey) (n : Nat) : Except Nat State :=
  if (s.lookup k).isSome then .error 2
  else
    let free (b : Nat) : List Nat := (List.range 8).filter fun i => !bit (s.entry b i) 31
    let f1 := free k.h1
    let f2 := free k.h2
    let (b, f) := if f1.length < f2.length then (k.h2, f2) else (k.h1, f1)
    match f with
    | i :: _ => .ok (s.putEntry b i (k.entry n))
    | [] =>
      match (List.range 64).find? fun i => !bit (s.ses.stash.get 0 i) 31 with
      | some i => .ok (s.setStash (s.ses.stash.set i (k.entry n)))
      | none => .error 4

/-- Remove key `k` (R345): the first stashed entry that belongs to the freed bucket moves into the freed entry. -/
def State.removeKey (s : State) (k : SesKey) : State :=
  match s.findPlace k with
  | none => s
  | some (.stash i) => s.setStash (s.ses.stash.set i 0)
  | some (.bucket b i) =>
    let home (e : Nat) : Bool := bit e 31 && (let c := ctxKey (s.ctx (e % 2 ^ 20)) (e / 2 ^ 30 % 2); c.h1 == b || c.h2 == b)
    match (List.range 64).find? fun j => home (s.ses.stash.get 0 j) with
    | some j => (s.putEntry b i (s.ses.stash.get 0 j)).setStash (s.ses.stash.set j 0)
    | none => s.putEntry b i 0

/-! ### The receive queue (R355) -/

/-- The bytes of an entry before its frame (Table 15.5). -/
def rxHead (kind src len ctx : Nat) (t : Time) (new faults sec snr mod fc : Nat) : List Byte :=
  leBytes 1 kind ++ leBytes 1 src ++ leBytes 2 len ++ leBytes 4 ctx ++ leBytes 8 t.toNat ++ leBytes 4 new ++ leBytes 4 faults
    ++ leBytes 1 sec ++ leBytes 1 snr ++ leBytes 1 mod ++ leBytes 1 0 ++ leBytes 4 fc ++ List.replicate 32 0#8

/-- WATERMARK or more entries wait in the queue of partition `p`: SESp_RX is raised (R355). DESIGN CHOICE (log 58): it is raised at each
change of the queue or of WATERMARK that leaves so many. -/
def State.rxLevel (s : State) (p : Nat) : State :=
  let size := s.get (R.SES_Pp_RXSIZE_SIZE p)
  let n := if size = 0 then 0 else (s.get (R.SES_Pp_RXPTR_WRPTR p) + size - s.get (R.SES_Pp_RXPTR_RDPTR p)) % size
  s.when (0 < n && decide (s.get (R.SES_Pp_RXCFG_WATERMARK p) ≤ n)) fun s => s.raise (708 + p)

/-- A write of `v` to SES_Pp_RXPTR. -/
def sesPtrWrite (p v : Nat) (s : State) : State := (s.put (R.SES_Pp_RXPTR_RDPTR p) v).rxLevel p
/-- A write of `v` to SES_Pp_RXCFG. -/
def sesCfgWrite (p v : Nat) (s : State) : State := (s.wr (R.SES_Pp_RXCFG p) (BitVec.ofNat 32 (v &&& 0x10FFF))).rxLevel p

/-- An entry for the queue of partition `p` is written, or dropped; the answer says which. -/
def State.rxPut (s : State) (p : Nat) (e : List Byte) : Bool × State :=
  let size := s.get (R.SES_Pp_RXSIZE_SIZE p)
  let wr := s.get (R.SES_Pp_RXPTR_WRPTR p)
  let rd := s.get (R.SES_Pp_RXPTR_RDPTR p)
  let a := s.get (R.SES_Pp_RXBASE_BASE p) * 64 + 1344 * wr
  if size = 0 ∨ (wr + 1) % size = rd then (false, s.incSat (R.SES_Pp_RXSTAT_DROPS p))
  else if !s.reach .session p false .write a e.length then
    (false, (s.refuse .session p .write a e.length).incSat (R.SES_Pp_RXSTAT_DROPS p))
  else
    let (ok, s) := s.memWrite (sesWho p) a e
    if !ok then (false, s.incSat (R.SES_Pp_RXSTAT_DROPS p))
    else
      let wr' := (wr + 1) % size
      let s := s.put (R.SES_Pp_RXPTR_WRPTR p) wr'
      let n := (wr' + size - rd) % size
      let w := s.get (R.SES_Pp_RXCFG_WATERMARK p)
      (true, (s.rxLevel p).when (n == w) fun s => s.source p 4)

/-! ### Folding (R354) -/

/-- What the receive queue says of how a report came (Table 15.5): SEC, SNR, MOD and FC, all 0 for a FOLD command. -/
structure RxInfo where
  sec : Nat := 0
  snr : Nat := 0
  mod : Nat := 0
  fc  : Nat := 0
  deriving DecidableEq, Repr

/-- Fold a report into context `n` of partition `p`; `src` is the port or 0xFF. -/
def State.fold (s : State) (p n src : Nat) (t : Time) (v0 : Nat) (s0 : Bool) (v1 : Nat) (s1 : Bool) (f : Nat) (x : RxInfo := {}) : State :=
  let c := s.ctx n
  let old := ctxField c 32 4
  let faults := old ||| f
  let new := faults - old
  let c := ctxSet c 24 4 (if s0 then v0 else ctxField c 24 4 + v0)
  let c := ctxSet c 28 4 (if s1 then v1 else ctxField c 28 4 + v1)
  let c := ctxSet (ctxSet c 32 4 faults) 36 2 (ctxField c 36 2 + 1)
  let c := if src = 0xFF then ctxSet c 20 4 (t.toNat / 2 ^ 32) else c
  let s := s.putCtx p n c
  if new = 0 then s
  else
    let (ok, s) := s.rxPut p (rxHead 2 src 0 n t new faults x.sec x.snr x.mod x.fc)
    s.when ok fun s => (s.raise (700 + p)).source p 5

/-! ### Commands (R346 to R349) -/

/-- DATA0 to DATA11 of partition `p` as bytes. -/
def State.sesData (s : State) (p : Nat) : List Byte := ((List.range 12).map fun i => leBytes 4 (s.get (R.SES_Pp_DATAi_DATA p i))).flatten

/-- The free context at the head of the list (R346). -/
def Ses.head (x : Ses) : Option (Nat × Ses) :=
  if x.fresh < 1048576 then some (x.fresh, { x with fresh := x.fresh + 1 })
  else match x.retired with
    | n :: ns => some (n, { x with retired := ns })
    | [] => none

/-- Does context data set a reserved field or a reserved encoding? -/
def ctxReserved (c : List Byte) : Bool :=
  bit (ctxField c 13 1) 3 || bit (ctxField c 13 1) 7 || bit (ctxField c 14 1) 7 || decide (4 < bitsOf (ctxField c 14 1) 4 3) || ctxField c 43 1 != 0

/-- LOOKUP: the key of the window's ID. -/
def State.sesLookup (s : State) (p kind : Nat) : SesResult × State :=
  let lo := s.get (R.SES_Pp_ID_LO_ID_LO p)
  let hi := s.get (R.SES_Pp_ID_HI_ID_HI p)
  if kind = 1 ∧ hi ≠ 0 then (⟨6, none, none⟩, s)
  else match s.lookup ⟨kind, p, lo + 2 ^ 32 * hi⟩ with
    | some n => (⟨0, some n, none⟩, s)
    | none => (⟨1, none, none⟩, s)

/-- The index failure is recorded (R344). -/
def State.indexFailed (s : State) (code : Nat) : State := s.when (code == 4) fun s => s.put R.SES_INDEX_INDEX_FULL 1

/-- CREATE. -/
def State.sesCreate (s : State) (p : Nat) : SesResult × State :=
  let d := s.sesData p
  let s := s.put R.SES_LOOKUPS_COUNT (s.get R.SES_LOOKUPS_COUNT + (ctxFlag d 1).toNat)
  if ctxReserved d then (⟨6, none, none⟩, s)
  else if s.get (R.SES_Pp_QUOTA_QUOTA p) ≤ s.get (R.SES_Pp_USED_USED p) then (⟨3, none, none⟩, s)
  else match s.ses.head with
    | none => (⟨3, none, none⟩, s)
    | some (n, x) =>
      let c := ctxSet (ctxSetFlag d 0 true) 13 1 (ctxField d 13 1 / 8 * 8 + p)
      let t := ({ s with ses := x } : State).putCtx p n c
      let r := do
        let t ← t.insertKey (ctxExtKey c) n
        if ctxFlag c 1 then t.insertKey (ctxShortKey c) n else .ok t
      match r with
      | .ok t => (⟨0, some n, none⟩, (t.inc (R.SES_Pp_USED_USED p)).put R.SES_FREE_FREE (t.get R.SES_FREE_FREE - 1))
      | .error e => (⟨e, none, none⟩, s.indexFailed e)

/-- The fields of the UPDATE groups of `mask` from data `d` (Table 15.3). -/
def ctxUpdate (c d : List Byte) (mask : Nat) : List Byte :=
  let take (o n : Nat) (c : List Byte) : List Byte := ctxSet c o n (ctxField d o n)
  let c := if bit mask 0 then ctxSetFlag (take 8 4 c) 1 (ctxFlag d 1) else c
  let c := if bit mask 1 then
      let c := ctxSetFlag (ctxSetFlag (take 16 4 c) 2 (ctxFlag d 2)) 3 (ctxFlag d 3)
      ctxSet c 14 1 (ctxField c 14 1 / 8 * 8 + ctxField d 14 1 % 8)
    else c
  let c := if bit mask 2 then ctxSet c 12 1 (ctxField c 12 1 % 16 + ctxField d 12 1 / 16 * 16) else c
  let c := if bit mask 3 then take 36 4 (take 24 8 c) else c
  let c := if bit mask 4 then take 32 4 c else c
  let c := if bit mask 5 then
      let c := take 40 3 (take 15 1 c)
      ctxSet c 14 1 (ctxField c 14 1 % 8 + bitsOf (ctxField d 14 1) 3 4 * 8)
    else c
  if bit mask 6 then take 44 4 c else c

/-- UPDATE of context `n`: group 0 replaces the short key as one operation. -/
def State.sesUpdate (s : State) (p n mask : Nat) : SesResult × State :=
  let d := s.sesData p
  if bit mask 7 || (bit mask 5 && decide (4 < bitsOf (ctxField d 14 1) 4 3)) then (⟨6, none, none⟩, s)
  else
    let c := s.ctx n
    let c' := ctxUpdate c d mask
    if !bit mask 0 then (⟨0, none, none⟩, s.putCtx p n c')
    else
      let t := if ctxFlag c 1 then s.removeKey (ctxShortKey c) else s
      let t := t.putCtx p n c'
      match (if ctxFlag c' 1 then t.insertKey (ctxShortKey c') n else .ok t : Except Nat State) with
      | .ok t => (⟨0, none, none⟩, t)
      | .error e => (⟨e, none, none⟩, s.indexFailed e)

/-- READ_CLEAR of context `n`. -/
def State.sesReadClear (s : State) (p n mask : Nat) : SesResult × State :=
  if mask ≠ 8 ∧ mask ≠ 0 then (⟨6, none, none⟩, s)
  else
    let c := s.ctx n
    let clr := s.get (R.SES_Pp_DATAi_DATA p 8)
    let f := ctxField c 32 4
    let c' := ctxSet (ctxSet (ctxSet c 24 8 0) 36 4 0) 32 4 (f - (f &&& clr))
    (⟨0, none, some c⟩, if bit mask 3 then s.putCtx p n c' else s)

/-- RETIRE of context `n` (R346). -/
def State.sesRetire (s : State) (p n : Nat) : SesResult × State :=
  let c := s.ctx n
  let s := s.removeKey (ctxExtKey c)
  let s := if ctxFlag c 1 then s.removeKey (ctxShortKey c) else s
  let s := s.putCtx p n (List.replicate 48 0#8)
  let s := { s with ses := { s.ses with retired := s.ses.retired ++ [n] } }
  (⟨0, none, none⟩, (s.put (R.SES_Pp_USED_USED p) (s.get (R.SES_Pp_USED_USED p) - 1)).inc R.SES_FREE_FREE)

/-- FOLD into context `n`. -/
def State.sesFold (s : State) (p n mask : Nat) : SesResult × State :=
  if 4 ≤ mask then (⟨6, none, none⟩, s)
  else
    let d (i : Nat) : Nat := s.get (R.SES_Pp_DATAi_DATA p i)
    (⟨0, none, none⟩, s.fold p n 0xFF s.now (d 0) (bit mask 0) (d 1) (bit mask 1) (d 2))

/-- The keys that context bytes yield. -/
def ctxKeys (c : List Byte) : List SesKey := if ctxFlag c 1 then [ctxExtKey c, ctxShortKey c] else [ctxExtKey c]

/-- The bytes of the store that command `op` of partition `p` reads (R343 to R348). -/
def State.sesTouches (s : State) (p op kind mask : Nat) : List (Nat × Nat) :=
  let n := s.get (R.SES_Pp_CTX_CTX p)
  let look (ks : List SesKey) : List (Nat × Nat) := (ks.map fun k => s.lookupReads k).flatten
  let mine (c : List Byte) : List Byte := ctxSet c 13 1 (ctxField c 13 1 / 8 * 8 + p)
  match op with
  | 1 => look [⟨kind, p, s.get (R.SES_Pp_ID_LO_ID_LO p) + 2 ^ 32 * s.get (R.SES_Pp_ID_HI_ID_HI p)⟩]
  | 2 => look (ctxKeys (mine (s.sesData p))) ++ match s.ses.head with | some (k, _) => [(ctxAddr k, 48)] | none => []
  | 4 => (ctxAddr n, 48) :: if bit mask 0 then look ((ctxKeys (s.ctx n)).tail ++ (ctxKeys (ctxUpdate (s.ctx n) (s.sesData p) 1)).tail) else []
  | 6 => (ctxAddr n, 48) :: look (ctxKeys (s.ctx n))
  | _ => [(ctxAddr n, 48)]

/-- Run command `op` of partition `p` with KIND and MASK. An access that meets an uncorrectable error ends it with NOT_FOUND (R411). -/
def State.sesRun (s : State) (p op kind mask : Nat) : SesResult × State :=
  let s := s.inc R.SES_LOOKUPS_COUNT
  let n := s.get (R.SES_Pp_CTX_CTX p)
  let (ok, s) := s.sesReads p (s.sesTouches p op kind mask)
  if !ok then (⟨1, none, none⟩, s) else
  let own (f : SesResult × State) : SesResult × State :=
    let c := s.ctx n
    if !ctxFlag c 0 then (⟨1, none, none⟩, s) else if ctxOwner c != p then (⟨5, none, none⟩, s) else f
  match op with
  | 1 => s.sesLookup p kind
  | 2 => s.sesCreate p
  | 3 => own (⟨0, none, some (s.ctx n)⟩, s)
  | 4 => own (s.sesUpdate p n mask)
  | 5 => own (s.sesReadClear p n mask)
  | 6 => own (s.sesRetire p n)
  | 7 => own (s.sesFold p n mask)
  | _ => (⟨6, none, none⟩, s)

/-- A write of `v` to SES_Pp_CMD (R347): GO starts a command; the engine applies it at once, and its result waits for the
command's completion. -/
def sesCmdWrite (p v : Nat) (s : State) : State :=
  if s.on (R.SES_Pp_CSTAT_BUSY p) then s
  else
    let s := s.wr (R.SES_Pp_CMD p) (BitVec.ofNat 32 (v &&& 0x00FF001F))
    if !bit v 31 then s
    else
      let (r, s) := s.sesRun p (v % 16) (v / 16 % 2) (bitsOf v 16 8)
      ({ s with ses := { s.ses with busy := s.ses.busy.set p r } } : State).put (R.SES_Pp_CSTAT_BUSY p) 1

/-- The command of partition `p` completes. -/
def State.sesDone (s : State) (p : Nat) : State :=
  if !s.on (R.SES_Pp_CSTAT_BUSY p) || !s.sesRuns then s
  else
    let r := s.ses.busy.get ⟨0, none, none⟩ p
    let s := { s with ses := { s.ses with busy := s.ses.busy.drop (· == p) } }
    let s := match r.ctx with | some n => s.put (R.SES_Pp_CTX_CTX p) n | none => s
    let s := match r.data with
      | some d => s.each (List.range 12) fun i t => t.put (R.SES_Pp_DATAi_DATA p i) (ctxField d (4 * i) 4)
      | none => s
    ((s.put (R.SES_Pp_CSTAT_CODE p) r.code).put (R.SES_Pp_CSTAT_BUSY p) 0).put (R.SES_Pp_CSTAT_DONE p) 1

/-! ### Keys (R350, R351) -/

/-- A write of `v` to SES_Pp_KEYk_Wj: W3 applies all four words. -/
def sesKeyWrite (p k j : Nat) (v : Word) (s : State) : State :=
  let s := s.wr (R.SES_Pp_KEYk_Wj p k j) v
  if j = 3 then
    let b := ((List.range 4).map fun i => leBytes 4 (s.get (R.SES_Pp_KEYk_Wj_KEY p k i))).flatten
    { s with ses := { s.ses with keys := s.ses.keys.set (8 * p + k) b } }
  else s

/-- A write of `v` to SES_Pp_KEYk_TXFC: a lower value is ignored. -/
def txfcWriteReg (p k v : Nat) (s : State) : State :=
  if v < s.get (R.SES_Pp_KEYk_TXFC_TXFC p k) then s else s.put (R.SES_Pp_KEYk_TXFC_TXFC p k) v

/-- The key in slot `k` of partition `p`. -/
def State.sesKey (s : State) (p k : Nat) : List Byte := s.ses.keys.get (List.replicate 16 0#8) (8 * p + k)

/-- Secure a frame for sending under TX_KEY of context `n` from a port with extended address `ext` (R350): none where the
engine refuses. -/
def State.secure (s : State) (p n ext : Nat) (frame : List Byte) : Option (List Byte) × State :=
  let k := ctxField (s.ctx n) 14 1 % 8
  let fc := s.get (R.SES_Pp_KEYk_TXFC_TXFC p k)
  if !s.on (R.SES_Pp_KEYk_CTRL_VALID p k) || fc == 0xFFFFFFFF then (none, s)
  else (some (Config.ccmSeal (s.sesKey p k) ext fc (s.get (R.SES_Pp_KEYk_CTRL_KEY_ID p k)) frame),
        s.put (R.SES_Pp_KEYk_TXFC_TXFC p k) (fc + 1))

/-! ### Receiving (R352, R353) -/

/-- The key of a frame's source under owner `p`. -/
def frameKey (f : AirFrame) (p : Nat) : SesKey :=
  match f.src with
  | .ext a => ⟨0, p, a.toNat⟩
  | .short pan a => ⟨1, p, a.toNat + 65536 * pan.toNat⟩
  | .broadcast => ⟨1, p, 0xFFFFFFFF⟩

/-- The bytes of the MIC at a security level of IEEE 802.15.4 (R350). -/
def micBytes (level : Nat) : Nat := match level % 4 with | 0 => 0 | 1 => 4 | 2 => 8 | _ => 16

/-- The payload without its MIC. -/
def framePlain (f : AirFrame) : List Byte := if f.secured then f.payload.take (f.payload.length - micBytes f.level) else f.payload

/-- A frame's queue entry. -/
def frameEntry (kind n ctx : Nat) (t : Time) (sec : Nat) (f : AirFrame) (payload : List Byte) : List Byte :=
  let fr := f.header ++ payload
  rxHead kind n fr.length ctx t 0 0 sec f.snr.toNat f.mod (if f.secured then f.fc.toNat else 0) ++ fr

/-- A template field of a payload: its size code and offset (R353). -/
def tmplField (payload : List Byte) (size ofs : Nat) : Nat × Bool :=
  let n := match size with | 1 => 1 | 2 => 2 | 3 => 4 | _ => 0
  (leNat ((payload.drop ofs).take n), decide (ofs + n ≤ payload.length) || n == 0)

/-- Does template `t` of partition `p` match a payload (R353)? -/
def State.tmplMatches (s : State) (p t : Nat) (pl : List Byte) : Bool :=
  let cfg := R.SES_Pp_TMPLt_CFG p t
  let len := s.get ⟨cfg, 0, 11⟩
  let mofs := s.get (R.SES_Pp_TMPLt_CFG_MOFS p t)
  let val := s.get (R.SES_Pp_TMPLt_MVAL_LO_BYTES p t) + 2 ^ 32 * s.get (R.SES_Pp_TMPLt_MVAL_HI_BYTES p t)
  let mask := s.get (R.SES_Pp_TMPLt_MMASK_LO_BYTES p t) + 2 ^ 32 * s.get (R.SES_Pp_TMPLt_MMASK_HI_BYTES p t)
  let fields := [(s.get (R.SES_Pp_TMPLt_FIELDS_C0_SIZE p t), s.get (R.SES_Pp_TMPLt_FIELDS_C0_OFS p t)),
    (s.get (R.SES_Pp_TMPLt_FIELDS_C1_SIZE p t), s.get (R.SES_Pp_TMPLt_FIELDS_C1_OFS p t)),
    (s.get (R.SES_Pp_TMPLt_FIELDS_F_SIZE p t), s.get (R.SES_Pp_TMPLt_FIELDS_F_OFS p t))]
  (len == 0 || len == pl.length) &&
  ((List.range 8).all fun i =>
    let m := mask / 256 ^ i % 256
    let x := match pl[mofs + i]? with | some b => b.toNat | none => 0
    m == 0 || (decide (mofs + i < pl.length) && (x &&& m) == (val / 256 ^ i % 256 &&& m))) &&
  fields.all fun f => (tmplField pl f.1 f.2).2

/-- A frame is rejected with a SEC code (R352). -/
def State.sesReject (s : State) (p n ctx sec : Nat) (t : Time) (f : AirFrame) : State :=
  let c := s.ctx ctx
  let o := if sec = 3 then 39 else 38
  let s := (s.putCtx p ctx (ctxSet c o 1 (min 255 (ctxField c o 1 + 1)))).incSat (R.SES_Pp_RXSTAT_REJECTS p)
  if s.on (R.SES_Pp_RXCFG_REJ_COPY p) then (s.rxPut p (frameEntry 3 n ctx t sec f (framePlain f))).2 else s

/-- The security check of a frame against context bytes `c`: the SEC code of a rejection, or SEC with the plaintext. -/
def State.sesCheck (s : State) (p : Nat) (c : List Byte) (f : AirFrame) : Except Nat (Nat × List Byte) :=
  if f.secured then
    if f.level ≠ 5 ∨ f.keyMode ≠ 1 then .error 5
    else match (List.range 8).find? fun k => s.on (R.SES_Pp_KEYk_CTRL_VALID p k) && s.get (R.SES_Pp_KEYk_CTRL_KEY_ID p k) == f.keyIdx with
      | none => .error 4
      | some k =>
        if ctxFlag c 3 && decide (f.fc.toNat ≤ ctxField c 16 4) then .error 3
        else match Config.ccmOpen (s.sesKey p k) (ctxField c 0 8) f.fc.toNat f.header f.payload with
          | none => .error 2
          | some pl => .ok (1, pl)
  else if ctxFlag c 2 then .error 6
  else .ok (0, f.payload)

/-- The engine handles a frame of port `n` handed over at `t` (R352); an uncorrectable error of the store discards it as a reject
(R411). -/
def State.sesHandle (s : State) (n : Nat) (f : AirFrame) (t : Time) : State :=
  let p := s.owner 7 n
  let s := s.inc R.SES_LOOKUPS_COUNT
  let k := frameKey f p
  let (ok, s) := s.sesReads p (s.lookupReads k)
  if !ok then s.incSat (R.SES_Pp_RXSTAT_REJECTS p) else
  match s.lookup k with
  | none => ((s.rxPut p (frameEntry 1 n 0xFFFFFFFF t 7 f (framePlain f))).2).incSat R.SES_NOCTX_COUNT
  | some ctx =>
    let c := s.ctx ctx
    match s.sesCheck p c f with
    | .error sec => s.sesReject p n ctx sec t f
    | .ok (sec, pl) =>
      let c := if f.secured then ctxSetFlag (ctxSet c 16 4 f.fc.toNat) 3 true else c
      let c := ctxSet (ctxSet c 20 4 (t.toNat / 2 ^ 32)) 15 1 f.snr.toNat
      let c := ctxSet c 13 1 (ctxField c 13 1 % 16 + n * 16 + 64)
      match f.tmResp with
      | some (mod, map) =>
        (s.putCtx p ctx (ctxSet (ctxSet c 40 3 map) 14 1 (ctxField c 14 1 % 8 + 8 + mod * 16))).raise (687 + 4 * n)
      | none =>
        let s := s.putCtx p ctx c
        let tp := ctxField c 12 1 / 32
        if ctxFlag c 4 && s.on (R.SES_Pp_TMPLt_CFG_VALID p tp) && s.tmplMatches p tp pl then
          let fld (z o : RF) : Nat := (tmplField pl (s.get z) (s.get o)).1
          let s := s.fold p ctx n t (fld (R.SES_Pp_TMPLt_FIELDS_C0_SIZE p tp) (R.SES_Pp_TMPLt_FIELDS_C0_OFS p tp))
            (s.on (R.SES_Pp_TMPLt_FIELDS_C0_SET p tp)) (fld (R.SES_Pp_TMPLt_FIELDS_C1_SIZE p tp) (R.SES_Pp_TMPLt_FIELDS_C1_OFS p tp))
            (s.on (R.SES_Pp_TMPLt_FIELDS_C1_SET p tp)) (fld (R.SES_Pp_TMPLt_FIELDS_F_SIZE p tp) (R.SES_Pp_TMPLt_FIELDS_F_OFS p tp))
            ⟨sec, f.snr.toNat, f.mod, if f.secured then f.fc.toNat else 0⟩
          if s.on (R.SES_Pp_TMPLt_CFG_COPY p tp) then (s.rxPut p (frameEntry 1 n ctx t sec f pl)).2 else s
        else (s.rxPut p (frameEntry 1 n ctx t sec f pl)).2

/-! ### Commands -/

/-- The write of a session command word with GO (R347). -/
def sesGo (q : Requester) (p op mask kind : Nat) (s : State) : Out :=
  regWrite q (R.SES_Pp_CMD p) (sesCmdWrite p (2 ^ 31 + mask * 65536 + kind * 16 + op)) s

/-- LOOKUP (R347). -/
def execSesLookup (q : Requester) (p : Fin 8) (short : Bool) (s : State) : Out := sesGo q p 1 0 short.toNat s
/-- CREATE (R346). -/
def execSesCreate (q : Requester) (p : Fin 8) (s : State) : Out := sesGo q p 2 0 0 s
/-- SES_READ (R347). -/
def execSesRead (q : Requester) (p : Fin 8) (s : State) : Out := sesGo q p 3 0 0 s
/-- UPDATE (R348). -/
def execSesUpdate (q : Requester) (p : Fin 8) (mask : Byte) (s : State) : Out := sesGo q p 4 mask.toNat 0 s
/-- READ_CLEAR (R347). -/
def execReadClear (q : Requester) (p : Fin 8) (mask : Byte) (s : State) : Out := sesGo q p 5 mask.toNat 0 s
/-- RETIRE (R346). -/
def execSesRetire (q : Requester) (p : Fin 8) (s : State) : Out := sesGo q p 6 0 0 s
/-- FOLD (R354). -/
def execSesFold (q : Requester) (p : Fin 8) (mask : Byte) (s : State) : Out := sesGo q p 7 mask.toNat 0 s
/-- SES_COMMAND_DONE (R347). -/
def execSesCommandDone (p : Fin 8) (s : State) : Out := .next (s.sesDone p)
/-- KEY_APPLY (R351): a write of `v` to SES_Pp_KEYk_W3. -/
def execKeyApply (q : Requester) (p : Fin 8) (k : Fin 8) (v : Word) (s : State) : Out :=
  regWrite q (R.SES_Pp_KEYk_Wj p k 3) (sesKeyWrite p k 3 v) s
/-- TXFC_WRITE (R351). -/
def execTxfcWrite (q : Requester) (p : Fin 8) (k : Fin 8) (v : Word) (s : State) : Out :=
  regWrite q (R.SES_Pp_KEYk_TXFC p k) (txfcWriteReg p k v.toNat) s

/-- SES_FRAME (R352): the engine takes the oldest frame in the buffer of port `n`. -/
def execSesFrame (n : Fin 4) (s : State) : Out :=
  .next (let x := s.port n
    match x.buf with
    | [] => s
    | (f, t) :: rest => if !s.sesRuns then s else (s.setPort n { x with buf := rest }).sesHandle n f t)

end Sys2Proof.Machine
end

