-- ==== Sys2Proof/Machine/Fse.lean ====
section
/-!
DEFINITION. Feeder ports (spec/14): the transmit ring, transmissions, acknowledgements and reception. FEED is in Feed.lean.
-/
namespace Sys2Proof.Machine

/-- The feeder engine acting for the owner of port `n`. -/
def State.fseWho (s : State) (n : Nat) : Who := ⟨.feeder, s.owner 7 n⟩
/-- Address of the head descriptor of port `n` (R338). -/
def State.fseDesc (s : State) (n : Nat) : Nat := s.get (R.FSE_Pn_TXBASE_BASE n) * 32 + 32 * s.get (R.FSE_Pn_TXRING_TXHEAD n)
/-- Is a descriptor posted at the head? -/
def State.fsePosted (s : State) (n : Nat) : Bool :=
  s.get (R.FSE_Pn_TXSIZE_SIZE n) != 0 && s.get (R.FSE_Pn_TXRING_TXHEAD n) != s.get (R.FSE_Pn_TXRING_TXTAIL n)

/-- A transmit descriptor (Table 14.3). -/
structure TxDesc where
  addr   : Nat
  len    : Nat
  flags  : Nat
  ctx    : Nat
  resvd  : Bool
  deriving DecidableEq, Repr

/-- The descriptor in 32 bytes. -/
def txDesc (b : List Byte) : TxDesc :=
  let f (o n : Nat) : Nat := ctxField b o n
  let flags := f 6 2
  ⟨f 0 4, f 4 2, flags, f 8 4, decide (256 ≤ flags) || decide (4 < bitsOf flags 5 3) || f 12 4 != 0 || f 18 2 != 0 || f 28 4 != 0⟩

/-- GATED follows the head descriptor. -/
def State.fseGate (s : State) (n : Nat) : State :=
  let x := s.port n
  let d := txDesc (s.bytesAt (s.fseDesc n) 32)
  s.putB (R.FSE_Pn_STATUS_GATED n) (s.fsePosted n && bit d.flags 4 && x.go.isNone && x.tx.isNone && x.result.isNone)

/-- The modulation and groups of a descriptor's frame: MOD, or those of the context, ROBO with every group otherwise. -/
def State.fseMod (s : State) (n : Nat) (d : TxDesc) : Nat × Nat :=
  let all := if s.on (R.FSE_Pn_IMAGE_BAND n) then 0xFFFFFF else 0x3F
  let m := bitsOf d.flags 5 3
  if d.ctx < 1048576 ∧ bit (ctxField (s.ctx d.ctx) 14 1) 3 = true then
    let c := s.ctx d.ctx
    (if m = 0 then bitsOf (ctxField c 14 1) 4 3 else m, ctxField c 40 3)
  else (if m = 0 then 1 else m, all)

/-- The head frame as it goes on the air, or the status with which it completes (R339). -/
def State.fseFrame (s : State) (n : Nat) (d : TxDesc) : Except Nat (List Byte) × State :=
  let p := s.owner 7 n
  let secure := bit d.flags 0
  let owned := d.ctx < 1048576 && ctxFlag (s.ctx d.ctx) 0 && ctxOwner (s.ctx d.ctx) == p
  if d.resvd || d.len < 5 || 1280 < d.len || (secure && d.ctx == 0xFFFFFFFF) then (.error 7, s)
  else if d.ctx != 0xFFFFFFFF && !owned then (.error 6, s)
  else if !s.reach .feeder p false .read d.addr d.len then (.error 7, s.refuse .feeder p .read d.addr d.len)
  else match s.memEgress (s.fseWho n) d.addr d.len with
    | (none, s) => (.error 8, s)
    | (some b, s) =>
      if !secure then (.ok b, s)
      else
        let ext := s.get (R.FSE_Pn_EXT_LO_EXT_LO n) + 2 ^ 32 * s.get (R.FSE_Pn_EXT_HI_EXT_HI n)
        match s.secure p d.ctx ext b with
        | (none, s) => (.error 6, s)
        | (some f, s) => (.ok f, s)

/-- TX_START of a transmission whose CSMA/CA ends now: the next multiple of 80,000 ticks at least 50 µs ahead, or, for an
acknowledgement, the next multiple (R327, R340). -/
def txStart (now : Time) (ack : Bool) : Time :=
  let t := now.toNat + if ack then 0 else us 50
  BitVec.ofNat 64 ((t + 79999) / 80000 * 80000)

/-- The head frame ends with a status before or without a transmission; RATE raises FPn_FAULT (Table 14.7). -/
def State.fseResult (s : State) (n status : Nat) : State :=
  (s.setPort n { s.port n with result := some status }).when (status == 5) fun s => s.raise (686 + 4 * n)

/-- An acknowledgement that falls due is sent, or not (R329, R340). -/
def State.fseAck (s : State) (n : Nat) : State :=
  let x := s.port n
  let s := s.setPort n { x with acks := x.acks - 1 }
  if !s.on (R.FSE_Pn_STATUS_RATE_OK n) then s.incSat (R.FSE_Pn_ERRCNT_ACK_FAIL n)
  else s.setPort n { s.port n with tx := some ⟨true, txStart s.now true, [], 1, 0, false⟩ }

/-- CSMA/CA of the head frame ends: the channel is clear, or it gave up after MAX_BACKOFFS (R329, R339). -/
def State.fseStart (s : State) (n : Nat) (clear : Bool) : State :=
  let x := s.port n
  let d := txDesc (s.bytesAt (s.fseDesc n) 32)
  if !s.fsePosted n || x.result.isSome || x.wait || (bit d.flags 4 && x.go.isNone) then s
  else
    let (r, s) := if x.tries = 0 then s.fseFrame n d else (.ok (match x.last with | some t => t.bytes | none => []), s)
    match r with
    | .error e => s.fseResult n e
    | .ok b =>
      if !clear then s.fseResult n 2
      else if !s.on (R.FSE_Pn_STATUS_RATE_OK n) then s.fseResult n 5
      else
        let (m, g) := s.fseMod n d
        let t : FseTx := ⟨false, txStart s.now false, b, m, g, false⟩
        s.setPort n { s.port n with tx := some t, last := some t, tries := x.tries + 1, tstamp := t.start }

/-- The port's answer to the oldest tone-map request is sent (R337), where RATE_OK lets a transmission start (R329). -/
def State.fseReply (s : State) (n : Nat) : State :=
  let x := s.port n
  let all := if s.on (R.FSE_Pn_IMAGE_BAND n) then 0xFFFFFF else 0x3F
  match x.answers with
  | [] => s
  | (_, m, g) :: rest =>
    let x := { x with answers := rest }
    if s.on (R.FSE_Pn_STATUS_RATE_OK n) then s.setPort n { x with tx := some ⟨false, txStart s.now false, Config.toneReply m g, 1, all, true⟩ }
    else s.setPort n x

/-- The instant of the last sample of a transmission (R327). -/
def FseTx.lastSample (t : FseTx) (fcc : Bool) : Time :=
  t.start + BitVec.ofNat 64 (sampleTick fcc (Config.waveLength fcc t.mod t.map t.bytes - 1))

/-- The last sample has passed (R327, R334): a frame that asked for an acknowledgement waits for it. -/
def State.fseEnd (s : State) (n : Nat) : State :=
  let x := s.port n
  match x.tx with
  | none => s
  | some t =>
    let x := { x with tx := none, quiet := s.portQuiet }
    if !s.portRuns n || !s.reached (t.lastSample (s.on (R.FSE_Pn_IMAGE_BAND n))) then s
    else if t.ack || t.reply then s.setPort n x
    else
      let ack := bit (txDesc (s.bytesAt (s.fseDesc n) 32)).flags 1
      s.setPort n { x with wait := ack, result := if ack then none else some 0 }

/-- The descriptor is written back with its status (R338, Table 14.7). -/
def State.fseWriteBack (s : State) (n status : Nat) : State :=
  let x := s.port n
  let a := s.fseDesc n
  let p := s.owner 7 n
  let s := if s.reach .feeder p false .write a 32 then
      (((s.memWrite (s.fseWho n) (a + 16) (leBytes 1 status ++ leBytes 1 x.tries)).2).memWrite (s.fseWho n) (a + 20) (leBytes 8 x.tstamp.toNat)).2
    else s.refuse .feeder p .write a 32
  let gone := match x.go with | some c => c | none => none
  let head := (s.get (R.FSE_Pn_TXRING_TXHEAD n) + 1) % s.get (R.FSE_Pn_TXSIZE_SIZE n)
  let s := (s.inc (R.FSE_Pn_FRAMES_TX n)).put (R.FSE_Pn_TXRING_TXHEAD n) head
  (((s.setPort n { x with result := none, wait := false, tries := 0, go := none }).fseGate n).emit (684 + 4 * n) gone).source p (6 + n)

/-- Does the destination pass the address filter of port `n` (R335)? -/
def State.fseAccepts (s : State) (n : Nat) : MacAddr → Bool
  | .broadcast => true
  | .short pan a => s.on (R.FSE_Pn_CTRL_PROMISC n) || (pan.toNat == s.get (R.FSE_Pn_ADDR_PAN_ID n) && a.toNat == s.get (R.FSE_Pn_ADDR_SHORT n))
  | .ext a => s.on (R.FSE_Pn_CTRL_PROMISC n) || a.toNat == s.get (R.FSE_Pn_EXT_LO_EXT_LO n) + 2 ^ 32 * s.get (R.FSE_Pn_EXT_HI_EXT_HI n)

/-- The answer to a tone-map request: modulation and groups on, from the mean SNR of each group (R337). -/
def toneMap (all gOff tD2 tD3 : Nat) (snr : List Nat) : Nat × Nat :=
  let on := (List.range snr.length).filter fun g => gOff ≤ snr.getD g 0
  if on.isEmpty then (1, all)
  else
    let sum := on.foldl (fun a g => a + snr.getD g 0) 0
    let n := on.length
    (if tD3 * n ≤ sum then 4 else if tD2 * n ≤ sum then 3 else 2, on.foldl (fun m g => setBit m g true) 0)

/-- Bytes of a received frame in the feeder buffer. -/
def frameSize (f : AirFrame) : Nat := f.header.length + f.payload.length

/-- A frame ends at the receiver of port `n` (R333 to R337). -/
def State.fseReceive (s : State) (n : Nat) (f : AirFrame) : State :=
  let x := s.port n
  let fc := s.get (R.FSE_Pn_IMAGE_RX_FC n)
  if !s.portRuns n || !s.on (R.FSE_Pn_CTRL_RX_EN n) then s
  else if !(s.running (25 + fc / 8) && !s.domReset (25 + fc / 8)) then s.portFault n (R.FSE_Pn_STATUS_RX_NOSIGNAL n)
  else if (match x.tx with | some t => s.reached t.start | none => false) || (match x.quiet with | some t => !s.reached t | none => false) then s
  else if !f.fcs then s.incSat (R.FSE_Pn_ERRCNT_RX_FCS_FAIL n)
  else if !s.fseAccepts n f.dest then s
  else
    let all := if s.on (R.FSE_Pn_IMAGE_BAND n) then 0xFFFFFF else 0x3F
    let ans := toneMap all (s.get (R.FSE_Pn_TMTHR_G_OFF n)) (s.get (R.FSE_Pn_TMTHR_T_D2 n)) (s.get (R.FSE_Pn_TMTHR_T_D3 n)) f.groups
    let x := { x with acks := x.acks + (f.ackReq && s.on (R.FSE_Pn_CTRL_ACK_EN n)).toNat,
                      answers := if f.tmReq then x.answers ++ [(f.src, ans.1, ans.2)] else x.answers }
    let used := x.buf.foldl (fun k e => k + frameSize e.1) 0
    if 65536 < used + frameSize f then (s.setPort n x).portFault n (R.FSE_Pn_STATUS_RX_OVERFLOW n)
    else (((s.setPort n { x with buf := x.buf ++ [(f, s.now)] }).inc (R.FSE_Pn_FRAMES_RX n)).raise (685 + 4 * n)).source (s.owner 7 n) (6 + n)

/-- An event at FPn_GO (R339, R340). -/
def State.fpGo (s : State) (n : Nat) (cause : Cause) : State :=
  if s.on (R.FSE_Pn_STATUS_GATED n) then (s.setPort n { s.port n with go := some cause }).fseGate n else s

/-- A write of `v` to FSE_Pn_TXRING. -/
def txringWrite (n v : Nat) (s : State) : State := (s.put (R.FSE_Pn_TXRING_TXTAIL n) v).fseGate n

/-- A write of `v` to FSE_Pn_CTRL: clearing ENABLE ends the frame in progress DISABLED (R331, R340), also one that waits for its
acknowledgement; a receiver enabled while its converter group stands still has no signal (R334). -/
def fseCtrlWrite (n v : Nat) (s : State) : State :=
  let s := s.wr (R.FSE_Pn_CTRL n) (BitVec.ofNat 32 (v % 16))
  let s := s.when (!bit v 0) fun s =>
    let s := s.endTx n 9
    if (s.port n).wait then s.setPort n { s.port n with wait := false, result := some 9 } else s
  let g := s.get (R.FSE_Pn_IMAGE_RX_FC n) / 8
  s.when (s.portRuns n && bit v 1 && !s.running (25 + g)) fun s => s.portFault n (R.FSE_Pn_STATUS_RX_NOSIGNAL n)

/-- A write of `v` to FSE_Pn_LOOP (R330). -/
def fseLoopWrite (n v : Nat) (s : State) : State :=
  let s := s.put (R.FSE_Pn_LOOP_MUTE n) v
  s.when (bit v 0) fun s => s.endTx n 3

/-! ### Commands -/

/-- FSE_TXTAIL_WRITE (R338). -/
def execFseTxtailWrite (q : Requester) (n : Fin 4) (tail : BitVec 10) (s : State) : Out :=
  regWrite q (R.FSE_Pn_TXRING n) (txringWrite n tail.toNat) s

/-- FSE_TX_START (R329): CSMA/CA of a due acknowledgement, of an answer to a tone-map request or of the head frame ends: the band was
clear, or the backoffs ran out. -/
def execFseTxStart (n : Fin 4) (clear : Bool) (s : State) : Out :=
  .next (let x := s.port n
    if !s.portRuns n || !s.on (R.FSE_Pn_CTRL_ENABLE n) || s.on (R.FSE_Pn_LOOP_MUTE n) || x.tx.isSome then s
    else if 0 < x.acks then s.fseAck n
    else if clear && !x.answers.isEmpty then s.fseReply n
    else (s.fseStart n clear).fseGate n)

/-- FSE_TX_END (R327). -/
def execFseTxEnd (n : Fin 4) (s : State) : Out := .next (s.fseEnd n)

/-- FSE_ACK_TIMEOUT (R339): retry, or complete NO_ACK. -/
def execFseAckTimeout (n : Fin 4) (s : State) : Out :=
  .next (let x := s.port n
    if !s.portRuns n || !x.wait then s
    else if x.tries ≤ s.get (R.FSE_Pn_CSMA_MAX_RETRIES n) then s.setPort n { x with wait := false }
    else s.setPort n { x with wait := false, result := some 1 })

/-- FSE_DESCRIPTOR_DONE (R339): a status that waits is written back, or SENT when the awaited acknowledgement has come. -/
def execFseDescriptorDone (n : Fin 4) (acked : Bool) (s : State) : Out :=
  .next (let x := s.port n
    if !s.portRuns n then s
    else match x.result with
    | some st => s.fseWriteBack n st
    | none => if x.wait && acked then s.fseWriteBack n 0 else s)

/-- FSE_RX_FRAME (R335). -/
def execFseRxFrame (n : Fin 4) (f : AirFrame) (s : State) : Out := .next (s.fseReceive n f)

/-- MUTE (R330). -/
def execMute (q : Requester) (n : Fin 4) (on : Bool) (s : State) : Out := regWrite q (R.FSE_Pn_LOOP n) (fseLoopWrite n on.toNat) s

/-- FSE_ENABLE_WRITE (R340): a write of `v` to FSE_Pn_CTRL. -/
def execFseEnableWrite (q : Requester) (n : Fin 4) (v : BitVec 4) (s : State) : Out :=
  regWrite q (R.FSE_Pn_CTRL n) (fseCtrlWrite n v.toNat) s

end Sys2Proof.Machine
end

