-- ==== Sys2Proof/Machine/Scv.lean ====
section
/-!
DEFINITION. Scan converters (spec/04): rounds, averaging, results and window checks. Voltages are in nanovolts, temperatures in
thousandths of a degree.
-/
namespace Sys2Proof.Machine

/-- A scan channel beside its registers. -/
def State.sch (s : State) (n : Nat) : ScanChan := s.scanCh.get {} n
/-- Change it. -/
def State.setSch (s : State) (n : Nat) (x : ScanChan) : State := { s with scanCh := s.scanCh.set n x }
/-- A scan converter beside its registers. -/
def State.conv (s : State) (k : Nat) : ScanConv := s.scan.get {} k
/-- Change it. -/
def State.setConv (s : State) (k : Nat) (c : ScanConv) : State := { s with scan := s.scan.set k c }

/-- The channel in slot `i` of converter `k` (Table 4.1). -/
def scanChannel (k i : Nat) : Nat :=
  if i < 16 then 16 * k + i else if i = 16 then 64 + k else if i < 19 then 68 + 2 * k + (i - 17) else 76 + k

/-- The converter of a channel. -/
def scanConverter (n : Nat) : Nat :=
  if n < 64 then n / 16 else if n < 68 then n - 64 else if n < 76 then (n - 68) / 2 else n - 76

/-- A word of the calibration record in force; 0 where there is none (Table 20.9). -/
def State.calWord (s : State) (off : Nat) : Nat := leNat ((s.chip.cal.drop off).take 4)

/-- Offset (2^-8 code) and gain (2^-30) of a scan converter, at `off` in the calibration record; nominal values
without a record (R98, R466). -/
def State.calCorrection (s : State) (off : Nat) : Int × Int :=
  if s.chip.cal.isEmpty then (0, 2 ^ 30) else (signed 32 (s.calWord off), s.calWord (off + 4))

/-- The code of num / den after an offset and gain correction (R98). DESIGN CHOICE (log 53): gain before offset, rounded once. -/
def corrected (cal : Int × Int) (num den : Int) : Int := roundDiv (num * cal.2 * 2 ^ 8 + cal.1 * den * 2 ^ 30) (den * 2 ^ 38)

/-- The code of a quantity on channel `n` and whether it was limited (R86, R87, R98): an external or supply voltage in
nanovolts, or a temperature in thousandths of a degree, as the converter's analogue part presents it. -/
def State.scanCode (s : State) (n : Nat) (x : Int) : Nat × Bool :=
  let cal := s.calCorrection (896 + 8 * scanConverter n)
  let d : Int :=
    if 76 ≤ n then corrected cal (32768 * 1000 + (x - 25000) * 128) 1000 + signed 32 (s.calWord (1056 + 4 * (n - 76)))
    else
      let fs : Int := if 64 ≤ n then 1600000000 * (if n = 71 then 2 else if n = 75 then 4 else 1)
        else if s.get (R.SCV_CHn_CFG_RANGE n) = 1 then 800000000 else 1600000000
      corrected cal (x * 65536) fs
  let c := clampI 0 65535 d
  (c.toNat, c != d)

/-- A limit write of this cycle follows the check of a result in it: the counter ends at 0 (R96). -/
def State.limitAfter (s : State) (n : Nat) : State :=
  let x := s.sch n
  match x.wrote with
  | some (t, _) => if s.sameCycle t then s.setSch n { x with wcnt := 0 } else s
  | none => s

/-- The limits and the counter that a result of this cycle meets: those before a write of this cycle (R96). -/
def State.limits (s : State) (n : Nat) : Nat × Nat × Nat :=
  let x := s.sch n
  let now := (s.get (R.SCV_CHn_WIN_LO_LO n), s.get (R.SCV_CHn_WIN_HI_HI n), x.wcnt)
  match x.wrote with
  | some (t, old) => if s.sameCycle t then old else now
  | none => now

/-- The check of a new result `v` against the window (R95); `cause` is the event behind the round. -/
def State.windowCheck (s : State) (n v : Nat) (cause : Cause) : State :=
  let (lo, hi, wcnt) := s.limits n
  let outside := decide (v < lo) || decide (hi < v)
  let x := { s.sch n with wcnt := wcnt }
  let full := x.wcnt + 1 == s.get (R.SCV_CHn_CFG_PERSIST n) + 1
  if !s.on (R.SCV_CHn_CFG_WIN_EN n) then s
  else if !s.on (R.SCV_CHn_STATUS_LIVE_OUT n) then
    if !outside then s.setSch n { x with wcnt := 0 }
    else if full then
      let s := (s.setSch n { x with wcnt := 0 }).put (R.SCV_CHn_STATUS_LIVE_OUT n) 1
      let s := if v < lo then s.put (R.SCV_CHn_STATUS_OUT_LO n) 1 else s.put (R.SCV_CHn_STATUS_OUT_HI n) 1
      if s.on (R.SCV_CHn_CFG_EVT_EN n) then s.emit (102 + n) cause else s
    else s.setSch n { x with wcnt := x.wcnt + 1 }
  else if outside then s.setSch n { x with wcnt := 0 }
  else if full then (s.setSch n { x with wcnt := 0 }).put (R.SCV_CHn_STATUS_LIVE_OUT n) 0
  else s.setSch n { x with wcnt := x.wcnt + 1 }

/-- Channel `n` accumulates one sample and makes a result when the average is complete (R93, R94). -/
def State.scanSample (s : State) (n : Nat) (d : Nat) (clip : Bool) (cause : Cause) : State :=
  let x := s.sch n
  let sum := x.sum + d
  let clip := x.clip || clip
  let susp := x.susp || s.warn 0 || s.warn 2 || s.warn 3
  if x.count + 1 = 2 ^ x.avg then
    let v := sum / 2 ^ x.shift
    let s := s.setSch n { x with sum := 0, count := 0, clip := false, susp := false }
    let s := ((((s.put (R.SCV_CHn_RESULT_VALUE n) v).putB (R.SCV_CHn_RESULT_CLIP n) clip).putB (R.SCV_CHn_RESULT_SUSPECT n) susp).inc
      (R.SCV_CHn_RESULT_RSEQ n)).put (R.SCV_CHn_RESULT_VALID n) 1
    let s := s.when clip fun s => s.put (R.SCV_CHn_STATUS_CLIPPED n) 1
    let s := s.when susp fun s => s.put (R.SCV_CHn_STATUS_SUSPECT_SEEN n) 1
    (s.windowCheck n (v % 2 ^ 24) cause).limitAfter n
  else s.setSch n { x with sum := sum, count := x.count + 1, clip := clip, susp := susp }

/-- Does converter `k` run? -/
def State.scanRuns (s : State) (k : Nat) : Bool := s.running (28 + k) && !s.domReset (28 + k)

/-- Channel `n` takes its configuration at a round start; a change discards its accumulation (R91). -/
def State.scanTake (s : State) (n : Nat) : State :=
  let s := s.setSch n { s.sch n with void := false }
  let x := s.sch n
  let en := s.on (R.SCV_CHn_CFG_EN n) && !s.ownerInReset (s.owner 3 n)
  let avg := s.get (R.SCV_CHn_CFG_AVG n)
  let sh := s.get (R.SCV_CHn_CFG_SHIFT n)
  if x.en = en ∧ x.avg = avg ∧ x.shift = sh then s
  else s.setSch n { x with en := en, avg := avg, shift := sh, sum := 0, count := 0, clip := false, susp := false }

/-- A round of converter `k` starts (R90): the scan mask is read and the round's slots are listed. -/
def State.roundStart (s : State) (k : Nat) (cause : Cause) : State :=
  let s := s.each (List.range 20) fun i t => t.scanTake (scanChannel k i)
  let slots := (List.range 20).filter fun i => (s.sch (scanChannel k i)).en
  let s := s.put (R.SCV_Ck_MASK_MASK k) (slots.foldl (fun m i => m + 2 ^ i) 0)
  let r := s.get (R.SCV_Ck_CTRL_ROUND k)
  let s := s.when (s.get (R.SCV_Ck_CTRL_MODE k) == 1 && r != 0 && decide (r < slots.length)) fun s => s.put (R.SCV_Ck_STATUS_ROUND_LATE k) 1
  let s := s.setConv k { s.conv k with slots := slots, cause := if slots.isEmpty then none else cause, mode := s.get (R.SCV_Ck_CTRL_MODE k),
                                       rnd := r, began := some s.now, gap := max 1 (max r slots.length) }
  s.when (!slots.isEmpty) fun s => s.put (R.SCV_Ck_STATUS_BUSY k) 1

/-- Ticks of a converter cycle (R85). -/
def scanCycle : Nat := ns 200

/-- MODE and ROUND of converter `k` take effect: where they change them, the next round is the first under them (R90). -/
def State.scanSettings (s : State) (k : Nat) : State :=
  let c := s.conv k
  let m := s.get (R.SCV_Ck_CTRL_MODE k)
  let r := s.get (R.SCV_Ck_CTRL_ROUND k)
  if c.mode = m ∧ c.rnd = r then s else s.setConv k { c with mode := m, rnd := r, began := none }

/-- A write of `v` to SCV_Ck_CTRL: it takes effect at once, or, with a round in progress, at the next round start (R91). -/
def scvCtrlWrite (k v : Nat) (s : State) : State :=
  let s := (s.put (R.SCV_Ck_CTRL_ROUND k) (bitsOf v 16 16)).put (R.SCV_Ck_CTRL_MODE k) (bitsOf v 0 2)
  if s.on (R.SCV_Ck_STATUS_BUSY k) then s else s.scanSettings k

/-- The round of converter `k` is over. A change of MODE that waited governs the next round start, which no count sets any more; a change of
ROUND alone takes effect at the next round start (R91). -/
def State.roundOver (s : State) (k : Nat) : State :=
  if (s.conv k).mode = 1 ∧ s.get (R.SCV_Ck_CTRL_MODE k) = 1 then s else s.scanSettings k

/-- An event at SCVk_START (R90 to R92): with a round in progress, or in the converter cycle of another event, it starts none. The cycles are
counted on device time (DESIGN CHOICE, log 59). -/
def State.scanEvent (s : State) (k : Nat) (cause : Cause) : State :=
  let c := s.conv k
  let again := match c.event with | some t => s.now.toNat / scanCycle == t.toNat / scanCycle | none => false
  let s := s.setConv k { c with event := some s.now }
  if s.on (R.SCV_Ck_STATUS_BUSY k) || (again && c.mode == 2) then s.put (R.SCV_Ck_STATUS_START_OVERRUN k) 1
  else if c.mode == 2 && s.scanRuns k then s.roundStart k cause else s

/-- Does a round of converter `k` start now in CONTINUOUS mode: the first under the settings, or one on their interval (R90)? -/
def State.roundDue (s : State) (k : Nat) : Bool :=
  let c := s.conv k
  c.mode == 1 && !s.on (R.SCV_Ck_STATUS_BUSY k) && s.scanRuns k &&
  (match c.began with
   | none => true
   | some t => s.since t != 0 && s.since t % (c.gap * scanCycle) == 0)

/-- SCAN_ROUND_START (R90): a round begins in CONTINUOUS mode. -/
def execScanRoundStart (k : Fin 4) (s : State) : Out :=
  .next (if s.roundDue k then s.roundStart k none else s)

/-- SCAN_CONVERSION (R93): converter `k` completes the conversion of its next slot, whose quantity is `x`; after the last
one the round is complete (R90). A channel whose owner is in reset has its sample discarded (R91). -/
def execScanConversion (k : Fin 4) (x : Int) (s : State) : Out :=
  let c := s.conv k
  .next (match c.slots with
    | [] => s
    | i :: rest =>
      if !s.scanRuns k then s
      else
        let n := scanChannel k i
        let (d, clip) := s.scanCode n x
        let s := if s.ownerInReset (s.owner 3 n) || (s.sch n).void then s else s.scanSample n d clip c.cause
        let s := s.setConv k { c with slots := rest, cause := if rest.isEmpty then none else c.cause }
        if rest.isEmpty then (((s.put (R.SCV_Ck_STATUS_BUSY k) 0).inc (R.SCV_Ck_STATUS_ROUNDS k)).roundOver k).emit (182 + k) c.cause else s)

/-- A write of `v` to WIN_LO, or to WIN_HI when `hi` (R96): the counter returns to 0 and the state is kept. -/
def winLimitWrite (n : Nat) (hi : Bool) (v : Nat) (s : State) : State :=
  (s.put (if hi then R.SCV_CHn_WIN_HI_HI n else R.SCV_CHn_WIN_LO_LO n) v).setSch n { s.sch n with wcnt := 0, wrote := some (s.now, s.limits n) }

/-- WIN_LIMIT_WRITE (R96). -/
def execWinLimitWrite (q : Requester) (n : Fin 80) (hi : Bool) (v : BitVec 24) (s : State) : Out :=
  regWrite q (if hi then R.SCV_CHn_WIN_HI n else R.SCV_CHn_WIN_LO n) (winLimitWrite n hi v.toNat) s

/-- A write of `v` to SCV_CHn_CFG; clearing WIN_EN returns the window to IN (R95). -/
def scvCfgWrite (n v : Nat) (s : State) : State :=
  let s := (((s.put (R.SCV_CHn_CFG_PERSIST n) (bitsOf v 12 4)).put (R.SCV_CHn_CFG_SHIFT n) (bitsOf v 8 4)).put
    (R.SCV_CHn_CFG_AVG n) (bitsOf v 4 4)).put (R.SCV_CHn_CFG_WIN_EN n) (bitsOf v 2 1)
  let s := (s.put (R.SCV_CHn_CFG_EVT_EN n) (bitsOf v 1 1)).put (R.SCV_CHn_CFG_EN n) (bitsOf v 0 1)
  if bit v 2 then s else (s.put (R.SCV_CHn_STATUS_LIVE_OUT n) 0).setSch n { s.sch n with wcnt := 0 }

/-- SCV_WIN_LIVEj: bit b is LIVE_OUT of channel 32j + b (R97). -/
def State.winLive (s : State) (j : Nat) : Nat :=
  ((List.range 32).filter fun b => 32 * j + b < 80 && s.on (R.SCV_CHn_STATUS_LIVE_OUT (32 * j + b))).foldl (fun m b => m + 2 ^ b) 0

end Sys2Proof.Machine
end

