-- ==== Sys2Proof/Machine/Ser.lean ====
section
/-!
DEFINITION. The service ports (spec/16, R382, R383): CAN FD, UART, SPI and I²C controllers, and the general-purpose events.
Controllers are numbered by their pages: CAN 0 and 1, UART 2 to 5, SPI 6 to 9, I²C 10 and 11.
-/
namespace Sys2Proof.Machine

/-! ### Registers (Table 16.7) -/

namespace R
/-- Register at offset `o` of controller `c`. -/
def SER (c o : Nat) : Reg := ⟨0x403E0000 + 0x1000 * c + o, 0⟩
/-- IRQ_EN of controller `c`. -/
def SER_IRQ_EN (c : Nat) : Reg := SER c 0xFC
/-- STATUS of controller `c`. -/
def SER_STATUS (c : Nat) : Reg := SER c (if 2 ≤ c ∧ c < 10 then 8 else 0xC)
/-- Word `w` of buffer `m` of CAN controller `c`. -/
def CAN_BUFm (c m w : Nat) : Reg := SER c (0x100 + 0x60 * m + 4 * w)
/-- GPIO_EVk. -/
def GPIO_EVk (k : Nat) : Reg := ⟨0x403EC000 + 4 * k, 0⟩
/-- GPIO_OEVk. -/
def GPIO_OEVk (k : Nat) : Reg := ⟨0x403EC040 + 4 * k, 0⟩
end R

/-- The register classes of Table 16.7; the effects of DATA, CMD and the event entries are their own. -/
def serClasses : List RegClass :=
  [ ⟨"CAN_NBT", 0x403E0000, [(0x1000, 2)], .part, 0, 0xFFFFFF1F, 0, 0, 0, 0, 0⟩,
    ⟨"CAN_DBT", 0x403E0004, [(0x1000, 2)], .part, 0, 0x0FFFFF1F, 0, 0, 0, 0, 0⟩,
    ⟨"CAN_CTRL", 0x403E0008, [(0x1000, 2)], .part, 0, 0x7, 0, 0, 0, 0, 0⟩,
    ⟨"CAN_STATUS", 0x403E000C, [(0x1000, 2)], .part, 0, 0, 0xC0, 0, 0, 0, 0⟩,
    ⟨"CAN_IRQ_EN", 0x403E00FC, [(0x1000, 2)], .part, 0, 0xF0, 0, 0, 0, 0, 0⟩,
    ⟨"CAN_BUFm word 0", 0x403E0100, [(0x1000, 2), (0x60, 32)], .part, 0, 0xDFFFFFFF, 0, 0, 0, 0, 0⟩,
    ⟨"CAN_BUFm word 1", 0x403E0104, [(0x1000, 2), (0x60, 32)], .part, 0, 0xFFFFFFFF, 0, 0, 0, 0, 0⟩,
    ⟨"CAN_BUFm word 2", 0x403E0108, [(0x1000, 2), (0x60, 32)], .part, 0, 0x8000000F, 0, 0, 0, 0, 0⟩,
    ⟨"CAN_BUFm words 3 to 20", 0x403E010C, [(0x1000, 2), (0x60, 32), (0x4, 18)], .part, 0, 0xFFFFFFFF, 0, 0, 0, 0, 0⟩,
    ⟨"UART_CFG", 0x403E2000, [(0x1000, 4)], .part, 0, 0xFFFF003F, 0, 0, 0, 0, 0⟩,
    ⟨"UART_DATA", 0x403E2004, [(0x1000, 4)], .part, 0, 0, 0, 0, 0, 0, 0⟩,
    ⟨"UART_STATUS", 0x403E2008, [(0x1000, 4)], .part, 0, 0, 0x1E, 0, 0, 0, 0⟩,
    ⟨"UART_IRQ_EN", 0x403E20FC, [(0x1000, 4)], .part, 0, 0x1F, 0, 0, 0, 0, 0⟩,
    ⟨"SPI_CFG", 0x403E6000, [(0x1000, 4)], .part, 0, 0xFF1F3F, 0, 0, 0, 0, 0⟩,
    ⟨"SPI_DATA", 0x403E6004, [(0x1000, 4)], .part, 0, 0, 0, 0, 0, 0, 0⟩,
    ⟨"SPI_STATUS", 0x403E6008, [(0x1000, 4)], .part, 0, 0, 0x6, 0, 0, 0, 0⟩,
    ⟨"SPI_IRQ_EN", 0x403E60FC, [(0x1000, 4)], .part, 0, 0x7, 0, 0, 0, 0, 0⟩,
    ⟨"I2C_CFG", 0x403EA000, [(0x1000, 2)], .part, 0, 0x7FF0107, 0, 0, 0, 0, 0⟩,
    ⟨"I2C_CMD", 0x403EA004, [(0x1000, 2)], .part, 0, 0, 0, 0, 0, 0, 0⟩,
    ⟨"I2C_DATA", 0x403EA008, [(0x1000, 2)], .part, 0, 0, 0, 0, 0, 0, 0⟩,
    ⟨"I2C_STATUS", 0x403EA00C, [(0x1000, 2)], .part, 0, 0, 0x1E, 0, 0, 0, 0⟩,
    ⟨"I2C_IRQ_EN", 0x403EA0FC, [(0x1000, 2)], .part, 0, 0x1F, 0, 0, 0, 0, 0⟩,
    ⟨"GPIO_EVk", 0x403EC000, [(0x4, 16)], .dev, 0, 0x77F, 0, 0, 0, 0, 0⟩,
    ⟨"GPIO_OEVk", 0x403EC040, [(0x4, 16)], .dev, 0, 0x37F, 0, 0, 0, 0, 0⟩ ]

/-! ### Controllers -/

/-- A controller beside its registers. -/
def State.serPort (s : State) (c : Nat) : SerPort := s.ser.get {} c
/-- Change it. -/
def State.setSer (s : State) (c : Nat) (x : SerPort) : State := { s with ser := s.ser.set c x }

/-- The owner of controller `c`. -/
def State.serOwner (s : State) (c : Nat) : Nat :=
  if c < 2 then s.owner 9 c else if c < 6 then s.owner 10 (c - 2) else if c < 10 then s.owner 11 (c - 6) else s.owner 12 (c - 10)

/-- The clock domain in which controller `c` meets its bus: CAN FD and SPI target have their own, the others run on the
peripheral bus (Table 2.7). -/
def State.serDomain (s : State) (c : Nat) : Nat :=
  if c < 2 then 94 + c else if 6 ≤ c ∧ c < 10 ∧ bit (s.rd (R.SER c 0)).toNat 0 then 96 + (c - 6) else 93

/-- Does controller `c` run? -/
def State.serRuns (s : State) (c : Nat) : Bool :=
  !s.ownerInReset (s.serOwner c) && s.running (s.serDomain c) && !s.domReset (s.serDomain c)

/-- STATUS of a controller takes a value; an enabled bit that rises raises the controller's line (Table 16.6). -/
def State.serStatus (s : State) (c : Nat) (v : Word) : State :=
  let old := s.rd (R.SER_STATUS c)
  let bits := if c < 2 then 0xF0#32 else 0x1F#32
  (s.wr (R.SER_STATUS c) v).when (v &&& ~~~old &&& s.rd (R.SER_IRQ_EN c) &&& bits != 0#32) fun s => s.raise (732 + c)

/-- Bit `k` of a controller's STATUS takes a value; one that takes 1 has been set in this cycle (R10). -/
def State.serFlag (s : State) (c k : Nat) (b : Bool) : State :=
  (s.serStatus c (fieldPut (s.rd (R.SER_STATUS c)) k 1 b.toNat)).heat (R.SER_STATUS c) (if b then BitVec.ofNat 32 (2 ^ k) else 0#32)

/-- A CFG, CTRL or other word of a controller. -/
def State.serReg (s : State) (c o : Nat) : Nat := (s.rd (R.SER c o)).toNat

/-- A write of `v` to IRQ_EN or a plain register leaves STATUS as it is; a W1C write to STATUS clears bits. -/
def serClear (c v mask : Nat) (s : State) : State :=
  s.clr (R.SER_STATUS c) (BitVec.ofNat 32 v &&& BitVec.ofNat 32 mask)

/-! ### CAN FD -/

/-- Error counts and the states that follow from them: error passive above 127, bus-off above 255 (ISO 11898-1). -/
def State.canCounts (s : State) (c tec cnt : Nat) : State :=
  let off := bit (s.rd (R.SER_STATUS c)).toNat 5 || decide (255 < tec)
  let v := s.rd (R.SER_STATUS c)
  let v := fieldPut (fieldPut v 8 8 (min tec 255)) 16 8 (min cnt 255)
  let v := fieldPut (fieldPut v 4 1 (decide (127 < tec) || decide (127 < cnt)).toNat) 5 1 off.toNat
  (s.setSer c { s.serPort c with tec := tec, cnt := cnt }).serStatus c v

/-- Does buffer `m` take a received identifier? -/
def State.canMatch (s : State) (c m : Nat) (ext : Bool) (id : Nat) : Bool :=
  let w := (s.rd (R.CAN_BUFm c m 0)).toNat
  let k := (s.rd (R.CAN_BUFm c m 1)).toNat % 2 ^ 29
  !bit w 31 && bit w 30 == ext && (w % 2 ^ 29 &&& k) == (id &&& k) && !bit (s.rd (R.CAN_BUFm c m 2)).toNat 31

/-- Words of up to 64 bytes. -/
def wordsOf (bs : List Byte) : List Word := (List.range 16).map fun i => BitVec.ofNat 32 (leNat ((bs.drop (4 * i)).take 4))

/-- A frame enters buffer `m`: identifier bits under the mask are those of the buffer, the others are not stated. -/
def State.canStore (s : State) (c m : Nat) (dlc : Nat) (data : List Byte) : State :=
  let (v, s) := s.fresh
  let w := s.rd (R.CAN_BUFm c m 0)
  let free := ~~~(s.rd (R.CAN_BUFm c m 1)) &&& 0x1FFFFFFF#32
  let s := s.wr (R.CAN_BUFm c m 0) ((w &&& ~~~free) ||| (BitVec.ofNat 32 v &&& free))
  let s := s.wr (R.CAN_BUFm c m 2) (BitVec.ofNat 32 (2 ^ 31 + dlc))
  let s := s.putTime (R.CAN_BUFm c m 3) (R.CAN_BUFm c m 4) s.now
  (s.each (List.range 16) fun i t => t.wr (R.CAN_BUFm c m (5 + i)) ((wordsOf data).getD i 0#32)).serFlag c 7 true

/-- A frame ends at CAN controller `c`, received or in error (R382). -/
def State.canReceive (s : State) (c : Nat) (ok ext : Bool) (id : Nat) (fd : Bool) (dlc : Nat) (data : List Byte) : State :=
  let ctrl := s.serReg c 8
  let x := s.serPort c
  if !s.serRuns c || !bit ctrl 0 || bit (s.rd (R.SER_STATUS c)).toNat 5 then s
  else if !ok || (fd && !bit ctrl 2) then s.canCounts c x.tec (x.cnt + 1)
  else
    let s := s.canCounts c x.tec (if 127 < x.cnt then 127 else x.cnt - 1)
    match (List.range 32).find? fun m => s.canMatch c m ext id with
    | some m => s.canStore c m dlc data
    | none => s

/-- A transmission attempt from buffer `m` ends (R382); after an error the controller tries again. -/
def State.canSent (s : State) (c m : Nat) (ok : Bool) : State :=
  let ctrl := s.serReg c 8
  let w := s.rd (R.CAN_BUFm c m 2)
  let x := s.serPort c
  if !s.serRuns c || !bit ctrl 0 || bit ctrl 1 || bit (s.rd (R.SER_STATUS c)).toNat 5 ||
      !bit (s.rd (R.CAN_BUFm c m 0)).toNat 31 || !bit w.toNat 31 then s
  else if ok then ((s.wr (R.CAN_BUFm c m 2) (fieldPut w 31 1 0)).canCounts c (x.tec - 1) x.cnt).serFlag c 6 true
  else s.canCounts c (x.tec + 8) x.cnt

/-! ### UART, SPI and I²C -/

/-- The receive level and, for a UART, not-empty bits follow the FIFO. -/
def State.serLevel (s : State) (c : Nat) : State :=
  let n := (s.serPort c).rx.length
  if c < 6 then s.serStatus c (fieldPut (fieldPut (s.rd (R.SER_STATUS c)) 8 8 n) 0 1 (decide (0 < n)).toNat)
  else if c < 10 then s.serStatus c (fieldPut (s.rd (R.SER_STATUS c)) 8 8 n)
  else s

/-- A received word enters the 64-deep FIFO, or sets overrun (Table 16.5). -/
def State.serPush (s : State) (c v : Nat) : State :=
  let x := s.serPort c
  if 64 ≤ x.rx.length then s.serFlag c 1 true else (s.setSer c { x with rx := x.rx ++ [v] }).serLevel c

/-- A write of `v` to DATA queues a byte or word. The table has no row for a UART's transmitter: its queue holds the last 64
bytes written. What a full SPI FIFO is given is lost. -/
def serDataWrite (c v : Nat) (s : State) : State :=
  let x := s.serPort c
  let v := if 6 ≤ c ∧ c < 10 then v else v % 256
  if 64 ≤ x.tx.length ∧ 6 ≤ c ∧ c < 10 then s
  else if 2 ≤ c ∧ c < 6 then s.setSer c { x with tx := (x.tx ++ [v]).drop (x.tx.length - 63) }
  else (s.setSer c { x with tx := x.tx ++ [v] }).when (decide (6 ≤ c ∧ c < 10)) fun s =>
    s.when (!bit (s.serReg c 0) 0) fun s => s.serFlag c 0 true

/-- A read of DATA takes one byte or word; an empty FIFO gives a value that the spec does not state. -/
def State.serDataRead (s : State) (c : Nat) : Word × State :=
  let x := s.serPort c
  match x.rx with
  | v :: vs => (BitVec.ofNat 32 v, (s.setSer c { x with rx := vs }).serLevel c)
  | [] => let (v, s) := s.fresh; (BitVec.ofNat 32 (if 6 ≤ c ∧ c < 10 then v else v % 256), s)

/-- A write of `v` to I2C_CMD: GO starts a transfer on an idle controller. -/
def i2cCmdWrite (c v : Nat) (s : State) : State :=
  if bit v 31 && !bit (s.rd (R.SER_STATUS c)).toNat 0 then (s.wr (R.SER c 4) (BitVec.ofNat 32 v)).serFlag c 0 true else s

/-- A UART character ends at the receiver (R382). -/
def State.uartByte (s : State) (u : Nat) (b : Nat) (brk framing parity : Bool) : State :=
  let c := 2 + u
  let cfg := s.serReg c 0
  if !s.serRuns c || !bit cfg 0 then s
  else if brk then s.serFlag c 4 true
  else if framing then s.serFlag c 3 true
  else if parity && bitsOf cfg 2 2 != 0 then s.serFlag c 2 true
  else s.serPush c (if bit cfg 1 then b % 128 else b)

/-- An SPI word has shifted (R382): a controller needs a queued word, a target without one underruns. -/
def State.spiWord (s : State) (i v : Nat) : State :=
  let c := 6 + i
  let cfg := s.serReg c 0
  let x := s.serPort c
  if !s.serRuns c || (!bit cfg 0 && x.tx.isEmpty) then s
  else
    let s := s.setSer c { x with tx := x.tx.tail }
    let s := if bit cfg 0 then s.when x.tx.isEmpty fun s => s.serFlag c 2 true
      else s.serFlag c 0 (decide (1 < x.tx.length))
    s.serPush c (v % 2 ^ (bitsOf cfg 8 5 + 1))

/-- An I²C controller command ends: 0 done, 1 NACK, 2 arbitration lost; a read brings its bytes (R382). -/
def State.i2cDone (s : State) (i outcome : Nat) (data : List Byte) : State :=
  let c := 10 + i
  let cmd := s.serReg c 4
  if !s.serRuns c || !bit (s.rd (R.SER_STATUS c)).toNat 0 then s
  else
    let n := cmd % 256
    let x := s.serPort c
    let s := if outcome != 0 then s
      else if bit cmd 30 then s.setSer c { x with rx := x.rx ++ (data.take n).map (·.toNat) }
      else s.setSer c { x with tx := x.tx.drop n }
    (s.serFlag c 0 false).serFlag c (match outcome with | 0 => 1 | 1 => 3 | _ => 4) true

/-- An I²C target sees an address on the bus (R382). -/
def State.i2cAddressed (s : State) (i a : Nat) (tenBit : Bool) : State :=
  let c := 10 + i
  let cfg := s.serReg c 0
  if s.serRuns c && bit cfg 0 && bit cfg 8 == tenBit && (if tenBit then bitsOf cfg 16 10 else bitsOf cfg 16 7) == a then s.serFlag c 2 true
  else s

/-! ### General-purpose events (R383) -/

/-- Is the entry of an event register off? -/
def gpioOff (oev : Bool) (v : Nat) : Bool := if oev then bitsOf v 8 2 == 0 else !bit v 10

/-- A write of `v` to GPIO_EVk, or GPIO_OEVk when `oev`, by the owner `view` (R383). -/
def gpioEvWrite (view k : Nat) (oev : Bool) (v : Nat) (s : State) : State :=
  let r := if oev then R.GPIO_OEVk k else R.GPIO_EVk k
  let old := (s.rd r).toNat
  let owns (x : Nat) : Bool := s.owner 13 (x % 128) == view
  if view == platform || (owns v && (gpioOff oev old || owns old)) then s.wr r (BitVec.ofNat 32 (if oev then v &&& 0x37F else v &&& 0x77F))
  else s

/-- An edge on a pin (R383): every input event that names the pin and selects the edge is raised on line 744 + k. -/
def State.gpioEdge (s : State) (k : Nat) (rising : Bool) : State :=
  let v := (s.rd (R.GPIO_EVk k)).toNat
  s.when (bit v 10 && bit v (if rising then 8 else 9)) fun s => s.raise (744 + k)

/-- Output event `k` acts on its pin (R383). -/
def State.gpioAct (s : State) (k : Nat) : State :=
  let v := (s.rd (R.GPIO_OEVk k)).toNat
  let p := v % 128
  match bitsOf v 8 2 with
  | 1 => { s with gpioOut := Machine.setBit s.gpioOut p true }
  | 2 => { s with gpioOut := Machine.setBit s.gpioOut p false }
  | 3 => { s with gpioOut := Machine.setBit s.gpioOut p (!bit s.gpioOut p) }
  | _ => s

/-! ### Commands -/

/-- CAN_FRAME_RECEIVED (R382). -/
def execCanFrameReceived (c : Fin 2) (ok ext : Bool) (id : BitVec 29) (fd : Bool) (dlc : Fin 16) (data : List Byte) (s : State) : Out :=
  .next (s.canReceive c ok ext id.toNat fd dlc data)
/-- CAN_TX_DONE (R382). -/
def execCanTxDone (c : Fin 2) (m : Fin 32) (ok : Bool) (s : State) : Out := .next (s.canSent c m ok)
/-- CAN_BUS_OFF_RECOVERY (R382): 128 times 11 recessive bits have passed. -/
def execCanBusOffRecovery (c : Fin 2) (s : State) : Out :=
  .next (if s.serRuns c && bit (s.rd (R.SER_STATUS c)).toNat 5 then
    (s.wr (R.SER_STATUS c) (fieldPut (s.rd (R.SER_STATUS c)) 5 1 0)).canCounts c 0 0 else s)
/-- UART_BYTE_RECEIVED (R382). -/
def execUartByteReceived (u : Fin 4) (b : Byte) (brk framing parity : Bool) (s : State) : Out :=
  .next (s.uartByte u b.toNat brk framing parity)
/-- SPI_WORD_TRANSFER (R382). -/
def execSpiWordTransfer (i : Fin 4) (v : Word) (s : State) : Out := .next (s.spiWord i v.toNat)
/-- I2C_TRANSFER_DONE (R382). -/
def execI2cTransferDone (i : Fin 2) (outcome : Fin 3) (data : List Byte) (s : State) : Out := .next (s.i2cDone i outcome data)
/-- I2C_TARGET_ADDRESSED (R382). -/
def execI2cTargetAddressed (i : Fin 2) (a : BitVec 10) (tenBit : Bool) (s : State) : Out := .next (s.i2cAddressed i a.toNat tenBit)
/-- GPIO_INPUT_EVENT (R383). -/
def execGpioInputEvent (k : Fin 16) (rising : Bool) (s : State) : Out := .next (s.gpioEdge k rising)
/-- GPIO_EV_WRITE (R383). -/
def execGpioEvWrite (q : Requester) (k : Fin 16) (oev : Bool) (v : Word) (s : State) : Out :=
  regWrite q (if oev then R.GPIO_OEVk k else R.GPIO_EVk k) (gpioEvWrite (s.viewOf q) k oev v.toNat) s

end Sys2Proof.Machine
end

