-- ==== Sys2Proof/Machine/ClkCtl.lean ====
section
/-!
DEFINITION. Clock sources, PLLs and domains (spec/21): requests and gates, source switches, missing edges, failed sources, and what a
DOMAIN reset clears (R521). Sources are numbered by their bit of CLK_SRC_STATUS: 0 main reference, 1 crystal, 2 backup
RC, 5 PLL_SYS, 6 PLL_CONV, 7 PLL_PWM, 8 Ethernet, 9 PCIe, 16 + q quad PLL q.
-/
namespace Sys2Proof.Machine

/-! ### Sources (Table 21.1) -/

/-- Does source `k` run: a reference or RC that is within its limits, a PLL that is locked? -/
def State.srcRuns (s : State) (k : Nat) : Bool := bit (s.rd R.CLK_SRC_STATUS).toNat k
/-- Set it. -/
def State.setSrc (s : State) (k : Nat) (b : Bool) : State :=
  s.wr R.CLK_SRC_STATUS (BitVec.ofNat 32 (setBit (s.rd R.CLK_SRC_STATUS).toNat k b))
/-- Has source `k` failed? -/
def State.srcFailed (s : State) (k : Nat) : Bool := bit (s.rd R.CLK_SRC_FAIL).toNat k
/-- Is source `k` a PLL? -/
def isPll (k : Nat) : Bool := (5 ≤ k && k ≤ 9) || (16 ≤ k && k < 24)
/-- Does domain `d` carry two sources (R473)? -/
def twoSources (d : Nat) : Bool := d == 21 || d == 22 || d == 93 || d == 100

/-- The source that domain `d` is connected to; none for the RC of domain 103 and the clocks of R468. -/
def State.srcOf (s : State) (d : Nat) : Option Nat :=
  if twoSources d then some (if bit s.clk.onSys d then 5 else 2)
  else if d < 25 ∨ d = 40 ∨ d = 91 then some 5
  else if d < 28 ∨ d = 92 then some 6
  else if d < 40 ∨ d = 94 ∨ d = 95 then some 0
  else if d < 46 then some 7
  else if d < 78 then some (16 + (d - 46) / 4)
  else if d < 86 then some (16 + (d - 78))
  else if d < 90 then some 8
  else if d = 90 then some 9
  else if d = 102 then some 2
  else none

/-- The source that SEL names. -/
def State.srcSel (s : State) (d : Nat) : Option Nat :=
  if twoSources d then some (if s.on (R.CLK_Dd_CTRL_SEL d) then 2 else 5) else s.srcOf d
/-- Does the source of domain `d` run? -/
def State.fed (s : State) (d : Nat) : Bool := match s.srcOf d with | some k => s.srcRuns k | none => true
/-- The mode of domain `d` in the image: 0 DEMAND, 1 HELD, 2 OFF. -/
def State.domMode (s : State) (d : Nat) : Nat := s.get (R.CLK_Dd_STATUS_MODE d)
/-- Is domain `d` held (R31)? -/
def State.domHeld (s : State) (d : Nat) : Bool := s.on (R.CLK_Dd_STATUS_HELD d)
/-- CLK_EVT (Table 21.8). -/
def State.clkEvt (s : State) : State := s.raise 762

/-! ### What a domain's clock does to its blocks -/

/-- A scan converter stops: its round in progress, partial accumulations and window counters are discarded, and it starts again with its
first round (R90, R100). -/
def State.scanDrop (s : State) (k : Nat) : State :=
  let s := (s.setConv k { mode := s.get (R.SCV_Ck_CTRL_MODE k), rnd := s.get (R.SCV_Ck_CTRL_ROUND k) }).put (R.SCV_Ck_STATUS_BUSY k) 0
  s.each ((List.range 80).filter fun n => scanConverter n == k) fun n t =>
    t.setSch n { t.sch n with sum := 0, count := 0, clip := false, susp := false, wcnt := 0 }

/-- A PWM group loses its alignment (R132, R137). -/
def State.groupLost (s : State) (g : Nat) : State :=
  ((s.put (R.PWM_Gg_STATUS_ALIGNED g) 0).put (R.PWM_Gg_STATUS_SUBSTEP_OK g) 0).each (List.range 8) fun k t =>
    (t.setUnit (8 * g + k) { t.unit (8 * g + k) with lost := t.on (R.PWM_Un_STATUS_RUNNING (8 * g + k)) }).settleUnit (8 * g + k)

/-- The blocks of domain `d` start with their clock (R76, R81, R110, R211). -/
def State.domStart (s : State) (d : Nat) : State :=
  if d < 16 then s.laneGo d
  else if 25 ≤ d ∧ d < 28 then
    (s.calResume (d - 25)).each ((List.range 16).filter fun i => bit s.cmpEvt (16 * (d - 25) + i)) fun i t =>
      ({ t with cmpEvt := setBit t.cmpEvt (16 * (d - 25) + i) false } : State).raise (48 + 16 * (d - 25) + i)
  else if d = 40 then s.each (List.range 16) fun n t => t.posStart n
  else if 41 ≤ d ∧ d < 45 then s.groupLost (d - 41)
  else s

/-- The blocks of domain `d` lose their clock (R76, R100, R110, R137, R228). -/
def State.domStop (s : State) (d : Nat) : State :=
  if d < 16 then s.lanePause d
  else if 25 ≤ d ∧ d < 28 then (s.calBreak (d - 25)).noSignal (d - 25)
  else if 28 ≤ d ∧ d < 32 then s.scanDrop (d - 28)
  else if 32 ≤ d ∧ d < 40 then s.posCold (d - 32)
  else if d = 40 then s.each (List.range 16) fun n t => t.posCold n
  else if 41 ≤ d ∧ d < 45 then s.groupLost (d - 41)
  else s

/-- The cores of host pair `k` stop, and their locks break with a cause (R521). -/
def State.stopPair (s : State) (k cause : Nat) : State :=
  ((s.stopCore (2 * k)).stopCore (2 * k + 1)).breakLocks (fun o => o == 2 * k || o == 2 * k + 1) cause

/-- A DOMAIN reset of the session engine's domain: the commands in progress are lost, and their windows are free (DESIGN CHOICE, log 62). -/
def State.sesClear (s : State) : State :=
  let t : State := { s with ses := { s.ses with busy := [] } }
  s.ses.busy.foldl (fun t e => t.put (R.SES_Pp_CSTAT_BUSY e.1) 0) t

/-- A DOMAIN reset of the feeder's domain: transmissions and what is due of port `n` are lost, the head frame starts afresh; received
frames stay in the buffer (DESIGN CHOICE, log 62). -/
def State.feederClear (s : State) (n : Nat) : State := (s.setPort n { buf := (s.port n).buf }).fseGate n

/-- A DOMAIN reset clears the clocked state of domain `d` (R521): what is in flight and partial counts. -/
def State.domClear (s : State) (d : Nat) : State :=
  if d < 16 then s.laneResetOwn d
  else if d = 16 then { s with bind := s.bind.map fun e => (e.1, { e.2 with pairs := [], due := [] }) }
  else if d < 21 then s.stopPair (d - 17) 2
  else if d = 21 then (s.stopCore 8).recFail 5
  else if d = 22 then s.each (List.range 256) fun c t =>
    let x := t.chan c
    if x.pend.isEmpty && x.arrived.isEmpty then t else t.setChan c { x with arrived := [], pend := [], handed := false }
  else if d = 23 then { s with dmaRound := [] }
  else if d = 24 then s.sesClear
  else if 25 ≤ d ∧ d < 28 then
    let t : State := { s with fcOut := s.fcOut.filter fun x => x.chan / 8 != d - 25 }
    (t.domStop d).each (List.range 8) fun i t => t.setFch (8 * (d - 25) + i) { t.fch (8 * (d - 25) + i) with samples := [], target := none }
  else if 46 ≤ d ∧ d < 78 then s.setFlink (d - 46) { s.flink (d - 46) with missed := 0, jumps := 0 }
  else if 78 ≤ d ∧ d < 86 then s.each (List.range 4) fun i t =>
    t.setFlink (4 * (d - 78) + i) { t.flink (4 * (d - 78) + i) with queue := [] }
  else if d = 86 ∨ d = 88 then s.setEth ((d - 86) / 2) { s.ethPort ((d - 86) / 2) with buf := [] }
  else if d = 87 ∨ d = 89 then s.setEth ((d - 86) / 2) { s.ethPort ((d - 86) / 2) with wire := none }
  else if d = 90 then s.each (List.range 8) fun n t => t.setFn n { t.fn n with buf := [] }
  else if d = 92 then s.each (List.range 4) fun n t => t.feederClear n
  else s.domStop d

/-! ### Clock forces (Table 21.3) -/

/-- Does Table 21.3 give domain `d` a force on outputs? -/
def hasForce (d : Nat) : Bool := d < 17 || (25 ≤ d && d < 28) || (41 ≤ d && d < 86)

/-- The force of domain `d` reaches its outputs, or ends there. -/
def State.forceReach (s : State) (d : Nat) : State :=
  if d < 17 ∨ (25 ≤ d ∧ d < 28) then
    if s.forcing d then s.each ((List.range 64).filter fun b => s.bound b && (s.path b).contains d) fun b t => t.forceBinding b else s
  else if 41 ≤ d ∧ d < 45 then s.each (List.range 8) fun k t => t.settleUnit (8 * (d - 41) + k)
  else if d = 45 then s.settleOutputs
  else if 46 ≤ d ∧ d < 78 then s.settleLink (d - 46)
  else if 78 ≤ d ∧ d < 86 then s.each (List.range 4) fun k t => t.settleLink (4 * (d - 78) + k)
  else s

/-- The clock force of domain `d` begins (R476, R479). -/
def State.domForce (s : State) (d : Nat) : State :=
  if hasForce d then (s.put (R.CLK_Dd_STATUS_FORCING d) 1).forceReach d else s

/-! ### Gates (R470 to R472) -/

/-- Domain `d` shows edges from now on. -/
def State.edgesNow (s : State) (d : Nat) : State := { s with clk := { s.clk with edges := s.clk.edges.set d s.now } }
/-- Domain `d` shows no edges. -/
def State.edgesGone (s : State) (d : Nat) : State := { s with clk := { s.clk with edges := s.clk.edges.drop (· == d) } }

/-- The gate of domain `d` opens. -/
def State.openGate (s : State) (d : Nat) : State :=
  if s.gateOpen d then s
  else ((((({ s with clk := { s.clk with waiting := setBit s.clk.waiting d false } } : State).put (R.CLK_Dd_STATUS_RUNNING d) 1).inc
    (R.CLK_Dd_STATUS_STARTS d)).edgesNow d).domStart d)

/-- The gate of domain `d` closes. -/
def State.closeGate (s : State) (d : Nat) : State :=
  if s.gateOpen d then
    let s := ((s.put (R.CLK_Dd_STATUS_RUNNING d) 0).put (R.CLK_Dd_STATUS_HANG_LIVE d) 0).edgesGone d
    ({ s with clk := { s.clk with shut := s.clk.shut.set d s.now } } : State).domStop d
  else s

/-- Does an event wait for a consumer input in domain `d` (R317)? -/
def State.eventWaits (s : State) (d : Nat) : Bool :=
  (List.range 256).any fun c => s.on (R.EVM_Cc_CONS_VALID c) && !(s.chan c).pend.isEmpty && inputDomain (s.get (R.EVM_Cc_CONS_INPUT c)) == d

/-- Does a core keep its pair's domain requested: it runs, or waits in WFI with something that it may take? -/
def State.coreWants (s : State) (c : Nat) : Bool :=
  let x := s.cpuAt c
  x.started && (!x.wfi || s.nmiMay c || (s.irqNext c).isSome)

/-- Is domain `d` requested (Table 21.2)? -/
def State.requested (s : State) (d : Nat) : Bool :=
  s.eventWaits d ||
  (if d < 16 then (s.laneOf d).act.isSome || (List.range 64).any fun b => (s.bnd b).wait.isSome && (s.lanesOf b).contains d
  else if d = 16 then (List.range 16).any (fun n => s.gateOpen n && s.laneBound n) || (List.range 32).any fun a => s.on (R.ABL_Aa_CTRL_ENABLE a)
  else if d < 21 then s.coreWants (2 * (d - 17)) || s.coreWants (2 * (d - 17) + 1)
  else if d = 23 then (List.range 32).any fun n => let x := s.dmaState n; x == 1 || x == 2 || x == 3
  else if d = 24 then !s.ses.busy.isEmpty || (List.range 4).any fun n => !(s.port n).buf.isEmpty
  else if 25 ≤ d ∧ d < 28 then
    (List.range 8).any (fun i => let n := 8 * (d - 25) + i
      s.owner 2 n != unassigned && (s.get (R.FCV_CHn_TRIG_MODE n) != 0 ||
        (s.on (R.FCV_CHn_CFG_COPY_DMA n) && (List.range 32).any fun c => match (s.dmaCh c).desc with
          | some x => x.stream && x.srcLo == n
          | none => false) ||
        (s.on (R.FCV_CHn_CFG_COPY_FEEDER n) && (List.range 4).any fun p => s.get (R.FSE_Pn_IMAGE_RX_FC p) == n && s.on (R.FSE_Pn_CTRL_RX_EN p)))) ||
    (List.range 16).any fun i => bit s.cmpEvt (16 * (d - 25) + i)
  else if 28 ≤ d ∧ d < 32 then
    !((s.conv (d - 28)).slots.isEmpty) || (s.get (R.SCV_Ck_CTRL_MODE (d - 28)) != 0 &&
      (List.range 80).any fun n => scanConverter n == d - 28 && s.on (R.SCV_CHn_CFG_EN n))
  else if 32 ≤ d ∧ d < 40 then s.posMode (d - 32) == 3
  else if d = 40 then (List.range 16).any fun n => s.posMode n != 0
  else if 41 ≤ d ∧ d < 45 then
    (List.range 8).any (fun k => s.on (R.PWM_Un_CFG_ENABLE (8 * (d - 41) + k))) || (List.range 64).any fun b => s.bound b && (s.path b).contains d
  else if 46 ≤ d ∧ d < 78 then s.lstate (d - 46) != 0 && s.lstate (d - 46) != 4
  else if 78 ≤ d ∧ d < 86 then (List.range 4).any fun k => let x := s.lstate (4 * (d - 78) + k); x != 0 && x != 4
  else if 86 ≤ d ∧ d < 90 then (List.range 9).any fun r =>
    s.on (R.ETH_Pp_Rr_CTRL_RX_EN ((d - 86) / 2) r) || s.on (R.ETH_Pp_Rr_CTRL_TX_EN ((d - 86) / 2) r)
  else if d = 90 ∨ d = 91 then s.chip.perstN && (s.on R.RST_BOOT_RECOVERY ||
    (List.range 8).any fun p => s.on (R.PART_Pn_CFG_PRESENT p) && decide (s.get (R.PART_Pn_CFG_PCIE_FN p) < 8))
  else if d = 92 then (List.range 4).any fun n => s.on (R.FSE_Pn_CTRL_ENABLE n) || s.on (R.FSE_Pn_CTRL_RX_EN n)
  else if d = 94 ∨ d = 95 then bit (s.serReg (d - 94) 8) 0
  else false)

/-- The PLL that feeds domain `d` starts if it does not run, and the gate opens with it (R472). -/
def State.request (s : State) (d : Nat) : State :=
  if s.gateOpen d || ungated d || s.domMode d == 2 || s.on (R.CLK_Dd_CTRL_HOLD_RESET d) then s
  else
    let s := if s.get R.PWR_STATUS_STATE = 1 then s.put R.PWR_STATUS_STATE 0 else s
    if s.fed d then s.openGate d
    else match s.srcOf d with
      | some k => if isPll k && !s.srcFailed k then
          { s with clk := { s.clk with started := setBit s.clk.started k true, waiting := setBit s.clk.waiting d true } } else s
      | none => s

/-- May the sequencer close the gate of domain `d` (R470)? -/
def State.mayClose (s : State) (d : Nat) : Bool :=
  s.gateOpen d && s.domMode d == 0 && !s.domHeld d && !s.requested d && !s.on (R.CLK_Dd_STATUS_SWITCHING d)

/-! ### DOMAIN reset (R479, R521) -/

/-- HOLD_RESET is set: the domain is in DOMAIN reset. -/
def State.holdDomain (s : State) (d : Nat) : State :=
  if s.domReset d then s.put (R.CLK_Dd_CTRL_HOLD_RESET d) 1
  else ((s.put (R.CLK_Dd_CTRL_HOLD_RESET d) 1).put (R.CLK_Dd_STATUS_IN_RESET d) 1).domClear d

/-- HOLD_RESET 0: ignored while the source has failed or does not run; then the domain opens as after a demand start. -/
def State.freeDomain (s : State) (d : Nat) : State :=
  if !s.on (R.CLK_Dd_CTRL_HOLD_RESET d) then s
  else if !s.fed d || (match s.srcOf d with | some k => s.srcFailed k | none => false) then s
  else
    let s := (s.put (R.CLK_Dd_CTRL_HOLD_RESET d) 0).put (R.CLK_Dd_STATUS_IN_RESET d) 0
    if s.gateOpen d then s.domStart d else if s.domHeld d || s.requested d then s.request d else s

/-! ### CLK_Dd_CTRL (R473 to R478) -/

/-- The multiplexer of domain `d` connects the source that SEL names. -/
def State.connect (s : State) (d : Nat) : State :=
  ({ s with clk := { s.clk with onSys := setBit s.clk.onSys d (!s.on (R.CLK_Dd_CTRL_SEL d)) } } : State).put (R.CLK_Dd_STATUS_SWITCHING d) 0

/-- A write that changes SEL starts a switch; it is ignored while one runs (R473). -/
def State.selWrite (s : State) (d : Nat) (sel : Bool) : State :=
  if !twoSources d || s.on (R.CLK_Dd_STATUS_SWITCHING d) || s.on (R.CLK_Dd_CTRL_SEL d) == sel then s
  else (s.putB (R.CLK_Dd_CTRL_SEL d) sel).put (R.CLK_Dd_STATUS_SWITCHING d) 1

/-- BREAK (R475): the domain shows edges again if the source that it now has runs. -/
def State.breakSwitch (s : State) (d : Nat) : State :=
  if s.on (R.CLK_Dd_CTRL_HOLD_RESET d) then
    let s := if twoSources d then s.connect d else s.put (R.CLK_Dd_STATUS_SWITCHING d) 0
    if s.fed d && s.gateOpen d && s.on (R.CLK_Dd_STATUS_HANG_LIVE d) then (s.put (R.CLK_Dd_STATUS_HANG_LIVE d) 0).edgesNow d else s
  else if s.on (R.CLK_Dd_STATUS_BREAK_REFUSED d) then s
  else (s.put (R.CLK_Dd_STATUS_BREAK_REFUSED d) 1).clkEvt

/-- Has domain `d` shown edges for a continuous 1 µs? -/
def State.edgesOk (s : State) (d : Nat) : Bool :=
  match s.clk.edges.find? fun e => e.1 == d with
  | some (_, t) => s.running d && decide (us 1 ≤ s.since t)
  | none => false

/-- CLRFAULT (R478, R480): the force of domain `d` ends once it has shown edges for 1 µs and its source has no FAIL. -/
def State.clearForce (s : State) (d : Nat) : State :=
  if s.edgesOk d && !(match s.srcOf d with | some k => s.srcFailed k | none => false) then
    ((s.put (R.CLK_Dd_STATUS_HANG d) 0).put (R.CLK_Dd_STATUS_FORCING d) 0).forceReach d
  else s

/-- A write of `v` to CLK_Dd_CTRL: the fields, then BREAK, then CLRFAULT. -/
def clkCtrlWrite (d v : Nat) (s : State) : State :=
  let s := s.selWrite d (bit v 0)
  let s := if bit v 1 then s.holdDomain d else s.freeDomain d
  let s := s.when (bit v 2) fun s => s.breakSwitch d
  s.when (bit v 3) fun s => s.clearForce d

/-- CLK_SWITCH_DONE (R473): with both clocks running, the switch selects the new one. -/
def State.switchDone (s : State) (d : Nat) : State :=
  if s.on (R.CLK_Dd_STATUS_SWITCHING d) && s.fed d && (match s.srcSel d with | some k => s.srcRuns k | none => false) then s.connect d else s

/-! ### PLLs and failed sources (R469, R476, R479) -/

/-- A started PLL locks, and the gates that wait for it open. -/
def State.pllLock (s : State) (k : Nat) : State :=
  if isPll k && bit s.clk.started k && !s.srcRuns k && (s.srcRuns 0 || 8 ≤ k) then
    let s := s.setSrc k true
    s.each ((List.range 104).filter fun d => bit s.clk.waiting d && s.srcOf d == some k) fun d t => t.openGate d
  else s

/-- Is KEEP of PLL `k` set? -/
def State.keep (s : State) (k : Nat) : Bool :=
  if k = 6 then s.on R.CLK_PLL_CTRL_CONV_KEEP else if k = 8 then s.on R.CLK_PLL_CTRL_ETH_KEEP
  else 16 ≤ k && s.bitOn R.CLK_PLL_CTRL_QUAD_KEEP (k - 16)

/-- PLL `k` stops. -/
def State.pllStop (s : State) (k : Nat) : State :=
  ({ s with clk := { s.clk with started := setBit s.clk.started k false } } : State).setSrc k false

/-- Has domain `d` been stopped for 100 µs (R469)? One that never ran has. -/
def State.longShut (s : State) (d : Nat) : Bool :=
  match s.clk.shut.find? fun e => e.1 == d with
  | some (_, t) => decide (us 100 ≤ s.since t)
  | none => true

/-- An idle PLL stops: none of the domains that it feeds has run for 100 µs, and none waits (R469). -/
def State.pllIdle (s : State) (k : Nat) : State :=
  if (k = 6 || k = 8 || k = 9 || (16 ≤ k && k < 24)) && !s.keep k &&
      (List.range 104).all fun d => s.srcOf d != some k || (!s.gateOpen d && !bit s.clk.waiting d && s.longShut d) then s.pllStop k else s

/-- A write of `v` to CLK_PLL_CTRL; RELOCK restarts every failed PLL. -/
def pllCtrlWrite (v : Nat) (s : State) : State :=
  let s := s.wr R.CLK_PLL_CTRL (BitVec.ofNat 32 (v &&& 0xFF0006))
  s.when (bit v 0) fun s => s.each ((List.range 24).filter fun k => isPll k && s.srcFailed k) fun k t =>
    { t with clk := { t.clk with started := setBit t.clk.started k true } }

/-- SRC_FAIL of the domains follows FAIL of their sources. -/
def State.srcFails (s : State) : State :=
  s.each (List.range 104) fun d t => match t.srcOf d with
    | some k => t.putB (R.CLK_Dd_STATUS_SRC_FAIL d) (t.srcFailed k)
    | none => t

/-- A write of `v` to CLK_SRC_FAIL: a bit does not clear while its source stays silent or unlocked (R479). -/
def srcFailWrite (v : Nat) (s : State) : State :=
  let s := s.each ((List.range 24).filter fun k => bit v k && s.srcRuns k) fun k t =>
    t.wr R.CLK_SRC_FAIL (BitVec.ofNat 32 (setBit (t.rd R.CLK_SRC_FAIL).toNat k false))
  s.srcFails

/-- A source fails (R479): FAIL, and for every domain that it feeds the force, the closed gate and the hold in reset. -/
def State.oneSourceFail (s : State) (k : Nat) : State :=
  let rise := !s.srcFailed k
  let s := ({ s with clk := { s.clk with started := setBit s.clk.started k false } } : State).setSrc k false
  let s := (s.wr R.CLK_SRC_FAIL (BitVec.ofNat 32 (setBit (s.rd R.CLK_SRC_FAIL).toNat k true))).when rise fun s => s.clkEvt
  s.each ((List.range 104).filter fun d => s.srcOf d == some k) fun d t =>
    (((t.put (R.CLK_Dd_STATUS_SRC_FAIL d) 1).domForce d).closeGate d).holdDomain d

/-- SOURCE_FAIL of source `k`: a failure of the main reference takes PLL_SYS, PLL_CONV and PLL_PWM with it. The crystal and the RCs have
no detector. -/
def State.sourceFail (s : State) (k : Nat) : State :=
  if k = 0 then [0, 5, 6, 7].foldl State.oneSourceFail s
  else if isPll k && bit s.clk.started k then s.oneSourceFail k
  else s

/-- Does domain 102 watch domain `d` (R476)? -/
def State.watched (s : State) (d : Nat) : Bool :=
  !(96 ≤ d && d < 100) && d < 101 && (s.gateOpen d || s.on (R.CLK_Dd_STATUS_SWITCHING d))

/-- Do the blocks of domain `d` lose something when their clock goes silent: lanes, converters, position feedback and PWM groups? -/
def stopsBlocks (d : Nat) : Bool := d < 16 || (25 ≤ d && d < 45)

/-- 1 µs passes without an edge of domain `d` (R476): its blocks stop (Table 21.3). -/
def State.hang (s : State) (d : Nat) : State :=
  if s.watched d then
    let rise := !s.on (R.CLK_Dd_STATUS_HANG d)
    let s := (((s.put (R.CLK_Dd_STATUS_HANG d) 1).put (R.CLK_Dd_STATUS_HANG_LIVE d) 1).edgesGone d).when rise fun s => s.clkEvt
    let s := (s.domForce d).when (d == 21) fun s => s.recFail 5
    if stopsBlocks d then s.domStop d else s
  else s

/-- What a domain or source that a command reported silent does on the next idle step: its edges come back where the clock that it is
connected to runs, and a silent reference comes back. -/
def State.edgesReturn (s : State) : State :=
  let s := if s.srcFailed 0 && !s.srcRuns 0 then s.setSrc 0 true else s
  let s := if s.srcFailed 2 && !s.srcRuns 2 then s.setSrc 2 true else s
  let s := if s.srcFailed 1 && !s.srcRuns 1 then s.setSrc 1 true else s
  s.each ((List.range 104).filter fun d => s.on (R.CLK_Dd_STATUS_HANG_LIVE d) && s.gateOpen d && !s.on (R.CLK_Dd_STATUS_SWITCHING d) && s.fed d) fun d t =>
    let t := (t.put (R.CLK_Dd_STATUS_HANG_LIVE d) 0).edgesNow d
    if stopsBlocks d && !t.domReset d then t.domStart d else t

/-! ### Commands -/

/-- DOMAIN_REQUEST (R472): a request for a closed domain rises, or the domain is held. -/
def execDomainRequest (d : Fin 104) (s : State) : Out := .next (if s.requested d || s.domHeld d then s.request d else s)
/-- DOMAIN_GATE_CLOSE (R470). -/
def execDomainGateClose (d : Fin 104) (s : State) : Out := .next (if s.mayClose d then s.closeGate d else s)
/-- PLL_LOCKED (R469). -/
def execPllLocked (k : Fin 24) (s : State) : Out := .next (s.pllLock k)
/-- PLL_IDLE_STOP (R469). -/
def execPllIdleStop (k : Fin 24) (s : State) : Out := .next (s.pllIdle k)
/-- CLK_SEL_WRITE (R473): a write of SEL (bit 0) and HOLD_RESET (bit 1). -/
def execClkSelWrite (q : Requester) (d : Fin 104) (v : BitVec 2) (s : State) : Out :=
  regWrite q (R.CLK_Dd_CTRL d) (clkCtrlWrite d v.toNat) s
/-- CLK_SWITCH_DONE (R473). -/
def execClkSwitchDone (d : Fin 104) (s : State) : Out := .next (s.switchDone d)
/-- BREAK (R475), written with SEL and HOLD_RESET. -/
def execClkBreak (q : Requester) (d : Fin 104) (keep : BitVec 2) (s : State) : Out :=
  regWrite q (R.CLK_Dd_CTRL d) (clkCtrlWrite d (4 + keep.toNat)) s
/-- CLRFAULT (R478), written with SEL and HOLD_RESET. -/
def execClrfault (q : Requester) (d : Fin 104) (keep : BitVec 2) (s : State) : Out :=
  regWrite q (R.CLK_Dd_CTRL d) (clkCtrlWrite d (8 + keep.toNat)) s
/-- HOLD_RESET_WRITE (R479): a write of HOLD_RESET (bit 1) and SEL (bit 0). -/
def execHoldResetWrite (q : Requester) (d : Fin 104) (v : BitVec 2) (s : State) : Out :=
  regWrite q (R.CLK_Dd_CTRL d) (clkCtrlWrite d v.toNat) s
/-- RELOCK (R479), written with the KEEP bits. -/
def execRelock (q : Requester) (keep : Word) (s : State) : Out := regWrite q R.CLK_PLL_CTRL (pllCtrlWrite (keep.toNat ||| 1)) s
/-- MISSING_EDGE (R476). -/
def execMissingEdge (d : Fin 104) (s : State) : Out := .next (s.hang d)
/-- SOURCE_FAIL (R479). -/
def execSourceFail (k : Fin 24) (s : State) : Out := .next (s.sourceFail k)
/-- BRC_FAIL (R481): the backup RC's count was out of range in two consecutive RC cycles. -/
def execBrcFail (s : State) : Out :=
  .next ((((s.setSrc 2 false).put R.CLK_SRC_FAIL_BRC_FAIL 1).when (!s.srcFailed 2) fun s => s.clkEvt).recFail 6)
/-- XTAL32_FAIL (R483): the crystal gave no edge for 100 µs; the RTC holds its value. -/
def execXtal32Fail (s : State) : Out :=
  .next (if s.srcRuns 1 then
      ((((s.setSrc 1 false).put R.CLK_SRC_FAIL_XTAL32_FAIL 1).put R.PWR_RTC_CTRL_XTAL32_FAIL 1).put R.PWR_RTC_CTRL_VALID 0).when
        (!s.srcFailed 1) fun s => s.clkEvt
    else s)

end Sys2Proof.Machine
end

