-- ==== Sys2Proof/Machine/Part.lean ====
section
/-!
DEFINITION. Partition resets (spec/17, R390 to R394): requests, ASSERTING, WIPING, the wipe and the release; and the state of a
segment reload (Table 2.13), which a reset cancels or waits for (R50).
-/
namespace Sys2Proof.Machine

/-! ### Held domains (R31) -/

/-- Is domain `d` held: its mode is HELD, it lies on the path of a binding with HOLD, or a reload in PREPARING asked for it (R47)? -/
def State.isHeld (s : State) (d : Nat) : Bool :=
  s.domMode d == 1 || (match s.reload with | some r => r.holds.contains d | none => false) ||
  (List.range 64).any fun b => s.bound b && s.on (R.LNC_Bb_MAP_HOLD b) && (s.path b).contains d

/-- HELD of every domain follows R31, and a held domain is requested (R471). -/
def State.settleHeld (s : State) : State :=
  s.each (List.range 104) fun d t =>
    let h := t.isHeld d
    let t := if t.domHeld d == h then t else t.putB (R.CLK_Dd_STATUS_HELD d) h
    if h then t.request d else t

/-! ### State of a reload request (Table 2.13) -/

/-- The SCFG request event of partition `p`: its line and MSI-X source 10. -/
def State.reloadEvent (s : State) (p : Nat) : State := if s.inPartReset p then s else (s.raise (644 + p)).source p 10

/-- The request of partition `p` enters a state; one that ends it has a code and an offset. -/
def State.reloadTo (s : State) (p st : Nat) (end_ : Option (Nat × Nat) := none) : State :=
  let s := ((s.put (R.SCFG_RQn_STAT_STATE p) st).put R.SCFG_STATUS_RELOAD_STATE st).put R.SCFG_STATUS_RELOAD_PART p
  match end_ with
  | some (code, off) =>
    (((s.put (R.SCFG_RQn_STAT_CODE p) code).put R.SCFG_CHK_CODE_CODE code).put R.SCFG_CHK_OFFSET_OFFSET off).reloadEvent p
  | none => s

/-! ### Registers that return to reset -/

/-- The class of the register with a key. -/
def regClassOf (k : Nat) : Option RegClass := RegClass.find (R.regClasses ++ serClasses) (k % 2 ^ 32)

/-- The reset value of the register with key `key` of class `c`. -/
def RegClass.rstAt (c : RegClass) (key : Nat) : Nat :=
  if c.base = 0x40111000 then (R.SCV_CHn_CFG ((key - c.base) / 0x40)).rst
  else if c.base = 0x40021000 then (R.CLK_Dd_CTRL ((key - c.base) / 8)).rst
  else if c.base = 0x40101020 then (R.FCV_CHn_STATUS ((key - c.base) / 0x100)).rst
  else c.rst

/-- Does the register at `a` belong to partition `p`? FSE_Pn_LOOP belongs to the loop's owner (spec/14). -/
def State.regOwned (s : State) (p a : Nat) : Bool :=
  if a / 0x10000 = 0x4030 ∧ 0x1000 ≤ a % 0x10000 then
    let n := (a % 0x10000 - 0x1000) / 0x100
    (if (a % 0x100) = 0x80 then s.feederLoopOwner n else s.owner 7 n) == p
  else s.regInView p false a

/-- The bits of a class that a partition reset leaves: those of the image, the epoch and FORCED of a binding (R118), the slice
and UNSETTLED of a fast channel (R60). -/
def RegClass.kept (c : RegClass) : Word :=
  if c.base = 0x40101020 then 0xF40#32 else if c.base = 0x4015101C then 0xFF000080#32 else BitVec.ofNat 32 c.fix

/-- Does a partition reset of `p` reset the register with key `k`? -/
def State.partReg (s : State) (p k : Nat) : Option RegClass :=
  match regClassOf k with
  | some c =>
    if (c.level = .part ∧ s.regOwned p k = true) ∨ (c.level = .core ∧ s.coreOwner (k / 2 ^ 32) = p) then some c else none
  | none => none

/-- The registers of partition `p` take their reset values (Table 17.5, WIPING). -/
def State.partRegs (s : State) (p : Nat) : State :=
  { s with
    regs := { s.regs with vals := s.regs.vals.filterMap fun e => match s.partReg p e.1 with
      | some c => if c.kept = 0#32 then none else some (e.1, (BitVec.ofNat 32 (c.rstAt e.1) &&& ~~~c.kept) ||| (e.2 &&& c.kept))
      | none => some e }
    shad := { s.shad with vals := s.shad.vals.filter fun e => (s.partReg p e.1).isNone } }

/-! ### ASSERTING -/

/-- Is lock owner code `o` one of partition `p`: a core or its function? -/
def State.lockHolder (s : State) (p o : Nat) : Bool := (o < 8 && s.coreOwner o == p) || (16 ≤ o && o < 24 && s.fnOwner (o - 16) == p)

/-- The bindings of `p` are forced, with their pair slots emptied and their waiting triggers dropped, and then its lanes are reset
(R118, R520). -/
def State.partLanes (s : State) (p : Nat) : State :=
  let s := s.each ((List.range 64).filter fun b => s.bindingOwner b == p) fun b t =>
    ((t.setBnd b { t.bnd b with pairs := [], due := [], wait := none, badA := false, badB := false }).forceBinding b).bindStatus b
  s.each ((List.range 16).filter fun n => s.owner 1 n == p) fun n t =>
    ((t.laneClear n).wr (R.LNC_Ln_FAULT n) 0#32).wr (R.LNC_Ln_FAULT_PC n) 0#32

/-- The blocks that hold work for `p` drop it: DMA channels, flash operations, Ethernet rings, feeder ports, the session window, event
channels (R322, R357, R369, R423, R459). -/
def State.partBlocks (s : State) (p : Nat) : State :=
  let s := s.each ((List.range 32).filter fun n => s.dmaOwner n == p) fun n t => (t.setDma n {}).put (R.DMA_Cn_STATUS_STATE n) 0
  let s := s.flashPartReset p
  let s := s.each (List.range 2) fun k t => t.ethRingReset k p
  let s := s.each ((List.range 4).filter fun n => s.owner 7 n == p) fun n t => t.setPort n {}
  let s := { s with ses := { s.ses with busy := s.ses.busy.drop (· == p) } }
  let s := s.each ((List.range 256).filter fun c => s.owner 8 c == p) fun c t => t.setChan c {}
  { s with ser := s.ser.drop fun c => s.serOwner c == p }

/-- ASSERTING (Table 17.5): all of it happens in the cycle of the request. -/
def State.partAssert (s : State) (p cause : Nat) : State :=
  let s := ((s.put (R.PART_Pn_STATE_STATE p) 2).put (R.PART_Pn_STATE_LAST_CAUSE p) cause).inc (R.PART_Pn_STATE_RESETS p)
  let s := s.each ((List.range 8).filter fun c => s.coreOwner c == p) fun c t => t.stopCore c
  let s := s.partLanes p
  let s := s.each ((List.range 24).filter fun n => s.owner 2 n == p && s.get (R.FCV_CHn_PHASE_PHASE n) != 0) fun n t =>
    t.setFch n { t.fch n with old := some (t.fcPhase n) }
  let s := s.each ((List.range 32).filter fun n => s.owner 4 n == p) fun n t => t.pwmStop n
  let s := s.each ((List.range 32).filter fun l => s.owner 5 l == p) fun l t => t.stopLink l
  let s := s.resetLocks (s.lockHolder p)
  s.partBlocks p

/-- A reset request for partition `p` (R390, R394): merged into a reset that runs, waiting for a reload in SWITCHING, and cancelling
one in CHECKING or PREPARING (R50). -/
def State.partReset (s : State) (p cause : Nat) : State :=
  match s.partState p with
  | 0 => s
  | 2 | 3 => s.put (R.PART_Pn_STATE_LAST_CAUSE p) cause
  | _ =>
    let r := s.get (R.SCFG_RQn_STAT_STATE p)
    if r = 3 then { s with deferred := s.deferred.set p cause }
    else
      let s := s.partAssert p cause
      if r = 1 ∨ r = 2 then (({ s with reload := none } : State).reloadTo p 6 (some (0x0A07, 0))).settleHeld else s

/-! ### WIPING and the release -/

/-- The resources of `p` other than registers return to reset, and status that shows live state follows it again. -/
def State.partRest (s : State) (p : Nat) : State :=
  let s := s.each ((List.range 8).filter fun c => s.coreOwner c == p) fun c t => t.clearCore c
  let s := s.each ((List.range 24).filter fun n => s.owner 2 n == p) fun n t => t.setFch n { hold := (t.fch n).hold, old := (t.fch n).old }
  let s := s.each ((List.range 80).filter fun n => s.owner 3 n == p) fun n t =>
    t.setSch n { en := (t.sch n).en, avg := (t.sch n).avg, shift := (t.sch n).shift, void := true }
  let s := s.each ((List.range 16).filter fun n => s.owner 6 n == p) fun n t => t.posCold n
  let s := s.each ((List.range 32).filter fun n => s.owner 4 n == p) fun n t => (t.setUnit n { t.unit n with coming := [], landed := none, before := none, commits := [] }).settleUnit n
  let s := s.each ((List.range 32).filter fun l => s.owner 5 l == p) fun l t => ((t.setFlink l (t.flink l)).settleLink l).leadShort l
  let s := s.each ((List.range 32).filter fun a => s.armOwner a == p) fun a t => t.setArm a {}
  let s := s.each (List.range 4) fun k t => t.put (R.SUP_PAIRk_STATUS k |> fun r => ⟨r, 2, 6⟩)
    (if t.coreOwner (2 * k) = p then 0 else fieldGet (t.rd (R.SUP_PAIRk_STATUS k)) 2 6)
  { s with orphans := s.orphans.filter fun d => (match d.1 with | 1 => s.owner 4 d.2 | 2 => s.armOwner d.2 | _ => s.owner 5 d.2) != p }

/-- WIPING begins: the registers take their reset values (Table 17.5). -/
def State.partWipe (s : State) (p : Nat) : State :=
  if s.partState p = 2 then ((s.put (R.PART_Pn_STATE_STATE p) 3).partRegs p).partRest p else s

/-- The memories of R392 read zero. -/
def State.partWipeMem (s : State) (p : Nat) : State :=
  let s := s.each ((List.range 32).filter fun b => s.bankOwner b == p) fun b t => t.wipe (0x10000000 + 0xC0000 * b) (0x10000000 + 0xC0000 * (b + 1))
  let s := s.each ((List.range 8).filter fun c => s.coreOwner c == p) fun c t => t.wipe (0x38000000 + 0x40000 * c) (0x38000000 + 0x40000 * (c + 1))
  s.each ((List.range 16).filter fun n => s.owner 1 n == p) fun n t =>
    (t.wipe (laneDataBase n) (laneDataBase n + 0x10000)).when (!t.laneBound n) fun t => t.wipe (laneCodeBase n) (laneCodeBase n + 0x10000)

/-- Core `c` starts at `a` in the reset state of R308; a lockstep pair starts as its leading core with the comparator on. -/
def State.startCore (s : State) (c : Nat) (a : Word) : State :=
  let s := (s.setCpuAt c { Cpu.init c with pc := a, started := true }).put (R.DBG_Cc_STATUS_STATE c) 0
  if c < 8 ∧ s.lockstep (c / 2) = true then s.put (R.SUP_PAIRk_STATUS_COMPARING (c / 2)) 1 else s

/-- The cores of `p` that start: of a lockstep pair the leading one alone is modelled (R496). -/
def State.coresOf (s : State) (p : Nat) : List Nat :=
  (List.range 8).filter fun c => s.coreOwner c == p && !(c % 2 == 1 && s.lockstep (c / 2))

/-- Start the cores of `p` at BOOT_ADDR. -/
def State.partStart (s : State) (p : Nat) : State :=
  (s.each (s.coresOf p) fun c t => t.startCore c (t.rd (R.PART_Pn_BOOT p))).put (R.PART_Pn_STATE_STATE p) 1

/-- The release of partition `p` (R393, R166): its cores start, wait for START, or there are none; links with BOOT_START start. -/
def State.partRelease (s : State) (p : Nat) : State :=
  let a := s.get (R.PART_Pn_BOOT_BOOT_ADDR p)
  let tcm := match regionOf a with | some (.itcm _) | some (.dtcm _) => true | _ => false
  let s := if (s.coresOf p).isEmpty then s.put (R.PART_Pn_STATE_STATE p) 1
    else if tcm then s.put (R.PART_Pn_STATE_STATE p) 5 else s.partStart p
  let s := s.each ((List.range 32).filter fun n => s.owner 4 n == p) fun n t => t.settleUnit n
  s.each ((List.range 32).filter fun l => s.owner 5 l == p && s.on (R.FLK_Ln_IMAGE_BOOT_START l)) fun l t => t.startLink l

/-- Must `p` stay HELD: HOLD is 1, or the comparator of a pair of `p` failed its test (Table 22.3)? -/
def State.mustHold (s : State) (p : Nat) : Bool :=
  s.on (R.PART_Pn_RSTCTRL_HOLD p) || (List.range 4).any fun k => s.bitOn R.SUP_CMPTEST_PAIR k && s.coreOwner (2 * k) == p

/-- The end of WIPING (R392, R393). -/
def State.partWiped (s : State) (p : Nat) : State :=
  let s := (s.partWipe p)
  if s.partState p != 3 then s
  else
    let s := s.partWipeMem p
    if s.mustHold p then s.put (R.PART_Pn_STATE_STATE p) 4 else s.partRelease p

/-! ### Register writes -/

/-- A write of `v` to PART_Pn_SELF by requester `q` at level `lvl` (R390, R393). -/
def partSelfWrite (p v : Nat) (q : Requester) (lvl : Nat) (s : State) : State :=
  let view := s.viewOf q
  let cause : Option Nat := if view = platform then some 1 else match q with
    | .core _ => if lvl = 2 then some 2 else none
    | .pcie _ => some 3
    | _ => none
  let reset := bit v 0 && bitsOf v 8 8 == 0x5A
  match cause, reset with
  | some c, true => s.partReset p c
  | _, _ =>
    let mayStart := view == platform || (match q with | .pcie _ => true | _ => false)
    if bit v 1 && mayStart && s.partState p == 5 then s.partStart p else s

/-- HOLD of PART_Pn_RSTCTRL takes a value: clearing it releases a HELD partition (R393). -/
def State.holdPart (s : State) (p : Nat) (hold : Bool) : State :=
  let s := s.putB (R.PART_Pn_RSTCTRL_HOLD p) hold
  if s.partState p == 4 && !s.mustHold p then s.partRelease p else s

/-- A write of `v` to PART_Pn_RSTCTRL. -/
def rstctrlWrite (p v : Nat) (s : State) : State :=
  let s := s.holdPart p (bit v 1)
  s.when (bit v 0) fun s => s.partReset p 1

/-- The level at which a requester makes a register access: that of the core, M for others. -/
def State.reqLvl (s : State) : Requester → Nat
  | .core c => (s.cpuAt c).lvl
  | _ => 2

/-! ### Commands -/

/-- PARTITION_RESET_REQUEST (R391): a reset of partition `p` with a cause of Table 17.4. -/
def execPartitionResetRequest (p : Fin 8) (cause : Fin 4) (s : State) : Out := .next (s.partReset p cause)
/-- PART_SELF_RESET (R390). -/
def execPartSelfReset (q : Requester) (p : Fin 8) (key : Byte) (s : State) : Out :=
  regWrite q (R.PART_Pn_SELF p) (fun s => partSelfWrite p (key.toNat * 256 + 1) q (s.reqLvl q) s) s
/-- PART_RSTCTRL_RESET (R390), written with HOLD. -/
def execPartRstctrlReset (q : Requester) (p : Fin 8) (hold : Bool) (s : State) : Out :=
  regWrite q (R.PART_Pn_RSTCTRL p) (rstctrlWrite p (2 * hold.toNat + 1)) s
/-- PARTITION_WIPE_DONE (R392). -/
def execPartitionWipeDone (p : Fin 8) (s : State) : Out := .next (if s.partState p = 2 ∨ s.partState p = 3 then s.partWiped p else s)
/-- PART_START (R393). -/
def execPartStart (q : Requester) (p : Fin 8) (s : State) : Out :=
  regWrite q (R.PART_Pn_SELF p) (fun s => partSelfWrite p 2 q (s.reqLvl q) s) s
/-- HOLD_WRITE (R393). -/
def execHoldWrite (q : Requester) (p : Fin 8) (hold : Bool) (s : State) : Out :=
  regWrite q (R.PART_Pn_RSTCTRL p) (rstctrlWrite p (2 * hold.toNat)) s

end Sys2Proof.Machine
end

