-- ==== Sys2Proof/Machine/Recov.lean ====
section
/-!
DEFINITION. The Pavane domain on its 32 kHz RC (spec/21, spec/22): the RTC, the watchdog's count, the recovery machine's sequence and the
analogue last-resort timer.
-/
namespace Sys2Proof.Machine

/-! ### The real-time clock (R483) -/

/-- The RTC counts `n` up. -/
def Pav.count (p : Pav) (n : Nat) : Pav := { p with rtc := (p.rtc + n) % 2 ^ 48 }

/-- What one RC cycle adds, in units of 1 / (125 * 2^20): (32,768 / 32,000) * (1 + TRIM * 2^-20). -/
def rtcStep (trim : Nat) : Nat := (128 * (2 ^ 20 + signed 16 trim)).toNat

/-- The RTC counts on the RC when there is no crystal. -/
def State.rtcRc (s : State) : State :=
  if s.srcRuns 1 || s.srcFailed 1 then s
  else
    let f := s.pav.frac + rtcStep (s.get R.PWR_RTC_CTRL_TRIM)
    { s with pav := { s.pav.count (f / (125 * 2 ^ 20)) with frac := f % (125 * 2 ^ 20) } }

/-- The RTC counts crystal cycles, one in 976,562.5 ticks; `d` is twice the ticks that have passed. -/
def State.rtcXtal (s : State) (d : Nat) : State :=
  if s.srcRuns 1 then
    let x := s.pav.xtal + d
    { s with pav := { s.pav.count (x / 1953125) with xtal := x % 1953125 } }
  else s

/-- A write of `v` to PWR_RTC_HI applies both words and sets VALID. -/
def rtcHiWrite (v : Nat) (s : State) : State :=
  (({ s with pav := { s.pav with rtc := v % 65536 * 2 ^ 32 + s.pav.stage, frac := 0, xtal := 0 } } : State).put R.PWR_RTC_HI_RTC_HI v).put
    R.PWR_RTC_CTRL_VALID 1
/-- A write of `v` to PWR_RTC_LO is staged. -/
def rtcLoWrite (v : Nat) (s : State) : State := { s with pav := { s.pav with stage := v % 2 ^ 32 } }
/-- A read of PWR_RTC_LO captures the high word. -/
def State.rtcLoRead (s : State) : Word × State :=
  (BitVec.ofNat 32 s.pav.rtc, s.put R.PWR_RTC_HI_RTC_HI (s.pav.rtc / 2 ^ 32))

/-! ### The watchdog (R502) -/

/-- Is the watchdog paused: the supervisor is halted for debug, or the device sleeps? -/
def State.wdtPaused (s : State) : Bool := s.chip.asleep != 0 || s.get (R.DBG_Cc_STATUS_STATE 8) == 1

/-- One RC edge of the watchdog: a written kick takes effect at the second edge, unless the timeout falls in the same cycle. -/
def State.wdtEdge (s : State) : State :=
  match s.pav.wdt with
  | none => s
  | some n =>
    if s.wdtPaused then s
    else match s.pav.kick with
      | some 1 =>
        if 32 * s.get R.SUP_WDT_MAX ≤ n + 1 then { s with pav := { s.pav with wdt := some (n + 1), kick := none } }
        else { s with pav := { s.pav with wdt := some 0, kick := none } }
      | k => { s with pav := { s.pav with wdt := some (n + 1), kick := k.map (· - 1) } }

/-! ### The recovery machine (R504, R505) -/

/-- Attempts within the last 320,000 RC cycles. -/
def Pav.recent (p : Pav) : List Nat := p.tries.filter fun t => decide (p.edges - t < 320000)

/-- Domain 21 runs on the backup RC again. -/
def State.supOnRc (s : State) : State :=
  let s := (((s.put (R.CLK_Dd_CTRL_SEL 21) 1).connect 21).put (R.CLK_Dd_CTRL_HOLD_RESET 21) 0).put (R.CLK_Dd_STATUS_IN_RESET 21) 0
  let s := s.srcFails
  if s.fed 21 then ((s.openGate 21).put (R.CLK_Dd_STATUS_HANG_LIVE 21) 0).edgesNow 21 else s

/-- The machine takes a failure: an attempt, or SAFE_HOLD. -/
def State.recTake (s : State) (cause : Nat) : State :=
  let s := ({ s with pav := { s.pav with fail := none, hold := true, wdt := none, kick := none } } : State).clearCore 8
  let s := s.put R.SUP_REC_STATUS_LAST_CAUSE cause
  if cause = 6 ∨ s.get R.SCFG_STATUS_BASE_SLOT = 3 ∨ 3 ≤ s.pav.recent.length then (s.put R.SUP_REC_STATUS_STATE 3).settleFault
  else
    let s := ({ s with pav := { s.pav with tries := s.pav.edges :: s.pav.tries } } : State).incSat R.SUP_REC_STATUS_TOTAL
    (s.put R.SUP_REC_STATUS_STATE 1).supOnRc

/-- One edge of the 32 kHz RC. -/
def State.rcEdge (s : State) : State :=
  let s := ({ s with pav := { s.pav with edges := s.pav.edges + 1, lrt := s.pav.lrt + 1 } } : State).rtcRc.wdtEdge
  let s := match s.pav.fail with
    | some c => s.recTake c
    | none => if s.get R.SUP_REC_STATUS_STATE = 1 then ({ s with pav := { s.pav with hold := false } } : State).put R.SUP_REC_STATUS_STATE 2 else s
  s.put R.SUP_REC_STATUS_ATTEMPTS s.pav.recent.length

/-! ### Commands -/

/-- RECOVERY_STEP (R504): one edge of the 32 kHz RC. -/
def execRecoveryStep (s : State) : Out := .next s.rcEdge
/-- RECOVERY_FAILURE (R503): a failure input with a cause of Table 22.6. -/
def execRecoveryFailure (cause : Fin 8) (s : State) : Out := .next (if cause.val = 0 then s else s.recFail cause)
/-- LRT_REARM (R507): 256 RC cycles after the last one. -/
def execLrtRearm (s : State) : Out := .next (if 256 ≤ s.pav.lrt then { s with pav := { s.pav with lrt := 0 } } else s)
/-- LRT_EXPIRY (R507). -/
def execLrtExpiry (s : State) : Out :=
  .next (({ s with chip := { s.chip with expired := true } } : State).put R.SUP_REC_STATUS_LRT_EXPIRED 1).settleFault
/-- RTC_SET (R483): a write to PWR_RTC_HI. -/
def execRtcSet (q : Requester) (v : BitVec 16) (s : State) : Out := regWrite q R.PWR_RTC_HI (rtcHiWrite v.toNat) s
/-- RTC_ALARM (R483): the count is ALM and ALM_EN is 1. -/
def execRtcAlarm (s : State) : Out :=
  .next (if s.on R.PWR_RTC_CTRL_ALM_EN && s.pav.rtc == s.get R.PWR_ALM_LO_ALM_LO + s.get R.PWR_ALM_HI_RTC_HI * 2 ^ 32 then
      (s.put R.PWR_RTC_CTRL_ALARM 1).raise 763
    else s)

end Sys2Proof.Machine
end

