-- ==== Sys2Proof/Machine/Img.lean ====
section
/-!
DEFINITION. The layout of the structure image (spec/02, R19 to R40): header, segment table, records and entries, read from bytes.
-/
namespace Sys2Proof.Machine

/-- A little-endian field of an image: `n` bytes at offset `o` (R21). -/
def fld (img : List Byte) (o n : Nat) : Nat := leNat ((img.drop o).take n)
/-- `n` bytes of an image at offset `o`. -/
def cut (img : List Byte) (o n : Nat) : List Byte := (img.drop o).take n

/-- First address of slot A (0) or B (1) (Table 2.1). -/
def slotBase (k : Nat) : Nat := 0x08000000 + 0x800000 * k
/-- SEQ of an image (Table 2.2). -/
def imgSeq (img : List Byte) : Nat := fld img 16 4
/-- LENGTH of an image. -/
def imgLen (img : List Byte) : Nat := fld img 20 4
/-- The image in a slot: LENGTH bytes, and at least the 96 bytes of the fixed header, which the header's tests read whatever LENGTH
says. Bytes beyond LENGTH are ignored (R20). -/
def State.slotImage (s : State) (k : Nat) : List Byte := s.bytesAt (slotBase k) (max 96 (min (s.numAt (slotBase k + 20) 4) 4194304))

/-- An owner byte of the image as an owner code (R29). -/
def ownerByte (b : Nat) : Nat := if b = 0xFF then platform else if b = 0xFE then unassigned else b
/-- The owner byte of a segment (Table 2.3): a byte that is no owner stands for itself above every code. -/
def segOwner (b : Nat) : Nat := if b = 0xFF then platform else if b < 8 then b else 256 + b

/-- A segment (Table 2.3): its entry's offset, owner, offset and length. -/
structure Seg where
  entry : Nat
  owner : Nat
  off   : Nat
  len   : Nat
  deriving DecidableEq, Repr

/-- The segment table. -/
def segs (img : List Byte) : List Seg :=
  (List.range (fld img 15 1)).map fun i =>
    let o := 96 + 48 * i
    ⟨o, segOwner (fld img o 1), fld img (o + 4) 4, fld img (o + 8) 4⟩

/-- A record (R26): owner of its segment, offset of its header, TYPE, body. -/
structure Rec where
  owner : Nat
  off   : Nat
  type  : Nat
  body  : List Byte
  deriving DecidableEq, Repr

/-- The records from offset `o` to the end `e` of a segment, and the offset of a record that runs past it. The first argument bounds
their number. -/
def recsFrom (img : List Byte) (owner : Nat) : Nat → Nat → Nat → List Rec × Option Nat
  | 0, _, _ => ([], none)
  | f + 1, o, e =>
    let n := o + 4 + 4 * fld img (o + 2) 2
    if o = e then ([], none)
    else if e < o + 4 ∨ e < n then ([], some o)
    else
      let r := recsFrom img owner f n e
      (⟨owner, o, fld img o 2, cut img (o + 4) (n - o - 4)⟩ :: r.1, r.2)

/-- The records of a segment. -/
def Seg.recs (g : Seg) (img : List Byte) : List Rec × Option Nat := recsFrom img g.owner (g.len / 4 + 1) g.off (g.off + g.len)

/-- All records of an image, in byte order. -/
def records (img : List Byte) : List Rec := ((segs img).map fun g => (g.recs img).1).flatten

/-- One entry of a record: owner of its segment, offset of the record's header, bytes. -/
structure Ent where
  owner : Nat
  off   : Nat
  bytes : List Byte
  deriving DecidableEq, Repr

/-- A little-endian field of an entry. -/
def Ent.u (e : Ent) (o n : Nat) : Nat := fld e.bytes o n

/-- Cut a byte string into pieces of `n` bytes. The first argument bounds their number. -/
def chunks : Nat → Nat → List Byte → List (List Byte)
  | 0, _, _ => []
  | f + 1, n, bs => if bs.isEmpty then [] else bs.take n :: chunks f n (bs.drop n)

/-- The size of the entries of a record type that is a list of entries (R27); 0 for a record that is one entry. -/
def entrySize : Nat → Nat
  | 2 | 4 | 5 | 8 | 12 => 4
  | 9 | 13 => 8
  | 10 | 14 => 12
  | _ => 0

/-- The entries of a record. -/
def Rec.ents (r : Rec) : List Ent :=
  let n := entrySize r.type
  if n = 0 then [⟨r.owner, r.off, r.body⟩] else (chunks (r.body.length + 1) n r.body).map fun b => ⟨r.owner, r.off, b⟩

/-- The entries of all records of type `t`. -/
def entsOf (rs : List Rec) (t : Nat) : List Ent := ((rs.filter fun r => r.type == t).map Rec.ents).flatten

/-! ### Records by kind -/

/-- The LOOP_BINDING record of binding `b`. -/
def bindingRec (rs : List Rec) (b : Nat) : Option Ent := (entsOf rs 7).find? fun e => e.u 0 1 == b
/-- The lanes that a LOOP_BINDING names. -/
def Ent.lanes (e : Ent) : List Nat := if e.u 2 1 = 0xFF then [e.u 1 1] else [e.u 1 1, e.u 2 1]
/-- Its destinations (KIND, ID) by port. -/
def Ent.dests (e : Ent) : List (Nat × Nat) := (List.range 4).map fun k => (e.u (12 + 2 * k) 1, e.u (13 + 2 * k) 1)
/-- The CONVERTERS entry of a fast channel (kind 0) or scan input (kind 1); of several the first. DESIGN CHOICE: no rule says whether two
entries may name one channel (log 56). -/
def convRec (rs : List Rec) (kind n : Nat) : Option Ent := (entsOf rs 9).find? fun e => e.u 0 1 == kind && e.u 1 1 == n
/-- The SAFE_STATES entry of a kind and number. -/
def safeRec (rs : List Rec) (kind n : Nat) : Option Ent := (entsOf rs 8).find? fun e => e.u 0 1 == kind && e.u 1 1 == n
/-- The CHAINS entry of a link (kind 1) or an arm (kind 2); of several the first. DESIGN CHOICE: no rule says whether two entries may
name one link or arm (log 56). -/
def chainRec (rs : List Rec) (kind n : Nat) : Option Ent := (entsOf rs 10).find? fun e => e.u 0 1 == kind && e.u 1 1 == n
/-- The comparators that SAFE_STATES joins to PWM unit `n`, as a mask. -/
def tripMask (rs : List Rec) (n : Nat) : Nat :=
  ((entsOf rs 8).filter fun e => e.u 0 1 == 3 && e.u 2 1 == n).foldl (fun m e => setBit m (e.u 1 1) true) 0
/-- The LANE_CODE records of lane `n`. -/
def codeOf (rs : List Rec) (n : Nat) : List Ent := (entsOf rs 6).filter fun e => e.u 0 1 == n

/-- A field of an optional entry, with a default. -/
def optU (e : Option Ent) (d o n : Nat) : Nat := match e with | some x => x.u o n | none => d

/-! ### Register words of the image -/

/-- LNC_Bb_MAP of a LOOP_BINDING record; 0 for none. -/
def mapWord : Option Ent → Word
  | none => 0#32
  | some e =>
    let flags := e.u 3 1
    BitVec.ofNat 32 (2 ^ 31 + e.u 10 1 % 4 * 2 ^ 27 + (bit flags 2).toNat * 2 ^ 26 + (bit flags 1).toNat * 2 ^ 25 + (bit flags 0).toNat * 2 ^ 24
      + e.u 7 1 * 2 ^ 16 + e.u 6 1 % 8 * 2 ^ 13 + e.u 8 1 % 32 * 2 ^ 8 + e.u 2 1 % 16 * 2 ^ 4 + e.u 1 1 % 16)
/-- LNC_Bb_DEST of it. -/
def destWord : Option Ent → Word
  | none => 0#32
  | some e => BitVec.ofNat 32 ((List.range 4).map fun k => (e.u (12 + 2 * k) 1 % 4 * 64 + e.u (13 + 2 * k) 1 % 32) * 2 ^ (8 * k)).sum

/-- FCV_CHn_CFG of a CONVERTERS entry; RANGE 0 and no copies without one (R55). -/
def fcCfgWord : Option Ent → Word
  | none => 0#32
  | some e => BitVec.ofNat 32 (e.u 4 2 * 2 ^ 16 + e.u 6 1 % 8 * 2 ^ 13 + (bit (e.u 7 1) 0).toNat * 2 ^ 12 + (bit (e.u 7 1) 1).toNat * 2 ^ 11
      + e.u 3 1 % 2 * 2 ^ 10 + e.u 2 1)

/-- PWM_Un_SAFE of the entries of both outputs. -/
def pwmSafeWord (rs : List Rec) (n : Nat) : Word :=
  let a := safeRec rs 0 (2 * n)
  let b := safeRec rs 0 (2 * n + 1)
  BitVec.ofNat 32 (optU b 0 3 1 % 2 * 32 + optU a 0 3 1 % 2 * 16 + optU b 0 2 1 % 4 * 4 + optU a 0 2 1 % 4)

/-- FLK_Ln_IMAGE of the CHAINS and SAFE_STATES entries of link `n`. -/
def flinkWord (rs : List Rec) (n : Nat) : Word :=
  let c := chainRec rs 1 n
  let f := safeRec rs 2 n
  BitVec.ofNat 32 (optU c 0xFF 8 1 * 2 ^ 24 + optU f 0 3 1 % 2 * 2 ^ 11 + optU f 0 2 1 % 2 * 2 ^ 10 + (bit (optU c 0 3 1) 1).toNat * 2 ^ 9
    + (bit (optU c 0 3 1) 0).toNat * 2 ^ 8 + optU c 0 2 1 % 64)

/-! ### Pads (R546 to R548, Table 24.5) -/

/-- The resource (class, number) that a pad's function serves; none for a pad without one. -/
def padResource (pad func : Nat) : Option (Nat × Nat) :=
  if pad < 96 then
    if func = 0 then some (13, pad)
    else if pad < 4 then some (9, pad / 2)
    else if pad < 20 then some (10, (pad - 4) / 4)
    else if pad < 48 then some (11, (pad - 20) / 7)
    else if pad < 52 then some (12, (pad - 48) / 2)
    else none
  else if func = 0 then none
  else if pad < 160 then some (4, (pad - 96) / 2)
  else if pad < 208 then some (6, (pad - 160) / 3)
  else none

/-- FUNC of a pad: 0 where no entry names it (R32). -/
def padFunc (rs : List Rec) (pad : Nat) : Nat := optU ((entsOf rs 4).find? fun e => e.u 0 2 == pad) 0 2 1

end Sys2Proof.Machine
end

