-- ==== Sys2Proof/Machine/Apply.lean ====
section
/-!
DEFINITION. Applying an image (spec/02, R27 to R40, R45): the run-time state that each record sets. `State.config` sets all of it in a
device whose registers are at reset; the parts serve a segment reload too.
-/
namespace Sys2Proof.Machine

/-- A register takes a value that the image gives it. -/
def State.fix (s : State) (r : Reg) (v : Word) : State := if s.rd r = v then s else s.wr r v

/-! ### Platform records -/

/-- PARTITION records (R28). -/
def State.applyParts (rs : List Rec) (s : State) : State :=
  s.each (entsOf rs 1) fun e s =>
    let p := e.u 0 1
    let rights := e.u 1 1
    let s := s.wr (R.PART_Pn_CFG p) (BitVec.ofNat 32 (2 ^ 31 + (bit rights 1).toNat * 2 ^ 25 + (bit rights 0).toNat * 2 ^ 24 + e.u 3 1 * 2 ^ 16 + e.u 2 1))
    let s := (s.wr (R.PART_Pn_SRAM p) (BitVec.ofNat 32 (e.u 8 4))).wr (R.PART_Pn_FLASH p) (BitVec.ofNat 32 (e.u 14 2 % 1024 * 2 ^ 16 + e.u 12 2 % 512))
    let s := (s.wr (R.PART_Pn_LOCKS p) (BitVec.ofNat 32 (e.u 18 2 * 2 ^ 16 + e.u 16 2))).wr (R.PART_Pn_DMA p) (BitVec.ofNat 32 (e.u 20 4))
    let s := s.wr (R.PART_Pn_BOOT p) (BitVec.ofNat 32 (e.u 24 4))
    { s with vlan := (s.vlan.set p (e.u 4 2)).set (8 + p) (e.u 6 2) }

/-- OWNERSHIP (R29), and the OWNER of each FEEDER entry (R324) as class 14. DEDUCED: of the two OWNERs of a feeder port that of
OWNERSHIP governs, as R17 says of every resource; FEEDER says which ports are used (log 55). -/
def State.applyOwn (rs : List Rec) (s : State) : State :=
  let t := (entsOf rs 2).foldl (fun (t : Tab Nat) e => (List.range (e.u 2 1)).foldl (fun t i =>
    t.set (e.u 0 1 * 256 + e.u 1 1 + i) (ownerByte (e.u 3 1))) t) s.own
  { s with own := (entsOf rs 14).foldl (fun t e => t.set (14 * 256 + e.u 0 1) (e.u 1 1)) t }

/-- CLOCKS (R30). -/
def State.applyClocks (rs : List Rec) (s : State) : State :=
  match (entsOf rs 3).head? with
  | none => s
  | some e =>
    let s := { s with clk := { s.clk with ext := e.u 0 1 == 1 } }
    let s := s.when (e.u 1 1 == 1) fun s => s.setSrc 1 true
    s.each (List.range 104) fun d s => s.put (R.CLK_Dd_STATUS_MODE d) (e.u (4 + d) 1)

/-- PINMUX (R32). -/
def State.applyPins (rs : List Rec) (s : State) : State :=
  { s with pads := (entsOf rs 4).foldl (fun t e => t.set (e.u 0 2) (e.u 2 1 + 8 * e.u 3 1)) s.pads }

/-- PAIRS (R40). -/
def State.applyPairs (rs : List Rec) (s : State) : State :=
  s.each (List.range 4) fun k s => s.putB (R.SUP_PAIRk_STATUS_LOCKSTEP k) ((entsOf rs 11).any fun e => bit (e.u 0 1) k)

/-- The requesters attached to arbiter `a` (Table 19.1). -/
def attached (a : Nat) : List Nat :=
  if a < 32 then List.range 17 else if a < 48 then [10, 17]
  else if a = 48 then List.range 10 ++ [15, 16] else if a = 49 then List.range 10 ++ [13, 15] else []

/-- Is an attached requester present (R426)? -/
def State.requesterPresent (s : State) (r : Nat) : Bool :=
  8 ≤ r || (s.coreOwner r != unassigned && !(r % 2 == 1 && s.lockstep (r / 2)))

/-- ARBITERS (R426, R434): of two entries for one arbiter and requester the first governs (DESIGN CHOICE, log 56); PRESENT, PRIORITY and HOG, active and shadow, and BOUND. -/
def State.applyArbs (rs : List Rec) (s : State) : State :=
  let es := entsOf rs 12
  s.each (List.range 50) fun a s =>
    let here := (attached a).filter s.requesterPresent
    let s := s.each here fun r s =>
      let e := es.find? fun e => e.u 0 1 == a && e.u 1 1 == r
      let v := BitVec.ofNat 32 (2 ^ 31 + optU e (if r = 8 then 7 else 3) 2 1 % 8 * 256 + optU e 2 3 1)
      { s.wr (R.ARB_Aa_REQr a r) v with shad := s.shad.wr (R.ARB_Aa_REQr a r) v }
    let hogs := here.map fun r => s.hog a r
    s.put (R.ARB_Aa_BOUND_BOUND a) (hogs.sum - hogs.foldl min 256)

/-- SESSIONS (R40): of two entries for one partition the last governs (DESIGN CHOICE, log 56). -/
def State.applyQuotas (rs : List Rec) (s : State) : State := s.each (entsOf rs 13) fun e s => s.put (R.SES_Pp_QUOTA_QUOTA (e.u 0 1)) (e.u 4 4)

/-- FEEDER (R40, R324). -/
def State.applyFeeder (rs : List Rec) (s : State) : State :=
  s.each (entsOf rs 14) fun e s =>
    s.wr (R.FSE_Pn_IMAGE (e.u 0 1)) (BitVec.ofNat 32 (e.u 6 2 * 2 ^ 16 + e.u 4 1 % 2 * 2 ^ 15 + e.u 3 1 % 32 * 2 ^ 10 + e.u 2 1 % 64 * 16 + e.u 1 1 % 8))

/-- PCIe functions (R376): those that a partition holds, and the head functions. -/
def State.applyFns (s : State) : State :=
  s.each (List.range 8) fun f s =>
    let o := s.fnOwner f
    let head := f == 0 || (f == 4 && s.on (R.PCIE_LINKl_STATUS_SPLIT 0))
    (s.putB (R.PCIE_Fn_STATUS_PRESENT f) (o < 8 || head)).put (R.PCIE_Fn_STATUS_PART f) o

/-! ### Records that a segment reload can change -/

/-- EVENTS (R33): every enable bit and multiplexer. -/
def State.applyEvents (rs : List Rec) (s : State) : State :=
  let es := entsOf rs 5
  s.each (List.range 256) fun c s =>
    let mine := es.filter fun e => e.u 2 1 == c
    let s := s.fix (R.EVM_Cc_CONS c) (match mine.find? fun e => e.u 3 1 == 2 with
      | some e => BitVec.ofNat 32 (2 ^ 31 + e.u 0 2)
      | none => 0#32)
    s.each (List.range 24) fun j s =>
      let on := mine.filter fun e => e.u 3 1 == 1 && e.u 0 2 / 32 == j
      s.fix (R.EVM_Cc_ENj c j) (BitVec.ofNat 32 (on.foldl (fun m e => setBit m (e.u 0 2 % 32) true) 0))

/-- The lanes that the bindings name follow their MAP registers. -/
def State.settleBound (s : State) : State :=
  s.each (List.range 16) fun n s =>
    let b := (List.range 64).find? fun b => (s.lanesOf b).contains n
    (s.putB (R.LNC_Ln_STATUS_BOUND n) b.isSome).put (R.LNC_Ln_STATUS_BINDING n) (b.getD 0)

/-- LOOP_BINDING `b` as its lanes know it: MAP and ENTRY (R35). -/
def State.applyMap (rs : List Rec) (b : Nat) (s : State) : State :=
  let e := bindingRec rs b
  (s.fix (R.LNC_Bb_MAP b) (mapWord e)).fix (R.LNC_Bb_ENTRY b) (BitVec.ofNat 32 (optU e 0 4 2))

/-- Every LOOP_BINDING at boot (R35). -/
def State.applyBindings (rs : List Rec) (s : State) : State :=
  (s.each (List.range 64) fun b s =>
    let e := bindingRec rs b
    let s := (s.applyMap rs b).fix (R.LNC_Bb_DEST b) (destWord e)
    if e.isSome then s.put (R.LNC_Bb_STATUS_EPOCH b) (optU e 0 9 1) else s).settleBound

/-- CONVERTERS of fast channel `n` (R38). -/
def State.applyFc (rs : List Rec) (n : Nat) (s : State) : State := s.fix (R.FCV_CHn_CFG n) (fcCfgWord (convRec rs 0 n))
/-- CONVERTERS of external scan input `n`. -/
def State.applySc (rs : List Rec) (n : Nat) (s : State) : State :=
  let v := optU (convRec rs 1 n) 0 2 1
  if s.get (R.SCV_CHn_CFG_RANGE n) = v then s else s.put (R.SCV_CHn_CFG_RANGE n) v

/-- SAFE_STATES of PWM unit `n` (R36). -/
def State.applyPwmSafe (rs : List Rec) (n : Nat) (s : State) : State :=
  ((s.fix (R.PWM_Un_SAFE n) (pwmSafeWord rs n)).fix (R.PWM_Un_TRIPSRC_LO n) (BitVec.ofNat 32 (tripMask rs n))).fix (R.PWM_Un_TRIPSRC_HI n)
    (BitVec.ofNat 32 (tripMask rs n / 2 ^ 32))
/-- SAFE_STATES of the pads (R36): of two entries for one pad the last governs (DESIGN CHOICE, log 56). -/
def State.applyPadSafe (rs : List Rec) (s : State) : State :=
  { s with padSafe := ((entsOf rs 8).filter fun e => e.u 0 1 == 1).foldl (fun t e => t.set (e.u 1 1) (e.u 2 1)) [] }

/-- CHAINS and SAFE_STATES of link `n`, but LEAD (R36, R39). -/
def State.applyLink (rs : List Rec) (n : Nat) (s : State) : State := s.fix (R.FLK_Ln_IMAGE n) (flinkWord rs n)
/-- LEAD of link `n`, with what R184 makes of it. -/
def State.applyLead (rs : List Rec) (n : Nat) (s : State) : State :=
  (s.fix (R.FLK_Ln_LEAD n) (BitVec.ofNat 32 (optU (chainRec rs 1 n) 0 4 4))).leadShort n
/-- CHAINS of arm `a` (R39), with RUNNING (R193). -/
def State.applyArm (rs : List Rec) (a : Nat) (s : State) : State :=
  let e := chainRec rs 2 a
  (((s.fix (R.ABL_Aa_CFG a) (BitVec.ofNat 32 (optU e 0 2 1))).fix (R.ABL_Aa_LINKS a) (BitVec.ofNat 32 (optU e 0 4 4))).fix (R.ABL_Aa_NOMINAL a)
    (BitVec.ofNat 32 (optU e 0 8 4))).armStatus a

/-- Everything but memory that an image sets in a device at reset (Table 2.4). -/
def State.config (rs : List Rec) (s : State) : State :=
  let s := ((((((s.applyParts rs).applyOwn rs).applyClocks rs).applyPins rs).applyPairs rs).applyArbs rs).applyQuotas rs
  let s := (((s.applyFeeder rs).applyFns).applyEvents rs).applyBindings rs
  let s := (s.each (List.range 24) fun n t => t.applyFc rs n).each (List.range 64) fun n t => t.applySc rs n
  let s := (s.each (List.range 32) fun n t => t.applyPwmSafe rs n).applyPadSafe rs
  let s := s.each (List.range 32) fun n t => (t.applyLink rs n).applyLead rs n
  s.each (List.range 32) fun a t => t.applyArm rs a

/-! ### Memory (R34, R40, R45) -/

/-- ROM as the one who writes code. -/
def romWho : Who := ⟨.core 8, platform⟩

/-- Load the LANE_CODE records of lane `n` (R34). -/
def State.loadLane (rs : List Rec) (n : Nat) (s : State) : State :=
  s.each (codeOf rs n) fun e t =>
    (t.memWrite romWho ((if e.u 1 1 = 0 then laneCodeBase n else laneDataBase n) + e.u 4 4) (e.bytes.drop 8)).2

/-- Load the SUPERVISOR_CODE records (R40). -/
def State.loadSup (rs : List Rec) (s : State) : State :=
  s.each (entsOf rs 15) fun e t => (t.memWrite romWho (0x38200000 + e.u 0 4) (e.bytes.drop 8)).2

/-- The supervisor's start offset (R40). -/
def supEntry (rs : List Rec) : Nat := optU (entsOf rs 15).head? 0 4 4

/-- Apply an image at boot: safe states and registers, then code (R45). -/
def State.applyImage (img : List Byte) (s : State) : State :=
  let rs := records img
  let s := ({ s with image := img, chip := { s.chip with latch := [] } } : State).config rs
  let s := s.settleOutputs
  let s := (s.each (List.range 16) fun n t => t.loadLane rs n).loadSup rs
  let s := (s.put R.SCFG_SEQ_SEQ (imgSeq img)).put R.LCS_KEYS_RUNNING (fld img 14 1)
  s.settleHeld

end Sys2Proof.Machine
end

