-- ==== Sys2Proof/Machine/Crypto.lean ====
section
/-!
DEFINITION. The two standards that images, tokens and debug grants are checked by (R21, R25, R511, R536): SHA-256 and the
verification of an ECDSA signature over curve P-256. PRESUMED (log 10): the spec names both and restates neither.
-/
namespace Sys2Proof.Machine

/-! ### SHA-256 -/

/-- The eight 32-bit words of a hash value. -/
structure Hash where
  a : Nat
  b : Nat
  c : Nat
  d : Nat
  e : Nat
  f : Nat
  g : Nat
  h : Nat
  deriving DecidableEq, Repr

/-- A 32-bit word rotated right. -/
def rotr32 (n x : Nat) : Nat := x / 2 ^ n ||| x * 2 ^ (32 - n) % 2 ^ 32
/-- The hash value before the first block. -/
def sha256Start : Hash :=
  ⟨0x6A09E667, 0xBB67AE85, 0x3C6EF372, 0xA54FF53A, 0x510E527F, 0x9B05688C, 0x1F83D9AB, 0x5BE0CD19⟩
/-- The round constants. -/
def sha256K : List Nat :=
  [0x428A2F98, 0x71374491, 0xB5C0FBCF, 0xE9B5DBA5, 0x3956C25B, 0x59F111F1, 0x923F82A4, 0xAB1C5ED5,
   0xD807AA98, 0x12835B01, 0x243185BE, 0x550C7DC3, 0x72BE5D74, 0x80DEB1FE, 0x9BDC06A7, 0xC19BF174,
   0xE49B69C1, 0xEFBE4786, 0x0FC19DC6, 0x240CA1CC, 0x2DE92C6F, 0x4A7484AA, 0x5CB0A9DC, 0x76F988DA,
   0x983E5152, 0xA831C66D, 0xB00327C8, 0xBF597FC7, 0xC6E00BF3, 0xD5A79147, 0x06CA6351, 0x14292967] ++
  [0x27B70A85, 0x2E1B2138, 0x4D2C6DFC, 0x53380D13, 0x650A7354, 0x766A0ABB, 0x81C2C92E, 0x92722C85,
   0xA2BFE8A1, 0xA81A664B, 0xC24B8B70, 0xC76C51A3, 0xD192E819, 0xD6990624, 0xF40E3585, 0x106AA070,
   0x19A4C116, 0x1E376C08, 0x2748774C, 0x34B0BCB5, 0x391C0CB3, 0x4ED8AA4A, 0x5B9CCA4F, 0x682E6FF3,
   0x748F82EE, 0x78A5636F, 0x84C87814, 0x8CC70208, 0x90BEFFFA, 0xA4506CEB, 0xBEF9A3F7, 0xC67178F2]

/-- The message schedule: `n` more words, latest word first. -/
def sha256Extend : Nat → List Nat → List Nat
  | 0, w => w
  | n + 1, w =>
    let x := w.getD 14 0
    let y := w.getD 1 0
    let s0 := rotr32 7 x ^^^ rotr32 18 x ^^^ x / 2 ^ 3
    let s1 := rotr32 17 y ^^^ rotr32 19 y ^^^ y / 2 ^ 10
    sha256Extend n ((s1 + w.getD 6 0 + s0 + w.getD 15 0) % 2 ^ 32 :: w)

/-- One round with constant and word `kw`. -/
def sha256Round (v : Hash) (kw : Nat × Nat) : Hash :=
  let s1 := rotr32 6 v.e ^^^ rotr32 11 v.e ^^^ rotr32 25 v.e
  let ch := v.e &&& v.f ^^^ (2 ^ 32 - 1 - v.e) &&& v.g
  let t1 := v.h + s1 + ch + kw.1 + kw.2
  let s0 := rotr32 2 v.a ^^^ rotr32 13 v.a ^^^ rotr32 22 v.a
  let maj := v.a &&& v.b ^^^ v.a &&& v.c ^^^ v.b &&& v.c
  ⟨(t1 + s0 + maj) % 2 ^ 32, v.a, v.b, v.c, (v.d + t1) % 2 ^ 32, v.e, v.f, v.g⟩

/-- The words of a block. -/
def shaWords : List Byte → List Nat
  | a :: b :: c :: d :: bs => beNat [a, b, c, d] :: shaWords bs
  | _ => []

/-- One block of 64 bytes. -/
def sha256Block (v : Hash) (bs : List Byte) : Hash :=
  let w := (sha256Extend 48 (shaWords bs).reverse).reverse
  let r := (sha256K.zip w).foldl sha256Round v
  let add := fun x y => (x + y) % 2 ^ 32
  ⟨add v.a r.a, add v.b r.b, add v.c r.c, add v.d r.d, add v.e r.e, add v.f r.f, add v.g r.g, add v.h r.h⟩

/-- `n` blocks. -/
def sha256Blocks : Nat → Hash → List Byte → Hash
  | 0, v, _ => v
  | n + 1, v, bs => sha256Blocks n (sha256Block v (bs.take 64)) (bs.drop 64)

/-- The message with its padding: a one bit, zeros, and its length in bits. -/
def sha256Pad (m : List Byte) : List Byte :=
  m ++ 0x80#8 :: List.replicate ((119 - m.length % 64) % 64) 0#8 ++ beBytes 8 (8 * m.length)

/-- SHA-256 of a byte string. -/
def sha256 (m : List Byte) : List Byte :=
  let p := sha256Pad m
  let v := sha256Blocks (p.length / 64) sha256Start p
  ([v.a, v.b, v.c, v.d, v.e, v.f, v.g, v.h].map (beBytes 4)).flatten

/-! ### ECDSA over P-256 -/

namespace P256

/-- The prime of the field, the order of the base point, the coefficient b, and the base point. -/
def p : Nat := 0xFFFFFFFF00000001000000000000000000000000FFFFFFFFFFFFFFFFFFFFFFFF
def n : Nat := 0xFFFFFFFF00000000FFFFFFFFFFFFFFFFBCE6FAADA7179E84F3B9CAC2FC632551
def b : Nat := 0x5AC635D8AA3A93E7B3EBBD55769886BC651D06B0CC53B0F63BCE3C3E27D2604B
def gx : Nat := 0x6B17D1F2E12C4247F8BCE6E563A440F277037D812DEB33A0F4A13945D898C296
def gy : Nat := 0x4FE342E2FE1A7F9B8EE7EB4A7C0F9E162BCE33576B315ECECBB6406837BF51F5

/-- A point (x / z^2, y / z^3); z = 0 is the point at infinity. -/
structure Pt where
  x : Nat
  y : Nat
  z : Nat
  deriving DecidableEq, Repr

/-- Twice a point (a = -3). -/
def double (q : Pt) : Pt :=
  let d := q.z * q.z % p
  let g := q.y * q.y % p
  let be := q.x * g % p
  let al := 3 * (q.x + p - d) * (q.x + d) % p
  let x := (al * al + 8 * p - 8 * be) % p
  ⟨x, (al * (4 * be + p - x) + 8 * p - 8 * (g * g % p)) % p, 2 * q.y * q.z % p⟩

/-- The sum of two points. -/
def add (q r : Pt) : Pt :=
  if q.z = 0 then r else if r.z = 0 then q
  else
    let z1 := q.z * q.z % p
    let z2 := r.z * r.z % p
    let u1 := q.x * z2 % p
    let u2 := r.x * z1 % p
    let s1 := q.y * z2 * r.z % p
    let s2 := r.y * z1 * q.z % p
    if u1 = u2 then (if s1 = s2 then double q else ⟨1, 1, 0⟩)
    else
      let h := (u2 + p - u1) % p
      let t := (s2 + p - s1) % p
      let h2 := h * h % p
      let h3 := h * h2 % p
      let v := u1 * h2 % p
      let x := (t * t + 3 * p - h3 - 2 * v) % p
      ⟨x, (t * (v + p - x) + p - s1 * h3 % p) % p, h * q.z * r.z % p⟩

/-- The multiple `k` of a point, over `i` bits of `k`. -/
def mul : Nat → Nat → Pt → Pt
  | 0, _, _ => ⟨1, 1, 0⟩
  | i + 1, k, q =>
    let d := double (mul i (k / 2) q)
    if k % 2 = 1 then add d q else d

/-- x^k mod m, over `i` bits of `k`. -/
def pow (m x : Nat) : Nat → Nat → Nat
  | 0, _ => 1
  | i + 1, k =>
    let s := pow m x i (k / 2)
    if k % 2 = 1 then s * s % m * x % m else s * s % m

/-- Is (x, y) a point of the curve? -/
def onCurve (x y : Nat) : Bool := decide (x < p) && decide (y < p) && y * y % p == (x * x * x + b + 3 * (p - x)) % p

end P256

/-- Does the signature `sig` (r then s) verify for the hash `h` under the public key `key` (X then Y)? -/
def ecdsaOk (key h sig : List Byte) : Bool :=
  let x := beNat (key.take 32)
  let y := beNat ((key.drop 32).take 32)
  let r := beNat (sig.take 32)
  let s := beNat ((sig.drop 32).take 32)
  let w := P256.pow P256.n s 256 (P256.n - 2)
  let q := P256.add (P256.mul 256 (beNat h * w % P256.n) ⟨P256.gx, P256.gy, 1⟩) (P256.mul 256 (r * w % P256.n) ⟨x, y, 1⟩)
  let zi := P256.pow P256.p q.z 256 (P256.p - 2)
  P256.onCurve x y && r != 0 && decide (r < P256.n) && s != 0 && decide (s < P256.n) && q.z != 0 &&
    q.x * zi % P256.p * zi % P256.p % P256.n == r

end Sys2Proof.Machine
end

