-- ==== Sys2Proof/Machine/Check.lean ====
section
/-!
DEFINITION. The structure checker (spec/02, R41, R42): header, digest, signature, segment table, records, rules between records, and the
reload codes. A result is a code of Table 2.12 with an offset; none where the image passes.
-/
namespace Sys2Proof.Machine

/-- A failure: code and byte offset. -/
abbrev Bad := Option (Nat × Nat)

/-- The first failure of a list of (condition, code, offset). -/
def firstBad (l : List (Bool × Nat × Nat)) : Bad := (l.find? fun x => x.1).map (·.2)

/-! ### Header, digest and signature (R22, R25) -/

/-- Is key slot `k` provisioned, not revoked and, when `key` is given, that of this key (R25)? -/
def Fuses.keyOk (f : Fuses) (k : Nat) (key : Option (List Byte)) : Bool :=
  k < 4 && !bit f.revoked k && match (f.keys.find? fun e => e.1 == k), key with
    | some (_, h), some x => sha256 x == h
    | some _, none => true
    | none, _ => false

/-- The header fields in the order of Table 2.2. -/
def checkHeader (img : List Byte) (floor : Nat) (f : Fuses) : Bad :=
  let n := fld img 15 1
  let hdr := fld img 6 2
  let len := imgLen img
  firstBad
    [(img.take 4 != [0x53, 0x52, 0x49, 0x4D], 0x0101, 0), (fld img 4 2 != 1, 0x0102, 4), (hdr != 96 + 48 * n, 0x0105, 6),
     (fld img 8 4 != 0x9420, 0x0103, 8), (!bit (fld img 12 2) 0, 0x0103, 12), (!f.keyOk (fld img 14 1) none, 0x0104, 14),
     (n == 0 || decide (9 < n), 0x0105, 15), (imgSeq img == 0 || decide (imgSeq img < floor), 0x0106, 16),
     (decide (4194304 < len) || len % 4 != 0 || decide (len ≤ hdr + 96) || decide (img.length < len), 0x0105, 20),
     (decide (1 < fld img 24 4), 0x0107, 24), (!f.keyOk (fld img 14 1) (some (cut img 32 64)), 0x0104, 32)]

/-- The digest and the signature (R25). -/
def checkSign (img : List Byte) : Bad :=
  let len := imgLen img
  let d := sha256 (img.take (len - 96))
  firstBad [(cut img (len - 96) 32 != d, 0x0108, len - 96), (!ecdsaOk (cut img 32 64) d (cut img (len - 64) 64), 0x0109, len - 64)]

/-! ### Segment table (R23, R24) -/

/-- The layout rules of R24 from the segment at `expect` on; `prev` is the owner before it (none for the platform's). -/
def checkLayout (img : List Byte) : List Seg → Nat → Option Nat → Bad
  | [], expect, _ => if expect = imgLen img - 96 then none else some (0x0201, 96 + 48 * (fld img 15 1 - 1))
  | g :: gs, expect, prev =>
    let owner := if g.entry = 96 then g.owner == platform else g.owner < 8 && match prev with | some p => decide (p < g.owner) | none => true
    if fld img (g.entry + 1) 3 != 0 || fld img (g.entry + 12) 4 != 0 || !owner || g.off != expect || g.len % 4 != 0 then some (0x0201, g.entry)
    else checkLayout img gs (expect + g.len) (if g.entry = 96 then none else some g.owner)

/-- The segment table: layout, then digests. DEDUCED: step 4 of R41 tests the table, then what it covers; the layout of all entries stands
before any SDIGEST, in the order of the codes (log 57). -/
def checkSegs (img : List Byte) : Bad :=
  match checkLayout img (segs img) (fld img 6 2) none with
  | some b => some b
  | none => firstBad ((segs img).map fun g => (sha256 (cut img g.off g.len) != cut img (g.entry + 16) 32, 0x0202, g.entry))

/-! ### Records, each against its own rules (R27 to R40) -/

/-- Where a type may stand: 0 platform segment, 1 partition segments, 2 any; none for an unknown type (Table 2.4). -/
def recPlace : Nat → Option Nat
  | 1 | 2 | 3 | 4 | 11 | 12 | 13 | 14 | 15 => some 0
  | 6 | 7 | 9 | 10 => some 1
  | 5 | 8 | 0x7F00 => some 2
  | _ => none

/-- Is WLEN allowed for a type (Table 2.4)? -/
def wlenOk (t w : Nat) : Bool :=
  match t with
  | 1 => w == 8
  | 3 => w == 27
  | 6 | 15 => 3 ≤ w
  | 7 => w == 6
  | 9 | 13 => w % 2 == 0
  | 10 | 14 => w % 3 == 0
  | 11 => w == 1
  | _ => true

/-- How many numbers an ownership class has (Table 2.6). -/
def classSize : Nat → Nat
  | 1 => 16 | 2 => 24 | 3 => 64 | 4 => 32 | 5 => 32 | 6 => 16 | 7 => 4 | 8 => 256 | 9 => 2 | 10 => 4 | 11 => 4 | 12 => 2 | 13 => 96 | _ => 0

/-- BOOT_ADDR of a PARTITION body (Table 2.5). -/
def bootOk (e : Ent) : Bool :=
  let a := e.u 24 4
  let lo := 0x08000000 + 0x10000 * e.u 12 2
  e.u 2 1 == 0 || (a % 2 == 0 && ((lo ≤ a && a < lo + 0x10000 * e.u 14 2) ||
    (List.range 8).any fun c => bit (e.u 2 1) c && 0x38000000 + 0x40000 * c ≤ a && a < 0x38020000 + 0x40000 * c))

/-- Does an INDEX of Table 13.2 exist? -/
def inputExists (i : Nat) : Bool :=
  i ≤ 0x0908 || (0x0A00 ≤ i && i < 0x0A2C) || (0x0A30 ≤ i && i < 0x0A84) || (0x0A88 ≤ i && i < 0x0A8A) || (0x0A90 ≤ i && i < 0x0AA0)

/-- Reserved fields are 0 and fields hold encodings that exist, for one entry of type `t`. DESIGN CHOICE: FLASH_FIRST of a PARTITION
without flash (FLASH_COUNT 0) may take any value, and PART_Pn_FLASH shows its low 9 bits (log 56). -/
def entOk (t : Nat) (e : Ent) : Bool :=
  match t with
  | 1 => e.u 0 1 < 8 && e.u 1 1 < 4 && (e.u 3 1 < 8 || e.u 3 1 == 0xFF) && e.u 4 2 ≤ 4094 && e.u 6 2 ≤ 4094 && e.u 16 2 < 256 &&
      e.u 16 2 + e.u 18 2 ≤ 256 && e.u 28 4 == 0 && bootOk e
  | 2 => 1 ≤ e.u 2 1 && e.u 1 1 + e.u 2 1 ≤ classSize (e.u 0 1) && (e.u 3 1 < 8 || 0xFE ≤ e.u 3 1)
  | 3 => e.u 0 1 < 2 && e.u 1 1 < 2 && e.u 2 1 == 104 && e.u 3 1 == 0 && (List.range 104).all fun d => e.u (4 + d) 1 < 3
  | 4 => e.u 0 2 < 208 && e.u 2 1 < 2 && !(e.u 2 1 == 1 && 52 ≤ e.u 0 2 && e.u 0 2 < 96) && e.u 3 1 < 64 && e.u 3 1 % 4 != 3 && e.u 3 1 / 4 % 4 != 3
  | 5 => (e.u 3 1 == 1 && e.u 0 2 < 768) || (e.u 3 1 == 2 && inputExists (e.u 0 2))
  | 6 => e.u 0 1 < 16 && e.u 1 1 < 2 && e.u 2 2 == 0 && e.u 4 4 % 4 == 0
  | 7 => e.u 0 1 < 64 && e.u 1 1 < 16 && (e.u 2 1 < 16 || e.u 2 1 == 0xFF) && e.u 3 1 < 8 && e.u 4 2 % 2 == 0 && e.u 6 1 < 5 &&
      (e.u 10 1 < 4 || e.u 10 1 == 0xFF) && e.u 11 1 == 0 && e.u 20 4 == 0 && e.dests.all fun d => d.1 < 4 && (d.1 == 0 || d.2 < 32)
  | 8 => match e.u 0 1 with
      | 0 => e.u 1 1 < 64 && e.u 2 1 < 3 && e.u 3 1 < 2
      | 1 => e.u 1 1 < 96 && e.u 2 1 < 3 && e.u 3 1 == 0
      | 2 => e.u 1 1 < 32 && e.u 2 1 < 2 && e.u 3 1 < 2
      | 3 => e.u 1 1 < 48 && e.u 2 1 < 32 && e.u 3 1 == 0
      | _ => false
  | 9 => match e.u 0 1 with
      | 0 => e.u 1 1 < 24 && e.u 2 1 < 3 && e.u 3 1 < 2 && e.u 6 1 < 8 && e.u 7 1 < 4
      | 1 => e.u 1 1 < 64 && e.u 2 1 < 2 && e.u 3 1 == 0 && e.u 4 2 == 0 && e.u 6 1 == 0 && e.u 7 1 == 0
      | _ => false
  | 10 => match e.u 0 1 with
      | 1 => e.u 1 1 < 32 && 1 ≤ e.u 2 1 && e.u 2 1 ≤ 32 && e.u 3 1 < 4 && (e.u 8 1 < 32 || e.u 8 1 == 0xFF) && e.u 9 3 == 0
      | 2 => e.u 1 1 < 32 && 1 ≤ e.u 2 1 && e.u 2 1 ≤ 128 && e.u 3 1 == 0
      | _ => false
  | 11 => e.u 0 1 < 16 && e.u 1 3 == 0
  | 12 => e.u 2 1 < 8 && 1 ≤ e.u 3 1
  | 13 => e.u 0 1 < 8 && e.u 1 3 == 0
  | 14 => e.u 0 1 < 4 && e.u 1 1 < 8 && e.u 2 1 < 64 && e.u 3 1 < 24 && e.u 4 1 < 2 && e.u 5 1 == 0 && e.u 6 2 ≤ 32767 && e.u 8 4 == 0
  | 15 => e.u 0 4 % 4 == 0 && e.u 4 4 % 2 == 0 && e.u 4 4 < 0x80000
  | _ => true

/-- One record after those of `before`: its type, place and count, length and values. -/
def checkRec (before : List Rec) (r : Rec) : Bad :=
  match recPlace r.type with
  | none => some (0x0204, r.off)
  | some p =>
    let place := (p == 0 && r.owner != platform) || (p == 1 && r.owner == platform)
    let again := ([2, 3, 11].contains r.type && before.any fun x => x.type == r.type) ||
      (r.type == 1 && before.any fun x => x.type == 1 && fld x.body 0 1 == fld r.body 0 1)
    firstBad [(place || again, 0x0205, r.off), (!wlenOk r.type (r.body.length / 4), 0x0206, r.off), (!r.ents.all (entOk r.type), 0x0207, r.off)]

/-- The records of a list in order. -/
def checkRecs : List Rec → List Rec → Bad
  | _, [] => none
  | before, r :: rs => match checkRec before r with
    | some b => some b
    | none => checkRecs (r :: before) rs

/-- The segments in order: the records of each, then one that runs past its end. -/
def checkBodies (img : List Byte) : List Seg → List Rec → Bad
  | [], before => ([2, 3, 11, 15].find? fun t => !before.any fun r => r.type == t).map fun _ => (0x0205, 96)
  | g :: gs, before =>
    let (rs, past) := g.recs img
    match checkRecs before rs, past with
    | some b, _ => some b
    | none, some o => some (0x0203, o)
    | none, none => checkBodies img gs (rs.reverse ++ before)

/-! ### Rules between records (Table 2.12, codes 0x03xx to 0x09xx) -/

/-- The offsets at which a key comes again. -/
def dups (l : List (Nat × Nat)) : List Nat :=
  match l with
  | [] => []
  | (k, _) :: t => ((t.filter fun x => x.1 == k).map (·.2)).take 1 ++ dups t

/-- The offsets of the entries that satisfy `f`. -/
def offs (es : List Ent) (f : Ent → Bool) : List Nat := (es.filter f).map (·.off)

/-- The domains that a resource of an ownership class lies in (Tables 1.3, 2.6, 2.7). -/
def resDomains (cls n : Nat) : List Nat :=
  match cls with
  | 1 => [n]
  | 2 => [25 + n / 8]
  | 3 => [28 + scanConverter n]
  | 4 => [41 + n / 8]
  | 5 => [46 + n, 78 + n / 4]
  | 6 => if n < 8 then [40, 32 + n] else [40]
  | 7 => [92]
  | 8 => [22]
  | 9 => [94 + n]
  | _ => [93]

/-- What the rules between records read: the records, the segments, and the device that the image would make. -/
structure Cand where
  img  : List Byte
  recs : List Rec
  dev  : State

/-- A candidate image. -/
def Cand.of (img : List Byte) : Cand := ⟨img, records img, ({} : State).config (records img)⟩

/-- The numbers that an OWNERSHIP entry names. -/
def Ent.numbers (e : Ent) : List Nat := (List.range (e.u 2 1)).map (e.u 1 1 + ·)

/-- 0x0301: given twice. -/
def Cand.doubleOwner (c : Cand) : List Nat :=
  let bits (k f n : Nat) (e : Ent) (o w : Nat) := ((List.range n).filter fun i => bit (e.u o w) i).map fun i => (k * 1048576 + f + i, e.off)
  let span (k : Nat) (e : Ent) (o : Nat) := (List.range (e.u (o + 2) 2)).map fun i => (k * 1048576 + e.u o 2 + i, e.off)
  dups (((entsOf c.recs 1).map fun e => bits 20 0 8 e 2 1 ++ bits 21 0 32 e 8 4 ++ span 22 e 12 ++ span 23 e 16 ++ bits 24 0 32 e 20 4).flatten) ++
  dups (((entsOf c.recs 2).map fun e => e.numbers.map fun n => (e.u 0 1 * 65536 + n, e.off)).flatten)

/-- 0x0302: the platform is given a class that Table 2.6 forbids. -/
def Cand.platformRes (c : Cand) : List Nat :=
  offs (entsOf c.recs 2) fun e => e.u 3 1 == 0xFF && [1, 2, 4, 5, 6, 7].contains (e.u 0 1)

/-- The owner of arm `a`: the partition whose CHAINS record defines it. -/
def Cand.armOwner (c : Cand) (a : Nat) : Nat := match chainRec c.recs 2 a with | some e => e.owner | none => unassigned

/-- The owner of a pad: that of the resource its function serves (R32). -/
def Cand.padOwner (c : Cand) (pad : Nat) : Nat :=
  match padResource pad (padFunc c.recs pad) with | some (k, n) => c.dev.owner k n | none => unassigned

/-- Does an entry of a partition's segment name something that its partition does not own? -/
def Cand.namesForeign (c : Cand) (t : Nat) (e : Ent) : Bool :=
  let d := c.dev
  let no (k n : Nat) : Bool := d.owner k n != e.owner
  e.owner != platform && match t with
  | 5 => no 8 (e.u 2 1) || (if e.u 3 1 = 1 then d.lineOwner (e.u 0 2) else d.inputOwner (e.u 0 2)) != e.owner
  | 6 => no 1 (e.u 0 1)
  | 7 => (e.lanes.any fun n => no 1 n) || e.dests.any fun x =>
      (x.1 == 1 && no 4 x.2) || (x.1 == 2 && c.armOwner x.2 != e.owner) || (x.1 == 3 && no 5 x.2)
  | 8 => match e.u 0 1 with
      | 0 => no 4 (e.u 1 1 / 2)
      | 1 => c.padOwner (e.u 1 1) != e.owner
      | 2 => no 5 (e.u 1 1)
      | _ => no 2 (e.u 1 1 / 2) || no 4 (e.u 2 1)
  | 9 => no (if e.u 0 1 = 0 then 2 else 3) (e.u 1 1) || (List.range 16).any fun n => bit (e.u 4 2) n && no 1 n
  | 10 =>
      if e.u 0 1 = 1 then no 5 (e.u 1 1) || (e.u 8 1 != 0xFF && c.armOwner (e.u 8 1) != e.owner)
      else (List.range 32).any fun n => bit (e.u 4 4) n && no 5 n
  | _ => false

/-- 0x0303. -/
def Cand.foreign (c : Cand) : List Nat := ([5, 6, 7, 8, 9, 10].map fun t => offs (entsOf c.recs t) (c.namesForeign t)).flatten

/-- 0x0304: a lockstep pair's cores. -/
def Cand.pairOwner (c : Cand) : List Nat :=
  ((entsOf c.recs 11).map fun e => ((List.range 4).filter fun k => bit (e.u 0 1) k && c.dev.coreOwner (2 * k) != c.dev.coreOwner (2 * k + 1)).map fun k =>
    ((entsOf c.recs 1).filter fun x => bit (x.u 2 1) (2 * k) || bit (x.u 2 1) (2 * k + 1)).foldl (fun m x => max m x.off) e.off).flatten

/-- 0x0305: a PCIe function or VLAN given twice, or a segment without a PARTITION record. -/
def Cand.hostMap (c : Cand) : List Nat :=
  let ps := entsOf c.recs 1
  dups ((ps.filter fun e => e.u 3 1 != 0xFF).map fun e => (e.u 3 1, e.off)) ++
  dups ((ps.filter fun e => e.u 4 2 != 0).map fun e => (e.u 4 2, e.off)) ++
  dups ((ps.filter fun e => e.u 6 2 != 0).map fun e => (e.u 6 2, e.off)) ++
  ((segs c.img).filter fun g => g.owner != platform && !ps.any fun e => e.u 0 1 == g.owner).map (·.entry)

/-- 0x0306. -/
def Cand.pinConflict (c : Cand) : List Nat :=
  let es := entsOf c.recs 4
  dups (es.map fun e => (e.u 0 2, e.off)) ++
  offs es fun e => match padResource (e.u 0 2) (e.u 2 1) with | some (k, n) => c.dev.owner k n == unassigned | none => false

/-- 0x0307. -/
def Cand.flashWindow (c : Cand) : List Nat :=
  offs (entsOf c.recs 1) fun e => let f := e.u 12 2
                                  let n := e.u 14 2
                                  n != 0 && (f < 64 || 512 < f + n || (f < 192 && 128 < f + n))

/-- The offset of the CLOCKS record. -/
def Cand.clocksOff (c : Cand) : Nat := match (entsOf c.recs 3).head? with | some e => e.off | none => 96

/-- The mode that CLOCKS gives domain `d` (R30). -/
def Cand.mode (c : Cand) (d : Nat) : Nat := optU (entsOf c.recs 3).head? 0 (4 + d) 1

/-- 0x0401. -/
def Cand.requiredHeld (c : Cand) : List Nat :=
  if [21, 22, 45, 93, 100, 102, 103].all fun d => c.mode d == 1 then [] else [c.clocksOff]

/-- 0x0402. -/
def Cand.offInUse (c : Cand) : List Nat :=
  let off (ds : List Nat) : Bool := ds.any fun d => c.mode d == 2
  let at_ (l : List Nat) : List Nat := l.map (max c.clocksOff)
  at_ (offs (entsOf c.recs 2) fun e => e.u 3 1 != 0xFE && e.numbers.any fun n => off (resDomains (e.u 0 1) n)) ++
  at_ (offs (entsOf c.recs 1) fun e =>
    ((List.range 8).any fun n => bit (e.u 2 1) n && off [17 + n / 2]) || (e.u 20 4 != 0 && off [23]) || (e.u 3 1 != 0xFF && off [90, 91]) ||
    (e.u 4 2 != 0 && off [86, 87]) || (e.u 6 2 != 0 && off [88, 89])) ++
  at_ (offs (entsOf c.recs 7) fun e => off (c.dev.path (e.u 0 1))) ++
  at_ (offs (entsOf c.recs 5) fun e => e.u 3 1 == 2 && off [inputDomain (e.u 0 2)])

/-- The multiplexer settings of EVENTS. -/
def Cand.muxes (c : Cand) : List Ent := (entsOf c.recs 5).filter fun e => e.u 3 1 == 2

/-- 0x0501: two consumer inputs select one channel. -/
def Cand.sharedChannel (c : Cand) : List Nat :=
  ((c.muxes.map fun e => offs c.muxes fun x => x.u 2 1 == e.u 2 1 && x.u 0 2 != e.u 0 2 && e.off ≤ x.off)).flatten
/-- 0x0502. -/
def Cand.consumerTwice (c : Cand) : List Nat := dups (c.muxes.map fun e => (e.u 0 2, e.off))

/-- Code that a record loads: (memory, first offset, offset after the last, record). -/
def Cand.spans (c : Cand) : List (Nat × Nat × Nat × Nat) :=
  ((entsOf c.recs 6).map fun e => (2 * e.u 0 1 + e.u 1 1, e.u 4 4, e.u 4 4 + (e.bytes.length - 8), e.off)) ++
  ((entsOf c.recs 15).map fun e => (32, e.u 0 4, e.u 0 4 + (e.bytes.length - 8), e.off))

/-- The offsets of the spans that overlap one before them. -/
def overlaps : List (Nat × Nat × Nat × Nat) → List Nat
  | [] => []
  | (m, lo, hi, o) :: t => ((t.filter fun x => x.1 == m && x.2.1 < hi && lo < x.2.2.1).map fun x => max o x.2.2.2) ++ overlaps t

/-- 0x0601. SUPERVISOR_CODE records whose ENTRY differs fail here too. -/
def Cand.codeRange (c : Cand) : List Nat :=
  ((c.spans.filter fun x => (if x.1 = 32 then 0x80000 else 0x10000) < x.2.2.1).map (·.2.2.2)) ++ overlaps c.spans ++
  offs (entsOf c.recs 15) fun e => e.u 4 4 != supEntry c.recs

/-- 0x0602. -/
def Cand.bindingTwice (c : Cand) : List Nat := dups ((entsOf c.recs 7).map fun e => (e.u 0 1, e.off))
/-- 0x0603. -/
def Cand.laneTwice (c : Cand) : List Nat := dups (((entsOf c.recs 7).map fun e => e.lanes.eraseDups.map fun n => (n, e.off)).flatten)
/-- 0x0604. -/
def Cand.compareGroup (c : Cand) : List Nat :=
  offs (entsOf c.recs 7) fun e => (bit (e.u 3 1) 1 != (e.u 2 1 != 0xFF)) || e.u 1 1 == e.u 2 1
/-- 0x0605. -/
def Cand.destConflict (c : Cand) : List Nat :=
  dups (((entsOf c.recs 7).map fun e => (e.dests.filter fun d => d.1 != 0).map fun d => (d.1 * 256 + d.2, e.off)).flatten)
/-- 0x0606. -/
def Cand.badTrigger (c : Cand) : List Nat :=
  offs (entsOf c.recs 7) fun e =>
    c.dev.owner 4 (e.u 8 1) != e.owner || (e.u 6 1 < 2 && c.dev.owner 4 (e.u 7 1) != e.owner) || (e.u 6 1 == 2 && decide (7 < e.u 7 1))

/-- 0x0701: every owned PWM output and link has exactly one entry (R37). -/
def Cand.safeMissing (c : Cand) : List Nat :=
  let es := entsOf c.recs 8
  let owned (k n : Nat) : Bool := c.dev.owner (if k = 0 then 4 else 5) (if k = 0 then n / 2 else n) < 8
  dups ((es.filter fun e => (e.u 0 1 == 0 || e.u 0 1 == 2) && owned (e.u 0 1) (e.u 1 1)).map fun e => (e.u 0 1 * 256 + e.u 1 1, e.off)) ++
  offs (entsOf c.recs 2) fun e => e.u 3 1 < 8 && e.numbers.any fun n =>
    (e.u 0 1 == 4 && ((safeRec c.recs 0 (2 * n)).isNone || (safeRec c.recs 0 (2 * n + 1)).isNone)) || (e.u 0 1 == 5 && (safeRec c.recs 2 n).isNone)
/-- 0x0702. -/
def Cand.tripForeign (c : Cand) : List Nat :=
  offs (entsOf c.recs 8) fun e => e.u 0 1 == 3 && c.dev.owner 2 (e.u 1 1 / 2) != c.dev.owner 4 (e.u 2 1)

/-- 0x0801. DESIGN CHOICE: a link of LINKS without a CHAINS entry counts 0 cells and breaks no rule by its ARM (log 56). -/
def Cand.armSize (c : Cand) : List Nat :=
  let es := entsOf c.recs 10
  let mine (e : Ent) : List Ent := (List.range 32).filterMap fun n => if bit (e.u 4 4) n then chainRec c.recs 1 n else none
  ((es.filter fun e => e.u 0 1 == 2 && (((mine e).map fun l => l.u 2 1).sum != e.u 2 1 || (mine e).any fun l => l.u 8 1 != e.u 1 1)).map fun e =>
    (mine e).foldl (fun m l => max m l.off) e.off) ++
  ((es.filter fun e => e.u 0 1 == 1 && e.u 8 1 != 0xFF && !bit (optU (chainRec c.recs 2 (e.u 8 1)) 0 4 4) (e.u 1 1)).map fun e =>
    match chainRec c.recs 2 (e.u 8 1) with | some a => max a.off e.off | none => e.off)
/-- 0x0802. -/
def Cand.leadShort (c : Cand) : List Nat := offs (entsOf c.recs 10) fun e => e.u 0 1 == 1 && e.u 4 4 < e.u 2 1 * 768 + 8192

/-- 0x0901. -/
def Cand.quotaSum (c : Cand) : List Nat :=
  let es := entsOf c.recs 13
  if 1048576 < (es.map fun e => e.u 4 4).sum then [es.foldl (fun m e => max m e.off) 0] else []
/-- 0x0902. -/
def Cand.feederBinding (c : Cand) : List Nat :=
  let fs := entsOf c.recs 14
  let later (o : Nat) (e : Option Ent) : Nat := match e with | some x => max o x.off | none => o
  dups (fs.map fun f => (f.u 0 1, f.off)) ++
  ((fs.filter fun f => match bindingRec c.recs (f.u 2 1) with
      | some b => !bit (b.u 3 1) 2 || b.u 10 1 != f.u 0 1
      | none => true).map fun f => later f.off (bindingRec c.recs (f.u 2 1))) ++
  (((entsOf c.recs 7).filter fun b =>
      if bit (b.u 3 1) 2 then (match fs.find? fun f => f.u 0 1 == b.u 10 1 with | some f => f.u 2 1 != b.u 0 1 | none => true)
      else b.u 10 1 != 0xFF).map fun b => if bit (b.u 3 1) 2 then later b.off (fs.find? fun f => f.u 0 1 == b.u 10 1) else b.off)
/-- 0x0903. -/
def Cand.feederChannel (c : Cand) : List Nat :=
  let later (o : Nat) (e : Option Ent) : Nat := match e with | some x => max o x.off | none => o
  (((entsOf c.recs 14).filter fun f => !bit (optU (convRec c.recs 0 (f.u 3 1)) 0 7 1) 1).map fun f => later f.off (convRec c.recs 0 (f.u 3 1))) ++
  (((entsOf c.recs 14).filter fun f =>
      c.dev.owner 2 (f.u 3 1) != (match bindingRec c.recs (f.u 2 1) with | some b => b.owner | none => unassigned)).map fun f =>
    later f.off (bindingRec c.recs (f.u 2 1)))
/-- 0x0904. -/
def Cand.badArbiter (c : Cand) : List Nat := offs (entsOf c.recs 12) fun e => !(attached (e.u 0 1)).contains (e.u 1 1)

/-- 0x0201 once the records are known: a PARTITION record without a segment (R24). DEDUCED: R41 puts the segment table at step 4, where no
record has been read; this test of it stands first among the rules between records, which go by ascending code (log 57). -/
def Cand.noSegment (c : Cand) : List Nat := offs (entsOf c.recs 1) fun e => !(segs c.img).any fun g => g.owner == e.u 0 1

/-- A code with the offsets of its violations: the first offset is reported. -/
def worst (code : Nat) (l : List Nat) : Bad := match l with | [] => none | a :: t => some (code, t.foldl min a)

/-- The rules between records in ascending code. -/
def Cand.cross (c : Cand) : Bad :=
  [worst 0x0201 c.noSegment, worst 0x0301 c.doubleOwner, worst 0x0302 c.platformRes, worst 0x0303 c.foreign, worst 0x0304 c.pairOwner,
   worst 0x0305 c.hostMap, worst 0x0306 c.pinConflict, worst 0x0307 c.flashWindow, worst 0x0401 c.requiredHeld, worst 0x0402 c.offInUse,
   worst 0x0501 c.sharedChannel, worst 0x0502 c.consumerTwice, worst 0x0601 c.codeRange, worst 0x0602 c.bindingTwice, worst 0x0603 c.laneTwice,
   worst 0x0604 c.compareGroup, worst 0x0605 c.destConflict, worst 0x0606 c.badTrigger, worst 0x0701 c.safeMissing, worst 0x0702 c.tripForeign,
   worst 0x0801 c.armSize, worst 0x0802 c.leadShort, worst 0x0901 c.quotaSum, worst 0x0902 c.feederBinding, worst 0x0903 c.feederChannel,
   worst 0x0904 c.badArbiter].findSome? id

/-- The whole check of an image at boot (R41). -/
def checkImage (img : List Byte) (floor : Nat) (f : Fuses) : Bad :=
  match checkHeader img floor f with
  | some b => some b
  | none => match checkSign img with
    | some b => some b
    | none => match checkSegs img with
      | some b => some b
      | none => match checkBodies img (segs img) [] with
        | some b => some b
        | none => (Cand.of img).cross

/-! ### Reload rules (codes 0x0Axx) -/

/-- 0x0A01: a segment other than that of `p` differs. -/
def reloadScope (p : Nat) (new old : List Byte) : List Nat :=
  (((segs new).filter fun g => g.owner != p && !(segs old).any fun o => o.owner == g.owner && cut old o.off o.len == cut new g.off g.len).map (·.entry)) ++
  ((segs old).filter fun o => o.owner != p && !(segs new).any fun g => g.owner == o.owner).map fun _ => 96

/-- Lanes that a LOOP_BINDING names. -/
def boundLanes (rs : List Rec) : List Nat := ((entsOf rs 7).map Ent.lanes).flatten

/-- 0x0A05: the code of a lane bound in both images differs. -/
def liveLane (new old : List Rec) : List Nat :=
  ((List.range 16).filter fun n => (boundLanes new).contains n && (boundLanes old).contains n &&
      (codeOf new n).map (·.bytes) != (codeOf old n).map (·.bytes)).map fun n =>
    match (codeOf new n).filter fun e => !(codeOf old n).any fun o => o.bytes == e.bytes with
    | e :: _ => e.off
    | [] => (((entsOf new 7).filter fun e => e.lanes.contains n).map (·.off)).headD 96

/-- Links that a binding commands (R31). -/
def commanded (rs : List Rec) : List Nat :=
  ((entsOf rs 7).map fun e => (e.dests.map fun d =>
    if d.1 = 3 then [d.2] else if d.1 = 2 then (List.range 32).filter fun n => bit (optU (chainRec rs 2 d.2) 0 4 4) n else []).flatten).flatten

/-- A CHAINS link entry without LEAD. -/
def noLead (rs : List Rec) (n : Nat) : Option (List Byte) := (chainRec rs 1 n).map fun e => e.bytes.take 4 ++ e.bytes.drop 8

/-- 0x0A06. -/
def liveLink (new old : List Rec) : List Nat :=
  ((List.range 32).filter fun n => ((commanded new).contains n || (commanded old).contains n) && noLead new n != noLead old n).map fun n =>
    match chainRec new 1 n with | some e => e.off | none => 96

/-- The check of a staged image for partition `p` (R41). -/
def State.checkReload (s : State) (p : Nat) (img : List Byte) : Bad :=
  match checkImage img (s.get R.SCFG_FLOOR_FLOOR) s.fuses with
  | some b => some b
  | none =>
    let rs := records img
    let old := records s.image
    let denied := if !bit (fld s.image 24 4) 0 then [24]
      else if s.on (R.PART_Pn_CFG_RELOAD_ALLOWED p) then [] else [(((entsOf rs 1).filter fun e => e.u 0 1 == p).map (·.off)).headD 96]
    [worst 0x0A01 (reloadScope p img s.image), worst 0x0A02 denied, worst 0x0A04 (if imgSeq img ≤ s.get R.SCFG_SEQ_SEQ then [16] else []),
     worst 0x0A05 (liveLane rs old), worst 0x0A06 (liveLink rs old)].findSome? id

end Sys2Proof.Machine
end

