-- ==== Sys2Proof/Machine/Reload.lean ====
section
/-!
DEFINITION. Segment reload, persist and the anti-rollback floor (spec/02, R46 to R53; spec/05, R126 to R129).
-/
namespace Sys2Proof.Machine

/-! ### START (R47, R50, R53) -/

/-- START of `p` is refused as busy (R50): SCFG_STATUS keeps the reload in progress. -/
def State.reloadBusy (s : State) (p : Nat) : State :=
  ((((s.wr (R.SCFG_RQn_STAT p) 0#32).put (R.SCFG_RQn_STAT_STATE p) 5).put (R.SCFG_RQn_STAT_CODE p) 0x0A03).put R.SCFG_CHK_CODE_CODE 0x0A03).put
    R.SCFG_CHK_OFFSET_OFFSET 0 |>.reloadEvent p

/-- The staged range of `p`: address and length. -/
def State.staging (s : State) (p : Nat) : Nat × Nat := (s.get (R.SCFG_RQn_ADDR_ADDR p) * 64, s.get (R.SCFG_RQn_LEN_LEN p) * 4)

/-- Does the staged range of `p` pass R53? -/
def State.stagingOk (s : State) (p : Nat) : Bool :=
  let (a, n) := s.staging p
  24 ≤ n && n ≤ 4194304 && 0x10000000 ≤ a && a + n ≤ 0x11800000 &&
  ((List.range 32).all fun b => s.bankOwner b == p || decide (a + n ≤ 0x10000000 + 0xC0000 * b) || decide (0x10000000 + 0xC0000 * (b + 1) ≤ a)) &&
  s.numAt (a + 20) 4 == n

/-- Staging and the begin of CHECKING: the staging range is latched (R48, R53). DESIGN CHOICE: a START clears PERSISTED and PERSIST_FAIL,
also one that is REJECTED (log 56). -/
def State.reloadBegin (s : State) (p : Nat) (persist : Bool) : State :=
  let s := { s.wr (R.SCFG_RQn_STAT p) 0#32 with chip := { s.chip with start := some (p, s.now) } }
  if s.stagingOk p then
    ({ s with reload := some { part := p, image := [], persist := persist, began := s.now, stage := (s.staging p).1, len := (s.staging p).2 } } :
      State).reloadTo p 1
  else s.reloadTo p 5 (some (0x0A08, 0))

/-- The partition whose START came in this cycle of domain 93, if it met no busy test (R50). -/
def State.startNow (s : State) : Option Nat :=
  match s.chip.start with
  | some (p, t) => if t.toNat / 320 = s.now.toNat / 320 then some p else none
  | none => none

/-- A write of `v` to SCFG_RQn_CTRL. Of two STARTs in one cycle of domain 93 that of the lower partition proceeds, and the other is
REJECTED as busy (R50). -/
def rqCtrlWrite (p v : Nat) (s : State) : State :=
  let st := s.get (R.SCFG_RQn_STAT_STATE p)
  if !bit v 0 || st == 1 || st == 2 || st == 3 then s
  else match s.startNow with
    | some q =>
      if p < q then
        let s := if (match s.reload with | some r => r.part == q | none => false) then { s with reload := none } else s
        (s.reloadBusy q).reloadBegin p (bit v 1)
      else if q < p then s.reloadBusy p
      else if s.reload.isSome || s.persisting.isSome then s.reloadBusy p else s.reloadBegin p (bit v 1)
    | none => if s.reload.isSome || s.persisting.isSome then s.reloadBusy p else s.reloadBegin p (bit v 1)

/-! ### CHECKING and PREPARING (R47) -/

/-- Is lane `n` bound in the running image? -/
def State.runBound (s : State) (n : Nat) : Bool := (boundLanes (records s.image)).contains n

/-- The bodies of binding `b` in the running and the new image. -/
def bodies (old new : List Rec) (b : Nat) : Option (List Byte) × Option (List Byte) :=
  ((bindingRec old b).map (·.bytes), (bindingRec new b).map (·.bytes))

/-- The bindings that the new image changes, adds or removes (Table 2.14). -/
def changedBindings (old new : List Rec) : List Nat := (List.range 64).filter fun b => (bodies old new b).1 != (bodies old new b).2

/-- PREPARING: load the lanes that are unbound, and request the held domains of the new bindings. -/
def State.prepare (s : State) (p : Nat) (r : Reload) (img : List Byte) : State :=
  let new := records img
  let dev := (Cand.of img).dev
  let holds := (((changedBindings (records s.image) new).filter fun b => dev.bound b && dev.on (R.LNC_Bb_MAP_HOLD b)).map dev.path).flatten
  let lanes := (List.range 16).filter fun n => !s.runBound n && ((codeOf new n).any fun e => e.owner == p)
  let s := s.each lanes fun n t => (t.wipe (laneCodeBase n) (laneCodeBase n + 0x10000)).loadLane new n
  ({ s with reload := some { r with image := img, holds := holds } } : State).settleHeld

/-- RELOAD_CHECK_DONE. -/
def State.reloadChecked (s : State) : State :=
  match s.reload with
  | none => s
  | some r =>
    let p := r.part
    if s.get (R.SCFG_RQn_STAT_STATE p) != 1 then s
    else
      let img := s.bytesAt r.stage r.len
      match s.checkReload p img with
      | some b => ({ s with reload := none } : State).reloadTo p 5 (some b)
      | none => ((((s.put R.SCFG_CHK_CODE_CODE 0).put R.SCFG_CHK_OFFSET_OFFSET 0).reloadTo p 2).prepare p r img)

/-! ### SWITCHING (R49, R50) -/

/-- A resource that Table 2.14 ties to the boundary of a binding on whose path it lies: a fast channel, a PWM unit, a link. -/
inductive PathRes where
  | fc (n : Nat)
  | pwm (n : Nat)
  | link (n : Nat)
  deriving DecidableEq, Repr

/-- Is the resource different in two images, in what waits for a boundary: CONVERTERS, SAFE_STATES, LEAD? -/
def PathRes.differs (old new : List Rec) : PathRes → Bool
  | .fc n => fcCfgWord (convRec old 0 n) != fcCfgWord (convRec new 0 n)
  | .pwm n => pwmSafeWord old n != pwmSafeWord new n || tripMask old n != tripMask new n
  | .link n => (safeRec old 2 n).map (·.bytes) != (safeRec new 2 n).map (·.bytes) || optU (chainRec old 1 n) 0 4 4 != optU (chainRec new 1 n) 0 4 4

/-- Does the resource lie on the path of binding `b` in an image? -/
def PathRes.onPath (rs : List Rec) (b : Nat) (x : PathRes) : Bool :=
  match bindingRec rs b with
  | none => false
  | some e => match x with
    | .fc n => e.lanes.any fun l => bit (optU (convRec rs 0 n) 0 4 2) l
    | .pwm n => e.dests.contains (1, n)
    | .link n => e.dests.any fun d => (d.1 == 3 && d.2 == n) || (d.1 == 2 && bit (optU (chainRec rs 2 d.2) 0 4 4) n)

/-- Every such resource. -/
def pathRes : List PathRes := (List.range 24).map .fc ++ (List.range 32).map .pwm ++ (List.range 32).map .link

/-- The resources that the new image changes. -/
def changedRes (old new : List Rec) : List PathRes := pathRes.filter fun x => x.differs old new

/-- Does a resource wait for the boundary of binding `b`? -/
def PathRes.waits (old new : List Rec) (b : Nat) (x : PathRes) : Bool := x.onPath old b || x.onPath new b

/-- A resource takes the new image's settings. -/
def PathRes.apply (new : List Rec) (s : State) : PathRes → State
  | .fc n => s.applyFc new n
  | .pwm n => (s.applyPwmSafe new n).settleUnit n
  | .link n => ((s.applyLink new n).applyLead new n).settleLink n

/-- RELOAD_PREPARE_DONE: the domains asked for run; changes that wait for no boundary apply (R49). Changed LANE_CODE of a lane that the new
image leaves unbound is such a change: DEDUCED from "any other change" of Table 2.14 (log 57). -/
def State.reloadPrepared (s : State) : State :=
  match s.reload with
  | none => s
  | some r =>
    let p := r.part
    if s.get (R.SCFG_RQn_STAT_STATE p) != 2 || !r.holds.all s.gateOpen then s
    else
      let old := records s.image
      let new := records r.image
      let res := changedRes old new
      let todo := (List.range 64).filter fun b => (changedBindings old new).contains b || res.any fun x => x.waits old new b
      let s := (s.applyEvents new).applyPadSafe new
      let s := (s.each (List.range 64) fun n t => t.applySc new n).each (List.range 32) fun a t => t.applyArm new a
      let busy := commanded old ++ commanded new
      let s := s.each ((List.range 32).filter fun n => !busy.contains n) fun n t => ((t.applyLink new n).applyLead new n).settleLink n
      let s := s.each (res.filter fun x => !(List.range 64).any fun b => x.waits old new b) fun x t => x.apply new t
      let fallen := (List.range 16).filter fun n => (boundLanes old).contains n && !(boundLanes new).contains n &&
        (codeOf new n).map (·.bytes) != (codeOf old n).map (·.bytes)
      let s := s.each fallen fun n t => t.loadLane new n
      ({ s with reload := some { r with todo := todo } } : State).reloadTo p 3

/-- The unit whose period start is the boundary of binding `b`: that of its new body, or of the old one when it is removed. -/
def boundaryUnit (old new : List Rec) (b : Nat) : Nat :=
  match bindingRec new b with | some e => e.u 8 1 | none => optU (bindingRec old b) 0 8 1

/-- Words held at this instant follow the routing that the channels have now (R126). -/
def State.reroute (s : State) : State :=
  { s with fcOut := s.fcOut.map fun x => if x.time = s.now then
      { x with lanes := s.get (R.FCV_CHn_CFG_LANES x.chan), box := s.get (R.FCV_CHn_CFG_MAILBOX x.chan) } else x }

/-- The boundary of binding `b` passes (R126): its lanes and trigger, and the resources on its path, are those of the new image; a
trigger that waits at the gate is abandoned. The rest waits for the commit stage. -/
def State.passBoundary (s : State) (r : Reload) (b : Nat) : State :=
  let old := records s.image
  let new := records r.image
  let s := { s with reload := some { r with todo := r.todo.filter (· != b) } }
  let s := (s.each ((changedRes old new).filter fun x => x.waits old new b) fun x t => x.apply new t).reroute
  if (bodies old new b).1 = (bodies old new b).2 then s
  else
    let epoch := if (bindingRec old b).isSome then (s.get (R.LNC_Bb_STATUS_EPOCH b) + 1) % 256 else optU (bindingRec new b) 0 9 1
    let a : Ahead := ⟨s.rd (R.LNC_Bb_MAP b), destWord (bindingRec new b), epoch⟩
    let s := (s.setBnd b { s.bnd b with wait := none, ahead := some a }).bindStatus b
    ((s.applyMap new b).settleBound).bindStatus b

/-- A period start of unit `n` is the boundary of the bindings that wait for one (R49, R50). -/
def State.reloadBoundary (s : State) (n : Nat) : State :=
  match s.reload with
  | none => s
  | some r =>
    if s.get (R.SCFG_RQn_STAT_STATE r.part) != 3 then s
    else
      let old := records s.image
      let new := records r.image
      (r.todo.filter fun b => boundaryUnit old new b == n).foldl (fun t b => match t.reload with
        | some x => t.passBoundary x b
        | none => t) s

/-! ### DONE and persist (R47, R51) -/

/-- The persist of an image begins, or waits while another operation holds the array (R51, R447). -/
def State.persistBegin (s : State) (p : Nat) (img : List Byte) : State :=
  (({ s with persisting := some (p, img) } : State).put R.SCFG_STATUS_PERSISTING 1).persistTry

/-- RELOAD_DONE: the last changed binding has switched (R47); a deferred partition reset is taken (R50), a persist begins (R51). -/
def State.reloadFinish (s : State) : State :=
  match s.reload with
  | none => s
  | some r =>
    let p := r.part
    if s.get (R.SCFG_RQn_STAT_STATE p) != 3 || !r.todo.isEmpty || (List.range 64).any fun b => (s.bnd b).ahead.isSome then s
    else
      let s := { s with reload := none, image := r.image }
      let s := ((s.put R.SCFG_SEQ_SEQ (imgSeq r.image)).put R.SCFG_STATUS_IN_SLOT 0).putB R.SCFG_STATUS_TRIAL
        (decide (s.get R.SCFG_FLOOR_FLOOR < imgSeq r.image))
      let s := ((s.put R.LCS_KEYS_RUNNING (fld r.image 14 1)).reloadTo p 4).reloadEvent p
      let s := s.settleHeld.when r.persist fun s => s.persistBegin p r.image
      match s.deferred.find? fun e => e.1 == p with
      | some (_, cause) => (({ s with deferred := s.deferred.drop (· == p) } : State).put R.SCFG_STATUS_RST_DEFERRED 1).partReset p cause
      | none => s

/-- PERSIST_DONE: the slot holds the image, or does not verify. -/
def State.persistFinish (s : State) (ok : Bool) : State :=
  match s.persisting with
  | none => s
  | some (p, img) =>
    let k := s.persistSlot
    if (s.flashOp k).state != 1 || (s.flashOp k).op != 0 then s
    else
      let s := ({ s with persisting := none } : State).put R.SCFG_STATUS_PERSISTING 0
      let s := s.each (coveredBlocks k img.length) fun b t => if ok || b == 128 * k then t.eraseEnd platform b else t
      let s := if ok then
          (((s.poke (slotBase k) img).put R.SCFG_STATUS_BASE_SLOT k).put R.SCFG_STATUS_IN_SLOT 1).put (R.SCFG_RQn_STAT_PERSISTED p) 1
        else s.put (R.SCFG_RQn_STAT_PERSIST_FAIL p) 1
      (s.flashDone k).reloadEvent p

/-! ### The floor (R46) -/

/-- A write of `v` to SCFG_FLOOR_CTRL. -/
def floorCtrlWrite (v : Nat) (s : State) : State :=
  if !bit v 0 || bitsOf v 8 8 != 0xA5 then s
  else if s.on R.SCFG_STATUS_IN_SLOT then { s with floorWant := some (s.get R.SCFG_SEQ_SEQ) } else s.put R.SCFG_STATUS_FLOOR_REFUSED 1

/-- ROM has written the floor: a FLOOR entry in the journal (R46, R462). -/
def State.floorWrite (s : State) : State :=
  match s.floorWant with
  | none => s
  | some q =>
    let f := max q (s.get R.SCFG_FLOOR_FLOOR)
    let s := ({ s with floorWant := none } : State).journal 3 0xFF 0xFFFF f
    (s.put R.SCFG_FLOOR_FLOOR f).putB R.SCFG_STATUS_TRIAL (decide (f < s.get R.SCFG_SEQ_SEQ))

/-! ### Commands -/

/-- RELOAD_START (R47): a write of START. -/
def execReloadStart (q : Requester) (p : Fin 8) (s : State) : Out := regWrite q (R.SCFG_RQn_CTRL p) (rqCtrlWrite p 1) s
/-- RELOAD_PERSIST_REQUEST (R51): a write of START with PERSIST. -/
def execReloadPersistRequest (q : Requester) (p : Fin 8) (s : State) : Out := regWrite q (R.SCFG_RQn_CTRL p) (rqCtrlWrite p 3) s
/-- RELOAD_CHECK_DONE (R47): the check of the staged image ends. -/
def execReloadCheckDone (s : State) : Out := .next s.reloadChecked
/-- RELOAD_PREPARE_DONE (R50): PREPARING ends. -/
def execReloadPrepareDone (s : State) : Out := .next s.reloadPrepared
/-- BINDING_SWITCH (R126): the period start at the boundary of binding `b` reaches the commit stage. -/
def execBindingSwitch (b : Fin 64) (s : State) : Out := .next (s.commitSwitch b)
/-- RELOAD_DONE (R47). -/
def execReloadDone (s : State) : Out := .next s.reloadFinish
/-- PERSIST_DONE (R51): `ok` says that the slot verifies. -/
def execPersistDone (ok : Bool) (s : State) : Out := .next (s.persistFinish ok)
/-- FLOOR_ADVANCE (R46): a write of ADVANCE with KEY. -/
def execFloorAdvance (q : Requester) (key : Byte) (s : State) : Out := regWrite q R.SCFG_FLOOR_CTRL (floorCtrlWrite (key.toNat * 256 + 1)) s
/-- FLOOR_WRITTEN (R46). -/
def execFloorWritten (s : State) : Out := .next s.floorWrite

end Sys2Proof.Machine
end

