-- ==== Sys2Proof/Machine/Rst.lean ====
section
/-!
DEFINITION. DEVICE resets and the boot (spec/23, R516 to R529; spec/02, R44, R45), and the restart of the supervisor (spec/22, R504).
-/
namespace Sys2Proof.Machine

/-! ### DEVICE reset (R516 to R523) -/

/-- The registers of the session engine that STANDBY retains (R358). -/
def sesKept (k : Nat) : Bool :=
  k == 0x40340000 || k == 0x40340004 || (0x40341000 ≤ k && k < 0x40343000 && (k % 0x400 == 0xA4 || 0x100 ≤ k % 0x400))

/-- Does the register with key `k` keep its value through a DEVICE reset with a cause (R482, R489, R505, R507)? -/
def State.resetKeeps (s : State) (cause k : Nat) (standby : Bool) : Bool :=
  (cause != 0 && k / 0x10000 == 0x4004 && (k % 0x10000 == 0 || k % 0x10000 == 12)) ||
  (cause != 0 && cause != 5 && match regClassOf k with | some c => decide (c.level = Level.por) | none => false) ||
  k == R.PWR_SUP_LIVE.addr ||
  (standby && sesKept k) ||
  (1 < cause && s.get R.SUP_REC_STATUS_STATE == 3 && k == R.SUP_REC_STATUS.addr)

/-- The Pavane domain through a DEVICE reset: all of it in SAFE_HOLD, else its clock, which POR and LIFECYCLE reset. -/
def State.resetPav (s : State) (cause : Nat) : Pav :=
  if 1 < cause ∧ s.get R.SUP_REC_STATUS_STATE = 3 then s.pav
  else if cause = 0 ∨ cause = 5 then { edges := s.pav.edges }
  else { rtc := s.pav.rtc, frac := s.pav.frac, xtal := s.pav.xtal, stage := s.pav.stage, edges := s.pav.edges, lrt := s.pav.lrt }

/-- CAUSES after a DEVICE reset with a cause (R516, R518): RESET_N governs a wake source of the same cycle. -/
def State.causes (s : State) (cause : Nat) : Nat :=
  let old := if cause = 0 then 0 else s.get R.RST_CAUSE_CAUSES
  setBit (if s.chip.struck && cause == 1 && s.get R.RST_CAUSE_LAST == 6 then setBit old 6 false else old) cause true

/-- A DEVICE reset with a cause of Table 23.1 is asserted. Sources of one cycle make one reset: every bit sets, LAST takes the lowest (R518); `standby` for a wake from STANDBY with its context. -/
def State.deviceReset (s : State) (cause : Nat) (standby : Bool := false) : State :=
  let s := s.flashDeviceReset
  let keepsMem (a : Nat) : Bool := (0x08000000 ≤ a && a < 0x0A040000) || (standby && 0x20000000 ≤ a && a < 0x23800000)
  let t : State :=
    { regs := { vals := s.regs.vals.filter fun e => s.resetKeeps cause e.1 standby }
      mem := s.mem.filter fun c => keepsMem c.1
      marks := s.marks.filter fun e => keepsMem (64 * e.1)
      free := s.free
      flash := s.flash
      ses := if standby then { s.ses with busy := [] } else {}
      pav := s.resetPav cause
      fuses := s.fuses
      tap := if cause = 0 ∨ cause = 6 then {} else s.tap
      chip := { held := true, standby := standby, resetN := s.chip.resetN, perstN := s.chip.perstN, low := s.chip.low,
                latch := if cause = 6 then s.chip.latch else [], expired := s.chip.expired && decide (1 < cause),
                por := cause == 0 || (s.chip.held && s.chip.por), io33 := s.chip.io33, struck := true }
      pending := s.pending }
  let t := (t.put R.RST_CAUSE_CAUSES (s.causes cause)).put R.RST_CAUSE_LAST (if s.chip.struck then min (s.get R.RST_CAUSE_LAST) cause else cause)
  let t := if cause = 0 || s.chip.struck then t else t.inc R.RST_COUNT_COUNT
  let t := t.when (!t.chip.perstN) fun t => (t.put (R.CLK_Dd_STATUS_IN_RESET 90) 1).put (R.CLK_Dd_STATUS_IN_RESET 91) 1
  t.putB R.SUP_REC_STATUS_LRT_EXPIRED t.chip.expired

/-! ### Fuses (R533, R539) -/

/-- The LCS registers show the fuses. -/
def State.settleFuses (s : State) : State :=
  let f := s.fuses
  let s := (s.put R.LCS_STATE_STATE f.lcs).putB R.LCS_STATE_RETURN_CLEAN f.clean
  let s := (s.put R.LCS_KEYS_REVOKED f.revoked).put R.LCS_KEYS_PROVISIONED (f.keys.foldl (fun m e => setBit m e.1 true) 0)
  let s := (s.wr R.LCS_ID_LO (BitVec.ofNat 32 Config.serial)).wr R.LCS_ID_HI (BitVec.ofNat 32 (Config.serial / 2 ^ 32))
  s.each (List.range 4) fun k s => s.each (List.range 8) fun j s => s.wr (R.LCS_KEYk_HASHj k j) (BitVec.ofNat 32 (fld (f.keys.get [] k) (4 * j) 4))

/-! ### Boot (R524 to R529) -/

/-- Step 3: PLL_SYS and PLL_PWM have locked; domains 21, 22, 93 and 100 switch to PLL_SYS, and device time counts from 0. -/
def State.bootClocks (s : State) : State :=
  let s := ({ s with clk := { s.clk with started := setBit (setBit s.clk.started 5 true) 7 true } } : State)
  let s := ((s.setSrc 5 true).setSrc 7 true).put R.RST_BOOT_PLL_WAIT 0
  let s := s.each [21, 22, 93, 100] fun d t => (t.put (R.CLK_Dd_CTRL_SEL d) 0).connect d
  { s with now := 0#64 }

/-- Is the header of a slot with image `img` readable (R44): `sound` says that its bytes 0 to 23 meet no uncorrectable error? -/
def readable (img : List Byte) (sound : Bool := true) : Bool := sound && img.take 4 == [0x53, 0x52, 0x49, 0x4D]
/-- Do bytes 0 to 23 of slot `k` meet no uncorrectable flash error? -/
def State.slotSound (s : State) (k : Nat) : Bool := s.unitEcc (slotBase k) != 2

/-- Step 4: the flash state from the journal; without a valid SNAPSHOT, a fresh one (R463, R528). -/
def State.bootJournal (s : State) : State :=
  let s := s.journalRebuild
  if s.flash.active.isSome then s
  else
    let seqs := [0, 1].map fun k => let i := s.slotImage k
                                    if readable i (s.slotSound k) then imgSeq i else 0
    let s := if s.fuses.lcs = 0 then s else (s.put R.SCFG_FLOOR_FLOOR (seqs.foldl max 0)).put R.RST_BOOT_JOURNAL_REBUILT 1
    s.journalSwitch 0

/-- The erase for RETURN (R541). -/
def State.bootReturn (s : State) : State :=
  if s.fuses.lcs = 4 ∧ s.fuses.clean = false then
    let dirty := (List.range 512).filter fun k => s.flash.incom.get false k || (s.flash.mix.any fun e => e.1 == k) ||
      s.mem.any fun c => decide (blockBase k ≤ c.1) && decide (c.1 < blockBase k + 0x10000)
    let s := s.each dirty fun k t => (t.eraseStart platform k).eraseEnd platform k
    ({ s with fuses := { s.fuses with clean := true } } : State).put R.LCS_STATE_RETURN_CLEAN 1 |>.put R.RST_BOOT_RETURN_ERASED 1
  else s

/-- Step 5: the calibration record, or nominal values (R77, R98, R467). -/
def State.bootCal (s : State) : State :=
  if calOk s.calRecord then { s with chip := { s.chip with cal := s.calRecord } }
  else
    let s := s.each (List.range 3) fun g t => t.put (R.FCV_Gg_STATUS_CAL_MISSING g) 1
    let s := s.each (List.range 24) fun n t => t.put (R.FCV_CHn_STATUS_UNSETTLED n) 1
    s.each (List.range 4) fun k t => t.put (R.SCV_Ck_STATUS_CAL_MISSING k) 1

/-- Every function of the PCIe port is as R376 rules for the image that runs, and a recovery boot has its mailbox (R529, R530). -/
def State.enterRecovery (s : State) : State :=
  let s := ((s.put R.RST_BOOT_RECOVERY 1).put R.RST_BOOT_PHASE 10).applyFns
  s.wipe 0x10000000 0x10000040

/-- Step 7 (R498): the failing bits of the comparator test: PAIR, SV, COMMIT. Split pairs are not tested. -/
def State.bootCompare (s : State) (cmp : Nat) : State :=
  let pairs := ((List.range 4).filter fun k => bit cmp k && s.lockstep k).foldl (fun m k => setBit m k true) 0
  let s := ((s.put R.SUP_CMPTEST_DONE 1).put R.SUP_CMPTEST_PAIR pairs).putB R.SUP_CMPTEST_SV (bit cmp 4)
  let s := s.putB R.SUP_CMPTEST_COMMIT (bit cmp 5)
  let s := s.when (bit cmp 5) fun s => s.each ((List.range 64).filter fun b => s.bound b && s.compared b) fun b t => t.forceBinding b
  if bit cmp 4 then
    (({ s with pav := { s.pav with hold := true } } : State).put R.SUP_REC_STATUS_STATE 3).put R.SUP_REC_STATUS_FORCE 1 |>.settleOutputs
  else s

/-- The supervisor starts at ENTRY of the running image, and with it the watchdog (R502). -/
def State.startSup (s : State) : State :=
  let s := s.startCore 8 (BitVec.ofNat 32 (0x38200000 + supEntry (records s.image)))
  { s with pav := { s.pav with wdt := some 0, kicked := false, key := 0x5A, kick := none } }

/-- Steps 7 and 8. BOOT_TIME is measured, so its value is free (Table 23.4). -/
def State.bootTail (s : State) (cmp : Nat) : State :=
  let s := s.bootCompare cmp
  let s := if s.get R.SUP_REC_STATUS_STATE = 3 then s else s.startSup
  let (t, s) := s.fresh
  let s := (s.put R.RST_BOOT_BOOT_TIME t).put R.RST_BOOT_PHASE 9
  let s := s.each ((List.range 8).filter fun p => s.on (R.PART_Pn_CFG_PRESENT p)) fun p t =>
    if t.mustHold p then t.put (R.PART_Pn_STATE_STATE p) 4 else t.partRelease p
  s.settleFault.settleOutputs

/-- The order of the slots (R44): unreadable headers last, then SEQ, highest first; slot A first of equals. -/
def slotOrder (a b : List Byte) (soundA soundB : Bool := true) : List Nat :=
  if readable a soundA && readable b soundB then (if imgSeq a < imgSeq b then [1, 0] else [0, 1])
  else if readable b soundB then [1, 0] else [0, 1]

/-- The code of a check: 0 for an image that passes. -/
def badCode : Bad → Nat
  | none => 0
  | some (c, _) => c

/-- An image from slot `k` runs (R44). -/
def State.runSlot (s : State) (k : Nat) (fallback : Bool) : State :=
  let img := s.slotImage k
  let s := s.applyImage img
  let s := (s.put R.SCFG_STATUS_BASE_SLOT k).put R.SCFG_STATUS_IN_SLOT 1
  (s.putB R.SCFG_STATUS_TRIAL (decide (s.get R.SCFG_FLOOR_FLOOR < imgSeq img))).putB R.SCFG_STATUS_FALLBACK fallback

/-- Step 6 and what follows: the first slot that passes, or recovery boot; in END nothing is applied (R44, R529). -/
def State.bootSelect (s : State) (rcv : Bool) (cmp : Nat) : State :=
  if s.fuses.lcs = 5 then s.put R.RST_BOOT_PHASE 11
  else if rcv then (s.wr R.SCFG_BOOT_CODE 0xFFFFFFFF#32).enterRecovery
  else
    let floor := s.get R.SCFG_FLOOR_FLOOR
    let order := slotOrder (s.slotImage 0) (s.slotImage 1) (s.slotSound 0) (s.slotSound 1)
    let first := order.headD 0
    let c1 := checkImage (s.slotImage first) floor s.fuses
    let field (k : Nat) : RF := if k = 0 then R.SCFG_BOOT_CODE_CODE_A else R.SCFG_BOOT_CODE_CODE_B
    let s := s.put (field first) (badCode c1)
    match c1 with
    | none => (((s.put (field (1 - first)) 0xFFFF).runSlot first false)).bootTail cmp
    | some _ =>
      let c2 := checkImage (s.slotImage (1 - first)) floor s.fuses
      let s := s.put (field (1 - first)) (badCode c2)
      match c2 with
      | none => (s.runSlot (1 - first) true).bootTail cmp
      | some _ => s.enterRecovery

/-- Step 3 with its PLLs locked, and steps 4 and 5. -/
def State.bootReady (s : State) : State := (s.bootClocks.bootJournal.bootReturn).bootCal

/-- Steps 1 and 2: the fuses and BOOT_RCV are sampled, and the domains on PLL_IO's reference are ungated. -/
def State.bootStart (s : State) (rcv : Bool) : State :=
  let s := s.settleFuses.putB R.RST_BOOT_RCV_STRAP rcv
  let s := (s.setSrc 0 true).each [21, 22, 93, 100, 102, 103] fun d t => t.openGate d
  s.put R.RST_BOOT_PHASE 3

/-- The boot (R524): `rcv` is BOOT_RCV at step 1, `lock` says that PLL_SYS and PLL_PWM lock within 1 ms and that a SNAPSHOT
can be written, for which ROM waits in the same way (R527), `cmp` are the comparators that
fail their test. -/
def State.boot (s : State) (rcv lock : Bool) (cmp : Nat) : State :=
  if s.dead || s.get R.RST_BOOT_PHASE != 1 || s.get R.SUP_REC_STATUS_STATE == 3 then s
  else
    if lock then (s.bootStart rcv).bootReady.bootSelect rcv cmp else (s.bootStart rcv).put R.RST_BOOT_PLL_WAIT 1

/-! ### Restart of the supervisor (R504) -/

/-- The restarted supervisor reaches ENTRY: its TCM wiped and loaded, its own registers at reset, the machine in WATCH. -/
def State.supRestarted (s : State) : State :=
  if s.get R.SUP_REC_STATUS_STATE != 2 then s
  else
    let s := (s.wipe 0x38200000 0x38280000).loadSup (records s.image)
    let s := { s with regs := { s.regs with vals := s.regs.vals.filter fun e => !(e.1 / 2 ^ 32 == 8 && match regClassOf e.1 with | some c => decide (c.level = Level.core) | none => false) } }
    (s.startSup.put R.SUP_REC_STATUS_STATE 0).supFault ⟨R.SUP_FAULT, 0, 32⟩ 11

/-! ### Commands -/

/-- DEVICE_BOOT (R524). -/
def execDeviceBoot (rcv lock : Bool) (cmp : BitVec 6) (s : State) : Out := .next (s.boot rcv lock cmp.toNat)
/-- PLL_WAIT_RETRY (R527): 10 ms have passed; the PLLs lock or not. -/
def execPllWaitRetry (lock : Bool) (cmp : BitVec 6) (s : State) : Out :=
  .next (if s.on R.RST_BOOT_PLL_WAIT && lock && !s.dead then s.bootReady.bootSelect (s.on R.RST_BOOT_RCV_STRAP) cmp.toNat else s)
/-- RESET_N_ASSERT (R517). -/
def execResetNAssert (s : State) : Out := .next (({ s with chip := { s.chip with resetN := false } } : State).deviceReset 1)
/-- RESET_N_HIGH (R517, R566): RESET_N rises. A test state on the pads ends with it. -/
def execResetNHigh (s : State) : Out := .next { s with chip := { s.chip with resetN := true } }
/-- POWER_ON (R516). -/
def execPowerOn (s : State) : Out := .next (({ s with chip := { s.chip with low := setBit s.chip.low 6 false } } : State).deviceReset 0)
/-- A write of `v` to RST_CTRL by requester `q` (Table 23.1). -/
def rstCtrlWrite (q : Requester) (v : Nat) (s : State) : State :=
  if !bit v 0 || bitsOf v 8 8 != 0x3C then s
  else match q with
    | .dap => s.deviceReset 4
    | .core _ | .pcie _ => s.deviceReset 3
    | _ => s
/-- RST_CTRL_DEVICE (R516). -/
def execRstCtrlDevice (q : Requester) (key : Byte) (s : State) : Out := regWrite q R.RST_CTRL (rstCtrlWrite q (key.toNat * 256 + 1)) s
/-- Each VDDIO bank takes its class at the release of a POR reset (R551): the voltages on the balls are free, and no command carries them. -/
def State.takeClasses (s : State) : State :=
  let (v, s) := s.fresh
  { s with chip := { s.chip with por := false, io33 := v % 256 } }

/-- RESET_RELEASE (R517, R551): `split` is PCIE_SPLIT then. -/
def execResetRelease (split : Bool) (s : State) : Out :=
  .next (if s.chip.held && s.chip.resetN && s.chip.low == 0 then
      let s := s.when s.chip.por State.takeClasses
      ({ s with chip := { s.chip with held := false, asleep := 0, struck := false } } : State).each [0, 1] fun l t => t.putB (R.PCIE_LINKl_STATUS_SPLIT l) split
    else s)
/-- SUPERVISOR_RESTARTED (R504). -/
def execSupervisorRestarted (s : State) : Out := .next s.supRestarted

end Sys2Proof.Machine
end

