-- ==== Sys2Proof/Machine/Rcv.lean ====
section
/-!
DEFINITION. Recovery boot (spec/23, R529 to R532) and the life cycle (R533 to R541): the mailbox and its commands, transitions, tokens
and keys.
-/
namespace Sys2Proof.Machine

/-! ### Results (Table 23.7) -/

/-- The recovery commands that a life-cycle state allows (Table 23.8). -/
def recoveryAllowed (lcs cmd : Nat) : Bool :=
  match lcs with
  | 0 => [4, 5, 6].contains cmd
  | 1 | 2 => true
  | 3 => cmd != 4
  | 4 => cmd != 4
  | _ => false

/-- The transitions of Table 23.8. -/
def Fuses.mayEnter (f : Fuses) (target : Nat) : Bool :=
  match f.lcs, target with
  | 0, 1 => !(f.keys.get [] 0).isEmpty
  | 1, 2 | 2, 3 | 2, 4 | 3, 4 | 4, 5 => true
  | _, _ => false

/-- Does a range lie in system SRAM? -/
def inSram (a n : Nat) : Bool := 0x10000000 ≤ a && a + n ≤ 0x11800000

/-- Does a token of R536 pass R537? -/
def State.tokenOk (s : State) (a : Nat) : Bool :=
  let t := s.bytesAt a 144
  let key := (t.drop 16).take 64
  t.take 4 == [0x53, 0x52, 0x4C, 0x43] && fld t 4 1 == 4 && fld t 5 1 < 4 && fld t 6 2 == 0 && fld t 8 8 == Config.serial &&
  s.fuses.keyOk (fld t 5 1) (some key) && ecdsaOk key (sha256 (t.take 80)) (t.drop 80)

/-! ### Requests -/

/-- A transition to `target` with a token at `a` (R535): its code, and the state afterwards. `fuseOk` says that the fuses verify. -/
def State.advanceLcs (s : State) (target a : Nat) (fuseOk : Bool) : Nat × State :=
  if 6 ≤ target then (1, s)
  else if !s.fuses.mayEnter target then (2, s)
  else if target = 4 ∧ inSram a 144 = false then (1, s)
  else if target = 4 ∧ s.tokenOk a = false then (6, s)
  else if !fuseOk then (9, s)
  else (0, { s with fuses := { s.fuses with lcs := target } })

/-- A hash is written into key slot `k` (R539). -/
def State.provisionKey (s : State) (k : Nat) (hash : List Byte) (fuseOk : Bool) : Nat × State :=
  if 4 ≤ k then (1, s)
  else if 3 ≤ s.fuses.lcs then (2, s)
  else if !(s.fuses.keys.get [] k).isEmpty then (3, s)
  else if !fuseOk then (9, s)
  else (0, ({ s with fuses := { s.fuses with keys := s.fuses.keys.set k hash } } : State).settleFuses)

/-- Key slot `k` is revoked (R539). -/
def State.revokeKey (s : State) (k : Nat) (fuseOk : Bool) : Nat × State :=
  let f := s.fuses
  if f.lcs = 0 ∨ 4 ≤ f.lcs then (2, s)
  else if !((List.range 4).any fun j => j != k && !(f.keys.get [] j).isEmpty && !bit f.revoked j) then (4, s)
  else if !s.image.isEmpty && s.get R.LCS_KEYS_RUNNING == k then (5, s)
  else if !fuseOk then (9, s)
  else (0, ({ s with fuses := { f with revoked := setBit f.revoked k true } } : State).settleFuses)

/-- Is a flash operation, a reload or a persist in progress (code BUSY)? -/
def State.lcsBusy (s : State) : Bool := ((List.range 5).any fun b => (s.flashOp b).busy) || s.reload.isSome || s.persisting.isSome

/-- The hash in LCS_PROV_HASH0 to LCS_PROV_HASH7. -/
def State.provHash (s : State) : List Byte := ((List.range 8).map fun j => leBytes 4 (s.rd (R.LCS_PROV_HASHj j)).toNat).flatten

/-- A write of `v` to LCS_CTRL; a request completes at once. -/
def lcsCtrlWrite (v : Nat) (fuseOk : Bool) (s : State) : State :=
  if bitsOf v 8 8 != 0xE7 then s
  else
    let done (r : Nat × State) : State := (r.2.put R.LCS_REQ_CODE r.1).put R.LCS_REQ_DONE 1
    if s.lcsBusy then done (10, s)
    else match bitsOf v 0 4 with
      | 1 =>
        let r := s.advanceLcs (bitsOf v 20 3) (s.rd R.LCS_TOKEN_ADDR).toNat fuseOk
        if r.1 = 0 then r.2.deviceReset 5 else done r
      | 2 => done (s.provisionKey (bitsOf v 16 2) s.provHash fuseOk)
      | 3 => done (s.revokeKey (bitsOf v 16 2) fuseOk)
      | _ => done (1, s)

/-! ### The mailbox (R530, R531) -/

/-- A field of the mailbox. -/
def State.mailbox (s : State) (off : Nat) : Nat := s.numAt (0x10000000 + off) 4
/-- ROM writes a field of the mailbox. -/
def State.mailboxPut (s : State) (off v : Nat) : State := s.poke (0x10000000 + off) (leBytes 4 v)
/-- A command ends with RESULT. -/
def State.mailboxDone (s : State) (result : Nat) : State :=
  (({ s with chip := { s.chip with cmd := none } } : State).mailboxPut 16 result).mailboxPut 20 2
/-- Is ROM executing recovery command `c`? -/
def State.recovering (s : State) (c : Nat) : Bool := s.chip.cmd == some c && s.get R.RST_BOOT_PHASE == 10 && !s.dead

/-- ROM reads the mailbox (R530): it takes a command, and ends one that is reserved or that the life-cycle state forbids. -/
def State.mailboxPoll (s : State) : State :=
  let c := s.mailbox 0
  if s.dead || s.get R.RST_BOOT_PHASE != 10 || s.chip.cmd.isSome || c == 0 || s.mailbox 20 == 1 then s
  else
    let s := (s.mailboxPut 20 1).mailboxPut 0 0
    if 7 ≤ c then s.mailboxDone 1
    else if !recoveryAllowed s.fuses.lcs c then s.mailboxDone 2
    else { s with chip := { s.chip with cmd := some c } }

/-- The image that the mailbox names, if ADDR and LEN are in order (Table 23.5, BAD_CMD). -/
def State.mailboxImage (s : State) : Option (List Byte) :=
  let a := s.mailbox 4
  let n := s.mailbox 8
  if a % 64 = 0 ∧ 0x10000040 ≤ a ∧ inSram a n = true then some (s.bytesAt a n) else none

/-- The check of an image that a command names: CHK and CHK_OFFSET, and the image if it passes. -/
def State.mailboxCheck (s : State) : Option (List Byte) × State :=
  match s.mailboxImage with
  | none => (none, s.mailboxDone 1)
  | some img =>
    match checkImage img (s.get R.SCFG_FLOOR_FLOOR) s.fuses with
    | some (code, off) => (none, ((s.mailboxPut 24 code).mailboxPut 28 off).mailboxDone 7)
    | none => (some img, (s.mailboxPut 24 0).mailboxPut 28 0)

/-- RUN (R531): the image is applied and the boot goes on at step 7. -/
def State.recoveryRun (s : State) (cmp : Nat) : State :=
  match s.mailboxCheck with
  | (none, s) => s
  | (some img, s) =>
    let s := (s.mailboxDone 0).applyImage img
    let s := ((s.put R.SCFG_STATUS_BASE_SLOT 3).put R.SCFG_STATUS_IN_SLOT 0).putB R.SCFG_STATUS_TRIAL
      (decide (s.get R.SCFG_FLOOR_FLOOR < imgSeq img))
    s.bootTail cmp

/-- WRITE_A and WRITE_B (R531): the image is written into slot `k`; `ok` says that it verifies. -/
def State.recoveryStore (s : State) (k : Nat) (ok : Bool) : State :=
  match s.mailboxCheck with
  | (none, s) => s
  | (some img, s) =>
    let s := s.each (coveredBlocks k img.length) fun b t => t.eraseStart platform b
    if ok then (((s.each (coveredBlocks k img.length) fun b t => t.eraseEnd platform b).poke (slotBase k) img)).mailboxDone 0
    else s.mailboxDone 8

/-! ### Commands -/

/-- MAILBOX_POLL (R530). -/
def execMailboxPoll (s : State) : Out := .next s.mailboxPoll
/-- RECOVERY_RUN (R531). -/
def execRecoveryRun (cmp : BitVec 6) (s : State) : Out := .next (if s.recovering 1 then s.recoveryRun cmp.toNat else s)
/-- WRITE_A (R531). -/
def execWriteA (ok : Bool) (s : State) : Out := .next (if s.recovering 2 then s.recoveryStore 0 ok else s)
/-- WRITE_B (R531). -/
def execWriteB (ok : Bool) (s : State) : Out := .next (if s.recovering 3 then s.recoveryStore 1 ok else s)
/-- RECOVERY_PROVISION (R539). -/
def execRecoveryProvision (fuseOk : Bool) (s : State) : Out :=
  .next (if s.recovering 4 then
      let r := s.provisionKey (s.mailbox 12) (s.bytesAt 0x10000020 32) fuseOk
      r.2.mailboxDone r.1
    else s)
/-- RECOVERY_ADVANCE (R535). -/
def execRecoveryAdvance (fuseOk : Bool) (s : State) : Out :=
  .next (if s.recovering 5 then
      let a := s.mailbox 4
      if s.mailbox 12 = 4 ∧ s.fuses.mayEnter 4 = true ∧ (a % 64 ≠ 0 ∨ a < 0x10000040) then s.mailboxDone 1
      else
        let r := s.advanceLcs (s.mailbox 12) a fuseOk
        if r.1 = 0 then r.2.deviceReset 5 else r.2.mailboxDone r.1
    else s)
/-- RECOVERY_RESET (R531). -/
def execRecoveryReset (s : State) : Out := .next (if s.recovering 6 then s.deviceReset 3 else s)
/-- LCS_ADVANCE (R535). -/
def execLcsAdvance (q : Requester) (target : Fin 8) (fuseOk : Bool) (s : State) : Out :=
  regWrite q R.LCS_CTRL (lcsCtrlWrite (target.val * 2 ^ 20 + 0xE701) fuseOk) s
/-- LCS_PROVISION (R539). -/
def execLcsProvision (q : Requester) (slot : Fin 4) (fuseOk : Bool) (s : State) : Out :=
  regWrite q R.LCS_CTRL (lcsCtrlWrite (slot.val * 2 ^ 16 + 0xE702) fuseOk) s
/-- REVOKE (R539). -/
def execRevoke (q : Requester) (slot : Fin 4) (fuseOk : Bool) (s : State) : Out :=
  regWrite q R.LCS_CTRL (lcsCtrlWrite (slot.val * 2 ^ 16 + 0xE703) fuseOk) s

end Sys2Proof.Machine
end

