-- ==== Sys2Proof/Machine/Pwr.lean ====
section
/-!
DEFINITION. Power states (spec/21, R484 to R489) and supply monitors (R490 to R492). An entry completes in the cycle of its write.
-/
namespace Sys2Proof.Machine

/-! ### Entries and refusals -/

/-- The domains that run in PARK (Table 21.4): the seven of R31, device time and the Pavane domain. -/
def parkDomains : List Nat := [21, 22, 45, 93, 100, 102, 103]

/-- Is a core neither in WFI, nor in LOCKUP, nor in a partition held in reset (Table 21.5)? -/
def State.coreActive (s : State) (c : Nat) : Bool :=
  let p := s.coreOwner c
  let x := s.cpuAt c
  p < 8 && s.partState p == 1 && (s.coresOf p).contains c && !x.wfi && (x.started || s.get (R.CPS_LOCKUP_CAUSE c) == 0)

/-- The refusal code of an entry into `target`, 0 for none (R488). -/
def State.entryRefusal (s : State) (target : Nat) : Nat :=
  if target = 1 ∧ s.get R.PWR_STATUS_STATE = 1 then 1
  else if target = 1 ∧ (List.range 104).any (fun d => s.domHeld d && !parkDomains.contains d) = true then 2
  else if target = 1 ∧ (List.range 8).any s.coreActive = true then 3
  else if target = 1 ∧ (s.on (R.PCIE_LINKl_STATUS_UP 0) || s.on (R.PCIE_LINKl_STATUS_UP 1)) = true then 4
  else if (List.range 5).any fun b => (s.flashOp b).busy then 5
  else if s.reload.isSome || s.persisting.isSome then 6
  else if 2 ≤ target ∧ s.rd R.PWR_WAKE_EN = 0#32 then 7
  else 0

/-- Entry into PARK (R485). -/
def State.enterPark (s : State) : State :=
  let s := s.each [6, 8, 9, 16, 17, 18, 19, 20, 21, 22, 23] fun k t => t.pllStop k
  let s := s.each ((List.range 104).filter fun d => !parkDomains.contains d && !ungated d) fun d t => t.closeGate d
  let s := s.each (List.range 2) fun p t => t.ethLink p false false
  s.put R.PWR_STATUS_STATE 1

/-- The pad states latched at an entry (R486): the safe states of pads and of PWM outputs. -/
def State.latched (s : State) : Tab Nat :=
  (List.range 64).foldl (fun t m => t.set (96 + m) (if s.pads.get 0 (96 + m) % 8 = 1 then
    s.get (if m % 2 = 0 then R.PWM_Un_SAFE_STATE_A (m / 2) else R.PWM_Un_SAFE_STATE_B (m / 2)) else 2)) s.padSafe

/-- Entry into STANDBY (2) or DORMANT (3) (R486). -/
def State.enterSleep (s : State) (target : Nat) : State :=
  let s := ((s.wr R.SUP_FORCE_PWM 0xFFFFFFFF#32).wr R.SUP_FORCE_LINK 0xFFFFFFFF#32).settleOutputs
  let s := s.each ((List.range 32).filter fun l => s.lstate l != 0) fun l t => t.stopLink l
  let s := s.each ((List.range 8).filter fun p => s.partState p != 0) fun p t => if t.inPartReset p then t else t.partAssert p 1
  let s := { s with chip := { s.chip with latch := s.latched } }
  let s := s.each ((List.range 103).filter fun d => !ungated d) fun d t => t.closeGate d
  let s := s.each ((List.range 24).filter isPll) fun k t => t.pllStop k
  let s := s.clearCore 8
  { s with chip := { s.chip with asleep := target, lost := false } }

/-- A write of `v` to PWR_CTRL. TARGET 0b00 is reserved. -/
def pwrCtrlWrite (v : Nat) (s : State) : State :=
  let t := bitsOf v 0 2
  if bitsOf v 8 8 != 0xC3 || t == 0 then s
  else
    let r := s.entryRefusal t
    if r != 0 then ((s.put R.PWR_STATUS_REFUSE r).put R.PWR_STATUS_REFUSED 1).raise 763
    else if t = 1 then s.enterPark else s.enterSleep t

/-- A wake source leaves STANDBY or DORMANT (R487, R489): a DEVICE reset, with the context store kept after STANDBY. -/
def State.wakeUp (s : State) (rtc : Bool) : State :=
  let enabled := if rtc then s.on R.PWR_WAKE_EN_RTC && s.on R.PWR_RTC_CTRL_ALARM else s.on R.PWR_WAKE_EN_WAKE_N
  if s.chip.asleep = 0 || !enabled then s
  else
    let from_ := s.chip.asleep
    let lost := s.chip.lost
    let s := s.deviceReset 6 (from_ == 2 && !lost)
    let s := (s.put (if rtc then R.PWR_WAKE_CAUSE_RTC else R.PWR_WAKE_CAUSE_WAKE_N) 1).put R.PWR_WAKE_CAUSE_FROM from_
    s.when lost fun s => s.put R.PWR_WAKE_CAUSE_RET_LOST 1

/-! ### Supply monitors -/

/-- Is monitor `m` watched now (Table 21.6)? There is no monitor 7. -/
def State.monitored (s : State) (m : Nat) : Bool :=
  m != 7 && (s.chip.asleep == 0 || m == 6 || (m == 1 && s.chip.asleep == 2))

/-- The field and bit of monitor `m` in PWR_SUP_LIVE, PWR_SUP_LATCH or PWR_SUP_LAST. -/
def supBit (core io : RF) (m : Nat) : RF × Nat := if m < 8 then (core, m) else (io, m - 8)
/-- LIVE of monitor `m` takes a value, and with it the blocks that use WARN. -/
def State.putWarn (s : State) (m : Nat) (b : Bool) : State :=
  let f := supBit R.PWR_SUP_LIVE_CORE R.PWR_SUP_LIVE_VDDIO m
  let t := s.putBit f.1 f.2 b
  let t := if s.flashWarn && !t.flashWarn then { t with flash := { t.flash with clear := t.now } } else t
  t.settleOutputs

/-- WARN of monitor `m` asserts (R491, R492); flash pulses stop for supplies 0, 2 and 3 (R458). -/
def State.warnUp (s : State) (m : Nat) : State :=
  if !s.monitored m || s.warn m then s
  else
    let f := supBit R.PWR_SUP_LATCH_CORE R.PWR_SUP_LATCH_VDDIO m
    let s := ((s.putWarn m true).putBit f.1 f.2 true).raise 763
    if m = 0 ∨ m = 2 ∨ m = 3 then s.flashHold else s

/-- A supply falls to its reset level (R489, R491): a DEVICE reset; VDD_SRAM in STANDBY loses the context; with VDD_AON all is lost until
POWER_ON. -/
def State.supplyDown (s : State) (m : Nat) : State :=
  if !s.monitored m then s
  else if m = 6 then ({ s with chip := { s.chip with low := setBit s.chip.low 6 true } } : State).deviceReset 0
  else if s.chip.asleep = 2 then { s with chip := { s.chip with lost := true } }
  else
    let f := supBit R.PWR_SUP_LAST_CORE R.PWR_SUP_LAST_VDDIO m
    ((({ s with chip := { s.chip with low := setBit s.chip.low m true } } : State).deviceReset 2).putBit f.1 f.2 true)

/-! ### Commands -/

/-- PARK (R485). -/
def execPark (q : Requester) (key : Byte) (s : State) : Out := regWrite q R.PWR_CTRL (pwrCtrlWrite (key.toNat * 256 + 1)) s
/-- STANDBY (R486). -/
def execStandby (q : Requester) (key : Byte) (s : State) : Out := regWrite q R.PWR_CTRL (pwrCtrlWrite (key.toNat * 256 + 2)) s
/-- DORMANT (R486). -/
def execDormant (q : Requester) (key : Byte) (s : State) : Out := regWrite q R.PWR_CTRL (pwrCtrlWrite (key.toNat * 256 + 3)) s
/-- WAKE (R487): by the RTC alarm or by WAKE_N. -/
def execWake (rtc : Bool) (s : State) : Out := .next (s.wakeUp rtc)
/-- WARN_ASSERT (R491). -/
def execWarnAssert (m : Fin 16) (s : State) : Out := .next (s.warnUp m)
/-- WARN_CLEAR (R491): the supply is good again. -/
def execWarnClear (m : Fin 16) (s : State) : Out :=
  .next (if s.monitored m then ({ s with chip := { s.chip with low := setBit s.chip.low m false } } : State).putWarn m false else s)
/-- SUPPLY_RESET (R491). -/
def execSupplyReset (m : Fin 16) (s : State) : Out := .next (s.supplyDown m)

end Sys2Proof.Machine
end

