-- ==== Sys2Proof/Machine/Dbg.lean ====
section
/-!
DEFINITION. Debug (spec/22, R509 to R515): scopes and grants, halts of cores and lanes, breakpoints, and the window on a halted
processor's registers.
-/
namespace Sys2Proof.Machine

/-! ### Grants (R511) -/

/-- CHALLENGE: the nonce is filled; a locked-out block refuses, and a failed entropy source ends it FAILED (R540). -/
def State.challenge (s : State) : State :=
  if s.get R.DBG_AUTH_STATUS_STATE = 2 ∨ s.on R.DBG_AUTH_STATUS_LOCKED_OUT = true then s
  else if s.on R.LCS_STATE_ENT_FAIL then s.put R.DBG_AUTH_STATUS_STATE 4
  else
    let s := s.each (List.range 8) fun j s => (let f := s.fresh; f.2.wr (R.DBG_AUTH_NONCEj j) (BitVec.ofNat 32 f.1))
    ({ s with chip := { s.chip with nonce := true } } : State).put R.DBG_AUTH_STATUS_STATE 1

/-- The bytes of a run of registers. -/
def State.regBytes (s : State) (r : Nat → Reg) (n : Nat) : List Byte := ((List.range n).map fun j => leBytes 4 (s.rd (r j)).toNat).flatten

/-- Does the signature in the registers grant the scope of DBG_AUTH_CTRL? -/
def State.grantOk (s : State) : Bool :=
  let c := s.rd R.DBG_AUTH_CTRL &&& 0x1FFC0#32
  let k := s.get R.DBG_AUTH_CTRL_KEY_INDEX
  let key := s.regBytes R.DBG_AUTH_KEYj 16
  let msg := ([0x53, 0x52, 0x44, 0x42] : List Byte) ++ s.regBytes R.DBG_AUTH_NONCEj 8 ++ leBytes 4 c.toNat ++ leBytes 4 k
  s.chip.nonce && s.fuses.keyOk k (some key) && ecdsaOk key (sha256 msg) (s.regBytes R.DBG_AUTH_SIGj 16)

/-- VERIFY: verification starts, and uses the nonce up. -/
def State.verify (s : State) : State :=
  if s.get R.DBG_AUTH_STATUS_STATE = 2 then s
  else
    let r := if s.grantOk then some ((s.rd R.DBG_AUTH_CTRL).toNat / 256 % 512) else none
    ({ s with chip := { s.chip with nonce := false, verify := some r } } : State).put R.DBG_AUTH_STATUS_STATE 2

/-- Verification ends: the scopes open, or a failure counts. -/
def State.verified (s : State) : State :=
  match s.chip.verify with
  | none => s
  | some r =>
    let s := { s with chip := { s.chip with verify := none } }
    match r with
    | some scope => ((s.put R.DBG_AUTH_STATUS_STATE 3).put R.DBG_AUTH_STATUS_GRANT_PARTS scope).put R.DBG_AUTH_STATUS_GRANT_PLAT (scope / 256)
    | none =>
      let n := s.get R.DBG_AUTH_STATUS_FAILS + 1
      ((s.put R.DBG_AUTH_STATUS_STATE 4).put R.DBG_AUTH_STATUS_FAILS (min n 3)).when (decide (3 ≤ n)) fun s => s.put R.DBG_AUTH_STATUS_LOCKED_OUT 1

/-- CLOSE: the grant ends. -/
def State.closeGrant (s : State) : State :=
  let s := (s.put R.DBG_AUTH_STATUS_GRANT_PARTS 0).put R.DBG_AUTH_STATUS_GRANT_PLAT 0
  if s.get R.DBG_AUTH_STATUS_STATE = 2 then s else ({ s with chip := { s.chip with nonce := false } } : State).put R.DBG_AUTH_STATUS_STATE 0

/-- A write of `v` to DBG_AUTH_CTRL: fields first, then the command bits, lowest first. -/
def authCtrlWrite (v : Nat) (s : State) : State :=
  let s := s.wr R.DBG_AUTH_CTRL (BitVec.ofNat 32 (v &&& 0x1FFC0))
  let s := s.when (bit v 0) State.challenge
  let s := s.when (bit v 1) State.verify
  s.when (bit v 2) State.closeGrant

/-! ### Halts (R512 to R515) -/

/-- Is the core or lane with DBG number `c` halted? -/
def State.debugHalted (s : State) (c : Nat) : Bool := s.get (R.DBG_Cc_STATUS_STATE c) == 1
/-- Does register number `c` exist in the DBG block? -/
def dbgExists (c : Nat) : Bool := c < 9 || (16 ≤ c && c < 32)
/-- Is the scope of the core or lane open? The supervisor halts only in BLANK, PROVISIONED and RETURN (R514). -/
def State.coreScope (s : State) (c : Nat) : Bool :=
  if c = 8 then s.fuses.lcs == 0 || s.fuses.lcs == 1 || s.fuses.lcs == 4
  else if c < 8 then s.scopeOpen (s.coreOwner c) else s.scopeOpen (s.owner 1 (c - 16))
/-- Is a core in a ROM service (R447)? -/
def Cpu.inService (x : Cpu) : Bool := x.pc == 0x800#32 || x.pc == 0x804#32

/-- A halt of core `c` with a cause, at this boundary: a lockstep pair halts as one and breaks (R513, R514). -/
def State.haltCore (s : State) (c cause : Nat) : State :=
  let halt (s : State) (d : Nat) : State := (s.put (R.DBG_Cc_STATUS_STATE d) 1).put (R.DBG_Cc_STATUS_CAUSE d) cause
  let s := halt (s.setCpuAt c { s.cpuAt c with wfi := false, step := false, want := false }) c
  if c = 8 then { s with chip := { s.chip with svBroken := true } }
  else if s.comparing (c / 2) then
    let s := halt (s.setCpuAt (c + 1) { s.cpuAt c with started := false }) (c + 1)
    ((s.put (R.SUP_PAIRk_STATUS_COMPARING (c / 2)) 0).put (R.SUP_PAIRk_STATUS_DEBUG_BROKEN (c / 2)) 1).supFault R.SUP_FAULT_DEBUG_BROKEN (c / 2)
  else s

/-- HALT of core or lane `c`. -/
def State.dbgHalt (s : State) (c : Nat) : State :=
  if c = 8 && !s.coreScope 8 then s.put (R.DBG_Cc_STATUS_REFUSED 8) 1
  else if !s.coreScope c || s.debugHalted c then s
  else if 16 ≤ c then
    let s := s.laneFault (c - 16) 5 0 (s.cpuAt c).pc
    ((s.put (R.LNC_Ln_STATUS_HALTED (c - 16)) 1).put (R.DBG_Cc_STATUS_STATE c) 1).put (R.DBG_Cc_STATUS_CAUSE c) 1
  else
    let d := if c < 8 ∧ s.comparing (c / 2) = true then c / 2 * 2 else c
    let x := s.cpuAt d
    if !x.started then s else if x.inService then s.setCpuAt d { x with want := true } else s.haltCore d 1

/-- RESUME of core or lane `c`: a core continues at DPC, the trailing core of a broken pair stays stopped, a lane waits for its next
dispatch. -/
def State.dbgResume (s : State) (c : Nat) : State :=
  if !s.debugHalted c then s
  else if 16 ≤ c then (s.put (R.LNC_Ln_STATUS_HALTED (c - 16)) 0).put (R.DBG_Cc_STATUS_STATE c) 0
  else if !(s.cpuAt c).started then s
  else ((s.setCpuAt c { s.cpuAt c with resumed := true }).put (R.DBG_Cc_STATUS_STATE c) 0).when (c % 2 == 0 && c < 8 && !(s.cpuAt (c + 1)).started) fun s => s.put (R.DBG_Cc_STATUS_STATE (c + 1)) 0

/-- STEP of core `c`: it runs until one instruction has executed. -/
def State.dbgStep (s : State) (c : Nat) : State :=
  if 16 ≤ c || !s.debugHalted c || !(s.cpuAt c).started || !s.coreScope c then s
  else (s.dbgResume c).setCpuAt c { s.cpuAt c with step := true, resumed := true }

/-- Does an enabled breakpoint match the next instruction of core `c`, with its scope open? -/
def State.breakHit (s : State) (c : Nat) : Bool :=
  s.coreScope c && !(s.cpuAt c).resumed && [0, 1].any fun k => s.on (R.DBG_Cc_BPk_EN c k) && s.get (R.DBG_Cc_BPk_ADDR c k) == (s.cpuAt c).pc.toNat / 2

/-- A write of `v` to DBG_Cc_CTRL: only the port's acts (R509). -/
def dbgCtrlWrite (q : Requester) (c v : Nat) (s : State) : State :=
  if q != .dap || !dbgExists c then s
  else
    let s := s.putB (R.DBG_Cc_CTRL_HALT_ON_BRK c) (bit v 3)
    let s := s.when (bit v 0) fun s => s.dbgHalt c
    let s := s.when (bit v 1) fun s => s.dbgResume c
    s.when (bit v 2) fun s => s.dbgStep c

/-! ### The register window (Table 10.2 at 0x20 + m) -/

/-- Does DBG_Cc_DATA reach registers: a halted core or lane in an open scope? -/
def State.dataOpen (s : State) (c : Nat) : Bool := s.debugHalted c && s.coreScope c

/-- A read of DBG_Cc_DATA. -/
def State.dbgDataRead (s : State) (c : Nat) : Word :=
  let r := s.get (R.DBG_Cc_REGSEL_REG c)
  let x := s.cpuAt c
  if !s.dataOpen c then 0#32 else if r < 16 then x.reg r else if r = 16 then x.pc
  else if 0x20 ≤ r then (s.ctlRead c (r - 0x20)).getD 0#32 else 0#32

/-- A write of `v` to DBG_Cc_DATA. -/
def State.dbgDataWrite (s : State) (c : Nat) (v : Word) : State :=
  let r := s.get (R.DBG_Cc_REGSEL_REG c)
  let x := s.cpuAt c
  if !s.dataOpen c then s
  else if r < 16 then s.setCpuAt c (x.setReg r v)
  else if r = 16 then s.setCpuAt c { x with pc := v &&& 0xFFFFFFFE#32 }
  else if 0x20 ≤ r then s.setCpuAt c (x.ctlWrite (r - 0x20) v) else s

/-! ### Commands -/

/-- CHALLENGE (R511): a write of `v` with CHALLENGE. -/
def execChallenge (q : Requester) (v : Word) (s : State) : Out := regWrite q R.DBG_AUTH_CTRL (authCtrlWrite ((v &&& 0x1FFC0#32).toNat + 1)) s
/-- VERIFY (R511): a write of the scope and the key with VERIFY. -/
def execDbgVerify (q : Requester) (v : Word) (s : State) : Out := regWrite q R.DBG_AUTH_CTRL (authCtrlWrite ((v &&& 0x1FFC0#32).toNat + 2)) s
/-- VERIFY_DONE (R511). -/
def execVerifyDone (s : State) : Out := .next s.verified
/-- CLOSE (R511). -/
def execDbgClose (q : Requester) (v : Word) (s : State) : Out := regWrite q R.DBG_AUTH_CTRL (authCtrlWrite ((v &&& 0x1FFC0#32).toNat + 4)) s
/-- HALT (R512, R515): a write of HALT with HALT_ON_BRK. -/
def execDbgHalt (q : Requester) (c : Fin 32) (brk : Bool) (s : State) : Out :=
  regWrite q (R.DBG_Cc_CTRL c) (dbgCtrlWrite q c (1 + 8 * brk.toNat)) s
/-- DEBUG_RESUME (R512). -/
def execDebugResume (q : Requester) (c : Fin 32) (brk : Bool) (s : State) : Out :=
  regWrite q (R.DBG_Cc_CTRL c) (dbgCtrlWrite q c (2 + 8 * brk.toNat)) s
/-- STEP (R512). -/
def execDbgStep (q : Requester) (c : Fin 32) (brk : Bool) (s : State) : Out :=
  regWrite q (R.DBG_Cc_CTRL c) (dbgCtrlWrite q c (4 + 8 * brk.toNat)) s
/-- BREAKPOINT_HALT (R512). -/
def execBreakpointHalt (c : Fin 9) (s : State) : Out :=
  .next (let x := s.cpuAt c
    if x.started && !x.wfi && !s.debugHalted c && !x.inService && s.breakHit c then s.haltCore c 3 else s)
/-- DEBUG_DATA_ACCESS (R512): a read, or a write of `w`. -/
def execDebugDataAccess (q : Requester) (c : Fin 32) (w : Option Word) (s : State) : Out :=
  match w with
  | none => regRead q (R.DBG_Cc_DATA c) (fun s => { s with resp := some (if q = .dap then s.dbgDataRead c else 0#32) }) s
  | some v => regWrite q (R.DBG_Cc_DATA c) (fun s => if q = .dap then s.dbgDataWrite c v else s) s

end Sys2Proof.Machine
end

