-- ==== Sys2Proof/Machine/LaneTrig.lean ====
section
/-!
DEFINITION. Period starts and half-period instants as they reach lanes, commit stage and reloads (spec/06, R134 to R137), and the events
that arrive at consumer inputs (spec/13, Table 13.4).
-/
namespace Sys2Proof.Machine

/-! ### Period starts -/

/-- The last commit that waits in unit `n` and arrived before the cycle of this period start applies (R135); the answer says whether EVT_DIV
changed. -/
def State.pwmPending (s : State) (n : Nat) : Bool × State :=
  let early (c : Time × List Word) : Bool := decide (pwmCycle c.1 < pwmCycle s.now)
  match ((s.unit n).commits.filter early).getLast? with
  | some (_, ws) =>
    let div := s.get (R.PWM_Un_CFG_EVT_DIV n)
    let s := (s.setUnit n { s.unit n with commits := (s.unit n).commits.filter fun c => !early c }).pwmApply n ws
    (s.get (R.PWM_Un_CFG_EVT_DIV n) != div, s)
  | none => (false, s)

/-- A period start that is made: in the unit, at a reload's boundary, at the lanes (R106, R136). -/
def State.madeStart (s : State) (n : Nat) (restart : Bool) : State :=
  let s := (s.reloadBoundary n).periodStart n restart
  let s := s.when (s.get (R.PWM_Un_CFG_UPDATE n) == 2) fun s => s.carryCompare n
  s.triggerAll (fun kind src _ => kind < 2 && src == n) s.now

/-- PERIOD_START (R135): a running unit reaches its next period start; a commit that cleared ENABLE stops it instead. -/
def State.nextPeriod (s : State) (n : Nat) : State :=
  if !s.on (R.PWM_Un_STATUS_RUNNING n) || s.now != (s.unit n).next || (s.unit n).lost || !s.groupReady (n / 8) then s
  else
    let (restart, s) := s.pwmPending n
    if s.on (R.PWM_Un_CFG_ENABLE n) then s.madeStart n restart else s.pwmStop n

/-- UNIT_FIRST_PERIOD_START (R134): the first instant of the grid, from the due one on, at which the group is aligned. -/
def State.firstPeriod (s : State) (n : Nat) : State :=
  let u := s.unit n
  let d := s.since u.next
  if !u.starting || !s.groupReady (n / 8) || decide (s.now.toNat < u.next.toNat) || !(if s.period n = 0 then d == 0 else d % s.period n == 0) then s
  else
    let s := ((s.setUnit n { u with starting := false }).put (R.PWM_Un_STATUS_RUNNING n) 1).when (u.late || d != 0) fun s =>
      s.put (R.PWM_Un_STATUS_START_LATE n) 1
    s.madeStart n true

/-- HALF_PERIOD (R136, R140): c = floor(P / 2). -/
def State.halfPeriod (s : State) (n : Nat) : State :=
  if !s.on (R.PWM_Un_STATUS_RUNNING n) || (s.unit n).lost || !s.groupReady (n / 8) || s.since (s.unit n).last != s.period n / 2 then s
  else
    let s := (s.when (s.get (R.PWM_Un_CFG_UPDATE n) == 1) fun s => s.transfer n).evalRef n
    (s.triggerAll (fun kind src _ => kind == 1 && src == n) s.now).raise (330 + n)

/-! ### Consumer inputs -/

/-- An interrupt or NMI input hands its event to the core; it is taken when PEND clears (Table 13.4). -/
def State.handEvent (s : State) (c : Nat) (f : State → State) : State :=
  let x := s.chan c
  if x.handed then s else f (s.setChan c { x with handed := true })

/-- An event is taken on arrival, and its consumer acts on it. -/
def State.takeBy (s : State) (c : Nat) (f : State → State) : State := f (s.takeEvent c)

/-- TRIP_EVT of unit `n` sets, and the outputs are safe (R145, R148). -/
def State.tripEvent (s : State) (n : Nat) (cause : Cause) : State :=
  (s.put (R.PWM_Un_LATCH_TRIP_EVT n) 1).settleUnit n cause

/-- The pending event of channel `c` reaches consumer input `i` (R316, R317). -/
def State.consume (s : State) (i c : Nat) : State :=
  match (s.chan c).pend with
  | [] => s
  | h :: _ =>
    if s.inputInReset i then (s.setChan c { s.chan c with pend := [], handed := false }).put (R.EVM_Cc_STATUS_DROPPED c) 1
    else if !s.running (inputDomain i) then s.request (inputDomain i)
    else
      let cause : Cause := some (h, c)
      if i < 0x0900 then s.handEvent c fun s => s.setPend (i / 256) (i % 256) true
      else if i < 0x0909 then s.handEvent c fun s => s.put (R.CPS_NMI_PEND (i - 0x0900)) 1
      else if i < 0x0A00 then s
      else if i < 0x0A10 then s.takeBy c fun s => s.triggerAll (fun kind _ a => kind == 3 && a == i - 0x0A00) s.now cause
      else if i < 0x0A28 then s.takeBy c fun s => s.when (s.on (R.FCV_CHn_TRIG_EVT_EN (i - 0x0A10))) fun s => s.fcArm (i - 0x0A10) false
      else if i < 0x0A2C then s.takeBy c fun s => s.scanEvent (i - 0x0A28) cause
      else if i < 0x0A30 then s
      else if i < 0x0A50 then s.takeBy c fun s => s.tripEvent (i - 0x0A30) cause
      else if i < 0x0A60 then s.takeBy c fun s =>
        s.when (s.get (R.POS_Pn_CFG_PRB_SRC (i - 0x0A50)) == 3) fun s => s.probe (i - 0x0A50) false s.now cause
      else if i < 0x0A80 then s.handEvent c fun s => s.dmaRequest (i - 0x0A60) cause
      else if i < 0x0A84 then s.takeBy c fun s => s.fpGo (i - 0x0A80) cause
      else if i < 0x0A88 then s
      else if i < 0x0A8A then s.takeBy c fun s => s.ethCapture (i - 0x0A88) cause
      else if i < 0x0A90 then s
      else if i < 0x0AA0 then s.takeBy c fun s => s.gpioAct (i - 0x0A90)
      else s

/-- The channel that selects input `i` delivers its event there. -/
def State.eventAt (s : State) (i : Nat) : State := match s.channelOf i with | some c => s.consume i c | none => s

/-! ### Commands -/

/-- PERIOD_START (R135, R136). -/
def execPeriodStart (n : Fin 32) (s : State) : Out := .next (s.nextPeriod n)
/-- UNIT_FIRST_PERIOD_START (R134). -/
def execUnitFirstPeriodStart (n : Fin 32) (s : State) : Out := .next (s.firstPeriod n)
/-- HALF_PERIOD (R136). -/
def execHalfPeriod (n : Fin 32) (s : State) : Out := .next (s.halfPeriod n)
/-- EVENT_DELIVERY (R316): the pending event of channel `c` reaches the input that selects it. -/
def execEventDelivery (c : Fin 256) (s : State) : Out :=
  .next (if s.on (R.EVM_Cc_CONS_VALID c) then s.consume (s.get (R.EVM_Cc_CONS_INPUT c)) c else s)
/-- CL_TRIG_EVENT (R106). -/
def execClTrigEvent (n : Fin 16) (s : State) : Out := .next (s.eventAt (0x0A00 + n))
/-- FC_ARM_EVENT (R62). -/
def execFcArmEvent (n : Fin 24) (s : State) : Out := .next (s.eventAt (0x0A10 + n))
/-- SCV_START_EVENT (R92). -/
def execScvStartEvent (k : Fin 4) (s : State) : Out := .next (s.eventAt (0x0A28 + k))
/-- TRIPEV_EVENT (R148). -/
def execTripevEvent (n : Fin 32) (s : State) : Out := .next (s.eventAt (0x0A30 + n))
/-- PROBE_EVENT (R225). -/
def execProbeEvent (n : Fin 16) (s : State) : Out := .next (s.eventAt (0x0A50 + n))
/-- DCN_REQ_EVENT (R419). -/
def execDcnReqEvent (n : Fin 32) (s : State) : Out := .next (s.eventAt (0x0A60 + n))
/-- FP_GO_EVENT (R339). -/
def execFpGoEvent (n : Fin 4) (s : State) : Out := .next (s.eventAt (0x0A80 + n))
/-- ETH_CAPTURE (R374). -/
def execEthCapture (p : Fin 2) (s : State) : Out := .next (s.eventAt (0x0A88 + p))
/-- GPIO_OUTPUT_EVENT (R383). -/
def execGpioOutputEvent (k : Fin 16) (s : State) : Out := .next (s.eventAt (0x0A90 + k))
/-- IRQ_EVENT (R303): interrupt `k` of core `c`. -/
def execIrqEvent (c : Fin 9) (k : Fin 256) (s : State) : Out := .next (s.eventAt (256 * c + k))
/-- NMI_EVENT (R304). -/
def execNmiEvent (c : Fin 9) (s : State) : Out := .next (s.eventAt (0x0900 + c))

end Sys2Proof.Machine
end

