-- ==== Sys2Proof/Machine/Tap.lean ====
section
/-!
DEFINITION. The pads (spec/24, R546, R547, R555; spec/23, R526), the TAP and boundary scan (R565, R566), PCIE_PERST_N, and the health of
the entropy source (R540).
-/
namespace Sys2Proof.Machine

/-! ### Pads -/

/-- Does a boundary-scan instruction govern the pads (R566)? -/
def State.boundaryOn (s : State) : Bool := !s.chip.resetN && (s.tap.instr == 3 || s.tap.instr == 4 || s.tap.instr == 5)

/-- FUNC of a pad (R547). -/
def State.padFn (s : State) (p : Nat) : Nat := s.pads.get 0 p % 8

/-- What pad `p` drives in operation: a PWM output under FUNC 1, a general-purpose pin that an output event names. What the serial
controllers drive is part of their commands. -/
def State.padRun (s : State) (p : Nat) : Drive :=
  if p < 96 then
    if s.chip.expired && (s.padSafe.any fun e => e.1 == p) then safeDrive (s.padSafe.get 2 p)
    else if s.padFn p = 0 ∧ ((List.range 16).any fun k => let v := (s.rd (R.GPIO_OEVk k)).toNat
                              v % 128 == p && bitsOf v 8 2 != 0) = true then
      (if bit s.gpioOut p then .high else .low)
    else .hiz
  else if p < 160 then
    let n := (p - 96) / 2
    let b := p % 2 == 1
    if s.chip.expired then safeDrive (s.get (if b then R.PWM_Un_SAFE_STATE_B n else R.PWM_Un_SAFE_STATE_A n))
    else if s.padFn p = 1 then s.pwmOut n b else .hiz
  else .hiz

/-- What pad `p` drives (R486, R526, R555, R566). FAULT_N is open-drain. DESIGN CHOICE (log 61): while a DEVICE reset other than RESET_N or
POR runs with the last-resort timer expired, R507 would keep the pads in their safe states and R526 makes them high impedance: the model
takes high impedance. -/
def State.padDrive (s : State) (p : Nat) : Drive :=
  if s.boundaryOn then (if s.tap.instr = 5 then .hiz else safeDrive (s.tap.update.get 2 p))
  else if p = 209 then (if s.faultN then .low else .hiz)
  else if 208 ≤ p then .hiz
  else if !s.chip.latch.isEmpty then safeDrive (s.chip.latch.get 2 p)
  else if s.chip.held || s.image.isEmpty then .hiz
  else s.padRun p

/-! ### The TAP -/

/-- The level that the boundary register samples at pad `p`: what the pad drives, else what the board drives. -/
def State.padLevel (s : State) (board : BitVec 214) (p : Nat) : Nat :=
  match s.padDrive p with
  | .low => 0
  | .high => 1
  | .hiz => (board.getLsbD p).toNat

/-- The boundary register samples the pads and loads the update stage (0 low, 1 high, 2 high impedance). -/
def State.boundary (s : State) (board level drive : BitVec 214) : State :=
  let caught := (List.range 214).map fun p => (p, s.padLevel board p)
  let stage := (List.range 214).map fun p => (p, if drive.getLsbD p then (level.getLsbD p).toNat else 2)
  { s with tap := { s.tap with capture := caught, update := stage } }

/-- The TAP takes instruction `i`. The TAP lies on the logic die, which STANDBY and DORMANT power off. -/
def State.tapInstr (s : State) (i : Nat) : State := if s.chip.asleep = 0 then { s with tap := { s.tap with instr := i } } else s

/-- The identification register (Table 24.18). -/
def idcode : Word := BitVec.ofNat 32 (0x19420001 + Config.manufacturerId % 2048 * 2)

/-! ### PCIE_PERST_N (R555) -/

/-- PCIE_PERST_N takes a level. -/
def State.perst (s : State) (high : Bool) : State :=
  if s.chip.perstN = high then s
  else
    let s := { s with chip := { s.chip with perstN := high } }
    if s.dead then s
    else if high then s.each [90, 91] fun d t =>
      if t.on (R.CLK_Dd_CTRL_HOLD_RESET d) then t
      else (t.put (R.CLK_Dd_STATUS_IN_RESET d) 0).when (t.domHeld d || t.requested d) fun t => t.request d
    else
      let s := s.each [90, 91] fun d t => if t.domReset d then t else (t.put (R.CLK_Dd_STATUS_IN_RESET d) 1).domClear d
      (s.hotReset 0 true).hotReset 1 true

/-! ### Commands -/

/-- IDCODE (R565): the identification register shifts out. -/
def execIdcode (s : State) : Out := .next (if s.chip.asleep = 0 then { s.tapInstr 1 with resp := some idcode } else s)
/-- SAMPLE_PRELOAD (R565): `board` are the levels on the balls; `level` and `drive` are loaded. -/
def execSamplePreload (board level drive : BitVec 214) (s : State) : Out :=
  .next (if s.chip.asleep = 0 then (s.boundary board level drive).tapInstr 2 else s)
/-- EXTEST (R566). -/
def execExtest (board level drive : BitVec 214) (s : State) : Out :=
  .next (if s.chip.asleep != 0 then s else if s.chip.resetN then s.tapInstr 3 else (s.tapInstr 3).boundary board level drive)
/-- CLAMP_TAP (R566). -/
def execClampTap (s : State) : Out := .next (s.tapInstr 4)
/-- HIGHZ (R566). -/
def execHighz (s : State) : Out := .next (s.tapInstr 5)
/-- DAP_ACCESS (R565). -/
def execDapAccess (s : State) : Out := .next (s.tapInstr 0x20)
/-- BYPASS (R565): 0xFF and every code without an instruction. -/
def execBypass (code : Byte) (s : State) : Out :=
  .next (s.tapInstr (if [1, 2, 3, 4, 5, 0x20].contains code.toNat then 0xFF else code.toNat))
/-- TAP_RESET (R565). -/
def execTapReset (s : State) : Out := .next (s.tapInstr 1)
/-- PCIE_PERST_N (R555). -/
def execPciePerstN (high : Bool) (s : State) : Out := .next (s.perst high)
/-- ENTROPY_TEST_FAIL (R540). -/
def execEntropyTestFail (s : State) : Out := .next (if s.dead then s else s.put R.LCS_STATE_ENT_FAIL 1)

end Sys2Proof.Machine
end

