-- ==== Sys2Proof/Machine/Bus.lean ====
section
/-!
DEFINITION. The register bus (R7 to R12): a read or a write of any register by its address. A register with an effect of its own
has an entry in the tables of writers and readers below; every other register follows its access types (Table 0.6).
-/
namespace Sys2Proof.Machine

/-- A register access as its block sees it: requester, view and level, the indices of the register in its class, and its key. -/
structure Acc where
  q    : Requester
  view : Nat
  lvl  : Nat
  i    : Nat
  j    : Nat
  k    : Nat
  key  : Nat
  deriving DecidableEq, Repr

/-- What a write does. -/
abbrev Writer := Acc → Nat → State → State
/-- What a read gives, and does. -/
abbrev Reader := Acc → State → Word × State

/-- The index of offset `off` in dimension `d` of a class. -/
def dimIndex : Nat → List (Nat × Nat) → Nat → Nat
  | _, [], _ => 0
  | 0, (st, _) :: _, off => off / st
  | d + 1, (st, _) :: ds, off => dimIndex d ds (off % st)

/-- The access of requester `q` in `view` to the register with key `key` of class `c`. -/
def accOf (c : RegClass) (q : Requester) (view lvl key : Nat) : Acc :=
  let off := key % 2 ^ 32 - c.base
  ⟨q, view, lvl, dimIndex 0 c.dims off, dimIndex 1 c.dims off, dimIndex 2 c.dims off, key⟩

/-- The core of a core-private register. -/
def Acc.core (a : Acc) : Nat := a.key / 2 ^ 32
/-- The register. -/
def Acc.reg (a : Acc) : Reg := ⟨a.key, 0⟩

/-! ### Access types (R9, R10) -/

/-- Set or clear the bits of a mask in a word. -/
def maskPut (old v mask : Word) : Word := (old &&& ~~~mask) ||| (v &&& mask)

/-- A write of `v` by access types alone: RW bits take it, W1C bits that are written 1 clear unless hardware set them in the same cycle,
W1S bits set, RWS bits go to the shadow. -/
def typedWrite (c : RegClass) (key : Nat) (v : Word) (s : State) : State :=
  let r : Reg := ⟨key, c.rstAt key⟩
  let old := s.rd r
  let new := (maskPut old v (BitVec.ofNat 32 c.rw) &&& ~~~(v &&& BitVec.ofNat 32 c.w1c &&& ~~~(s.regs.hotAt r))) ||| (v &&& BitVec.ofNat 32 c.w1s)
  let s := if new = old then s else s.wr r new
  let rws := BitVec.ofNat 32 c.rws
  if rws = 0#32 then s else { s with shad := s.shad.wr r (maskPut (s.shad.rd r) v rws) }

/-- What a read gives by access types alone: shadows of RWS bits, 0 for WO bits. -/
def typedRead (c : RegClass) (key : Nat) (s : State) : Word :=
  let r : Reg := ⟨key, c.rstAt key⟩
  let rws := BitVec.ofNat 32 c.rws
  ((s.rd r &&& ~~~rws) ||| (s.shad.rd r &&& rws)) &&& ~~~(BitVec.ofNat 32 c.wo)

/-! ### Registers whose writes do more -/

/-- Writes to the registers of the structure, the converters and the comparators. -/
def writersA : List (Nat × Writer) :=
  [ (R.SCFG_FLOOR_CTRL.addr, fun _ v => floorCtrlWrite v),
    ((R.SCFG_RQn_CTRL 0).addr, fun a v => rqCtrlWrite a.i v),
    ((R.FCV_Gg_CAL_CTRL 0).addr, fun a v => calCtrlWrite a.i v),
    ((R.FCV_CHn_FIRE 0).addr, fun a v s => s.when (bit v 0) fun s => s.fcArm a.i true),
    ((R.FCV_CHn_COMMIT 0).addr, fun a v s => s.when (bit v 0) fun s => s.fcCommit a.i),
    ((R.FCV_CHn_DMA 0).addr, fun a v => fcvDmaWrite a.i v),
    ((R.CMP_Cc_CTRL 0).addr, fun a v => cmpCtrlWrite a.i v),
    ((R.CMP_Cc_THR 0).addr, fun a v => cmpThrWrite a.i v),
    ((R.CMP_Cc_TEST 0).addr, fun a v => cmpTestWrite a.i v),
    ((R.SCV_Ck_CTRL 0).addr, fun a v => scvCtrlWrite a.i v),
    ((R.SCV_CHn_CFG 0).addr, fun a v => scvCfgWrite a.i v),
    ((R.SCV_CHn_WIN_LO 0).addr, fun a v => winLimitWrite a.i false v),
    ((R.SCV_CHn_WIN_HI 0).addr, fun a v => winLimitWrite a.i true v) ]

/-- Writes to the registers of lanes, bindings and PWM units. -/
def writersB : List (Nat × Writer) :=
  [ ((R.LNC_Ln_CTRL 0).addr, fun a v => laneCtrlWrite a.i a.view v),
    ((R.LNC_Bb_CMD 0).addr, fun a v => bindingCmdWrite a.i v),
    (R.PWM_COMMIT_ALL.addr, fun a v => pwmCommitAll a.view v),
    ((R.PWM_Un_COMMIT 0).addr, fun a v s => s.when (bit v 0) fun s => s.pwmCommit a.i),
    ((R.PWM_Un_CMP 0).addr, fun a v => pwmCmpWrite a.i (BitVec.ofNat 32 v)),
    ((R.PWM_Un_FORCE 0).addr, fun a v => pwmForceWrite a.i v),
    ((R.PWM_Un_LATCH 0).addr, fun a v => pwmLatchWrite a.i v) ]

/-- Writes to the registers of links, arms and position interfaces. The force of a link follows its CFG (R176). -/
def writersC : List (Nat × Writer) :=
  [ ((R.FLK_Ln_CTRL 0).addr, fun a v => linkCtrlWrite a.i v),
    ((R.FLK_Ln_CFG 0).addr, fun a v => linkCfgWrite a.i v),
    ((R.FLK_Ln_FORCE 0).addr, fun a v => linkForceWrite a.i v),
    ((R.FLK_Ln_LATCH 0).addr, fun a v => linkLatchWrite a.i v),
    ((R.FLK_Ln_MGMT_CMD 0).addr, fun a v => mgmtCmdWrite a.i v),
    ((R.ABL_Ln_SWCMD 0).addr, fun a v => swcmdWrite a.i v),
    ((R.ABL_Aa_CTRL 0).addr, fun a v => ablCtrlWrite a.i v),
    ((R.ABL_Aa_EXCLk 0 0).addr, fun a v => exclWrite a.i a.j v),
    ((R.POS_Pn_CFG 0).addr, fun a v => posCfgWrite a.i v),
    ((R.POS_Pn_STATUS 0).addr, fun a v => posStatusWrite a.i v),
    ((R.POS_Pn_PRB_CTRL 0).addr, fun a v => prbWrite a.i v) ]

/-- The bits of a summary word whose line, channel or ring `f` the view owns. -/
def ownBits (view : Nat) (f : Nat → Nat) (base : Nat) : Nat :=
  if view = platform then 2 ^ 32 - 1
  else (List.range 32).foldl (fun m b => if f (base + b) == view then m + 2 ^ b else m) 0

/-- Do the session registers of the partition hold still: a command runs (R348)? -/
def State.sesFree (s : State) (p : Nat) : Bool := !s.on (R.SES_Pp_CSTAT_BUSY p)

/-- Writes to the registers of cores, the event matrix, feeder ports and sessions. -/
def writersD : List (Nat × Writer) :=
  [ (0xE0000080, fun a v => irqPendWrite a.core a.i a.lvl v true),
    (0xE00000A0, fun a v => irqPendWrite a.core a.i a.lvl v false),
    (0xE0001000, fun a v => irqCfgWrite a.core a.i a.lvl v),
    (0xE0000008, fun a v => nmiWrite a.core a.lvl v),
    ((R.EVM_PMERGEj 0).addr, fun a v s =>
      s.clr (R.EVM_PMERGEj a.i) (BitVec.ofNat 32 (v &&& ownBits a.view s.lineOwner (32 * a.i)))),
    ((R.EVM_Cc_FIRE 0).addr, fun a v => evmFireWrite a.i v),
    ((R.FSE_Pn_CTRL 0).addr, fun a v => fseCtrlWrite a.i v),
    ((R.FSE_Pn_TXRING 0).addr, fun a v => txringWrite a.i v),
    ((R.FSE_Pn_LOOP 0).addr, fun a v => fseLoopWrite a.i v),
    ((R.SES_Pp_CMD 0).addr, fun a v => sesCmdWrite a.i v),
    ((R.SES_Pp_RXPTR 0).addr, fun a v => sesPtrWrite a.i v),
    ((R.SES_Pp_RXCFG 0).addr, fun a v => sesCfgWrite a.i v),
    ((R.SES_Pp_KEYk_Wj 0 0 0).addr, fun a v => sesKeyWrite a.i a.j a.k (BitVec.ofNat 32 v)),
    ((R.SES_Pp_KEYk_TXFC 0 0).addr, fun a v => txfcWriteReg a.i a.j v) ]

/-- A register of a ring that does not exist ignores writes (spec/16). -/
def ringWrite (r : Nat → Nat → Reg) (mask : Nat) : Writer := fun a v s =>
  if s.ethRing a.i a.j then s.wr (r a.i a.j) (BitVec.ofNat 32 (v &&& mask)) else s

/-- Writes to the registers of the Ethernet ports and PCIe functions. -/
def writersE : List (Nat × Writer) :=
  [ (R.ETH_PTP_OFS_HI.addr, fun _ v => ptpOfsWrite v),
    (R.ETH_PTP_SEC_HI.addr, fun _ v => ptpSecWrite v),
    ((R.ETH_Pp_GCL_CTRL 0).addr, fun a v => gclCtrlWrite a.i v),
    ((R.ETH_Pp_GCL_BASE_LO 0).addr, fun a v => gclAdminWrite a.i (R.ETH_Pp_GCL_BASE_LO a.i) v),
    ((R.ETH_Pp_GCL_BASE_HI 0).addr, fun a v => gclAdminWrite a.i (R.ETH_Pp_GCL_BASE_HI a.i) v),
    ((R.ETH_Pp_GCLk 0 0).addr, fun a v => gclAdminWrite a.i (R.ETH_Pp_GCLk a.i a.j) v),
    ((R.ETH_Pp_Rr_TXPTR 0 0).addr, fun a v => ethPtrWrite a.i a.j false v),
    ((R.ETH_Pp_Rr_RXPTR 0 0).addr, fun a v => ethPtrWrite a.i a.j true v),
    ((R.ETH_Pp_Rr_TXBASE 0 0).addr, ringWrite R.ETH_Pp_Rr_TXBASE 0xFFFFFFF0),
    ((R.ETH_Pp_Rr_RXBASE 0 0).addr, ringWrite R.ETH_Pp_Rr_RXBASE 0xFFFFFFF0),
    ((R.ETH_Pp_Rr_SIZE 0 0).addr, ringWrite R.ETH_Pp_Rr_SIZE 0xFFF0FFF),
    ((R.ETH_Pp_Rr_MAC_LO 0 0).addr, ringWrite R.ETH_Pp_Rr_MAC_LO 0xFFFFFFFF),
    ((R.ETH_Pp_Rr_CTRL 0 0).addr, fun a v s => (ringWrite R.ETH_Pp_Rr_CTRL 0xFF07FFFF a v s).settleRing a.i a.j),
    ((R.PCIE_Fn_VREQ_LO 0).addr, fun a v => vreqWrite a.i false v),
    ((R.PCIE_Fn_VREQ_HI 0).addr, fun a v => vreqWrite a.i true v) ]

/-- Writes to the registers of partitions, locks, memory, DMA and arbiters. The write of HOGGED clears the arbiter's bit of
ARB_HOGSUM too; an absent requester ignores writes. -/
def writersF : List (Nat × Writer) :=
  [ ((R.PART_Pn_SELF 0).addr, fun a v => partSelfWrite a.i v a.q a.lvl),
    ((R.PART_Pn_RSTCTRL 0).addr, fun a v => rstctrlWrite a.i v),
    ((R.PART_LOCKk_CTRL 0).addr, fun a v => lockCtrlWrite a.q a.i v),
    (R.MEMC_INJ_CTRL.addr, fun _ v => injWrite v),
    ((R.DMA_Cn_CTRL 0).addr, fun a v => dmaCtrlWrite a.i v),
    ((R.DMA_Cn_HEAD 0).addr, fun a v => dmaHeadWrite a.i v),
    ((R.DMA_Cn_REQ 0).addr, fun a v => dmaReqWrite a.i v),
    (R.ARB_COMMIT_LO.addr, fun _ v => arbCommitMulti false v),
    (R.ARB_COMMIT_HI.addr, fun _ v => arbCommitMulti true v),
    ((R.ARB_Aa_COMMIT 0).addr, fun a v => arbCommitWrite a.i v),
    ((R.ARB_Aa_REQr 0 0).addr, fun a v s =>
      if s.arbPresent a.i a.j then { s with shad := s.shad.wr (R.ARB_Aa_REQr a.i a.j) (BitVec.ofNat 32 (v &&& 0x7FF)) } else s),
    ((R.ARB_Aa_STATUS 0).addr, fun a v s => s.when (bit v 31) fun s =>
      let s := s.clr (R.ARB_Aa_STATUS a.i) 0x80000000#32
      if s.on (R.ARB_Aa_STATUS_HOGGED a.i) then s
      else if a.i < 32 then s.putBit R.ARB_HOGSUM_LO_HOGGED a.i false else s.putBit R.ARB_HOGSUM_HI_HOGGED (a.i - 32) false) ]

/-- Writes to the registers of clocks, power and supervision. A latched warning stays while the warning is live (R10). -/
def writersG : List (Nat × Writer) :=
  [ (R.CLK_SRC_FAIL.addr, fun _ v => srcFailWrite v),
    (R.CLK_PLL_CTRL.addr, fun _ v => pllCtrlWrite v),
    ((R.CLK_Dd_CTRL 0).addr, fun a v => clkCtrlWrite a.i v),
    (R.PWR_CTRL.addr, fun _ v => pwrCtrlWrite v),
    (R.PWR_SUP_LATCH.addr, fun _ v s => let s := s.clr R.PWR_SUP_LATCH (BitVec.ofNat 32 (v &&& 0xFF7F))
      s.wr R.PWR_SUP_LATCH (s.rd R.PWR_SUP_LATCH ||| s.rd R.PWR_SUP_LIVE)),
    (R.PWR_RTC_LO.addr, fun _ v => rtcLoWrite v),
    (R.PWR_RTC_HI.addr, fun _ v => rtcHiWrite v),
    (R.SUP_FORCE_PWM.addr, fun _ v => supForceWrite false (BitVec.ofNat 32 v)),
    (R.SUP_FORCE_LINK.addr, fun _ v => supForceWrite true (BitVec.ofNat 32 v)),
    (R.SUP_FAULTOUT.addr, fun _ v => supFaultoutWrite v),
    (R.SUP_WDT.addr, fun _ v => wdtWrite v),
    (R.SUP_KICK.addr, fun _ v => kickWrite v),
    (R.SUP_REC_CTRL.addr, fun _ v => recCtrlWrite v) ]

/-- A register that holds what is written until its block uses it, though it reads 0. -/
def holdWrite : Writer := fun a v s => s.wr a.reg (BitVec.ofNat 32 v)

/-- A debug register of a core answers the debug access port alone (R509). -/
def dbgWrite (f : Writer) : Writer := fun a v s => if a.q = .dap ∧ dbgExists a.i = true then f a v s else s

/-- Writes to the registers of debug, reset and the life cycle. The fuse write of LCS_CTRL succeeds or fails freely (R541). -/
def writersH : List (Nat × Writer) :=
  [ (R.DBG_AUTH_CTRL.addr, fun _ v => authCtrlWrite v),
    ((R.DBG_AUTH_KEYj 0).addr, holdWrite),
    ((R.DBG_AUTH_SIGj 0).addr, holdWrite),
    ((R.DBG_Cc_CTRL 0).addr, fun a v => dbgCtrlWrite a.q a.i v),
    ((R.DBG_Cc_STATUS 0).addr, dbgWrite fun a v s => s.clr (R.DBG_Cc_STATUS a.i) (BitVec.ofNat 32 (v &&& 0x100))),
    ((R.DBG_Cc_REGSEL 0).addr, dbgWrite fun a v s => s.put (R.DBG_Cc_REGSEL_REG a.i) v),
    ((R.DBG_Cc_DATA 0).addr, dbgWrite fun a v s => s.dbgDataWrite a.i (BitVec.ofNat 32 v)),
    ((R.DBG_Cc_BPk 0 0).addr, dbgWrite fun a v s => s.wr (R.DBG_Cc_BPk a.i a.j) (BitVec.ofNat 32 v)),
    (R.RST_CTRL.addr, fun a v => rstCtrlWrite a.q v),
    (R.LCS_CTRL.addr, fun _ v s => let (f, s) := s.fresh; lcsCtrlWrite v (f % 2 == 1) s),
    ((R.LCS_PROV_HASHj 0).addr, holdWrite) ]

/-- The controller of a service port from the address of one of its registers. -/
def Acc.ser (a : Acc) : Nat := (a.key - 0x403E0000) / 0x1000

/-- Writes to the registers of the service ports. -/
def writersI : List (Nat × Writer) :=
  [ (0x403E000C, fun a v => serClear a.ser v 0xC0),
    (0x403E2004, fun a v => serDataWrite a.ser v),
    (0x403E2008, fun a v => serClear a.ser v 0x1E),
    (0x403E6004, fun a v => serDataWrite a.ser v),
    (0x403E6008, fun a v => serClear a.ser v 0x6),
    (0x403EA004, fun a v => i2cCmdWrite a.ser v),
    (0x403EA008, fun a v => serDataWrite a.ser v),
    (0x403EA00C, fun a v => serClear a.ser v 0x1E),
    (0x403EC000, fun a v => gpioEvWrite a.view a.i false v),
    (0x403EC040, fun a v => gpioEvWrite a.view a.i true v) ]

/-- Every register whose write does more than its access types say, by the base of its class. -/
def writers : List (Nat × Writer) :=
  writersA ++ writersB ++ writersC ++ writersD ++ writersE ++ writersF ++ writersG ++ writersH ++ writersI

/-- Does a write to session register class `c` of partition `p` fall in a running command's window (R348)? -/
def sesWindow (c : RegClass) : Bool := (R.SES_Pp_CMD 0).addr ≤ c.base && c.base ≤ (R.SES_Pp_DATAi 0 0).addr && c.base != (R.SES_Pp_CSTAT 0).addr

/-- The SINCOS registers, which PF8 to PF15 reserve (spec/09). -/
def sincosRegs : List Nat := [(R.POS_Pn_SC 0).addr, (R.POS_Pn_AMP 0).addr, (R.POS_Pn_SCOFS 0).addr, (R.POS_Pn_RAW 0).addr]

/-- Is a register of class `c` with index `n` one of a feeder port that the image does not use (R324), or reserved? It reads 0 and takes no
write (R12). -/
def State.unusedPort (s : State) (c : RegClass) (n : Nat) : Bool :=
  (c.base / 0x1000 == 0x40301 && !s.portUsed n) || (sincosRegs.contains c.base && decide (8 ≤ n))

/-- A write of `v` to the register with key `key` by requester `q` at level `lvl` in `view`. An address of a listed page
without a register ignores it. -/
def State.busWrite (s : State) (q : Requester) (view lvl key : Nat) (v : Word) : State :=
  match regClassOf key with
  | none => s
  | some c =>
    let a := accOf c q view lvl key
    if (sesWindow c && !s.sesFree a.i) || s.unusedPort c a.i then s
    else match writers.find? fun e => e.1 == c.base with
      | some e => e.2 a v.toNat s
      | none => typedWrite c key v s

/-! ### Registers whose reads do or show more -/

/-- Bits 0 to 31 where `f` holds. -/
def bitsWhere (f : Nat → Bool) : Nat := (List.range 32).foldl (fun m b => if f b then m + 2 ^ b else m) 0
/-- A word that shows a number and changes nothing. -/
def shows (f : Acc → State → Nat) : Reader := fun a s => (BitVec.ofNat 32 (f a s), s)
/-- A stored word with some bits shown from elsewhere: `f` gives their value, `mask` says which. -/
def overlay (mask : Nat) (f : Acc → State → Nat) : Reader := fun a s => (maskPut (s.rd a.reg) (BitVec.ofNat 32 (f a s)) (BitVec.ofNat 32 mask), s)
/-- Capture an instant into a pair of registers. -/
def State.captureTime (s : State) (lo hi : Reg) (t : Time) : State := s.putTime lo hi t

/-- Reads of the structure, the converters, PWM units, links and position interfaces. -/
def readersA : List (Nat × Reader) :=
  [ ((R.SCFG_DIGk 0).addr, shows fun a s =>
      match (segs s.image)[s.get R.SCFG_DIG_SEL_SEG]? with
      | some g => fld s.image (g.entry + 16 + 4 * a.i) 4
      | none => 0),
    ((R.FCV_CHn_LAST 0).addr, fun a s => (s.rd (R.FCV_CHn_LAST a.i),
      s.captureTime (R.FCV_CHn_LAST_TIME_LO a.i) (R.FCV_CHn_LAST_TIME_HI a.i) (s.fch a.i).lastTime)),
    ((R.SCV_Ck_STATUS 0).addr, overlay 1 fun a s => (s.running (28 + a.i)).toNat),
    ((R.SCV_WIN_LIVEj 0).addr, shows fun a s => s.winLive a.i),
    ((R.PWM_Gg_STATUS 0).addr, overlay 9 fun a s => (s.running (41 + a.i)).toNat + 8 * (s.forcing (41 + a.i) || s.forcing 45).toNat),
    ((R.PWM_Un_NEXT_LO 0).addr, fun a s =>
      let t := (s.unit a.i).next
      (BitVec.ofNat 32 t.toNat, s.wr (R.PWM_Un_NEXT_HI a.i) (BitVec.ofNat 32 (t.toNat / 2 ^ 32)))),
    (R.FLK_QUAD_STATUS.addr, shows fun _ s =>
      (List.range 8).foldl (fun m q => m + (s.srcRuns (16 + q)).toNat * 2 ^ q + (s.running (78 + q)).toNat * 2 ^ (8 + q)) 0),
    (R.ABL_LEAD_SHORT.addr, fun a s => (s.rd R.ABL_LEAD_SHORT &&& BitVec.ofNat 32 (ownBits a.view (s.owner 5) 0), s)),
    ((R.ABL_Aa_STATUS 0).addr, overlay 16 fun a s => 16 * (s.nominal a.i).toNat),
    ((R.POS_Pn_POS 0).addr, fun a s =>
      let v := s.posView a.i
      let s := s.captureTime (R.POS_Pn_TIME_LO a.i) (R.POS_Pn_TIME_HI a.i) v.time
      (BitVec.ofNat 32 v.value, (s.wr (R.POS_Pn_SPEED a.i) (BitVec.ofNat 32 (unsigned 32 v.speed))).wr (R.POS_Pn_INFO a.i) (BitVec.ofNat 32 v.info))) ]

/-- Reads of the event matrix, feeder ports and the network ports. Carrier sense finds what is on the line (R333), free here. -/
def readersB : List (Nat × Reader) :=
  [ (0xE000000C, shows fun a s => s.irqTop a.core),
    (0xE00000A0, fun a s => (s.rd (R.CPS_IRQ_SETj a.core a.i), s)),
    ((R.EVM_LOOPSUMj 0).addr, shows fun a s => bitsWhere (fun b => s.on (R.EVM_Cc_STATUS_LOOP (32 * a.i + b))) &&& ownBits a.view (s.owner 8) (32 * a.i)),
    ((R.EVM_OVRSUMj 0).addr, shows fun a s => bitsWhere (fun b => s.on (R.EVM_Cc_STATUS_OVERRUN (32 * a.i + b))) &&& ownBits a.view (s.owner 8) (32 * a.i)),
    ((R.EVM_PMERGEj 0).addr, fun a s => (s.rd (R.EVM_PMERGEj a.i) &&& BitVec.ofNat 32 (ownBits a.view s.lineOwner (32 * a.i)), s)),
    ((R.FSE_Pn_STATUS 0).addr, fun a s =>
      let (f, s) := s.fresh
      (fieldPut (s.rd (R.FSE_Pn_STATUS a.i)) 10 1 (if s.portRuns a.i then f else 0), s)),
    (R.ETH_TIME_LO.addr, fun _ s => (BitVec.ofNat 32 s.now.toNat, s.wr R.ETH_TIME_HI (BitVec.ofNat 32 (s.now.toNat / 2 ^ 32)))),
    ((R.ETH_Pp_RXSUM 0).addr, fun a s =>
      (s.rd (R.ETH_Pp_RXSUM a.i) &&& BitVec.ofNat 32 (if a.view = platform then 0x1FF else if a.view < 8 then 2 ^ a.view else 0), s)),
    (R.PCIE_IDENT.addr, shows fun _ _ => 0x94200000 + Config.pcieVendorId % 65536) ]

/-- Reads of partitions, locks, memory, DMA, clocks, power and supervision. -/
def readersC : List (Nat × Reader) :=
  [ ((R.PART_Pn_SELFSTAT 0).addr, fun a s => (s.rd (R.PART_Pn_STATE a.i), s)),
    ((R.PART_LOCKk_ACQ 0).addr, fun a s => s.lockAcquire a.q a.i),
    ((R.PART_LOCKk_STAT 0).addr, overlay 0xFFFF fun a s => s.leaseLeft a.i),
    (R.DMA_RUNNING.addr, shows fun a s => bitsWhere (fun b => 1 ≤ s.dmaState b && s.dmaState b ≤ 3) &&& ownBits a.view s.dmaOwner 0),
    ((R.CLK_RUNj 0).addr, shows fun a s => bitsWhere fun b => 32 * a.i + b < 104 && s.gateOpen (32 * a.i + b)),
    ((R.CLK_HELDj 0).addr, shows fun a s => bitsWhere fun b => 32 * a.i + b < 104 && s.domHeld (32 * a.i + b)),
    ((R.CLK_FORCEj 0).addr, shows fun a s => bitsWhere fun b => 32 * a.i + b < 104 && s.forcing (32 * a.i + b)),
    (R.PWR_RTC_LO.addr, fun _ s => s.rtcLoRead),
    (R.SUP_FAULT.addr, overlay 0x700 fun _ s =>
      256 * s.get R.MEMC_ERR_INFO_VALID + 512 * (s.rd R.ARB_HOGSUM_LO != 0#32 || s.rd R.ARB_HOGSUM_HI != 0#32).toNat
        + 1024 * ((s.rd R.SUP_CMPTEST).toNat % 2 ^ 6 != 0).toNat) ]

/-- A debug register of a core shows nothing to other requesters (R509). -/
def dbgShow (f : Acc → State → Nat) : Reader := fun a s => (if a.q = .dap ∧ dbgExists a.i = true then BitVec.ofNat 32 (f a s) else 0#32, s)

/-- STATE of a core for debug: halted, stopped, or running. A lane that its reset holds is stopped. -/
def State.dbgState (s : State) (c : Nat) : Nat :=
  if s.debugHalted c then 1
  else if c < 16 then (if (s.cpuAt c).started then 0 else 2)
  else if s.ownerInReset (s.owner 1 (c - 16)) then 2 else 0

/-- Reads of debug. -/
def readersD : List (Nat × Reader) :=
  [ (R.DBG_OPEN.addr, shows fun _ s => bitsWhere (fun p => p < 8 && s.scopeOpen p) + 256 * (s.scopeOpen platform).toNat + 512 * (s.fuses.lcs == 5).toNat),
    ((R.DBG_Cc_CTRL 0).addr, dbgShow fun a s => 8 * s.get (R.DBG_Cc_CTRL_HALT_ON_BRK a.i)),
    ((R.DBG_Cc_STATUS 0).addr, dbgShow fun a s =>
      s.get (R.DBG_Cc_STATUS_REFUSED a.i) * 256 + s.get (R.DBG_Cc_STATUS_CAUSE a.i) * 16 + 8 * (s.coreScope a.i).toNat + s.dbgState a.i),
    ((R.DBG_Cc_REGSEL 0).addr, dbgShow fun a s => s.get (R.DBG_Cc_REGSEL_REG a.i)),
    ((R.DBG_Cc_DATA 0).addr, dbgShow fun a s => (s.dbgDataRead a.i).toNat),
    ((R.DBG_Cc_BPk 0 0).addr, dbgShow fun a s => (s.rd (R.DBG_Cc_BPk a.i a.j)).toNat) ]

/-- An entry of a pin that the view does not own reads 0 (R383). -/
def gpioShow : Reader := fun a s => (if a.view = platform || s.owner 13 ((s.rd a.reg).toNat % 128) == a.view then s.rd a.reg else 0#32, s)

/-- Reads of the service ports. -/
def readersE : List (Nat × Reader) :=
  [ (0x403E2004, fun a s => s.serDataRead a.ser),
    (0x403E6004, fun a s => s.serDataRead a.ser),
    (0x403EA008, fun a s => s.serDataRead a.ser),
    (0x403EC000, gpioShow),
    (0x403EC040, gpioShow) ]

/-- Every register whose read does or shows more than the stored word, by the base of its class. -/
def readers : List (Nat × Reader) := readersA ++ readersB ++ readersC ++ readersD ++ readersE

/-- A read of the register with key `key` by requester `q` in `view`. An address of a listed page without a register reads 0. -/
def State.busRead (s : State) (q : Requester) (view key : Nat) : Word × State :=
  match regClassOf key with
  | none => (0#32, s)
  | some c =>
    let a := accOf c q view 0 key
    match readers.find? fun e => e.1 == c.base with
    | some e => if s.unusedPort c a.i then (0#32, s) else e.2 a s
    | none =>
      if s.unusedPort c a.i then (0#32, s)
      else if 0x40381400 ≤ c.base && c.base ≤ 0x40381418 && !s.ethRing a.i a.j then (0#32, s)
      else if c.base == (R.ARB_Aa_REQr 0 0).addr && !s.arbPresent a.i a.j then (0#32, s)
      else (typedRead c key s, s)

/-! ### Memory and registers by address -/

/-- The key of the register at address `a` for requester `q`: core-private space is its core's own (R291). -/
def busKey (q : Requester) (a : Nat) : Nat :=
  match q, regionOf a with
  | .core c, some .priv => a + 2 ^ 32 * c.val
  | _, _ => a

/-- Is the address a register, in a peripheral page or core-private space? -/
def isReg (a : Nat) : Bool := match regionOf a with | some .per | some .priv => true | _ => false

/-- A load of `n` bytes at `a` that its requester's view allows: the bytes, or none where the memory reports an uncorrectable
error (R406), through the arbiter of the memory with the rival requests it meets. -/
def State.load (s : State) (w : Who) (a n : Nat) (rivals : List Nat) : Option (List Byte) × State :=
  let s := s.arbitrate a w.req.arbNo rivals
  if isReg a then
    let (v, s) := s.busRead w.req w.view (busKey w.req a)
    (some (leBytes 4 v.toNat), s)
  else s.memRead w a n

/-- A store of bytes at `a` that its requester's view allows; false where the memory reports an error. -/
def State.store (s : State) (w : Who) (lvl a : Nat) (bs : List Byte) (rivals : List Nat) : Bool × State :=
  let s := s.arbitrate a w.req.arbNo rivals
  if isReg a then (true, s.busWrite w.req w.view lvl (busKey w.req a) (BitVec.ofNat 32 (leNat bs)))
  else s.memWrite w a bs

/-! ### Commands -/

/-- REGISTER_WRITE (R9 to R11): a write to any register. -/
def execRegisterWrite (q : Requester) (a : BitVec 32) (v : Word) (s : State) : Out :=
  let key := busKey q a.toNat
  .next (if s.dead || (q == .dap && !s.dapLinked) then s
    else if !isReg a.toNat then s
    else if s.reach q (s.viewOf q) (s.atU q) .write a.toNat 4 then s.busWrite q (s.viewOf q) (s.reqLvl q) key v
    else s.refuse q (s.viewOf q) .write a.toNat 4 (s.atU q))

/-- The device address that offset `o` of BAR `bar` reaches (Table 16.3); none inside the MSI-X table and pending bits. -/
def barAddr (bar o : Nat) : Option Nat :=
  match bar with
  | 0 => if o < 0x2000000 then some (0x10000000 + o) else none
  | 2 => if o < 0x1000000 && !(0xFF0000 ≤ o && o < 0xFF0400) && !(0xFF1000 ≤ o && o < 0xFF1008) then some (0x40000000 + o) else none
  | 4 => if o < 0x200000 then some (0x30000000 + o) else none
  | _ => none

/-- A host access through a BAR is refused (R378). -/
def State.barRefuse (s : State) (f : Fin 8) (view a n : Nat) (w : Bool) : State :=
  ((s.refuse (.pcie f) view (if w then .write else .read) a n).put (R.PCIE_Fn_STATUS_REFUSED f) 1).put (R.PCIE_Fn_REFADDR_ADDR f) a

/-- The payload of a write enters the buffer of function `f` (Table 1.5, Table 18.3). -/
def State.barEnter (s : State) (f a : Nat) (bs : List Byte) : State := let x := s.fn f; s.setFn f { x with buf := x.buf ++ [(a, bs)] }
/-- The oldest payload in the buffer of function `f` moves to its device address. -/
def State.barMove (s : State) (f : Fin 8) (view : Nat) (rivals : List Nat) : State :=
  let x := s.fn f
  match x.buf with
  | [] => s
  | e :: es => ((s.setFn f { x with buf := es }).store ⟨.pcie f, view⟩ 2 e.1 e.2 rivals).2

/-- A host access of function `f` through a BAR (R377, R378, R380): the MSI-X table and pending bits of BAR2, or an access in
the view of the function's owner. `resp` shows the first word of a read, none for Completer Abort. -/
def State.barAccess (s : State) (f : Fin 8) (bar o n : Nat) (w : Option (List Byte)) (rivals : List Nat) : State :=
  let view := s.fnOwner f
  if s.dead || !s.on (R.PCIE_Fn_STATUS_PRESENT f) || !s.on (R.PCIE_Fn_STATUS_MEM_EN f) then s
  else if view == platform && bar != 0 then s
  else if bar == 2 && 0xFF0000 ≤ o && o < 0xFF0400 then
    let x := s.fn f
    let i := (o - 0xFF0000) / 4
    match w with
    | some bs => s.setFn f { x with table := (List.range (bs.length / 4)).foldl (fun t j => t.set (i + j) (BitVec.ofNat 32 (leNat ((bs.drop (4 * j)).take 4)))) x.table }
    | none => { s with resp := some (x.word i) }
  else if bar == 2 && 0xFF1000 ≤ o && o < 0xFF1008 then
    if w.isNone then { s with resp := some (BitVec.ofNat 32 ((s.fn f).pend / 2 ^ (8 * (o - 0xFF1000)))) } else s
  else match barAddr bar o with
    | none => s
    | some a =>
      let k : Access := if w.isSome then .write else .read
      if s.ownerInReset view || !s.reach (.pcie f) view false k a n then { s.barRefuse f view a n w.isSome with resp := none }
      else match w with
        | some bs => (s.barEnter f a bs).barMove f view rivals
        | none =>
          let s := s.arbitrate a (Requester.pcie f).arbNo rivals
          if isReg a then
            let (v, s) := s.busRead (.pcie f) view a
            { s with resp := some v }
          else
            let (d, s) := s.memEgress ⟨.pcie f, view⟩ a n
            { s with resp := d.map fun bs => BitVec.ofNat 32 (leNat bs) }

/-- PCIE_BAR_ACCESS (R378). -/
def execPcieBarAccess (f : Fin 8) (bar : Fin 6) (o : BitVec 25) (n : Nat) (w : Option (List Byte)) (rivals : List (Fin 18)) (s : State) : Out :=
  .next (s.barAccess f bar o.toNat n w (rivals.map (·.val)))

/-- An access of the debug access port (R509). -/
def State.dapAccess (s : State) (a n : Nat) (w : Option (List Byte)) (rivals : List Nat) : State :=
  let view := s.viewOf .dap
  let k : Access := if w.isSome then .write else .read
  if s.dead || !s.dapLinked then s
  else if !s.reach .dap view false k a n then { s.refuse .dap view k a n with resp := none }
  else match w with
    | some bs => (s.store ⟨.dap, view⟩ 2 a bs rivals).2
    | none =>
      let (d, s) := s.load ⟨.dap, view⟩ a n rivals
      { s with resp := d.map fun bs => BitVec.ofNat 32 (leNat bs) }

/-- DEBUG_ACCESS_PORT_ACCESS (R509). -/
def execDebugAccessPortAccess (a : BitVec 32) (n : Nat) (w : Option (List Byte)) (rivals : List (Fin 18)) (s : State) : Out :=
  .next (s.dapAccess a.toNat n w (rivals.map (·.val)))

end Sys2Proof.Machine
end

