-- ==== Sys2Proof/Machine/Dma.lean ====
section
/-!
DEFINITION. DMA channels at work (spec/18, R416 to R421): fetching and checking descriptors, bursts in the order of the engine's
rounds, failures and completion.
-/
namespace Sys2Proof.Machine

/-- Who a channel is at its memories (R415). -/
def State.dmaWho (s : State) (n : Fin 32) : Who := ⟨.dma n, s.dmaOwner n⟩
/-- Does the engine run? -/
def State.dmaRuns (s : State) : Bool := s.running 23 && !s.domReset 23 && !s.dead
/-- The PCIe function of an owner, if it has one that is present (R376). -/
def State.ownerFn (s : State) (o : Nat) : Option Nat :=
  (List.range 8).find? fun f => s.on (R.PCIE_Fn_STATUS_PRESENT f) && s.fnOwner f == o

/-! ### Descriptors (Table 18.5, Table 18.6) -/

/-- The spaces of a descriptor: 0 device, 1 host, 2 stream. -/
def Desc.srcSpace (d : Desc) : Nat := bitsOf d.ctl 0 2
/-- The destination's space. -/
def Desc.dstSpace (d : Desc) : Nat := bitsOf d.ctl 2 2
/-- SRC_FIXED. -/
def Desc.srcFixed (d : Desc) : Bool := bit d.ctl 4
/-- DST_FIXED. -/
def Desc.dstFixed (d : Desc) : Bool := bit d.ctl 5
/-- Bytes of a stream entry (Table 18.7). -/
def Desc.entrySize (d : Desc) : Nat := if d.srcLo < 0x18 then 64 else 384

/-- A descriptor from its 32 bytes. -/
def Desc.ofBytes (b : List Byte) : Desc :=
  ⟨fld b 0 4, fld b 4 4, fld b 8 4, fld b 12 4, fld b 16 4, fld b 20 4, fld b 24 4⟩

/-- Do the bytes [a, a + n) touch the peripheral region? -/
def touchesPer (a n : Nat) : Bool := decide (a < 0x404D0000) && decide (0x40000000 < a + n)

/-- Is a side (space, address, FIXED) of the form that R417 asks? -/
def sideOk (space a : Nat) (fixed : Bool) (len : Nat) : Bool :=
  !(fixed || (space == 0 && touchesPer a len)) || (a % 4 == 0 && len % 4 == 0)

/-- Is a fetched descriptor good (R417 to R419)? `fn` says whether the owner has a PCIe function. -/
def Desc.ok (d : Desc) (fn : Bool) : Bool :=
  d.ctl < 2 ^ 15 && 1 ≤ d.len && d.len ≤ 65536 && d.srcSpace != 3 && d.dstSpace < 2 && d.next % 32 == 0 &&
  (d.srcSpace == 1 || d.srcHi == 0) && (d.dstSpace == 1 || d.dstHi == 0) &&
  (d.srcSpace == 2 || sideOk d.srcSpace d.srcLo d.srcFixed d.len) && sideOk d.dstSpace d.dstLo d.dstFixed d.len &&
  (d.srcSpace != 2 || ((d.srcLo < 0x18 || (0x20 ≤ d.srcLo && d.srcLo < 0x40)) && d.len % d.entrySize == 0)) &&
  (!bit d.ctl 8 || fn)

/-- The owner of a stream (R418). -/
def State.streamOwner (s : State) (x : Nat) : Nat := if x < 0x18 then s.owner 2 x else s.owner 5 (x - 0x20)

/-- The channel writes the STATUS word of its descriptor. -/
def State.dmaStatus (s : State) (n : Fin 32) (code bytes : Nat) : State :=
  (s.memWrite (s.dmaWho n) (s.get (R.DMA_Cn_CUR_ADDR n) + 28) (leBytes 4 (code + 256 * bytes))).2

/-- A descriptor fails (R420). -/
def State.dmaFail (s : State) (n : Fin 32) (code addr : Nat) : State :=
  let x := s.dmaCh n
  let s := (s.put (R.DMA_Cn_STATUS_CODE n) code).put (R.DMA_Cn_ERRADDR_ADDR n) addr
  let s := s.when (code != 1) fun s => s.dmaStatus n code x.moved
  let s := s.setDma n { x with desc := none, fetch := false, stop := false }
  (s.put (R.DMA_Cn_STATUS_STATE n) 5).emit (652 + n) x.hop

/-- The channel fetches the descriptor at CUR, checks it, and waits or starts (R419). -/
def State.dmaFetch (s : State) (n : Fin 32) (rivals : List Nat) : State :=
  let x := s.dmaCh n
  let cur := s.get (R.DMA_Cn_CUR_ADDR n)
  let o := s.dmaOwner n
  let s := s.setDma n { x with fetch := false, desc := none, moved := 0, hop := none }
  let sram := match regionOf cur with | some (.sram _) => true | _ => false
  if cur % 32 != 0 then s.dmaFail n 1 cur
  else if !s.reach (.dma n) o false .read cur 32 then (s.refuse (.dma n) o .read cur 32).dmaFail n 1 cur
  else if !sram then s.dmaFail n 1 cur
  else
    let (b, s) := (s.arbitrate cur (some 9) rivals).memEgress (s.dmaWho n) cur 32
    match b with
    | none => s.dmaFail n 1 cur
    | some b =>
      let d := Desc.ofBytes b
      let s := s.put (R.DMA_Cn_DONE_BYTES n) 0
      if !d.ok (s.ownerFn o).isSome then s.dmaFail n 2 cur
      else if d.stream && s.streamOwner d.srcLo != o then s.dmaFail n 3 d.srcLo
      else (s.setDma n { s.dmaCh n with desc := some d }).dmaWaits n d

/-! ### Bursts (R421) -/

/-- Addresses of the next burst: source, destination and bytes. -/
def Desc.burst (d : Desc) (moved : Nat) : Nat × Nat × Nat :=
  let src := if d.srcFixed then d.srcLo else d.srcLo + moved
  let dst := if d.dstFixed then d.dstLo else d.dstLo + moved
  (src, dst, if d.srcFixed || d.dstFixed then 4 else min (64 - dst % 64) (d.len - moved))

/-- Has channel `n` a burst that may issue now? One whose source lies in a flash array that is held back has not (R444). -/
def State.dmaReady (s : State) (n : Nat) : Bool :=
  s.dmaState n == 1 &&
  match (s.dmaCh n).desc with
  | some d => decide ((s.dmaCh n).moved < d.len) && !(d.srcSpace == 0 && s.flashHeld (d.burst (s.dmaCh n).moved).1)
  | none => false

/-- PRIO of a channel. -/
def State.dmaPrio (s : State) (n : Nat) : Nat := s.get (R.DMA_Cn_CFG_PRIO n)

/-- A new round: ready channels by PRIO, highest first, then by number, with their bursts. -/
def State.dmaNewRound (s : State) : List (Nat × Nat) :=
  let ready := (List.range 32).filter fun n => s.dmaReady n
  ([3, 2, 1, 0].map fun p => (ready.filter fun n => s.dmaPrio n == p).map fun n => (n, 2 ^ p)).flatten

/-- The round from its first channel with a burst left that may issue. -/
def State.dmaSkip (s : State) : List (Nat × Nat) → List (Nat × Nat)
  | [] => []
  | e :: es => if e.2 != 0 && s.dmaReady e.1 then e :: es else s.dmaSkip es

/-- The channel that issues a burst now, and the round that remains. -/
def State.dmaNext (s : State) : Option (Nat × List (Nat × Nat)) :=
  let r := match s.dmaSkip s.dmaRound with | [] => s.dmaNewRound | r => r
  match r with
  | [] => none
  | (n, k) :: es => some (n, (n, k - 1) :: es)

/-- Read `n` bytes of registers, one word after the other. -/
def State.busWords (s : State) (q : Requester) (view a : Nat) (fixed : Bool) : Nat → List Byte × State
  | 0 => ([], s)
  | k + 1 =>
    let (bs, s) := s.busWords q view a fixed k
    let (v, s) := s.busRead q view (if fixed then a else a + 4 * k)
    (bs ++ leBytes 4 v.toNat, s)

/-- Write registers, one word after the other. -/
def State.busStore (s : State) (q : Requester) (view a : Nat) (bs : List Byte) : State :=
  s.each (List.range (bs.length / 4)) fun k s => s.busWrite q view 2 (a + 4 * k) (BitVec.ofNat 32 (leNat ((bs.drop (4 * k)).take 4)))

/-- The first line that the egress of `n` bytes at `a` meets in error (R411). -/
def State.badLine (s : State) (a n : Nat) (egress : Bool) : Nat :=
  match (linesOf a n).find? fun l => (s.mark l).double || (inFlash l && s.unitEcc l == 2) || (egress && (s.mark l).chk != 0#32) with
  | some l => max a l
  | none => a

/-- The data of a burst of `k` bytes from its source, or the code and address of its failure. `data` is what the host returns
when it does not return an error. -/
def State.dmaSource (s : State) (n : Fin 32) (d : Desc) (moved src k : Nat) (data : List Byte) (err : Bool) (rivals : List Nat) :
    Except (Nat × Nat) (List Byte) × State :=
  let w := s.dmaWho n
  match d.srcSpace with
  | 0 =>
    if !s.reach (.dma n) w.view false .read src (if touchesPer src k then 4 else k) then
      (.error (3, src), s.refuse (.dma n) w.view .read src (if touchesPer src k then 4 else k))
    else if isReg src then
      let (b, s) := s.busWords (.dma n) w.view src d.srcFixed (k / 4)
      (.ok b, s)
    else
      let e := s.badLine src k true
      let (b, s) := (s.arbitrate src (some 9) rivals).memEgress w src k
      (match b with | some b => .ok b | none => .error (5, e), s)
  | 1 =>
    match s.ownerFn w.view with
    | some f => if s.on (R.PCIE_Fn_STATUS_BME f) && !err then (.ok ((data ++ List.replicate k 0#8).take k), s) else (.error (7, src), s)
    | none => (.error (7, src), s)
  | _ =>
    let es := if d.srcLo < 0x18 then (s.fch d.srcLo).buf else (s.flink (d.srcLo - 0x20)).log
    (.ok ((es.flatten.drop (moved % d.entrySize)).take k), s)

/-- The check that moves with a burst (R409): that of a whole source line, memory or stream, on its way to a whole line that stores
one. -/
def State.movedCheck (s : State) (d : Desc) (src dst k : Nat) : Option Word :=
  if k = 64 ∧ dst % 64 = 0 ∧ (memCode (regionOf dst)).isSome = true ∧ d.dstSpace = 0 then
    if d.srcSpace = 2 then some 0#32
    else if d.srcSpace = 0 ∧ src % 64 = 0 ∧ (memCode (regionOf src)).isSome = true then some (s.mark src).chk
    else none
  else none

/-- The destination of a burst takes its bytes, whole lines with the check `whole`; none, or the code and address of its failure. -/
def State.dmaDest (s : State) (n : Fin 32) (d : Desc) (dst : Nat) (bs : List Byte) (whole : Option Word) (err : Bool) (rivals : List Nat) :
    Option (Nat × Nat) × State :=
  let w := s.dmaWho n
  if d.dstSpace = 1 then
    match s.ownerFn w.view with
    | some f =>
      if s.on (R.PCIE_Fn_STATUS_BME f) && !err then (none, { s with up := some ⟨f, dst + d.dstHi * 2 ^ 32, bs⟩ }) else (some (7, dst), s)
    | none => (some (7, dst), s)
  else if !s.reach (.dma n) w.view false .write dst (if touchesPer dst bs.length then 4 else bs.length) then
    (some (4, dst), s.refuse (.dma n) w.view .write dst (if touchesPer dst bs.length then 4 else bs.length))
  else if isReg dst then (none, s.busStore (.dma n) w.view dst bs)
  else
    let e := s.badLine dst bs.length false
    let s := s.arbitrate dst (some 9) rivals
    match whole with
    | some chk => (none, s.lineMove dst bs chk)
    | none =>
      let (ok, s) := s.memWrite w dst bs
      (if ok then none else some (6, e), s)

/-- Entries of a stream leave the buffer when their last burst has been written (R418). -/
def State.dmaDrop (s : State) (d : Desc) (before after : Nat) : State :=
  if !d.stream then s
  else
    let k := after / d.entrySize - before / d.entrySize
    if k = 0 then s
    else if d.srcLo < 0x18 then (s.setFch d.srcLo { s.fch d.srcLo with buf := (s.fch d.srcLo).buf.drop k }).fcLevel d.srcLo
    else (s.setFlink (d.srcLo - 0x20) { s.flink (d.srcLo - 0x20) with log := (s.flink (d.srcLo - 0x20)).log.drop k }).logLevel (d.srcLo - 0x20)

/-- Channel `n` issues a burst. -/
def State.dmaBurst (s : State) (n : Fin 32) (data : List Byte) (err : Bool) (rivals : List Nat) : State :=
  let x := s.dmaCh n
  match x.desc with
  | none => s
  | some d =>
    let (src, dst, k) := d.burst x.moved
    let (r, s) := s.dmaSource n d x.moved src k data (err && d.srcSpace == 1) rivals
    match r with
    | .error e => s.dmaFail n e.1 e.2
    | .ok bs =>
      let (f, s) := s.dmaDest n d dst bs (s.movedCheck d src dst k) (err && d.srcSpace != 1) rivals
      match f with
      | some e => s.dmaFail n e.1 e.2
      | none =>
        let s := s.dmaDrop d x.moved (x.moved + k)
        (s.setDma n { s.dmaCh n with moved := x.moved + k }).put (R.DMA_Cn_DONE_BYTES n) (x.moved + k)

/-- A descriptor whose data writes are all visible completes (R419). -/
def State.dmaDone (s : State) (n : Fin 32) : State :=
  let x := s.dmaCh n
  match x.desc with
  | none => s
  | some d =>
    if s.dmaState n != 1 || x.moved < d.len then s
    else
      let s := s.dmaStatus n 0 d.len
      let s := s.when (bit d.ctl 7) fun s => s.emit (652 + n) x.hop
      let s := s.when (bit d.ctl 8) fun s => match s.ownerFn (s.dmaOwner n) with | some f => s.vector f (bitsOf d.ctl 9 6) | none => s
      let s := (s.inc (R.DMA_Cn_COUNT_COUNT n)).put (R.DMA_Cn_CUR_ADDR n) d.next
      let go := d.next != 0 && !x.stop
      (s.setDma n { x with desc := none, moved := 0, hop := none, stop := false, fetch := go }).put (R.DMA_Cn_STATUS_STATE n)
        (if d.next = 0 then 0 else if x.stop then 4 else 1)

/-! ### Commands -/

/-- DMA_DESCRIPTOR_FETCH (R419). -/
def execDmaDescriptorFetch (n : Fin 32) (rivals : List (Fin 18)) (s : State) : Out :=
  .next (if s.dmaRuns && s.dmaState n == 1 && (s.dmaCh n).fetch then s.dmaFetch n (rivals.map (·.val)) else s)
/-- DMA_BURST (R421): the next burst in round order. -/
def execDmaBurst (rivals : List (Fin 18)) (data : List Byte) (err : Bool) (s : State) : Out :=
  .next (if !s.dmaRuns then s
    else match s.dmaNext with
      | some (n, r) => if h : n < 32 then ({ s with dmaRound := r } : State).dmaBurst ⟨n, h⟩ data err (rivals.map (·.val)) else s
      | none => { s with dmaRound := [] })
/-- DMA_DESCRIPTOR_DONE (R419). -/
def execDmaDescriptorDone (n : Fin 32) (s : State) : Out := .next (if s.dmaRuns then s.dmaDone n else s)

end Sys2Proof.Machine
end

