-- ==== Sys2Proof/Machine/Exc.lean ====
section
/-!
DEFINITION. Issuing an instruction and taking an exception (spec/10, spec/12): when a processor issues, the hardware loops (R263 to
R265), the exceptions (R292 to R294), entry and LOCKUP (R296 to R300), a lane's faults (R309), return (R301), and the service mode of ROM
(R445, R446, R455).
-/
namespace Sys2Proof.Machine

/-! ### Exceptions (Table 12.1) -/

/-- An exception that an instruction raises: for BUS and ECC the address and whether it was a store or a fetch, for ALIGN the
address and whether it was a store, for STACK the value refused. -/
inductive Exc where
  | bus (a : Nat) (write fetch : Bool)
  | ecc (a : Nat) (write fetch : Bool)
  | undef
  | priv
  | align (a : Nat) (write : Bool)
  | stack (v : Word)
  | swi (num : Nat)
  | brk (num : Nat)
  deriving DecidableEq, Repr

/-- Its number. -/
def Exc.num : Exc → Nat
  | .bus _ _ _ => 2 | .ecc _ _ _ => 3 | .undef => 4 | .priv => 5 | .align _ _ => 6 | .stack _ => 7 | .swi _ => 8 | .brk _ => 9
/-- The value of CPS_EXC_INFO. -/
def Exc.info : Exc → Nat
  | .bus _ w f => 2 + 256 * f.toNat + 512 * w.toNat
  | .ecc _ w f => 3 + 256 * f.toNat + 512 * w.toNat
  | .undef => 4 | .priv => 5
  | .align _ w => 6 + 512 * w.toNat
  | .stack _ => 7
  | .swi n => 8 + 65536 * n
  | .brk n => 9 + 65536 * n
/-- The value of CPS_FAULT_ADDR, where the entry changes it. -/
def Exc.addr : Exc → Option Nat
  | .bus a _ _ => some a | .ecc a _ _ => some a | .align a _ => some a | .stack v => some v.toNat | _ => none
/-- CAUSE of LNC_Ln_FAULT for it. -/
def Exc.laneCause : Exc → Nat
  | .bus _ _ _ => 2 | .ecc _ _ _ => 3 | _ => 1

/-! ### Hardware loops (R263, R264, R265) -/

/-- LSk. -/
def Cpu.ls (x : Cpu) (k : Nat) : Word := x.cr (lsNo k)
/-- LEk. -/
def Cpu.le (x : Cpu) (k : Nat) : Word := x.cr (leNo k)
/-- LCk. -/
def Cpu.lc (x : Cpu) (k : Nat) : Word := x.cr (lcNo k)

/-- One loop's part of R263: whether it goes back, and the processor after it. -/
def Cpu.loopEnd (x : Cpu) (k : Nat) (next : Word) : Bool × Cpu :=
  if x.la k && next == x.le k then
    if 1#32 < x.lc k then (true, x.setCr (lcNo k) (x.lc k - 1#32)) else (false, (x.setCr (lcNo k) 0#32).setLa k false)
  else (false, x)

/-- An instruction has completed without a taken transfer; `next` is the address that would follow (R263). -/
def Cpu.advance (x : Cpu) (next : Word) : Cpu :=
  let (back, x) := x.loopEnd 0 next
  if back then { x with pc := x.ls 0 }
  else
    let (back, x) := x.loopEnd 1 next
    { x with pc := if back then x.ls 1 else next }

/-- Does `a` lie in the body of loop `k`? -/
def Cpu.inBody (x : Cpu) (k : Nat) (a : Word) : Bool := decide (x.ls k ≤ a) && decide (a ≤ x.le k - 2#32)

/-- A taken transfer to `t`: loops whose bodies it leaves end (R264). -/
def Cpu.transfer (x : Cpu) (t : Word) : Cpu :=
  let x := if x.la 0 && !x.inBody 0 t then x.setLa 0 false else x
  let x := if x.la 1 && !x.inBody 1 t then x.setLa 1 false else x
  { x with pc := t }

/-- Is the loop state valid (R264): active loops of 2 to 510 bytes, and loop 0 within loop 1? -/
def Cpu.loopsOk (x : Cpu) : Bool :=
  let size (k : Nat) : Bool := !x.la k || (decide (2#32 ≤ x.le k - x.ls k) && decide (x.le k - x.ls k ≤ 510#32))
  size 0 && size 1 && (!(x.la 0 && x.la 1) || (decide (x.ls 1 ≤ x.ls 0) && decide (x.le 0 ≤ x.le 1)))

/-- The LOOPST fields of loop `k` for a saved PC (Table 10.15); none for a loop that is not running there. -/
def Cpu.loopField (x : Cpu) (k : Nat) (pc : Word) : Option (Nat × Nat) :=
  if x.la k && x.inBody k pc then some ((pc - x.ls k).toNat / 2 % 256, (x.le k - pc).toNat / 2 % 256) else none

/-- LOOPST for a saved PC. -/
def Cpu.loopst (x : Cpu) (pc : Word) : Word :=
  let f (k : Nat) : Nat := match x.loopField k pc with | some (b, e) => b + 256 * e | none => 0
  BitVec.ofNat 32 (f 0 + 65536 * f 1)

/-! ### The frame (R296, R297) -/

/-- The stacked PS: LAx as R265 rules, NA and PAD. -/
def Cpu.stackedPs (x : Cpu) (pc : Word) (na pad : Bool) : Word :=
  let y := (x.setLa 0 (x.loopField 0 pc).isSome).setLa 1 (x.loopField 1 pc).isSome
  y.ps ||| BitVec.ofNat 32 (8 * na.toNat + 4 * pad.toNat)

/-- The frame's words in the order of the pushes, with their offsets from the base (Table 12.3). -/
def Cpu.frame (x : Cpu) (pc : Word) (na pad : Bool) : List (Nat × Word) :=
  [(0x2C, pc), (0x28, x.stackedPs pc na pad), (0x24, x.reg 0), (0x20, x.reg 1), (0x1C, x.reg 2), (0x18, x.reg 3),
   (0x14, x.reg 4), (0x10, x.reg 5), (0x0C, x.reg 14), (0x08, x.lc 0), (0x04, x.lc 1), (0x00, x.loopst pc)]

/-- Who a core is at its memories. -/
def State.coreWho (s : State) (c : Fin 9) : Who := ⟨.core c, s.coreOwner c⟩
/-- May core `c` at level `lvl` make an access? -/
def State.coreMay (s : State) (c : Fin 9) (lvl : Nat) (k : Access) (a n : Nat) : Bool :=
  s.reach (.core c) (s.coreOwner c) (lvl == 0) k a n

/-! ### Stores and loads through the store buffer (R284, R285) -/

/-- The oldest buffered store of core `c` drains to its target. -/
def State.drain (s : State) (c : Fin 9) : State :=
  match (s.buf c).stores with
  | [] => s
  | e :: es => ((s.setBuf c { s.buf c with stores := es, since := s.now }).store ⟨.core c, e.view⟩ e.lvl e.addr e.bytes e.rivals).2
/-- Up to `n` buffered stores drain, in order. -/
def State.drains (c : Fin 9) : Nat → State → State
  | 0, s => s
  | n + 1, s => State.drains c n (s.drain c)
/-- The store buffer of core `c` drains empty: it has 4 entries. -/
def State.drainAll (s : State) (c : Fin 9) : State := State.drains c 4 s

/-- A store of core `c` enters its store buffer, which drains an entry first where it is full. Fetch buffers follow (R281). -/
def State.bufStore (s : State) (c : Fin 9) (lvl a : Nat) (bs : List Byte) (rivals : List Nat) : State :=
  let s := if 4 ≤ (s.buf c).stores.length then s.drain c else s
  let b := s.buf c
  s.setBuf c { b.stored a bs with
    stores := b.stores ++ [⟨a, bs, lvl, s.coreOwner c, rivals⟩], since := if b.stores.isEmpty then s.now else b.since }

/-- A load of core `c`: a register waits until the store buffer is empty; elsewhere buffered bytes are forwarded, or merged with those of
memory. -/
def State.coreLoad (s : State) (c : Fin 9) (a n : Nat) (rivals : List Nat) : Option (List Byte) × State :=
  if isReg a then (s.drainAll c).load (s.coreWho c) a n rivals
  else
    let hit := (s.buf c).stores.filter fun e => decide (e.addr < a + n) && decide (a < e.addr + e.bytes.length)
    match hit.getLast? with
    | none => s.load (s.coreWho c) a n rivals
    | some e =>
      if e.addr ≤ a ∧ a + n ≤ e.addr + e.bytes.length then (some (overlaid a (List.replicate n 0#8) e), s)
      else let (r, t) := s.load (s.coreWho c) a n rivals
           (r.map fun bs => hit.foldl (overlaid a) bs, t)

/-- Push words at `base`; false at the first that is refused (R300). -/
def State.pushFrame (s : State) (c : Fin 9) (lvl base : Nat) : List (Nat × Word) → Bool × State
  | [] => (true, s)
  | (o, v) :: ws =>
    let a := (base + o) % 2 ^ 32
    if s.coreMay c lvl .write a 4 then (s.bufStore c lvl a (leBytes 4 v.toNat) []).pushFrame c lvl base ws
    else (false, s.refuse (.core c) (s.coreOwner c) .write a 4 (lvl == 0))

/-! ### Entry and LOCKUP (R299, R300) -/

/-- Core `c` locks up: the entry to `v` with saved PC `pc` failed for `cause`. -/
def State.lockup (s : State) (c : Fin 9) (cause v : Nat) (pc : Word) : State :=
  let s := s.stopCore c
  let w := if v < 16 then cause + 16 * v else cause + 256 * (v - 16)
  let s := ((s.wr (R.CPS_LOCKUP c) (BitVec.ofNat 32 w)).wr (R.CPS_LOCKUP_PC c) pc).raise (635 + c)
  if c = 8 then s.recFail 2 else s

/-- The limit of the stack at a level (R298). -/
def Cpu.limit (x : Cpu) (lvl : Nat) : Word := x.cr (0x10 + lvl)

/-- Is an address in ROM's default vector table (R308)? -/
def inDefaultTable (a : Nat) : Bool := decide (a < 0x440)

/-- The vector at `a`: none where the read is refused or uncorrectable. The entries of ROM's default table are not stated, but
that each leads to a routine. -/
def State.vectorAt (s : State) (c : Fin 9) (hl a : Nat) : Option Word × State :=
  if inDefaultTable a then let (f, s) := s.fresh; (some (BitVec.ofNat 32 f &&& 0xFFFFFFFE#32), s)
  else if s.coreMay c hl .read a 4 then
    let (b, s) := s.coreLoad c a 4 []
    (b.map fun b => BitVec.ofNat 32 (leNat b), s)
  else (none, s.refuse (.core c) (s.coreOwner c) .read a 4 (hl == 0))

/-- Entry of core `c` to number `v` at handler level `hl`, with saved PC `pc`, CPS_EXC_INFO `info` and, where it changes,
CPS_FAULT_ADDR `addr` (R299). The routine behind a vector of ROM's default table waits in WFI with IPM 15 (R308). -/
def State.enter (s : State) (c : Fin 9) (v hl : Nat) (pc : Word) (info : Nat) (addr : Option Nat) : State :=
  let x := s.cpuAt c
  let t := x.sp - 48#32
  let base := t &&& ~~~7#32
  if base < x.limit hl then s.lockup c 1 v pc
  else
    let (ok, s) := s.pushFrame c x.lvl base.toNat (x.frame pc (s.on (R.CPS_NMI_ACTIVE c)) (t.getLsbD 2))
    if !ok then s.lockup c 2 v pc
    else
      let ipm := if v = 1 then 15 else if 16 ≤ v then s.irqPrio c (v - 16) else x.ipm
      let s := if v = 1 then (s.nmiTaken c).put (R.CPS_NMI_ACTIVE c) 1 else if 16 ≤ v then s.irqTaken c (v - 16) else s
      let s := s.setCpuAt c (x.setCr 0x14 (BitVec.ofNat 32 x.lvl))
      let a := ((x.cr 0x13).toNat + 4 * v) % 2 ^ 32
      match s.vectorAt c hl a with
      | (none, s) => s.lockup c 3 v pc
      | (some vec, s) =>
        if vec.getLsbD 0 then s.lockup c 4 v pc
        else
          let rom := inDefaultTable a
          let ps := fieldPut (fieldPut (fieldPut x.ps 0 2 0) 8 2 hl) 16 4 (if rom then 15 else ipm)
          let y := ((s.cpuAt c).setReg 15 base)
          let s := s.setCpuAt c { y with ps := ps, pc := vec, wfi := rom, rom := if rom then some vec else y.rom }
          let s := s.wr (R.CPS_EXC_INFO c) (BitVec.ofNat 32 info)
          match addr with
          | some a => s.wr (R.CPS_FAULT_ADDR c) (BitVec.ofNat 32 a)
          | none => s

/-- An instruction of processor `p` raises `e`, with saved PC `pc`: entry on a core (R293), a lane fault on a lane (R309). -/
def State.raiseAt (s : State) (p : Proc) (e : Exc) (pc : Word) : State :=
  match p with
  | .core c => s.enter c e.num (if (s.cpuAt c).lvl = 0 then 1 else 2) pc e.info e.addr
  | .lane n => s.laneFault n e.laneCause e.num (s.cpuAt (16 + n)).pc

/-! ### Issue (R271, R278, R294) -/

/-- The clock domain of a core. -/
def coreDomain (c : Nat) : Nat := if c = 8 then 21 else 17 + c / 2

/-- May processor `p` fetch the halfword at `a`: a lane from its code RAM (R101); a host core from its ITCM, flash and system SRAM
(R278), the supervisor from its TCM (R268), in their view? -/
def State.fetchMay (s : State) (p : Proc) (a : Nat) : Bool :=
  match p with
  | .lane n => decide (laneCodeBase n ≤ a) && decide (a + 2 ≤ laneCodeBase n + 0x10000)
  | .core c =>
    (match regionOf a with
     | some (.itcm n) => n == c
     | some .flash | some (.sram _) => c != 8
     | some .supTcm => c == 8
     | _ => false) && s.coreMay c (s.cpuAt c).lvl .fetch a 2
/-- The host core whose line buffer fetches address `a` for processor `p` (R278). -/
def lineCore (p : Proc) (a : Nat) : Option (Fin 9) :=
  match p with
  | .core c => if c = 8 then none else match regionOf a with | some .flash | some (.sram _) => some c | _ => none
  | .lane _ => none
/-- Does the line buffer of `p` hold the line of `a`? -/
def State.lineHeld (s : State) (p : Proc) (a : Nat) : Bool :=
  match lineCore p a with | some c => (s.buf c).holds (fetchLine a) | none => false
/-- Does memory hold at `a` what was stored, with no uncorrectable error (R406, R443)? -/
def State.codeSound (s : State) (a : Nat) : Bool := if inFlash a then s.unitEcc a < 2 else !(s.mark a).double
/-- May `p` fetch the halfword at `a`, and does it come without an uncorrectable error? -/
def State.fetchOk (s : State) (p : Proc) (a : Nat) : Bool := s.fetchMay p a && (s.lineHeld p a || s.codeSound a)
/-- Does a fetch at `a` wait for a busy flash array (R279, R444)? -/
def State.fetchWaits (s : State) (p : Proc) (a : Nat) : Bool := s.flashHeld a && !s.lineHeld p a

/-- Is a processor at the point of issuing: it runs, and waits neither in WFI, nor in a service, nor for debug? -/
def State.ready (s : State) (p : Proc) : Bool :=
  !s.dead && !s.debugHalted p.key &&
  match p with
  | .core c => (s.cpuAt c).started && !(s.cpuAt c).wfi && !(s.cpuAt c).inService && s.running (coreDomain c) && !s.domReset (coreDomain c)
  | .lane n => (s.laneOf n).act.isSome && s.running n && !s.domReset n

/-- Does something come before the next instruction at this boundary (R294): a breakpoint's halt, an NMI or an interrupt? -/
def State.displaced (s : State) : Proc → Bool
  | .core c => s.breakHit c || s.nmiMay c || (((List.range 8).any fun j => s.rd (R.CPS_IRQ_SETj c j) != 0#32) && (s.irqNext c).isSome)
  | .lane _ => false

/-- The address of the instruction that `p` issues next. -/
def State.pcOf (s : State) (p : Proc) : Nat := (s.cpuAt p.key).pc.toNat

/-- Does processor `p` issue an instruction of `len` bytes now? A read of a busy flash array is held back (R444). -/
def State.issues (s : State) (p : Proc) (len : Nat) : Bool :=
  s.ready p && !s.displaced p && s.fetchOk p (s.pcOf p) && s.fetchOk p (s.pcOf p + len - 2) &&
  !s.fetchWaits p (s.pcOf p) && !s.fetchWaits p (s.pcOf p + len - 2)

/-- The halfwords that `p` may execute at `a` (R234, R283). -/
def State.halvesAt (s : State) (p : Proc) (a : Nat) : List Nat :=
  match p with
  | .core c => s.halves c a
  | .lane _ => [leNat (s.bytesAt a 2)]
/-- What the halfwords at the pc of `p` may decode to, with their length in bytes; none stands for an undefined encoding (R234, R236). -/
def State.decoded (s : State) (p : Proc) (rv : List (Fin 18)) : List (Nat × Option Instr) :=
  ((s.halvesAt p (s.pcOf p)).map fun h0 =>
    if isShort h0 then [(2, decodeInsn p rv h0 0)]
    else (s.halvesAt p (s.pcOf p + 2)).map fun h1 => (4, decodeInsn p rv h0 h1)).flatten
/-- Is `i`, of `len` bytes, an instruction that `p` finds at its pc? -/
def State.finds (s : State) (p : Proc) (len : Nat) (i : Instr) : Bool := (s.decoded p i.rivals).contains (len, some i)

/-! ### Fetch (R278 to R280) -/

/-- Line `l` is requested for core `c`: it passes its arbiter and is read under ECC; a line with an uncorrectable error does not arrive. -/
def State.bringLine (s : State) (c : Fin 9) (l : Nat) : Option (List Byte) × State :=
  let s := s.arbitrate (32 * l) (some c.val) []
  let (r, t) := s.memRead (s.coreWho c) (32 * l) 32
  (r.map fun _ => s.seenBy c (32 * l) 32, t)
/-- A fetch needs line `l`: a line that the buffer does not hold is requested on demand. -/
def State.demand (s : State) (c : Fin 9) (l : Nat) : State :=
  if (s.buf c).holds l then s.setBuf c ((s.buf c).use l [])
  else match s.bringLine c l with
    | (some bs, t) => t.setBuf c ((t.buf c).use l bs)
    | (none, t) => t
/-- The first instruction from line `l` issues: the next sequential line is requested, unless the buffer holds it. -/
def State.prefetch (s : State) (c : Fin 9) (l : Nat) : State :=
  if (s.buf c).cur = some l then s
  else
    let s := s.setBuf c { s.buf c with cur := some l }
    let a := 32 * (l + 1)
    if lineCore (.core c) a = some c ∧ (s.buf c).holds (l + 1) = false ∧ s.fetchOk (.core c) a = true ∧ s.flashHeld a = false then
      match s.bringLine c (l + 1) with
      | (some bs, t) => t.setBuf c ((t.buf c).prefetch (l + 1) bs)
      | (none, t) => t
    else s

/-- The bytes from `a` on as they stood when they came within 16 bytes of an instruction that issued (R283). -/
def State.lookAhead (s : State) (c a n : Nat) : List Byte :=
  let old := (s.buf c).ahead
  let keep := if old.1 ≤ a then (old.2.drop (a - old.1)).take n else []
  keep ++ (s.seenBy c a n).drop keep.length

/-- The fetch of the instruction of `len` bytes that `p` issues. -/
def State.fetched (s : State) (p : Proc) (len : Nat) : State :=
  let a := s.pcOf p
  match p with
  | .lane n => (s.memRead ⟨.lane n, s.owner 1 n⟩ a len).2
  | .core c =>
    let s := match lineCore p a with
      | some _ => ((s.demand c (fetchLine (a + len - 2))).demand c (fetchLine a)).prefetch c (fetchLine a)
      | none => (s.setBuf c { s.buf c with cur := none }).memRead (s.coreWho c) a len |>.2
    s.setBuf c { s.buf c with ahead := (a, s.lookAhead c a (len + 16)) }

/-- A taken branch, jump, call or POP of pc from `a` to `t` on processor `p` (R280): an entry that matches puts its line into the line
buffer; else the line of the target is demanded and recorded. -/
def State.taken (s : State) (p : Proc) (a t : Nat) : State :=
  match lineCore p t with
  | none => s
  | some c =>
    let l := fetchLine t
    match (s.buf c).target a t with
    | some e => s.setBuf c { ((s.buf c).record e).use l e.line with cur := none }
    | none =>
      if s.fetchOk p t && !s.fetchWaits p t then
        let s := s.demand c l
        match (s.buf c).lines.find? fun e => e.1 == l with
        | some e => s.setBuf c { (s.buf c).record ⟨a, t, e.2⟩ with cur := none }
        | none => s
      else s

/-- What an instruction does: it completes with the processor as given, the same with a taken transfer, it raises an exception (R237), it completes and then traps
(SWI, BRK), it halts for debug, or it cannot proceed yet. -/
inductive Eff where
  | done (s : State) (x : Cpu)
  | jump (s : State) (x : Cpu)
  | raise (s : State) (e : Exc)
  | trap (x : Cpu) (e : Exc)
  | halt (x : Cpu)
  | wait

/-- After an instruction a debug STEP halts the core again (R512), after a service where that instruction called one (R446). -/
def State.stepped (s : State) (p : Proc) : State :=
  let y := s.cpuAt p.key
  let s := if y.resumed then s.setCpuAt p.key { y with resumed := false } else s
  match p with
  | .core c => if y.step && y.started && !y.inService then s.haltCore c 4 else s
  | .lane _ => s

/-- A BRK halts for debug (R512, R515). -/
def State.brkHalt (s : State) (p : Proc) (x : Cpu) : State :=
  match p with
  | .core c => (s.setCpuAt c x).haltCore c 2
  | .lane n =>
    let s := s.laneFault n 5 0 (s.cpuAt (16 + n)).pc
    ((s.put (R.LNC_Ln_STATUS_HALTED n) 1).put (R.DBG_Cc_STATUS_STATE (16 + n)) 1).put (R.DBG_Cc_STATUS_CAUSE (16 + n)) 2

/-- Processor `p` issues the instruction of `len` bytes at its pc, which does `f`. Where it does not issue now, nothing happens. A store that
resets or stops its own core leaves the core as that reset left it. -/
def State.run (s : State) (p : Proc) (len : Nat) (f : State → Cpu → Eff) : State :=
  if !s.issues p len then s
  else
    let s := s.fetched p len
    let x := s.cpuAt p.key
    match f s x with
    | .done t y => if t.cpuAt p.key = x then (t.setCpuAt p.key y).stepped p else t
    | .jump t y => if t.cpuAt p.key = x then ((t.taken p x.pc.toNat y.pc.toNat).setCpuAt p.key y).stepped p else t
    | .raise t e => (t.raiseAt p e (t.cpuAt p.key).pc).stepped p
    | .trap y e => match p with
      | .core _ => ((s.setCpuAt p.key y).raiseAt p e y.pc).stepped p
      | .lane _ => s.raiseAt p e x.pc
    | .halt y => s.brkHalt p y
    | .wait => s

/-- Processor `p` issues instruction `i`, which does `f`, where its pc stands at that instruction (R234 to R236). -/
def State.issue (s : State) (i : Instr) (p : Proc) (len : Nat) (f : State → Cpu → Eff) : State :=
  if s.finds p len i then s.run p len f else s

/-- The length of an instruction in bytes. -/
def ilen (short : Bool) : Nat := if short then 2 else 4

/-- The instruction after this one. -/
def Cpu.next (x : Cpu) (short : Bool) : Word := x.pc + BitVec.ofNat 32 (ilen short)

/-- A general register takes a value; w15 under its limit (R298). -/
def Cpu.put (x : Cpu) (r : RegNo) (v : Word) : Except Exc Cpu :=
  if r = 15 ∧ v < x.limit x.lvl then .error (.stack v) else .ok (x.setReg r v)

/-- An instruction that works on registers alone: `f` gives the registers after it or its exception; R263 then gives the next address. -/
def regInstr (i : Instr) (p : Proc) (short : Bool) (f : Cpu → Except Exc Cpu) (s : State) : Out :=
  .next (s.issue i p (ilen short) fun s x => match f x with
    | .ok y => .done s (y.advance (x.next short))
    | .error e => .raise s e)

/-! ### Service mode (R446, R455) -/

/-- The blocking calls of core `c`, innermost first. -/
def State.svcOf (s : State) (c : Nat) : List SvcCall := s.svc.get [] c
/-- Change them. -/
def State.setSvc (s : State) (c : Nat) (l : List SvcCall) : State := { s with svc := if l.isEmpty then s.svc.drop (· == c) else s.svc.set c l }

/-- A service returns to lk with its code and results (R445); a result the spec does not state is free, and so are the 96 bytes
below sp. A debug halt that waited is taken. -/
def State.svcReturn (s : State) (c : Fin 9) (code : Nat) (w1 w2 : Option Nat) : State :=
  let (f1, s) := s.fresh
  let (f2, s) := s.fresh
  let (f3, s) := s.fresh
  let x := s.cpuAt c
  let a := x.sp.toNat - 96
  let s := if 96 ≤ x.sp.toNat && s.coreMay c x.lvl .write a 96 && !isReg a then
      (s.memWrite (s.coreWho c) a ((List.range 96).map fun i => Config.mixByte f3 (a + i))).2 else s
  let y := ((x.setReg 0 (BitVec.ofNat 32 code)).setReg 1 (BitVec.ofNat 32 (w1.getD f1))).setReg 2 (BitVec.ofNat 32 (w2.getD f2))
  let s := s.setCpuAt c { y with pc := x.reg 14 &&& 0xFFFFFFFE#32 }
  let s := if (x.reg 14).getLsbD 0 then (s.setCpuAt c { y with pc := 0x804#32 }).raiseAt (.core c) (.align (x.reg 14).toNat false) 0x804#32 else s
  if (s.cpuAt c).want then s.haltCore c 1 else s.stepped (.core c)

/-- The innermost call of core `c`, whose operation is DONE with `r`, returns its code, w1 and w2 (R448, R454); code 4 and READ have
results, as `r` carries them. -/
def State.svcFinish (s : State) (c : Fin 9) (r : Nat × Nat × Nat) : State :=
  (s.setSvc c (s.svcOf c).tail).svcReturn c r.1 (some r.2.1) (some r.2.2)

/-- The core is back at 0x804 (R455): a suspended operation resumes, and one that is DONE lets its call return. -/
def State.svcResume (s : State) (c : Fin 9) : State :=
  match s.svcOf c with
  | [] => s
  | k :: ks =>
    match k.result with
    | some r => s.svcFinish c r
    | none => (s.flashResume k.bank).2.setSvc c ({ k with suspended := false } :: ks)

/-- An NMI takes core `c` out of service mode: the operation that it waits for is suspended (R455). -/
def State.svcSuspend (s : State) (c : Nat) : State :=
  match s.svcOf c with
  | [] => s
  | k :: ks => if k.suspended || (s.cpuAt c).pc != 0x804#32 then s else (s.flashSuspend k.bank).2.setSvc c ({ k with suspended := true } :: ks)

/-! ### Interrupts (R303 to R307) -/

/-- Is core `c` at a boundary at which it may take an NMI or interrupt? -/
def State.atBoundary (s : State) (c : Nat) : Bool :=
  let x := s.cpuAt c
  !s.dead && x.started && !s.debugHalted c && s.running (coreDomain c) && !s.domReset (coreDomain c) && (x.wfi || !s.breakHit c)

/-- INTERRUPT_ENTRY (R299, R304): the core takes the interrupt that it chooses. -/
def execInterruptEntry (c : Fin 9) (s : State) : Out :=
  .next (if s.atBoundary c && !(s.cpuAt c).inService && !s.nmiMay c then
      match s.irqNext c with
      | some k => (s.enter c (16 + k) (s.irqLvl c k) (s.cpuAt c).pc (2 ^ 24 * k) none).stepped (.core c)
      | none => s
    else s)

/-- NMI_ENTRY (R304, R455): a pending NMI is taken; from service mode the saved PC is 0x804. -/
def execNmiEntry (c : Fin 9) (s : State) : Out :=
  .next (if s.atBoundary c && s.nmiMay c then
      let pc := if (s.cpuAt c).inService then 0x804#32 else (s.cpuAt c).pc
      ((s.svcSuspend c).enter c 1 2 pc 1 none).stepped (.core c)
    else s)

/-- An access of core `c` to its own core-private space at its level (R291). -/
def privWrite (c : Fin 9) (r : Nat → Reg) (eff : Nat → State → State) (s : State) : Out :=
  let lvl := (s.cpuAt c).lvl
  .next (if !s.ready (.core c) then s
    else if s.coreMay c lvl .write ((r c).addr % 2 ^ 32) 4 then eff lvl s
    else s.refuse (.core c) (s.coreOwner c) .write ((r c).addr % 2 ^ 32) 4 (lvl == 0))

/-- CPS_IRQ_SET (R303, R306). -/
def execCpsIrqSet (c : Fin 9) (j : Fin 8) (v : Word) (s : State) : Out :=
  privWrite c (fun c => R.CPS_IRQ_SETj c j) (fun lvl => irqPendWrite c j lvl v.toNat true) s
/-- CPS_IRQ_CLR (R305, R306). -/
def execCpsIrqClr (c : Fin 9) (j : Fin 8) (v : Word) (s : State) : Out :=
  privWrite c (fun c => R.CPS_IRQ_CLRj c j) (fun lvl => irqPendWrite c j lvl v.toNat false) s
/-- CPS_IRQ_CFG_WRITE (R306). -/
def execCpsIrqCfgWrite (c : Fin 9) (n : Fin 256) (v : Word) (s : State) : Out :=
  privWrite c (fun c => R.CPS_IRQ_CFGn c n) (fun lvl => irqCfgWrite c n lvl v.toNat) s
/-- CPS_NMI_SET (R304). -/
def execCpsNmiSet (c : Fin 9) (s : State) : Out := privWrite c (fun c => R.CPS_NMI c) (fun lvl => nmiWrite c lvl 0x100) s

/-! ### Undefined instructions and failed fetches (R236, R292) -/

/-- UNDEFINED_INSTRUCTION (R236): the pc stands at an encoding of this length that spec/10 does not define. -/
def execUndefinedInstruction (p : Proc) (short : Bool) (s : State) : Out :=
  .next (if (s.decoded p []).contains (ilen short, none) then s.run p (ilen short) fun s _ => .raise s .undef else s)

/-- FETCH_FAULT (R278, R292): the fetch of the first, or of the second halfword of the next instruction is refused or uncorrectable. -/
def execFetchFault (p : Proc) (second : Bool) (s : State) : Out :=
  let a := s.pcOf p + 2 * second.toNat
  .next (if !s.ready p || s.displaced p || s.fetchOk p a || s.fetchWaits p a ||
      (second && (!s.fetchOk p (s.pcOf p) || (s.halvesAt p (s.pcOf p)).all isShort)) then s
    else
      let w : Who := ⟨p.req, s.viewOf p.req⟩
      let pc := (s.cpuAt p.key).pc
      if s.fetchMay p a then ((s.memRead w a 2).2.raiseAt p (.ecc a false true) pc).stepped p
      else
        let s := if s.inView w.view .fetch a then s else match p with | .core _ => s.refuse p.req w.view .fetch a 2 | .lane _ => s
        (s.raiseAt p (.bus a false true) pc).stepped p)

end Sys2Proof.Machine
end

