-- ==== Sys2Proof/Machine/Alu.lean ====
section
/-!
DEFINITION. The integer instructions (spec/10, R239, R241 to R246). A 16-bit form has the operand `short`; its two-register forms take
rd as the first operand (R239).
-/
namespace Sys2Proof.Machine

/-- The first operand of a form: rd in a 16-bit two-register form, else rs1. -/
def Cpu.first (x : Cpu) (short : Bool) (rd rs1 : RegNo) : Word := x.reg (if short then rd else rs1)

/-- A result that sets no flag. -/
def aluPlain (i : Instr) (p : Proc) (short : Bool) (rd : RegNo) (f : Cpu → Word) (s : State) : Out :=
  regInstr i p short (fun x => x.put rd (f x)) s

/-- A result that sets N, Z, C and V. -/
def aluNzcv (i : Instr) (p : Proc) (short : Bool) (rd : RegNo) (f : Cpu → Word × Nzcv) (s : State) : Out :=
  regInstr i p short (fun x => (x.put rd (f x).1).map fun y => y.setFlags (f x).2) s

/-- A result that sets N and Z where `sets` holds. -/
def aluNz (i : Instr) (p : Proc) (short sets : Bool) (rd : RegNo) (f : Cpu → Word) (s : State) : Out :=
  regInstr i p short (fun x => (x.put rd (f x)).map fun y => if sets then y.setFlags (nzFlags (f x) x.flags) else y) s

/-- A comparison: the flags alone. -/
def aluFlags (i : Instr) (p : Proc) (short : Bool) (f : Cpu → Nzcv) (s : State) : Out :=
  regInstr i p short (fun x => .ok (x.setFlags (f x))) s

/-- NOP (Table 10.4). -/
def execNop (p : Proc) (s : State) : Out :=
  regInstr (.nop p) p true .ok s
/-- MOV (Table 10.5). -/
def execMov (p : Proc) (rd rs : RegNo) (s : State) : Out :=
  aluPlain (.mov p rd rs) p true rd (fun x => x.reg rs) s
/-- MOVI (Tables 10.4, 10.7). -/
def execMovi (p : Proc) (rd : RegNo) (imm : BitVec 21) (short : Bool) (s : State) : Out :=
  aluPlain (.movi p rd imm short) p short rd (fun _ => imm.signExtend 32) s
/-- MOVHI (Table 10.7). -/
def execMovhi (p : Proc) (rd : RegNo) (imm : BitVec 16) (s : State) : Out :=
  aluPlain (.movhi p rd imm) p false rd (fun _ => imm.setWidth 32 <<< 16) s
/-- ADR (Table 10.7). -/
def execAdr (p : Proc) (rd : RegNo) (off : BitVec 21) (s : State) : Out :=
  aluPlain (.adr p rd off) p false rd (fun x => x.pc + off.signExtend 32 * 2#32) s
/-- ADD (Tables 10.5, 10.9): the 16-bit form sets NZCV. -/
def execAdd (p : Proc) (rd rs1 rs2 : RegNo) (short : Bool) (s : State) : Out :=
  if short then aluNzcv (.add p rd rs1 rs2 short) p true rd (fun x => addFlags (x.reg rd) (x.reg rs2) false) s
  else aluPlain (.add p rd rs1 rs2 short) p false rd (fun x => x.reg rs1 + x.reg rs2) s
/-- ADDS (Table 10.9). -/
def execAdds (p : Proc) (rd rs1 rs2 : RegNo) (s : State) : Out :=
  aluNzcv (.adds p rd rs1 rs2) p false rd (fun x => addFlags (x.reg rs1) (x.reg rs2) false) s
/-- ADDI (Tables 10.4, 10.7): the 16-bit form sets NZCV. -/
def execAddi (p : Proc) (rd rs1 : RegNo) (imm : BitVec 17) (short : Bool) (s : State) : Out :=
  if short then aluNzcv (.addi p rd rs1 imm short) p true rd (fun x => addFlags (x.reg rd) (imm.signExtend 32) false) s
  else aluPlain (.addi p rd rs1 imm short) p false rd (fun x => x.reg rs1 + imm.signExtend 32) s
/-- SUB (Tables 10.5, 10.9): the 16-bit form sets NZCV. -/
def execSub (p : Proc) (rd rs1 rs2 : RegNo) (short : Bool) (s : State) : Out :=
  if short then aluNzcv (.sub p rd rs1 rs2 short) p true rd (fun x => subFlags (x.reg rd) (x.reg rs2) true) s
  else aluPlain (.sub p rd rs1 rs2 short) p false rd (fun x => x.reg rs1 - x.reg rs2) s
/-- SUBS (Table 10.9). -/
def execSubs (p : Proc) (rd rs1 rs2 : RegNo) (s : State) : Out :=
  aluNzcv (.subs p rd rs1 rs2) p false rd (fun x => subFlags (x.reg rs1) (x.reg rs2) true) s
/-- ADC (Table 10.9, R243). -/
def execAdc (p : Proc) (rd rs1 rs2 : RegNo) (s : State) : Out :=
  aluNzcv (.adc p rd rs1 rs2) p false rd (fun x => addFlags (x.reg rs1) (x.reg rs2) x.flags.c) s
/-- SBC (Table 10.9, R243). -/
def execSbc (p : Proc) (rd rs1 rs2 : RegNo) (s : State) : Out :=
  aluNzcv (.sbc p rd rs1 rs2) p false rd (fun x => subFlags (x.reg rs1) (x.reg rs2) x.flags.c) s
/-- AND (Tables 10.5, 10.9): the 16-bit form sets N and Z. -/
def execAnd (p : Proc) (rd rs1 rs2 : RegNo) (short : Bool) (s : State) : Out :=
  aluNz (.and p rd rs1 rs2 short) p short short rd (fun x => x.first short rd rs1 &&& x.reg rs2) s
/-- ANDS (Table 10.9). -/
def execAnds (p : Proc) (rd rs1 rs2 : RegNo) (s : State) : Out :=
  aluNz (.ands p rd rs1 rs2) p false true rd (fun x => x.reg rs1 &&& x.reg rs2) s
/-- OR (Tables 10.5, 10.9): the 16-bit form sets N and Z. -/
def execOr (p : Proc) (rd rs1 rs2 : RegNo) (short : Bool) (s : State) : Out :=
  aluNz (.or p rd rs1 rs2 short) p short short rd (fun x => x.first short rd rs1 ||| x.reg rs2) s
/-- XOR (Tables 10.5, 10.9): the 16-bit form sets N and Z. -/
def execXor (p : Proc) (rd rs1 rs2 : RegNo) (short : Bool) (s : State) : Out :=
  aluNz (.xor p rd rs1 rs2 short) p short short rd (fun x => x.first short rd rs1 ^^^ x.reg rs2) s
/-- ANDN (Table 10.9). -/
def execAndn (p : Proc) (rd rs1 rs2 : RegNo) (s : State) : Out :=
  aluPlain (.andn p rd rs1 rs2) p false rd (fun x => x.reg rs1 &&& ~~~(x.reg rs2)) s
/-- ANDI (Table 10.7). -/
def execAndi (p : Proc) (rd rs1 : RegNo) (imm : BitVec 17) (s : State) : Out :=
  aluPlain (.andi p rd rs1 imm) p false rd (fun x => x.reg rs1 &&& imm.setWidth 32) s
/-- ORI (Table 10.7). -/
def execOri (p : Proc) (rd rs1 : RegNo) (imm : BitVec 17) (s : State) : Out :=
  aluPlain (.ori p rd rs1 imm) p false rd (fun x => x.reg rs1 ||| imm.setWidth 32) s
/-- XORI (Table 10.7). -/
def execXori (p : Proc) (rd rs1 : RegNo) (imm : BitVec 17) (s : State) : Out :=
  aluPlain (.xori p rd rs1 imm) p false rd (fun x => x.reg rs1 ^^^ imm.setWidth 32) s
/-- NOT (Table 10.5). -/
def execNot (p : Proc) (rd rs : RegNo) (s : State) : Out :=
  aluPlain (.not p rd rs) p true rd (fun x => ~~~(x.reg rs)) s
/-- NEG (Table 10.5). -/
def execNeg (p : Proc) (rd rs : RegNo) (s : State) : Out :=
  aluNzcv (.neg p rd rs) p true rd (fun x => subFlags 0#32 (x.reg rs) true) s
/-- LSL (Tables 10.5, 10.9, R245). -/
def execLsl (p : Proc) (rd rs1 rs2 : RegNo) (short : Bool) (s : State) : Out :=
  aluPlain (.lsl p rd rs1 rs2 short) p short rd (fun x => shl (x.first short rd rs1) (x.reg rs2)) s
/-- LSR (Tables 10.5, 10.9, R245). -/
def execLsr (p : Proc) (rd rs1 rs2 : RegNo) (short : Bool) (s : State) : Out :=
  aluPlain (.lsr p rd rs1 rs2 short) p short rd (fun x => shr (x.first short rd rs1) (x.reg rs2)) s
/-- ASR (Tables 10.5, 10.9, R245). -/
def execAsr (p : Proc) (rd rs1 rs2 : RegNo) (short : Bool) (s : State) : Out :=
  aluPlain (.asr p rd rs1 rs2 short) p short rd (fun x => sar (x.first short rd rs1) (x.reg rs2)) s
/-- ROR (Table 10.9, R245). -/
def execRor (p : Proc) (rd rs1 rs2 : RegNo) (s : State) : Out :=
  aluPlain (.ror p rd rs1 rs2) p false rd (fun x => ror (x.reg rs1) (x.reg rs2)) s
/-- LSLI (Table 10.7, R245). -/
def execLsli (p : Proc) (rd rs1 : RegNo) (n : Fin 32) (s : State) : Out :=
  aluPlain (.lsli p rd rs1 n) p false rd (fun x => shl (x.reg rs1) (BitVec.ofNat 32 n)) s
/-- LSRI (Table 10.7, R245). -/
def execLsri (p : Proc) (rd rs1 : RegNo) (n : Fin 32) (s : State) : Out :=
  aluPlain (.lsri p rd rs1 n) p false rd (fun x => shr (x.reg rs1) (BitVec.ofNat 32 n)) s
/-- ASRI (Table 10.7, R245). -/
def execAsri (p : Proc) (rd rs1 : RegNo) (n : Fin 32) (s : State) : Out :=
  aluPlain (.asri p rd rs1 n) p false rd (fun x => sar (x.reg rs1) (BitVec.ofNat 32 n)) s
/-- RORI (Table 10.7, R245). -/
def execRori (p : Proc) (rd rs1 : RegNo) (n : Fin 32) (s : State) : Out :=
  aluPlain (.rori p rd rs1 n) p false rd (fun x => ror (x.reg rs1) (BitVec.ofNat 32 n)) s
/-- CMP (Tables 10.5, 10.9). -/
def execCmp (p : Proc) (rs1 rs2 : RegNo) (short : Bool) (s : State) : Out :=
  aluFlags (.cmp p rs1 rs2 short) p short (fun x => (subFlags (x.reg rs1) (x.reg rs2) true).2) s
/-- CMN (Table 10.9). -/
def execCmn (p : Proc) (rs1 rs2 : RegNo) (s : State) : Out :=
  aluFlags (.cmn p rs1 rs2) p false (fun x => (addFlags (x.reg rs1) (x.reg rs2) false).2) s
/-- TST (Tables 10.5, 10.9). -/
def execTst (p : Proc) (rs1 rs2 : RegNo) (short : Bool) (s : State) : Out :=
  aluFlags (.tst p rs1 rs2 short) p short (fun x => nzFlags (x.reg rs1 &&& x.reg rs2) x.flags) s
/-- CMPI (Tables 10.4, 10.7). -/
def execCmpi (p : Proc) (rs1 : RegNo) (imm : BitVec 17) (short : Bool) (s : State) : Out :=
  aluFlags (.cmpi p rs1 imm short) p short (fun x => (subFlags (x.reg rs1) (imm.signExtend 32) true).2) s
/-- MIN (Table 10.9). -/
def execMin (p : Proc) (rd rs1 rs2 : RegNo) (s : State) : Out :=
  aluPlain (.min p rd rs1 rs2) p false rd (fun x => if (x.reg rs1).slt (x.reg rs2) then x.reg rs1 else x.reg rs2) s
/-- MAX (Table 10.9). -/
def execMax (p : Proc) (rd rs1 rs2 : RegNo) (s : State) : Out :=
  aluPlain (.max p rd rs1 rs2) p false rd (fun x => if (x.reg rs1).slt (x.reg rs2) then x.reg rs2 else x.reg rs1) s
/-- MINU (Table 10.9). -/
def execMinu (p : Proc) (rd rs1 rs2 : RegNo) (s : State) : Out :=
  aluPlain (.minu p rd rs1 rs2) p false rd (fun x => if x.reg rs1 < x.reg rs2 then x.reg rs1 else x.reg rs2) s
/-- MAXU (Table 10.9). -/
def execMaxu (p : Proc) (rd rs1 rs2 : RegNo) (s : State) : Out :=
  aluPlain (.maxu p rd rs1 rs2) p false rd (fun x => if x.reg rs1 < x.reg rs2 then x.reg rs2 else x.reg rs1) s
/-- CLZ (Table 10.9). -/
def execClz (p : Proc) (rd rs1 : RegNo) (s : State) : Out :=
  aluPlain (.clz p rd rs1) p false rd (fun x => clzW (x.reg rs1)) s
/-- SXTB (Table 10.9). -/
def execSxtb (p : Proc) (rd rs1 : RegNo) (s : State) : Out :=
  aluPlain (.sxtb p rd rs1) p false rd (fun x => ((x.reg rs1).setWidth 8).signExtend 32) s
/-- SXTH (Tables 10.5, 10.9). -/
def execSxth (p : Proc) (rd rs1 : RegNo) (short : Bool) (s : State) : Out :=
  aluPlain (.sxth p rd rs1 short) p short rd (fun x => ((x.reg rs1).setWidth 16).signExtend 32) s
/-- ZXTB (Table 10.9). -/
def execZxtb (p : Proc) (rd rs1 : RegNo) (s : State) : Out :=
  aluPlain (.zxtb p rd rs1) p false rd (fun x => ((x.reg rs1).setWidth 8).setWidth 32) s
/-- ZXTH (Tables 10.5, 10.9). -/
def execZxth (p : Proc) (rd rs1 : RegNo) (short : Bool) (s : State) : Out :=
  aluPlain (.zxth p rd rs1 short) p short rd (fun x => ((x.reg rs1).setWidth 16).setWidth 32) s
/-- CSEL (Table 10.9); condition 15 is an undefined encoding (Table 10.8, R236). -/
def execCsel (p : Proc) (rd rs1 rs2 : RegNo) (cond : Fin 16) (s : State) : Out :=
  regInstr (.csel p rd rs1 rs2 cond) p false (fun x => if cond = 15 then .error .undef else x.put rd (if condHolds x.flags cond then x.reg rs1 else x.reg rs2)) s
/-- REV (Table 10.9). -/
def execRev (p : Proc) (rd rs1 : RegNo) (s : State) : Out :=
  aluPlain (.rev p rd rs1) p false rd (fun x => revW (x.reg rs1)) s
/-- MUL (Tables 10.5, 10.10). -/
def execMul (p : Proc) (rd rs1 rs2 : RegNo) (short : Bool) (s : State) : Out :=
  aluPlain (.mul p rd rs1 rs2 short) p short rd (fun x => x.first short rd rs1 * x.reg rs2) s
/-- MULH (Table 10.10). -/
def execMulh (p : Proc) (rd rs1 rs2 : RegNo) (s : State) : Out :=
  aluPlain (.mulh p rd rs1 rs2) p false rd (fun x => wordOf (shrI ((x.reg rs1).toInt * (x.reg rs2).toInt) 32)) s
/-- MULHU (Table 10.10). -/
def execMulhu (p : Proc) (rd rs1 rs2 : RegNo) (s : State) : Out :=
  aluPlain (.mulhu p rd rs1 rs2) p false rd (fun x => BitVec.ofNat 32 ((x.reg rs1).toNat * (x.reg rs2).toNat / 2 ^ 32)) s
/-- DIV (Table 10.10). -/
def execDiv (p : Proc) (rd rs1 rs2 : RegNo) (s : State) : Out :=
  aluPlain (.div p rd rs1 rs2) p false rd (fun x => divS (x.reg rs1) (x.reg rs2)) s
/-- DIVU (Table 10.10). -/
def execDivu (p : Proc) (rd rs1 rs2 : RegNo) (s : State) : Out :=
  aluPlain (.divu p rd rs1 rs2) p false rd (fun x => divU (x.reg rs1) (x.reg rs2)) s
/-- REM (Table 10.10). -/
def execRem (p : Proc) (rd rs1 rs2 : RegNo) (s : State) : Out :=
  aluPlain (.rem p rd rs1 rs2) p false rd (fun x => remS (x.reg rs1) (x.reg rs2)) s
/-- REMU (Table 10.10). -/
def execRemu (p : Proc) (rd rs1 rs2 : RegNo) (s : State) : Out :=
  aluPlain (.remu p rd rs1 rs2) p false rd (fun x => remU (x.reg rs1) (x.reg rs2)) s

end Sys2Proof.Machine
end

