-- ==== Sys2Proof/Machine/LoadStore.lean ====
section
/-!
DEFINITION. Loads, stores, PUSH and POP (spec/10, R247 to R253), the limits on w15 (R298), and the lane's I/O page (spec/05, R101 to R105).
-/
namespace Sys2Proof.Machine

/-! ### A lane's data (R104, R105) -/

/-- The data-RAM address of offset `o` of lane `n`'s PARAM window: the active page of the activation's binding (R103). -/
def State.paramAddr (s : State) (n o : Nat) : Nat :=
  let page := match (s.laneOf n).act with
    | some a => s.get (R.LNC_Bb_STATUS_PARAM_ACTIVE a.binding)
    | none => 0
  laneDataBase n + 0xF000 + 0x800 * page + (o - 0x1000)

/-- Words `lo` and `hi` of an instant, by the offset within its block. -/
def timeWord (t : Time) (hi : Bool) : Nat := if hi then t.toNat / 2 ^ 32 else t.toNat % 2 ^ 32

/-- The read-only locations of the I/O page (Table 5.1): mailboxes, the activation, FEED, position latches. -/
def Lane.ioWord (l : Lane) (o : Nat) : Option Nat :=
  if o < 0x80 then
    let b := l.boxes.get {} (o / 16)
    some (match o % 16 with | 0 => b.sword.toNat | 4 => timeWord b.stime false | 8 => timeWord b.stime true | _ => b.sinfo)
  else if o < 0x90 then
    some (match o with | 0x80 => timeWord l.actT false | 0x84 => timeWord l.actT true | 0x88 => l.info | _ => unsigned 32 l.cap.feed)
  else if o < 0xB0 then
    let v := if o < 0xA0 then l.cap.pos0 else l.cap.pos1
    some (match o % 16 with | 0 => v.value | 4 => timeWord v.time false | 8 => timeWord v.time true | _ => v.info)
  else none

/-- Is `n` bytes at `a` within lane `k`'s data RAM? -/
def inLaneData (k a n : Nat) : Bool := decide (laneDataBase k ≤ a) && decide (a + n ≤ laneDataBase k + 0x10000)

/-- A load from memory. -/
def State.ramLoad (s : State) (w : Who) (at_ a n : Nat) : Except Exc (List Byte) × State :=
  match s.memRead w at_ n with
  | (some bs, s) => (.ok bs, s)
  | (none, s) => (.error (.ecc a false false), s)

/-- A load of lane `k` (R104, R105); an access elsewhere is a bus error. -/
def State.laneLoad (s : State) (k : Fin 16) (a n : Nat) : Except Exc (List Byte) × State :=
  let w : Who := ⟨.lane k, s.owner 1 k⟩
  let o := a - 0xE0000000
  if inLaneData k a n then s.ramLoad w a a n
  else if a < 0xE0000000 ∨ n ≠ 4 then (.error (.bus a false false), s)
  else if 0x1000 ≤ o ∧ o < 0x1800 then s.ramLoad w (s.paramAddr k o) a 4
  else match (s.laneOf k).ioWord o with
    | some v => (.ok (leBytes 4 v), s)
    | none => (.error (.bus a false false), s)

/-- A store to memory; a partial write into an uncorrectable line fails (R410). -/
def State.ramStore (s : State) (w : Who) (at_ a : Nat) (bs : List Byte) : Option Exc × State :=
  let (ok, s) := s.memWrite w at_ bs
  (if ok then none else some (.ecc a true false), s)

/-- A store of lane `k` (R104, R105, R110, R115). -/
def State.laneStore (s : State) (k : Fin 16) (a : Nat) (bs : List Byte) : Option Exc × State :=
  let w : Who := ⟨.lane k, s.owner 1 k⟩
  let o := a - 0xE0000000
  let v := BitVec.ofNat 32 (leNat bs)
  if inLaneData k a bs.length then s.ramStore w a a bs
  else if a < 0xE0000000 ∨ bs.length ≠ 4 then (some (.bus a true false), s)
  else if 0x1000 ≤ o ∧ o < 0x1800 then s.ramStore w (s.paramAddr k o) a bs
  else if 0x100 ≤ o ∧ o < 0x120 then
    (none, if o % 8 = 0 then s.outSend k ((o - 0x100) / 8) v else s.outHold k ((o - 0x100) / 8) v)
  else if o = 0x120 then (none, s.actDone k)
  else (some (.bus a true false), s)

/-! ### A processor's data -/

/-- A load of `n` bytes at `a`, aligned, by processor `p` at its level (R248, R386). -/
def State.dataLoad (s : State) (p : Proc) (a n : Nat) (rivals : List Nat) : Except Exc (List Byte) × State :=
  match p with
  | .lane k => s.laneLoad k a n
  | .core c =>
    if s.coreMay c (s.cpuAt c).lvl .read a n then
      match s.coreLoad c a n rivals with
      | (some bs, s) => (.ok bs, s)
      | (none, s) => (.error (.ecc a false false), s)
    else (.error (.bus a false false), s.refuse (.core c) (s.coreOwner c) .read a n ((s.cpuAt c).lvl == 0))

/-- A store by processor `p`; that of a core enters its store buffer (R284). -/
def State.dataStore (s : State) (p : Proc) (a : Nat) (bs : List Byte) (rivals : List Nat) : Option Exc × State :=
  match p with
  | .lane k => s.laneStore k a bs
  | .core c =>
    let lvl := (s.cpuAt c).lvl
    if s.coreMay c lvl .write a bs.length then (none, s.bufStore c lvl a bs rivals)
    else (some (.bus a true false), s.refuse (.core c) (s.coreOwner c) .write a bs.length (lvl == 0))

/-- Is a load held back, because it reads a busy flash array (R444)? -/
def State.dataHeld (s : State) (p : Proc) (a n : Nat) : Bool :=
  s.flashHeld a && match p with | .core c => s.coreMay c (s.cpuAt c).lvl .read a n | .lane _ => false

/-! ### Loads and stores (R247 to R250) -/

/-- The address of a form, and the base register that it changes with its new value; `scale` is s of R247. -/
def Cpu.ea (x : Cpu) (m : Addr) (scale : Nat) : Word × Option (RegNo × Word) :=
  match m with
  | .base rb imm => (x.reg rb + imm.signExtend 32, none)
  | .index rb ri => (x.reg rb + x.reg ri <<< scale, none)
  | .post rb imm => (x.reg rb, some (rb, x.reg rb + imm.signExtend 32))
  | .pre rb imm => (x.reg rb + imm.signExtend 32, some (rb, x.reg rb + imm.signExtend 32))
  | .abs imm => (x.cr 1 ||| imm.setWidth 32, none)
  | .shortBase rb imm => (x.reg rb + imm.setWidth 32 * 4#32, none)
  | .shortSp imm => (x.sp + imm.setWidth 32 * 4#32, none)
  | .shortAbs imm => (x.cr 1 ||| imm.setWidth 32 * 4#32, none)

/-- The base register takes its new value, under the stack limit (R249, R298). -/
def Cpu.putBase (x : Cpu) : Option (RegNo × Word) → Except Exc Cpu
  | some (rb, v) => x.put rb v
  | none => .ok x

/-- A load of `n` bytes that `ext` widens. -/
def loadInstr (i : Instr) (p : Proc) (rd : RegNo) (m : Addr) (n scale : Nat) (ext : Nat → Word) (rivals : List (Fin 18)) (s : State) : Out :=
  .next (s.issue i p (ilen m.short) fun s x =>
      let a := (x.ea m scale).1.toNat
      match x.putBase (x.ea m scale).2 with
      | .error e => .raise s e
      | .ok y =>
        if a % n ≠ 0 then .raise s (.align a false)
        else if s.dataHeld p a n then .wait
        else match s.dataLoad p a n (rivals.map (·.val)) with
          | (.error e, t) => .raise t e
          | (.ok bs, t) => match y.put rd (ext (leNat bs)) with
            | .error e => .raise t e
            | .ok z => .done t (z.advance (x.next m.short)))

/-- A store of the low `n` bytes of rd, as rd stood before the base register changes (R249). -/
def storeInstr (i : Instr) (p : Proc) (rd : RegNo) (m : Addr) (n scale : Nat) (rivals : List (Fin 18)) (s : State) : Out :=
  .next (s.issue i p (ilen m.short) fun s x =>
      let a := (x.ea m scale).1.toNat
      match x.putBase (x.ea m scale).2 with
      | .error e => .raise s e
      | .ok y =>
        if a % n ≠ 0 then .raise s (.align a true)
        else match s.dataStore p a (leBytes n (x.reg rd).toNat) (rivals.map (·.val)) with
          | (some e, t) => .raise t e
          | (none, t) => .done t (y.advance (x.next m.short)))

/-- LD.B (R247). -/
def execLdB (p : Proc) (rd : RegNo) (m : Addr) (rivals : List (Fin 18)) (s : State) : Out :=
  loadInstr (.ldB p rd m rivals) p rd m 1 0 (fun v => (BitVec.ofNat 8 v).signExtend 32) rivals s
/-- LD.BU (R247). -/
def execLdBu (p : Proc) (rd : RegNo) (m : Addr) (rivals : List (Fin 18)) (s : State) : Out :=
  loadInstr (.ldBu p rd m rivals) p rd m 1 0 (fun v => (BitVec.ofNat 8 v).setWidth 32) rivals s
/-- LD.H (R247). -/
def execLdH (p : Proc) (rd : RegNo) (m : Addr) (rivals : List (Fin 18)) (s : State) : Out :=
  loadInstr (.ldH p rd m rivals) p rd m 2 1 (fun v => (BitVec.ofNat 16 v).signExtend 32) rivals s
/-- LD.HU (R247). -/
def execLdHu (p : Proc) (rd : RegNo) (m : Addr) (rivals : List (Fin 18)) (s : State) : Out :=
  loadInstr (.ldHu p rd m rivals) p rd m 2 1 (fun v => (BitVec.ofNat 16 v).setWidth 32) rivals s
/-- LD.W (R239, R247, R250). -/
def execLdW (p : Proc) (rd : RegNo) (m : Addr) (rivals : List (Fin 18)) (s : State) : Out :=
  loadInstr (.ldW p rd m rivals) p rd m 4 2 (fun v => BitVec.ofNat 32 v) rivals s
/-- ST.B (R247). -/
def execStB (p : Proc) (rd : RegNo) (m : Addr) (rivals : List (Fin 18)) (s : State) : Out := storeInstr (.stB p rd m rivals) p rd m 1 0 rivals s
/-- ST.H (R247). -/
def execStH (p : Proc) (rd : RegNo) (m : Addr) (rivals : List (Fin 18)) (s : State) : Out := storeInstr (.stH p rd m rivals) p rd m 2 1 rivals s
/-- ST.W (R239, R247, R250). -/
def execStW (p : Proc) (rd : RegNo) (m : Addr) (rivals : List (Fin 18)) (s : State) : Out := storeInstr (.stW p rd m rivals) p rd m 4 2 rivals s

/-! ### PUSH and POP (R251) -/

/-- Store words from `a` upward: how many were stored, and the exception of the one that was not. -/
def State.pushWords (s : State) (p : Proc) (rivals : List Nat) : Nat → List Word → Nat × Option Exc × State
  | _, [] => (0, none, s)
  | a, v :: vs =>
    match s.dataStore p (a % 2 ^ 32) (leBytes 4 v.toNat) rivals with
    | (some e, t) => (0, some e, t)
    | (none, t) => let (i, r) := t.pushWords p rivals (a + 4) vs
                   (i + 1, r)

/-- Load `n` words from `a` upward: those loaded, and the exception of the one that was not. -/
def State.popWords (s : State) (p : Proc) (rivals : List Nat) : Nat → Nat → List Word × Option Exc × State
  | 0, _ => ([], none, s)
  | n + 1, a =>
    match s.dataLoad p (a % 2 ^ 32) 4 rivals with
    | (.error e, t) => ([], some e, t)
    | (.ok bs, t) => let (vs, r) := t.popWords p rivals n (a + 4)
                     (BitVec.ofNat 32 (leNat bs) :: vs, r)

/-- Registers take words in order. -/
def Cpu.setRegs (x : Cpu) (rs : List Nat) (vs : List Word) : Cpu := (rs.zip vs).foldl (fun x e => x.setReg e.1 e.2) x

/-- The registers that a list of bits names, `first` standing at bit 0. -/
def regsIn (mask first : Nat) : List Nat := ((List.range 16).filter fun k => bit mask k).map (· + first)

/-- A push of registers `rs`. Where a store fails, any number of the words before it may have been written (R237). -/
def pushInstr (i : Instr) (p : Proc) (short : Bool) (rs : List Nat) (rivals : List (Fin 18)) (s : State) : Out :=
  .next (s.issue i p (ilen short) fun s x =>
      let v := x.sp - BitVec.ofNat 32 (4 * rs.length)
      let ws := rs.map x.reg
      let rv := rivals.map (·.val)
      match x.put 15 v with
      | .error e => .raise s e
      | .ok y =>
        if v.toNat % 4 ≠ 0 then .raise s (.align v.toNat true)
        else match s.pushWords p rv v.toNat ws with
          | (_, none, t) => .done t (y.advance (x.next short))
          | (i, some e, _) =>
            let (f, s) := s.fresh
            let s := (s.pushWords p rv v.toNat (ws.take (f % (i + 1)))).2.2
            .raise (s.dataStore p ((v.toNat + 4 * i) % 2 ^ 32) (leBytes 4 (ws.getD i 0#32).toNat) rv).2 e)

/-- A pop of registers `rs` and, where `pc` holds, of pc. Where a load fails or pc is odd, any number of the registers before it may
have been loaded (R237); sp and pc stay. -/
def popInstr (i : Instr) (p : Proc) (short pc : Bool) (rs : List Nat) (rivals : List (Fin 18)) (s : State) : Out :=
  .next (s.issue i p (ilen short) fun s x =>
    let n := rs.length + pc.toNat
    let v := x.sp + BitVec.ofNat 32 (4 * n)
    let some_ (s : State) (vs : List Word) : State :=
      let (f, s) := s.fresh
      s.setCpuAt p.key (x.setRegs rs (vs.take (f % (vs.length + 1))))
    match x.put 15 v with
      | .error e => .raise s e
      | .ok y =>
        if x.sp.toNat % 4 ≠ 0 then .raise s (.align x.sp.toNat false)
        else if (List.range n).any fun i => s.dataHeld p ((x.sp.toNat + 4 * i) % 2 ^ 32) 4 then .wait
        else match s.popWords p (rivals.map (·.val)) n x.sp.toNat with
          | (vs, some e, t) => .raise (some_ t vs) e
          | (vs, none, t) =>
            let z := y.setRegs rs vs
            let target := vs.getLastD 0#32
            if !pc then .done t (z.advance (x.next short))
            else if target.getLsbD 0 then .raise (some_ t (vs.take rs.length)) (.align target.toNat false)
            else .jump t (z.transfer target))

/-- PUSH (R251). -/
def execPush (p : Proc) (list : BitVec 8) (xl : Bool) (rivals : List (Fin 18)) (s : State) : Out :=
  pushInstr (.push p list xl rivals) p true (regsIn list.toNat 4 ++ if xl then [14] else []) rivals s
/-- POP (R251). -/
def execPop (p : Proc) (list : BitVec 8) (xl : Bool) (rivals : List (Fin 18)) (s : State) : Out :=
  popInstr (.pop p list xl rivals) p true xl (regsIn list.toNat 4) rivals s
/-- PUSHM (R251). -/
def execPushm (p : Proc) (mask : BitVec 16) (rivals : List (Fin 18)) (s : State) : Out :=
  pushInstr (.pushm p mask rivals) p false (regsIn mask.toNat 0) rivals s
/-- POPM (R251). -/
def execPopm (p : Proc) (mask : BitVec 16) (rivals : List (Fin 18)) (s : State) : Out :=
  popInstr (.popm p mask rivals) p false (mask.getLsbD 15) (regsIn (mask.toNat % 2 ^ 15) 0) rivals s

end Sys2Proof.Machine
end

