-- ==== Sys2Proof/Machine/Control.lean ====
section
/-!
DEFINITION. Branches, jumps, hardware loops and the system instructions (spec/10, R242, R252 to R255, R262, R264; spec/12, R231 to R233,
R298, R301, R307).
-/
namespace Sys2Proof.Machine

/-! ### Branches and jumps (R252, R253) -/

/-- A branch by `off` halfwords if `c` holds. -/
def branch (i : Instr) (p : Proc) (short : Bool) (off : Word) (c : Cpu → Bool) (s : State) : Out :=
  .next (s.issue i p (ilen short) fun s x =>
    if c x then .jump s (x.transfer (x.pc + off * 2#32)) else .done s (x.advance (x.next short)))

/-- A jump to a register's value; a link goes to `link` under the stack limit (R253, R294). -/
def jump (i : Instr) (p : Proc) (short : Bool) (rs : RegNo) (link : Option RegNo) (s : State) : Out :=
  .next (s.issue i p (ilen short) fun s x =>
    let t := x.reg rs
    match (match link with | some r => x.put r (x.next short) | none => .ok x) with
    | .error e => .raise s e
    | .ok y => if t.getLsbD 0 then .raise s (.align t.toNat false) else .jump s (y.transfer t))

/-- Bcc (R242). -/
def execBcc (p : Proc) (cond : Fin 16) (off : BitVec 21) (short : Bool) (s : State) : Out :=
  if cond = 15 then .next (s.issue (.bcc p cond off short) p (ilen short) fun s _ => .raise s .undef)
  else branch (.bcc p cond off short) p short (off.signExtend 32) (fun x => condHolds x.flags cond) s
/-- BR (R252). -/
def execBr (p : Proc) (off : BitVec 25) (short : Bool) (s : State) : Out := branch (.br p off short) p short (off.signExtend 32) (fun _ => true) s
/-- BL (R252). -/
def execBl (p : Proc) (off : BitVec 25) (s : State) : Out :=
  .next (s.issue (.bl p off) p 4 fun s x => .jump s ((x.setReg 14 (x.pc + 4#32)).transfer (x.pc + off.signExtend 32 * 2#32)))
/-- JR (R253). -/
def execJr (p : Proc) (rs : RegNo) (s : State) : Out := jump (.jr p rs) p true rs none s
/-- JLR (R252, R253): the 16-bit form links in lk. -/
def execJlr (p : Proc) (rd rs1 : RegNo) (short : Bool) (s : State) : Out := jump (.jlr p rd rs1 short) p short rs1 (some (if short then 14 else rd)) s
/-- RET (R253). -/
def execRet (p : Proc) (s : State) : Out := jump (.ret p) p true 14 none s
/-- CBZ (Table 10.7). -/
def execCbz (p : Proc) (rs : RegNo) (off : BitVec 20) (s : State) : Out :=
  branch (.cbz p rs off) p false (off.signExtend 32) (fun x => x.reg rs == 0#32) s
/-- CBNZ (Table 10.7). -/
def execCbnz (p : Proc) (rs : RegNo) (off : BitVec 20) (s : State) : Out :=
  branch (.cbnz p rs off) p false (off.signExtend 32) (fun x => x.reg rs != 0#32) s

/-! ### LOOP (R262, R264) -/

/-- Is a LOOP for loop `k` with body [ls, le) forbidden (R264)? -/
def Cpu.loopForbidden (x : Cpu) (k : Nat) (ls le : Word) : Bool :=
  x.la k || (k == 1 && x.la 0) || (k == 0 && x.la 1 && !(decide (x.ls 1 ≤ ls) && decide (le ≤ x.le 1)))

/-- Loop `k` starts with a body of `len` halfwords and a count. -/
def Cpu.startLoop (x : Cpu) (k len : Nat) (n : Word) : Cpu :=
  let ls := x.pc + 4#32
  let le := ls + BitVec.ofNat 32 (2 * len)
  let y := ((x.setCr (lsNo k) ls).setCr (leNo k) le).setCr (lcNo k) n
  if n = 0#32 then y.advance le else (y.setLa k true).advance ls

/-- LOOP (R262, R264). -/
def execLoop (p : Proc) (x : Bool) (imm : Bool) (count : BitVec 9) (len : BitVec 8) (rc : RegNo) (s : State) : Out :=
  .next (s.issue (.loop p x imm count len rc) p 4 fun s y =>
    let ls := y.pc + 4#32
    let le := ls + BitVec.ofNat 32 (2 * len.toNat)
    if y.loopForbidden x.toNat ls le then .raise s .undef
    else .done s (y.startLoop x.toNat len.toNat (if imm then count.setWidth 32 else y.reg rc)))

/-! ### Control registers (R231 to R233) -/

/-- The lowest level that may read a control register (Table 10.2). -/
def readLevel (n : Nat) : Nat := match n with | 0x10 | 0x11 | 0x14 => 1 | 0x12 | 0x13 => 2 | _ => 0
/-- The lowest level that may write a control register; none where it cannot be written (Table 10.2). -/
def writeLevel (n : Nat) : Option Nat :=
  match n with
  | 0x10 => some 1
  | 0x11 | 0x12 | 0x13 => some 2
  | 0x14 | 0x18 | 0x19 | 0x1A | 0x1B => none
  | _ => (ctlMask n).map fun _ => 0

/-- MFC (R232, R233). -/
def execMfc (p : Proc) (rd : RegNo) (num : BitVec 8) (s : State) : Out :=
  .next (s.issue (.mfc p rd num) p 4 fun s x =>
    match s.ctlRead p.key num.toNat with
    | none => .raise s .undef
    | some v =>
      if x.lvl < readLevel num.toNat then .raise s .priv
      else match x.put rd v with
        | .error e => .raise s e
        | .ok y => .done s (y.advance (x.next false)))

/-- PS after an MTC of `v` at the level of `x` (R231). -/
def Cpu.psWritten (x : Cpu) (v : Word) : Cpu :=
  let m : Word := match x.lvl with | 0 => 0xF8000000#32 | _ => psMask
  { x with ps := (x.ps &&& ~~~m) ||| (v &&& m) }

/-- MTC PS (R231, R264, R298). -/
def Cpu.mtcPs (x : Cpu) (v : Word) : Except Exc Cpu :=
  let l := bitsOf v.toNat 8 2
  let y := x.psWritten v
  if l = 3 ∨ y.loopsOk = false then .error .undef
  else if x.lvl = 1 ∧ l = 2 then .error .priv
  else if y.lvl ≠ x.lvl ∧ y.sp < y.limit y.lvl then .error (.stack y.sp)
  else .ok y

/-- MTC (R232, R233, R264). -/
def Cpu.mtc (x : Cpu) (n : Nat) (v : Word) : Except Exc Cpu :=
  match writeLevel n with
  | none => .error .undef
  | some l =>
    if n = 0 then x.mtcPs v
    else if x.lvl < l then .error .priv
    else
      let y := x.ctlWrite n v
      if y.loopsOk then .ok y else .error .undef

/-- MTC (R231 to R233). -/
def execMtc (p : Proc) (num : BitVec 8) (rs : RegNo) (s : State) : Out :=
  regInstr (.mtc p num rs) p false (fun x => x.mtc num.toNat (x.reg rs)) s

/-! ### SWI, BRK, WFI, SYNC (R254, R255, R307, R512) -/

/-- SWI (R254): the exception follows the completed instruction (R292). -/
def execSwi (p : Proc) (num : BitVec 8) (s : State) : Out :=
  .next (s.issue (.swi p num) p 4 fun _ x => .trap (x.advance (x.next false)) (.swi num.toNat))

/-- Does BRK halt processor `p` for debug: HALT_ON_BRK with an open scope (R512, R515)? -/
def State.brkHalts (s : State) (p : Proc) : Bool :=
  s.on (R.DBG_Cc_CTRL_HALT_ON_BRK p.key) && s.coreScope p.key

/-- BRK (R254, R512). -/
def execBrk (p : Proc) (num : BitVec 8) (s : State) : Out :=
  .next (s.issue (.brk p num) p 4 fun s x =>
    let y := x.advance (x.next false)
    if s.brkHalts p then .halt y else .trap y (.brk num.toNat))

/-- WFI (R254, R267, R307). -/
def execWfi (p : Proc) (s : State) : Out :=
  .next (s.issue (.wfi p) p 4 fun s x =>
    match p with
    | .lane _ => .raise s .undef
    | .core _ => if x.lvl = 0 then .raise s .priv else .done s { x.advance (x.next false) with wfi := true })

/-- SYNC (R255, R284): it waits until the store buffer is empty. -/
def execSync (p : Proc) (s : State) : Out :=
  .next (s.issue (.sync p) p 4 fun s x =>
    .done (match p with | .core c => s.drainAll c | .lane _ => s) (x.advance (x.next false)))
/-- The fetch buffers of core `c` forget everything (R281). -/
def State.fetchAfresh (s : State) (c : Fin 9) : State := s.setBuf c { stores := (s.buf c).stores, since := (s.buf c).since }
/-- SYNC.I (R255, R281, R284): it waits until the store buffer is empty, and what follows is fetched afresh. -/
def execSyncI (p : Proc) (s : State) : Out :=
  .next (s.issue (.syncI p) p 4 fun s x =>
    .done (match p with | .core c => (s.drainAll c).fetchAfresh c | .lane _ => s) (x.advance (x.next false)))

/-! ### RFE (R301) -/

/-- The twelve words of a frame as read. -/
def frameWords (bs : List Byte) : Nat → Word := fun o => BitVec.ofNat 32 (leNat ((bs.drop o).take 4))

/-- The processor after RFE from frame `f`; the exception of the first check that fails (R301, R302). -/
def Cpu.unstack (x : Cpu) (f : Nat → Word) : Except Exc Cpu :=
  let ps := f 0x28
  let pc := f 0x2C
  let l := bitsOf ps.toNat 8 2
  let st := (f 0).toNat
  let half (k : Nat) : Word := BitVec.ofNat 32 (2 * (st / 2 ^ (8 * k) % 256))
  let loop (x : Cpu) (k : Nat) : Cpu :=
    if ps.getLsbD k then (x.setCr (lsNo k) (pc - half (2 * k))).setCr (leNo k) (pc + half (2 * k + 1)) else x
  let y := loop (loop { x with ps := ps &&& psMask } 0) 1
  if l = 3 ∨ (x.cr 0x14).toNat % 4 < l ∨ x.lvl < l then .error .priv
  else if pc.getLsbD 0 then .error (.align pc.toNat false)
  else if y.loopsOk = false then .error .undef
  else
    let y := y.setRegs [0, 1, 2, 3, 4, 5, 14] [f 0x24, f 0x20, f 0x1C, f 0x18, f 0x14, f 0x10, f 0x0C]
    let y := (y.setCr 2 (f 8)).setCr 5 (f 4)
    .ok { y.setReg 15 (x.sp + 48#32 + if ps.getLsbD 2 then 4#32 else 0#32) with pc := pc }

/-- RFE (R301): the frame is read in ascending order. Back at 0x804, a suspended service goes on (R455); back in the routine of ROM's default
table, the core waits again (R308). -/
def execRfe (p : Proc) (rivals : List (Fin 18)) (s : State) : Out :=
  .next (match p with
    | .lane _ => s.issue (.rfe p rivals) p 4 fun s _ => .raise s .undef
    | .core c =>
      let back := fun (t : State) => 
        if (t.cpuAt c).pc == 0x804#32 && !(s.cpuAt c).inService then t.svcResume c
        else if (t.cpuAt c).rom == some (t.cpuAt c).pc then t.setCpuAt c { t.cpuAt c with wfi := true } else t
      back (s.issue (.rfe p rivals) p 4 fun s x =>
        if x.lvl = 0 then .raise s .priv
        else if x.sp.toNat % 4 ≠ 0 then .raise s (.align x.sp.toNat false)
        else match s.popWords p (rivals.map (·.val)) 12 x.sp.toNat with
          | (_, some e, t) => .raise t e
          | (vs, none, t) => match x.unstack (fun o => vs.getD (o / 4) 0#32) with
            | .error e => .raise t e
            | .ok y => .done (t.put (R.CPS_NMI_ACTIVE c) ((vs.getD 10 0#32).getLsbD 3).toNat) y))

end Sys2Proof.Machine
end

