-- ==== Sys2Proof/Machine/Fixed.lean ====
section
/-!
DEFINITION. The control extension: saturating fixed point and multiply-accumulate (spec/10, R256 to R258).
-/
namespace Sys2Proof.Machine

/-- A result that sets Q where it saturates (R257). -/
def aluSat (i : Instr) (p : Proc) (rd : RegNo) (f : Cpu → Word × Bool) (s : State) : Out :=
  regInstr i p false (fun x => (x.put rd (f x).1).map fun y => y.stickQ (f x).2) s

/-- The pair {w(rd + 1) : rd} takes a value; an odd rd and w14 are undefined encodings (R258). -/
def aluPair (i : Instr) (p : Proc) (rd : RegNo) (f : Cpu → Nat → Nat) (s : State) : Out :=
  regInstr i p false (fun x =>
    if rd.val % 2 = 1 ∨ rd = 14 then .error .undef
    else
      let v := f x ((x.reg rd).toNat + 2 ^ 32 * (x.reg (rd.val + 1)).toNat)
      .ok ((x.setReg rd (BitVec.ofNat 32 v)).setReg (rd.val + 1) (BitVec.ofNat 32 (v / 2 ^ 32)))) s

/-- QADD (Table 10.12). -/
def execQadd (p : Proc) (rd rs1 rs2 : RegNo) (s : State) : Out :=
  aluSat (.qadd p rd rs1 rs2) p rd (fun x => sat32 ((x.reg rs1).toInt + (x.reg rs2).toInt)) s
/-- QSUB (Table 10.12). -/
def execQsub (p : Proc) (rd rs1 rs2 : RegNo) (s : State) : Out :=
  aluSat (.qsub p rd rs1 rs2) p rd (fun x => sat32 ((x.reg rs1).toInt - (x.reg rs2).toInt)) s
/-- QNEG (Table 10.12). -/
def execQneg (p : Proc) (rd rs1 : RegNo) (s : State) : Out :=
  aluSat (.qneg p rd rs1) p rd (fun x => sat32 (-(x.reg rs1).toInt)) s
/-- QABS (Table 10.12). -/
def execQabs (p : Proc) (rd rs1 : RegNo) (s : State) : Out :=
  aluSat (.qabs p rd rs1) p rd (fun x => sat32 (((x.reg rs1).toInt).natAbs : Int)) s
/-- QMUL (Table 10.12). -/
def execQmul (p : Proc) (rd rs1 rs2 : RegNo) (s : State) : Out :=
  aluSat (.qmul p rd rs1 rs2) p rd (fun x => sat32 (shrI ((x.reg rs1).toInt * (x.reg rs2).toInt + 2 ^ 30) 31)) s
/-- QMULH (Table 10.12). -/
def execQmulh (p : Proc) (rd rs1 rs2 : RegNo) (s : State) : Out :=
  aluSat (.qmulh p rd rs1 rs2) p rd (fun x => sat16 (shrI (lowHalf (x.reg rs1) * lowHalf (x.reg rs2) + 2 ^ 14) 15)) s
/-- QSHL (Table 10.12). -/
def execQshl (p : Proc) (rd rs1 rs2 : RegNo) (s : State) : Out :=
  aluSat (.qshl p rd rs1 rs2) p rd (fun x => sat32 ((x.reg rs1).toInt * 2 ^ ((x.reg rs2).toNat % 256))) s
/-- SAT (Table 10.12): `n` is the encoded n - 1. -/
def execSat (p : Proc) (rd rs1 : RegNo) (n : Fin 32) (s : State) : Out :=
  aluSat (.sat p rd rs1 n) p rd (fun x => saturate (-(2 ^ n.val)) (2 ^ n.val - 1) (x.reg rs1).toInt) s
/-- SATU (Table 10.12): `n` is the encoded n - 1. -/
def execSatu (p : Proc) (rd rs1 : RegNo) (n : Fin 32) (s : State) : Out :=
  aluSat (.satu p rd rs1 n) p rd (fun x => saturate 0 (2 ^ (n.val + 1) - 1) (x.reg rs1).toInt) s
/-- CLAMP (Table 10.12, R257). -/
def execClamp (p : Proc) (rd rs1 rs2 : RegNo) (s : State) : Out :=
  aluSat (.clamp p rd rs1 rs2) p rd (fun x =>
    let v : Int := min (max (x.reg rd).toInt (x.reg rs1).toInt) (x.reg rs2).toInt
    (wordOf v, decide (v ≠ (x.reg rd).toInt))) s
/-- MAC (Table 10.13). -/
def execMac (p : Proc) (rd rs1 rs2 : RegNo) (s : State) : Out :=
  regInstr (.mac p rd rs1 rs2) p false (fun x => x.put rd (x.reg rd + x.reg rs1 * x.reg rs2)) s
/-- MSU (Table 10.13). -/
def execMsu (p : Proc) (rd rs1 rs2 : RegNo) (s : State) : Out :=
  regInstr (.msu p rd rs1 rs2) p false (fun x => x.put rd (x.reg rd - x.reg rs1 * x.reg rs2)) s
/-- QMAC (Table 10.13). -/
def execQmac (p : Proc) (rd rs1 rs2 : RegNo) (s : State) : Out :=
  aluSat (.qmac p rd rs1 rs2) p rd (fun x => qmac false (x.reg rd) (x.reg rs1) (x.reg rs2)) s
/-- QMSU (Table 10.13). -/
def execQmsu (p : Proc) (rd rs1 rs2 : RegNo) (s : State) : Out :=
  aluSat (.qmsu p rd rs1 rs2) p rd (fun x => qmac true (x.reg rd) (x.reg rs1) (x.reg rs2)) s
/-- MACL (Table 10.13). -/
def execMacl (p : Proc) (rd rs1 rs2 : RegNo) (s : State) : Out :=
  aluPair (.macl p rd rs1 rs2) p rd (fun x v => (((v : Int) + (x.reg rs1).toInt * (x.reg rs2).toInt) % 2 ^ 64).toNat) s
/-- MACLU (Table 10.13). -/
def execMaclu (p : Proc) (rd rs1 rs2 : RegNo) (s : State) : Out :=
  aluPair (.maclu p rd rs1 rs2) p rd (fun x v => (v + (x.reg rs1).toNat * (x.reg rs2).toNat) % 2 ^ 64) s

end Sys2Proof.Machine
end

