-- ==== Sys2Proof/Machine/Fp.lean ====
section
/-!
DEFINITION. The FP32 instructions (spec/10, R259 to R261).
-/
namespace Sys2Proof.Machine

/-- RM of FPCS (R259). -/
def Cpu.rm (x : Cpu) : Nat := (x.cr 8).toNat / 256 % 4
/-- The sticky flags of FPCS (R259). -/
def Cpu.stickFp (x : Cpu) (f : FpFlags) : Cpu := x.setCr 8 (x.cr 8 ||| BitVec.ofNat 32 (f % 16))

/-- An FP32 result and its sticky flags. -/
def fpInstr (i : Instr) (p : Proc) (rd : RegNo) (f : Cpu → Word × FpFlags) (s : State) : Out :=
  regInstr i p false (fun x => (x.put rd (f x).1).map fun y => y.stickFp (f x).2) s

/-- FADD (Table 10.14). -/
def execFadd (p : Proc) (rd rs1 rs2 : RegNo) (s : State) : Out :=
  fpInstr (.fadd p rd rs1 rs2) p rd (fun x => fpAdd x.rm (x.reg rs1) (x.reg rs2)) s
/-- FSUB (Table 10.14). -/
def execFsub (p : Proc) (rd rs1 rs2 : RegNo) (s : State) : Out :=
  fpInstr (.fsub p rd rs1 rs2) p rd (fun x => fpSub x.rm (x.reg rs1) (x.reg rs2)) s
/-- FMUL (Table 10.14). -/
def execFmul (p : Proc) (rd rs1 rs2 : RegNo) (s : State) : Out :=
  fpInstr (.fmul p rd rs1 rs2) p rd (fun x => fpMul x.rm (x.reg rs1) (x.reg rs2)) s
/-- FMADD (Table 10.14). -/
def execFmadd (p : Proc) (rd rs1 rs2 : RegNo) (s : State) : Out :=
  fpInstr (.fmadd p rd rs1 rs2) p rd (fun x => fpMadd x.rm false (x.reg rd) (x.reg rs1) (x.reg rs2)) s
/-- FMSUB (Table 10.14). -/
def execFmsub (p : Proc) (rd rs1 rs2 : RegNo) (s : State) : Out :=
  fpInstr (.fmsub p rd rs1 rs2) p rd (fun x => fpMadd x.rm true (x.reg rd) (x.reg rs1) (x.reg rs2)) s
/-- FMIN (Table 10.14). -/
def execFmin (p : Proc) (rd rs1 rs2 : RegNo) (s : State) : Out :=
  fpInstr (.fmin p rd rs1 rs2) p rd (fun x => fpMinMax false (x.reg rs1) (x.reg rs2)) s
/-- FMAX (Table 10.14). -/
def execFmax (p : Proc) (rd rs1 rs2 : RegNo) (s : State) : Out :=
  fpInstr (.fmax p rd rs1 rs2) p rd (fun x => fpMinMax true (x.reg rs1) (x.reg rs2)) s
/-- FABS (Table 10.14). -/
def execFabs (p : Proc) (rd rs1 : RegNo) (s : State) : Out :=
  regInstr (.fabs p rd rs1) p false (fun x => x.put rd (x.reg rs1 &&& 0x7FFFFFFF#32)) s
/-- FNEG (Table 10.14). -/
def execFneg (p : Proc) (rd rs1 : RegNo) (s : State) : Out :=
  regInstr (.fneg p rd rs1) p false (fun x => x.put rd (x.reg rs1 ^^^ 0x80000000#32)) s
/-- FCMP (R261). -/
def execFcmp (p : Proc) (rs1 rs2 : RegNo) (s : State) : Out :=
  regInstr (.fcmp p rs1 rs2) p false (fun x => .ok ((x.setFlags (fpCmp (x.reg rs1) (x.reg rs2)).1).stickFp (fpCmp (x.reg rs1) (x.reg rs2)).2)) s
/-- FTOQ (Table 10.14). -/
def execFtoq (p : Proc) (rd rs1 : RegNo) (f : Fin 32) (s : State) : Out :=
  fpInstr (.ftoq p rd rs1 f) p rd (fun x => fpToQ x.rm (x.reg rs1) f) s
/-- FFROMQ (Table 10.14). -/
def execFfromq (p : Proc) (rd rs1 : RegNo) (f : Fin 32) (s : State) : Out :=
  fpInstr (.ffromq p rd rs1 f) p rd (fun x => fpFromQ x.rm (x.reg rs1) f) s

end Sys2Proof.Machine
end

