-- ==== Sys2Proof/Machine/Rom.lean ====
section
/-!
DEFINITION. The flash services of ROM (spec/20, R445 to R467). A service row acts for a core that stands at the gate with the row's number
in w0.
-/
namespace Sys2Proof.Machine

/-- A call as a service sees it: the core, its view and level, the argument words, BLOCKING, and lk. -/
structure Call where
  core  : Fin 9
  view  : Nat
  lvl   : Nat
  arg   : List Nat
  block : Bool
  lk    : Nat
  deriving DecidableEq, Repr

/-- Argument word `k`. -/
def Call.word (x : Call) (k : Nat) : Nat := x.arg.getD k 0

/-- Does core `c` stand at the gate, at its start or after an NMI there, and may it go on (R446, R455)? -/
def State.atGate (s : State) (c : Fin 9) : Bool :=
  let x := s.cpuAt c
  s.atBoundary c && !s.nmiMay c && (x.pc == 0x800#32 || (x.pc == 0x804#32 && (s.svcOf c).isEmpty))

/-- May the caller access `n` bytes at `a` in its own view (R446)? -/
def State.svcMay (s : State) (c : Fin 9) (lvl : Nat) (k : Access) (a n : Nat) : Bool :=
  decide (a + n ≤ 2 ^ 32) && s.coreMay c lvl k a n && s.coreMay c lvl k (a + n - 1) 1

/-- The first code whose check fails (Table 20.4). -/
def firstCode (l : List (Nat × Bool)) : Option Nat := (l.find? fun e => e.2).map (·.1)

/-- Service `k`, whose argument block lists the words `listed`, with its checks and its effect (R445, R448). -/
def State.service (s : State) (c : Fin 9) (k : Nat) (listed : List Nat) (checks : State → Call → List (Nat × Bool))
    (act : Call → State → State) : State :=
  let x := s.cpuAt c
  let num := (x.reg 0).toNat
  let reserved := num == 0 || decide (12 ≤ num)
  if !s.atGate c || (!reserved && num != k) then s
  else if x.lvl = 0 then s.raiseAt (.core c) .priv 0x800#32
  else
    let a := (x.reg 1).toNat
    if reserved || a % 4 != 0 || decide (2 ≤ (x.reg 2).toNat) || !s.svcMay c x.lvl .read a 32 then s.svcReturn c 7 none none
    else match s.memRead (s.coreWho c) a 32 with
      | (none, s) => s.raiseAt (.core c) (.ecc a false false) 0x800#32
      | (some bs, s) =>
        let call : Call := ⟨c, s.coreOwner c, x.lvl, (List.range 8).map fun i => leNat ((bs.drop (4 * i)).take 4), (x.reg 2).getLsbD 0, (x.reg 14).toNat⟩
        let extra := (List.range 8).any fun i => !listed.contains i && call.word i != 0
        match firstCode ((7, extra) :: checks s call) with
        | some e => s.svcReturn c e none none
        | none => act call s

/-- May the caller name flash block `k`: one of its window, or for the platform one of no partition's (R448)? -/
def State.mayName (s : State) (view k : Nat) : Bool :=
  let within (p : Nat) : Bool := decide (s.get (R.PART_Pn_FLASH_FIRST p) ≤ k) &&
    decide (k < s.get (R.PART_Pn_FLASH_FIRST p) + s.get (R.PART_Pn_FLASH_COUNT p))
  if view = platform then !(List.range 8).any within else decide (view < 8) && within view

/-- The blocks of a range. -/
def blocksOf (a n : Nat) : List Nat := (List.range (flashBlock (a + n - 1) - flashBlock a + 1)).map (· + flashBlock a)

/-- Is a range one of user flash in whole units (PROGRAM and READ, Table 20.5)? -/
def flashRange (a n : Nat) : Bool :=
  a % 32 == 0 && n % 32 == 0 && decide (32 ≤ n) && decide (n ≤ 4096) && decide (0x08000000 ≤ a) && decide (a + n ≤ 0x0A000000)

/-- Does the target array hold lk without BLOCKING (R453)? -/
def Call.sameBank (x : Call) (b : Nat) : Bool :=
  !x.block && decide (0x08000000 ≤ x.lk) && decide (x.lk < 0x0A040000) && flashArray x.lk == b

/-- Start an operation on array `b` (R447, R454, R458). -/
def State.startOp (s : State) (x : Call) (b : Nat) (op : FlashOp) : State :=
  let warn := s.flashWarn
  let s := s.setFlashOp b { op with state := if warn then 3 else 1, owner := x.view, flags := warn.toNat + 4 * x.block.toNat, core := some x.core.val }
  if x.block then
    (s.setCpuAt x.core { s.cpuAt x.core with pc := 0x804#32 }).setSvc x.core ({ bank := b } :: s.svcOf x.core)
  else s.svcReturn x.core 0 none none

/-- PROGRAM (R449, R450). -/
def execFlashProgram (c : Fin 9) (s : State) : Out :=
  .next (s.service c 1 [0, 1, 2]
    (fun s x =>
      let (a, src, n) := (x.word 0, x.word 1, x.word 2)
      let b := flashArray a
      [(7, !flashRange a n || src % 4 != 0 || !s.svcMay c x.lvl .read src n),
       (8, (blocksOf a n).any fun k => !s.mayName x.view k),
       (3, (blocksOf a n).any fun k => (s.flash.lock.find? (·.1 == k)).isSome),
       (1, (s.flashOp b).busy), (2, x.sameBank b),
       (6, (blocksOf a n).any fun k => s.flash.incom.get false k)])
    (fun x s => s.startOp x (flashArray (x.word 0)) { op := 1, addr := x.word 0, src := x.word 1, len := x.word 2 }))

/-- ERASE (R449, R451): the journal entry and the count come first. -/
def execFlashErase (c : Fin 9) (s : State) : Out :=
  .next (s.service c 2 [0]
    (fun s x =>
      let k := x.word 0
      [(7, decide (512 ≤ k)), (8, !s.mayName x.view k), (3, (s.flash.lock.find? (·.1 == k)).isSome),
       (1, (s.flashOp (k / 128)).busy), (2, x.sameBank (k / 128))])
    (fun x s => (s.eraseStart x.view (x.word 0)).startOp x (x.word 0 / 128) { op := 2, addr := blockBase (x.word 0), len := 0x10000 }))

/-- May the caller suspend or resume the operation of array `b`: its owner, or the platform (R456)? -/
def State.notOpOwner (s : State) (x : Call) (b : Nat) : Bool :=
  (s.flashOp b).busy && x.view != platform && (s.flashOp b).owner != x.view

/-- SUSPEND (R456, R457). -/
def execFlashSuspend (c : Fin 9) (s : State) : Out :=
  .next (s.service c 3 [0]
    (fun s x => [(7, decide (5 ≤ x.word 0)), (8, s.notOpOwner x (x.word 0))])
    (fun x s => let (did, s) := s.flashSuspend (x.word 0)
                s.svcReturn c 0 (some (!did).toNat) none))

/-- RESUME (R456, R457). -/
def execFlashResume (c : Fin 9) (s : State) : Out :=
  .next (s.service c 4 [0]
    (fun s x => [(7, decide (5 ≤ x.word 0)), (8, s.notOpOwner x (x.word 0))])
    (fun x s => let (did, s) := s.flashResume (x.word 0)
                s.svcReturn c 0 (some (!did).toNat) none))

/-- The 24 bytes of STATUS for array `b` as `view` sees them (Table 20.6). CODE is valid in DONE: `v` stands for it before. -/
def State.statusBytes (s : State) (b view v : Nat) : List Byte :=
  let x := s.flashOp b
  if view = platform ∨ (x.state ≠ 0 ∧ x.owner = view) then
    let code := if x.state = 4 then x.code else if x.state = 0 then 0 else v
    leBytes 1 x.state ++ leBytes 1 x.op ++ leBytes 1 (flashOwner x.owner) ++ leBytes 1 x.flags ++ leBytes 1 code ++ leBytes 3 0
      ++ leBytes 4 (if x.state = 4 ∧ x.code = 4 then x.w2 else 0) ++ leBytes 4 x.units
      ++ leBytes 4 (s.flash.corr.get 0 b) ++ leBytes 4 (s.flash.uncorr.get 0 b)
  else leBytes 1 x.state ++ leBytes 7 0 ++ leBytes 8 0 ++ leBytes 8 0

/-- STATUS (R449). -/
def execFlashStatus (c : Fin 9) (s : State) : Out :=
  .next (s.service c 5 [0, 1]
    (fun s x => [(7, decide (5 ≤ x.word 0) || !s.svcMay c x.lvl .write (x.word 1) 24)])
    (fun x s =>
      let (v, s) := s.fresh
      (s.memWrite (s.coreWho c) (x.word 1) (s.statusBytes (x.word 0) x.view v)).2.svcReturn c 0 none none))

/-- READ (R449, R465). -/
def execFlashRead (c : Fin 9) (s : State) : Out :=
  .next (s.service c 6 [0, 1, 2, 3]
    (fun s x =>
      let (a, dst, n) := (x.word 0, x.word 1, x.word 2)
      [(7, !flashRange a n || decide (3 ≤ x.word 3) || !s.svcMay c x.lvl .write dst n),
       (8, (blocksOf a n).any fun k => !s.mayName x.view k),
       (1, (s.flashOp (flashArray a)).busy), (2, x.sameBank (flashArray a))])
    (fun x s => s.startOp x (flashArray (x.word 0)) { op := 6, addr := x.word 0, src := x.word 1, len := x.word 2, mode := x.word 3 }))

/-- w1 of BLOCK_INFO (Table 20.8). -/
def State.blockInfo (s : State) (k : Nat) : Nat :=
  let n := s.flash.count.get 0 k
  2 ^ 31 * (s.flash.incom.get false k).toNat + 2 ^ 30 * (decide (100000 < n)).toNat + 2 ^ 29 * (s.flash.lock.find? (·.1 == k)).isSome.toNat
    + 2 ^ 28 * (s.flashOp (k / 128)).busy.toNat + min n 1048575

/-- BLOCK_INFO (R464). -/
def execBlockInfo (c : Fin 9) (s : State) : Out :=
  .next (s.service c 7 [0]
    (fun s x => [(7, decide (512 ≤ x.word 0)), (8, !s.mayName x.view (x.word 0))])
    (fun x s => s.svcReturn c 0 (some (s.blockInfo (x.word 0))) none))

/-- PROTECT (R452). -/
def execFlashProtect (c : Fin 9) (s : State) : Out :=
  .next (s.service c 8 [0, 1]
    (fun s x =>
      let (f, n) := (x.word 0, x.word 1)
      [(7, decide (512 ≤ f) || n == 0 || decide (512 < f + n)),
       (8, (List.range n).any fun i => !s.mayName x.view (f + i))])
    (fun x s =>
      let lock := (List.range (x.word 1)).foldl (fun (t : Tab Nat) i => t.set (x.word 0 + i) x.view) s.flash.lock
      ({ s with flash := { s.flash with lock := lock } } : State).svcReturn c 0 none none))

/-- CAL_READ (R467). -/
def execCalRead (c : Fin 9) (s : State) : Out :=
  .next (s.service c 9 [1]
    (fun s x => [(7, !s.svcMay c x.lvl .write (x.word 1) 1184), (9, !calOk s.calRecord)])
    (fun x s => (s.memWrite (s.coreWho c) (x.word 1) s.calRecord).2.svcReturn c 0 none none))

/-- A calibration record as CAL_WRITE stores it: ORIGIN 0 and its CHECK (R467). -/
def calStored (r : List Byte) : List Byte :=
  let b := (r.set 8 0#8).take 1180
  b ++ leBytes 4 (crc32c b)

/-- CAL_WRITE (R467): the erase of information block 0 begins. -/
def execCalWrite (c : Fin 9) (s : State) : Out :=
  .next (s.service c 10 [1]
    (fun s x =>
      let src := x.word 1
      [(7, !s.svcMay c x.lvl .read src 1184 || !calOk (s.bytesAt src 1184)), (8, x.view != platform), (1, (s.flashOp 4).busy)])
    (fun x s => (s.scramble 512).startOp x 4 { op := 10, addr := 0x0A000000, src := x.word 1, len := 1184, data := calStored (s.bytesAt (x.word 1) 1184) }))

/-- JOURNAL_READ (R449, R461). -/
def execJournalRead (c : Fin 9) (s : State) : Out :=
  .next (s.service c 11 [0, 1]
    (fun s x => [(7, decide (4096 ≤ x.word 0) || !s.svcMay c x.lvl .write (x.word 1) 32), (8, x.view != platform)])
    (fun x s =>
      let e := s.bytesAt (0x0A010000 + 32 * x.word 0) 32
      (s.memWrite (s.coreWho c) (x.word 1) e).2.svcReturn c 0 (some (e.all (· == 0xFF#8)).toNat) none))

/-- The calls that wait for array `b` learn the result of its operation; a core that waits in service mode returns (R454, R457). -/
def State.svcDone (s : State) (b : Nat) : State :=
  let (f1, s) := s.fresh
  let (f2, s) := s.fresh
  let x := s.flashOp b
  let given := x.code == 4 || x.op == 6
  let r := (x.code, if given then x.w1 else f1, if given then x.w2 else f2)
  let mark (k : SvcCall) : SvcCall := if k.bank = b ∧ k.result = none then { k with result := some r } else k
  let s := s.each (List.range 9) fun c t => t.setSvc c ((t.svcOf c).map mark)
  s.each (List.finRange 9) fun c t =>
    match t.svcOf c with
    | k :: _ => if k.bank = b ∧ k.suspended = false ∧ (t.cpuAt c).pc = 0x804#32 then t.svcFinish c r else t
    | [] => t

/-- FLASH_OP_DONE (R447, R454, R458): the running operation of array `b` ends; `bad` is the unit at which it does not verify. -/
def execFlashOpDone (b : Fin 5) (bad : Option (Fin 128)) (s : State) : Out :=
  .next (if (s.flashOp b).state = 1 ∧ (s.flashOp b).op ≠ 0 then
      ((s.flashFinish b (bad.map (·.val))).flashDone b).svcDone b
    else s)

end Sys2Proof.Machine
end

