-- ==== Sys2Proof/Machine/Dispatch.lean ====
section
/-!
DEFINITION. One arm per command: the meaning it calls.
-/
namespace Sys2Proof.Machine

/-- The effect of command `i` on everything but the queue. -/
def exec (i : Instr) (s : State) : Host.Outcome State Fault Refusal :=
  match i with
  | .deviceBoot rcv lock cmp => Sys2Proof.Machine.execDeviceBoot rcv lock cmp s
  | .pllWaitRetry lock cmp => Sys2Proof.Machine.execPllWaitRetry lock cmp s
  | .reloadStart q p => Sys2Proof.Machine.execReloadStart q p s
  | .reloadPersistRequest q p => Sys2Proof.Machine.execReloadPersistRequest q p s
  | .reloadCheckDone => Sys2Proof.Machine.execReloadCheckDone s
  | .reloadPrepareDone => Sys2Proof.Machine.execReloadPrepareDone s
  | .bindingSwitch b => Sys2Proof.Machine.execBindingSwitch b s
  | .reloadDone => Sys2Proof.Machine.execReloadDone s
  | .persistDone ok => Sys2Proof.Machine.execPersistDone ok s
  | .floorAdvance q key => Sys2Proof.Machine.execFloorAdvance q key s
  | .floorWritten => Sys2Proof.Machine.execFloorWritten s
  | .sampleHold n vd => Sys2Proof.Machine.execSampleHold n vd s
  | .converterWordOut n => Sys2Proof.Machine.execConverterWordOut n s
  | .mailboxWordArrival l m => Sys2Proof.Machine.execMailboxWordArrival l m s
  | .fcArmEvent n => Sys2Proof.Machine.execFcArmEvent n s
  | .fcvFire q n => Sys2Proof.Machine.execFcvFire q n s
  | .fcvCommit q n => Sys2Proof.Machine.execFcvCommit q n s
  | .fcvDdivWrite q n v => Sys2Proof.Machine.execFcvDdivWrite q n v s
  | .calStepStart g => Sys2Proof.Machine.execCalStepStart g s
  | .calCompare g diff => Sys2Proof.Machine.execCalCompare g diff s
  | .sliceSwap g => Sys2Proof.Machine.execSliceSwap g s
  | .freezeWrite q g freeze => Sys2Proof.Machine.execFreezeWrite q g freeze s
  | .cmpOutputActive c vd => Sys2Proof.Machine.execCmpOutputActive c vd s
  | .cmpOutputInactive c vd => Sys2Proof.Machine.execCmpOutputInactive c vd s
  | .cmpLock q c v => Sys2Proof.Machine.execCmpLock q c v s
  | .cmpTestPulse q c => Sys2Proof.Machine.execCmpTestPulse q c s
  | .cmpTestPulseEnd c vd => Sys2Proof.Machine.execCmpTestPulseEnd c vd s
  | .scanRoundStart k => Sys2Proof.Machine.execScanRoundStart k s
  | .scvStartEvent k => Sys2Proof.Machine.execScvStartEvent k s
  | .scanConversion k x => Sys2Proof.Machine.execScanConversion k x s
  | .winLimitWrite q n hi v => Sys2Proof.Machine.execWinLimitWrite q n hi v s
  | .laneTrigger b t => Sys2Proof.Machine.execLaneTrigger b t s
  | .clTrigEvent n => Sys2Proof.Machine.execClTrigEvent n s
  | .bindingFire q b => Sys2Proof.Machine.execBindingFire q b s
  | .dispatch b l => Sys2Proof.Machine.execDispatch b l s
  | .waitLimitExpiry b l => Sys2Proof.Machine.execWaitLimitExpiry b l s
  | .outSend n k v => Sys2Proof.Machine.execOutSend n k v s
  | .outHold n k v => Sys2Proof.Machine.execOutHold n k v s
  | .activationDone n => Sys2Proof.Machine.execActivationDone n s
  | .deadlineMiss n => Sys2Proof.Machine.execDeadlineMiss n s
  | .commitWordArrival n => Sys2Proof.Machine.execCommitWordArrival n s
  | .pairWaitExpiry b => Sys2Proof.Machine.execPairWaitExpiry b s
  | .commitDelivery b => Sys2Proof.Machine.execCommitDelivery b s
  | .laneReset q n => Sys2Proof.Machine.execLaneReset q n s
  | .clrfaultLane q n => Sys2Proof.Machine.execClrfaultLane q n s
  | .laneSwap q b => Sys2Proof.Machine.execLaneSwap q b s
  | .releaseBinding q b => Sys2Proof.Machine.execReleaseBinding q b s
  | .clearBindingCounts q b => Sys2Proof.Machine.execClearBindingCounts q b s
  | .periodStart n => Sys2Proof.Machine.execPeriodStart n s
  | .unitFirstPeriodStart n => Sys2Proof.Machine.execUnitFirstPeriodStart n s
  | .halfPeriod n => Sys2Proof.Machine.execHalfPeriod n s
  | .pwmEdge n => Sys2Proof.Machine.execPwmEdge n s
  | .pwmCommit q n => Sys2Proof.Machine.execPwmCommit q n s
  | .pwmCommitAll q units => Sys2Proof.Machine.execPwmCommitAll q units s
  | .pwmCmpWrite q n v => Sys2Proof.Machine.execPwmCmpWrite q n v s
  | .pwmForceActive n => Sys2Proof.Machine.execPwmForceActive n s
  | .tripevEvent n => Sys2Proof.Machine.execTripevEvent n s
  | .pwmLatchClear q n mask => Sys2Proof.Machine.execPwmLatchClear q n mask s
  | .swForcePwm q n force => Sys2Proof.Machine.execSwForcePwm q n force s
  | .pwmGroupAligned g => Sys2Proof.Machine.execPwmGroupAligned g s
  | .pwmResumeGrid n => Sys2Proof.Machine.execPwmResumeGrid n s
  | .frameSlot l delay => Sys2Proof.Machine.execFrameSlot l delay s
  | .upstreamFrame l rtt bad fr => Sys2Proof.Machine.execUpstreamFrame l rtt bad fr s
  | .upstreamMissed l => Sys2Proof.Machine.execUpstreamMissed l s
  | .linkStart q l => Sys2Proof.Machine.execLinkStart q l s
  | .linkStop q l => Sys2Proof.Machine.execLinkStop q l s
  | .clrcnt q l => Sys2Proof.Machine.execClrcnt q l s
  | .remeasure q l => Sys2Proof.Machine.execRemeasure q l s
  | .linkSleep q l => Sys2Proof.Machine.execLinkSleep q l s
  | .linkWake q l => Sys2Proof.Machine.execLinkWake q l s
  | .sleepHandshakeEnd l => Sys2Proof.Machine.execSleepHandshakeEnd l s
  | .enumTimeout l => Sys2Proof.Machine.execEnumTimeout l s
  | .measureComplete l => Sys2Proof.Machine.execMeasureComplete l s
  | .mgmtReplyTimeout l own => Sys2Proof.Machine.execMgmtReplyTimeout l own s
  | .remeasRound l => Sys2Proof.Machine.execRemeasRound l s
  | .blockLockLost l hiBer => Sys2Proof.Machine.execBlockLockLost l hiBer s
  | .linkForceActive l => Sys2Proof.Machine.execLinkForceActive l s
  | .swForceLink q l force => Sys2Proof.Machine.execSwForceLink q l force s
  | .linkWarnClear q l => Sys2Proof.Machine.execLinkWarnClear q l s
  | .mgmtGo q l v => Sys2Proof.Machine.execMgmtGo q l v s
  | .balancerRound a => Sys2Proof.Machine.execBalancerRound a s
  | .ablSwcmdGo q l v => Sys2Proof.Machine.execAblSwcmdGo q l v s
  | .armEnableWrite q a v => Sys2Proof.Machine.execArmEnableWrite q a v s
  | .armResume q a v => Sys2Proof.Machine.execArmResume q a v s
  | .positionEdge n levels t => Sys2Proof.Machine.execPositionEdge n levels t s
  | .sincosHold n vs vc => Sys2Proof.Machine.execSincosHold n vs vc s
  | .standstillTimeout n => Sys2Proof.Machine.execStandstillTimeout n s
  | .probeEvent n => Sys2Proof.Machine.execProbeEvent n s
  | .prbFire q n => Sys2Proof.Machine.execPrbFire q n s
  | .posModeWrite q n v => Sys2Proof.Machine.execPosModeWrite q n v s
  | .nop p => Sys2Proof.Machine.execNop p s
  | .mov p rd rs => Sys2Proof.Machine.execMov p rd rs s
  | .movi p rd imm short => Sys2Proof.Machine.execMovi p rd imm short s
  | .movhi p rd imm => Sys2Proof.Machine.execMovhi p rd imm s
  | .adr p rd off => Sys2Proof.Machine.execAdr p rd off s
  | .add p rd rs1 rs2 short => Sys2Proof.Machine.execAdd p rd rs1 rs2 short s
  | .adds p rd rs1 rs2 => Sys2Proof.Machine.execAdds p rd rs1 rs2 s
  | .addi p rd rs1 imm short => Sys2Proof.Machine.execAddi p rd rs1 imm short s
  | .sub p rd rs1 rs2 short => Sys2Proof.Machine.execSub p rd rs1 rs2 short s
  | .subs p rd rs1 rs2 => Sys2Proof.Machine.execSubs p rd rs1 rs2 s
  | .adc p rd rs1 rs2 => Sys2Proof.Machine.execAdc p rd rs1 rs2 s
  | .sbc p rd rs1 rs2 => Sys2Proof.Machine.execSbc p rd rs1 rs2 s
  | .and p rd rs1 rs2 short => Sys2Proof.Machine.execAnd p rd rs1 rs2 short s
  | .ands p rd rs1 rs2 => Sys2Proof.Machine.execAnds p rd rs1 rs2 s
  | .or p rd rs1 rs2 short => Sys2Proof.Machine.execOr p rd rs1 rs2 short s
  | .xor p rd rs1 rs2 short => Sys2Proof.Machine.execXor p rd rs1 rs2 short s
  | .andn p rd rs1 rs2 => Sys2Proof.Machine.execAndn p rd rs1 rs2 s
  | .andi p rd rs1 imm => Sys2Proof.Machine.execAndi p rd rs1 imm s
  | .ori p rd rs1 imm => Sys2Proof.Machine.execOri p rd rs1 imm s
  | .xori p rd rs1 imm => Sys2Proof.Machine.execXori p rd rs1 imm s
  | .not p rd rs => Sys2Proof.Machine.execNot p rd rs s
  | .neg p rd rs => Sys2Proof.Machine.execNeg p rd rs s
  | .lsl p rd rs1 rs2 short => Sys2Proof.Machine.execLsl p rd rs1 rs2 short s
  | .lsr p rd rs1 rs2 short => Sys2Proof.Machine.execLsr p rd rs1 rs2 short s
  | .asr p rd rs1 rs2 short => Sys2Proof.Machine.execAsr p rd rs1 rs2 short s
  | .ror p rd rs1 rs2 => Sys2Proof.Machine.execRor p rd rs1 rs2 s
  | .lsli p rd rs1 n => Sys2Proof.Machine.execLsli p rd rs1 n s
  | .lsri p rd rs1 n => Sys2Proof.Machine.execLsri p rd rs1 n s
  | .asri p rd rs1 n => Sys2Proof.Machine.execAsri p rd rs1 n s
  | .rori p rd rs1 n => Sys2Proof.Machine.execRori p rd rs1 n s
  | .cmp p rs1 rs2 short => Sys2Proof.Machine.execCmp p rs1 rs2 short s
  | .cmn p rs1 rs2 => Sys2Proof.Machine.execCmn p rs1 rs2 s
  | .tst p rs1 rs2 short => Sys2Proof.Machine.execTst p rs1 rs2 short s
  | .cmpi p rs1 imm short => Sys2Proof.Machine.execCmpi p rs1 imm short s
  | .min p rd rs1 rs2 => Sys2Proof.Machine.execMin p rd rs1 rs2 s
  | .max p rd rs1 rs2 => Sys2Proof.Machine.execMax p rd rs1 rs2 s
  | .minu p rd rs1 rs2 => Sys2Proof.Machine.execMinu p rd rs1 rs2 s
  | .maxu p rd rs1 rs2 => Sys2Proof.Machine.execMaxu p rd rs1 rs2 s
  | .clz p rd rs1 => Sys2Proof.Machine.execClz p rd rs1 s
  | .sxtb p rd rs1 => Sys2Proof.Machine.execSxtb p rd rs1 s
  | .sxth p rd rs1 short => Sys2Proof.Machine.execSxth p rd rs1 short s
  | .zxtb p rd rs1 => Sys2Proof.Machine.execZxtb p rd rs1 s
  | .zxth p rd rs1 short => Sys2Proof.Machine.execZxth p rd rs1 short s
  | .csel p rd rs1 rs2 cond => Sys2Proof.Machine.execCsel p rd rs1 rs2 cond s
  | .rev p rd rs1 => Sys2Proof.Machine.execRev p rd rs1 s
  | .mul p rd rs1 rs2 short => Sys2Proof.Machine.execMul p rd rs1 rs2 short s
  | .mulh p rd rs1 rs2 => Sys2Proof.Machine.execMulh p rd rs1 rs2 s
  | .mulhu p rd rs1 rs2 => Sys2Proof.Machine.execMulhu p rd rs1 rs2 s
  | .div p rd rs1 rs2 => Sys2Proof.Machine.execDiv p rd rs1 rs2 s
  | .divu p rd rs1 rs2 => Sys2Proof.Machine.execDivu p rd rs1 rs2 s
  | .rem p rd rs1 rs2 => Sys2Proof.Machine.execRem p rd rs1 rs2 s
  | .remu p rd rs1 rs2 => Sys2Proof.Machine.execRemu p rd rs1 rs2 s
  | .ldB p rd m rivals => Sys2Proof.Machine.execLdB p rd m rivals s
  | .ldBu p rd m rivals => Sys2Proof.Machine.execLdBu p rd m rivals s
  | .ldH p rd m rivals => Sys2Proof.Machine.execLdH p rd m rivals s
  | .ldHu p rd m rivals => Sys2Proof.Machine.execLdHu p rd m rivals s
  | .ldW p rd m rivals => Sys2Proof.Machine.execLdW p rd m rivals s
  | .stB p rd m rivals => Sys2Proof.Machine.execStB p rd m rivals s
  | .stH p rd m rivals => Sys2Proof.Machine.execStH p rd m rivals s
  | .stW p rd m rivals => Sys2Proof.Machine.execStW p rd m rivals s
  | .push p list xl rivals => Sys2Proof.Machine.execPush p list xl rivals s
  | .pop p list xl rivals => Sys2Proof.Machine.execPop p list xl rivals s
  | .pushm p mask rivals => Sys2Proof.Machine.execPushm p mask rivals s
  | .popm p mask rivals => Sys2Proof.Machine.execPopm p mask rivals s
  | .bcc p cond off short => Sys2Proof.Machine.execBcc p cond off short s
  | .br p off short => Sys2Proof.Machine.execBr p off short s
  | .bl p off => Sys2Proof.Machine.execBl p off s
  | .jr p rs => Sys2Proof.Machine.execJr p rs s
  | .jlr p rd rs1 short => Sys2Proof.Machine.execJlr p rd rs1 short s
  | .ret p => Sys2Proof.Machine.execRet p s
  | .cbz p rs off => Sys2Proof.Machine.execCbz p rs off s
  | .cbnz p rs off => Sys2Proof.Machine.execCbnz p rs off s
  | .loop p x imm count len rc => Sys2Proof.Machine.execLoop p x imm count len rc s
  | .mfc p rd num => Sys2Proof.Machine.execMfc p rd num s
  | .mtc p num rs => Sys2Proof.Machine.execMtc p num rs s
  | .swi p num => Sys2Proof.Machine.execSwi p num s
  | .rfe p rivals => Sys2Proof.Machine.execRfe p rivals s
  | .wfi p => Sys2Proof.Machine.execWfi p s
  | .sync p => Sys2Proof.Machine.execSync p s
  | .syncI p => Sys2Proof.Machine.execSyncI p s
  | .brk p num => Sys2Proof.Machine.execBrk p num s
  | .qadd p rd rs1 rs2 => Sys2Proof.Machine.execQadd p rd rs1 rs2 s
  | .qsub p rd rs1 rs2 => Sys2Proof.Machine.execQsub p rd rs1 rs2 s
  | .qneg p rd rs1 => Sys2Proof.Machine.execQneg p rd rs1 s
  | .qabs p rd rs1 => Sys2Proof.Machine.execQabs p rd rs1 s
  | .qmul p rd rs1 rs2 => Sys2Proof.Machine.execQmul p rd rs1 rs2 s
  | .qmulh p rd rs1 rs2 => Sys2Proof.Machine.execQmulh p rd rs1 rs2 s
  | .qshl p rd rs1 rs2 => Sys2Proof.Machine.execQshl p rd rs1 rs2 s
  | .sat p rd rs1 n => Sys2Proof.Machine.execSat p rd rs1 n s
  | .satu p rd rs1 n => Sys2Proof.Machine.execSatu p rd rs1 n s
  | .clamp p rd rs1 rs2 => Sys2Proof.Machine.execClamp p rd rs1 rs2 s
  | .mac p rd rs1 rs2 => Sys2Proof.Machine.execMac p rd rs1 rs2 s
  | .msu p rd rs1 rs2 => Sys2Proof.Machine.execMsu p rd rs1 rs2 s
  | .qmac p rd rs1 rs2 => Sys2Proof.Machine.execQmac p rd rs1 rs2 s
  | .qmsu p rd rs1 rs2 => Sys2Proof.Machine.execQmsu p rd rs1 rs2 s
  | .macl p rd rs1 rs2 => Sys2Proof.Machine.execMacl p rd rs1 rs2 s
  | .maclu p rd rs1 rs2 => Sys2Proof.Machine.execMaclu p rd rs1 rs2 s
  | .fadd p rd rs1 rs2 => Sys2Proof.Machine.execFadd p rd rs1 rs2 s
  | .fsub p rd rs1 rs2 => Sys2Proof.Machine.execFsub p rd rs1 rs2 s
  | .fmul p rd rs1 rs2 => Sys2Proof.Machine.execFmul p rd rs1 rs2 s
  | .fmadd p rd rs1 rs2 => Sys2Proof.Machine.execFmadd p rd rs1 rs2 s
  | .fmsub p rd rs1 rs2 => Sys2Proof.Machine.execFmsub p rd rs1 rs2 s
  | .fmin p rd rs1 rs2 => Sys2Proof.Machine.execFmin p rd rs1 rs2 s
  | .fmax p rd rs1 rs2 => Sys2Proof.Machine.execFmax p rd rs1 rs2 s
  | .fabs p rd rs1 => Sys2Proof.Machine.execFabs p rd rs1 s
  | .fneg p rd rs1 => Sys2Proof.Machine.execFneg p rd rs1 s
  | .fcmp p rs1 rs2 => Sys2Proof.Machine.execFcmp p rs1 rs2 s
  | .ftoq p rd rs1 f => Sys2Proof.Machine.execFtoq p rd rs1 f s
  | .ffromq p rd rs1 f => Sys2Proof.Machine.execFfromq p rd rs1 f s
  | .interruptEntry c => Sys2Proof.Machine.execInterruptEntry c s
  | .nmiEntry c => Sys2Proof.Machine.execNmiEntry c s
  | .irqEvent c k => Sys2Proof.Machine.execIrqEvent c k s
  | .nmiEvent c => Sys2Proof.Machine.execNmiEvent c s
  | .cpsIrqSet c j v => Sys2Proof.Machine.execCpsIrqSet c j v s
  | .cpsIrqClr c j v => Sys2Proof.Machine.execCpsIrqClr c j v s
  | .cpsIrqCfgWrite c n v => Sys2Proof.Machine.execCpsIrqCfgWrite c n v s
  | .cpsNmiSet c => Sys2Proof.Machine.execCpsNmiSet c s
  | .producerEvent line hop => Sys2Proof.Machine.execProducerEvent line hop s
  | .producerHoldRelease line => Sys2Proof.Machine.execProducerHoldRelease line s
  | .channelStage c => Sys2Proof.Machine.execChannelStage c s
  | .eventDelivery c => Sys2Proof.Machine.execEventDelivery c s
  | .evmFire q c hop => Sys2Proof.Machine.execEvmFire q c hop s
  | .evmTimed q c hop => Sys2Proof.Machine.execEvmTimed q c hop s
  | .evmCancel q c => Sys2Proof.Machine.execEvmCancel q c s
  | .evmClear q c => Sys2Proof.Machine.execEvmClear q c s
  | .timedFireDue c => Sys2Proof.Machine.execTimedFireDue c s
  | .fseTxtailWrite q n tail => Sys2Proof.Machine.execFseTxtailWrite q n tail s
  | .fseTxStart n clear => Sys2Proof.Machine.execFseTxStart n clear s
  | .fseTxEnd n => Sys2Proof.Machine.execFseTxEnd n s
  | .fseAckTimeout n => Sys2Proof.Machine.execFseAckTimeout n s
  | .fseDescriptorDone n acked => Sys2Proof.Machine.execFseDescriptorDone n acked s
  | .fseRxFrame n f => Sys2Proof.Machine.execFseRxFrame n f s
  | .fpGoEvent n => Sys2Proof.Machine.execFpGoEvent n s
  | .mute q n on => Sys2Proof.Machine.execMute q n on s
  | .fseEnableWrite q n v => Sys2Proof.Machine.execFseEnableWrite q n v s
  | .sesLookup q p short => Sys2Proof.Machine.execSesLookup q p short s
  | .sesCreate q p => Sys2Proof.Machine.execSesCreate q p s
  | .sesRead q p => Sys2Proof.Machine.execSesRead q p s
  | .sesUpdate q p mask => Sys2Proof.Machine.execSesUpdate q p mask s
  | .readClear q p mask => Sys2Proof.Machine.execReadClear q p mask s
  | .sesRetire q p => Sys2Proof.Machine.execSesRetire q p s
  | .sesFold q p mask => Sys2Proof.Machine.execSesFold q p mask s
  | .sesCommandDone p => Sys2Proof.Machine.execSesCommandDone p s
  | .sesFrame n => Sys2Proof.Machine.execSesFrame n s
  | .keyApply q p k v => Sys2Proof.Machine.execKeyApply q p k v s
  | .txfcWrite q p k v => Sys2Proof.Machine.execTxfcWrite q p k v s
  | .ethRxFrame p fr t => Sys2Proof.Machine.execEthRxFrame p fr t s
  | .ethTxSelect p => Sys2Proof.Machine.execEthTxSelect p s
  | .ethTailWrite q p r rx tail => Sys2Proof.Machine.execEthTailWrite q p r rx tail s
  | .gclChange q p v => Sys2Proof.Machine.execGclChange q p v s
  | .gclSwitch p => Sys2Proof.Machine.execGclSwitch p s
  | .ethLinkChange p lock hiBer => Sys2Proof.Machine.execEthLinkChange p lock hiBer s
  | .ethCapture p => Sys2Proof.Machine.execEthCapture p s
  | .timeRateWrite q v => Sys2Proof.Machine.execTimeRateWrite q v s
  | .ptpOfsApply q v => Sys2Proof.Machine.execPtpOfsApply q v s
  | .ptpSecApply q v => Sys2Proof.Machine.execPtpSecApply q v s
  | .pcieBarAccess f bar o n w rivals => Sys2Proof.Machine.execPcieBarAccess f bar o n w rivals s
  | .functionLevelReset n => Sys2Proof.Machine.execFunctionLevelReset n s
  | .hotReset l down => Sys2Proof.Machine.execHotReset l down s
  | .vreq q n hi mask => Sys2Proof.Machine.execVreq q n hi mask s
  | .msixMessage n v => Sys2Proof.Machine.execMsixMessage n v s
  | .gpioInputEvent k rising => Sys2Proof.Machine.execGpioInputEvent k rising s
  | .gpioOutputEvent k => Sys2Proof.Machine.execGpioOutputEvent k s
  | .gpioEvWrite q k oev v => Sys2Proof.Machine.execGpioEvWrite q k oev v s
  | .partitionResetRequest p cause => Sys2Proof.Machine.execPartitionResetRequest p cause s
  | .partSelfReset q p key => Sys2Proof.Machine.execPartSelfReset q p key s
  | .partRstctrlReset q p hold => Sys2Proof.Machine.execPartRstctrlReset q p hold s
  | .partitionWipeDone p => Sys2Proof.Machine.execPartitionWipeDone p s
  | .partStart q p => Sys2Proof.Machine.execPartStart q p s
  | .holdWrite q p hold => Sys2Proof.Machine.execHoldWrite q p hold s
  | .lockAcquire q k => Sys2Proof.Machine.execLockAcquire q k s
  | .lockRelease q k => Sys2Proof.Machine.execLockRelease q k s
  | .lockRenew q k => Sys2Proof.Machine.execLockRenew q k s
  | .clearBroken q k => Sys2Proof.Machine.execClearBroken q k s
  | .forceRelease q k => Sys2Proof.Machine.execForceRelease q k s
  | .leaseExpiry k => Sys2Proof.Machine.execLeaseExpiry k s
  | .eccWriteBack line => Sys2Proof.Machine.execEccWriteBack line s
  | .memcInject q kind => Sys2Proof.Machine.execMemcInject q kind s
  | .dmaStart q n => Sys2Proof.Machine.execDmaStart q n s
  | .dmaStop q n => Sys2Proof.Machine.execDmaStop q n s
  | .dmaReqWrite q n => Sys2Proof.Machine.execDmaReqWrite q n s
  | .dcnReqEvent n => Sys2Proof.Machine.execDcnReqEvent n s
  | .dmaDescriptorFetch n rivals => Sys2Proof.Machine.execDmaDescriptorFetch n rivals s
  | .dmaStreamReady n => Sys2Proof.Machine.execDmaStreamReady n s
  | .dmaBurst rivals data err => Sys2Proof.Machine.execDmaBurst rivals data err s
  | .dmaDescriptorDone n => Sys2Proof.Machine.execDmaDescriptorDone n s
  | .arbCommit q a => Sys2Proof.Machine.execArbCommit q a s
  | .arbCommitMulti q hi mask => Sys2Proof.Machine.execArbCommitMulti q hi mask s
  | .clearWait q a => Sys2Proof.Machine.execClearWait q a s
  | .flashProgram c => Sys2Proof.Machine.execFlashProgram c s
  | .flashErase c => Sys2Proof.Machine.execFlashErase c s
  | .flashSuspend c => Sys2Proof.Machine.execFlashSuspend c s
  | .flashResume c => Sys2Proof.Machine.execFlashResume c s
  | .flashStatus c => Sys2Proof.Machine.execFlashStatus c s
  | .flashRead c => Sys2Proof.Machine.execFlashRead c s
  | .blockInfo c => Sys2Proof.Machine.execBlockInfo c s
  | .flashProtect c => Sys2Proof.Machine.execFlashProtect c s
  | .calRead c => Sys2Proof.Machine.execCalRead c s
  | .calWrite c => Sys2Proof.Machine.execCalWrite c s
  | .journalRead c => Sys2Proof.Machine.execJournalRead c s
  | .flashOpDone b bad => Sys2Proof.Machine.execFlashOpDone b bad s
  | .readWindow b => Sys2Proof.Machine.execReadWindow b s
  | .autoResume b => Sys2Proof.Machine.execAutoResume b s
  | .supplyHoldEnd => Sys2Proof.Machine.execSupplyHoldEnd s
  | .domainRequest d => Sys2Proof.Machine.execDomainRequest d s
  | .domainGateClose d => Sys2Proof.Machine.execDomainGateClose d s
  | .pllLocked k => Sys2Proof.Machine.execPllLocked k s
  | .pllIdleStop k => Sys2Proof.Machine.execPllIdleStop k s
  | .clkSelWrite q d v => Sys2Proof.Machine.execClkSelWrite q d v s
  | .clkSwitchDone d => Sys2Proof.Machine.execClkSwitchDone d s
  | .clkBreak q d keep => Sys2Proof.Machine.execClkBreak q d keep s
  | .clrfault q d keep => Sys2Proof.Machine.execClrfault q d keep s
  | .holdResetWrite q d v => Sys2Proof.Machine.execHoldResetWrite q d v s
  | .relock q keep => Sys2Proof.Machine.execRelock q keep s
  | .missingEdge d => Sys2Proof.Machine.execMissingEdge d s
  | .sourceFail k => Sys2Proof.Machine.execSourceFail k s
  | .brcFail => Sys2Proof.Machine.execBrcFail s
  | .xtal32Fail => Sys2Proof.Machine.execXtal32Fail s
  | .rtcSet q v => Sys2Proof.Machine.execRtcSet q v s
  | .rtcAlarm => Sys2Proof.Machine.execRtcAlarm s
  | .park q key => Sys2Proof.Machine.execPark q key s
  | .standby q key => Sys2Proof.Machine.execStandby q key s
  | .dormant q key => Sys2Proof.Machine.execDormant q key s
  | .wake rtc => Sys2Proof.Machine.execWake rtc s
  | .warnAssert m => Sys2Proof.Machine.execWarnAssert m s
  | .warnClear m => Sys2Proof.Machine.execWarnClear m s
  | .supplyReset m => Sys2Proof.Machine.execSupplyReset m s
  | .lockstepFailure k g => Sys2Proof.Machine.execLockstepFailure k g s
  | .supForceWrite q link v => Sys2Proof.Machine.execSupForceWrite q link v s
  | .supFaultoutWrite q on => Sys2Proof.Machine.execSupFaultoutWrite q on s
  | .wdtLock q min max => Sys2Proof.Machine.execWdtLock q min max s
  | .kick q key => Sys2Proof.Machine.execKick q key s
  | .watchdogTimeout => Sys2Proof.Machine.execWatchdogTimeout s
  | .recoveryFailure cause => Sys2Proof.Machine.execRecoveryFailure cause s
  | .recoveryStep => Sys2Proof.Machine.execRecoveryStep s
  | .supervisorRestarted => Sys2Proof.Machine.execSupervisorRestarted s
  | .recRelease q key => Sys2Proof.Machine.execRecRelease q key s
  | .selfReset q key => Sys2Proof.Machine.execSelfReset q key s
  | .lrtRearm => Sys2Proof.Machine.execLrtRearm s
  | .lrtExpiry => Sys2Proof.Machine.execLrtExpiry s
  | .challenge q v => Sys2Proof.Machine.execChallenge q v s
  | .dbgVerify q v => Sys2Proof.Machine.execDbgVerify q v s
  | .verifyDone => Sys2Proof.Machine.execVerifyDone s
  | .dbgClose q v => Sys2Proof.Machine.execDbgClose q v s
  | .dbgHalt q c brk => Sys2Proof.Machine.execDbgHalt q c brk s
  | .debugResume q c brk => Sys2Proof.Machine.execDebugResume q c brk s
  | .dbgStep q c brk => Sys2Proof.Machine.execDbgStep q c brk s
  | .breakpointHalt c => Sys2Proof.Machine.execBreakpointHalt c s
  | .debugDataAccess q c w => Sys2Proof.Machine.execDebugDataAccess q c w s
  | .resetNAssert => Sys2Proof.Machine.execResetNAssert s
  | .powerOn => Sys2Proof.Machine.execPowerOn s
  | .rstCtrlDevice q key => Sys2Proof.Machine.execRstCtrlDevice q key s
  | .resetRelease split => Sys2Proof.Machine.execResetRelease split s
  | .mailboxPoll => Sys2Proof.Machine.execMailboxPoll s
  | .recoveryRun cmp => Sys2Proof.Machine.execRecoveryRun cmp s
  | .writeA ok => Sys2Proof.Machine.execWriteA ok s
  | .writeB ok => Sys2Proof.Machine.execWriteB ok s
  | .recoveryProvision fuseOk => Sys2Proof.Machine.execRecoveryProvision fuseOk s
  | .recoveryAdvance fuseOk => Sys2Proof.Machine.execRecoveryAdvance fuseOk s
  | .recoveryReset => Sys2Proof.Machine.execRecoveryReset s
  | .lcsAdvance q target fuseOk => Sys2Proof.Machine.execLcsAdvance q target fuseOk s
  | .lcsProvision q slot fuseOk => Sys2Proof.Machine.execLcsProvision q slot fuseOk s
  | .revoke q slot fuseOk => Sys2Proof.Machine.execRevoke q slot fuseOk s
  | .idcode => Sys2Proof.Machine.execIdcode s
  | .samplePreload board level drive => Sys2Proof.Machine.execSamplePreload board level drive s
  | .extest board level drive => Sys2Proof.Machine.execExtest board level drive s
  | .clampTap => Sys2Proof.Machine.execClampTap s
  | .highz => Sys2Proof.Machine.execHighz s
  | .dapAccess => Sys2Proof.Machine.execDapAccess s
  | .bypass code => Sys2Proof.Machine.execBypass code s
  | .tapReset => Sys2Proof.Machine.execTapReset s
  | .registerWrite q a v => Sys2Proof.Machine.execRegisterWrite q a v s
  | .undefinedInstruction p short => Sys2Proof.Machine.execUndefinedInstruction p short s
  | .fetchFault p second => Sys2Proof.Machine.execFetchFault p second s
  | .pcieConfigWrite n mem bme msix mask => Sys2Proof.Machine.execPcieConfigWrite n mem bme msix mask s
  | .pcieLinkUp l speed width => Sys2Proof.Machine.execPcieLinkUp l speed width s
  | .pciePerstN high => Sys2Proof.Machine.execPciePerstN high s
  | .debugAccessPortAccess a n w rivals => Sys2Proof.Machine.execDebugAccessPortAccess a n w rivals s
  | .entropyTestFail => Sys2Proof.Machine.execEntropyTestFail s
  | .canFrameReceived c ok ext id fd dlc data => Sys2Proof.Machine.execCanFrameReceived c ok ext id fd dlc data s
  | .canTxDone c m ok => Sys2Proof.Machine.execCanTxDone c m ok s
  | .canBusOffRecovery c => Sys2Proof.Machine.execCanBusOffRecovery c s
  | .uartByteReceived u b brk framing parity => Sys2Proof.Machine.execUartByteReceived u b brk framing parity s
  | .spiWordTransfer u v => Sys2Proof.Machine.execSpiWordTransfer u v s
  | .i2cTransferDone c outcome data => Sys2Proof.Machine.execI2cTransferDone c outcome data s
  | .i2cTargetAddressed c a tenBit => Sys2Proof.Machine.execI2cTargetAddressed c a tenBit s
  | .resetNHigh => Sys2Proof.Machine.execResetNHigh s

end Sys2Proof.Machine
end

