-- ==== Sys2Proof/Machine/Tick.lean ====
section
/-!
DEFINITION. What the passing of one tick does when no command waits: device time counts (R5, R523), the RTC counts crystal cycles (R482), a
clock that a command reported silent comes back where its source runs (R476), compares land at the start of a PWM cycle (R141), software's commands enter the queues of links (R189), links send their blocks (R153, R173), buffered stores of cores drain (R284), arbiters apply pending commits at their next slot (R434), and
partitions in ASSERTING go to WIPING (R392).
-/
namespace Sys2Proof.Machine

/-- Device time counts one up; at the end of a cycle of 1.0 ns the bits that hardware has set in it are no longer fresh (R10). -/
def State.advanceTime (s : State) : State :=
  let t := s.now + 1#64
  { s with now := t, regs := if s.sameCycle t then s.regs else { s.regs with hot := [] } }

/-- The access time of core `c` to address `a` in ticks: a cycle of the core for its own TCM, the figures of Table 11.4 elsewhere. -/
def accessTicks (c a : Nat) : Nat :=
  match regionOf a with
  | some (.itcm n) | some (.dtcm n) => if n = c then 40 else 640
  | some .supTcm => if c = 8 then 80 else 640
  | some .per => 800
  | some .priv => 80
  | _ => 640

/-- The oldest buffered store of core `c` drains once it has been that for its access time (R284, R286). -/
def State.drainDue (s : State) (c : Fin 9) : State :=
  match (s.buf c).stores with
  | [] => s
  | e :: _ => if accessTicks c e.addr ≤ s.since (s.buf c).since then s.drain c else s

/-- One tick; before it, grid points at which no word was made have passed (R64). -/
def State.tick (s : State) : State :=
  let s := if s.chip.struck then { s with chip := { s.chip with struck := false } } else s
  let s := s.each (List.range 24) fun n t => t.fcGridPass n
  let s := (s.advanceTime.rtcXtal 2).edgesReturn
  let s := s.when (s.now.toNat % 32 == 0) fun s => s.each (List.range 32) fun n t => t.unitCycle n
  let s := s.when (s.now.toNat % 32 == 0) fun s => s.each (List.range 32) fun l t => t.softEnter l
  let s := s.each (List.range 32) fun l t => t.linkTick l
  let s := s.each (List.finRange 9) fun c t => t.drainDue c
  let s := s.each ((List.range 50).filter fun a => s.on (R.ARB_Aa_STATUS_PENDING a)) fun a t => t.arbApply a (t.slotNow a)
  s.each ((List.range 8).filter fun p => s.partState p == 2) fun p t => t.partWipe p

end Sys2Proof.Machine
end

