-- ==== Sys2Proof/Safety.lean ====
section
/-!
DEFINITION. The words in which statements speak: an outcome that goes on, a register access that is allowed, an instruction that completes.
-/
namespace Sys2Proof.Machine

/-- The command goes on, to a state that satisfies `P`. -/
def Goes (i : Instr) (s : State) (P : State → Prop) : Prop := ∃ t, exec i s = .next t ∧ P t

/-- Memory is in its canonical form. -/
def State.memOk (s : State) : Prop := Mem.wf s.mem = true

/-- An access of kind `k` by `q` to register `r` arrives and is allowed (R9, R386 to R389). -/
def State.Accepts (s : State) (q : Requester) (k : Access) (r : Reg) : Prop :=
  s.dead = false ∧ (q = .dap → s.dapLinked = true) ∧ s.reach q (s.viewOf q) (s.atU q) k r.addr 4 = true

/-- The state once processor `p` has completed an instruction and stands with registers `y`. -/
def State.completed (s : State) (p : Proc) (y : Cpu) : State := (s.setCpuAt p.key y).stepped p

/-- The state once processor `p` has taken exception `e` at its instruction. -/
def State.trapped (s : State) (p : Proc) (e : Exc) : State := (s.raiseAt p e (s.cpuAt p.key).pc).stepped p

/-- Processor `p` issues now, and the halfwords at its pc, `len` bytes, are the encoding of instruction `i` (R234, R236, R294). -/
def State.Issues (s : State) (p : Proc) (len : Nat) (i : Instr) : Prop := s.issues p len = true ∧ s.finds p len i = true

/-- The length in bytes of an instruction by its form. -/
def formLen (short : Bool) : Nat := if short then 2 else 4

/-- Instruction `i` of `len` bytes, where it issues and the stack limit allows it, writes `v` to `rd`, changes the registers further by `g`,
and goes on at the address that R263 gives; all else is as its fetch left it. -/
def State.Writes (s : State) (p : Proc) (len : Nat) (rd : RegNo) (v : Word) (g : Cpu → Cpu) (i : Instr) : Prop :=
  let x := s.cpuAt p.key
  s.Issues p len i → (rd = 15 → x.limit x.lvl ≤ v) →
    exec i s = .next ((s.fetched p len).completed p ((g (x.setReg rd v)).advance (x.pc + BitVec.ofNat 32 len)))

/-- Instruction `i` of `len` bytes, where it issues, changes the registers by `g` alone and goes on at the address that R263 gives. -/
def State.Sets (s : State) (p : Proc) (len : Nat) (g : Cpu → Cpu) (i : Instr) : Prop :=
  let x := s.cpuAt p.key
  s.Issues p len i → exec i s = .next ((s.fetched p len).completed p ((g x).advance (x.pc + BitVec.ofNat 32 len)))

/-- Instruction `i` of `len` bytes, where it issues, is a taken transfer to `target` that leaves the registers as `y` (R252, R280). -/
def State.Jumps (s : State) (p : Proc) (len : Nat) (y : Cpu) (target : Word) (i : Instr) : Prop :=
  s.Issues p len i → exec i s = .next (((s.fetched p len).taken p (s.cpuAt p.key).pc.toNat target.toNat).completed p (y.transfer target))

/-- Instruction `i` of `len` bytes, where it issues, raises `e`. -/
def State.Raises (s : State) (p : Proc) (len : Nat) (e : Exc) (i : Instr) : Prop :=
  s.Issues p len i → exec i s = .next ((s.fetched p len).trapped p e)

/-- The flags of a + b + c as R243 words them. -/
def sumFlags (a b : Word) (c : Nat) : Nzcv :=
  let r := a + b + BitVec.ofNat 32 c
  ⟨r.getLsbD 31, r == 0#32, decide (2 ^ 32 ≤ a.toNat + b.toNat + c),
   decide (a.toInt + b.toInt + c < -2 ^ 31 ∨ 2 ^ 31 ≤ a.toInt + b.toInt + c)⟩
/-- The flags of a - b - (1 - c) as R243 words them. -/
def diffFlags (a b : Word) (c : Nat) : Nzcv :=
  let r := a - b - BitVec.ofNat 32 (1 - c)
  ⟨r.getLsbD 31, r == 0#32, decide (b.toNat + (1 - c) ≤ a.toNat),
   decide (a.toInt - b.toInt - (1 - c : Nat) < -2 ^ 31 ∨ 2 ^ 31 ≤ a.toInt - b.toInt - (1 - c : Nat))⟩
/-- N and Z of a result beside the old C and V. -/
def resultFlags (r : Word) (old : Nzcv) : Nzcv := ⟨r.getLsbD 31, r == 0#32, old.c, old.v⟩

/-- Is `v` the limit of exact value `x` to lo .. hi (R256)? -/
def Limited (lo hi x : Int) (v : Word) : Prop :=
  (x < lo → v.toInt = lo) ∧ (hi < x → v.toInt = hi) ∧ (lo ≤ x → x ≤ hi → v.toInt = x)

/-! ### The units whose commands stay in their own state -/

/-- A unit of the device, for the frames of its commands. -/
inductive Area where
  | reloads | converters | comparators | scanners | triggers | commits | pwm | links | balancer
  | position | interrupts | events | feeder | sessions | network | host | ports | locks
  | memory | dma | flash | clocks | clockTime | supplies | supervision | debug | tap
  | release
  deriving DecidableEq, Repr

/-- The unit within whose state a command stays, for the commands that reach neither memory nor the processors' registers. -/
def areaOf : Instr → Option Area
  | .reloadStart .. | .reloadPersistRequest .. | .floorAdvance .. => some .reloads
  | .fcvFire .. | .fcvCommit .. | .fcvDdivWrite .. | .calStepStart .. | .calCompare .. | .sliceSwap .. | .freezeWrite ..
    | .converterWordOut .. => some .converters
  | .cmpOutputActive .. | .cmpOutputInactive .. | .cmpLock .. | .cmpTestPulse .. | .cmpTestPulseEnd .. => some .comparators
  | .scanRoundStart .. | .scanConversion .. | .winLimitWrite .. => some .scanners
  | .laneTrigger .. | .mailboxWordArrival .. | .outSend .. | .outHold .. | .activationDone .. => some .triggers
  | .pairWaitExpiry .. | .commitDelivery .. | .bindingFire .. | .laneSwap .. | .releaseBinding .. | .clearBindingCounts .. => some .commits
  | .pwmEdge .. | .pwmResumeGrid .. | .pwmCommit .. | .pwmCommitAll .. | .pwmCmpWrite .. | .pwmLatchClear .. | .swForcePwm ..
    | .pwmForceActive .. | .pwmGroupAligned .. => some .pwm
  | .upstreamMissed .. | .linkStart .. | .linkStop .. | .clrcnt .. | .remeasure .. | .linkSleep .. | .linkWake ..
    | .swForceLink .. | .linkWarnClear .. | .sleepHandshakeEnd .. | .enumTimeout .. | .blockLockLost .. | .linkForceActive ..
    | .remeasRound .. | .mgmtGo .. => some .links
  | .balancerRound .. | .ablSwcmdGo .. | .armEnableWrite .. | .armResume .. => some .balancer
  | .positionEdge .. | .sincosHold .. | .standstillTimeout .. | .prbFire .. | .posModeWrite .. => some .position
  | .cpsIrqSet .. | .cpsIrqClr .. | .cpsIrqCfgWrite .. | .cpsNmiSet .. => some .interrupts
  | .producerEvent .. | .producerHoldRelease .. | .channelStage .. | .timedFireDue .. | .gpioInputEvent .. | .evmFire ..
    | .evmTimed .. | .evmCancel .. | .evmClear .. => some .events
  | .fseTxtailWrite .. | .fseTxEnd .. | .fseAckTimeout .. | .fseRxFrame .. | .mute .. | .fseEnableWrite .. => some .feeder
  | .sesCommandDone .. | .keyApply .. | .txfcWrite .. => some .sessions
  | .ethTailWrite .. | .gclChange .. | .gclSwitch .. | .ethLinkChange .. | .timeRateWrite .. | .ptpOfsApply ..
    | .ptpSecApply .. => some .network
  | .functionLevelReset .. | .hotReset .. | .vreq .. | .msixMessage .. | .pcieConfigWrite .. | .pcieLinkUp .. => some .host
  | .canFrameReceived .. | .canTxDone .. | .canBusOffRecovery .. | .uartByteReceived .. | .spiWordTransfer ..
    | .i2cTransferDone .. | .i2cTargetAddressed .. | .gpioEvWrite .. => some .ports
  | .lockAcquire .. | .lockRelease .. | .lockRenew .. | .clearBroken .. | .forceRelease .. | .leaseExpiry .. => some .locks
  | .eccWriteBack .. | .memcInject .. | .arbCommit .. | .arbCommitMulti .. | .clearWait .. => some .memory
  | .dmaStart .. | .dmaStop .. | .dmaReqWrite .. | .dmaStreamReady .. => some .dma
  | .autoResume .. | .supplyHoldEnd .. => some .flash
  | .domainRequest .. | .domainGateClose .. | .pllLocked .. | .pllIdleStop .. | .clkSwitchDone .. | .relock .. => some .clocks
  | .xtal32Fail .. | .rtcSet .. | .rtcAlarm .. => some .clockTime
  | .warnAssert .. | .warnClear .. => some .supplies
  | .brcFail .. | .supForceWrite .. | .supFaultoutWrite .. | .wdtLock .. | .kick .. | .recRelease .. | .selfReset ..
    | .watchdogTimeout .. | .recoveryFailure .. | .lrtRearm .. => some .supervision
  | .challenge .. | .dbgVerify .. | .dbgClose .. | .verifyDone .. => some .debug
  | .idcode .. | .clampTap .. | .highz .. | .dapAccess .. | .bypass .. | .tapReset .. => some .tap
  | .resetRelease .. | .resetNHigh .. => some .release
  | _ => none

/-- The registers outside some pages of the address map are the same in both states; core-private registers stand in page 0xE000. -/
def State.SameRegs (s t : State) (pages : List Nat) : Prop := ∀ r : Reg, r.addr / 0x10000 % 0x10000 ∉ pages → t.rd r = s.rd r

/-- What a command of a unit may change: the parts of the state listed here, and registers in the pages listed here. Every unit may record
a refusal (page 0x4001) and raise events (page 0x4028). -/
def State.Within (s t : State) : Area → Prop
  -- Reload requests and the floor.
  | .reloads => t = { s with regs := t.regs, evm := t.evm, pcie := t.pcie, reload := t.reload, floorWant := t.floorWant, chip := t.chip } ∧
      s.SameRegs t [0x4000, 0x4001, 0x4028]
  -- Fast converters and their calibration.
  | .converters => t = { s with regs := t.regs, evm := t.evm, fc := t.fc, fcGroup := t.fcGroup, fcOut := t.fcOut, fcBox := t.fcBox } ∧
      s.SameRegs t [0x4001, 0x4010, 0x4028]
  -- Comparators, with the PWM units that they trip.
  | .comparators => t = { s with regs := t.regs, evm := t.evm, cmpPulse := t.cmpPulse, cmpEvt := t.cmpEvt, pwm := t.pwm } ∧
      s.SameRegs t [0x4001, 0x4012, 0x4018, 0x4028]
  -- Scan converters.
  | .scanners => t = { s with regs := t.regs, evm := t.evm, scan := t.scan, scanCh := t.scanCh } ∧
      s.SameRegs t [0x4001, 0x4011, 0x4028]
  -- Triggers, mailboxes and sends of lanes.
  | .triggers => t = { s with regs := t.regs, evm := t.evm, fcBox := t.fcBox, lane := t.lane, bind := t.bind } ∧
      s.SameRegs t [0x4014, 0x4015, 0x4028, 0x4030]
  -- The commit stage, with the outputs that it drives or forces.
  | .commits => t = { s with regs := t.regs, evm := t.evm, pwm := t.pwm, link := t.link, arm := t.arm, bind := t.bind } ∧
      s.SameRegs t [0x4001, 0x4014, 0x4015, 0x4018, 0x4020, 0x4022, 0x4028, 0x4030]
  -- PWM units.
  | .pwm => t = { s with regs := t.regs, evm := t.evm, pwm := t.pwm } ∧
      s.SameRegs t [0x4001, 0x4018, 0x4028]
  -- Cell links, with the arms that lose one.
  | .links => t = { s with regs := t.regs, evm := t.evm, link := t.link, arm := t.arm } ∧
      s.SameRegs t [0x4001, 0x4020, 0x4021, 0x4022, 0x4028]
  -- The arm balancer.
  | .balancer => t = { s with regs := t.regs, evm := t.evm, link := t.link, arm := t.arm } ∧
      s.SameRegs t [0x4001, 0x4020, 0x4022, 0x4028]
  -- Position feedback.
  | .position => t = { s with regs := t.regs, evm := t.evm, pos := t.pos } ∧
      s.SameRegs t [0x4001, 0x4024, 0x4028]
  -- Interrupt registers of the cores.
  | .interrupts => t = { s with regs := t.regs, evm := t.evm } ∧
      s.SameRegs t [0x4001, 0x4028, 0xE000]
  -- The event matrix.
  | .events => t = { s with regs := t.regs, evm := t.evm } ∧
      s.SameRegs t [0x4001, 0x4028]
  -- Feeder ports.
  | .feeder => t = { s with regs := t.regs, evm := t.evm, fse := t.fse, pcie := t.pcie } ∧
      s.SameRegs t [0x4001, 0x4028, 0x4030]
  -- Session windows and keys.
  | .sessions => t = { s with regs := t.regs, evm := t.evm, ses := t.ses } ∧
      s.SameRegs t [0x4001, 0x4028, 0x4034]
  -- Ethernet ports and PTP time.
  | .network => t = { s with regs := t.regs, evm := t.evm, eth := t.eth, ptpOfs := t.ptpOfs, ptpSec := t.ptpSec, pcie := t.pcie } ∧
      s.SameRegs t [0x4001, 0x4028, 0x4038]
  -- PCI Express functions.
  | .host => t = { s with regs := t.regs, evm := t.evm, leases := t.leases, pcie := t.pcie, up := t.up } ∧
      s.SameRegs t [0x4001, 0x4028, 0x403C]
  -- Service ports and general-purpose pins.
  | .ports => t = { s with regs := t.regs, free := t.free, evm := t.evm, ser := t.ser } ∧
      s.SameRegs t [0x4001, 0x4028, 0x403E]
  -- Hardware locks.
  | .locks => t = { s with regs := t.regs, evm := t.evm, leases := t.leases, resp := t.resp } ∧
      s.SameRegs t [0x4001, 0x4028]
  -- Memory integrity and arbiters.
  | .memory => t = { s with regs := t.regs, evm := t.evm, marks := t.marks, arbs := t.arbs } ∧
      s.SameRegs t [0x4001, 0x4028, 0x4044, 0x4046]
  -- DMA channels.
  | .dma => t = { s with regs := t.regs, evm := t.evm, dma := t.dma } ∧
      s.SameRegs t [0x4001, 0x4028, 0x4040]
  -- Suspended flash operations.
  | .flash => t = { s with flash := t.flash }
  -- Clock domains, with the units that a domain's start or stop reaches.
  | .clocks => t = { s with regs := t.regs, evm := t.evm, fcGroup := t.fcGroup, cmpEvt := t.cmpEvt, scan := t.scan, scanCh := t.scanCh, lane := t.lane, pwm := t.pwm, pos := t.pos, clk := t.clk } ∧
      s.SameRegs t [0x4001, 0x4002, 0x4003, 0x4010, 0x4011, 0x4014, 0x4018, 0x4024, 0x4028, 0x4030]
  -- The real-time clock.
  | .clockTime => t = { s with regs := t.regs, evm := t.evm, pav := t.pav } ∧
      s.SameRegs t [0x4001, 0x4002, 0x4003, 0x4028]
  -- Supply warnings, with the outputs that they force and the flash pulses that they end.
  | .supplies => t = { s with regs := t.regs, mem := t.mem, free := t.free, evm := t.evm, marks := t.marks, pwm := t.pwm, link := t.link, arm := t.arm, flash := t.flash, chip := t.chip } ∧
      s.SameRegs t [0x4003, 0x4018, 0x4020, 0x4022, 0x4028, 0x4046]
  -- The supervisor's forces, watchdog and recovery machine, with the outputs that they force.
  | .supervision => t = { s with regs := t.regs, evm := t.evm, pwm := t.pwm, link := t.link, arm := t.arm, pav := t.pav } ∧
      s.SameRegs t [0x4001, 0x4002, 0x4005, 0x4018, 0x4020, 0x4022, 0x4028]
  -- Debug authentication.
  | .debug => t = { s with regs := t.regs, free := t.free, evm := t.evm, chip := t.chip } ∧
      s.SameRegs t [0x4001, 0x4028, 0x404C]
  -- The test access port.
  | .tap => t = { s with resp := t.resp, tap := t.tap }
  -- The end of a device reset.
  | .release => t = { s with regs := t.regs, free := t.free, chip := t.chip } ∧
      s.SameRegs t [0x403C]

end Sys2Proof.Machine
end

