-- ==== Sys2Proof/Certificates/Slice0/Obligations.lean ====
section
/-!
DEFINITION. The statements about the model, for the provers.
-/
open Sys2Proof Sys2Proof.Machine

/-- What the block does with its queue: a step takes the command at the front and runs it on the state with the queue's rest. -/
def Obligations.StepRunsFrontCommand : Prop :=
  ∀ (s : State) (c : Instr) (cs : List Instr), s.pending = c :: cs → step s = exec c { s with pending := cs }

/-- MODEL'S CHOICE (log 2): with an empty queue a step is one tick: device time counts one up (R5), and the queue
stays empty. -/
def Obligations.EmptyQueueStepIsOneTick : Prop :=
  ∀ s : State, s.pending = [] → ∃ t, step s = .next t ∧ t.now = s.now + 1#64 ∧ t.pending = []

/-- Every command of the table goes on: none ends in a fault or a refusal. -/
def Obligations.EveryCommandGoesOn : Prop := ∀ (i : Instr) (s : State), ∃ t, exec i s = .next t

/-- A command changes nothing in the queue, so commands run in the order in which they came. -/
def Obligations.CommandsKeepTheQueue : Prop := ∀ (i : Instr) (s t : State), exec i s = .next t → t.pending = s.pending

/-- At reset memory is in its canonical form (MODEL'S representation, log 1). -/
def Obligations.ResetMemoryIsCanonical : Prop := State.reset.memOk

/-- Every step keeps memory in its canonical form: addresses rise, and no listed byte equals what an unlisted one reads as. -/
def Obligations.EveryStepKeepsMemoryCanonical : Prop := ∀ s t : State, s.memOk → step s = .next t → t.memOk

/-- A byte of memory that is written reads back, and every other byte reads as before (R5, R407, R442); memories with equal contents are
equal data. -/
def Obligations.MemoryReadsWhatWasWritten : Prop :=
  ∀ (m : List Host.Cell) (a : Nat) (v : Byte), Mem.wf m = true →
    Mem.get (Mem.put m a v) a = v ∧ (∀ b, b ≠ a → Mem.get (Mem.put m a v) b = Mem.get m b) ∧ Mem.wf (Mem.put m a v) = true ∧
    ∀ m', Mem.wf m' = true → (∀ b, Mem.get m b = Mem.get m' b) → m = m'

/-- Frame of the commands that reach neither memory nor the processors' registers: each changes only the state of its unit, and of the units that
its effect names, with the registers in their pages; a refusal is recorded in page 0x4001 and an event is raised in page 0x4028 (R388). -/
def Obligations.CommandsStayInTheirUnit : Prop :=
  ∀ (i : Instr) (a : Area) (s t : State), areaOf i = some a → exec i s = .next t → s.Within t a

/-- Three-register results that set no flag (R244, R245): ADD, SUB, AND, OR, XOR, ANDN, shifts, MIN and MAX in their 32-bit forms. -/
def Obligations.ThreeRegisterResults : Prop :=
  ∀ (s : State) (p : Proc) (rd r1 r2 : RegNo),
    let a := (s.cpuAt p.key).reg r1
    let b := (s.cpuAt p.key).reg r2
    let k := b.toNat % 256
    let is := fun (v : Word) (i : Instr) => s.Writes p 4 rd v id i
    is (a + b) (.add p rd r1 r2 false) ∧ is (a - b) (.sub p rd r1 r2 false) ∧ is (a &&& b) (.and p rd r1 r2 false) ∧
    is (a ||| b) (.or p rd r1 r2 false) ∧ is (a ^^^ b) (.xor p rd r1 r2 false) ∧ is (a &&& ~~~b) (.andn p rd r1 r2) ∧
    is (if 32 ≤ k then 0#32 else a <<< k) (.lsl p rd r1 r2 false) ∧ is (if 32 ≤ k then 0#32 else a >>> k) (.lsr p rd r1 r2 false) ∧
    is (if 32 ≤ k then (if a.getLsbD 31 then 0xFFFFFFFF#32 else 0#32) else a.sshiftRight k) (.asr p rd r1 r2 false) ∧
    is ((a >>> (k % 32)) ||| (a <<< (32 - k % 32))) (.ror p rd r1 r2) ∧
    is (if a.toInt ≤ b.toInt then a else b) (.min p rd r1 r2) ∧ is (if b.toInt ≤ a.toInt then a else b) (.max p rd r1 r2) ∧
    is (if a.toNat ≤ b.toNat then a else b) (.minu p rd r1 r2) ∧ is (if b.toNat ≤ a.toNat then a else b) (.maxu p rd r1 r2)

/-- Results of one register (R244): extensions, REV, CLZ; and CSEL by its condition (R242, where code 15 is undefined). -/
def Obligations.OneRegisterResults : Prop :=
  ∀ (s : State) (p : Proc) (rd r1 r2 : RegNo) (cc : Fin 16),
    let x := s.cpuAt p.key
    let a := x.reg r1
    let is := fun (v : Word) (i : Instr) => s.Writes p 4 rd v id i
    is ((a.extractLsb' 0 8).signExtend 32) (.sxtb p rd r1) ∧ is ((a.extractLsb' 0 16).signExtend 32) (.sxth p rd r1 false) ∧
    is (a &&& 0xFF#32) (.zxtb p rd r1) ∧ is (a &&& 0xFFFF#32) (.zxth p rd r1 false) ∧
    is (a.extractLsb' 0 8 ++ a.extractLsb' 8 8 ++ a.extractLsb' 16 8 ++ a.extractLsb' 24 8) (.rev p rd r1) ∧
    (∃ n : Nat, n ≤ 32 ∧ is (BitVec.ofNat 32 n) (.clz p rd r1) ∧ (∀ j, j < n → a.getLsbD (31 - j) = false) ∧ (n < 32 → a.getLsbD (31 - n) = true)) ∧
    (cc ≠ 15 → is (if condHolds x.flags cc then a else x.reg r2) (.csel p rd r1 r2 cc))

/-- Results that set flags (R243, R244): ADDS, SUBS, ADC, SBC, ANDS, and the comparisons CMP, CMN, TST, CMPI in their 32-bit forms. -/
def Obligations.FlagSettingResults : Prop :=
  ∀ (s : State) (p : Proc) (rd r1 r2 : RegNo) (imm : BitVec 17),
    let x := s.cpuAt p.key
    let a := x.reg r1
    let b := x.reg r2
    let c := x.flags.c.toNat
    s.Writes p 4 rd (a + b) (·.setFlags (sumFlags a b 0)) (.adds p rd r1 r2) ∧
    s.Writes p 4 rd (a - b) (·.setFlags (diffFlags a b 1)) (.subs p rd r1 r2) ∧
    s.Writes p 4 rd (a + b + BitVec.ofNat 32 c) (·.setFlags (sumFlags a b c)) (.adc p rd r1 r2) ∧
    s.Writes p 4 rd (a - b - BitVec.ofNat 32 (1 - c)) (·.setFlags (diffFlags a b c)) (.sbc p rd r1 r2) ∧
    s.Writes p 4 rd (a &&& b) (·.setFlags (resultFlags (a &&& b) x.flags)) (.ands p rd r1 r2) ∧
    s.Sets p 4 (·.setFlags (diffFlags a b 1)) (.cmp p r1 r2 false) ∧ s.Sets p 4 (·.setFlags (sumFlags a b 0)) (.cmn p r1 r2) ∧
    s.Sets p 4 (·.setFlags (resultFlags (a &&& b) x.flags)) (.tst p r1 r2 false) ∧
    s.Sets p 4 (·.setFlags (diffFlags a (imm.signExtend 32) 1)) (.cmpi p r1 imm false)

/-- Moves and immediates (R241): MOVI, MOVHI, ADR, ADDI, ANDI, ORI, XORI and the shifts by 0 to 31 in their 32-bit forms set no flag. -/
def Obligations.ImmediateResults : Prop :=
  ∀ (s : State) (p : Proc) (rd r1 : RegNo) (i16 : BitVec 16) (i17 : BitVec 17) (i21 : BitVec 21) (n : Fin 32),
    let x := s.cpuAt p.key
    let a := x.reg r1
    let is := fun (v : Word) (i : Instr) => s.Writes p 4 rd v id i
    is (BitVec.ofInt 32 i21.toInt) (.movi p rd i21 false) ∧ is (i16 ++ 0#16) (.movhi p rd i16) ∧
    is (x.pc + BitVec.ofInt 32 (2 * i21.toInt)) (.adr p rd i21) ∧ is (a + BitVec.ofInt 32 i17.toInt) (.addi p rd r1 i17 false) ∧
    is (a &&& BitVec.ofNat 32 i17.toNat) (.andi p rd r1 i17) ∧ is (a ||| BitVec.ofNat 32 i17.toNat) (.ori p rd r1 i17) ∧
    is (a ^^^ BitVec.ofNat 32 i17.toNat) (.xori p rd r1 i17) ∧ is (a <<< n.val) (.lsli p rd r1 n) ∧ is (a >>> n.val) (.lsri p rd r1 n) ∧
    is (a.sshiftRight n.val) (.asri p rd r1 n) ∧ is (a.rotateRight n.val) (.rori p rd r1 n)

/-- The 16-bit integer instructions (R239): the first operand is rd, ADD, SUB, ADDI, NEG, CMP, CMPI set NZCV, AND, OR, XOR, TST set N and Z,
and the rest set no flag. -/
def Obligations.SixteenBitForms : Prop :=
  ∀ (s : State) (p : Proc) (rd r1 rs : RegNo) (imm : BitVec 7),
    let x := s.cpuAt p.key
    let a := x.reg rd
    let b := x.reg rs
    let i := imm.signExtend 32
    let k := b.toNat % 256
    let is := fun (v : Word) (i : Instr) => s.Writes p 2 rd v id i
    is b (.mov p rd rs) ∧ is i (.movi p rd (imm.signExtend 21) true) ∧ is (~~~b) (.not p rd rs) ∧ is (a * b) (.mul p rd r1 rs true) ∧
    is ((b.extractLsb' 0 16).signExtend 32) (.sxth p rd rs true) ∧ is (b &&& 0xFFFF#32) (.zxth p rd rs true) ∧
    is (if 32 ≤ k then 0#32 else a <<< k) (.lsl p rd r1 rs true) ∧ is (if 32 ≤ k then 0#32 else a >>> k) (.lsr p rd r1 rs true) ∧
    is (if 32 ≤ k then (if a.getLsbD 31 then 0xFFFFFFFF#32 else 0#32) else a.sshiftRight k) (.asr p rd r1 rs true) ∧
    s.Writes p 2 rd (a + b) (·.setFlags (sumFlags a b 0)) (.add p rd r1 rs true) ∧
    s.Writes p 2 rd (a - b) (·.setFlags (diffFlags a b 1)) (.sub p rd r1 rs true) ∧
    s.Writes p 2 rd (a + i) (·.setFlags (sumFlags a i 0)) (.addi p rd r1 (imm.signExtend 17) true) ∧
    s.Writes p 2 rd (0#32 - b) (·.setFlags (diffFlags 0#32 b 1)) (.neg p rd rs) ∧
    s.Writes p 2 rd (a &&& b) (·.setFlags (resultFlags (a &&& b) x.flags)) (.and p rd r1 rs true) ∧
    s.Writes p 2 rd (a ||| b) (·.setFlags (resultFlags (a ||| b) x.flags)) (.or p rd r1 rs true) ∧
    s.Writes p 2 rd (a ^^^ b) (·.setFlags (resultFlags (a ^^^ b) x.flags)) (.xor p rd r1 rs true) ∧
    s.Sets p 2 (·.setFlags (diffFlags a b 1)) (.cmp p rd rs true) ∧ s.Sets p 2 (·.setFlags (diffFlags a i 1)) (.cmpi p rd (imm.signExtend 17) true) ∧
    s.Sets p 2 (·.setFlags (resultFlags (a &&& b) x.flags)) (.tst p rd rs true) ∧ s.Sets p 2 id (.nop p)

/-- The multiply and divide group (R246), every corner included. -/
def Obligations.MultiplyDivideResults : Prop :=
  ∀ (s : State) (p : Proc) (rd r1 r2 : RegNo),
    let a := (s.cpuAt p.key).reg r1
    let b := (s.cpuAt p.key).reg r2
    let is := fun (v : Word) (i : Instr) => s.Writes p 4 rd v id i
    is (BitVec.ofNat 32 (a.toNat * b.toNat)) (.mul p rd r1 r2 false) ∧
    is ((BitVec.ofInt 64 (a.toInt * b.toInt)).extractLsb' 32 32) (.mulh p rd r1 r2) ∧
    is ((BitVec.ofNat 64 (a.toNat * b.toNat)).extractLsb' 32 32) (.mulhu p rd r1 r2) ∧
    is (if b = 0#32 then 0xFFFFFFFF#32 else if a = 0x80000000#32 ∧ b = 0xFFFFFFFF#32 then 0x80000000#32
        else BitVec.ofInt 32 (a.toInt.tdiv b.toInt)) (.div p rd r1 r2) ∧
    is (if b = 0#32 then 0xFFFFFFFF#32 else a / b) (.divu p rd r1 r2) ∧
    is (if b = 0#32 then a else if a = 0x80000000#32 ∧ b = 0xFFFFFFFF#32 then 0#32 else BitVec.ofInt 32 (a.toInt.tmod b.toInt)) (.rem p rd r1 r2) ∧
    is (if b = 0#32 then a else a % b) (.remu p rd r1 r2)

/-- The fixed-point group (R256, R257): each writes its exact result limited to its range, and Q is set where the two differ; CLAMP sets Q
where it changes rd. -/
def Obligations.FixedPointResults : Prop :=
  ∀ (s : State) (p : Proc) (rd r1 r2 : RegNo) (n : Fin 32),
    let x := s.cpuAt p.key
    let a := (x.reg r1).toInt
    let b := (x.reg r2).toInt
    let half := fun (w : Word) => (w.extractLsb' 0 16).toInt
    let is := fun (lo hi e : Int) (i : Instr) => ∃ v : Word, Limited lo hi e v ∧ s.Writes p 4 rd v (·.stickQ (decide (v.toInt ≠ e))) i
    is (-2 ^ 31) (2 ^ 31 - 1) (a + b) (.qadd p rd r1 r2) ∧ is (-2 ^ 31) (2 ^ 31 - 1) (a - b) (.qsub p rd r1 r2) ∧
    is (-2 ^ 31) (2 ^ 31 - 1) (-a) (.qneg p rd r1) ∧ is (-2 ^ 31) (2 ^ 31 - 1) a.natAbs (.qabs p rd r1) ∧
    is (-2 ^ 31) (2 ^ 31 - 1) ((a * b + 2 ^ 30) / 2 ^ 31) (.qmul p rd r1 r2) ∧
    is (-2 ^ 15) (2 ^ 15 - 1) ((half (x.reg r1) * half (x.reg r2) + 2 ^ 14) / 2 ^ 15) (.qmulh p rd r1 r2) ∧
    is (-2 ^ 31) (2 ^ 31 - 1) (a * 2 ^ ((x.reg r2).toNat % 256)) (.qshl p rd r1 r2) ∧
    is (-2 ^ n.val) (2 ^ n.val - 1) a (.sat p rd r1 n) ∧
    s.Writes p 4 rd (if a < 0 then 0#32 else if 2 ^ (n.val + 1) - 1 < a then BitVec.ofNat 32 (2 ^ (n.val + 1) - 1) else x.reg r1)
      (·.stickQ (decide (a < 0 ∨ 2 ^ (n.val + 1) - 1 < a))) (.satu p rd r1 n) ∧
    (let d := x.reg rd
     let v := if b < a then x.reg r2 else if d.toInt < a then x.reg r1 else if b < d.toInt then x.reg r2 else d
     s.Writes p 4 rd v (·.stickQ (decide (v ≠ d))) (.clamp p rd r1 r2))

/-- The multiply-accumulate group (R258); a word that names an odd register or w14 for a pair is undefined and raises UNDEF. -/
def Obligations.MultiplyAccumulateResults : Prop :=
  ∀ (s : State) (p : Proc) (rd r1 r2 : RegNo),
    let x := s.cpuAt p.key
    let d := x.reg rd
    let a := x.reg r1
    let b := x.reg r2
    let is := fun (e : Int) (i : Instr) => ∃ v : Word, Limited (-2 ^ 31) (2 ^ 31 - 1) e v ∧ s.Writes p 4 rd v (·.stickQ (decide (v.toInt ≠ e))) i
    let pair := x.reg (rd.val + 1) ++ d
    let both := fun (v : BitVec 64) (i : Instr) =>
      s.Sets p 4 (fun y => (y.setReg rd (v.extractLsb' 0 32)).setReg (rd.val + 1) (v.extractLsb' 32 32)) i
    s.Writes p 4 rd (d + a * b) id (.mac p rd r1 r2) ∧ s.Writes p 4 rd (d - a * b) id (.msu p rd r1 r2) ∧
    is ((d.toInt * 2 ^ 31 + a.toInt * b.toInt + 2 ^ 30) / 2 ^ 31) (.qmac p rd r1 r2) ∧
    is ((d.toInt * 2 ^ 31 - a.toInt * b.toInt + 2 ^ 30) / 2 ^ 31) (.qmsu p rd r1 r2) ∧
    (rd.val % 2 = 0 → rd ≠ 14 → both (pair + a.signExtend 64 * b.signExtend 64) (.macl p rd r1 r2) ∧
      both (pair + a.setWidth 64 * b.setWidth 64) (.maclu p rd r1 r2)) ∧
    (rd.val % 2 = 1 ∨ rd = 14 → s.issues p 4 = true → ∀ func, func = 4 ∨ func = 5 → let w := encWr 0x1D func rd r1 r2
      w % 65536 ∈ s.halvesAt p (s.pcOf p) → w / 65536 ∈ s.halvesAt p (s.pcOf p + 2) →
        exec (.undefinedInstruction p false) s = .next ((s.fetched p 4).trapped p .undef))

/-- The FP32 group (R259 to R261): what each writes and which sticky flags it sets in FPCS, by the rounding mode that FPCS holds. A NaN
operand of an addition or a product gives the default NaN; FABS and FNEG set no flag; FCMP sets the flags of R261 on NaN and on equal operands. -/
def Obligations.FloatingPointResults : Prop :=
  ∀ (s : State) (p : Proc) (rd r1 r2 : RegNo) (f : Fin 32),
    let x := s.cpuAt p.key
    let a := x.reg r1
    let b := x.reg r2
    let d := x.reg rd
    let rm := (x.cr 8).toNat / 256 % 4
    let is := fun (r : Word × Nat) (i : Instr) => s.Writes p 4 rd r.1 (·.stickFp r.2) i
    let nan := fun (w : Word) => w &&& 0x7F800000#32 = 0x7F800000#32 ∧ w &&& 0x7FFFFF#32 ≠ 0#32
    let quiet := fun (w : Word) => w.getLsbD 22 = true
    is (fpAdd rm a b) (.fadd p rd r1 r2) ∧ is (fpSub rm a b) (.fsub p rd r1 r2) ∧ is (fpMul rm a b) (.fmul p rd r1 r2) ∧
    is (fpMadd rm false d a b) (.fmadd p rd r1 r2) ∧ is (fpMadd rm true d a b) (.fmsub p rd r1 r2) ∧
    is (fpMinMax false a b) (.fmin p rd r1 r2) ∧ is (fpMinMax true a b) (.fmax p rd r1 r2) ∧
    s.Writes p 4 rd (a &&& 0x7FFFFFFF#32) id (.fabs p rd r1) ∧ s.Writes p 4 rd (a ^^^ 0x80000000#32) id (.fneg p rd r1) ∧
    is (fpToQ rm a f) (.ftoq p rd r1 f) ∧ is (fpFromQ rm a f) (.ffromq p rd r1 f) ∧
    (nan a ∨ nan b → (fpAdd rm a b).1 = 0x7FC00000#32 ∧ (fpSub rm a b).1 = 0x7FC00000#32 ∧ (fpMul rm a b).1 = 0x7FC00000#32) ∧
    (nan a → quiet a → fpToQ rm a f = (0#32, 8)) ∧
    (∃ n z c v g, s.Sets p 4 (fun y => (y.setFlags ⟨n, z, c, v⟩).stickFp g) (.fcmp p r1 r2) ∧
      (nan a ∨ nan b → (n, z, c, v) = (false, false, true, true)) ∧ (a = b → ¬nan a → (n, z, c, v) = (false, true, true, false)) ∧
      (a = 0#32 → b = 0x80000000#32 → (n, z, c, v) = (false, true, true, false)))

/-- The conditions of Table 10.8 read the flags; PS holds N, Z, C, V in bits 31 to 28 and Q in bit 27 (R230); setting flags changes no
other bit, and Q is never cleared (R257). -/
def Obligations.ConditionsAndFlagsOfPs : Prop :=
  (∀ f : Nzcv, (List.range 15).map (condHolds f) =
    [f.z, !f.z, f.c, !f.c, f.n, !f.n, f.v, !f.v, f.c && !f.z, !f.c || f.z, f.n == f.v, f.n != f.v, !f.z && f.n == f.v, f.z || f.n != f.v, true]) ∧
  (∀ (x : Cpu) (f : Nzcv) (q : Bool),
    (x.setFlags f).flags = f ∧ (∀ k, k < 28 → (x.setFlags f).ps.getLsbD k = x.ps.getLsbD k) ∧
    (x.stickQ q).psBit 27 = (x.psBit 27 || q) ∧ (∀ k, k < 32 → k ≠ 27 → (x.stickQ q).ps.getLsbD k = x.ps.getLsbD k) ∧
    (x.setFlags f).w = x.w ∧ (x.setFlags f).ctl = x.ctl ∧ (x.stickQ q).w = x.w)

/-- Loads (R247 to R250): at an aligned address that the processor may read, and that no busy flash array holds back, rd takes the bytes
that the access gives, extended as the size says, and a modifying form changes its base. -/
def Obligations.LoadsWriteTheLoadedValue : Prop :=
  ∀ (s : State) (p : Proc) (rd : RegNo) (m : Addr) (rivals : List (Fin 18)) (n : Nat) (i : Instr) (ext : List Byte → Word) (bs : List Byte) (t : State) (y : Cpu),
    s.Issues p (formLen m.short) i →
    (n, i, ext) ∈ [(1, Instr.ldB p rd m rivals, fun b => (b.getD 0 0#8).signExtend 32), (1, .ldBu p rd m rivals, fun b => (b.getD 0 0#8).setWidth 32),
      (2, .ldH p rd m rivals, fun b => (b.getD 1 0#8 ++ b.getD 0 0#8).signExtend 32), (2, .ldHu p rd m rivals, fun b => (b.getD 1 0#8 ++ b.getD 0 0#8).setWidth 32),
      (4, .ldW p rd m rivals, fun b => b.getD 3 0#8 ++ b.getD 2 0#8 ++ b.getD 1 0#8 ++ b.getD 0 0#8)] →
    let x := s.cpuAt p.key
    let u := s.fetched p (formLen m.short)
    let e := x.ea m (if n = 4 then 2 else n - 1)
    x.putBase e.2 = .ok y → e.1.toNat % n = 0 → u.dataHeld p e.1.toNat n = false → u.dataLoad p e.1.toNat n (rivals.map (·.val)) = (.ok bs, t) →
    bs.length = n → t.cpuAt p.key = x → (rd = 15 → y.limit y.lvl ≤ ext bs) →
    exec i s = .next (t.completed p ((y.setReg rd (ext bs)).advance (x.pc + BitVec.ofNat 32 (formLen m.short))))

/-- Stores (R247 to R250, R284): the low bytes of rd, as it stood before, go to the address of the form, those of a core into its store
buffer, and a modifying form changes its base. -/
def Obligations.StoresWriteTheRegister : Prop :=
  ∀ (s : State) (p : Proc) (rd : RegNo) (m : Addr) (rivals : List (Fin 18)) (n : Nat) (i : Instr) (t : State) (y : Cpu),
    s.Issues p (formLen m.short) i →
    (n, i) ∈ [(1, Instr.stB p rd m rivals), (2, .stH p rd m rivals), (4, .stW p rd m rivals)] →
    let x := s.cpuAt p.key
    let e := x.ea m (if n = 4 then 2 else n - 1)
    x.putBase e.2 = .ok y → e.1.toNat % n = 0 →
    (s.fetched p (formLen m.short)).dataStore p e.1.toNat ((List.range n).map fun k => (x.reg rd).extractLsb' (8 * k) 8) (rivals.map (·.val)) = (none, t) →
    t.cpuAt p.key = x →
    exec i s = .next (t.completed p (y.advance (x.pc + BitVec.ofNat 32 (formLen m.short))))

/-- The address of each form and the base that a modifying form leaves (R241, R247, R250, Table 10.4). -/
def Obligations.AddressForms : Prop :=
  ∀ (x : Cpu) (rb ri : RegNo) (i17 : BitVec 17) (i10 : BitVec 10) (i12 : BitVec 12) (i3 : BitVec 3) (i7 : BitVec 7) (k : Nat),
    let b := x.reg rb
    x.ea (.base rb i17) k = (b + BitVec.ofInt 32 i17.toInt, none) ∧ x.ea (.index rb ri) k = (b + (x.reg ri) * BitVec.ofNat 32 (2 ^ k), none) ∧
    x.ea (.post rb i10) k = (b, some (rb, b + BitVec.ofInt 32 i10.toInt)) ∧
    x.ea (.pre rb i10) k = (b + BitVec.ofInt 32 i10.toInt, some (rb, b + BitVec.ofInt 32 i10.toInt)) ∧
    (x.cr 1 &&& 0xFFF#32 = 0#32 → x.ea (.abs i12) k = (x.cr 1 + BitVec.ofNat 32 i12.toNat, none)) ∧
    x.ea (.shortBase rb i3) k = (b + BitVec.ofNat 32 (4 * i3.toNat), none) ∧ x.ea (.shortSp i7) k = (x.reg 15 + BitVec.ofNat 32 (4 * i7.toNat), none) ∧
    (x.cr 1 &&& 0xFFF#32 = 0#32 → x.ea (.shortAbs i7) k = (x.cr 1 + BitVec.ofNat 32 (4 * i7.toNat), none))

/-- A store of a lane into its data RAM changes no other byte, and no register of a processor. A store of a core whose store buffer is not full
changes no byte of memory; the core itself sees the bytes stored and every other byte as before (R284, R285). The oldest buffered store drains into
the bytes that it names and no others, and they take its bytes where the line is sound; a push of a core changes no byte but those of its words
and of the stores that it finds buffered; and a load from memory without registers changes no byte of memory (R5, R237, R251). -/
def Obligations.StoresTouchOnlyTheirBytes : Prop :=
  ∀ (s t : State) (c : Fin 9) (p : Proc) (k : Fin 16) (a n : Nat) (bs : List Byte) (ws : List Word) (rivals : List Nat) (r : Option Exc) (j : Nat)
    (x : Buffered) (rest : List Buffered), s.memOk →
    (inLaneData k a bs.length = true → s.dataStore (.lane k) a bs rivals = (r, t) →
      (∀ b, b < a ∨ a + bs.length ≤ b → t.byteAt b = s.byteAt b) ∧ t.cpus = s.cpus) ∧
    ((s.buf c).stores.length < 4 → s.dataStore (.core c) a bs rivals = (none, t) →
      t.mem = s.mem ∧ t.cpus = s.cpus ∧ t.seenBy c a bs.length = bs ∧ ∀ b, b < a ∨ a + bs.length ≤ b → t.seenBy c b 1 = s.seenBy c b 1) ∧
    ((s.buf c).stores = x :: rest → isReg x.addr = false → let u := s.drain c
      (u.buf c).stores = rest ∧ (∀ b, b < x.addr ∨ x.addr + x.bytes.length ≤ b → u.byteAt b = s.byteAt b) ∧
      (0x40000 ≤ x.addr → s.mixSeed x.addr = none → x.addr / 64 = (x.addr + x.bytes.length - 1) / 64 → x.bytes ≠ [] → (s.mark x.addr).double = false →
        ∀ i, i < x.bytes.length → u.byteAt (x.addr + i) = x.bytes.getD i 0#8)) ∧
    ((∀ i, i < ws.length → isReg ((a + 4 * i) % 2 ^ 32) = false) → (∀ e ∈ (s.buf c).stores, isReg e.addr = false) →
      s.pushWords (.core c) rivals a ws = (j, r, t) →
      ∀ b, (∀ i, i < ws.length → b < (a + 4 * i) % 2 ^ 32 ∨ (a + 4 * i) % 2 ^ 32 + 4 ≤ b) →
        (∀ e ∈ (s.buf c).stores, b < e.addr ∨ e.addr + e.bytes.length ≤ b) → t.byteAt b = s.byteAt b) ∧
    (∀ e, isReg a = false → s.dataLoad p a n rivals = (e, t) → t.mem = s.mem)

/-- Frame of the instructions on registers alone: beside the fetch of the instruction, which changes no byte of memory, only its own processor
changes, and no other one; a core that a debug STEP halts again is the exception and is left out (R237, R243). -/
def Obligations.RegisterInstructionsTouchNoMemory : Prop :=
  ∀ (s t : State) (i : Instr) (p : Proc) (short : Bool) (f : Cpu → Except Exc Cpu) (y : Cpu),
    s.Issues p (formLen short) i → f (s.cpuAt p.key) = .ok y → (s.cpuAt p.key).step = false → regInstr i p short f s = .next t →
    t.mem = s.mem ∧ t = { s.fetched p (formLen short) with cpus := t.cpus } ∧ ∀ k, k ≠ p.key → t.cpuAt k = s.cpuAt k

/-- Frames: writing a register leaves every other general register, PS and the control registers (R237); going on changes only pc and the
loop state: general registers, flags, IPM, LVL and every control register but LC0 and LC1 stay (R263). -/
def Obligations.RegisterWritesAndGoingOnKeepTheRest : Prop :=
  (∀ (x y : Cpu) (r : RegNo) (v : Word), x.put r v = .ok y →
    y.reg r = v ∧ (∀ k : Nat, k ≠ r.val → y.reg k = x.reg k) ∧ y.ps = x.ps ∧ y.pc = x.pc ∧ ∀ n, y.cr n = x.cr n) ∧
  (∀ (x : Cpu) (next : Word),
    (x.advance next).w = x.w ∧ (∀ k, 2 ≤ k → k < 32 → (x.advance next).ps.getLsbD k = x.ps.getLsbD k) ∧
    ∀ n, n ≠ 2 → n ≠ 5 → (x.advance next).cr n = x.cr n)

/-- PUSH and PUSHM (R251): sp falls by four times the number of registers, which are stored in ascending order from the new sp up. POP and
POPM (R251, R253): registers take the words from sp up, sp rises, and a pop that names pc jumps. -/
def Obligations.StackTransfers : Prop :=
  (∀ (s t : State) (p : Proc) (list : BitVec 8) (xl : Bool) (mask : BitVec 16) (rivals : List (Fin 18)) (y : Cpu) (k : Nat),
    let x := s.cpuAt p.key
    let done := fun (short : Bool) (rs : List Nat) (i : Instr) =>
      let v := x.reg 15 - BitVec.ofNat 32 (4 * rs.length)
      s.Issues p (formLen short) i → x.put 15 v = .ok y → v.toNat % 4 = 0 →
      (s.fetched p (formLen short)).pushWords p (rivals.map (·.val)) v.toNat (rs.map x.reg) = (k, none, t) → t.cpuAt p.key = x →
      exec i s = .next (t.completed p (y.advance (x.pc + BitVec.ofNat 32 (formLen short)))) ∧ k = rs.length
    done true (((List.range 8).filter fun j => list.getLsbD j).map (· + 4) ++ if xl then [14] else []) (.push p list xl rivals) ∧
    done false ((List.range 15).filter fun j => mask.getLsbD j) (.pushm p mask rivals)) ∧
  (∀ (s t : State) (p : Proc) (list : BitVec 8) (xl : Bool) (mask : BitVec 16) (rivals : List (Fin 18)) (y : Cpu) (vs : List Word),
    let x := s.cpuAt p.key
    let done := fun (short pc : Bool) (rs : List Nat) (i : Instr) =>
      let n := rs.length + pc.toNat
      let u := s.fetched p (formLen short)
      let goal := vs.getD rs.length 0#32
      s.Issues p (formLen short) i → x.put 15 (x.reg 15 + BitVec.ofNat 32 (4 * n)) = .ok y → x.sp.toNat % 4 = 0 →
      (∀ k, k < n → u.dataHeld p ((x.sp.toNat + 4 * k) % 2 ^ 32) 4 = false) →
      u.popWords p (rivals.map (·.val)) n x.sp.toNat = (vs, none, t) → t.cpuAt p.key = x → vs.length = n →
      (pc = false → exec i s = .next (t.completed p ((y.setRegs rs vs).advance (x.pc + BitVec.ofNat 32 (formLen short))))) ∧
      (pc = true → goal.getLsbD 0 = false → exec i s = .next ((t.taken p x.pc.toNat goal.toNat).completed p ((y.setRegs rs vs).transfer goal)))
    done true xl (((List.range 8).filter fun j => list.getLsbD j).map (· + 4)) (.pop p list xl rivals) ∧
    done false (mask.getLsbD 15) ((List.range 15).filter fun j => mask.getLsbD j) (.popm p mask rivals))

/-- Branches (R241, R242, R252): targets are pc plus twice the offset, and even; CBZ and CBNZ test a register; BL and JLR link the address of the
instruction that follows; no branch changes a flag. -/
def Obligations.BranchesGoToPcPlusTwiceTheOffset : Prop :=
  ∀ (s : State) (p : Proc) (short : Bool) (cc : Fin 16) (o21 : BitVec 21) (o25 : BitVec 25) (o20 : BitVec 20) (rd r : RegNo),
    let x := s.cpuAt p.key
    let n := formLen short
    let target := fun (off : Int) => x.pc + BitVec.ofInt 32 (2 * off)
    let go := fun (len : Nat) (y : Cpu) (taken : Bool) (off : Int) (i : Instr) =>
      (taken = true → s.Jumps p len y (target off) i) ∧ (taken = false → s.Sets p len id i) ∧ (y.transfer (target off)).flags = x.flags ∧
      (x.advance (x.pc + BitVec.ofNat 32 len)).flags = x.flags ∧ (y.transfer (target off)).pc = target off ∧
      (x.pc.getLsbD 0 = false → (target off).getLsbD 0 = false)
    let l : RegNo := if short then 14 else rd
    let next := x.pc + BitVec.ofNat 32 n
    (cc ≠ 15 → go n x (condHolds x.flags cc) o21.toInt (.bcc p cc o21 short)) ∧ go n x true o25.toInt (.br p o25 short) ∧
    ((x.reg r).getLsbD 0 = false → (l = 15 → x.limit x.lvl ≤ next) → s.Jumps p n (x.setReg l next) (x.reg r) (.jlr p rd r short)) ∧
    go 4 (x.setReg 14 (x.pc + 4#32)) true o25.toInt (.bl p o25) ∧
    go 4 x (x.reg r == 0#32) o20.toInt (.cbz p r o20) ∧ go 4 x (x.reg r != 0#32) o20.toInt (.cbnz p r o20)

/-- Jumps (R252, R253): JR, RET and JLR go to an even register target, JLR linking the next address; an odd target raises ALIGN at the
jump, whose pc is saved, with no register changed. -/
def Obligations.JumpsGoToEvenTargets : Prop :=
  ∀ (s : State) (p : Proc) (rd r : RegNo) (short : Bool),
    let x := s.cpuAt p.key
    let l : RegNo := if short then 14 else rd
    let n := formLen short
    let next := x.pc + BitVec.ofNat 32 n
    let odd := fun (t : Word) => Exc.align t.toNat false
    let even := fun (t : Word) => t.getLsbD 0 = false
    (even (x.reg r) → s.Jumps p 2 x (x.reg r) (.jr p r)) ∧ (¬even (x.reg r) → s.Raises p 2 (odd (x.reg r)) (.jr p r)) ∧
    (even (x.reg 14) → s.Jumps p 2 x (x.reg 14) (.ret p)) ∧ (¬even (x.reg 14) → s.Raises p 2 (odd (x.reg 14)) (.ret p)) ∧
    ((l = 15 → x.limit x.lvl ≤ next) →
      (even (x.reg r) → s.Jumps p n (x.setReg l next) (x.reg r) (.jlr p rd r short)) ∧
      (¬even (x.reg r) → s.Raises p n (odd (x.reg r)) (.jlr p rd r short)))

/-- What completing an instruction does to the two loops (R263): at LE0 loop 0 goes back and counts down, or ends; where it did not go
back, loop 1 does the same at LE1; pc takes what remains of next. -/
def Obligations.HardwareLoopsGoBack : Prop :=
  ∀ (x : Cpu) (next : Word),
    let at0 := x.la 0 = true ∧ next = x.cr 4
    let at1 := x.la 1 = true ∧ next = x.cr 7
    let ends0 := at0 ∧ x.cr 2 ≤ 1#32
    let y := x.advance next
    (at0 → 1#32 < x.cr 2 → y.pc = x.cr 3 ∧ y.cr 2 = x.cr 2 - 1#32 ∧ y.cr 5 = x.cr 5 ∧ y.ps = x.ps) ∧
    (ends0 → y.cr 2 = 0#32 ∧ y.la 0 = false) ∧
    (¬at0 → y.cr 2 = x.cr 2 ∧ y.la 0 = x.la 0) ∧
    (¬at0 ∨ ends0 →
      (at1 → 1#32 < x.cr 5 → y.pc = x.cr 6 ∧ y.cr 5 = x.cr 5 - 1#32 ∧ y.la 1 = true) ∧
      (at1 → x.cr 5 ≤ 1#32 → y.pc = next ∧ y.cr 5 = 0#32 ∧ y.la 1 = false) ∧
      (¬at1 → y.pc = next ∧ y.cr 5 = x.cr 5 ∧ y.la 1 = x.la 1)) ∧
    (¬at0 → ¬at1 → y = { x with pc := next })

/-- MFC and MTC (R232, R233): a register that is not listed, or cannot be written, is UNDEF; one above the level is PRIV; else MFC gives the
register and MTC writes the bits of it that exist. -/
def Obligations.ControlRegisterAccess : Prop :=
  ∀ (s : State) (p : Proc) (rd rs : RegNo) (num : BitVec 8),
    let x := s.cpuAt p.key
    let n := num.toNat
    let reads := s.Issues p 4 (.mfc p rd num)
    let writes := s.Issues p 4 (.mtc p num rs)
    let listed := n ≤ 8 ∨ (0x10 ≤ n ∧ n ≤ 0x14) ∨ (0x18 ≤ n ∧ n ≤ 0x1B)
    let readAt := if n = 0x10 ∨ n = 0x11 ∨ n = 0x14 then 1 else if n = 0x12 ∨ n = 0x13 then 2 else 0
    let writeAt := if n = 0x10 then 1 else if n = 0x11 ∨ n = 0x12 ∨ n = 0x13 then 2 else 0
    let v := x.reg rs
    (¬listed → s.Raises p 4 .undef (.mfc p rd num)) ∧
    (¬listed ∨ 0x14 ≤ n → s.Raises p 4 .undef (.mtc p num rs)) ∧
    (listed → x.lvl < readAt → s.Raises p 4 .priv (.mfc p rd num)) ∧
    (listed → n < 0x14 → x.lvl < writeAt → s.Raises p 4 .priv (.mtc p num rs)) ∧
    (reads → listed → readAt ≤ x.lvl → rd ≠ 15 → Goes (.mfc p rd num) s fun t =>
      (t.cpuAt p.key).reg rd = if n = 0 then x.ps else if n < 0x18 then x.cr n else s.feat p.key (n - 0x18)) ∧
    (writes → listed → n ≠ 0 → n < 0x14 → writeAt ≤ x.lvl → x.loopsOk = true → (2 ≤ n → n ≤ 7 → x.la 0 = false ∧ x.la 1 = false) → Goes (.mtc p num rs) s fun t =>
      (t.cpuAt p.key).cr n = if n = 1 then v &&& 0xFFFFF000#32 else if n = 3 ∨ n = 4 ∨ n = 6 ∨ n = 7 then v &&& 0xFFFFFFFE#32
        else if n = 8 then v &&& 0x30F#32 else if n = 0x13 then v &&& 0xFFFFF800#32 else v)

/-- A write of PS by MTC (R231, R264, R298): what each level may change, and the three exceptions. -/
def Obligations.StatusWritesByLevel : Prop :=
  ∀ (x : Cpu) (v : Word),
    let l := (v.extractLsb' 8 2).toNat
    let calm := v.getLsbD 0 = false ∧ v.getLsbD 1 = false
    (l = 3 → x.mtcPs v = .error .undef) ∧
    (x.lvl = 1 → l = 2 → calm → x.mtcPs v = .error .priv) ∧
    (x.lvl = 0 → l ≠ 3 → x.loopsOk = true → ∃ y, x.mtcPs v = .ok y ∧ (∀ k, k < 27 → y.ps.getLsbD k = x.ps.getLsbD k) ∧
      ∀ k, 27 ≤ k → k < 32 → y.ps.getLsbD k = v.getLsbD k) ∧
    (x.lvl = 2 → l ≠ 3 → calm → x.limit l ≤ x.sp → ∃ y, x.mtcPs v = .ok y ∧ y.ps &&& 0xF80F0303#32 = v &&& 0xF80F0303#32) ∧
    (x.lvl = 2 → l ≠ 2 → l ≠ 3 → calm → x.sp < x.limit l → x.mtcPs v = .error (.stack x.sp))

/-- The rest of the system group (R254, R255, R281, R284, R307, R512): SWI and BRK take their exceptions with the next address saved, BRK halting for
debug where that is asked for; WFI waits; SYNC and SYNC.I complete once the store buffer has drained, and SYNC.I empties the fetch buffers. A store
that resets its own core as it drains is left out. -/
def Obligations.SystemInstructions : Prop :=
  ∀ (s : State) (c : Fin 9) (num : BitVec 8),
    let x := s.cpuAt c
    let y := x.advance (x.pc + 4#32)
    let p := Proc.core c
    let u := s.fetched p 4
    let d := u.drainAll c
    (s.Issues p 4 (.swi p num) → exec (.swi p num) s = .next (((u.setCpuAt c y).raiseAt p (.swi num.toNat) y.pc).stepped p)) ∧
    (s.Issues p 4 (.brk p num) →
      (s.brkHalts p = false → exec (.brk p num) s = .next (((u.setCpuAt c y).raiseAt p (.brk num.toNat) y.pc).stepped p)) ∧
      (s.brkHalts p = true → exec (.brk p num) s = .next ((u.setCpuAt c y).haltCore c 2))) ∧
    (x.lvl ≠ 0 → s.Issues p 4 (.wfi p) → exec (.wfi p) s = .next (u.completed p { y with wfi := true })) ∧
    (x.lvl = 0 → s.Raises p 4 .priv (.wfi p)) ∧
    (d.cpuAt c = x →
      (s.Issues p 4 (.sync p) → exec (.sync p) s = .next (d.completed p y)) ∧
      (s.Issues p 4 (.syncI p) → exec (.syncI p) s = .next ((d.fetchAfresh c).completed p y) ∧ ((d.fetchAfresh c).buf c).lines = [] ∧
        ((d.fetchAfresh c).buf c).btb = [])) ∧
    ((s.buf c).stores.length ≤ 4 → (d.buf c).stores = [])

/-- On a lane RFE and WFI are undefined, and SWI is a lane fault (R267, R309); SYNC and SYNC.I only go on. -/
def Obligations.LanesRefuseReturnAndWait : Prop :=
  ∀ (s : State) (n : Fin 16) (num : BitVec 8),
    let p := Proc.lane n
    let u := s.fetched p 4
    let fault := fun (e : Nat) => u.laneFault n 1 e (s.cpuAt (16 + n)).pc
    (s.Issues p 4 (.rfe p []) → exec (.rfe p []) s = .next ((fault 4).stepped p)) ∧
    (s.Issues p 4 (.wfi p) → exec (.wfi p) s = .next ((fault 4).stepped p)) ∧
    (s.Issues p 4 (.swi p num) → exec (.swi p num) s = .next (fault 8)) ∧ s.Sets p 4 id (.sync p) ∧ s.Sets p 4 id (.syncI p)

/-- RFE (R301, R302): from a readable frame whose level does not exceed EXC_ORIGIN or the level of the RFE, whose PC is even and whose
loops are valid, it restores w0 to w5, lk, LC0, LC1, PS, sp, NMI_ACTIVE and pc; a higher level raises PRIV, and an odd PC raises ALIGN. -/
def Obligations.ReturnRestoresTheFrame : Prop :=
  ∀ (s t : State) (c : Fin 9) (rivals : List (Fin 18)) (vs : List Word) (y : Cpu),
    let x := s.cpuAt c
    let f := fun k => vs.getD k 0#32
    let l := ((f 10).extractLsb' 8 2).toNat
    s.Issues (.core c) 4 (.rfe (.core c) rivals) → x.lvl ≠ 0 → x.sp.toNat % 4 = 0 → (s.fetched (.core c) 4).popWords (.core c) (rivals.map (·.val)) 12 x.sp.toNat = (vs, none, t) →
    t.cpuAt c = x →
    let unstacked := x.unstack (fun o => vs.getD (o / 4) 0#32)
    (l = 3 ∨ (x.cr 0x14).toNat % 4 < l ∨ x.lvl < l → unstacked = .error .priv) ∧
    (l < 3 → l ≤ (x.cr 0x14).toNat % 4 → l ≤ x.lvl → (f 11).getLsbD 0 = true → unstacked = .error (.align (f 11).toNat false)) ∧
    (∀ e, unstacked = .error e → let u := (t.raiseAt (.core c) e x.pc).stepped (.core c)
      (u.cpuAt c).pc ≠ 0x804#32 → (u.cpuAt c).rom ≠ some (u.cpuAt c).pc → exec (.rfe (.core c) rivals) s = .next u) ∧
    (unstacked = .ok y → f 11 ≠ 0x804#32 → x.step = false →
      Goes (.rfe (.core c) rivals) s fun u =>
        let z := u.cpuAt c
        [z.reg 0, z.reg 1, z.reg 2, z.reg 3, z.reg 4, z.reg 5, z.reg 14, z.cr 2, z.cr 5] = [f 9, f 8, f 7, f 6, f 5, f 4, f 3, f 2, f 1] ∧
        z.pc = f 11 ∧ z.ps = f 10 &&& 0xF80F0303#32 ∧ z.reg 15 = x.sp + 48#32 + (if (f 10).getLsbD 2 then 4#32 else 0#32) ∧
        u.on (R.CPS_NMI_ACTIVE c) = (f 10).getLsbD 3 ∧ l ≤ x.lvl)

/-- LOOP (R262): LSx, LEx and LCx take the body and the count, and a count other than 0 makes the loop active and goes on in its body. Where
a LOOP is forbidden it raises UNDEF (R264), and no word spells a LOOP without a body. -/
def Obligations.LoopStartsItsBodyOrIsUndefined : Prop :=
  ∀ (s : State) (p : Proc) (k imm : Bool) (count : BitVec 9) (len : BitVec 8) (rc : RegNo),
    let x := s.cpuAt p.key
    let ls := x.pc + 4#32
    let le := ls + BitVec.ofNat 32 (2 * len.toNat)
    let n := if imm then BitVec.ofNat 32 count.toNat else x.reg rc
    let forbidden := x.la k.toNat = true ∨ (k = true ∧ x.la 0 = true) ∨ (k = false ∧ x.la 1 = true ∧ ¬(x.cr 6 ≤ ls ∧ le ≤ x.cr 7))
    (s.Issues p 4 (.loop p k imm count len rc) → x.pc.toNat < 2 ^ 31 → ¬forbidden → Goes (.loop p k imm count len rc) s fun t =>
      let y := t.cpuAt p.key
      y.cr (if k then 6 else 3) = ls ∧ y.cr (if k then 7 else 4) = le ∧ y.la k.toNat = decide (n ≠ 0#32) ∧
      (n ≠ 0#32 → y.cr (if k then 5 else 2) = n ∧ y.pc = ls)) ∧
    (forbidden → s.Raises p 4 .undef (.loop p k imm count len rc)) ∧
    (∀ rv h0 h1, decodeInsn p rv h0 h1 ≠ some (.loop p k imm count 0#8 rc))

/-- Entry (R296, R299): where the frame lies at or above the handler level's limit, its pushes and the vector read are allowed and the
vector is even, the core stands at the vector at the handler's level with loops off, flags kept and sp at the frame; EXC_ORIGIN holds the
old level. -/
def Obligations.EntryReachesTheHandler : Prop :=
  ∀ (s s1 s2 : State) (c : Fin 9) (v hl : Nat) (pc vec : Word) (info : Nat) (addr : Option Nat),
    let x := s.cpuAt c
    let t := x.sp - 48#32
    let base := t &&& 0xFFFFFFF8#32
    2 ≤ v → v < 16 → hl < 3 → x.limit hl ≤ base →
    s.pushFrame c x.lvl base.toNat (x.frame pc (s.on (R.CPS_NMI_ACTIVE c)) (t.getLsbD 2)) = (true, s1) → s1.cpuAt c = x →
    0x440 ≤ ((x.cr 0x13).toNat + 4 * v) % 2 ^ 32 →
    (s1.setCpuAt c (x.setCr 0x14 (BitVec.ofNat 32 x.lvl))).vectorAt c hl (((x.cr 0x13).toNat + 4 * v) % 2 ^ 32) = (some vec, s2) →
    s2.cpuAt c = x.setCr 0x14 (BitVec.ofNat 32 x.lvl) → vec.getLsbD 0 = false →
    let u := s.enter c v hl pc info addr
    let y := u.cpuAt c
    y.pc = vec ∧ y.lvl = hl ∧ y.la 0 = false ∧ y.la 1 = false ∧ y.reg 15 = base ∧ y.flags = x.flags ∧ y.ipm = x.ipm ∧
    (∀ k : Nat, k < 15 → y.reg k = x.reg k) ∧ y.cr 0x14 = BitVec.ofNat 32 x.lvl ∧ u.rd (R.CPS_EXC_INFO c) = BitVec.ofNat 32 info ∧
    (∀ a, addr = some a → u.rd (R.CPS_FAULT_ADDR c) = BitVec.ofNat 32 a)

/-- An entry of a host core whose frame would lie below the limit of the handler's level is LOCKUP with cause 1: the core stops, sp and PS stay, and
CPS_LOCKUP and CPS_LOCKUP_PC say why (R299, R300). -/
def Obligations.EntryBelowTheLimitLocksUp : Prop :=
  ∀ (s : State) (c : Fin 9) (v hl : Nat) (pc : Word) (info : Nat) (addr : Option Nat),
    let x := s.cpuAt c
    c ≠ 8 → v < 16 → ((x.sp - 48#32) &&& 0xFFFFFFF8#32) < x.limit hl →
    let u := s.enter c v hl pc info addr
    (u.cpuAt c).started = false ∧ (u.cpuAt c).reg 15 = x.reg 15 ∧ (u.cpuAt c).ps = x.ps ∧
    u.rd (R.CPS_LOCKUP c) = BitVec.ofNat 32 (1 + 16 * v) ∧ u.rd (R.CPS_LOCKUP_PC c) = pc

/-- Interrupts and the NMI (R303, R304): at a boundary the core enters the pending enabled interrupt above IPM with the highest PRIO, at the
level of its configuration, or a pending NMI at M while NMI_ACTIVE is 0. -/
def Obligations.InterruptsEnterAtBoundaries : Prop :=
  ∀ (s : State) (c : Fin 9) (k : Nat), s.atBoundary c = true → (s.cpuAt c).inService = false →
    (s.nmiMay c = false → s.irqNext c = some k →
      exec (.interruptEntry c) s = .next ((s.enter c (16 + k) (s.irqLvl c k) (s.cpuAt c).pc (2 ^ 24 * k) none).stepped (.core c)) ∧
      (s.cpuAt c).ipm < s.irqPrio c k ∧ (s.cpuAt c).lvl ≤ s.irqLvl c k) ∧
    (s.nmiMay c = true → exec (.nmiEntry c) s = .next (((s.svcSuspend c).enter c 1 2 (s.cpuAt c).pc 1 none).stepped (.core c)) ∧
      s.on (R.CPS_NMI_ACTIVE c) = false)

/-- The interrupt controller's registers (R303 to R306, R291): at M, CPS_IRQ_SET makes interrupts pending, CPS_IRQ_CLR clears those that did not
become pending in the same cycle,
CPS_IRQ_CFG takes PRIO, EN and LVL, and CPS_NMI.SET makes the NMI pending. -/
def Obligations.InterruptRegistersAtMachineLevel : Prop :=
  ∀ (s : State) (c : Fin 9) (j : Fin 8) (n : Fin 256) (v : Word), s.ready (.core c) = true → (s.cpuAt c).lvl = 2 →
    (∀ a, 0xE0000000 ≤ a → a < 0xE0010000 → a % 4 = 0 → s.coreMay c 2 .write a 4 = true) →
    Goes (.cpsIrqSet c j v) s (fun t => t.rd (R.CPS_IRQ_SETj c j) = s.rd (R.CPS_IRQ_SETj c j) ||| v) ∧
    Goes (.cpsIrqClr c j v) s (fun t => t.rd (R.CPS_IRQ_SETj c j) = s.rd (R.CPS_IRQ_SETj c j) &&& ~~~(v &&& ~~~(s.regs.hotAt (R.CPS_IRQ_SETj c j)))) ∧
    Goes (.cpsIrqCfgWrite c n v) s (fun t => t.rd (R.CPS_IRQ_CFGn c n) = v &&& 0x3F#32) ∧
    Goes (.cpsNmiSet c) s (fun t => t.on (R.CPS_NMI_PEND c) = true)

/-- An instruction's exception (R292, R293) is number 2 to 9: a core enters its handler, at S from U and at M from S or M; on a lane it is a lane
fault. Halfwords at the pc that no table of spec/10 defines raise UNDEF (R236). FETCH_FAULT (R278, R292): a core whose next halfword lies
outside what it may fetch takes BUS with FETCH set, and one whose halfword comes from an uncorrectable line takes ECC. -/
def Obligations.FaultsAreRaisedAtTheirLevel : Prop :=
  (∀ (s : State) (c : Fin 9) (n : Fin 16) (p : Proc) (short : Bool) (e : Exc) (pc : Word),
    s.raiseAt (.core c) e pc = s.enter c e.num (if (s.cpuAt c).lvl = 0 then 1 else 2) pc e.info e.addr ∧
    s.raiseAt (.lane n) e pc = s.laneFault n e.laneCause e.num (s.cpuAt (16 + n)).pc ∧ 2 ≤ e.num ∧ e.num ≤ 9 ∧
    (s.issues p (formLen short) = true → (formLen short, none) ∈ s.decoded p [] →
      exec (.undefinedInstruction p short) s = .next ((s.fetched p (formLen short)).trapped p .undef))) ∧
  (∀ (s : State) (c : Fin 9),
    let a := (s.cpuAt c).pc.toNat
    let pc := (s.cpuAt c).pc
    s.ready (.core c) = true → s.displaced (.core c) = false → s.fetchWaits (.core c) a = false →
    (s.fetchMay (.core c) a = false → ∃ t : State, t.cpus = s.cpus ∧ t.mem = s.mem ∧
      exec (.fetchFault (.core c) false) s = .next ((t.raiseAt (.core c) (.bus a false true) pc).stepped (.core c))) ∧
    (s.fetchMay (.core c) a = true → s.lineHeld (.core c) a = false → s.codeSound a = false → ∃ t : State, t.cpus = s.cpus ∧ t.mem = s.mem ∧
      exec (.fetchFault (.core c) false) s = .next ((t.raiseAt (.core c) (.ecc a false true) pc).stepped (.core c))))

/-- DEVICE resets (R516, R517, R486, R491, R531): each cause of Table 23.1 holds the device, is recorded in RST_CAUSE and counted, stops
every processor and clears RAM but the context store; several in one cycle count once and LAST is the lowest (R518); key 0x3C alone lets RST_CTRL
reset; RESET_RELEASE ends the reset once RESET_N is high and no supply is low, samples PCIE_SPLIT, and keeps the VDDIO classes unless the reset was
a POR (R551). -/
def Obligations.DeviceResetsHoldTheDevice : Prop :=
  ∀ (s : State) (q : Requester) (key : Byte) (m : Fin 16) (rtc split : Bool),
    let held := fun (cause : Nat) (t : State) =>
      t.chip.held = true ∧ t.bitOn R.RST_CAUSE_CAUSES cause = true ∧ t.cpus = [] ∧ t.now = 0#64 ∧
      t.get R.RST_CAUSE_LAST = (if s.chip.struck then min (s.get R.RST_CAUSE_LAST) cause else cause) ∧
      (cause ≠ 0 → t.get R.RST_COUNT_COUNT = if s.chip.struck then s.get R.RST_COUNT_COUNT else (s.get R.RST_COUNT_COUNT + 1) % 2 ^ 32) ∧
      ∀ a, (0x10000000 ≤ a ∧ a < 0x20000000) ∨ (0x30000000 ≤ a ∧ a < 0x40000000) → t.byteAt a = 0#8
    Goes .resetNAssert s (fun t => held 1 t ∧ t.chip.resetN = false) ∧
    Goes .powerOn s (fun t => held 0 t ∧ t.get R.RST_CAUSE_CAUSES = 1 ∧ t.get R.RST_COUNT_COUNT = 0) ∧
    (s.Accepts q .write R.RST_CTRL →
      (key = 0x3C#8 → q = .dap → Goes (.rstCtrlDevice q key) s (held 4)) ∧
      (key = 0x3C#8 → (∃ c, q = .core c) ∨ (∃ n, q = .pcie n) → Goes (.rstCtrlDevice q key) s (held 3)) ∧
      (key ≠ 0x3C#8 → exec (.rstCtrlDevice q key) s = .next s)) ∧
    (s.monitored m = true → m ≠ 6 → s.chip.asleep ≠ 2 → Goes (.supplyReset m) s fun t => held 2 t ∧ t.chip.low.testBit m = true ∧
      (if m.val < 8 then t.bitOn R.PWR_SUP_LAST_CORE m else t.bitOn R.PWR_SUP_LAST_VDDIO (m - 8)) = true) ∧
    (s.monitored 6 = true → Goes (.supplyReset 6) s fun t => held 0 t ∧ t.chip.low.testBit 6 = true) ∧
    (s.recovering 6 = true → Goes .recoveryReset s (held 3)) ∧
    (s.chip.asleep ≠ 0 → (if rtc then s.on R.PWR_WAKE_EN_RTC && s.on R.PWR_RTC_CTRL_ALARM else s.on R.PWR_WAKE_EN_WAKE_N) = true →
      Goes (.wake rtc) s fun t => held 6 t ∧ t.get R.PWR_WAKE_CAUSE_FROM = s.chip.asleep % 4 ∧
        t.on (if rtc then R.PWR_WAKE_CAUSE_RTC else R.PWR_WAKE_CAUSE_WAKE_N) = true ∧
        (s.chip.asleep = 2 → s.chip.lost = false → ∀ a, 0x20000000 ≤ a → a < 0x23800000 → t.byteAt a = s.byteAt a)) ∧
    exec .resetNHigh s = .next { s with chip := { s.chip with resetN := true } } ∧
    (s.chip.held = true → s.chip.resetN = true → s.chip.low = 0 → Goes (.resetRelease split) s fun t =>
      t.chip.held = false ∧ t.chip.asleep = 0 ∧ t.on (R.PCIE_LINKl_STATUS_SPLIT 0) = split ∧ t.on (R.PCIE_LINKl_STATUS_SPLIT 1) = split ∧
      t.chip.por = false ∧ t.chip.io33 < 256 ∨ t.chip.io33 = s.chip.io33 ∧ s.chip.por = false)

/-- The boot (R44, R524 to R529, R504): without a PLL lock it waits in phase 3; in END nothing is applied; BOOT_RCV high, or no slot that
passes, ends in the recovery boot; else the slot whose header is readable, with no uncorrectable error in it, and whose SEQ is higher runs if it
passes, or the other one; so the boot, and the retry of one that waited for the PLLs, end with an image that runs. A restarted supervisor stands at
ENTRY in WATCH. -/
def Obligations.BootChoosesTheImage : Prop :=
  ∀ (s : State) (rcv lock : Bool) (cmp : BitVec 6),
    let first := fun (u : State) => (slotOrder (u.slotImage 0) (u.slotImage 1) (u.slotSound 0) (u.slotSound 1)).headD 0
    let ok := fun (u : State) (k : Nat) => checkImage (u.slotImage k) (u.get R.SCFG_FLOOR_FLOOR) u.fuses = none
    let runs := fun (u : State) (k : Nat) (fallback : Bool) (t : State) =>
      t.image = u.slotImage k ∧ t.get R.SCFG_STATUS_BASE_SLOT = k ∧ t.on R.SCFG_STATUS_FALLBACK = fallback ∧ t.get R.RST_BOOT_PHASE = 9
    let recovery := fun (t : State) => t.get R.RST_BOOT_PHASE = 10 ∧ t.on R.RST_BOOT_RECOVERY = true ∧ t.image = s.image
    let chooses := fun (u : State) (i : Instr) =>
      (ok u (first u) → Goes i s (runs u (first u) false)) ∧ (¬ok u (first u) → ok u (1 - first u) → Goes i s (runs u (1 - first u) true)) ∧
      (¬ok u (first u) → ¬ok u (1 - first u) → Goes i s recovery)
    (s.dead = false → s.get R.RST_BOOT_PHASE = 1 → s.get R.SUP_REC_STATUS_STATE ≠ 3 →
      Goes (.deviceBoot rcv false cmp) s (fun t => t.get R.RST_BOOT_PHASE = 3 ∧ t.on R.RST_BOOT_PLL_WAIT = true ∧ t.on R.RST_BOOT_RCV_STRAP = rcv) ∧
      (s.fuses.lcs = 5 → Goes (.deviceBoot rcv true cmp) s fun t => t.get R.RST_BOOT_PHASE = 11 ∧ t.image = s.image) ∧
      (s.fuses.lcs ≠ 5 → Goes (.deviceBoot true true cmp) s recovery ∧ chooses (s.bootStart false).bootReady (.deviceBoot false true cmp))) ∧
    (s.dead = false → s.on R.RST_BOOT_PLL_WAIT = true →
      (s.fuses.lcs = 5 → Goes (.pllWaitRetry true cmp) s fun t => t.get R.RST_BOOT_PHASE = 11) ∧
      (s.fuses.lcs ≠ 5 → s.on R.RST_BOOT_RCV_STRAP = true → Goes (.pllWaitRetry true cmp) s recovery) ∧
      (s.fuses.lcs ≠ 5 → s.on R.RST_BOOT_RCV_STRAP = false → chooses s.bootReady (.pllWaitRetry true cmp))) ∧
    (lock = false → exec (.pllWaitRetry lock cmp) s = .next s) ∧
    (s.fuses.lcs ≠ 5 → let k := first s
      k < 2 ∧ (ok s k → runs s k false (s.bootSelect false cmp.toNat)) ∧ (¬ok s k → ok s (1 - k) → runs s (1 - k) true (s.bootSelect false cmp.toNat)) ∧
      (¬ok s k → ¬ok s (1 - k) → recovery (s.bootSelect false cmp.toNat))) ∧
    (s.get R.SUP_REC_STATUS_STATE = 2 → Goes .supervisorRestarted s fun t =>
      t.get R.SUP_REC_STATUS_STATE = 0 ∧ (t.cpuAt 8).started = true ∧ (t.cpuAt 8).pc = BitVec.ofNat 32 (0x38200000 + supEntry (records s.image)) ∧
      t.pav.wdt = some 0 ∧ t.pav.kicked = false)

/-- Segment reload, persist and the floor (R46, R47, R50, R51, R53): START checks the staged range, latches it and goes to CHECKING or FAILED, or is
refused while another reload runs, of two in one cycle the one of the higher partition; CHECKING, PREPARING and SWITCHING follow in turn; DONE makes the new image the running one; ADVANCE needs
its key and an image that stands in a slot, and the floor never falls. -/
def Obligations.ReloadGoesThroughItsStates : Prop :=
  ∀ (s : State) (q : Requester) (p j : Fin 8) (key : Byte) (r : Reload) (b : Fin 64) (a : Ahead) (persist ok : Bool),
    let start := if persist then Instr.reloadPersistRequest q p else .reloadStart q p
    let st := fun (t : State) => t.get (R.SCFG_RQn_STAT_STATE p)
    let img := s.bytesAt r.stage r.len
    let begun : Reload := { part := p, image := [], persist := persist, began := s.now, stage := (s.staging p).1, len := (s.staging p).2 }
    let busy := fun (k : Nat) (t : State) => t.get (R.SCFG_RQn_STAT_STATE k) = 5 ∧ t.get (R.SCFG_RQn_STAT_CODE k) = 0x0A03
    (s.Accepts q .write (R.SCFG_RQn_CTRL p) → st s ≠ 1 → st s ≠ 2 → st s ≠ 3 →
      (s.startNow = none → s.reload = none → s.persisting = none →
        (s.stagingOk p = true → Goes start s fun t => st t = 1 ∧ t.reload = some begun) ∧
        (s.stagingOk p = false → Goes start s fun t => st t = 5 ∧ t.get (R.SCFG_RQn_STAT_CODE p) = 0x0A08 ∧ t.reload = none)) ∧
      (s.startNow = none → s.reload.isSome ∨ s.persisting.isSome → Goes start s fun t => busy p t ∧ t.reload = s.reload) ∧
      (s.startNow = some j.val → j.val < p.val → Goes start s fun t => busy p t ∧ t.reload = s.reload) ∧
      (s.startNow = some j.val → p.val < j.val → s.stagingOk p = true → Goes start s fun t => busy j t ∧ st t = 1 ∧ t.reload = some begun)) ∧
    (s.reload = some r → r.part = p.val →
      (st s = 1 → (∀ c o, s.checkReload p img = some (c, o) → c < 65536 → Goes .reloadCheckDone s fun t =>
          st t = 5 ∧ t.get (R.SCFG_RQn_STAT_CODE p) = c ∧ t.reload = none) ∧
        (s.checkReload p img = none → Goes .reloadCheckDone s fun t => st t = 2 ∧ (t.reload.map (·.image)) = some img)) ∧
      (st s = 2 → r.holds.all s.gateOpen = true → Goes .reloadPrepareDone s fun t => st t = 3) ∧
      (st s = 3 → r.todo = [] → (∀ n, (s.bnd n).ahead = none) → s.deferred = [] → Goes .reloadDone s fun t =>
        st t = 4 ∧ t.image = r.image ∧ t.get R.SCFG_SEQ_SEQ = imgSeq r.image % 2 ^ 32 ∧ t.reload = none)) ∧
    ((s.bnd b).ahead = some a → Goes (.bindingSwitch b) s fun t => (t.bnd b).ahead = none ∧ t.get (R.LNC_Bb_STATUS_EPOCH b) = a.epoch % 256 ∧
      t.rd (R.LNC_Bb_DEST b) = a.dest) ∧
    (∀ bs, s.persisting = some (p.val, bs) → let k := if s.get R.SCFG_STATUS_BASE_SLOT = 0 then 1 else 0
      (s.flashOp k).state = 1 → (s.flashOp k).op = 0 → Goes (.persistDone ok) s fun t => t.persisting = none ∧ (t.flashOp k).state = 4 ∧
        t.on (if ok then R.SCFG_RQn_STAT_PERSISTED p else R.SCFG_RQn_STAT_PERSIST_FAIL p) = true ∧ (ok = true → t.get R.SCFG_STATUS_BASE_SLOT = k)) ∧
    (s.Accepts q .write R.SCFG_FLOOR_CTRL →
      (key = 0xA5#8 → s.on R.SCFG_STATUS_IN_SLOT = true → exec (.floorAdvance q key) s = .next { s with floorWant := some (s.get R.SCFG_SEQ_SEQ) }) ∧
      (key = 0xA5#8 → s.on R.SCFG_STATUS_IN_SLOT = false → Goes (.floorAdvance q key) s fun t => t.on R.SCFG_STATUS_FLOOR_REFUSED = true) ∧
      (key ≠ 0xA5#8 → exec (.floorAdvance q key) s = .next s)) ∧
    (∀ f, s.floorWant = some f → f < 2 ^ 32 → Goes .floorWritten s fun t => t.get R.SCFG_FLOOR_FLOOR = max f (s.get R.SCFG_FLOOR_FLOOR) ∧ t.floorWant = none)

/-- Fast converters (R56, R58, R62, R64, R66, R68, R71 to R74, R78): a hold edge makes the rounded and limited code and delivers it when the
trigger says so; ARM selects the first congruent instant 512 ticks or more ahead, merges with an event of its cycle, is a new arming at the
armed word's own hold edge and an overrun else; COMMIT takes the shadows; the copies go to every lane of the channel; and the steps of
background calibration, with their times. -/
def Obligations.FastConvertersSampleAndCalibrate : Prop :=
  ∀ (s : State) (q : Requester) (n : Fin 24) (g : Fin 3) (vd diff : Int) (v : Word) (freeze : Bool) (w : Sample) (t0 : Time),
    let x := s.fch n
    let mode := s.get (R.FCV_CHn_TRIG_MODE n)
    let fs : Int := if s.get (R.FCV_CHn_CFG_RANGE n) = 1 then 500000000 else if s.get (R.FCV_CHn_CFG_RANGE n) = 2 then 250000000 else 1000000000
    let code := clampI (-8192) 8191 (roundDiv (vd * 8192) fs)
    let aligned := ∃ t, x.target = some t ∧ s.reached t = true
    let deliver := (mode = 1 ∧ aligned) ∨ (mode = 2 ∧ (x.count + 1) % (s.get (R.FCV_CHn_TRIG_DIV n) + 1) = 0)
    let m := s.get (R.FCV_CHn_TMOD_TMOD n)
    let y := s.fgr g
    let k := 8 * g.val + s.get (R.FCV_Gg_STATUS_NEXT_CH g)
    let merges := ∃ b, x.armed = some (b, false) ∧ s.sameCycle b = true
    let may := s.get (R.FCV_CHn_TRIG_MODE k) ∈ [0, 3] ∨ (s.fch k).delivered = true ∨ (3200000 ≤ s.since y.dueAt ∧ (s.fch k).target = none)
    (s.fcRuns n = true → s.onGrid n = true → Goes (.sampleHold n vd) s fun t =>
      fieldGet (t.rd (R.FCV_CHn_LAST n)) 0 16 = (if s.on (R.FCV_CHn_CFG_FORMAT n) then code * 4 else code) % 65536 ∧
      (t.fch n).hold = some s.now ∧ (¬deliver → t.fcOut = s.fcOut) ∧
      (deliver → t.fcOut = s.fcOut ++ [⟨n, t.rd (R.FCV_CHn_LAST n), s.now, s.get (R.FCV_CHn_CFG_LANES n), s.get (R.FCV_CHn_CFG_MAILBOX n)⟩])) ∧
    (s.fcOut.find? (fun u => u.chan == n.val) = some w → Goes (.converterWordOut n) s fun t =>
      t.fcOut = s.fcOut.eraseP (fun u => u.chan == n.val) ∧
      t.fcBox = s.fcBox ++ ((List.range 16).filter fun l => w.lanes.testBit l).map fun l => { w with lanes := l }) ∧
    (s.Accepts q .write (R.FCV_CHn_FIRE n) →
      (mode ≠ 1 → exec (.fcvFire q n) s = .next s) ∧
      (x.armed = some (t0, false) → s.sameCycle t0 = true → exec (.fcvFire q n) s = .next s) ∧
      (mode = 1 → ¬merges → x.target = some t0 → let anew := s.reached t0 = true ∧ s.fcRuns n = true ∧ s.onGrid n = true ∧ x.again = false
        Goes (.fcvFire q n) s fun t => t.fch n = { x with armed := some (s.now, true), again := t.fch n |>.again } ∧
          (anew → (t.fch n).again = true) ∧ (¬anew → t.on (R.FCV_CHn_STATUS_TRIG_OVERRUN n) = true ∧ (t.fch n).again = x.again)) ∧
      (mode = 1 → ¬merges → x.target = none → Goes (.fcvFire q n) s fun t => ∃ i, (t.fch n).target = some (BitVec.ofNat 64 i) ∧
        s.now.toNat + 512 ≤ i ∧ (m = 0 → i = s.now.toNat + 512) ∧ (m ≠ 0 → i < s.now.toNat + 512 + m ∧ i % m = s.get (R.FCV_CHn_TPHASE_TPHASE n) % m))) ∧
    (s.Accepts q .write (R.FCV_CHn_COMMIT n) → Goes (.fcvCommit q n) s fun t => (t.fch n).commit = some (x.target.isSome,
      [s.shad.rd (R.FCV_CHn_TRIG n), s.shad.rd (R.FCV_CHn_PHASE n), s.shad.rd (R.FCV_CHn_TMOD n), s.shad.rd (R.FCV_CHn_TPHASE n)])) ∧
    (s.Accepts q .write (R.FCV_CHn_DMA n) → Goes (.fcvDdivWrite q n v) s fun t =>
      t.get (R.FCV_CHn_DMA_DDIV n) = v.toNat % 16 ∧ t.get (R.FCV_CHn_DMA_WATERMARK n) = v.toNat / 256 % 256) ∧
    (s.calMay g = true → y.step = false → Goes (.calStepStart g) s fun t => (t.fgr g).step = true ∧ (t.fgr g).due = false ∧
      t.on (R.FCV_Gg_STATUS_STARTING g) = false) ∧
    (s.calRuns g = true → y.step = true → y.due = false → 32768 ≤ s.since y.since →
      (-16 ≤ diff → diff ≤ 16 → Goes (.calCompare g diff) s fun t => (t.fgr g).due = true ∧ (t.fgr g).dueAt = s.now) ∧
      (diff < -16 ∨ 16 < diff → (y.tries = 0 → Goes (.calCompare g diff) s fun t => t.fgr g = { y with tries := 1, since := s.now }) ∧
        (y.tries ≠ 0 → Goes (.calCompare g diff) s fun t => (t.fgr g).step = false ∧ t.on (R.FCV_Gg_STATUS_CAL_FAULT g) = true))) ∧
    (y.due = true → s.calRuns g = true → s.onGrid k = true → may → Goes (.sliceSwap g) s fun t =>
      t.get (R.FCV_CHn_STATUS_SLICE k) = s.get (R.FCV_Gg_STATUS_SPARE g) ∧ t.get (R.FCV_Gg_STATUS_SPARE g) = s.get (R.FCV_CHn_STATUS_SLICE k) ∧
      t.get (R.FCV_Gg_STATUS_NEXT_CH g) = (s.get (R.FCV_Gg_STATUS_NEXT_CH g) + 1) % 8 ∧ (t.fch k).swapped = true ∧ (t.fgr g).step = false) ∧
    (s.Accepts q .write (R.FCV_Gg_CAL_CTRL g) → Goes (.freezeWrite q g freeze) s fun t => t.on (R.FCV_Gg_CAL_CTRL_FREEZE g) = freeze ∧
      (freeze = true → y.step = false → t.on (R.FCV_Gg_STATUS_FROZEN g) = true))

/-- Comparators and scan converters (R80 to R84, R90, R91, R93, R96): the thresholds of Table 3.6 with their hysteresis, the lock, the test
pulse of 1.0 µs, below which the comparator follows its input; the start of a round on its interval, its mask, a result's value, the end of a
round, and the window limits. -/
def Obligations.ComparatorsAndScanConverters : Prop :=
  ∀ (s : State) (q : Requester) (c : Fin 48) (vd : Int) (v : BitVec 5) (k : Fin 4) (n : Fin 80) (i : Nat) (rest : List Nat) (hi was : Bool) (lim : BitVec 24) (t0 : Time),
    let fs := fullScale (s.get (R.FCV_CHn_CFG_RANGE (c.val / 2)))
    let th := signed 10 (s.get (R.CMP_Cc_THR_THRESH c)) * fs
    let hy : Int := [0, fs, 2 * fs, 4 * fs].getD (s.get (R.CMP_Cc_CTRL_HYST c)) 0
    let live := s.on (R.CMP_Cc_STATUS_LIVE c)
    let rises := if c.val % 2 = 0 then th < 512 * vd else 512 * vd < th
    let falls := if c.val % 2 = 0 then 512 * vd < th - hy else th + hy < 512 * vd
    let ch := scanChannel k i
    let x := s.sch ch
    let conv := s.conv k
    let due := conv.began = none ∨ ∃ b, conv.began = some b ∧ s.since b ≠ 0 ∧ s.since b % (conv.gap * 6400) = 0
    (s.cmpOn c = true → s.pulse c = none → live = false → rises → Goes (.cmpOutputActive c vd) s fun t =>
      t.on (R.CMP_Cc_STATUS_LIVE c) = true ∧ t.on (R.CMP_Cc_STATUS_TRIPPED c) = true) ∧
    (s.cmpOn c = true → s.pulse c = none → live = true → falls → Goes (.cmpOutputInactive c vd) s fun t => t.on (R.CMP_Cc_STATUS_LIVE c) = false) ∧
    (s.cmpOn c = true → s.pulse c = some (t0, was) →
      (rises → Goes (.cmpOutputActive c vd) s fun t => t.on (R.CMP_Cc_STATUS_LIVE c) = live ∧ t.pulse c = some (t0, true)) ∧
      (falls → Goes (.cmpOutputInactive c vd) s fun t => t.on (R.CMP_Cc_STATUS_LIVE c) = live ∧ t.pulse c = some (t0, false))) ∧
    (s.Accepts q .write (R.CMP_Cc_CTRL c) → Goes (.cmpLock q c v) s fun t => t.on (R.CMP_Cc_CTRL_LOCK c) = true ∧
      t.get (R.CMP_Cc_CTRL_EN c) = (if s.on (R.CMP_Cc_CTRL_LOCK c) then s.get (R.CMP_Cc_CTRL_EN c) else v.toNat % 2) ∧
      t.get (R.CMP_Cc_CTRL_HYST c) = (if s.on (R.CMP_Cc_CTRL_LOCK c) then s.get (R.CMP_Cc_CTRL_HYST c) else v.toNat / 4 % 4) ∧
      t.get (R.CMP_Cc_CTRL_EVT_EN c) = v.toNat / 16) ∧
    (s.Accepts q .write (R.CMP_Cc_TEST c) → s.cmpOn c = true → Goes (.cmpTestPulse q c) s fun t =>
      t.on (R.CMP_Cc_STATUS_LIVE c) = true ∧ (s.pulse c = none → t.pulse c = some (s.now, live)) ∧
      (s.pulse c = some (t0, was) → t.pulse c = some (s.now, was))) ∧
    (s.pulse c = some (t0, was) → (s.since t0 < 32000 → exec (.cmpTestPulseEnd c vd) s = .next s) ∧
      (32000 ≤ s.since t0 → Goes (.cmpTestPulseEnd c vd) s fun t => t.pulse c = none ∧
        t.on (R.CMP_Cc_STATUS_LIVE c) = (live && s.cmpOn c && (decide rises || (was && !decide falls))))) ∧
    (conv.mode = 1 → s.on (R.SCV_Ck_STATUS_BUSY k) = false → s.scanRuns k = true → due → Goes (.scanRoundStart k) s fun t =>
      (t.conv k).began = some s.now ∧ (t.conv k).gap = max 1 (max (s.get (R.SCV_Ck_CTRL_ROUND k)) (t.conv k).slots.length) ∧
      (i < 20 → t.bitOn (R.SCV_Ck_MASK_MASK k) i = (s.on (R.SCV_CHn_CFG_EN ch) && !s.ownerInReset (s.owner 3 ch))) ∧
      (i < 20 → t.bitOn (R.SCV_Ck_MASK_MASK k) i = true → t.on (R.SCV_Ck_STATUS_BUSY k) = true)) ∧
    (conv.slots = i :: rest → s.scanRuns k = true → Goes (.scanConversion k vd) s fun t =>
      (t.conv k).slots = rest ∧
      (rest = [] → t.on (R.SCV_Ck_STATUS_BUSY k) = false ∧ t.get (R.SCV_Ck_STATUS_ROUNDS k) = (s.get (R.SCV_Ck_STATUS_ROUNDS k) + 1) % 65536) ∧
      (s.ownerInReset (s.owner 3 ch) = false → x.void = false → x.count + 1 = 2 ^ x.avg → t.on (R.SCV_CHn_RESULT_VALID ch) = true ∧
        t.get (R.SCV_CHn_RESULT_VALUE ch) = (x.sum + (s.scanCode ch vd).1) / 2 ^ x.shift % 2 ^ 24 ∧
        t.get (R.SCV_CHn_RESULT_RSEQ ch) = (s.get (R.SCV_CHn_RESULT_RSEQ ch) + 1) % 16)) ∧
    (s.Accepts q .write (if hi then R.SCV_CHn_WIN_HI n else R.SCV_CHn_WIN_LO n) → Goes (.winLimitWrite q n hi lim) s fun t =>
      t.get (if hi then R.SCV_CHn_WIN_HI_HI n else R.SCV_CHn_WIN_LO_LO n) = lim.toNat ∧ (t.sch n).wcnt = 0)

/-- Lanes (R102, R105 to R111, R113, R115, R520): a trigger waits at an idle binding, replaces one that waits and overruns a busy one, and a hardware
trigger and a FIRE of one cycle count as one; a word enters its mailbox; a
dispatch starts the activation at ENTRY with its T, by the gate or, STARVED, once its limit has passed; OUT, DONE and DEADLINE; faults and the LANE reset. -/
def Obligations.LanesRunActivations : Prop :=
  ∀ (s : State) (q : Requester) (b : Fin 64) (n : Fin 16) (m : Fin 8) (k : Fin 4) (l : Bool) (t0 : Time) (v : Word) (x : Sample) (w o : Trig) (a : Act),
    let lane := s.laneOf n
    let busy := fun (j : Nat) => (s.laneOf j).act.isSome || s.on (R.LNC_Ln_STATUS_HALTED j)
    let waits := fun (i : Instr) (kind : Nat) (tt : Time) =>
      let overruns := fun (t : State) => t.on (R.LNC_Bb_STATUS_OVERRUN b) = true ∧
        t.get (R.LNC_Bb_COUNTS_OVERRUNS b) = min (s.get (R.LNC_Bb_COUNTS_OVERRUNS b) + 1) 65535
      let idle := ∀ j, j ∈ s.lanesOf b → busy j = false
      let new : Trig := ⟨tt, kind, none, s.now, true, s.compared b, none⟩
      (s.bound b = true → s.ownerInReset (s.bindingOwner b) = false →
        (s.mergedTrig b kind = false → idle → (s.bnd b).wait = none → Goes i s fun t =>
          (t.bnd b).wait = some new ∧ (∀ c, c ≠ b.val → t.bnd c = s.bnd c)) ∧
        (s.mergedTrig b kind = false → idle → (s.bnd b).wait = some o → Goes i s fun t => (t.bnd b).wait = some new ∧ overruns t) ∧
        (s.mergedTrig b kind = false → (∃ j, j ∈ s.lanesOf b ∧ busy j = true) → Goes i s fun t =>
          overruns t ∧ (t.bnd b).wait = (s.bnd b).wait ∧ t.lane = s.lane) ∧
        (s.mergedTrig b kind = true → Goes i s fun t => t.rd (R.LNC_Bb_COUNTS b) = s.rd (R.LNC_Bb_COUNTS b) ∧ t.lane = s.lane ∧
          (t.bnd b).wait.isSome = (s.bnd b).wait.isSome))
    let e := s.laneNo b l
    let starts := fun (t : State) => ∃ y, (t.laneOf e).act = some y ∧ y.binding = b.val ∧ y.epoch = s.epochNow b ∧ y.t = w.t ∧ y.sends = 0 ∧
      (t.laneOf e).actT = w.t ∧ (t.cpuAt (16 + e)).pc = BitVec.ofNat 32 (0x30000000 + 0x20000 * e + s.get (R.LNC_Bb_ENTRY_ENTRY b))
    let words := (a.stage.set k v).filter fun p => fieldGet (s.destOf a.binding a.epoch) (8 * p.1 + 6) 2 != 0
    let limit := s.get (R.LNC_Bb_WAIT_WAIT_LIMIT b)
    let deadline := s.get (R.LNC_Bb_CTRL_DEADLINE a.binding)
    waits (.laneTrigger b t0) (s.get (R.LNC_Bb_MAP_TRIG_KIND b)) t0 ∧
    (s.Accepts q .write (R.LNC_Bb_CMD b) → waits (.bindingFire q b) 4 s.now) ∧
    (s.fcBox.find? (fun y => y.lanes == n.val && y.box == m.val) = some x → Goes (.mailboxWordArrival n m) s fun t =>
      let box := (t.laneOf n).boxes.get {} m
      box.word = x.word ∧ box.time = x.time ∧ box.count = (lane.boxes.get {} m).count + 1 ∧ t.fcBox = s.fcBox.erase x) ∧
    (s.waiting b l = some w → s.laneReady b l = true →
      (s.gateHolds b l w = true → Goes (.dispatch b l) s starts) ∧
      (s.gateHolds b l w = false → limit ≠ 0 → 32 * limit ≤ s.since w.at_ → Goes (.waitLimitExpiry b l) s fun t => starts t ∧
        t.on (R.LNC_Bb_STATUS_STARVED b) = true) ∧
      (limit = 0 ∨ s.since w.at_ < 32 * limit → exec (.waitLimitExpiry b l) s = .next s)) ∧
    (lane.act = some a →
      Goes (.outSend n k v) s (fun t => (t.laneOf n).act = some { a with stage := [], sends := a.sends + 1 } ∧
        (t.laneOf n).out = lane.out ++ if words = [] then [] else [⟨a.binding, a.epoch, a.sends, a.stale, a.t, words⟩]) ∧
      Goes (.outHold n k v) s (fun t => (t.laneOf n).act = some { a with stage := a.stage.set k v } ∧ (t.laneOf n).out = lane.out) ∧
      Goes (.activationDone n) s (fun t => (t.laneOf n).act = none ∧ (t.laneOf n).out = lane.out) ∧
      (deadline ≠ 0 → a.since = some t0 → 32 * deadline ≤ a.ran + s.since t0 → Goes (.deadlineMiss n) s fun t => (t.laneOf n).act = none ∧
        t.get (R.LNC_Ln_FAULT_CAUSE n) = 4) ∧
      (deadline = 0 ∨ a.since = none → exec (.deadlineMiss n) s = .next s)) ∧
    (s.Accepts q .write (R.LNC_Ln_CTRL n) →
      Goes (.clrfaultLane q n) s (fun t => t.get (R.LNC_Ln_FAULT_CAUSE n) = 0 ∧ t.get (R.LNC_Ln_FAULT_EXC n) = 0 ∧ t.rd (R.LNC_Ln_FAULT_PC n) = 0#32) ∧
      (s.viewOf q = platform ∨ s.served n = none → Goes (.laneReset q n) s fun t =>
        (t.laneOf n).act = none ∧ t.cpuAt (16 + n) = Cpu.init (16 + n) ∧ t.rd (R.LNC_Ln_ACTCNT n) = 0#32 ∧
        ∀ c, s.served n = some c → t.get (R.LNC_Ln_FAULT_CAUSE n) = 6 ∧ (t.bnd c).wait = none) ∧
      (s.viewOf q ≠ platform → (s.served n).isSome → exec (.laneReset q n) s = .next s))

/-- The commit stage (R111, R116 to R118, R122 to R125): a word with an old epoch is discarded and counted; a word of a single lane is due unless
the binding is forced; a pair of equal words is accepted and a pair that differs, or a half that waits for CMP_WAIT, forces the binding; delivery
goes to the destination that DEST names; SWAP, RELEASE and CLEAR. -/
def Obligations.CommitStageChecksWords : Prop :=
  ∀ (s : State) (q : Requester) (b : Fin 64) (n : Fin 16) (x : Send) (rest : List Send) (h : Half) (left : List Half) (dest : Word) (due : List (Word × Send))
    (k : Fin 4) (v : Word),
    let c := x.binding
    let map := s.rd (R.LNC_Bb_MAP c)
    let second := fieldGet map 4 4 == n.val
    let current := x.stale = false ∧ map.msb = true ∧ x.epoch = s.get (R.LNC_Bb_STATUS_EPOCH c)
    let failed := fun (q : RF) (d : Nat) (t : State) => t.on q = true ∧ t.on (R.LNC_Bb_STATUS_FORCED d) = true
    (s.running 16 = true → (s.laneOf n).out = x :: rest → (s.bnd c).ahead = none →
      (¬current → Goes (.commitWordArrival n) s fun t => (t.laneOf n).out = rest ∧
        t.get R.LNC_LATEDROP_COUNT = min (s.get R.LNC_LATEDROP_COUNT + x.words.length) (2 ^ 32 - 1) ∧ t.bind = s.bind) ∧
      (current → fieldGet map 25 1 = 0 → Goes (.commitWordArrival n) s fun t => (t.laneOf n).out = rest ∧
        (t.bnd c).due = (s.bnd c).due ++ if s.on (R.LNC_Bb_STATUS_FORCED c) then [] else [(s.rd (R.LNC_Bb_DEST c), x)]) ∧
      (current → fieldGet map 25 1 = 1 → (s.bnd c).pairs = [h] → h.second = !second → h.send.num = x.num →
        (h.send.words = x.words → s.on (R.LNC_Bb_STATUS_FORCED c) = false → Goes (.commitWordArrival n) s fun t =>
          (t.bnd c).pairs = [] ∧ (t.bnd c).due = (s.bnd c).due ++ [(s.rd (R.LNC_Bb_DEST c), x)]) ∧
        (h.send.words ≠ x.words → Goes (.commitWordArrival n) s fun t => (t.bnd c).pairs = [] ∧ (t.bnd c).due = (s.bnd c).due ∧
          failed (R.LNC_Bb_STATUS_MISMATCH c) c t))) ∧
    ((s.bnd b).pairs = h :: left → let limit := 32 * s.get (R.LNC_Bb_CTRL_CMP_WAIT b)
      (limit ≤ s.since h.at_ → Goes (.pairWaitExpiry b) s fun t => (t.bnd b).pairs = left ∧ failed (R.LNC_Bb_STATUS_MISSING b) b t) ∧
      (s.since h.at_ < limit → exec (.pairWaitExpiry b) s = .next s)) ∧
    ((s.bnd b).due = (dest, { x with words := [(k.val, v)] }) :: due →
      let u := s.setBnd b { s.bnd b with due := due }
      let id := fieldGet dest (8 * k) 5
      let kind := fieldGet dest (8 * k + 6) 2
      (s.on (R.LNC_Bb_STATUS_FORCED b) = true → exec (.commitDelivery b) s = .next u) ∧
      (s.on (R.LNC_Bb_STATUS_FORCED b) = false → exec (.commitDelivery b) s = .next
        (if kind = 1 then u.laneCompare id v else if kind = 2 then u.armWord id v.toNat else if kind = 3 then u.linkWord id x.t v.toNat else u))) ∧
    (s.Accepts q .write (R.LNC_Bb_CMD b) →
      let held := s.isHot (R.LNC_Bb_STATUS_FORCED b) || s.pathForced b || (s.compared b && s.on R.SUP_CMPTEST_COMMIT)
      Goes (.laneSwap q b) s (fun t => t.on (R.LNC_Bb_STATUS_SWAP_PENDING b) = true) ∧
      (held = false → Goes (.releaseBinding q b) s fun t => t.on (R.LNC_Bb_STATUS_FORCED b) = false) ∧
      (held = true → exec (.releaseBinding q b) s = .next s) ∧
      Goes (.clearBindingCounts q b) s fun t => t.get (R.LNC_Bb_STATUS_LATEDROPS b) = 0 ∧ t.rd (R.LNC_Bb_COUNTS b) = 0#32)

/-- PWM units (R130 to R148): the period grid, the start, the half period, the reference's edges, commits with the period start that applies them,
compares with the cycle in which they land, force sources, and the clearing of latched ones that did not set in the same cycle. -/
def Obligations.PwmUnitsKeepTheirGrid : Prop :=
  ∀ (s : State) (q : Requester) (n : Fin 32) (g : Fin 4) (v units : Word) (mask : BitVec 4) (force : Bool) (t0 : Time) (w0 w1 w2 w3 w4 : Word) (k0 : Nat),
    let u := s.unit n
    let runs := s.on (R.PWM_Un_STATUS_RUNNING n)
    let ready := s.groupReady (n.val / 8)
    let p := s.period n
    let pos := pulse (s.get (R.PWM_Un_CFG_CARRIER n)) p (s.get (R.PWM_Un_CMP_ACTIVE_C n))
    let c := s.carrier n
    let grid := fun (t : State) => (t.unit n).last = s.now ∧ (t.unit n).next = s.now + BitVec.ofNat 64 p ∧
      t.get (R.PWM_Un_PERIODS_COUNT n) = (s.get (R.PWM_Un_PERIODS_COUNT n) + 1) % 2 ^ 32 ∧ t.on (R.PWM_Un_STATUS_RUNNING n) = true
    let landed := u.landed = some t0 ∧ t0.toNat / 32 < s.now.toNat / 32
    let commits := fun (m : Nat) (t : State) => (t.unit m).commits = (s.unit m).commits ++ [(s.now, [R.PWM_Un_CFG m, R.PWM_Un_PERIOD m, R.PWM_Un_DEADTIME m,
      R.PWM_Un_START_LO m, R.PWM_Un_START_HI m].map fun r => s.shad.rd r)]
    let stays := fun (k : Nat) => !mask.getLsbD k || (s.regs.hotAt (R.PWM_Un_LATCH n)).getLsbD k
    let start := (s.shad.rd (R.PWM_Un_START_LO n)).toNat + (s.shad.rd (R.PWM_Un_START_HI n)).toNat * 2 ^ 32
    let per := (s.shad.rd (R.PWM_Un_PERIOD n)).toNat
    (runs = true → u.lost = false → ready = true → s.now = u.next → s.reload = none → u.commits = [(t0, [w0, w1, w2, w3, w4])] → t0.toNat / 32 < s.now.toNat / 32 →
      Goes (.periodStart n) s fun t => t.rd (R.PWM_Un_CFG n) = w0 ∧ t.rd (R.PWM_Un_PERIOD n) = w1 ∧ t.rd (R.PWM_Un_DEADTIME n) = w2 ∧ (t.unit n).commits = []) ∧
    (runs = true → u.lost = false → ready = true → s.now = u.next → s.reload = none → u.commits = [] →
      (s.on (R.PWM_Un_CFG_ENABLE n) = true → Goes (.periodStart n) s fun t => grid t ∧ (landed → t.rd (R.PWM_Un_CMP_ACTIVE n) = s.rd (R.PWM_Un_CMP n))) ∧
      (s.on (R.PWM_Un_CFG_ENABLE n) = false → Goes (.periodStart n) s fun t => t.on (R.PWM_Un_STATUS_RUNNING n) = false ∧
        (t.unit n).safeA = true ∧ (t.unit n).safeB = true)) ∧
    (u.starting = true → ready = true → s.reached u.next = true → p ≠ 0 → s.since u.next % p = 0 → s.reload = none →
      Goes (.unitFirstPeriodStart n) s fun t => grid t ∧ (t.unit n).starting = false ∧ (s.since u.next ≠ 0 → t.on (R.PWM_Un_STATUS_START_LATE n) = true)) ∧
    (runs = true → u.lost = false → ready = true → c = p / 2 → s.get (R.PWM_Un_CFG_UPDATE n) = 1 → landed → Goes (.halfPeriod n) s fun t =>
      t.rd (R.PWM_Un_CMP_ACTIVE n) = s.rd (R.PWM_Un_CMP n) ∧ (t.unit n).last = u.last) ∧
    (runs = true → c ≠ 0 →
      (u.rose = false → pos.1 ≤ c → c < pos.2 → Goes (.pwmEdge n) s fun t => (t.unit n).ref = true ∧ (u.ref = false → (t.unit n).edge = s.now) ∧
        (pos.1 < c → t.on (R.PWM_Un_STATUS_LATE_EDGE n) = true)) ∧
      (u.rose = true → u.fell = false → pos.2 ≤ c → Goes (.pwmEdge n) s fun t => (t.unit n).ref = false ∧ (u.ref = true → (t.unit n).edge = s.now))) ∧
    (s.Accepts q .write (R.PWM_Un_COMMIT n) → s.ownerInReset (s.owner 4 n) = true → exec (.pwmCommit q n) s = .next s) ∧
    (s.Accepts q .write (R.PWM_Un_COMMIT n) → s.ownerInReset (s.owner 4 n) = false →
      (runs = true → Goes (.pwmCommit q n) s (commits n)) ∧
      (runs = false → Goes (.pwmCommit q n) s fun t => t.rd (R.PWM_Un_CFG n) = s.shad.rd (R.PWM_Un_CFG n) ∧
        t.rd (R.PWM_Un_PERIOD n) = s.shad.rd (R.PWM_Un_PERIOD n) ∧ (t.unit n).starting = (s.shad.rd (R.PWM_Un_CFG n)).getLsbD 8 ∧
        ((s.shad.rd (R.PWM_Un_CFG n)).getLsbD 8 = true →
          (s.now.toNat + 2048 ≤ start → (t.unit n).next = BitVec.ofNat 64 start) ∧
          (start < s.now.toNat + 2048 → per ≠ 0 → ∃ k, (t.unit n).next = BitVec.ofNat 64 (start + k * per) ∧
            s.now.toNat + 2048 ≤ start + k * per ∧ start + k * per < s.now.toNat + 2048 + per)))) ∧
    (s.Accepts q .write R.PWM_COMMIT_ALL → Goes (.pwmCommitAll q units) s fun t => ∀ m, m < 32 →
      (units.getLsbD m = true → s.owner 4 m = s.viewOf q → s.ownerInReset (s.owner 4 m) = false → s.on (R.PWM_Un_STATUS_RUNNING m) = true → commits m t) ∧
      (units.getLsbD m = false ∨ s.owner 4 m ≠ s.viewOf q → t.unit m = s.unit m)) ∧
    (s.Accepts q .write (R.PWM_Un_CMP n) →
      (s.named 1 n = true → Goes (.pwmCmpWrite q n v) s fun t => t.on (R.PWM_Un_STATUS_CMP_IGNORED n) = true ∧
        t.rd (R.PWM_Un_CMP n) = s.rd (R.PWM_Un_CMP n) ∧ t.pwm = s.pwm) ∧
      (s.named 1 n = false → Goes (.pwmCmpWrite q n v) s fun t => t.rd (R.PWM_Un_CMP n) = s.rd (R.PWM_Un_CMP n) ∧
        (t.unit n).coming = u.coming ++ [(s.now.toNat / 32 + 1, v)])) ∧
    (u.coming = [(k0, v)] → k0 ≤ s.now.toNat / 32 → let t := s.unitCycle n
      t.rd (R.PWM_Un_CMP n) = v ∧ (t.unit n).coming = [] ∧
      if runs = false ∨ s.get (R.PWM_Un_CFG_UPDATE n) = 2 then t.rd (R.PWM_Un_CMP_ACTIVE n) = v
      else t.rd (R.PWM_Un_CMP_ACTIVE n) = s.rd (R.PWM_Un_CMP_ACTIVE n) ∧ (t.unit n).landed = some s.now) ∧
    (s.unitForce n = true → Goes (.pwmForceActive n) s fun t => (t.unit n).safeA = true ∧ (t.unit n).safeB = true ∧ t.on (R.PWM_Un_STATUS_SAFE n) = true) ∧
    (s.Accepts q .write (R.PWM_Un_LATCH n) → Goes (.pwmLatchClear q n mask) s fun t =>
      t.on (R.PWM_Un_LATCH_TRIP_EVT n) = (s.on (R.PWM_Un_LATCH_TRIP_EVT n) && stays 1) ∧
      t.on (R.PWM_Un_LATCH_TRIP_CMP n) = ((s.on (R.PWM_Un_LATCH_TRIP_CMP n) && stays 0) || s.cmpLive n) ∧
      t.on (R.PWM_Un_LATCH_WARN_A n) = ((s.on (R.PWM_Un_LATCH_WARN_A n) && stays 2) || (s.unitWarn n && s.on (R.PWM_Un_SAFE_WARN_SAFE_A n))) ∧
      t.on (R.PWM_Un_LATCH_WARN_B n) = ((s.on (R.PWM_Un_LATCH_WARN_B n) && stays 3) || (s.unitWarn n && s.on (R.PWM_Un_SAFE_WARN_SAFE_B n)))) ∧
    (s.Accepts q .write (R.PWM_Un_FORCE n) → Goes (.swForcePwm q n force) s fun t => t.on (R.PWM_Un_FORCE_SW_FORCE n) = force ∧
      (force = true → (t.unit n).safeA = true ∧ (t.unit n).safeB = true)) ∧
    (s.running (41 + g) = true → s.domReset (41 + g) = false → Goes (.pwmGroupAligned g) s fun t =>
      t.on (R.PWM_Gg_STATUS_ALIGNED g) = true ∧ t.on (R.PWM_Gg_STATUS_SUBSTEP_OK g) = true) ∧
    (runs = true → u.lost = true → ready = true → p ≠ 0 → Goes (.pwmResumeGrid n) s fun t => t.on (R.PWM_Un_STATUS_START_LATE n) = true ∧
      (t.unit n).lost = false ∧
      ∃ k, (t.unit n).next = u.last + BitVec.ofNat 64 (k * p) ∧ 1 ≤ k ∧ s.since u.last ≤ k * p ∧ (k = 1 ∨ k * p < s.since u.last + p)) ∧
    (u.lost = false → exec (.pwmResumeGrid n) s = .next s)

/-- Cell links (R154, R155, R160 to R182): a frame begins at a block boundary in its slot, takes commands block by block and ends as 382 bytes; a SAFE
order takes the place of a block; an upstream frame updates the mirror or counts as faulty and ages it; the states of Table 7.9 and what each command or event makes of them; the SAFE order; forces; software's requests. -/
def Obligations.CellLinksFollowTheirStates : Prop :=
  ∀ (s : State) (q : Requester) (l : Fin 32) (delay : Fin 169) (rtt : BitVec 24) (bad : BitVec 48) (fr : List Byte) (k : Nat) (own hiBer force : Bool)
    (r : MgmtReq) (v : Word) (f : Sending) (b0 : Nat),
    let x := s.flink l
    let st := fun (t : State) => t.get (R.FLK_Ln_STATUS_STATE l)
    let ordered := fun (t : State) => (t.flink l).order = some (s.now, s.get (R.FLK_Ln_IMAGE_SAFE_KIND l))
    let down := fun (cause : Nat) (t : State) => st t = 5 ∧ t.get (R.FLK_Ln_STATUS_CAUSE l) = cause
    let count := leNat ((fr.drop 3).take 1) % 64
    (s.now.toNat % 8192 = 0 → s.squelched l = false → s.running (78 + l.val / 4) = true → s.domReset (78 + l.val / 4) = false →
      Goes (.frameSlot l delay) s fun t => let start := x.next.getD (25 * (s.now.toNat + delay))
        (t.flink l).next = some start ∧ (t.flink l).seq = (x.seq + 1) % 256 ∧ (t.flink l).queue = x.queue ∧
        ∃ flags req, (t.flink l).sending = some ⟨x.seq, flags, BitVec.ofNat 64 (start / 25), req, 0, []⟩) ∧
    (x.sending = some f → let y := x.nextBlock b0
      y.next = some (b0 + 4224) ∧ y.swap = none ∧ y.line.length = x.line.length + 1 ∧
      (2 ≤ f.next → f.next < 42 → y.queue = x.queue.tail ∧ y.sending.map (·.cmds) = some (f.cmds ++ [x.queue.headD 0])) ∧
      (f.next < 2 ∨ 42 ≤ f.next → y.queue = x.queue) ∧ (f.next < 47 → y.sending.map (·.next) = some (f.next + 1)) ∧
      (47 ≤ f.next → y.sending = none ∧ y.frame.length = 382 ∧ y.frame.take 2 = [0x11#8, BitVec.ofNat 8 f.seq])) ∧
    (s.linkUp l = true → (x.receive s.now bad.toNat).2 = none →
      (headerOk fr bad.toNat = false → Goes (.upstreamFrame l rtt bad fr) s fun t =>
        t.get (R.FLK_Ln_ERRCNT_CHECK l) = min (s.get (R.FLK_Ln_ERRCNT_CHECK l) + 1) 255 ∧ (x.missed < 3 → st t = st s) ∧
        (k < 32 → t.get (R.FLK_RECn_k_HI_AGE l (k + 1)) = min (s.get (R.FLK_RECn_k_HI_AGE l (k + 1)) + 1) 255)) ∧
      (headerOk fr bad.toNat = true → st s = 3 → count ≤ s.get (R.FLK_Ln_STATUS_COUNT l) → s.get (R.FLK_Ln_RTT_RTT l) ≤ rtt.toNat + 64 →
        rtt.toNat ≤ s.get (R.FLK_Ln_RTT_RTT l) + 64 → Goes (.upstreamFrame l rtt bad fr) s fun t =>
        (t.flink l).missed = 0 ∧ (k < 32 → k < count → blockOk fr bad.toNat (k + 2) = true →
          t.get (R.FLK_RECn_k_LO_W_LO l (k + 1)) = blockWord fr (k + 2) % 2 ^ 32 ∧
          t.get (R.FLK_RECn_k_HI_W_HI l (k + 1)) = blockWord fr (k + 2) / 2 ^ 32 % 2 ^ 24 ∧ t.get (R.FLK_RECn_k_HI_AGE l (k + 1)) = 0))) ∧
    (s.linkUp l = true → k < 32 → Goes (.upstreamMissed l) s fun t =>
      t.get (R.FLK_RECn_k_HI_AGE l (k + 1)) = min (s.get (R.FLK_RECn_k_HI_AGE l (k + 1)) + 1) 255) ∧
    (st s = 1 → Goes (.upstreamMissed l) s fun t => (t.flink l).last = none ∧ (t.flink l).same = 0) ∧
    (st s = 2 ∨ st s = 3 → (3 ≤ x.missed → Goes (.upstreamMissed l) s (down 5)) ∧
      (x.missed < 3 → Goes (.upstreamMissed l) s fun t => st t = st s ∧ (t.flink l).missed = x.missed + 1 ∧
        t.get (R.FLK_Ln_ERRCNT_MISSED l) = min (s.get (R.FLK_Ln_ERRCNT_MISSED l) + 1) 255)) ∧
    (s.Accepts q .write (R.FLK_Ln_CTRL l) →
      (st s = 0 ∨ st s = 5 → Goes (.linkStart q l) s fun t => st t = 1) ∧ (st s ≠ 0 → st s ≠ 5 → exec (.linkStart q l) s = .next s) ∧
      Goes (.linkStop q l) s (fun t => st t = 0 ∧ ordered t) ∧ Goes (.clrcnt q l) s (fun t => t.rd (R.FLK_Ln_ERRCNT l) = 0#32) ∧
      (st s = 3 → x.meas = none → x.left = [] → Goes (.remeasure q l) s fun t => (t.flink l).want = true) ∧
      (let may := st s = 3 ∧ x.sleep = none ∧ s.on (R.FLK_Ln_IMAGE_SLEEP_OK l) = true ∧ s.linkHeld l = false
       (may → Goes (.linkSleep q l) s fun t => (t.flink l).sleep = some 16 ∧ ordered t ∧ st t = 3) ∧
       (¬may → Goes (.linkSleep q l) s fun t => t.on (R.FLK_Ln_STATUS_SLEEP_DENIED l) = true ∧ st t = st s)) ∧
      (st s = 4 → Goes (.linkWake q l) s fun t => st t = 1) ∧
      (st s ≠ 4 → x.sleep.isSome → Goes (.linkWake q l) s fun t => (t.flink l).wake = true ∧ st t = st s)) ∧
    (x.sleep = some 0 → Goes (.sleepHandshakeEnd l) s fun t => st t = (if x.wake then 1 else 4) ∧ ordered t) ∧
    (st s = 1 → 32000000 ≤ s.since x.began → Goes (.enumTimeout l) s (down 1)) ∧ (s.since x.began < 32000000 → exec (.enumTimeout l) s = .next s) ∧
    (st s = 2 → x.valid = true → x.own = [] → (∀ y ∈ x.sent, y.own = false) → Goes (.measureComplete l) s fun t => st t = 3 ∧ t.get (R.FLK_Ln_RTT_RTT l) = (roundDiv x.r0sum 16).toNat % 2 ^ 24) ∧
    (x.sent.find? (fun y => y.own == own && decide (8 ≤ y.age)) = some r →
      (own = false → Goes (.mgmtReplyTimeout l own) s fun t => t.on (R.FLK_Ln_MGMT_STAT_TIMEOUT l) = true ∧ t.on (R.FLK_Ln_MGMT_STAT_BUSY l) = false) ∧
      (own = true → r.again = false → Goes (.mgmtReplyTimeout l own) s fun t => (t.flink l).own = { r with again := true } :: x.own) ∧
      (own = true → r.again = true → Goes (.mgmtReplyTimeout l own) s (down 7))) ∧
    (st s = 3 → s.get (R.FLK_Ln_CFG_REMEAS l) ≠ 0 → 2048000 * s.get (R.FLK_Ln_CFG_REMEAS l) ≤ s.since x.remeas → x.meas = none → x.left = [] →
      Goes (.remeasRound l) s fun t => (t.flink l).want = true ∧ (t.flink l).remeas = s.now) ∧
    (st s = 1 ∨ st s = 2 ∨ st s = 3 → Goes (.blockLockLost l hiBer) s (down (if hiBer then 6 else 5))) ∧
    (s.linkForced l = true → s.get ⟨R.FLK_Ln_FORCESRC l, 0, 7⟩ = 0 → Goes (.linkForceActive l) s fun t => (t.flink l).queue = [] ∧ ordered t) ∧
    (s.Accepts q .write (R.FLK_Ln_FORCE l) → Goes (.swForceLink q l force) s fun t =>
      t.on (R.FLK_Ln_FORCE_SW_FORCE l) = force ∧ t.on (R.FLK_Ln_FORCESRC_SW l) = force) ∧
    (s.Accepts q .write (R.FLK_Ln_LATCH l) → Goes (.linkWarnClear q l) s fun t =>
      t.on (R.FLK_Ln_LATCH_WARN l) = if s.linkWarn then s.on (R.FLK_Ln_LATCH_WARN l) || s.on (R.FLK_Ln_IMAGE_WARN_SAFE l)
        else s.on (R.FLK_Ln_LATCH_WARN l) && s.isHot (R.FLK_Ln_LATCH_WARN l)) ∧
    (s.Accepts q .write (R.FLK_Ln_MGMT_CMD l) → st s = 3 → s.on (R.FLK_Ln_MGMT_STAT_BUSY l) = false →
      let op := v.toNat / 256 % 4
      let reg := v.toNat / 65536
      (op = 2 ∧ reg < 256 → Goes (.mgmtGo q l v) s fun t => t.on (R.FLK_Ln_MGMT_STAT_REFUSED l) = true ∧ t.flink l = x) ∧
      (¬(op = 2 ∧ reg < 256) → Goes (.mgmtGo q l v) s fun t => t.on (R.FLK_Ln_MGMT_STAT_BUSY l) = true ∧
        ∃ data, (t.flink l).soft = x.soft ++ [⟨false, v.toNat / 4 % 64, op, reg, v.toNat / 1024 % 64, data, 0, 0, 0, false⟩]))

/-- The arm balancer (R189, R192 to R202): a round counts, takes the reference, inserts at most the cells asked for and says when they are too
few, or bypasses the arm; software's commands enter the queue or are refused; ENABLE makes every model UNKNOWN; RESUME ends a halt. And
position feedback (R205 to R228): accepted levels, a Hall step, a hold, standstill, probes, and a change of mode. -/
def Obligations.BalancerAndPositionFeedback : Prop :=
  ∀ (s : State) (q : Requester) (a l : Fin 32) (n : Fin 16) (m : Fin 8) (v : Word) (lv : BitVec 3) (t0 : Time) (vs vc : Int) (old new w : Nat),
    let y := s.armOf a
    let ref := y.refFor s.now
    let want := ref / 256 % 256
    let all := y.lost && (s.armCfg a).ctrl.getLsbD 2
    let op := v.toNat / 2 ^ 20 % 64
    let enabled := ∃ b, s.linkArm l = some b ∧ s.on (R.ABL_Aa_CTRL_ENABLE b) = true
    let x := s.posIf n
    let mode := s.posMode n
    let z := s.posIf m
    let hall := hallSector (hallState (s.on (R.POS_Pn_CFG_DIR_INV n)) lv.toNat)
    let scode := clampI (-32768) 32767 (roundDiv (vs * 32768) 1000000000)
    (s.now.toNat % 32000 = 0 → s.running 16 = true → s.on (R.ABL_Aa_STATUS_RUNNING a) = true → Goes (.balancerRound a) s fun t =>
      t.get (R.ABL_Aa_ROUNDS_COUNT a) = (s.get (R.ABL_Aa_ROUNDS_COUNT a) + 1) % 2 ^ 32 ∧ t.get (R.ABL_Aa_REF_REF a) = ref % 2 ^ 32 ∧
      (all = true → t.on (R.ABL_Aa_STATUS_HALTED a) = true ∧ t.on (R.ABL_Aa_STATUS_RUNNING a) = false) ∧
      (all = false → t.get (R.ABL_Aa_STATUS_INSERTED a) ≤ want ∧ (t.get (R.ABL_Aa_STATUS_INSERTED a) < want → t.on (R.ABL_Aa_STATUS_SHORTFALL a) = true))) ∧
    (s.Accepts q .write (R.ABL_Ln_SWCMD l) →
      (enabled → op = 1 ∨ op = 2 → Goes (.ablSwcmdGo q l v) s fun t => t.on (R.ABL_Ln_SWSTAT_SW_REFUSED l) = true ∧ t.link = s.link) ∧
      (¬enabled ∨ (op ≠ 1 ∧ op ≠ 2) → Goes (.ablSwcmdGo q l v) s fun t => (t.flink l).queue = (s.flink l).queue ∧ (t.flink l).soon =
        (s.flink l).soon ++ [cmdWord (v.toNat / 2 ^ 26) op (v.toNat / 256 % 4096) (s.get (R.ABL_Ln_SWAT_AT l))])) ∧
    ((s.flink l).soon = [w] →
      (s.linkForced l = true → ((s.softEnter l).flink l).soon = [] ∧ ((s.softEnter l).flink l).queue = (s.flink l).queue ∧
        (s.softEnter l).get (R.FLK_Ln_CMDDROP_COUNT l) = min (s.get (R.FLK_Ln_CMDDROP_COUNT l) + 1) (2 ^ 32 - 1)) ∧
      (s.linkForced l = false → (s.flink l).queue.length < 64 → s.sameCycle (s.flink l).entered.1 = false →
        ((s.softEnter l).flink l).soon = [] ∧ ((s.softEnter l).flink l).queue = (s.flink l).queue ++ [w])) ∧
    (s.Accepts q .write (R.ABL_Aa_CTRL a) →
      Goes (.armEnableWrite q a v) s (fun t => t.get (R.ABL_Aa_CTRL_ENABLE a) = v.toNat % 2 ∧
        (v.getLsbD 0 = true → s.on (R.ABL_Aa_CTRL_ENABLE a) = false → t.armOf a = { cfg := (t.armOf a).cfg } ∧ ∀ k, k < 16 → t.rd (R.ABL_Aa_MODELk a k) = 0x44444444#32)) ∧
      Goes (.armResume q a v) s (fun t => t.on (R.ABL_Aa_STATUS_HALTED a) = false)) ∧
    (s.filtered n lv.toNat t0 = false → exec (.positionEdge n lv t0) s = .next s) ∧
    (s.filtered n lv.toNat t0 = true → Goes (.positionEdge n lv t0) s fun t => (t.posIf n).levels = lv.toNat ∧
      (s.posLogic = true → x.started = true → mode = 1 → lv.toNat ≠ x.levels → s.posDiscards n = false →
       (∀ h, x.base = some h → s.filtTicks n ≤ (t0 - h.t).toNat) →
        (hall = none → (t.posIf n).valid = false ∧ t.on (R.POS_Pn_STATUS_HALL_INVALID n) = true) ∧
        (hall = some new → x.sector = some old → old < 6 → new = (old + 1) % 6 → (t.posIf n).valid = true ∧ (t.posIf n).dir = false ∧ (t.posIf n).time = t0 ∧
          (t.posIf n).value % 65536 = (hallEdge new + s.get (R.POS_Pn_OFS_ANG_OFS n)) % 65536))) ∧
    (s.posMode m = 3 → s.posLogic = true → s.posDiscards m = false → s.running (32 + m) = true → s.domReset (32 + m) = false → (∀ h, z.hold = some h → 32000 ≤ s.since h) →
      s.now.toNat % 32000 = z.phase → Goes (.sincosHold m vs vc) s fun t => (t.posIf m).hold = some s.now ∧
        (t.get (R.POS_Pn_RAW_SIN m) : Int) = scode % 65536 ∧
        ((t.posIf m).ampOut = false → (t.posIf m).valid = true ∧ (t.posIf m).time = s.now) ∧
        ((t.posIf m).ampOut = true → (t.posIf m).valid = false ∧ t.on (R.POS_Pn_STATUS_AMP_FAULT m) = true)) ∧
    (mode = 1 ∨ mode = 2 → fieldGet x.cfg 16 16 ≠ 0 → 32000 * fieldGet x.cfg 16 16 + 64 ≤ s.since x.heard → x.started = true → x.still = false → s.posLogic = true → Goes (.standstillTimeout n) s fun t =>
      (t.posIf n).still = true ∧ (t.posIf n).speed = 0 ∧ (t.posIf n).value = x.value ∧ (mode = 2 → (t.posIf n).valid = false)) ∧
    (s.Accepts q .write (R.POS_Pn_PRB_CTRL n) →
      (s.on (R.POS_Pn_PRB_CTRL_FULL n) = true → Goes (.prbFire q n) s fun t => t.on (R.POS_Pn_PRB_CTRL_OVR n) =
        (s.on (R.POS_Pn_PRB_CTRL_OVR n) || !(x.probed.any fun p => !p.2 && p.1.toNat / 64 == s.now.toNat / 64)) ∧ t.rd (R.POS_Pn_PRB_POS n) = s.rd (R.POS_Pn_PRB_POS n)) ∧
      (s.on (R.POS_Pn_PRB_CTRL_FULL n) = false → Goes (.prbFire q n) s fun t => t.on (R.POS_Pn_PRB_CTRL_FULL n) = true ∧
        t.get (R.POS_Pn_PRB_POS_VALUE n) = x.value % 2 ^ 32 ∧ t.rd (R.POS_Pn_PRB_PTIME_LO n) = BitVec.ofNat 32 s.now.toNat)) ∧
    (s.Accepts q .write (R.POS_Pn_CFG n) → Goes (.posModeWrite q n v) s fun t => t.rd (R.POS_Pn_CFG n) = v &&& 0xFFFFFFF3#32 ∧
      (v.toNat % 4 = mode → t.pos = s.pos) ∧ (v.toNat % 4 ≠ mode → v.toNat % 4 = 0 → (t.posIf n).valid = false ∧ (t.posIf n).value = 0 ∧ (t.posIf n).levels = x.levels))

/-- The event matrix (R310 to R321, Tables 13.2 and 13.4): an event leaves its producer or is held within 8.0 ns of the last, the channel
stage merges what has arrived, a fire enters the stage, and a delivered event has the effect of its consumer input. -/
def Obligations.EventMatrixCarriesEvents : Prop :=
  ∀ (s : State) (q : Requester) (p : Fin 768) (hop : Fin 8) (c : Fin 256) (h : Nat) (rest : List Nat) (core : Fin 9) (irq : Fin 256) (k16 : Fin 16)
    (fc : Fin 24) (k4 : Fin 4) (u dma : Fin 32) (port : Fin 2) (loop : Fin 64),
    let ln := s.line p
    let x := s.chan c
    let free := s.ownerInReset (s.lineOwner p) = false
    let out := fun (e : Nat) (t : State) => t.line p = ⟨some s.now, none⟩ ∧ ∀ d, d < 256 → (t.chan d).pend = (s.chan d).pend ∧
      (t.chan d).arrived = (s.chan d).arrived ++ if s.joined p d then [e] else []
    let top := x.arrived.foldl max 0
    let input := s.get (R.EVM_Cc_CONS_INPUT c)
    let at0 := timeOf (s.get (R.EVM_Cc_AT_LO_AT_LO c)) (s.get (R.EVM_Cc_AT_HI_AT_HI c))
    let given := fun (i : Nat) => s.channelOf i = some c.val ∧ x.pend = h :: rest ∧ s.inputInReset i = false ∧ s.running (inputDomain i) = true
    let taken := fun (t : State) => (t.chan c).pend = rest
    let dest := s.rd (R.GPIO_OEVk k16)
    (free → (ln.held = none → (∀ t0, ln.left = some t0 → ns 8 ≤ s.since t0) → Goes (.producerEvent p hop) s (out hop)) ∧
      (∀ t0, ln.held = none → ln.left = some t0 → s.since t0 < ns 8 → Goes (.producerEvent p hop) s fun t => t.line p = ⟨some t0, some hop.val⟩ ∧
        t.bitOn (R.EVM_PMERGEj_MERGE (p.val / 32)) (p.val % 32) = true ∧ ∀ d, t.chan d = s.chan d) ∧
      (∀ e, ln.held = some e → Goes (.producerEvent p hop) s fun t => (t.line p).held = some (max e hop) ∧ ∀ d, t.chan d = s.chan d)) ∧
    (∀ e t0, ln.held = some e → ln.left = some t0 →
      (s.since t0 < ns 8 → exec (.producerHoldRelease p) s = .next s) ∧
      (ns 8 ≤ s.since t0 → (free → Goes (.producerHoldRelease p) s (out e)) ∧
        (¬free → Goes (.producerHoldRelease p) s fun t => t.line p = ⟨some t0, none⟩ ∧ ∀ d, t.chan d = s.chan d))) ∧
    (x.arrived ≠ [] →
      (s.on (R.EVM_Cc_CONS_VALID c) = false → Goes (.channelStage c) s fun t => (t.chan c).arrived = [] ∧ (t.chan c).pend = x.pend ∧
        t.get (R.EVM_Cc_COUNT_COUNT c) = (s.get (R.EVM_Cc_COUNT_COUNT c) + 1) % 2 ^ 32) ∧
      (s.on (R.EVM_Cc_CONS_VALID c) = true → s.inputInReset input = true → Goes (.channelStage c) s fun t => (t.chan c).arrived = [] ∧ (t.chan c).pend = [] ∧
        t.on (R.EVM_Cc_STATUS_DROPPED c) = true) ∧
      (s.on (R.EVM_Cc_CONS_VALID c) = true → s.inputInReset input = false →
        (x.pend = [] → Goes (.channelStage c) s fun t => (t.chan c).arrived = [] ∧ (t.chan c).pend = [top] ∧
          t.get (R.EVM_Cc_STATUS_LASTHOP c) = top % 8 ∧ t.get (R.EVM_Cc_COUNT_COUNT c) = (s.get (R.EVM_Cc_COUNT_COUNT c) + 1) % 2 ^ 32) ∧
        (x.pend = h :: rest → (takesOnArrival input && s.running (inputDomain input)) = true → Goes (.channelStage c) s fun t =>
          (t.chan c).arrived = [] ∧ (t.chan c).pend = h :: rest ++ [top] ∧ t.on (R.EVM_Cc_STATUS_OVERRUN c) = s.on (R.EVM_Cc_STATUS_OVERRUN c)) ∧
        (x.pend = h :: rest → (takesOnArrival input && s.running (inputDomain input)) = false → Goes (.channelStage c) s fun t => (t.chan c).pend = max h top :: rest ∧
          t.on (R.EVM_Cc_STATUS_OVERRUN c) = true))) ∧
    (s.Accepts q .write (R.EVM_Cc_FIRE c) →
      Goes (.evmFire q c hop) s (fun t => (t.chan c).arrived = x.arrived ++ [hop.val] ∧ (t.chan c).pend = x.pend) ∧
      (s.reached at0 = true → s.now ≠ at0 → Goes (.evmTimed q c hop) s fun t => (t.chan c).arrived = x.arrived ++ [hop.val] ∧
        t.on (R.EVM_Cc_STATUS_LATE_AT c) = true ∧ (t.chan c).timed = none) ∧
      (s.reached at0 = false ∨ s.now = at0 → Goes (.evmTimed q c hop) s fun t => (t.chan c).timed = some hop.val ∧ t.on (R.EVM_Cc_STATUS_ARMED c) = true ∧
        (t.chan c).arrived = x.arrived) ∧
      Goes (.evmCancel q c) s (fun t => (t.chan c).timed = none ∧ t.on (R.EVM_Cc_STATUS_ARMED c) = false) ∧
      Goes (.evmClear q c) s (fun t => t.get (R.EVM_Cc_STATUS_COINCIDE c) = 0 ∧ t.get (R.EVM_Cc_COUNT_COUNT c) = 0)) ∧
    (x.timed = some h → s.reached at0 = true → Goes (.timedFireDue c) s fun t => (t.chan c).timed = none ∧ (t.chan c).arrived = x.arrived ++ [h]) ∧
    (s.on (R.EVM_Cc_CONS_VALID c) = true → x.pend ≠ [] → s.inputInReset input = true → Goes (.eventDelivery c) s fun t => (t.chan c).pend = [] ∧
      t.on (R.EVM_Cc_STATUS_DROPPED c) = true) ∧
    (given (256 * core + irq) → x.handed = false → ∀ g ∈ [.irqEvent core irq, .eventDelivery c], Goes g s fun t => t.irqPend core irq = true ∧ (t.chan c).handed = true) ∧
    (given (0x0900 + core) → x.handed = false → Goes (.nmiEvent core) s fun t => t.on (R.CPS_NMI_PEND core) = true ∧ (t.chan c).handed = true) ∧
    (given (0x0A00 + k16) → Goes (.clTrigEvent k16) s fun t => taken t ∧ (s.bound loop = true → s.get (R.LNC_Bb_MAP_TRIG_KIND loop) = 3 →
      s.laneNo loop false = k16.val → s.ownerInReset (s.bindingOwner loop) = false → (s.bnd loop).wait = none → s.mergedTrig loop 3 = false →
      (∀ j, j ∈ s.lanesOf loop → (s.laneOf j).act = none ∧ s.on (R.LNC_Ln_STATUS_HALTED j) = false) →
      (t.bnd loop).wait = some ⟨s.now, 3, some (h, c.val), s.now, true, s.compared loop, none⟩)) ∧
    (given (0x0A10 + fc) → s.on (R.FCV_CHn_TRIG_EVT_EN fc) = true → s.get (R.FCV_CHn_TRIG_MODE fc) = 1 →
      (∀ a, (s.fch fc).armed = some (a, true) → s.sameCycle a = false) → Goes (.fcArmEvent fc) s fun t => taken t ∧
      (t.fch fc).target.isSome) ∧
    (given (0x0A28 + k4) →
      (s.on (R.SCV_Ck_STATUS_BUSY k4) = true → Goes (.scvStartEvent k4) s fun t => taken t ∧ t.on (R.SCV_Ck_STATUS_START_OVERRUN k4) = true) ∧
      (s.on (R.SCV_Ck_STATUS_BUSY k4) = false → s.scanRuns k4 = true → (s.conv k4).mode = 2 →
        (∀ e, (s.conv k4).event = some e → s.now.toNat / 6400 ≠ e.toNat / 6400) → Goes (.scvStartEvent k4) s fun t => taken t ∧
        t.on (R.SCV_Ck_STATUS_BUSY k4) = decide (t.get (R.SCV_Ck_MASK_MASK k4) ≠ 0))) ∧
    (given (0x0A30 + u) → Goes (.tripevEvent u) s fun t => taken t ∧ t.on (R.PWM_Un_LATCH_TRIP_EVT u) = true ∧ (t.unit u).safeA = true ∧ (t.unit u).safeB = true) ∧
    (given (0x0A50 + k16) → s.get (R.POS_Pn_CFG_PRB_SRC k16) = 3 → s.on (R.POS_Pn_PRB_CTRL_FULL k16) = false → Goes (.probeEvent k16) s fun t => taken t ∧
      t.on (R.POS_Pn_PRB_CTRL_FULL k16) = true ∧ t.get (R.POS_Pn_PRB_POS_VALUE k16) = (s.posIf k16).value % 2 ^ 32) ∧
    (given (0x0A60 + dma) → x.handed = false → (s.dmaCh dma).desc = none → Goes (.dcnReqEvent dma) s fun t => t.on (R.DMA_Cn_STATUS_REQ dma) = true) ∧
    (given (0x0A80 + k4) → s.on (R.FSE_Pn_STATUS_GATED k4) = true → Goes (.fpGoEvent k4) s fun t => taken t ∧ (t.port k4).go = some (some (h, c.val)) ∧
      t.on (R.FSE_Pn_STATUS_GATED k4) = false) ∧
    (given (0x0A88 + port) → Goes (.ethCapture port) s fun t => taken t ∧ t.rd (R.ETH_Pp_CAP_LO port) = BitVec.ofNat 32 s.now.toNat ∧
      t.rd (R.ETH_Pp_CAP_HI port) = BitVec.ofNat 32 (s.now.toNat / 2 ^ 32) ∧ t.on (R.ETH_Pp_STATUS_CAP_DONE port) = true) ∧
    (given (0x0A90 + k16) → Goes (.gpioOutputEvent k16) s fun t => taken t ∧ let pin := (dest.extractLsb' 0 7).toNat
      t.gpioOut.testBit pin = (match (dest.extractLsb' 8 2).toNat with | 0 => s.gpioOut.testBit pin | 1 => true | 2 => false | _ => !s.gpioOut.testBit pin))

/-- Feeder ports (R326 to R340, Tables 14.1 and 14.7): the tail posts descriptors; the end of CSMA/CA sends a due acknowledgement, or the head
frame, plain or secured, on the next multiple of 80,000 ticks; its end, the wait for an acknowledgement and its retries; the write-back; a
received frame is filtered and buffered; MUTE and DISABLED end a transmission. -/
def Obligations.FeederPortsSendAndReceive : Prop :=
  ∀ (s : State) (q : Requester) (n : Fin 4) (tail : BitVec 10) (clear acked mute : Bool) (v : BitVec 4) (f : AirFrame) (w : FseTx) (st : Nat) (b : List Byte),
    let x := s.port n
    let a := s.fseDesc n
    let d := txDesc (s.bytesAt a 32)
    let p := s.owner 7 n
    let rate := s.on (R.FSE_Pn_STATUS_RATE_OK n)
    let idle := s.portRuns n = true ∧ s.on (R.FSE_Pn_CTRL_ENABLE n) = true ∧ s.on (R.FSE_Pn_LOOP_MUTE n) = false ∧ x.tx = none
    let due := s.fsePosted n = true ∧ x.acks = 0 ∧ x.answers = [] ∧ x.result = none ∧ x.wait = false ∧ (d.flags.testBit 4 = true → x.go ≠ none)
    let given := x.tries = 0 ∧ d.resvd = false ∧ 5 ≤ d.len ∧ d.len ≤ 1280 ∧ s.reach .feeder p false .read d.addr d.len = true ∧
      s.memEgress (s.fseWho n) d.addr d.len = (some b, s)
    let owned := d.ctx < 2 ^ 20 ∧ ctxFlag (s.ctx d.ctx) 0 = true ∧ ctxOwner (s.ctx d.ctx) = p
    let start := fun (lead : Nat) (at0 : Time) => s.now.toNat < 2 ^ 63 →
      at0.toNat % 80000 = 0 ∧ s.now.toNat + lead ≤ at0.toNat ∧ at0.toNat < s.now.toNat + lead + 80000
    let sends := fun (bytes : List Byte) (t : State) => ∃ y, (t.port n).tx = some y ∧ y.ack = false ∧ y.bytes = bytes ∧ start 1600000 y.start ∧
      (t.port n).tries = x.tries + 1 ∧ (t.port n).tstamp = y.start ∧ t.on (R.FSE_Pn_STATUS_TX_ACTIVE n) = true
    let stopped := if s.reached w.start then some (s.now + 1280000#64) else x.quiet
    let ends := fun (code : Nat) (t : State) => t.port n = { x with tx := none, result := some code, quiet := stopped }
    let all := if s.on (R.FSE_Pn_IMAGE_BAND n) then 0xFFFFFF else 0x3F
    let key := ctxField (s.ctx d.ctx) 14 1 % 8
    let fc := s.get (R.SES_Pp_KEYk_TXFC_TXFC p key)
    let written := fun (code : Nat) (t : State) =>
      (s.reach .feeder p false .write a 32 = true → t.mem = (((s.memWrite (s.fseWho n) (a + 16) [BitVec.ofNat 8 code, BitVec.ofNat 8 x.tries]).2).memWrite
        (s.fseWho n) (a + 20) (leBytes 8 x.tstamp.toNat)).2.mem) ∧
      (s.reach .feeder p false .write a 32 = false → t.mem = s.mem) ∧ t.port n = { x with result := none, wait := false, tries := 0, go := none } ∧
      t.get (R.FSE_Pn_FRAMES_TX n) = (s.get (R.FSE_Pn_FRAMES_TX n) + 1) % 65536 ∧
      t.get (R.FSE_Pn_TXRING_TXHEAD n) = (s.get (R.FSE_Pn_TXRING_TXHEAD n) + 1) % s.get (R.FSE_Pn_TXSIZE_SIZE n) % 1024
    let used := (x.buf.map fun e => e.1.header.length + e.1.payload.length).sum
    let hears := s.portRuns n = true ∧ s.on (R.FSE_Pn_CTRL_RX_EN n) = true ∧ (let k := 25 + s.get (R.FSE_Pn_IMAGE_RX_FC n) / 8
      s.running k = true ∧ s.domReset k = false) ∧
      (∀ y, x.tx = some y → s.reached y.start = false) ∧ ∀ e, x.quiet = some e → s.reached e = true
    (s.Accepts q .write (R.FSE_Pn_TXRING n) → Goes (.fseTxtailWrite q n tail) s fun t => t.get (R.FSE_Pn_TXRING_TXTAIL n) = tail.toNat ∧
      t.get (R.FSE_Pn_TXRING_TXHEAD n) = s.get (R.FSE_Pn_TXRING_TXHEAD n) ∧ t.port n = x ∧
      t.on (R.FSE_Pn_STATUS_GATED n) = (t.fsePosted n && d.flags.testBit 4 && x.go.isNone && x.tx.isNone && x.result.isNone)) ∧
    (idle → 0 < x.acks →
      (rate = true → Goes (.fseTxStart n clear) s fun t => (t.port n).acks = x.acks - 1 ∧ ∃ y, (t.port n).tx = some y ∧ y.ack = true ∧ start 0 y.start) ∧
      (rate = false → Goes (.fseTxStart n clear) s fun t => (t.port n).acks = x.acks - 1 ∧ (t.port n).tx = none ∧
        t.get (R.FSE_Pn_ERRCNT_ACK_FAIL n) = min (s.get (R.FSE_Pn_ERRCNT_ACK_FAIL n) + 1) 255)) ∧
    (idle → due → given →
      (rate = true → d.flags.testBit 0 = false → d.ctx = 2 ^ 32 - 1 ∨ owned → Goes (.fseTxStart n true) s (sends b)) ∧
      (rate = true → d.flags.testBit 0 = true → owned → s.on (R.SES_Pp_KEYk_CTRL_VALID p key) = true → fc ≠ 2 ^ 32 - 1 →
        Goes (.fseTxStart n true) s fun t => sends (Config.ccmSeal (s.sesKey p key) (s.get (R.FSE_Pn_EXT_LO_EXT_LO n) + 2 ^ 32 * s.get (R.FSE_Pn_EXT_HI_EXT_HI n))
          fc (s.get (R.SES_Pp_KEYk_CTRL_KEY_ID p key)) b) t ∧ t.get (R.SES_Pp_KEYk_TXFC_TXFC p key) = fc + 1) ∧
      (d.flags.testBit 0 = false → d.ctx = 2 ^ 32 - 1 ∨ owned → Goes (.fseTxStart n false) s fun t => t.port n = { x with result := some 2 }) ∧
      (rate = false → d.flags.testBit 0 = false → d.ctx = 2 ^ 32 - 1 ∨ owned → Goes (.fseTxStart n true) s fun t => t.port n = { x with result := some 5 })) ∧
    (idle → due → x.tries = 0 → d.resvd = true ∨ d.len < 5 ∨ 1280 < d.len → Goes (.fseTxStart n clear) s fun t => t.port n = { x with result := some 7 }) ∧
    (idle → x.acks = 0 → ∀ u m g more, x.answers = (u, m, g) :: more →
      (rate = true → Goes (.fseTxStart n true) s fun t => (t.port n).answers = more ∧ ∃ y, (t.port n).tx = some y ∧ y.ack = false ∧ y.reply = true ∧
        y.bytes = Config.toneReply m g ∧ y.mod = 1 ∧ y.map = all ∧ start 1600000 y.start) ∧
      (rate = false → Goes (.fseTxStart n true) s fun t => t.port n = { x with answers := more })) ∧
    (s.portRuns n = true → x.tx = some w →
      (s.reached (w.lastSample (s.on (R.FSE_Pn_IMAGE_BAND n))) = true → Goes (.fseTxEnd n) s fun t => (t.port n).tx = none ∧
        t.on (R.FSE_Pn_STATUS_TX_ACTIVE n) = false ∧ (t.port n).quiet = some (s.now + 1280000#64) ∧
        (w.ack = true ∨ w.reply = true → (t.port n).wait = x.wait ∧ (t.port n).result = x.result) ∧
        (w.ack = false → w.reply = false → (t.port n).wait = d.flags.testBit 1 ∧ (t.port n).result = if d.flags.testBit 1 then none else some 0)) ∧
      (s.reached (w.lastSample (s.on (R.FSE_Pn_IMAGE_BAND n))) = false → exec (.fseTxEnd n) s = .next s)) ∧
    (s.portRuns n = true → x.wait = true → Goes (.fseAckTimeout n) s fun t => t.port n = { x with
      wait := false, result := if x.tries ≤ s.get (R.FSE_Pn_CSMA_MAX_RETRIES n) then x.result else some 1 }) ∧
    (s.portRuns n = true → x.result = some st → Goes (.fseDescriptorDone n acked) s (written st)) ∧
    (s.portRuns n = true → x.result = none → x.wait = true → Goes (.fseDescriptorDone n true) s (written 0)) ∧
    (hears →
      (f.fcs = true → s.fseAccepts n f.dest = true → used + frameSize f ≤ 65536 → Goes (.fseRxFrame n f) s fun t =>
        (t.port n).buf = x.buf ++ [(f, s.now)] ∧ t.get (R.FSE_Pn_FRAMES_RX n) = (s.get (R.FSE_Pn_FRAMES_RX n) + 1) % 65536 ∧
        (t.port n).acks = x.acks + (f.ackReq && s.on (R.FSE_Pn_CTRL_ACK_EN n)).toNat) ∧
      (f.fcs = true → s.fseAccepts n f.dest = true → 65536 < used + frameSize f → Goes (.fseRxFrame n f) s fun t =>
        (t.port n).buf = x.buf ∧ t.on (R.FSE_Pn_STATUS_RX_OVERFLOW n) = true) ∧
      (f.fcs = true → s.fseAccepts n f.dest = false → exec (.fseRxFrame n f) s = .next s) ∧
      (f.fcs = false → Goes (.fseRxFrame n f) s fun t => t.port n = x ∧
        t.get (R.FSE_Pn_ERRCNT_RX_FCS_FAIL n) = min (s.get (R.FSE_Pn_ERRCNT_RX_FCS_FAIL n) + 1) 255)) ∧
    (s.Accepts q .write (R.FSE_Pn_LOOP n) → Goes (.mute q n mute) s fun t => t.on (R.FSE_Pn_LOOP_MUTE n) = mute ∧
      (mute = true → x.tx = some w → w.ack = false → w.reply = false → ends 3 t) ∧ (mute = false ∨ x.tx = none → t.port n = x)) ∧
    (s.Accepts q .write (R.FSE_Pn_CTRL n) → Goes (.fseEnableWrite q n v) s fun t => t.rd (R.FSE_Pn_CTRL n) = v.zeroExtend 32 ∧
      (v.getLsbD 0 = false → x.tx = some w → w.ack = false → w.reply = false → x.wait = false → ends 9 t) ∧
      (v.getLsbD 0 = false → x.tx = none → x.wait = true → t.port n = { x with wait := false, result := some 9 }) ∧
      (v.getLsbD 0 = true ∨ (x.tx = none ∧ x.wait = false) → t.port n = x))

/-- Sessions (R342 to R355): a command written to an idle window is applied, its result waiting for the completion; LOOKUP, CREATE, READ,
UPDATE, READ_CLEAR, RETIRE and FOLD answer the codes of Table 15.2 and change the context; a frame's identifiers are looked up and its
security checked; word 3 applies a key; TXFC never falls. -/
def Obligations.SessionsKeepContexts : Prop :=
  ∀ (s : State) (q : Requester) (p k : Fin 8) (short : Bool) (mask : Byte) (v : Word) (n : Fin 4) (i : Fin 12) (m : Nat) (x : Ses) (f : AirFrame) (t0 : Time)
    (rest : List (AirFrame × Time)),
    let result := fun (t : State) => t.ses.busy.get ⟨0, none, none⟩ p
    let starts := fun (c : Instr) (P : State → Prop) => Goes c s fun t => t.on (R.SES_Pp_CSTAT_BUSY p) = true ∧ P t
    let answers := fun (c : Instr) (code : Nat) => starts c fun t => result t = ⟨code, none, none⟩ ∧ t.mem = s.mem
    let id := s.get (R.SES_Pp_ID_LO_ID_LO p) + 2 ^ 32 * s.get (R.SES_Pp_ID_HI_ID_HI p)
    let number := s.get (R.SES_Pp_CTX_CTX p)
    let c := s.ctx number
    let d := s.sesData p
    let word := fun (j : Nat) => s.get (R.SES_Pp_DATAi_DATA p j)
    let live := ctxFlag c 0 = true ∧ ctxOwner c = p
    let stored := fun (bytes : List Byte) (t : State) => t.mem = (s.putCtx p number bytes).mem
    let d1 := ctxSet (ctxSetFlag d 0 true) 13 1 (ctxField d 13 1 / 8 * 8 + p)
    let u := ({ s with ses := x } : State).putCtx p m d1
    let y := s.port n
    let src := s.owner 7 n
    let z0 := s.inc R.SES_LOOKUPS_COUNT
    let reads := fun (op kind mask : Nat) => z0.sesReads p (z0.sesTouches p op kind mask)
    let sound := fun (op kind mask : Nat) => reads op kind mask = (true, z0)
    let form := fun (g : Instr) (op kind by_ : Nat) => (g, op, kind, by_) ∈
      [(.sesLookup q p short, 1, short.toNat, 0), (.sesCreate q p, 2, 0, 0), (.sesRead q p, 3, 0, 0), (.sesUpdate q p mask, 4, 0, mask.toNat),
       (.readClear q p mask, 5, 0, mask.toNat), (.sesRetire q p, 6, 0, 0), (.sesFold q p mask, 7, 0, mask.toNat)]
    let u0 := (s.setPort n { y with buf := rest }).inc R.SES_LOOKUPS_COUNT
    let seen := u0.sesReads src (u0.lookupReads (frameKey f src))
    (s.Accepts q .write (R.SES_Pp_CMD p) → s.on (R.SES_Pp_CSTAT_BUSY p) = false → ∀ g op kind by_, form g op kind by_ → (reads op kind by_).1 = false →
      starts g fun t => result t = ⟨1, none, none⟩) ∧
    (s.Accepts q .write (R.SES_Pp_CMD p) → s.on (R.SES_Pp_CSTAT_BUSY p) = true → ∀ g op kind by_, form g op kind by_ → exec g s = .next s) ∧
    (s.Accepts q .write (R.SES_Pp_CMD p) → s.on (R.SES_Pp_CSTAT_BUSY p) = false →
      (sound 1 short.toNat 0 → short = true → 2 ^ 32 ≤ id → answers (.sesLookup q p short) 6) ∧
      (sound 1 short.toNat 0 → short = false ∨ id < 2 ^ 32 → starts (.sesLookup q p short) fun t => t.mem = s.mem ∧
        result t = (match s.lookup ⟨short.toNat, p, id⟩ with | some r => ⟨0, some r, none⟩ | none => ⟨1, none, none⟩)) ∧
      (sound 2 0 0 → ctxReserved d = true → answers (.sesCreate q p) 6) ∧
      (sound 2 0 0 → ctxReserved d = false → s.get (R.SES_Pp_QUOTA_QUOTA p) ≤ s.get (R.SES_Pp_USED_USED p) → answers (.sesCreate q p) 3) ∧
      (sound 2 0 0 → ctxReserved d = false → s.get (R.SES_Pp_USED_USED p) < s.get (R.SES_Pp_QUOTA_QUOTA p) → s.ses.head = some (m, x) → ctxFlag d1 1 = false →
        ((u.lookup (ctxExtKey d1)).isSome → starts (.sesCreate q p) fun t => result t = ⟨2, none, none⟩ ∧ t.mem = s.mem ∧ t.ses.retired = s.ses.retired) ∧
        (u.lookup (ctxExtKey d1) = none → (∃ j, j < 8 ∧ (u.entry (ctxExtKey d1).h1 j).testBit 31 = false) → starts (.sesCreate q p) fun t =>
          result t = ⟨0, some m, none⟩ ∧ t.get (R.SES_Pp_USED_USED p) = (s.get (R.SES_Pp_USED_USED p) + 1) % 2 ^ 21 ∧
          t.get R.SES_FREE_FREE = s.get R.SES_FREE_FREE - 1 ∧ t.ses.retired = x.retired ∧ t.ses.fresh = x.fresh)) ∧
      (ctxFlag c 0 = false → ∀ g op kind by_, form g op kind by_ → 3 ≤ op → sound op kind by_ → answers g 1) ∧
      (ctxFlag c 0 = true → ctxOwner c ≠ p → ∀ g op kind by_, form g op kind by_ → 3 ≤ op → sound op kind by_ → answers g 5) ∧
      (live → (∀ g op kind by_, form g op kind by_ → sound op kind by_) → sound 5 0 0 → sound 5 0 8 → starts (.sesRead q p) (fun t => result t = ⟨0, none, some c⟩ ∧ t.mem = s.mem) ∧
        (mask.getLsbD 7 = true ∨ (mask.getLsbD 5 = true ∧ 4 < ctxField d 14 1 / 16 % 8) → answers (.sesUpdate q p mask) 6) ∧
        (mask.getLsbD 7 = false → mask.getLsbD 0 = false → mask.getLsbD 5 = false ∨ ctxField d 14 1 / 16 % 8 ≤ 4 →
          starts (.sesUpdate q p mask) fun t => result t = ⟨0, none, none⟩ ∧ stored (ctxUpdate c d mask.toNat) t) ∧
        (mask ≠ 8#8 → mask ≠ 0#8 → answers (.readClear q p mask) 6) ∧
        starts (.readClear q p 0#8) (fun t => result t = ⟨0, none, some c⟩ ∧ t.mem = s.mem) ∧
        starts (.readClear q p 8#8) (fun t => result t = ⟨0, none, some c⟩ ∧ let faults := ctxField c 32 4
          stored (ctxSet (ctxSet (ctxSet c 24 8 0) 36 4 0) 32 4 (faults - (faults &&& word 8))) t) ∧
        starts (.sesRetire q p) (fun t => result t = ⟨0, none, none⟩ ∧ t.ses.retired = s.ses.retired ++ [number] ∧
          t.get (R.SES_Pp_USED_USED p) = s.get (R.SES_Pp_USED_USED p) - 1 ∧ t.get R.SES_FREE_FREE = (s.get R.SES_FREE_FREE + 1) % 2 ^ 21) ∧
        (4#8 ≤ mask → answers (.sesFold q p mask) 6) ∧
        (mask < 4#8 → starts (.sesFold q p mask) fun t => result t = ⟨0, none, none⟩) ∧
        (mask < 4#8 → word 2 = 0 → starts (.sesFold q p mask) fun t =>
          let c0 := ctxSet c 24 4 (if mask.getLsbD 0 then word 0 else ctxField c 24 4 + word 0)
          let c1 := ctxSet c0 28 4 (if mask.getLsbD 1 then word 1 else ctxField c0 28 4 + word 1)
          let c2 := ctxSet (ctxSet c1 32 4 (ctxField c 32 4)) 36 2 (ctxField c1 36 2 + 1)
          stored (ctxSet c2 20 4 (s.now.toNat / 2 ^ 32)) t))) ∧
    (s.on (R.SES_Pp_CSTAT_BUSY p) = true → s.sesRuns = true → Goes (.sesCommandDone p) s fun t => let r := result s
      t.on (R.SES_Pp_CSTAT_BUSY p) = false ∧ t.on (R.SES_Pp_CSTAT_DONE p) = true ∧ t.get (R.SES_Pp_CSTAT_CODE p) = r.code % 256 ∧
      t.get (R.SES_Pp_CTX_CTX p) = (match r.ctx with | some z => z % 2 ^ 20 | none => number) ∧
      t.get (R.SES_Pp_DATAi_DATA p i) = (match r.data with | some e => ctxField e (4 * i) 4 | none => word i)) ∧
    (y.buf = (f, t0) :: rest → s.sesRuns = false → exec (.sesFrame n) s = .next s) ∧
    (y.buf = (f, t0) :: rest → s.sesRuns = true → seen.1 = false → Goes (.sesFrame n) s fun t => (t.port n).buf = rest ∧
      t.get (R.SES_Pp_RXSTAT_REJECTS src) = min (s.get (R.SES_Pp_RXSTAT_REJECTS src) + 1) 65535) ∧
    (y.buf = (f, t0) :: rest → s.sesRuns = true → seen = (true, u0) →
      (s.lookup (frameKey f src) = none → Goes (.sesFrame n) s fun t => (t.port n).buf = rest ∧
        t.get R.SES_NOCTX_COUNT = min (s.get R.SES_NOCTX_COUNT + 1) (2 ^ 32 - 1)) ∧
      (∀ r e, s.lookup (frameKey f src) = some r → s.sesCheck src (s.ctx r) f = .error e → Goes (.sesFrame n) s fun t => (t.port n).buf = rest ∧
        t.get (R.SES_Pp_RXSTAT_REJECTS src) = min (s.get (R.SES_Pp_RXSTAT_REJECTS src) + 1) 65535 ∧ t.get R.SES_NOCTX_COUNT = s.get R.SES_NOCTX_COUNT) ∧
      (∀ r z, s.lookup (frameKey f src) = some r → s.sesCheck src (s.ctx r) f = .ok z → Goes (.sesFrame n) s fun t => (t.port n).buf = rest ∧
        t.get (R.SES_Pp_RXSTAT_REJECTS src) = s.get (R.SES_Pp_RXSTAT_REJECTS src) ∧ t.get R.SES_NOCTX_COUNT = s.get R.SES_NOCTX_COUNT)) ∧
    (s.Accepts q .write (R.SES_Pp_KEYk_Wj p k 3) → Goes (.keyApply q p k v) s fun t =>
      t.sesKey p k = ((List.range 4).map fun j => leBytes 4 (if j = 3 then v.toNat else s.get (R.SES_Pp_KEYk_Wj_KEY p k j))).flatten) ∧
    (s.Accepts q .write (R.SES_Pp_KEYk_TXFC p k) → Goes (.txfcWrite q p k v) s fun t =>
      t.get (R.SES_Pp_KEYk_TXFC_TXFC p k) = max v.toNat (s.get (R.SES_Pp_KEYk_TXFC_TXFC p k)))

/-- The Ethernet ports and PTP time (R361 to R373): what reception counts and stores, the frame that transmission selection starts and the
write-back of one that ended, ring tails, the gate lists, the link, and the registers of device time and PTP time. -/
def Obligations.EthernetCarriesFrames : Prop :=
  ∀ (s : State) (q : Requester) (p : Fin 2) (r : Fin 9) (fr : List Byte) (at0 : Time) (dsc : List Byte) (s1 : State) (h : EthHead) (w0 : EthWire)
    (rx lock hiBer : Bool) (tail : BitVec 12) (v : Word),
    let x := s.ethPort p
    let f := fr.take (fr.length - 4)
    let vid := if tagged f then be16 f 14 % 4096 else 0
    let hears := s.ethRuns p false = true ∧ s.on (R.ETH_Pp_STATUS_LINK_UP p) = true ∧ s.reached at0 = true ∧ 128 * fr.length ≤ 5 * s.since at0
    let used := (x.buf.map fun e => e.bytes.length).sum
    let good := fr.drop (fr.length - 4) = fcsOf f
    let sized := 64 ≤ fr.length ∧ fr.length ≤ if tagged f then 1522 else 1518
    let drops := fun (q : RF) => Goes (.ethRxFrame p fr at0) s fun t => t.get q = min (s.get q + 1) 255 ∧ t.mem = s.mem ∧ t.ethPort p = x
    let names := vid = 0 ∧ r = 8 ∨ vid ≠ 0 ∧ (List.range 8).find? (fun k => s.ethVlan p k == vid) = some r.val
    let size := s.get (R.ETH_Pp_Rr_SIZE_RXSIZE p r)
    let head := s.get (R.ETH_Pp_Rr_RXPTR_HEAD p r)
    let a := s.get (R.ETH_Pp_Rr_RXBASE_BASE p r) * 16 + 16 * head
    let room := s.on (R.ETH_Pp_Rr_CTRL_RX_EN p r) = true ∧ size ≠ 0 ∧ head ≠ s.get (R.ETH_Pp_Rr_RXPTR_TAIL p r)
    let w := ethWho p r
    let g := if tagged f then f.take 12 ++ f.drop 16 else f
    let posts := fun (k : Nat) => s.ethRing p k && s.on (R.ETH_Pp_Rr_CTRL_TX_EN p k) && s.get (R.ETH_Pp_Rr_SIZE_TXSIZE p k) != 0 &&
      s.get (R.ETH_Pp_Rr_TXPTR_HEAD p k) != s.get (R.ETH_Pp_Rr_TXPTR_TAIL p k)
    let ready := fun (k : Nat) => x.heads.find? fun e => e.1 == k
    let settled := s.ethRuns p true = true ∧ s.on (R.ETH_Pp_STATUS_LINK_UP p) = true ∧ x.wire = none ∧
      ∀ k, k < 9 → (ready k = none ∧ posts k = false) ∨ ∃ h', ready k = some (k, h') ∧ s.noWindow p h' = false
    let admin := (List.range (s.get (R.ETH_Pp_GCL_CTRL_ADMIN_LEN p))).map fun k => (s.get (R.ETH_Pp_GCLk_GATES p k), s.get (R.ETH_Pp_GCLk_INTERVAL p k))
    let was := s.on (R.ETH_Pp_STATUS_LINK_UP p)
    (hears → fr.drop (fr.length - 4) ≠ fcsOf f → drops (R.ETH_Pp_DROPS_FCS p)) ∧
    (hears → good → ¬sized → drops (R.ETH_Pp_DROPS_SIZE p)) ∧
    (hears → good → sized → vid ≠ 0 → (∀ k, k < 8 → s.ethVlan p k ≠ vid) → drops (R.ETH_Pp_DROPS_NOVLAN p)) ∧
    (hears → good → sized → names → s.ethAccepts p r f = false → exec (.ethRxFrame p fr at0) s = .next s) ∧
    (hears → good → sized → names → s.ethAccepts p r f = true →
      (x.buf = [] → ¬room → drops (R.ETH_Pp_DROPS_FULL p)) ∧
      (∀ e es, x.buf = e :: es → Goes (.ethRxFrame p fr at0) s fun t =>
        (t.ethPort p).buf = if used + f.length ≤ 262144 then es ++ [⟨r, f, at0⟩] else es) ∧
      (x.buf = [] → room → s.reach w.req w.view false .write a 16 = true → s.memRead w a 4 = (some dsc, s) → s.reach w.req w.view false .write (leNat dsc) g.length = true →
        s.memWrite w (leNat dsc) g = (true, s1) → Goes (.ethRxFrame p fr at0) s fun t => t.get (R.ETH_Pp_Rr_RXPTR_HEAD p r) = (head + 1) % size % 4096 ∧
          (t.ethPort p).waiting.get [] r = x.waiting.get [] r ++ [head] ∧
          ∃ st : Time, (st + BitVec.ofNat 64 (32 + s.get (R.ETH_Pp_TSLAT_INGRESS p)) - at0).toNat ≤ 64 ∧
            t.mem = (s1.memWrite w (a + 4) (leBytes 2 g.length ++
              [BitVec.ofNat 8 ((ptpAt f).isSome.toNat + if tagged f then 4 * (byteOf f 14 / 32) + 32 else 0), 0#8] ++ leBytes 8 st.toNat)).2.mem)) ∧
    (settled → x.nextRing h.queue = some r.val → ready r = some (r.val, h) → (∀ k, h.queue < k → k < 8 → x.nextRing k = none) →
      (s.on (R.ETH_Pp_GCL_CTRL_GCL_EN p) = false ∨ ∃ open0, s.gclOpen p h.queue = some open0 ∧ wireTime5 h.size ≤ 5 * open0) →
        Goes (.ethTxSelect p) s fun t => ∃ y, (t.ethPort p).wire = some y ∧ y.ring = some r.val ∧ y.flags = h.flags ∧
          y.done = s.now + BitVec.ofNat 64 ((wireTime5 h.size + 4) / 5) ∧ (h.flags.testBit 1 = false → y.bytes = onWire h.frame) ∧
          (t.ethPort p).served.get 8 h.queue = r.val ∧ let lag := (y.stamp - s.now).toNat - s.get (R.ETH_Pp_TSLAT_EGRESS p)
            174 ≤ lag ∧ lag ≤ 236) ∧
    (settled → (∀ k, k < 8 → x.nextRing k = none) → Goes (.ethTxSelect p) s fun t => (t.ethPort p).wire = none) ∧
    (x.wire = some w0 → s.reached w0.done = false → exec (.ethTxSelect p) s = .next s) ∧
    (x.wire = some w0 → s.reached w0.done = true → w0.ring = some r.val → s.ethRuns p true = false → Goes (.ethTxSelect p) s fun t =>
      (t.ethPort p).wire = none ∧ t.get (R.ETH_Pp_Rr_TXPTR_HEAD p r) =
        (s.get (R.ETH_Pp_Rr_TXPTR_HEAD p r) + 1) % s.get (R.ETH_Pp_Rr_SIZE_TXSIZE p r) % 4096) ∧
    (s.Accepts q .write (if rx then R.ETH_Pp_Rr_RXPTR p r else R.ETH_Pp_Rr_TXPTR p r) →
      (s.ethRing p r = true → Goes (.ethTailWrite q p r rx tail) s fun t =>
        t.get (if rx then R.ETH_Pp_Rr_RXPTR_TAIL p r else R.ETH_Pp_Rr_TXPTR_TAIL p r) = tail.toNat ∧ (t.ethPort p).heads = x.heads) ∧
      (s.ethRing p r = false → exec (.ethTailWrite q p r rx tail) s = .next s)) ∧
    (s.Accepts q .write (R.ETH_Pp_GCL_CTRL p) → Goes (.gclChange q p v) s fun t => t.on (R.ETH_Pp_GCL_CTRL_GCL_EN p) = v.getLsbD 0 ∧
      (s.on (R.ETH_Pp_GCL_CTRL_PENDING p) = true → t.get (R.ETH_Pp_GCL_CTRL_ADMIN_LEN p) = s.get (R.ETH_Pp_GCL_CTRL_ADMIN_LEN p) ∧ t.ethPort p = x) ∧
      (s.on (R.ETH_Pp_GCL_CTRL_PENDING p) = false → t.get (R.ETH_Pp_GCL_CTRL_ADMIN_LEN p) = v.toNat / 256 % 128 ∧
        t.on (R.ETH_Pp_GCL_CTRL_PENDING p) = v.getLsbD 1 ∧ (t.ethPort p).changed = if v.getLsbD 1 then some s.now else x.changed)) ∧
    (s.gclQualifies p = true → Goes (.gclSwitch p) s fun t => t.on (R.ETH_Pp_GCL_CTRL_PENDING p) = false ∧ t.ethPort p = { x with
      oper := admin, changed := none, base := timeOf (s.get (R.ETH_Pp_GCL_BASE_LO_BASE_LO p)) (s.get (R.ETH_Pp_GCL_BASE_HI_BASE_HI p)) }) ∧
    (s.gclQualifies p = false → exec (.gclSwitch p) s = .next s) ∧
    (Goes (.ethLinkChange p lock hiBer) s fun t => t.on (R.ETH_Pp_STATUS_BLOCK_LOCK p) = lock ∧ t.on (R.ETH_Pp_STATUS_HI_BER p) = hiBer ∧
      t.on (R.ETH_Pp_STATUS_LINK_UP p) = (lock && !hiBer) ∧ t.on (R.ETH_Pp_STATUS_LINK_CHG p) = ((lock && !hiBer) != was || s.on (R.ETH_Pp_STATUS_LINK_CHG p)) ∧
      (t.ethPort p).wire = if was && !(lock && !hiBer) then none else x.wire) ∧
    (s.Accepts q .write R.ETH_TIME_RATE → Goes (.timeRateWrite q v) s fun t => t.rd R.ETH_TIME_RATE = v) ∧
    (s.Accepts q .write R.ETH_PTP_OFS_HI → Goes (.ptpOfsApply q v) s fun t => t.ptpOfs = s.get R.ETH_PTP_OFS_LO_OFS_LO + v.toNat * 2 ^ 32) ∧
    (s.Accepts q .write R.ETH_PTP_SEC_HI → Goes (.ptpSecApply q v) s fun t => t.ptpSec = s.get R.ETH_PTP_SEC_LO_SEC_LO + v.toNat % 65536 * 2 ^ 32)

/-- PCI Express (R376 to R381, R555): vectors requested and sent, configuration, resets of a function and of a link, PERST_N, and an access
through a BAR; the service ports and general-purpose events (R382, R383). -/
def Obligations.HostAndServicePorts : Prop :=
  ∀ (s : State) (q : Requester) (f : Fin 8) (l : Fin 2) (vec : Fin 64) (hi mem bme msix mask down high : Bool) (m : Word) (b : Fin 32) (speed : Fin 4)
    (width : Fin 5) (o : BitVec 25) (n k : Nat) (bs : List Byte) (rivals : List (Fin 18)) (c c2 : Fin 2) (ext fd : Bool) (id : BitVec 29) (dlc : Fin 16) (j : Fin 32)
    (u u2 : Fin 4) (byte : Byte) (brk framing parity rising oev : Bool) (k16 : Fin 16) (v w : Word) (a : BitVec 10) (i : Fin 16),
    let x := s.fn f
    let pcie := s.on (R.PCIE_Fn_STATUS_PRESENT f) = true
    let config := fun (t : State) => (t.on (R.PCIE_Fn_STATUS_MEM_EN f), t.on (R.PCIE_Fn_STATUS_BME f), t.on (R.PCIE_Fn_STATUS_MSIX_EN f),
      t.on (R.PCIE_Fn_STATUS_FN_MASK f))
    let clean := fun (flag : RF) (t : State) => config t = (false, false, false, false) ∧ t.fn f = {} ∧ t.on flag = true
    let vi := if hi then 32 + b.val else b.val
    let view := s.fnOwner f
    let reached := fun (bar : Nat) (access : Access) (a : Nat) => s.dead = false ∧ pcie ∧ s.on (R.PCIE_Fn_STATUS_MEM_EN f) = true ∧
      barAddr bar o.toNat = some a ∧ (view = platform → bar = 0) ∧ s.ownerInReset view = false ∧ s.reach (.pcie f) view false access a n = true
    let st := fun (t : State) (c : Nat) => t.rd (R.SER_STATUS c)
    let can := s.serRuns c = true ∧ (s.serReg c 8).testBit 0 = true ∧ (st s c).getLsbD 5 = false
    let cx := s.serPort c
    let ux := s.serPort (2 + u.val)
    let uart := s.serRuns (2 + u.val) = true ∧ (s.serReg (2 + u.val) 0).testBit 0 = true
    let sx := s.serPort (6 + u2.val)
    let target := (s.serReg (6 + u2.val) 0).testBit 0
    let ix := s.serPort (10 + c2.val)
    let i2c := s.serRuns (10 + c2.val) = true ∧ (st s (10 + c2.val)).getLsbD 0 = true
    let addressed := s.serRuns (10 + c2.val) = true ∧ (s.serReg (10 + c2.val) 0).testBit 0 = true ∧
      (s.serReg (10 + c2.val) 0).testBit 8 = ext ∧ s.serReg (10 + c2.val) 0 / 65536 % (if ext then 1024 else 128) = a.toNat
    let ev := (s.rd (R.GPIO_EVk k16))
    let r := if oev then R.GPIO_OEVk k16 else R.GPIO_EVk k16
    (s.Accepts q .write (if hi then R.PCIE_Fn_VREQ_HI f else R.PCIE_Fn_VREQ_LO f) →
      (pcie → m.getLsbD b = true → Goes (.vreq q f hi m) s fun t =>
        (if s.maySend f vi && !x.pend.testBit vi then (t.fn f).want.testBit vi else (t.fn f).pend.testBit vi) = true) ∧
      (¬pcie → exec (.vreq q f hi m) s = .next s)) ∧
    (x.want.testBit vec || x.pend.testBit vec = true →
      (s.maySend f vec = true → Goes (.msixMessage f vec) s fun t => (t.fn f).want.testBit vec = false ∧ (t.fn f).pend.testBit vec = false ∧
        t.up = some ⟨f, (x.word (4 * vec)).toNat + 2 ^ 32 * (x.word (4 * vec + 1)).toNat, leBytes 4 (x.word (4 * vec + 2)).toNat⟩) ∧
      (s.maySend f vec = false → Goes (.msixMessage f vec) s fun t => (t.fn f).pend.testBit vec = true ∧ t.up = s.up)) ∧
    (pcie → Goes (.pcieConfigWrite f mem bme msix mask) s fun t => config t = (mem, bme, msix, mask)) ∧
    (pcie → Goes (.functionLevelReset f) s fun t => clean (R.PCIE_Fn_STATUS_FLR f) t ∧ ∀ k : Fin 256,
      s.on (R.PART_LOCKk_STAT_HELD k) = true → s.get (R.PART_LOCKk_STAT_OWNER k) = 16 + f.val →
        t.on (R.PART_LOCKk_STAT_HELD k) = false ∧ t.on (R.PART_LOCKk_STAT_BROKEN k) = true ∧ t.get (R.PART_LOCKk_STAT_CAUSE k) = 5) ∧
    (pcie → s.onLink l f = true → Goes (.hotReset l down) s fun t => clean (R.PCIE_Fn_STATUS_HOT_RESET f) t ∧ (down = true → t.on (R.PCIE_LINKl_STATUS_UP l) = false)) ∧
    (pcie → s.onLink l f = true → s.running 90 = true → s.running 91 = true → s.domReset 90 = false → s.domReset 91 = false →
      Goes (.pcieLinkUp l speed width) s fun t => t.on (R.PCIE_LINKl_STATUS_UP l) = true ∧ t.get (R.PCIE_LINKl_STATUS_SPEED l) = speed ∧
        t.get (R.PCIE_LINKl_STATUS_WIDTH l) = width) ∧
    (Goes (.pciePerstN high) s fun t => t.chip.perstN = high ∧ (s.chip.perstN = true → high = false → s.dead = false →
      t.domReset 90 = true ∧ t.domReset 91 = true ∧ t.on (R.PCIE_LINKl_STATUS_UP 0) = false)) ∧
    (x.buf = [] → reached 0 .write (0x10000000 + o.toNat) → isReg (0x10000000 + o.toNat) = false → Goes (.pcieBarAccess f 0 o n (some bs) rivals) s fun t =>
      t.mem = (s.memWrite ⟨.pcie f, view⟩ (0x10000000 + o.toNat) bs).2.mem) ∧
    (reached 0 .read (0x10000000 + o.toNat) → isReg (0x10000000 + o.toNat) = false → (s.memEgress ⟨.pcie f, view⟩ (0x10000000 + o.toNat) n).1 = some bs →
      Goes (.pcieBarAccess f 0 o n none rivals) s fun t => t.resp = some (BitVec.ofNat 32 (leNat bs)) ∧ t.mem = s.mem) ∧
    (x.buf = [] → reached 2 .write (0x40000000 + o.toNat) → isReg (0x40000000 + o.toNat) = true → exec (.pcieBarAccess f 2 o n (some bs) rivals) s =
      .next ((((s.barEnter f (0x40000000 + o.toNat) bs).setFn f x).arbitrate (0x40000000 + o.toNat) (Requester.pcie f).arbNo (rivals.map (·.val))).busWrite
        (.pcie f) view 2 (0x40000000 + o.toNat) (BitVec.ofNat 32 (leNat bs)))) ∧
    (s.dead = false → pcie → s.on (R.PCIE_Fn_STATUS_MEM_EN f) = true → barAddr 0 o.toNat = some k →
      s.ownerInReset view = true ∨ s.reach (.pcie f) view false .read k n = false → Goes (.pcieBarAccess f 0 o n none rivals) s fun t =>
        t.resp = none ∧ t.on (R.PCIE_Fn_STATUS_REFUSED f) = true ∧ t.get (R.PCIE_Fn_REFADDR_ADDR f) = k ∧ t.mem = s.mem) ∧
    (can →
      ((List.range 32).find? (fun y => s.canMatch c y ext id.toNat) = some k → (fd = true → (s.serReg c 8).testBit 2 = true) →
        Goes (.canFrameReceived c true ext id fd dlc bs) s fun t => t.rd (R.CAN_BUFm c k 2) = BitVec.ofNat 32 (2 ^ 31 + dlc.val) ∧
          t.rd (R.CAN_BUFm c k (5 + i.val)) = BitVec.ofNat 32 (leNat ((bs.drop (4 * i.val)).take 4)) ∧ (st t c).getLsbD 7 = true) ∧
      Goes (.canFrameReceived c false ext id fd dlc bs) s (fun t => (t.serPort c).cnt = cx.cnt + 1) ∧
      ((s.serReg c 8).testBit 1 = false → (s.rd (R.CAN_BUFm c j 0)).getLsbD 31 = true → (s.rd (R.CAN_BUFm c j 2)).getLsbD 31 = true →
        Goes (.canTxDone c j true) s (fun t => (t.rd (R.CAN_BUFm c j 2)).getLsbD 31 = false ∧ (st t c).getLsbD 6 = true ∧ (t.serPort c).tec = cx.tec - 1) ∧
        Goes (.canTxDone c j false) s (fun t => t.rd (R.CAN_BUFm c j 2) = s.rd (R.CAN_BUFm c j 2) ∧ (t.serPort c).tec = cx.tec + 8 ∧
          (st t c).getLsbD 5 = decide (255 < cx.tec + 8)))) ∧
    (s.serRuns c = true → (st s c).getLsbD 5 = true → Goes (.canBusOffRecovery c) s fun t => (st t c).getLsbD 5 = false ∧
      (t.serPort c).tec = 0 ∧ (t.serPort c).cnt = 0) ∧
    (uart → Goes (.uartByteReceived u byte brk framing parity) s fun t =>
      if brk then (st t (2 + u.val)).getLsbD 4 = true else if framing then (st t (2 + u.val)).getLsbD 3 = true
      else if parity ∧ s.serReg (2 + u.val) 0 / 4 % 4 ≠ 0 then (st t (2 + u.val)).getLsbD 2 = true
      else if 64 ≤ ux.rx.length then (st t (2 + u.val)).getLsbD 1 = true
      else (t.serPort (2 + u.val)).rx = ux.rx ++ [if (s.serReg (2 + u.val) 0).testBit 1 then byte.toNat % 128 else byte.toNat]) ∧
    (s.serRuns (6 + u2.val) = true → target = true ∨ sx.tx ≠ [] → Goes (.spiWordTransfer u2 v) s fun t => (t.serPort (6 + u2.val)).tx = sx.tx.tail ∧
      (sx.rx.length < 64 → (t.serPort (6 + u2.val)).rx = sx.rx ++ [v.toNat % 2 ^ (s.serReg (6 + u2.val) 0 / 256 % 32 + 1)]) ∧
      (64 ≤ sx.rx.length → (st t (6 + u2.val)).getLsbD 1 = true) ∧ (target = true → sx.tx = [] → (st t (6 + u2.val)).getLsbD 2 = true)) ∧
    (i2c →
      Goes (.i2cTransferDone c2 0 bs) s (fun t => (st t (10 + c2.val)).getLsbD 0 = false ∧ (st t (10 + c2.val)).getLsbD 1 = true ∧
        let cmd := s.serReg (10 + c2.val) 4
        if cmd.testBit 30 then (t.serPort (10 + c2.val)).rx = ix.rx ++ (bs.take (cmd % 256)).map (·.toNat)
        else (t.serPort (10 + c2.val)).tx = ix.tx.drop (cmd % 256)) ∧
      Goes (.i2cTransferDone c2 1 bs) s (fun t => (st t (10 + c2.val)).getLsbD 3 = true ∧ t.serPort (10 + c2.val) = ix) ∧
      Goes (.i2cTransferDone c2 2 bs) s (fun t => (st t (10 + c2.val)).getLsbD 4 = true ∧ t.serPort (10 + c2.val) = ix)) ∧
    (addressed → Goes (.i2cTargetAddressed c2 a ext) s fun t => (st t (10 + c2.val)).getLsbD 2 = true) ∧
    (¬addressed → exec (.i2cTargetAddressed c2 a ext) s = .next s) ∧
    (let selected := ev.getLsbD 10 && ev.getLsbD (if rising then 8 else 9)
     (selected = true → s.ownerInReset (s.lineOwner (744 + k16.val)) = false → s.line (744 + k16.val) = {} → Goes (.gpioInputEvent k16 rising) s fun t => t.line (744 + k16.val) = ⟨some s.now, none⟩) ∧
     (selected = false → exec (.gpioInputEvent k16 rising) s = .next s)) ∧
    (s.Accepts q .write r →
      (s.viewOf q = platform ∨ (s.owner 13 (w.toNat % 128) = s.viewOf q ∧ (gpioOff oev (s.rd r).toNat = true ∨ s.owner 13 ((s.rd r).toNat % 128) = s.viewOf q)) →
        Goes (.gpioEvWrite q k16 oev w) s fun t => t.rd r = w &&& (if oev then 0x37F#32 else 0x77F#32)) ∧
      (s.viewOf q ≠ platform → s.owner 13 (w.toNat % 128) ≠ s.viewOf q → exec (.gpioEvWrite q k16 oev w) s = .next s))

/-- Hardware locks and partition resets (R390 to R399, Tables 17.4 to 17.7): a read of ACQ takes a free lock; its owner alone releases, renews or
clears BROKEN; the platform and an expired lease break it; a reset request stops a partition, a key makes it from SELF, the wipe zeroes its
banks, and HOLD and START decide what runs next. -/
def Obligations.LocksAndPartitionResets : Prop :=
  ∀ (s : State) (q : Requester) (k : Fin 256) (p : Fin 8) (cause : Fin 4) (key : Byte) (hold : Bool) (f : Fin 8) (m : Fin 9),
    let held := s.on (R.PART_LOCKk_STAT_HELD k) = true
    let broken := s.get (R.PART_LOCKk_STAT_BROKEN k)
    let owner := s.get (R.PART_LOCKk_STAT_OWNER k)
    let code := s.lockCode q
    let mine := held ∧ owner = code ∧ canLock q = true
    let freed := fun (t : State) => t.on (R.PART_LOCKk_STAT_HELD k) = false ∧ t.get (R.PART_LOCKk_STAT_OWNER k) = 0x3F
    let leased := ∃ e, s.lease k = some e ∧ s.since e.start < e.len * e.unit + ns 10
    let breaks := fun (cause : Nat) (t : State) => freed t ∧ t.on (R.PART_LOCKk_STAT_BROKEN k) = true ∧ t.get (R.PART_LOCKk_STAT_CAUSE k) = cause
    let view := s.viewOf q
    let st := s.partState p
    let rq := s.get (R.SCFG_RQn_STAT_STATE p)
    let runs := fun (t : State) => t.partState p = 1 ∨ t.partState p = 5
    let reset := fun (cause : Nat) (t : State) => t.partState p = 2 ∧ t.get (R.PART_Pn_STATE_LAST_CAUSE p) = cause ∧
      t.get (R.PART_Pn_STATE_RESETS p) = (s.get (R.PART_Pn_STATE_RESETS p) + 1) % 65536 ∧
      (∀ c, c < 8 → s.coreOwner c = p → (t.cpuAt c).started = false) ∧ (∀ u, u < 32 → s.owner 4 u = p → t.on (R.PWM_Un_STATUS_RUNNING u) = false) ∧
      (∀ d, d < 32 → s.dmaOwner d = p → t.dmaState d = 0) ∧
      (held → s.lockHolder p owner = true → (∀ e, s.lease k = some e → s.sameCycle e.got = false) → breaks 1 t) ∧
      (∀ e, held → s.lockHolder p owner = true → s.lease k = some e → s.sameCycle e.got = true → freed t ∧ t.get (R.PART_LOCKk_STAT_BROKEN k) = broken) ∧ (rq = 1 ∨ rq = 2 → t.get (R.SCFG_RQn_STAT_STATE p) = 6)
    (s.Accepts q .read (R.PART_LOCKk_ACQ k) →
      (¬held → Goes (.lockAcquire q k) s fun t => t.on (R.PART_LOCKk_STAT_HELD k) = true ∧ t.get (R.PART_LOCKk_STAT_OWNER k) = code % 64 ∧
        t.leaseLeft k = s.get (R.PART_LOCKk_LEASE_LEASE k) ∧ t.resp = some (BitVec.ofNat 32 (2 ^ 31 + broken * 2 ^ 30 + code * 2 ^ 24))) ∧
      (held → s.leaseLeft k = 0 → Goes (.lockAcquire q k) s fun t => t.on (R.PART_LOCKk_STAT_HELD k) = true ∧ t.get (R.PART_LOCKk_STAT_OWNER k) = code % 64 ∧
        t.leaseLeft k = s.get (R.PART_LOCKk_LEASE_LEASE k) ∧ t.get (R.PART_LOCKk_STAT_CAUSE k) = 4 ∧
        t.resp = some (BitVec.ofNat 32 (2 ^ 31 + 2 ^ 30 + code * 2 ^ 24))) ∧
      (held → s.leaseLeft k ≠ 0 → owner = code → exec (.lockAcquire q k) s = .next { s with resp := some (BitVec.ofNat 32 (2 ^ 31 + broken * 2 ^ 30 + code * 2 ^ 24 + 2 ^ 23)) }) ∧
      (held → s.leaseLeft k ≠ 0 → owner ≠ code → exec (.lockAcquire q k) s = .next { s with resp := some (BitVec.ofNat 32 (broken * 2 ^ 30 + owner * 2 ^ 24)) })) ∧
    (s.Accepts q .write (R.PART_LOCKk_CTRL k) →
      (held → ¬leased → ∀ g ∈ [.lockRelease q k, .lockRenew q k, .clearBroken q k, .forceRelease q k], Goes g s (breaks 4)) ∧
      (mine → leased → Goes (.lockRelease q k) s (fun t => freed t ∧ t.get (R.PART_LOCKk_STAT_BROKEN k) = broken) ∧
        Goes (.lockRenew q k) s (fun t => t.on (R.PART_LOCKk_STAT_HELD k) = true ∧ t.leaseLeft k = s.get (R.PART_LOCKk_LEASE_LEASE k)) ∧
        Goes (.clearBroken q k) s (fun t => t.on (R.PART_LOCKk_STAT_HELD k) = true ∧ t.on (R.PART_LOCKk_STAT_BROKEN k) = false)) ∧
      (¬mine → (held → leased) → view < 8 → ∀ g ∈ [.lockRelease q k, .lockRenew q k, .clearBroken q k, .forceRelease q k], Goes g s fun t =>
        t.on (R.PART_Pn_LOCKERR_NOT_OWNER view) = true ∧ t.get (R.PART_Pn_LOCKERR_LOCK view) = k ∧ t.rd (R.PART_LOCKk_STAT k) = s.rd (R.PART_LOCKk_STAT k)) ∧
      (view = platform → held → leased → Goes (.forceRelease q k) s (breaks 6))) ∧
    (held → s.leaseLeft k = 0 → Goes (.leaseExpiry k) s (breaks 4)) ∧ (s.leaseLeft k ≠ 0 → exec (.leaseExpiry k) s = .next s) ∧
    (st ≠ 0 → st ≠ 2 → st ≠ 3 → rq ≠ 3 → Goes (.partitionResetRequest p cause) s (reset cause)) ∧
    (st = 2 ∨ st = 3 → exec (.partitionResetRequest p cause) s = .next (s.put (R.PART_Pn_STATE_LAST_CAUSE p) cause)) ∧
    (st ≠ 0 → st ≠ 2 → st ≠ 3 → rq = 3 → exec (.partitionResetRequest p cause) s = .next { s with deferred := s.deferred.set p cause.val }) ∧
    (s.Accepts q .write (R.PART_Pn_SELF p) →
      (view = platform → exec (.partSelfReset q p 0x5A#8) s = exec (.partitionResetRequest p 1) s) ∧
      (view ≠ platform → q = .core m → s.reqLvl q = 2 → exec (.partSelfReset q p 0x5A#8) s = exec (.partitionResetRequest p 2) s) ∧
      (view ≠ platform → q = .pcie f → exec (.partSelfReset q p 0x5A#8) s = exec (.partitionResetRequest p 3) s) ∧
      (key ≠ 0x5A#8 → exec (.partSelfReset q p key) s = .next s) ∧
      (view = platform ∨ q = .pcie f → st = 5 → Goes (.partStart q p) s fun t => t.partState p = 1 ∧
        ∀ c ∈ s.coresOf p, (t.cpuAt c).started = true ∧ (t.cpuAt c).pc = s.rd (R.PART_Pn_BOOT p))) ∧
    (s.Accepts q .write (R.PART_Pn_RSTCTRL p) →
      (st ≠ 0 → st ≠ 2 → st ≠ 3 → rq ≠ 3 → Goes (.partRstctrlReset q p hold) s fun t => t.partState p = 2 ∧ t.on (R.PART_Pn_RSTCTRL_HOLD p) = hold ∧
        t.get (R.PART_Pn_STATE_LAST_CAUSE p) = 1) ∧
      Goes (.holdWrite q p hold) s (fun t => t.on (R.PART_Pn_RSTCTRL_HOLD p) = hold ∧ (st ≠ 4 ∨ hold = true → t.partState p = st)) ∧
      (st = 4 → (∀ j, j < 4 → s.bitOn R.SUP_CMPTEST_PAIR j = true → s.coreOwner (2 * j) ≠ p) → Goes (.holdWrite q p false) s runs)) ∧
    (st = 2 ∨ st = 3 → Goes (.partitionWipeDone p) s fun t => (s.on (R.PART_Pn_RSTCTRL_HOLD p) = true → t.partState p = 4) ∧ (t.partState p = 4 ∨ runs t) ∧
      ∀ b a, b < 32 → s.bankOwner b = p → 0x10000000 + 0xC0000 * b ≤ a → a < 0x10000000 + 0xC0000 * (b + 1) → t.byteAt a = 0#8)

/-- Memory integrity, DMA, arbiters and register writes (R406, R414, R416 to R423, R433, R434; R9, R10): the ECC write-back, an injection, the states of
a channel from START to completion with the descriptor it fetches and the burst it moves, commits at arbiters, and a write to a register by
its address. -/
def Obligations.MemoryDmaAndArbiters : Prop :=
  ∀ (s : State) (q : Requester) (line : BitVec 26) (kind : Fin 4) (n : Fin 32) (d : Desc) (rivals : List (Fin 18)) (data b : List Byte) (err hi : Bool)
    (a50 : Fin 50) (mask v : Word) (a : BitVec 32) (c : RegClass) (r : List (Nat × Nat)),
    let mk := s.mark (line.toNat * 64)
    let x := s.dmaCh n
    let st := fun (t : State) => t.dmaState n
    let who : Who := ⟨.dma n, s.dmaOwner n⟩
    let cur := s.get (R.DMA_Cn_CUR_ADDR n)
    let waits := if d.stream && decide (s.streamBytes d < d.len) then 3 else 1
    let fetches := s.dmaRuns = true ∧ st s = 1 ∧ x.fetch = true
    let fails := fun (code addr : Nat) (t : State) => st t = 5 ∧ t.get (R.DMA_Cn_STATUS_CODE n) = code ∧ t.get (R.DMA_Cn_ERRADDR_ADDR n) = addr % 2 ^ 32 ∧
      (t.dmaCh n).desc = none ∧ (t.dmaCh n).fetch = false
    let read := cur % 32 = 0 ∧ s.reach who.req who.view false .read cur 32 = true ∧ (∃ bank, regionOf cur = some (.sram bank)) ∧
      (s.memEgress who cur 32).1 = some b ∧ d = Desc.ofBytes b
    let good := d.ok (s.ownerFn (s.dmaOwner n)).isSome
    let foreign := d.stream && s.streamOwner d.srcLo != s.dmaOwner n
    let src := (d.burst x.moved).1
    let dst := (d.burst x.moved).2.1
    let k := (d.burst x.moved).2.2
    let may := fun (access : Access) (a : Nat) => isReg a = false ∧ s.reach who.req who.view false access a (if touchesPer a k then 4 else k) = true
    let bit0 := fun (i : Nat) => if hi then 32 + i else i
    let acc := s.dead = false ∧ (q = .dap → s.dapLinked = true) ∧ isReg a.toNat = true
    let reached := s.reach q (s.viewOf q) (s.atU q) .write a.toNat 4
    let own := s.viewOf q
    let key := busKey q a.toNat
    let reg : Reg := ⟨key, c.rstAt key⟩
    let index := (accOf c q own (s.reqLvl q) key).i
    let shut := (sesWindow c && !s.sesFree index) || s.unusedPort c index
    (mk.wback = true → Goes (.eccWriteBack line) s fun t => t.mark (line.toNat * 64) = { mk with single := false, wback := false } ∧ t.mem = s.mem) ∧
    (mk.wback = false → exec (.eccWriteBack line) s = .next s) ∧
    (s.Accepts q .write R.MEMC_INJ_CTRL → Goes (.memcInject q kind) s fun t => t.get R.MEMC_INJ_CTRL_KIND = kind ∧ t.on R.MEMC_INJ_CTRL_ARMED = true) ∧
    (s.Accepts q .write (R.DMA_Cn_CTRL n) →
      (st s = 0 ∨ st s = 5 → Goes (.dmaStart q n) s fun t => st t = 1 ∧ (t.dmaCh n).fetch = true ∧ t.get (R.DMA_Cn_CUR_ADDR n) = s.get (R.DMA_Cn_HEAD_ADDR n) * 32) ∧
      (st s = 4 → Goes (.dmaStart q n) s fun t => st t = 1 ∧ (t.dmaCh n).fetch = true ∧ t.get (R.DMA_Cn_CUR_ADDR n) = cur) ∧
      (st s = 1 ∨ st s = 2 ∨ st s = 3 → exec (.dmaStart q n) s = .next s) ∧
      (st s = 1 → x.fetch = true → Goes (.dmaStop q n) s fun t => st t = 4 ∧ (t.dmaCh n).fetch = false) ∧
      (st s = 1 → x.fetch = false → Goes (.dmaStop q n) s fun t => st t = 1 ∧ t.dmaCh n = { x with stop := true }) ∧
      (st s = 2 ∨ st s = 3 → Goes (.dmaStop q n) s fun t => st t = 4 ∧ (t.dmaCh n).desc = none)) ∧
    (s.Accepts q .write (R.DMA_Cn_REQ n) →
      (x.desc = none ∨ st s ≠ 2 → Goes (.dmaReqWrite q n) s fun t => t.on (R.DMA_Cn_STATUS_REQ n) = true ∧ st t = st s) ∧
      (x.desc = some d → d.wait = true → st s = 2 → Goes (.dmaReqWrite q n) s fun t => t.on (R.DMA_Cn_STATUS_REQ n) = false ∧ st t = waits)) ∧
    (x.desc = some d → st s = 3 → Goes (.dmaStreamReady n) s fun t => st t = waits) ∧
    (fetches → cur % 32 ≠ 0 ∨ s.reach who.req who.view false .read cur 32 = false → Goes (.dmaDescriptorFetch n rivals) s (fails 1 cur)) ∧
    (fetches → read → good = false → Goes (.dmaDescriptorFetch n rivals) s (fails 2 cur)) ∧
    (fetches → read → good = true → foreign = true → Goes (.dmaDescriptorFetch n rivals) s (fails 3 d.srcLo)) ∧
    (fetches → read → good = true → foreign = false → Goes (.dmaDescriptorFetch n rivals) s fun t => (t.dmaCh n).desc = some d ∧ (t.dmaCh n).moved = 0 ∧
      t.get (R.DMA_Cn_DONE_BYTES n) = 0 ∧ st t = if d.wait then (if s.on (R.DMA_Cn_STATUS_REQ n) then waits else 2) else waits) ∧
    (s.dmaRuns = true → s.dmaNext = none → exec (.dmaBurst rivals data err) s = .next { s with dmaRound := [] }) ∧
    (s.dmaRuns = true → s.dmaNext = some (n.val, r) → x.desc = some d → d.srcSpace = 0 → d.dstSpace = 0 →
      (may .read src → may .write dst → (s.memEgress who src k).1 = some b → (s.memWrite who dst b).1 = true → b.length = k →
        Goes (.dmaBurst rivals data err) s fun t => t.mem = (s.memWrite who dst b).2.mem ∧ (t.dmaCh n).moved = x.moved + k ∧
          t.get (R.DMA_Cn_DONE_BYTES n) = (x.moved + k) % 2 ^ 17 ∧ t.dmaRound = r) ∧
      (s.reach who.req who.view false .read src (if touchesPer src k then 4 else k) = false → Goes (.dmaBurst rivals data err) s (fails 3 src))) ∧
    (s.dmaRuns = true → st s = 1 → x.desc = some d → d.len ≤ x.moved → Goes (.dmaDescriptorDone n) s fun t =>
      t.mem = (s.memWrite who (cur + 28) (leBytes 4 (256 * d.len))).2.mem ∧ t.get (R.DMA_Cn_COUNT_COUNT n) = (s.get (R.DMA_Cn_COUNT_COUNT n) + 1) % 2 ^ 32 ∧
      t.get (R.DMA_Cn_CUR_ADDR n) = d.next % 2 ^ 32 ∧ (t.dmaCh n).desc = none ∧ (t.dmaCh n).fetch = (d.next != 0 && !x.stop) ∧
      st t = if d.next = 0 then 0 else if x.stop then 4 else 1) ∧
    (s.Accepts q .write (R.ARB_Aa_COMMIT a50) → Goes (.arbCommit q a50) s (fun t => t.on (R.ARB_Aa_STATUS_PENDING a50) = true) ∧
      Goes (.clearWait q a50) s (fun t => t.rd (R.ARB_Aa_WAITMAX a50) = 0#32 ∧ t.rd (R.ARB_Aa_STATUS a50) = s.rd (R.ARB_Aa_STATUS a50))) ∧
    (s.Accepts q .write (if hi then R.ARB_COMMIT_HI else R.ARB_COMMIT_LO) → Goes (.arbCommitMulti q hi mask) s fun t =>
      ∀ i, i < 32 → bit0 i < 50 → t.on (R.ARB_Aa_STATUS_PENDING (bit0 i)) = (mask.getLsbD i || s.on (R.ARB_Aa_STATUS_PENDING (bit0 i)))) ∧
    (acc → reached = false → exec (.registerWrite q a v) s = .next (s.refuse q own .write a.toNat 4 (s.atU q))) ∧
    (acc → reached = true → regClassOf key = some c → shut = false →
      writers.find? (fun e => e.1 == c.base) = none → Goes (.registerWrite q a v) s fun t =>
        t.rd reg = (maskPut (s.rd reg) v (BitVec.ofNat 32 c.rw) &&& ~~~(v &&& BitVec.ofNat 32 c.w1c &&& ~~~(s.regs.hotAt reg))) ||| (v &&& BitVec.ofNat 32 c.w1s) ∧
        t.shad.rd reg = maskPut (s.shad.rd reg) v (BitVec.ofNat 32 c.rws)) ∧
    (acc → reached = true → ∀ w : Writer, regClassOf key = some c → shut = false →
      writers.find? (fun e => e.1 == c.base) = some (c.base, w) → exec (.registerWrite q a v) s = .next (w (accOf c q own (s.reqLvl q) key) v.toNat s))

/-- Flash (R444 to R467, Tables 20.4 to 20.8): a service row acts for a core at the gate at S or M; PROGRAM, ERASE, READ and CAL_WRITE start an
operation, blocking or not; the others answer at once; what refuses, the end of an operation, a read window, and the ends of a suspension
and of a supply hold. -/
def Obligations.FlashServices : Prop :=
  ∀ (s : State) (c : Fin 9) (bs : List Byte) (b : Fin 5) (bad : Option (Fin 128)) (k a : Nat),
    let x := s.cpuAt c
    let view := s.coreOwner c
    let arg := (x.reg 1).toNat
    let word := fun (i : Nat) => leNat ((bs.drop (4 * i)).take 4)
    let w0 := word 0
    let w1 := word 1
    let w2 := word 2
    let lk := (x.reg 14).toNat
    let blocking := (x.reg 2).getLsbD 0
    let asks := fun (num : Nat) (listed : List Nat) => s.atGate c = true ∧ (x.reg 0).toNat = num ∧ x.lvl ≠ 0 ∧ arg % 4 = 0 ∧ (x.reg 2).toNat < 2 ∧
      s.svcMay c x.lvl .read arg 32 = true ∧ s.memRead (s.coreWho c) arg 32 = (some bs, s) ∧ (∀ i, i < 8 → i ∉ listed → word i = 0) ∧
      lk % 2 = 0 ∧ x.want = false ∧ x.step = false
    let back := fun (code : Nat) (t : State) => (t.cpuAt c).reg 0 = BitVec.ofNat 32 code ∧ (t.cpuAt c).pc = x.reg 14
    let result := fun (code w1 : Nat) (t : State) => back code t ∧ (t.cpuAt c).reg 1 = BitVec.ofNat 32 w1
    let warn := s.flashWarn
    let begun := fun (b : Nat) (op : FlashOp) (t : State) => t.flashOp b = { op with
        state := (if warn then 3 else 1), owner := view, flags := warn.toNat + 4 * blocking.toNat, core := some c.val } ∧
      (blocking = false → back 0 t) ∧ (blocking = true → (t.cpuAt c).pc = 0x804#32 ∧ t.svcOf c = { bank := b } :: s.svcOf c)
    let away := fun (b : Nat) => (s.flashOp b).busy = false ∧ (blocking = true ∨ lk < 0x08000000 ∨ 0x0A040000 ≤ lk ∨ flashArray lk ≠ b)
    let named := ∀ j ∈ blocksOf w0 w2, s.mayName view j = true
    let unlocked := fun (j : Nat) => s.flash.lock.find? (·.1 == j) = none
    let programs := flashRange w0 w2 = true ∧ w1 % 4 = 0 ∧ s.svcMay c x.lvl .read w1 w2 = true ∧ named
    let y := s.flashOp b
    let whose := w0 = b ∧ (y.busy = true → view = platform ∨ y.owner = view)
    let z := s.flashOp w0
    (asks 1 [0, 1, 2] → programs →
      ((∀ j ∈ blocksOf w0 w2, unlocked j ∧ s.flash.incom.get false j = false) → away (flashArray w0) →
        Goes (.flashProgram c) s (begun (flashArray w0) { op := 1, addr := w0, src := w1, len := w2 })) ∧
      (k ∈ blocksOf w0 w2 → ¬unlocked k → Goes (.flashProgram c) s (back 3)) ∧
      ((∀ j ∈ blocksOf w0 w2, unlocked j) → (s.flashOp (flashArray w0)).busy = true → Goes (.flashProgram c) s (back 1))) ∧
    (asks 2 [0] → w0 < 512 → s.mayName view w0 = true → unlocked w0 → away (w0 / 128) → Goes (.flashErase c) s fun t =>
      begun (w0 / 128) { op := 2, addr := blockBase w0, len := 0x10000 } t ∧ t.flash.count.get 0 w0 = s.flash.count.get 0 w0 + 1 ∧
      t.flash.incom.get false w0 = true) ∧
    (asks 3 [0] → whose →
      (y.state = 1 ∨ y.state = 3 → Goes (.flashSuspend c) s fun t => result 0 0 t ∧ t.flashOp b = { (s.pulseEnd b).flashOp b with state := 2, since := s.now } ∧
        (y.state = 3 ∨ y.op ≠ 1 → t.flashOp b = { y with state := 2, since := s.now })) ∧
      (y.state ≠ 1 → y.state ≠ 3 → Goes (.flashSuspend c) s fun t => result 0 1 t ∧ t.flashOp b = y)) ∧
    (asks 4 [0] → whose →
      (y.state = 2 → Goes (.flashResume c) s fun t => result 0 0 t ∧ (t.flashOp b).state = if warn then 3 else 1) ∧
      (y.state ≠ 2 → Goes (.flashResume c) s fun t => result 0 1 t ∧ t.flashOp b = y)) ∧
    (asks 3 [0] → w0 < 5 → z.busy = true → view ≠ platform → z.owner ≠ view → Goes (.flashSuspend c) s (back 8)) ∧
    (asks 5 [0, 1] → w0 < 5 → s.svcMay c x.lvl .write w1 24 = true → Goes (.flashStatus c) s fun t => back 0 t ∧ t.flash = s.flash) ∧
    (asks 6 [0, 1, 2, 3] → flashRange w0 w2 = true → word 3 < 3 → s.svcMay c x.lvl .write w1 w2 = true → named → away (flashArray w0) →
      Goes (.flashRead c) s (begun (flashArray w0) { op := 6, addr := w0, src := w1, len := w2, mode := word 3 })) ∧
    (asks 7 [0] → w0 < 512 → s.mayName view w0 = true → Goes (.blockInfo c) s fun t => let n := s.flash.count.get 0 w0
      result 0 ((s.flash.incom.get false w0).toNat * 2 ^ 31 + (decide (100000 < n)).toNat * 2 ^ 30 + (s.flash.lock.find? (·.1 == w0)).isSome.toNat * 2 ^ 29 +
        (s.flashOp (w0 / 128)).busy.toNat * 2 ^ 28 + min n 1048575) t) ∧
    (asks 8 [0, 1] → w0 + w1 ≤ 512 → w1 ≠ 0 → (∀ i, i < w1 → s.mayName view (w0 + i) = true) → Goes (.flashProtect c) s fun t => back 0 t ∧
      ∀ i, i < w1 → t.flash.lock.get 0 (w0 + i) = view ∧ ¬(t.flash.lock.find? (·.1 == w0 + i)) = none) ∧
    (asks 9 [1] → s.svcMay c x.lvl .write w1 1184 = true → Goes (.calRead c) s (back (if calOk s.calRecord then 0 else 9))) ∧
    (asks 10 [1] → s.svcMay c x.lvl .read w1 1184 = true → calOk (s.bytesAt w1 1184) = true →
      (view = platform → away 4 → Goes (.calWrite c) s (begun 4 { op := 10, addr := 0x0A000000, src := w1, len := 1184, data := calStored (s.bytesAt w1 1184) })) ∧
      (view ≠ platform → Goes (.calWrite c) s (back 8))) ∧
    (asks 11 [0, 1] → w0 < 4096 → s.svcMay c x.lvl .write w1 32 = true → view = platform → Goes (.journalRead c) s fun t =>
      result 0 ((s.bytesAt (0x0A010000 + 32 * w0) 32).all (· == 0xFF#8)).toNat t) ∧
    (∀ g ∈ [(1, Instr.flashProgram c), (2, .flashErase c), (3, .flashSuspend c), (4, .flashResume c), (5, .flashStatus c), (6, .flashRead c), (7, .blockInfo c),
        (8, .flashProtect c), (9, .calRead c), (10, .calWrite c), (11, .journalRead c)],
      (s.atGate c = true → (x.reg 0).toNat = g.1 → x.lvl = 0 → exec g.2 s = .next (s.raiseAt (.core c) .priv 0x800#32)) ∧
      (s.atGate c = false → exec g.2 s = .next s)) ∧
    (s.persisting = none → y.state = 1 → y.op = 1 → y.code = 0 → y.len ≤ 32 * y.units → Goes (.flashOpDone b none) s fun t => (t.flashOp b).state = 4 ∧
      (t.flashOp b).code = if y.flags.testBit 0 then 5 else 0) ∧
    (s.persisting = none → y.state = 1 → y.op = 2 → y.code = 0 → k < 512 → y.addr = blockBase k →
      Goes (.flashOpDone b none) s (fun t => (t.flashOp b).state = 4 ∧ (t.flashOp b).code = (if y.flags.testBit 0 then 5 else 0) ∧
        t.flash.incom.get false k = false) ∧
      (∀ unit, Goes (.flashOpDone b (some unit)) s fun t => (t.flashOp b).state = 4 ∧ (t.flashOp b).code = 4 ∧ (t.flashOp b).w1 = 4 ∧
        t.flash.incom = s.flash.incom)) ∧
    (y.state ≠ 1 ∨ y.op = 0 → exec (.flashOpDone b bad) s = .next s) ∧ (y.state ≠ 1 → exec (.readWindow b) s = .next s) ∧
    (y.state = 1 → Goes (.readWindow b) s fun t => flashArray a = b → t.flashHeld a = false) ∧
    (y.state = 2 → us 50000 ≤ s.since y.since → Goes (.autoResume b) s fun t => (t.flashOp b).state = (if warn then 3 else 1) ∧
      (t.flashOp b).flags.testBit 1 = true) ∧
    (warn = false → us 20 ≤ s.since s.flash.clear → y.state = 3 → Goes .supplyHoldEnd s fun t => t.flashOp b = { y with state := 1 }) ∧
    (warn = true ∨ s.since s.flash.clear < us 20 → exec .supplyHoldEnd s = .next s)

/-- Clocks (R469 to R483, Tables 21.1 to 21.3) and power states and warnings (R484 to R492): requests open gates or start the PLL, the sequencer closes idle
gates, SEL and HOLD_RESET, switches, BREAK and CLRFAULT, missing edges and failed sources with their forces and resets, the RTC, entries
into PARK, STANDBY and DORMANT or their refusal, and supply warnings. -/
def Obligations.ClocksAndPowerStates : Prop :=
  ∀ (s : State) (q : Requester) (d e : Fin 104) (k : Fin 24) (v : BitVec 2) (w : Word) (hi : BitVec 16) (key : Byte) (m : Fin 16),
    let gate := s.gateOpen d
    let hold := fun (t : State) => t.on (R.CLK_Dd_CTRL_HOLD_RESET d)
    let sel := fun (t : State) => t.on (R.CLK_Dd_CTRL_SEL d)
    let switching := fun (t : State) => t.on (R.CLK_Dd_STATUS_SWITCHING d)
    let failed := match s.srcOf d with | some j => s.srcFailed j | none => false
    let opens := gate = false ∧ ungated d = false ∧ s.domMode d ≠ 2 ∧ hold s = false
    let wanted := s.requested d || s.domHeld d
    let connected := fun (t : State) => switching t = false ∧ t.clk.onSys.testBit d = !sel t
    let ctrl := s.Accepts q .write (R.CLK_Dd_CTRL d)
    let fails := fun (j : Nat) (t : State) => t.srcFailed j = true ∧ t.srcRuns j = false ∧ (s.srcOf e = some j →
      t.gateOpen e = false ∧ t.domReset e = true ∧ t.on (R.CLK_Dd_CTRL_HOLD_RESET e) = true ∧ t.on (R.CLK_Dd_STATUS_SRC_FAIL e) = true ∧
      (hasForce e = true → t.forcing e = true))
    let sleeps := fun (c : Instr) (target : Nat) => key = 0xC3#8 → s.entryRefusal target = 0 → Goes c s fun t => t.chip.asleep = target ∧ t.dead = true ∧
      t.rd R.SUP_FORCE_PWM = 0xFFFFFFFF#32 ∧ (e.val < 103 → ungated e = false → t.gateOpen e = false)
    let off := key ≠ 0xC3#8
    (wanted = true → opens →
      (s.fed d = true → Goes (.domainRequest d) s fun t => t.gateOpen d = true ∧ t.get (R.CLK_Dd_STATUS_STARTS d) = (s.get (R.CLK_Dd_STATUS_STARTS d) + 1) % 256 ∧
        (s.get R.PWR_STATUS_STATE = 1 → t.get R.PWR_STATUS_STATE = 0)) ∧
      (∀ j, s.fed d = false → s.srcOf d = some j → isPll j = true → s.srcFailed j = false → Goes (.domainRequest d) s fun t =>
        t.clk.started.testBit j = true ∧ t.clk.waiting.testBit d = true ∧ t.gateOpen d = false)) ∧
    (wanted = false ∨ gate = true → exec (.domainRequest d) s = .next s) ∧
    (s.mayClose d = true → Goes (.domainGateClose d) s fun t => t.gateOpen d = false) ∧ (s.mayClose d = false → exec (.domainGateClose d) s = .next s) ∧
    (isPll k = true → s.clk.started.testBit k = true → s.srcRuns k = false → s.srcRuns 0 = true ∨ 8 ≤ k.val → Goes (.pllLocked k) s fun t =>
      t.srcRuns k = true ∧ (s.clk.waiting.testBit d = true → s.srcOf d = some k.val → t.gateOpen d = true)) ∧
    (k = 6 ∨ k = 8 ∨ k = 9 ∨ 16 ≤ k.val → s.keep k = false → (∀ j, j < 104 → s.srcOf j = some k.val → s.gateOpen j = false ∧ s.clk.waiting.testBit j = false ∧ s.longShut j = true) →
      Goes (.pllIdleStop k) s fun t => t.srcRuns k = false ∧ t.clk.started.testBit k = false) ∧
    (ctrl →
      (∀ g ∈ [.clkSelWrite q d v, .holdResetWrite q d v],
        (twoSources d = true → switching s = false → Goes g s fun t => sel t = v.getLsbD 0 ∧ switching t = (sel s != v.getLsbD 0)) ∧
        (twoSources d = false ∨ switching s = true → Goes g s fun t => sel t = sel s) ∧
        (v.getLsbD 1 = true → Goes g s fun t => hold t = true ∧ t.domReset d = true) ∧
        (v.getLsbD 1 = false → hold s = true → s.fed d = true → failed = false → Goes g s fun t => hold t = false ∧ t.domReset d = false) ∧
        (v.getLsbD 1 = false → hold s = true → s.fed d = false ∨ failed = true → Goes g s fun t => hold t = true)) ∧
      (v.getLsbD 1 = true → Goes (.clkBreak q d v) s fun t => switching t = false ∧ hold t = true ∧ (twoSources d = true → connected t)) ∧
      (v.getLsbD 1 = false → hold s = false → Goes (.clkBreak q d v) s fun t => t.on (R.CLK_Dd_STATUS_BREAK_REFUSED d) = true) ∧
      (v.getLsbD 1 = false → hold s = false → sel s = v.getLsbD 0 →
        (s.edgesOk d = true → failed = false → Goes (.clrfault q d v) s fun t => t.forcing d = false ∧ t.on (R.CLK_Dd_STATUS_HANG d) = false) ∧
        (s.edgesOk d = false ∨ failed = true → exec (.clrfault q d v) s = .next s))) ∧
    (let ready := switching s = true ∧ s.fed d = true ∧ (match s.srcSel d with | some j => s.srcRuns j | none => false) = true
     (ready → Goes (.clkSwitchDone d) s connected) ∧ (¬ready → exec (.clkSwitchDone d) s = .next s)) ∧
    (s.Accepts q .write R.CLK_PLL_CTRL → Goes (.relock q w) s fun t => t.rd R.CLK_PLL_CTRL = w &&& 0xFF0006#32 ∧
      (isPll k = true → s.srcFailed k = true → t.clk.started.testBit k = true)) ∧
    (s.watched d = true → Goes (.missingEdge d) s fun t => t.on (R.CLK_Dd_STATUS_HANG d) = true ∧ t.on (R.CLK_Dd_STATUS_HANG_LIVE d) = true ∧
      (hasForce d = true → t.forcing d = true)) ∧
    (s.watched d = false → exec (.missingEdge d) s = .next s) ∧
    (∀ j ∈ [0, 5, 6, 7], Goes (.sourceFail 0) s (fails j)) ∧ (isPll k = true → s.clk.started.testBit k = true → Goes (.sourceFail k) s (fails k)) ∧
    (Goes .brcFail s fun t => t.srcRuns 2 = false ∧ t.srcFailed 2 = true ∧ (s.get R.SUP_REC_STATUS_STATE ≠ 3 → t.on R.SUP_REC_STATUS_FORCE = true)) ∧
    (s.srcRuns 1 = true → Goes .xtal32Fail s fun t => t.srcRuns 1 = false ∧ t.srcFailed 1 = true ∧ t.on R.PWR_RTC_CTRL_XTAL32_FAIL = true ∧
      t.on R.PWR_RTC_CTRL_VALID = false) ∧
    (s.Accepts q .write R.PWR_RTC_HI → Goes (.rtcSet q hi) s fun t => t.pav.rtc = hi.toNat * 2 ^ 32 + s.pav.stage ∧ t.on R.PWR_RTC_CTRL_VALID = true) ∧
    (let due := s.on R.PWR_RTC_CTRL_ALM_EN = true ∧ s.pav.rtc = s.get R.PWR_ALM_LO_ALM_LO + s.get R.PWR_ALM_HI_RTC_HI * 2 ^ 32
     (due → Goes .rtcAlarm s fun t => t.on R.PWR_RTC_CTRL_ALARM = true) ∧ (¬due → exec .rtcAlarm s = .next s)) ∧
    (s.Accepts q .write R.PWR_CTRL →
      (key = 0xC3#8 → s.entryRefusal 1 = 0 → Goes (.park q key) s fun t => t.get R.PWR_STATUS_STATE = 1 ∧
        (ungated e = false → e.val ∉ parkDomains → t.gateOpen e = false)) ∧
      sleeps (.standby q key) 2 ∧ sleeps (.dormant q key) 3 ∧
      (off → exec (.park q key) s = .next s ∧ exec (.standby q key) s = .next s ∧ exec (.dormant q key) s = .next s) ∧
      (∀ g ∈ [(1, Instr.park q 0xC3#8), (2, .standby q 0xC3#8), (3, .dormant q 0xC3#8)], s.entryRefusal g.1 ≠ 0 → Goes g.2 s fun t =>
        t.on R.PWR_STATUS_REFUSED = true ∧ t.get R.PWR_STATUS_REFUSE = s.entryRefusal g.1 ∧ t.chip = s.chip)) ∧
    (s.monitored m = true → s.warn m = false → Goes (.warnAssert m) s fun t => t.warn m = true ∧
      (if m.val < 8 then t.bitOn R.PWR_SUP_LATCH_CORE m else t.bitOn R.PWR_SUP_LATCH_VDDIO (m - 8)) = true) ∧
    (s.monitored m = true → Goes (.warnClear m) s fun t => t.warn m = false ∧ t.chip.low.testBit m = false) ∧
    (s.monitored m = false → exec (.warnAssert m) s = .next s ∧ exec (.warnClear m) s = .next s)

/-- Redundancy and supervision (R495 to R508, Table 22.6): a lockstep failure stops the pair, the supervisor's forces and FAULT_N, the
watchdog's window and kicks, the failure inputs of the recovery machine, its steps and its end, and the last-resort timer. -/
def Obligations.SupervisionAndRecovery : Prop :=
  ∀ (s : State) (q : Requester) (k : Fin 5) (g : Fin 4) (v : Word) (u : Fin 32) (asserted : Bool) (min0 max0 : BitVec 10) (key : Byte) (n : Nat) (cause : Fin 8),
    let state := fun (t : State) => t.get R.SUP_REC_STATUS_STATE
    let safeHold := state s = 3
    let failure := fun (c : Nat) (t : State) => t.on R.SUP_REC_STATUS_FORCE = true ∧ (t.unit u).safeA = true ∧ (t.unit u).safeB = true ∧
      t.pav.fail = some (match s.pav.fail with | some d => min c d | none => c)
    let busy := s.pav.fail.isSome || state s != 0
    let early := s.pav.kick.isSome && s.get R.SUP_WDT_MIN != 0 || s.pav.kicked && decide (n < 32 * s.get R.SUP_WDT_MIN)
    let right := key.toNat = s.pav.key ∧ early = false
    let p1 : Pav := { s.pav with edges := s.pav.edges + 1 }
    let last := fun (c : Nat) => c = 6 ∨ s.get R.SCFG_STATUS_BASE_SLOT = 3 ∨ 3 ≤ p1.recent.length
    (s.comparing k = false → exec (.lockstepFailure k g) s = .next s) ∧
    (s.comparing k = true → k.val < 4 → Goes (.lockstepFailure k g) s fun t => t.on (R.SUP_PAIRk_STATUS_FAILED k) = true ∧ t.on (R.SUP_PAIRk_STATUS_STOPPED k) = true ∧
      t.get (R.SUP_PAIRk_STATUS_GROUP k) = g ∧ t.on (R.SUP_PAIRk_STATUS_COMPARING k) = false ∧ t.bitOn R.SUP_FAULT_PAIR_FAIL k = true ∧
      (t.cpuAt (2 * k)).started = false ∧ (t.cpuAt (2 * k + 1)).started = false) ∧
    (s.comparing 4 = true → Goes (.lockstepFailure 4 g) s fun t => (t.cpuAt 8).started = false ∧ (¬safeHold → failure 1 t)) ∧
    (s.Accepts q .write R.SUP_FORCE_PWM → Goes (.supForceWrite q false v) s fun t => t.rd R.SUP_FORCE_PWM = v ∧
      (v.getLsbD u = true → (t.unit u).safeA = true ∧ (t.unit u).safeB = true)) ∧
    (s.Accepts q .write R.SUP_FORCE_LINK → Goes (.supForceWrite q true v) s fun t => t.rd R.SUP_FORCE_LINK = v) ∧
    (s.Accepts q .write R.SUP_FAULTOUT → Goes (.supFaultoutWrite q asserted) s fun t => t.on R.SUP_FAULTOUT_ASSERT = asserted ∧ t.on R.SUP_FAULTOUT_LIVE = t.faultN) ∧
    (s.Accepts q .write R.SUP_WDT → Goes (.wdtLock q min0 max0) s fun t => t.on R.SUP_WDT_LOCK = true ∧
      t.get R.SUP_WDT_MIN = (if s.on R.SUP_WDT_LOCK then s.get R.SUP_WDT_MIN else min0.toNat) ∧
      t.get R.SUP_WDT_MAX = (if s.on R.SUP_WDT_LOCK then s.get R.SUP_WDT_MAX else max0.toNat)) ∧
    (s.Accepts q .write R.SUP_KICK →
      (s.pav.wdt = none → exec (.kick q key) s = .next s) ∧
      (s.pav.wdt = some n → right → Goes (.kick q key) s fun t => t.pav = { s.pav with kick := some 2, kicked := true, key := if key = 0x5A#8 then 0xA5 else 0x5A }) ∧
      (s.pav.wdt = some n → ¬right → ¬safeHold → Goes (.kick q key) s (failure 4))) ∧
    (s.Accepts q .write R.SUP_REC_CTRL →
      (key = 0x96#8 → busy = false → Goes (.recRelease q key) s (fun t => t.on R.SUP_REC_STATUS_FORCE = false) ∧ Goes (.selfReset q key) s (failure 7)) ∧
      (key ≠ 0x96#8 ∨ busy = true → exec (.recRelease q key) s = .next s ∧ exec (.selfReset q key) s = .next s)) ∧
    (s.pav.wdt = some n → 32 * s.get R.SUP_WDT_MAX ≤ n → ¬safeHold → Goes .watchdogTimeout s (failure 3)) ∧
    (s.pav.wdt = some n → n < 32 * s.get R.SUP_WDT_MAX → exec .watchdogTimeout s = .next s) ∧
    (cause.val ≠ 0 → ¬safeHold → Goes (.recoveryFailure cause) s (failure cause)) ∧ (safeHold → exec (.recoveryFailure cause) s = .next s) ∧
    (s.pav.fail = none → Goes .recoveryStep s fun t => t.pav.edges = s.pav.edges + 1 ∧ t.pav.lrt = s.pav.lrt + 1 ∧
      state t = (if state s = 1 then 2 else state s) ∧ (state s = 1 → t.pav.hold = false) ∧
      (s.pav.wdt = some n → s.wdtPaused = false → s.pav.kick = none → t.pav.wdt = some (n + 1)) ∧
      (s.pav.wdt = some n → s.wdtPaused = false → s.pav.kick = some 1 → n + 1 < 32 * s.get R.SUP_WDT_MAX → t.pav.wdt = some 0 ∧ t.pav.kick = none)) ∧
    (∀ c, s.pav.fail = some c → Goes .recoveryStep s fun t => t.pav.fail = none ∧ t.pav.wdt = none ∧ t.pav.hold = true ∧ (t.cpuAt 8).started = false ∧
      t.get R.SUP_REC_STATUS_LAST_CAUSE = c % 16 ∧ (last c → state t = 3 ∧ t.on R.SUP_FAULTOUT_LIVE = true) ∧
      (¬last c → state t = 1 ∧ t.pav.tries = p1.edges :: s.pav.tries ∧ t.get R.SUP_REC_STATUS_TOTAL = min (s.get R.SUP_REC_STATUS_TOTAL + 1) 255)) ∧
    (256 ≤ s.pav.lrt → exec .lrtRearm s = .next { s with pav := { s.pav with lrt := 0 } }) ∧ (s.pav.lrt < 256 → exec .lrtRearm s = .next s) ∧
    (Goes .lrtExpiry s fun t => t.chip.expired = true ∧ t.on R.SUP_REC_STATUS_LRT_EXPIRED = true ∧ t.on R.SUP_FAULTOUT_LIVE = true)

/-- Debug, recovery boot, the life cycle and the TAP (R509 to R515, R529 to R540, R565, R566): challenge, verification and close of a grant, halts,
resumes, steps, breakpoints and the register window, the port's accesses, the mailbox and its commands, requests to the fuses, and the
instructions of the TAP. -/
def Obligations.DebugRecoveryAndTap : Prop :=
  ∀ (s : State) (q : Requester) (v : Word) (c : Fin 32) (h : Fin 9) (brk ok : Bool) (a : BitVec 32) (n k : Nat) (bs img : List Byte) (rivals : List (Fin 18))
    (cmp : BitVec 6) (target : Fin 8) (slot : Fin 4) (board level drive : BitVec 214) (code : Byte) (pad : Fin 214),
    let st := fun (t : State) => t.get R.DBG_AUTH_STATUS_STATE
    let locked := s.on R.DBG_AUTH_STATUS_LOCKED_OUT
    let fails := s.get R.DBG_AUTH_STATUS_FAILS + 1
    let fields := v &&& 0x1FFC0#32
    let s1 := s.wr R.DBG_AUTH_CTRL fields
    let ctrl := q = .dap ∧ dbgExists c = true ∧ s.Accepts q .write (R.DBG_Cc_CTRL c)
    let onBrk := fun (t : State) => t.on (R.DBG_Cc_CTRL_HALT_ON_BRK c) = brk
    let lead := if c.val < 8 ∧ s.comparing (c / 2) = true then c.val / 2 * 2 else c.val
    let x := s.cpuAt lead
    let w := s.cpuAt c
    let r := s.get (R.DBG_Cc_REGSEL_REG c)
    let halts := fun (c cause : Nat) (t : State) => t.debugHalted c = true ∧ t.get (R.DBG_Cc_STATUS_CAUSE c) = cause
    let hits := (s.cpuAt h).started && !(s.cpuAt h).wfi && !s.debugHalted h && !(s.cpuAt h).inService && s.breakHit h
    let view := s.viewOf .dap
    let dap := s.dead = false ∧ s.dapLinked = true
    let cmd := s.mailbox 0
    let waits := s.dead = false ∧ s.get R.RST_BOOT_PHASE = 10 ∧ s.chip.cmd = none ∧ cmd ≠ 0 ∧ s.mailbox 20 ≠ 1
    let result := fun (e : Nat) (t : State) => t.mailbox 16 = e ∧ t.mailbox 20 = 2 ∧ t.chip.cmd = none
    let passes := s.mailboxImage = some img ∧ checkImage img (s.get R.SCFG_FLOOR_FLOOR) s.fuses = none
    let enters := fun (lcs : Nat) (t : State) => t.fuses.lcs = lcs ∧ t.chip.held = true ∧
      t.get R.RST_CAUSE_LAST = if s.chip.struck then min (s.get R.RST_CAUSE_LAST) 5 else 5
    let answers := fun (e : Nat) (t : State) => t.get R.LCS_REQ_CODE = e ∧ t.on R.LCS_REQ_DONE = true
    let hash := s.bytesAt 0x10000020 32
    let free := slot.val < 4 ∧ s.fuses.lcs < 3 ∧ s.fuses.keys.get [] slot = []
    let other := (List.range 4).any fun j => j != slot.val && !(s.fuses.keys.get [] j).isEmpty && !s.fuses.revoked.testBit j
    let instr := fun (i : Nat) (t : State) => t.tap.instr = if s.chip.asleep = 0 then i else s.tap.instr
    s.memOk →
    (s.Accepts q .write R.DBG_AUTH_CTRL →
      (Goes (.challenge q v) s fun t => t.rd R.DBG_AUTH_CTRL = fields ∧
        if st s = 2 ∨ locked = true then t.chip = s.chip ∧ st t = st s
        else if s.on R.LCS_STATE_ENT_FAIL then t.chip = s.chip ∧ st t = 4 else t.chip.nonce = true ∧ st t = 1) ∧
      (st s ≠ 2 → Goes (.dbgVerify q v) s fun t => st t = 2 ∧ t.chip.nonce = false ∧
        t.chip.verify = some (if s1.grantOk then some (v.toNat / 256 % 512) else none)) ∧
      (Goes (.dbgClose q v) s fun t => t.get R.DBG_AUTH_STATUS_GRANT_PARTS = 0 ∧ t.on R.DBG_AUTH_STATUS_GRANT_PLAT = false ∧
        st t = if st s = 2 then 2 else 0)) ∧
    (s.chip.nonce = false → s1.grantOk = false) ∧
    (∀ scope, s.chip.verify = some (some scope) → Goes .verifyDone s fun t => st t = 3 ∧ t.get R.DBG_AUTH_STATUS_GRANT_PARTS = scope % 256 ∧
      t.on R.DBG_AUTH_STATUS_GRANT_PLAT = (scope / 256).testBit 0) ∧
    (s.chip.verify = some none → Goes .verifyDone s fun t => st t = 4 ∧ t.get R.DBG_AUTH_STATUS_FAILS = min fails 3 ∧
      (3 ≤ fails → t.on R.DBG_AUTH_STATUS_LOCKED_OUT = true)) ∧
    (ctrl →
      (c = 8 → s.coreScope 8 = false → Goes (.dbgHalt q c brk) s fun t => t.on (R.DBG_Cc_STATUS_REFUSED 8) = true ∧ onBrk t ∧ t.cpus = s.cpus) ∧
      (s.coreScope c = true → s.debugHalted c = false →
        (c.val < 9 → x.started = true → x.inService = false → Goes (.dbgHalt q c brk) s fun t => onBrk t ∧ halts lead 1 t ∧
          (c.val < 8 → s.comparing (c / 2) = true → t.debugHalted (lead + 1) = true ∧ t.comparing (c / 2) = false ∧
            t.on (R.SUP_PAIRk_STATUS_DEBUG_BROKEN (c / 2)) = true)) ∧
        (c.val < 9 → x.started = true → x.inService = true → Goes (.dbgHalt q c brk) s fun t => onBrk t ∧ (t.cpuAt lead).want = true) ∧
        (16 ≤ c.val → Goes (.dbgHalt q c brk) s fun t => onBrk t ∧ halts c 1 t ∧ t.on (R.LNC_Ln_STATUS_HALTED (c.val - 16)) = true)) ∧
      (s.debugHalted c = true →
        (c.val < 9 → w.started = true → Goes (.debugResume q c brk) s fun t => onBrk t ∧ t.debugHalted c = false ∧ (t.cpuAt c).pc = w.pc) ∧
        (16 ≤ c.val → Goes (.debugResume q c brk) s fun t => onBrk t ∧ t.debugHalted c = false ∧ t.on (R.LNC_Ln_STATUS_HALTED (c.val - 16)) = false) ∧
        (c.val < 9 → w.started = true → s.coreScope c = true → Goes (.dbgStep q c brk) s fun t => onBrk t ∧ t.debugHalted c = false ∧ (t.cpuAt c).step = true))) ∧
    (s.Accepts q .write (R.DBG_Cc_CTRL c) → q ≠ .dap → exec (.dbgHalt q c brk) s = .next s ∧ exec (.debugResume q c brk) s = .next s ∧ exec (.dbgStep q c brk) s = .next s) ∧
    (hits = true → Goes (.breakpointHalt h) s (halts h 3)) ∧ (hits = false → exec (.breakpointHalt h) s = .next s) ∧
    (s.Accepts .dap .read (R.DBG_Cc_DATA c) →
      (s.dataOpen c = true → r < 16 → exec (.debugDataAccess .dap c none) s = .next { s with resp := some (w.reg r) }) ∧
      (s.dataOpen c = true → r = 16 → exec (.debugDataAccess .dap c none) s = .next { s with resp := some w.pc }) ∧
      (s.dataOpen c = false → exec (.debugDataAccess .dap c none) s = .next { s with resp := some 0#32 })) ∧
    (s.Accepts .dap .write (R.DBG_Cc_DATA c) →
      (s.dataOpen c = true → r < 16 → exec (.debugDataAccess .dap c (some v)) s = .next (s.setCpuAt c (w.setReg r v))) ∧
      (s.dataOpen c = true → r = 16 → exec (.debugDataAccess .dap c (some v)) s = .next (s.setCpuAt c { w with pc := v &&& 0xFFFFFFFE#32 })) ∧
      (s.dataOpen c = false → exec (.debugDataAccess .dap c (some v)) s = .next s)) ∧
    (dap → s.reach .dap view false .write a.toNat n = true → isReg a.toNat = false → Goes (.debugAccessPortAccess a n (some bs) rivals) s fun t =>
      t.mem = (s.memWrite ⟨.dap, view⟩ a.toNat bs).2.mem) ∧
    (dap → s.reach .dap view false .read a.toNat n = true → isReg a.toNat = false → (s.memRead ⟨.dap, view⟩ a.toNat n).1 = some bs →
      Goes (.debugAccessPortAccess a n none rivals) s fun t => t.resp = some (BitVec.ofNat 32 (leNat bs)) ∧ t.mem = s.mem) ∧
    (dap → s.reach .dap view false .read a.toNat n = false → exec (.debugAccessPortAccess a n none rivals) s =
      .next { s.refuse .dap view .read a.toNat n with resp := none }) ∧
    (waits →
      (7 ≤ cmd → Goes .mailboxPoll s (result 1)) ∧ (cmd < 7 → recoveryAllowed s.fuses.lcs cmd = false → Goes .mailboxPoll s (result 2)) ∧
      (cmd < 7 → recoveryAllowed s.fuses.lcs cmd = true → Goes .mailboxPoll s fun t => t.chip.cmd = some cmd ∧ t.mailbox 0 = 0 ∧ t.mailbox 20 = 1)) ∧
    (¬waits → exec .mailboxPoll s = .next s) ∧
    (s.recovering 1 = true → passes → Goes (.recoveryRun cmp) s fun t => t.image = img ∧ t.get R.SCFG_STATUS_BASE_SLOT = 3) ∧
    (∀ g ∈ [(1, Instr.recoveryRun cmp), (2, .writeA ok), (3, .writeB ok)], s.recovering g.1 = true → s.mailboxImage = none → Goes g.2 s (result 1)) ∧
    (∀ g ∈ [(1, Instr.recoveryRun cmp), (2, .writeA ok), (3, .writeB ok)], ∀ e o, s.recovering g.1 = true → s.mailboxImage = some img →
      checkImage img (s.get R.SCFG_FLOOR_FLOOR) s.fuses = some (e, o) → Goes g.2 s fun t => result 7 t ∧ t.mailbox 24 = e % 2 ^ 32 ∧ t.mailbox 28 = o % 2 ^ 32) ∧
    (∀ g ∈ [(2, Instr.writeA ok), (3, .writeB ok)], s.recovering g.1 = true → passes → Goes g.2 s (result (if ok then 0 else 8))) ∧
    (s.recovering 4 = true → s.mailbox 12 = slot.val → free → Goes (.recoveryProvision ok) s fun t => result (if ok then 0 else 9) t ∧
      t.fuses.keys.get [] slot = if ok then hash else []) ∧
    (s.recovering 5 = true → s.mailbox 12 = k → k ≠ 4 → k < 6 →
      (s.fuses.mayEnter k = true → Goes (.recoveryAdvance true) s (enters k) ∧ Goes (.recoveryAdvance false) s (result 9)) ∧
      (s.fuses.mayEnter k = false → Goes (.recoveryAdvance ok) s (result 2))) ∧
    (s.Accepts q .write R.LCS_CTRL → s.lcsBusy = false →
      (6 ≤ target.val → Goes (.lcsAdvance q target ok) s (answers 1)) ∧
      (target.val < 6 → s.fuses.mayEnter target = false → Goes (.lcsAdvance q target ok) s (answers 2)) ∧
      (target.val < 6 → target ≠ 4 → s.fuses.mayEnter target = true → Goes (.lcsAdvance q target true) s (enters target) ∧
        Goes (.lcsAdvance q target false) s (answers 9)) ∧
      (s.fuses.mayEnter 4 = true → inSram (s.rd R.LCS_TOKEN_ADDR).toNat 144 = true →
        Goes (.lcsAdvance q 4 true) s fun t => if s.tokenOk (s.rd R.LCS_TOKEN_ADDR).toNat = true then enters 4 t else answers 6 t) ∧
      (free → Goes (.lcsProvision q slot true) s fun t => answers 0 t ∧ t.fuses.keys.get [] slot = s.provHash) ∧
      (3 ≤ s.fuses.lcs → Goes (.lcsProvision q slot ok) s (answers 2)) ∧
      (s.fuses.lcs ≠ 0 → s.fuses.lcs < 4 → other = true → s.image = [] ∨ s.get R.LCS_KEYS_RUNNING ≠ slot → Goes (.revoke q slot true) s fun t =>
        answers 0 t ∧ t.fuses.revoked.testBit slot = true ∧ t.on ⟨R.LCS_KEYS, 4 + slot, 1⟩ = true) ∧
      (s.fuses.lcs = 0 ∨ 4 ≤ s.fuses.lcs → Goes (.revoke q slot ok) s (answers 2))) ∧
    (s.Accepts q .write R.LCS_CTRL → s.lcsBusy = true →
      ∀ g ∈ [.lcsAdvance q target ok, .lcsProvision q slot ok, .revoke q slot ok], Goes g s fun t => answers 10 t ∧ t.fuses = s.fuses) ∧
    (s.dead = false → Goes .entropyTestFail s fun t => t.on R.LCS_STATE_ENT_FAIL = true) ∧
    Goes .idcode s (fun t => instr 1 t ∧ (s.chip.asleep = 0 → t.resp = some idcode)) ∧
    Goes (.samplePreload board level drive) s (fun t => instr 2 t ∧ (s.chip.asleep = 0 → t.tap.capture.get 0 pad = s.padLevel board pad ∧
      t.tap.update.get 2 pad = if drive.getLsbD pad then (level.getLsbD pad).toNat else 2)) ∧
    Goes (.extest board level drive) s (fun t => instr 3 t ∧ (s.chip.asleep = 0 → s.chip.resetN = false →
      t.tap.update.get 2 pad = if drive.getLsbD pad then (level.getLsbD pad).toNat else 2)) ∧
    Goes .clampTap s (instr 4) ∧ Goes .highz s (instr 5) ∧ Goes .dapAccess s (instr 0x20) ∧ Goes .tapReset s (instr 1) ∧
    Goes (.bypass code) s (instr (if code.toNat ∈ [1, 2, 3, 4, 5, 0x20] then 0xFF else code.toNat))
end

