-- ==== Sys2Proof/Laws/Reg.lean ====
section
/-!
SUPPORT. Tables and register fields: what a reader gets after a write.
-/
namespace Sys2Proof.Machine

/-! ### Tables -/

@[simp] theorem Tab.get_nil {α : Type} (d : α) (k : Nat) : Tab.get d [] k = d := rfl

/-- A table entry that is written reads back, and every other entry is as before. -/
theorem Tab.get_set {α : Type} (d : α) (t : Tab α) (k j : Nat) (v : α) :
    Tab.get d (Tab.set t k v) j = if j = k then v else Tab.get d t j := by
  induction t with
  | nil => by_cases h : j = k <;> simp [Tab.set, Tab.get, h]
  | cons e t ih =>
    obtain ⟨k', w⟩ := e
    by_cases h1 : k = k'
    · subst h1; by_cases h : j = k <;> simp [Tab.set, Tab.get, h]
    · by_cases h2 : k < k'
      · by_cases h : j = k
        · subst h; simp [Tab.set, Tab.get, h1, h2]
        · simp [Tab.set, Tab.get, h1, h2, h]
      · by_cases h : j = k'
        · subst h; simp [Tab.set, Tab.get, h1, h2, Ne.symm h1]
        · simp [Tab.set, Tab.get, h1, h2, h, ih]

@[simp] theorem Tab.get_set_same {α : Type} (d : α) (t : Tab α) (k : Nat) (v : α) : Tab.get d (Tab.set t k v) k = v := by
  simp [Tab.get_set]
theorem Tab.get_set_ne {α : Type} (d : α) (t : Tab α) {k j : Nat} (v : α) (h : j ≠ k) :
    Tab.get d (Tab.set t k v) j = Tab.get d t j := by simp [Tab.get_set, h]

/-- Dropped entries return to the default, the rest stay. -/
theorem Tab.get_drop {α : Type} (d : α) (t : Tab α) (p : Nat → Bool) (j : Nat) :
    Tab.get d (Tab.drop t p) j = if p j then d else Tab.get d t j := by
  induction t with
  | nil => simp [Tab.drop]
  | cons e t ih =>
    obtain ⟨k, w⟩ := e
    simp only [Tab.drop, List.filter_cons] at ih ⊢
    by_cases hp : p k = true
    · by_cases hj : j = k
      · subst hj; simp [hp] at ih ⊢; rw [ih]
      · simp [hp, Tab.get, hj, ih]
    · by_cases hj : j = k
      · subst hj; simp [hp, Tab.get]
      · simp [hp, Tab.get, hj, ih]

/-! ### Fields of a word -/

theorem fieldMask_getLsbD (w k : Nat) : (fieldMask w).getLsbD k = (decide (k < 32) && decide (k < w)) := by
  simp [fieldMask, BitVec.getLsbD_ofNat, Nat.testBit_two_pow_sub_one]

/-- A field reads its bits. -/
theorem fieldGet_testBit (v : Word) (lsb w k : Nat) : (fieldGet v lsb w).testBit k = (decide (k < w) && v.getLsbD (lsb + k)) := by
  have h : (fieldGet v lsb w).testBit k = ((v >>> lsb) &&& fieldMask w).getLsbD k := by simp [fieldGet, BitVec.getLsbD]
  rw [h]
  simp only [BitVec.getLsbD_and, BitVec.getLsbD_ushiftRight, fieldMask_getLsbD]
  by_cases hk : k < 32
  · simp [hk, Bool.and_comm]
  · have : v.getLsbD (lsb + k) = false := BitVec.getLsbD_of_ge _ _ (by omega)
    simp [this]

/-- Writing a field changes its bits alone. -/
theorem fieldPut_getLsbD (v : Word) (lsb w x k : Nat) :
    (fieldPut v lsb w x).getLsbD k =
      if lsb ≤ k ∧ k < lsb + w ∧ k < 32 then x.testBit (k - lsb) else v.getLsbD k := by
  by_cases hk : k < 32
  · simp only [fieldPut, BitVec.getLsbD_or, BitVec.getLsbD_and, BitVec.getLsbD_not, BitVec.getLsbD_shiftLeft, fieldMask_getLsbD,
      BitVec.getLsbD_ofNat]
    by_cases h1 : lsb ≤ k
    · have h5 : ¬ k < lsb := by omega
      have h4 : k - lsb < 32 := by omega
      by_cases h2 : k < lsb + w
      · have h3 : k - lsb < w := by omega
        simp [hk, h1, h2, h3, h4, h5]
      · have h3 : ¬ k - lsb < w := by omega
        simp [hk, h2, h3]
    · have h5 : k < lsb := by omega
      simp [hk, h1, h5]
  · have e1 := BitVec.getLsbD_of_ge (fieldPut v lsb w x) k (by omega)
    have e2 := BitVec.getLsbD_of_ge v k (by omega)
    simp [hk, e1, e2]

/-- A field that is written reads back. -/
theorem fieldGet_fieldPut (v : Word) (lsb w x : Nat) (h : lsb + w ≤ 32) : fieldGet (fieldPut v lsb w x) lsb w = x % 2 ^ w := by
  apply Nat.eq_of_testBit_eq
  intro k
  rw [fieldGet_testBit, fieldPut_getLsbD, Nat.testBit_mod_two_pow]
  by_cases hk : k < w
  · have : lsb + k < 32 := by omega
    simp [hk, this]
  · simp [hk]

/-- A field beside the one that is written stays. -/
theorem fieldGet_fieldPut_ne (v : Word) (lsb w x lsb' w' : Nat) (h : lsb + w ≤ lsb' ∨ lsb' + w' ≤ lsb) :
    fieldGet (fieldPut v lsb w x) lsb' w' = fieldGet v lsb' w' := by
  apply Nat.eq_of_testBit_eq
  intro k
  rw [fieldGet_testBit, fieldGet_testBit, fieldPut_getLsbD]
  by_cases hk : k < w'
  · have : ¬(lsb ≤ lsb' + k ∧ lsb' + k < lsb + w ∧ lsb' + k < 32) := by omega
    simp [this]
  · simp [hk]

theorem fieldGet_lt (v : Word) (lsb w : Nat) : fieldGet v lsb w < 2 ^ w := by
  apply Nat.lt_pow_two_of_testBit
  intro k hk
  rw [fieldGet_testBit]
  simp; omega

/-- Writing back what a field holds changes nothing. -/
theorem fieldPut_fieldGet (v : Word) (lsb w : Nat) : fieldPut v lsb w (fieldGet v lsb w) = v := by
  apply BitVec.eq_of_getLsbD_eq
  intro k hk
  rw [fieldPut_getLsbD, fieldGet_testBit]
  by_cases h : lsb ≤ k ∧ k < lsb + w ∧ k < 32
  · obtain ⟨h1, h2, h3⟩ := h
    have e : lsb + (k - lsb) = k := by omega
    have e2 : k - lsb < w := by omega
    simp [h1, h2, h3, e, e2]
  · simp [h]

/-- Of two writes of a field the second counts. -/
theorem fieldPut_fieldPut (v : Word) (lsb w x y : Nat) : fieldPut (fieldPut v lsb w x) lsb w y = fieldPut v lsb w y := by
  apply BitVec.eq_of_getLsbD_eq
  intro k hk
  simp only [fieldPut_getLsbD]
  split <;> rfl

/-! ### The register file -/

@[simp] theorem RegFile.rd_heat (f : RegFile) (r q : Reg) (m : Word) : (f.heat r m).rd q = f.rd q := by
  unfold RegFile.heat
  split <;> rfl
@[simp] theorem RegFile.hotAt_wr (f : RegFile) (r q : Reg) (v : Word) : (f.wr r v).hotAt q = f.hotAt q := rfl
theorem RegFile.rd_wr (f : RegFile) (r q : Reg) (v : Word) : (f.wr r v).rd q = if q.addr = r.addr then v else f.rd q := by
  simp [RegFile.rd, RegFile.wr, Tab.get_set]
@[simp] theorem RegFile.rd_wr_same (f : RegFile) (r : Reg) (v : Word) : (f.wr r v).rd r = v := by simp [RegFile.rd_wr]
theorem RegFile.rd_wr_ne (f : RegFile) {r q : Reg} (v : Word) (h : q.addr ≠ r.addr) : (f.wr r v).rd q = f.rd q := by
  simp [RegFile.rd_wr, h]

/-- A cleared bit reads 0 unless hardware has set it in the same cycle (R10). -/
theorem RegFile.rd_clr (f : RegFile) (r : Reg) (m : Word) : (f.clr r m).rd r = f.rd r &&& ~~~(m &&& ~~~(f.hotAt r)) :=
  RegFile.rd_wr_same _ _ _
theorem RegFile.rd_clr_ne (f : RegFile) {r q : Reg} (m : Word) (h : q.addr ≠ r.addr) : (f.clr r m).rd q = f.rd q :=
  RegFile.rd_wr_ne _ _ h

theorem RegFile.fld_put (f : RegFile) (q : RF) (x : Nat) (h : q.lsb + q.wid ≤ 32) : (f.put q x).fld q = x % 2 ^ q.wid := by
  simp [RegFile.fld, RegFile.put, fieldGet_fieldPut _ _ _ _ h]
theorem RegFile.fld_put_ne (f : RegFile) (q r : RF) (x : Nat) (h : r.reg.addr ≠ q.reg.addr) : (f.put q x).fld r = f.fld r := by
  simp [RegFile.fld, RegFile.put, RegFile.rd_wr, h]
theorem RegFile.fld_put_apart (f : RegFile) (q r : RF) (x : Nat) (e : r.reg = q.reg) (h : q.lsb + q.wid ≤ r.lsb ∨ r.lsb + r.wid ≤ q.lsb) :
    (f.put q x).fld r = f.fld r := by
  simp [RegFile.fld, RegFile.put, e, fieldGet_fieldPut_ne _ _ _ _ _ _ h]

/-! ### Registers of the state -/

theorem State.rd_wr (s : State) (r q : Reg) (v : Word) : (s.wr r v).rd q = if q.addr = r.addr then v else s.rd q := by
  simp [State.rd, State.wr, RegFile.rd_wr]
@[simp] theorem State.rd_wr_same (s : State) (r : Reg) (v : Word) : (s.wr r v).rd r = v := by simp [State.rd_wr]
theorem State.rd_wr_ne (s : State) (r q : Reg) (v : Word) (h : q.addr ≠ r.addr) : (s.wr r v).rd q = s.rd q := by simp [State.rd_wr, h]
theorem State.rd_clr (s : State) (r : Reg) (m : Word) : (s.clr r m).rd r = s.rd r &&& ~~~(m &&& ~~~(s.regs.hotAt r)) :=
  RegFile.rd_clr _ _ _
theorem State.rd_clr_ne (s : State) (r q : Reg) (m : Word) (h : q.addr ≠ r.addr) : (s.clr r m).rd q = s.rd q :=
  RegFile.rd_clr_ne _ _ h
/-- Writing a field of a register leaves the other registers. -/
theorem State.rd_put_ne (s : State) (q : RF) (r : Reg) (x : Nat) (h : r.addr ≠ q.reg.addr) : (s.put q x).rd r = s.rd r := by
  simp [State.rd, State.put, RegFile.put, RegFile.rd_wr, h]
theorem State.rd_put (s : State) (q : RF) (x : Nat) : (s.put q x).rd q.reg = fieldPut (s.rd q.reg) q.lsb q.wid x := by
  simp [State.rd, State.put, RegFile.put]
/-- A field that is written reads back. -/
theorem State.get_put (s : State) (q : RF) (x : Nat) (h : q.lsb + q.wid ≤ 32) : (s.put q x).get q = x % 2 ^ q.wid :=
  RegFile.fld_put _ _ _ h
/-- Fields of other registers stay. -/
theorem State.get_put_ne (s : State) (q r : RF) (x : Nat) (h : r.reg.addr ≠ q.reg.addr) : (s.put q x).get r = s.get r :=
  RegFile.fld_put_ne _ _ _ _ h
/-- Fields of the same register beside it stay. -/
theorem State.get_put_apart (s : State) (q r : RF) (x : Nat) (e : r.reg = q.reg) (h : q.lsb + q.wid ≤ r.lsb ∨ r.lsb + r.wid ≤ q.lsb) :
    (s.put q x).get r = s.get r := RegFile.fld_put_apart _ _ _ _ e h
theorem State.get_wr_ne (s : State) (r : Reg) (q : RF) (v : Word) (h : q.reg.addr ≠ r.addr) : (s.wr r v).get q = s.get q := by
  simp [State.get, State.wr, RegFile.fld, RegFile.rd_wr, h]
theorem State.get_wr (s : State) (q : RF) (v : Word) : (s.wr q.reg v).get q = fieldGet v q.lsb q.wid := by
  simp [State.get, State.wr, RegFile.fld]
theorem State.get_lt (s : State) (q : RF) : s.get q < 2 ^ q.wid := fieldGet_lt _ _ _
theorem State.on_putB (s : State) (q : RF) (b : Bool) (h : q.lsb + q.wid ≤ 32) (hw : 0 < q.wid) : (s.putB q b).on q = b := by
  have h1 : 1 % 2 ^ q.wid = 1 := Nat.mod_eq_of_lt (Nat.one_lt_two_pow (by omega))
  have := RegFile.fld_put s.regs q (if b then 1 else 0) h
  cases b <;> simp_all [State.on, State.putB, State.put]
theorem State.shadow_putShadow (s : State) (q : RF) (x : Nat) (h : q.lsb + q.wid ≤ 32) : (s.putShadow q x).shadow q = x % 2 ^ q.wid :=
  RegFile.fld_put _ _ _ h
/-- A commit makes the shadow active (R11). -/
theorem State.get_commit (s : State) (q : RF) (h : q.lsb + q.wid ≤ 32) : (s.commit q).get q = s.shadow q := by
  have hl := fieldGet_lt (s.shad.rd q.reg) q.lsb q.wid
  simp [State.commit, State.get_put _ _ _ h, Nat.mod_eq_of_lt, hl, State.shadow, RegFile.fld]
/-- A saturating counter counts up to its greatest value and stays there. -/
theorem State.get_incSat (s : State) (q : RF) (d : Nat) (h : q.lsb + q.wid ≤ 32) :
    (s.incSat q d).get q = min (s.get q + d) (2 ^ q.wid - 1) := by
  have : 0 < 2 ^ q.wid := Nat.two_pow_pos _
  rw [State.incSat, State.get_put _ _ _ h, Nat.mod_eq_of_lt]
  omega
theorem State.get_inc (s : State) (q : RF) (h : q.lsb + q.wid ≤ 32) : (s.inc q).get q = (s.get q + 1) % 2 ^ q.wid :=
  State.get_put _ _ _ h

/-! ### Bits of a number -/

theorem testBit_setBit (x k j : Nat) (b : Bool) : (setBit x k b).testBit j = if j = k then b else x.testBit j := by
  cases b
  · by_cases h : x.testBit k <;> by_cases hj : j = k <;> simp_all [setBit, Nat.testBit_xor, Ne.symm]
  · by_cases hj : j = k <;> simp_all [setBit, Nat.testBit_or, Nat.testBit_two_pow]
    omega

end Sys2Proof.Machine
end

