-- ==== Sys2Proof/Laws/State.lean ====
section
/-!
SUPPORT. What each primitive update of the state leaves as it was, one rule for each field, and what the accessor of an updated part reads.
-/
namespace Sys2Proof.Machine

/-! ### The fields that an update leaves -/

@[simp] theorem State.wr_frame (s : State) (r : Reg) (v : Word) :
    (s.wr r v).now = s.now ∧ (s.wr r v).shad = s.shad ∧ (s.wr r v).mem = s.mem ∧ (s.wr r v).free = s.free ∧ (s.wr r v).evm = s.evm ∧
    (s.wr r v).marks = s.marks ∧ (s.wr r v).arbs = s.arbs ∧ (s.wr r v).dma = s.dma ∧ (s.wr r v).leases = s.leases ∧
    (s.wr r v).resp = s.resp ∧ (s.wr r v).own = s.own ∧ (s.wr r v).fc = s.fc ∧ (s.wr r v).fcGroup = s.fcGroup ∧
    (s.wr r v).fcOut = s.fcOut ∧ (s.wr r v).fcBox = s.fcBox ∧ (s.wr r v).cmpPulse = s.cmpPulse ∧ (s.wr r v).cmpEvt = s.cmpEvt ∧
    (s.wr r v).scan = s.scan ∧ (s.wr r v).scanCh = s.scanCh ∧ (s.wr r v).dmaRound = s.dmaRound ∧ (s.wr r v).pwm = s.pwm ∧
    (s.wr r v).orphans = s.orphans ∧ (s.wr r v).link = s.link ∧ (s.wr r v).arm = s.arm ∧ (s.wr r v).pos = s.pos ∧
    (s.wr r v).lane = s.lane ∧ (s.wr r v).bind = s.bind ∧ (s.wr r v).cpus = s.cpus ∧ (s.wr r v).bufs = s.bufs ∧ (s.wr r v).fse = s.fse ∧ (s.wr r v).ses = s.ses ∧
    (s.wr r v).vlan = s.vlan ∧ (s.wr r v).eth = s.eth ∧ (s.wr r v).ptpOfs = s.ptpOfs ∧ (s.wr r v).ptpSec = s.ptpSec ∧
    (s.wr r v).pcie = s.pcie ∧ (s.wr r v).up = s.up ∧ (s.wr r v).ser = s.ser ∧ (s.wr r v).gpioOut = s.gpioOut ∧
    (s.wr r v).flash = s.flash ∧ (s.wr r v).image = s.image ∧ (s.wr r v).pads = s.pads ∧ (s.wr r v).padSafe = s.padSafe ∧
    (s.wr r v).reload = s.reload ∧ (s.wr r v).persisting = s.persisting ∧ (s.wr r v).floorWant = s.floorWant ∧
    (s.wr r v).deferred = s.deferred ∧ (s.wr r v).svc = s.svc ∧ (s.wr r v).clk = s.clk ∧ (s.wr r v).pav = s.pav ∧
    (s.wr r v).fuses = s.fuses ∧ (s.wr r v).tap = s.tap ∧ (s.wr r v).chip = s.chip ∧ (s.wr r v).pending = s.pending := by
  repeat' constructor

@[simp] theorem State.put_frame (s : State) (q : RF) (x : Nat) :
    (s.put q x).now = s.now ∧ (s.put q x).shad = s.shad ∧ (s.put q x).mem = s.mem ∧ (s.put q x).free = s.free ∧ (s.put q x).evm = s.evm ∧
    (s.put q x).marks = s.marks ∧ (s.put q x).arbs = s.arbs ∧ (s.put q x).dma = s.dma ∧ (s.put q x).leases = s.leases ∧
    (s.put q x).resp = s.resp ∧ (s.put q x).own = s.own ∧ (s.put q x).fc = s.fc ∧ (s.put q x).fcGroup = s.fcGroup ∧
    (s.put q x).fcOut = s.fcOut ∧ (s.put q x).fcBox = s.fcBox ∧ (s.put q x).cmpPulse = s.cmpPulse ∧ (s.put q x).cmpEvt = s.cmpEvt ∧
    (s.put q x).scan = s.scan ∧ (s.put q x).scanCh = s.scanCh ∧ (s.put q x).dmaRound = s.dmaRound ∧ (s.put q x).pwm = s.pwm ∧
    (s.put q x).orphans = s.orphans ∧ (s.put q x).link = s.link ∧ (s.put q x).arm = s.arm ∧ (s.put q x).pos = s.pos ∧
    (s.put q x).lane = s.lane ∧ (s.put q x).bind = s.bind ∧ (s.put q x).cpus = s.cpus ∧ (s.put q x).bufs = s.bufs ∧ (s.put q x).fse = s.fse ∧
    (s.put q x).ses = s.ses ∧ (s.put q x).vlan = s.vlan ∧ (s.put q x).eth = s.eth ∧ (s.put q x).ptpOfs = s.ptpOfs ∧
    (s.put q x).ptpSec = s.ptpSec ∧ (s.put q x).pcie = s.pcie ∧ (s.put q x).up = s.up ∧ (s.put q x).ser = s.ser ∧
    (s.put q x).gpioOut = s.gpioOut ∧ (s.put q x).flash = s.flash ∧ (s.put q x).image = s.image ∧ (s.put q x).pads = s.pads ∧
    (s.put q x).padSafe = s.padSafe ∧ (s.put q x).reload = s.reload ∧ (s.put q x).persisting = s.persisting ∧
    (s.put q x).floorWant = s.floorWant ∧ (s.put q x).deferred = s.deferred ∧ (s.put q x).svc = s.svc ∧ (s.put q x).clk = s.clk ∧
    (s.put q x).pav = s.pav ∧ (s.put q x).fuses = s.fuses ∧ (s.put q x).tap = s.tap ∧ (s.put q x).chip = s.chip ∧
    (s.put q x).pending = s.pending := by
  repeat' constructor

@[simp] theorem State.putB_frame (s : State) (q : RF) (b : Bool) :
    (s.putB q b).now = s.now ∧ (s.putB q b).shad = s.shad ∧ (s.putB q b).mem = s.mem ∧ (s.putB q b).free = s.free ∧
    (s.putB q b).evm = s.evm ∧ (s.putB q b).marks = s.marks ∧ (s.putB q b).arbs = s.arbs ∧ (s.putB q b).dma = s.dma ∧
    (s.putB q b).leases = s.leases ∧ (s.putB q b).resp = s.resp ∧ (s.putB q b).own = s.own ∧ (s.putB q b).fc = s.fc ∧
    (s.putB q b).fcGroup = s.fcGroup ∧ (s.putB q b).fcOut = s.fcOut ∧ (s.putB q b).fcBox = s.fcBox ∧ (s.putB q b).cmpPulse = s.cmpPulse ∧
    (s.putB q b).cmpEvt = s.cmpEvt ∧ (s.putB q b).scan = s.scan ∧ (s.putB q b).scanCh = s.scanCh ∧ (s.putB q b).dmaRound = s.dmaRound ∧
    (s.putB q b).pwm = s.pwm ∧ (s.putB q b).orphans = s.orphans ∧ (s.putB q b).link = s.link ∧ (s.putB q b).arm = s.arm ∧
    (s.putB q b).pos = s.pos ∧ (s.putB q b).lane = s.lane ∧ (s.putB q b).bind = s.bind ∧ (s.putB q b).cpus = s.cpus ∧ (s.putB q b).bufs = s.bufs ∧
    (s.putB q b).fse = s.fse ∧ (s.putB q b).ses = s.ses ∧ (s.putB q b).vlan = s.vlan ∧ (s.putB q b).eth = s.eth ∧
    (s.putB q b).ptpOfs = s.ptpOfs ∧ (s.putB q b).ptpSec = s.ptpSec ∧ (s.putB q b).pcie = s.pcie ∧ (s.putB q b).up = s.up ∧
    (s.putB q b).ser = s.ser ∧ (s.putB q b).gpioOut = s.gpioOut ∧ (s.putB q b).flash = s.flash ∧ (s.putB q b).image = s.image ∧
    (s.putB q b).pads = s.pads ∧ (s.putB q b).padSafe = s.padSafe ∧ (s.putB q b).reload = s.reload ∧
    (s.putB q b).persisting = s.persisting ∧ (s.putB q b).floorWant = s.floorWant ∧ (s.putB q b).deferred = s.deferred ∧
    (s.putB q b).svc = s.svc ∧ (s.putB q b).clk = s.clk ∧ (s.putB q b).pav = s.pav ∧ (s.putB q b).fuses = s.fuses ∧
    (s.putB q b).tap = s.tap ∧ (s.putB q b).chip = s.chip ∧ (s.putB q b).pending = s.pending := by
  repeat' constructor

@[simp] theorem State.putBit_frame (s : State) (q : RF) (k : Nat) (b : Bool) :
    (s.putBit q k b).now = s.now ∧ (s.putBit q k b).shad = s.shad ∧ (s.putBit q k b).mem = s.mem ∧ (s.putBit q k b).free = s.free ∧
    (s.putBit q k b).evm = s.evm ∧ (s.putBit q k b).marks = s.marks ∧ (s.putBit q k b).arbs = s.arbs ∧ (s.putBit q k b).dma = s.dma ∧
    (s.putBit q k b).leases = s.leases ∧ (s.putBit q k b).resp = s.resp ∧ (s.putBit q k b).own = s.own ∧ (s.putBit q k b).fc = s.fc ∧
    (s.putBit q k b).fcGroup = s.fcGroup ∧ (s.putBit q k b).fcOut = s.fcOut ∧ (s.putBit q k b).fcBox = s.fcBox ∧
    (s.putBit q k b).cmpPulse = s.cmpPulse ∧ (s.putBit q k b).cmpEvt = s.cmpEvt ∧ (s.putBit q k b).scan = s.scan ∧
    (s.putBit q k b).scanCh = s.scanCh ∧ (s.putBit q k b).dmaRound = s.dmaRound ∧ (s.putBit q k b).pwm = s.pwm ∧
    (s.putBit q k b).orphans = s.orphans ∧ (s.putBit q k b).link = s.link ∧ (s.putBit q k b).arm = s.arm ∧ (s.putBit q k b).pos = s.pos ∧
    (s.putBit q k b).lane = s.lane ∧ (s.putBit q k b).bind = s.bind ∧ (s.putBit q k b).cpus = s.cpus ∧ (s.putBit q k b).bufs = s.bufs ∧ (s.putBit q k b).fse = s.fse ∧
    (s.putBit q k b).ses = s.ses ∧ (s.putBit q k b).vlan = s.vlan ∧ (s.putBit q k b).eth = s.eth ∧ (s.putBit q k b).ptpOfs = s.ptpOfs ∧
    (s.putBit q k b).ptpSec = s.ptpSec ∧ (s.putBit q k b).pcie = s.pcie ∧ (s.putBit q k b).up = s.up ∧ (s.putBit q k b).ser = s.ser ∧
    (s.putBit q k b).gpioOut = s.gpioOut ∧ (s.putBit q k b).flash = s.flash ∧ (s.putBit q k b).image = s.image ∧
    (s.putBit q k b).pads = s.pads ∧ (s.putBit q k b).padSafe = s.padSafe ∧ (s.putBit q k b).reload = s.reload ∧
    (s.putBit q k b).persisting = s.persisting ∧ (s.putBit q k b).floorWant = s.floorWant ∧ (s.putBit q k b).deferred = s.deferred ∧
    (s.putBit q k b).svc = s.svc ∧ (s.putBit q k b).clk = s.clk ∧ (s.putBit q k b).pav = s.pav ∧ (s.putBit q k b).fuses = s.fuses ∧
    (s.putBit q k b).tap = s.tap ∧ (s.putBit q k b).chip = s.chip ∧ (s.putBit q k b).pending = s.pending := by
  repeat' constructor

@[simp] theorem State.commit_frame (s : State) (q : RF) :
    (s.commit q).now = s.now ∧ (s.commit q).shad = s.shad ∧ (s.commit q).mem = s.mem ∧ (s.commit q).free = s.free ∧
    (s.commit q).evm = s.evm ∧ (s.commit q).marks = s.marks ∧ (s.commit q).arbs = s.arbs ∧ (s.commit q).dma = s.dma ∧
    (s.commit q).leases = s.leases ∧ (s.commit q).resp = s.resp ∧ (s.commit q).own = s.own ∧ (s.commit q).fc = s.fc ∧
    (s.commit q).fcGroup = s.fcGroup ∧ (s.commit q).fcOut = s.fcOut ∧ (s.commit q).fcBox = s.fcBox ∧ (s.commit q).cmpPulse = s.cmpPulse ∧
    (s.commit q).cmpEvt = s.cmpEvt ∧ (s.commit q).scan = s.scan ∧ (s.commit q).scanCh = s.scanCh ∧ (s.commit q).dmaRound = s.dmaRound ∧
    (s.commit q).pwm = s.pwm ∧ (s.commit q).orphans = s.orphans ∧ (s.commit q).link = s.link ∧ (s.commit q).arm = s.arm ∧
    (s.commit q).pos = s.pos ∧ (s.commit q).lane = s.lane ∧ (s.commit q).bind = s.bind ∧ (s.commit q).cpus = s.cpus ∧ (s.commit q).bufs = s.bufs ∧
    (s.commit q).fse = s.fse ∧ (s.commit q).ses = s.ses ∧ (s.commit q).vlan = s.vlan ∧ (s.commit q).eth = s.eth ∧
    (s.commit q).ptpOfs = s.ptpOfs ∧ (s.commit q).ptpSec = s.ptpSec ∧ (s.commit q).pcie = s.pcie ∧ (s.commit q).up = s.up ∧
    (s.commit q).ser = s.ser ∧ (s.commit q).gpioOut = s.gpioOut ∧ (s.commit q).flash = s.flash ∧ (s.commit q).image = s.image ∧
    (s.commit q).pads = s.pads ∧ (s.commit q).padSafe = s.padSafe ∧ (s.commit q).reload = s.reload ∧
    (s.commit q).persisting = s.persisting ∧ (s.commit q).floorWant = s.floorWant ∧ (s.commit q).deferred = s.deferred ∧
    (s.commit q).svc = s.svc ∧ (s.commit q).clk = s.clk ∧ (s.commit q).pav = s.pav ∧ (s.commit q).fuses = s.fuses ∧
    (s.commit q).tap = s.tap ∧ (s.commit q).chip = s.chip ∧ (s.commit q).pending = s.pending := by
  repeat' constructor

@[simp] theorem State.inc_frame (s : State) (q : RF) :
    (s.inc q).now = s.now ∧ (s.inc q).shad = s.shad ∧ (s.inc q).mem = s.mem ∧ (s.inc q).free = s.free ∧ (s.inc q).evm = s.evm ∧
    (s.inc q).marks = s.marks ∧ (s.inc q).arbs = s.arbs ∧ (s.inc q).dma = s.dma ∧ (s.inc q).leases = s.leases ∧ (s.inc q).resp = s.resp ∧
    (s.inc q).own = s.own ∧ (s.inc q).fc = s.fc ∧ (s.inc q).fcGroup = s.fcGroup ∧ (s.inc q).fcOut = s.fcOut ∧ (s.inc q).fcBox = s.fcBox ∧
    (s.inc q).cmpPulse = s.cmpPulse ∧ (s.inc q).cmpEvt = s.cmpEvt ∧ (s.inc q).scan = s.scan ∧ (s.inc q).scanCh = s.scanCh ∧
    (s.inc q).dmaRound = s.dmaRound ∧ (s.inc q).pwm = s.pwm ∧ (s.inc q).orphans = s.orphans ∧ (s.inc q).link = s.link ∧
    (s.inc q).arm = s.arm ∧ (s.inc q).pos = s.pos ∧ (s.inc q).lane = s.lane ∧ (s.inc q).bind = s.bind ∧ (s.inc q).cpus = s.cpus ∧ (s.inc q).bufs = s.bufs ∧
    (s.inc q).fse = s.fse ∧ (s.inc q).ses = s.ses ∧ (s.inc q).vlan = s.vlan ∧ (s.inc q).eth = s.eth ∧ (s.inc q).ptpOfs = s.ptpOfs ∧
    (s.inc q).ptpSec = s.ptpSec ∧ (s.inc q).pcie = s.pcie ∧ (s.inc q).up = s.up ∧ (s.inc q).ser = s.ser ∧ (s.inc q).gpioOut = s.gpioOut ∧
    (s.inc q).flash = s.flash ∧ (s.inc q).image = s.image ∧ (s.inc q).pads = s.pads ∧ (s.inc q).padSafe = s.padSafe ∧
    (s.inc q).reload = s.reload ∧ (s.inc q).persisting = s.persisting ∧ (s.inc q).floorWant = s.floorWant ∧
    (s.inc q).deferred = s.deferred ∧ (s.inc q).svc = s.svc ∧ (s.inc q).clk = s.clk ∧ (s.inc q).pav = s.pav ∧ (s.inc q).fuses = s.fuses ∧
    (s.inc q).tap = s.tap ∧ (s.inc q).chip = s.chip ∧ (s.inc q).pending = s.pending := by
  repeat' constructor

@[simp] theorem State.incSat_frame (s : State) (q : RF) (d : Nat) :
    (s.incSat q d).now = s.now ∧ (s.incSat q d).shad = s.shad ∧ (s.incSat q d).mem = s.mem ∧ (s.incSat q d).free = s.free ∧
    (s.incSat q d).evm = s.evm ∧ (s.incSat q d).marks = s.marks ∧ (s.incSat q d).arbs = s.arbs ∧ (s.incSat q d).dma = s.dma ∧
    (s.incSat q d).leases = s.leases ∧ (s.incSat q d).resp = s.resp ∧ (s.incSat q d).own = s.own ∧ (s.incSat q d).fc = s.fc ∧
    (s.incSat q d).fcGroup = s.fcGroup ∧ (s.incSat q d).fcOut = s.fcOut ∧ (s.incSat q d).fcBox = s.fcBox ∧
    (s.incSat q d).cmpPulse = s.cmpPulse ∧ (s.incSat q d).cmpEvt = s.cmpEvt ∧ (s.incSat q d).scan = s.scan ∧
    (s.incSat q d).scanCh = s.scanCh ∧ (s.incSat q d).dmaRound = s.dmaRound ∧ (s.incSat q d).pwm = s.pwm ∧
    (s.incSat q d).orphans = s.orphans ∧ (s.incSat q d).link = s.link ∧ (s.incSat q d).arm = s.arm ∧ (s.incSat q d).pos = s.pos ∧
    (s.incSat q d).lane = s.lane ∧ (s.incSat q d).bind = s.bind ∧ (s.incSat q d).cpus = s.cpus ∧ (s.incSat q d).bufs = s.bufs ∧ (s.incSat q d).fse = s.fse ∧
    (s.incSat q d).ses = s.ses ∧ (s.incSat q d).vlan = s.vlan ∧ (s.incSat q d).eth = s.eth ∧ (s.incSat q d).ptpOfs = s.ptpOfs ∧
    (s.incSat q d).ptpSec = s.ptpSec ∧ (s.incSat q d).pcie = s.pcie ∧ (s.incSat q d).up = s.up ∧ (s.incSat q d).ser = s.ser ∧
    (s.incSat q d).gpioOut = s.gpioOut ∧ (s.incSat q d).flash = s.flash ∧ (s.incSat q d).image = s.image ∧ (s.incSat q d).pads = s.pads ∧
    (s.incSat q d).padSafe = s.padSafe ∧ (s.incSat q d).reload = s.reload ∧ (s.incSat q d).persisting = s.persisting ∧
    (s.incSat q d).floorWant = s.floorWant ∧ (s.incSat q d).deferred = s.deferred ∧ (s.incSat q d).svc = s.svc ∧
    (s.incSat q d).clk = s.clk ∧ (s.incSat q d).pav = s.pav ∧ (s.incSat q d).fuses = s.fuses ∧ (s.incSat q d).tap = s.tap ∧
    (s.incSat q d).chip = s.chip ∧ (s.incSat q d).pending = s.pending := by
  repeat' constructor

@[simp] theorem State.putTime_frame (s : State) (lo hi : Reg) (t : Time) :
    (s.putTime lo hi t).now = s.now ∧ (s.putTime lo hi t).shad = s.shad ∧ (s.putTime lo hi t).mem = s.mem ∧
    (s.putTime lo hi t).free = s.free ∧ (s.putTime lo hi t).evm = s.evm ∧ (s.putTime lo hi t).marks = s.marks ∧
    (s.putTime lo hi t).arbs = s.arbs ∧ (s.putTime lo hi t).dma = s.dma ∧ (s.putTime lo hi t).leases = s.leases ∧
    (s.putTime lo hi t).resp = s.resp ∧ (s.putTime lo hi t).own = s.own ∧ (s.putTime lo hi t).fc = s.fc ∧
    (s.putTime lo hi t).fcGroup = s.fcGroup ∧ (s.putTime lo hi t).fcOut = s.fcOut ∧ (s.putTime lo hi t).fcBox = s.fcBox ∧
    (s.putTime lo hi t).cmpPulse = s.cmpPulse ∧ (s.putTime lo hi t).cmpEvt = s.cmpEvt ∧ (s.putTime lo hi t).scan = s.scan ∧
    (s.putTime lo hi t).scanCh = s.scanCh ∧ (s.putTime lo hi t).dmaRound = s.dmaRound ∧ (s.putTime lo hi t).pwm = s.pwm ∧
    (s.putTime lo hi t).orphans = s.orphans ∧ (s.putTime lo hi t).link = s.link ∧ (s.putTime lo hi t).arm = s.arm ∧
    (s.putTime lo hi t).pos = s.pos ∧ (s.putTime lo hi t).lane = s.lane ∧ (s.putTime lo hi t).bind = s.bind ∧
    (s.putTime lo hi t).cpus = s.cpus ∧ (s.putTime lo hi t).bufs = s.bufs ∧ (s.putTime lo hi t).fse = s.fse ∧ (s.putTime lo hi t).ses = s.ses ∧
    (s.putTime lo hi t).vlan = s.vlan ∧ (s.putTime lo hi t).eth = s.eth ∧ (s.putTime lo hi t).ptpOfs = s.ptpOfs ∧
    (s.putTime lo hi t).ptpSec = s.ptpSec ∧ (s.putTime lo hi t).pcie = s.pcie ∧ (s.putTime lo hi t).up = s.up ∧
    (s.putTime lo hi t).ser = s.ser ∧ (s.putTime lo hi t).gpioOut = s.gpioOut ∧ (s.putTime lo hi t).flash = s.flash ∧
    (s.putTime lo hi t).image = s.image ∧ (s.putTime lo hi t).pads = s.pads ∧ (s.putTime lo hi t).padSafe = s.padSafe ∧
    (s.putTime lo hi t).reload = s.reload ∧ (s.putTime lo hi t).persisting = s.persisting ∧ (s.putTime lo hi t).floorWant = s.floorWant ∧
    (s.putTime lo hi t).deferred = s.deferred ∧ (s.putTime lo hi t).svc = s.svc ∧ (s.putTime lo hi t).clk = s.clk ∧
    (s.putTime lo hi t).pav = s.pav ∧ (s.putTime lo hi t).fuses = s.fuses ∧ (s.putTime lo hi t).tap = s.tap ∧
    (s.putTime lo hi t).chip = s.chip ∧ (s.putTime lo hi t).pending = s.pending := by
  repeat' constructor

@[simp] theorem State.putShadow_frame (s : State) (q : RF) (x : Nat) :
    (s.putShadow q x).now = s.now ∧ (s.putShadow q x).regs = s.regs ∧ (s.putShadow q x).mem = s.mem ∧ (s.putShadow q x).free = s.free ∧
    (s.putShadow q x).evm = s.evm ∧ (s.putShadow q x).marks = s.marks ∧ (s.putShadow q x).arbs = s.arbs ∧ (s.putShadow q x).dma = s.dma ∧
    (s.putShadow q x).leases = s.leases ∧ (s.putShadow q x).resp = s.resp ∧ (s.putShadow q x).own = s.own ∧ (s.putShadow q x).fc = s.fc ∧
    (s.putShadow q x).fcGroup = s.fcGroup ∧ (s.putShadow q x).fcOut = s.fcOut ∧ (s.putShadow q x).fcBox = s.fcBox ∧
    (s.putShadow q x).cmpPulse = s.cmpPulse ∧ (s.putShadow q x).cmpEvt = s.cmpEvt ∧ (s.putShadow q x).scan = s.scan ∧
    (s.putShadow q x).scanCh = s.scanCh ∧ (s.putShadow q x).dmaRound = s.dmaRound ∧ (s.putShadow q x).pwm = s.pwm ∧
    (s.putShadow q x).orphans = s.orphans ∧ (s.putShadow q x).link = s.link ∧ (s.putShadow q x).arm = s.arm ∧
    (s.putShadow q x).pos = s.pos ∧ (s.putShadow q x).lane = s.lane ∧ (s.putShadow q x).bind = s.bind ∧ (s.putShadow q x).cpus = s.cpus ∧ (s.putShadow q x).bufs = s.bufs ∧
    (s.putShadow q x).fse = s.fse ∧ (s.putShadow q x).ses = s.ses ∧ (s.putShadow q x).vlan = s.vlan ∧ (s.putShadow q x).eth = s.eth ∧
    (s.putShadow q x).ptpOfs = s.ptpOfs ∧ (s.putShadow q x).ptpSec = s.ptpSec ∧ (s.putShadow q x).pcie = s.pcie ∧
    (s.putShadow q x).up = s.up ∧ (s.putShadow q x).ser = s.ser ∧ (s.putShadow q x).gpioOut = s.gpioOut ∧
    (s.putShadow q x).flash = s.flash ∧ (s.putShadow q x).image = s.image ∧ (s.putShadow q x).pads = s.pads ∧
    (s.putShadow q x).padSafe = s.padSafe ∧ (s.putShadow q x).reload = s.reload ∧ (s.putShadow q x).persisting = s.persisting ∧
    (s.putShadow q x).floorWant = s.floorWant ∧ (s.putShadow q x).deferred = s.deferred ∧ (s.putShadow q x).svc = s.svc ∧
    (s.putShadow q x).clk = s.clk ∧ (s.putShadow q x).pav = s.pav ∧ (s.putShadow q x).fuses = s.fuses ∧ (s.putShadow q x).tap = s.tap ∧
    (s.putShadow q x).chip = s.chip ∧ (s.putShadow q x).pending = s.pending := by
  repeat' constructor

@[simp] theorem State.fresh_frame (s : State) :
    (s.fresh.2).now = s.now ∧ (s.fresh.2).regs = s.regs ∧ (s.fresh.2).shad = s.shad ∧ (s.fresh.2).mem = s.mem ∧ (s.fresh.2).evm = s.evm ∧
    (s.fresh.2).marks = s.marks ∧ (s.fresh.2).arbs = s.arbs ∧ (s.fresh.2).dma = s.dma ∧ (s.fresh.2).leases = s.leases ∧
    (s.fresh.2).resp = s.resp ∧ (s.fresh.2).own = s.own ∧ (s.fresh.2).fc = s.fc ∧ (s.fresh.2).fcGroup = s.fcGroup ∧
    (s.fresh.2).fcOut = s.fcOut ∧ (s.fresh.2).fcBox = s.fcBox ∧ (s.fresh.2).cmpPulse = s.cmpPulse ∧ (s.fresh.2).cmpEvt = s.cmpEvt ∧
    (s.fresh.2).scan = s.scan ∧ (s.fresh.2).scanCh = s.scanCh ∧ (s.fresh.2).dmaRound = s.dmaRound ∧ (s.fresh.2).pwm = s.pwm ∧
    (s.fresh.2).orphans = s.orphans ∧ (s.fresh.2).link = s.link ∧ (s.fresh.2).arm = s.arm ∧ (s.fresh.2).pos = s.pos ∧
    (s.fresh.2).lane = s.lane ∧ (s.fresh.2).bind = s.bind ∧ (s.fresh.2).cpus = s.cpus ∧ (s.fresh.2).bufs = s.bufs ∧ (s.fresh.2).fse = s.fse ∧
    (s.fresh.2).ses = s.ses ∧ (s.fresh.2).vlan = s.vlan ∧ (s.fresh.2).eth = s.eth ∧ (s.fresh.2).ptpOfs = s.ptpOfs ∧
    (s.fresh.2).ptpSec = s.ptpSec ∧ (s.fresh.2).pcie = s.pcie ∧ (s.fresh.2).up = s.up ∧ (s.fresh.2).ser = s.ser ∧
    (s.fresh.2).gpioOut = s.gpioOut ∧ (s.fresh.2).flash = s.flash ∧ (s.fresh.2).image = s.image ∧ (s.fresh.2).pads = s.pads ∧
    (s.fresh.2).padSafe = s.padSafe ∧ (s.fresh.2).reload = s.reload ∧ (s.fresh.2).persisting = s.persisting ∧
    (s.fresh.2).floorWant = s.floorWant ∧ (s.fresh.2).deferred = s.deferred ∧ (s.fresh.2).svc = s.svc ∧ (s.fresh.2).clk = s.clk ∧
    (s.fresh.2).pav = s.pav ∧ (s.fresh.2).fuses = s.fuses ∧ (s.fresh.2).tap = s.tap ∧ (s.fresh.2).chip = s.chip ∧
    (s.fresh.2).pending = s.pending := by
  repeat' constructor

@[simp] theorem State.setLine_frame (s : State) (p : Nat) (x : Line) :
    (s.setLine p x).now = s.now ∧ (s.setLine p x).regs = s.regs ∧ (s.setLine p x).shad = s.shad ∧ (s.setLine p x).mem = s.mem ∧
    (s.setLine p x).free = s.free ∧ (s.setLine p x).marks = s.marks ∧ (s.setLine p x).arbs = s.arbs ∧ (s.setLine p x).dma = s.dma ∧
    (s.setLine p x).leases = s.leases ∧ (s.setLine p x).resp = s.resp ∧ (s.setLine p x).own = s.own ∧ (s.setLine p x).fc = s.fc ∧
    (s.setLine p x).fcGroup = s.fcGroup ∧ (s.setLine p x).fcOut = s.fcOut ∧ (s.setLine p x).fcBox = s.fcBox ∧
    (s.setLine p x).cmpPulse = s.cmpPulse ∧ (s.setLine p x).cmpEvt = s.cmpEvt ∧ (s.setLine p x).scan = s.scan ∧
    (s.setLine p x).scanCh = s.scanCh ∧ (s.setLine p x).dmaRound = s.dmaRound ∧ (s.setLine p x).pwm = s.pwm ∧
    (s.setLine p x).orphans = s.orphans ∧ (s.setLine p x).link = s.link ∧ (s.setLine p x).arm = s.arm ∧ (s.setLine p x).pos = s.pos ∧
    (s.setLine p x).lane = s.lane ∧ (s.setLine p x).bind = s.bind ∧ (s.setLine p x).cpus = s.cpus ∧ (s.setLine p x).bufs = s.bufs ∧ (s.setLine p x).fse = s.fse ∧
    (s.setLine p x).ses = s.ses ∧ (s.setLine p x).vlan = s.vlan ∧ (s.setLine p x).eth = s.eth ∧ (s.setLine p x).ptpOfs = s.ptpOfs ∧
    (s.setLine p x).ptpSec = s.ptpSec ∧ (s.setLine p x).pcie = s.pcie ∧ (s.setLine p x).up = s.up ∧ (s.setLine p x).ser = s.ser ∧
    (s.setLine p x).gpioOut = s.gpioOut ∧ (s.setLine p x).flash = s.flash ∧ (s.setLine p x).image = s.image ∧
    (s.setLine p x).pads = s.pads ∧ (s.setLine p x).padSafe = s.padSafe ∧ (s.setLine p x).reload = s.reload ∧
    (s.setLine p x).persisting = s.persisting ∧ (s.setLine p x).floorWant = s.floorWant ∧ (s.setLine p x).deferred = s.deferred ∧
    (s.setLine p x).svc = s.svc ∧ (s.setLine p x).clk = s.clk ∧ (s.setLine p x).pav = s.pav ∧ (s.setLine p x).fuses = s.fuses ∧
    (s.setLine p x).tap = s.tap ∧ (s.setLine p x).chip = s.chip ∧ (s.setLine p x).pending = s.pending := by
  repeat' constructor

@[simp] theorem State.setChan_frame (s : State) (c : Nat) (x : Chan) :
    (s.setChan c x).now = s.now ∧ (s.setChan c x).shad = s.shad ∧ (s.setChan c x).mem = s.mem ∧ (s.setChan c x).free = s.free ∧
    (s.setChan c x).marks = s.marks ∧ (s.setChan c x).arbs = s.arbs ∧ (s.setChan c x).dma = s.dma ∧ (s.setChan c x).leases = s.leases ∧
    (s.setChan c x).resp = s.resp ∧ (s.setChan c x).own = s.own ∧ (s.setChan c x).fc = s.fc ∧ (s.setChan c x).fcGroup = s.fcGroup ∧
    (s.setChan c x).fcOut = s.fcOut ∧ (s.setChan c x).fcBox = s.fcBox ∧ (s.setChan c x).cmpPulse = s.cmpPulse ∧
    (s.setChan c x).cmpEvt = s.cmpEvt ∧ (s.setChan c x).scan = s.scan ∧ (s.setChan c x).scanCh = s.scanCh ∧
    (s.setChan c x).dmaRound = s.dmaRound ∧ (s.setChan c x).pwm = s.pwm ∧ (s.setChan c x).orphans = s.orphans ∧
    (s.setChan c x).link = s.link ∧ (s.setChan c x).arm = s.arm ∧ (s.setChan c x).pos = s.pos ∧ (s.setChan c x).lane = s.lane ∧
    (s.setChan c x).bind = s.bind ∧ (s.setChan c x).cpus = s.cpus ∧ (s.setChan c x).bufs = s.bufs ∧ (s.setChan c x).fse = s.fse ∧ (s.setChan c x).ses = s.ses ∧
    (s.setChan c x).vlan = s.vlan ∧ (s.setChan c x).eth = s.eth ∧ (s.setChan c x).ptpOfs = s.ptpOfs ∧ (s.setChan c x).ptpSec = s.ptpSec ∧
    (s.setChan c x).pcie = s.pcie ∧ (s.setChan c x).up = s.up ∧ (s.setChan c x).ser = s.ser ∧ (s.setChan c x).gpioOut = s.gpioOut ∧
    (s.setChan c x).flash = s.flash ∧ (s.setChan c x).image = s.image ∧ (s.setChan c x).pads = s.pads ∧
    (s.setChan c x).padSafe = s.padSafe ∧ (s.setChan c x).reload = s.reload ∧ (s.setChan c x).persisting = s.persisting ∧
    (s.setChan c x).floorWant = s.floorWant ∧ (s.setChan c x).deferred = s.deferred ∧ (s.setChan c x).svc = s.svc ∧
    (s.setChan c x).clk = s.clk ∧ (s.setChan c x).pav = s.pav ∧ (s.setChan c x).fuses = s.fuses ∧ (s.setChan c x).tap = s.tap ∧
    (s.setChan c x).chip = s.chip ∧ (s.setChan c x).pending = s.pending := by
  repeat' constructor

@[simp] theorem State.arrive_frame (s : State) (c h : Nat) :
    (s.arrive c h).now = s.now ∧ (s.arrive c h).shad = s.shad ∧ (s.arrive c h).mem = s.mem ∧ (s.arrive c h).free = s.free ∧
    (s.arrive c h).marks = s.marks ∧ (s.arrive c h).arbs = s.arbs ∧ (s.arrive c h).dma = s.dma ∧ (s.arrive c h).leases = s.leases ∧
    (s.arrive c h).resp = s.resp ∧ (s.arrive c h).own = s.own ∧ (s.arrive c h).fc = s.fc ∧ (s.arrive c h).fcGroup = s.fcGroup ∧
    (s.arrive c h).fcOut = s.fcOut ∧ (s.arrive c h).fcBox = s.fcBox ∧ (s.arrive c h).cmpPulse = s.cmpPulse ∧
    (s.arrive c h).cmpEvt = s.cmpEvt ∧ (s.arrive c h).scan = s.scan ∧ (s.arrive c h).scanCh = s.scanCh ∧
    (s.arrive c h).dmaRound = s.dmaRound ∧ (s.arrive c h).pwm = s.pwm ∧ (s.arrive c h).orphans = s.orphans ∧
    (s.arrive c h).link = s.link ∧ (s.arrive c h).arm = s.arm ∧ (s.arrive c h).pos = s.pos ∧ (s.arrive c h).lane = s.lane ∧
    (s.arrive c h).bind = s.bind ∧ (s.arrive c h).cpus = s.cpus ∧ (s.arrive c h).bufs = s.bufs ∧ (s.arrive c h).fse = s.fse ∧ (s.arrive c h).ses = s.ses ∧
    (s.arrive c h).vlan = s.vlan ∧ (s.arrive c h).eth = s.eth ∧ (s.arrive c h).ptpOfs = s.ptpOfs ∧ (s.arrive c h).ptpSec = s.ptpSec ∧
    (s.arrive c h).pcie = s.pcie ∧ (s.arrive c h).up = s.up ∧ (s.arrive c h).ser = s.ser ∧ (s.arrive c h).gpioOut = s.gpioOut ∧
    (s.arrive c h).flash = s.flash ∧ (s.arrive c h).image = s.image ∧ (s.arrive c h).pads = s.pads ∧ (s.arrive c h).padSafe = s.padSafe ∧
    (s.arrive c h).reload = s.reload ∧ (s.arrive c h).persisting = s.persisting ∧ (s.arrive c h).floorWant = s.floorWant ∧
    (s.arrive c h).deferred = s.deferred ∧ (s.arrive c h).svc = s.svc ∧ (s.arrive c h).clk = s.clk ∧ (s.arrive c h).pav = s.pav ∧
    (s.arrive c h).fuses = s.fuses ∧ (s.arrive c h).tap = s.tap ∧ (s.arrive c h).chip = s.chip ∧ (s.arrive c h).pending = s.pending := by
  repeat' constructor

@[simp] theorem State.poke_frame (s : State) (a : Nat) (bs : List Byte) :
    (s.poke a bs).now = s.now ∧ (s.poke a bs).regs = s.regs ∧ (s.poke a bs).shad = s.shad ∧ (s.poke a bs).free = s.free ∧
    (s.poke a bs).evm = s.evm ∧ (s.poke a bs).marks = s.marks ∧ (s.poke a bs).arbs = s.arbs ∧ (s.poke a bs).dma = s.dma ∧
    (s.poke a bs).leases = s.leases ∧ (s.poke a bs).resp = s.resp ∧ (s.poke a bs).own = s.own ∧ (s.poke a bs).fc = s.fc ∧
    (s.poke a bs).fcGroup = s.fcGroup ∧ (s.poke a bs).fcOut = s.fcOut ∧ (s.poke a bs).fcBox = s.fcBox ∧
    (s.poke a bs).cmpPulse = s.cmpPulse ∧ (s.poke a bs).cmpEvt = s.cmpEvt ∧ (s.poke a bs).scan = s.scan ∧
    (s.poke a bs).scanCh = s.scanCh ∧ (s.poke a bs).dmaRound = s.dmaRound ∧ (s.poke a bs).pwm = s.pwm ∧
    (s.poke a bs).orphans = s.orphans ∧ (s.poke a bs).link = s.link ∧ (s.poke a bs).arm = s.arm ∧ (s.poke a bs).pos = s.pos ∧
    (s.poke a bs).lane = s.lane ∧ (s.poke a bs).bind = s.bind ∧ (s.poke a bs).cpus = s.cpus ∧ (s.poke a bs).bufs = s.bufs ∧ (s.poke a bs).fse = s.fse ∧
    (s.poke a bs).ses = s.ses ∧ (s.poke a bs).vlan = s.vlan ∧ (s.poke a bs).eth = s.eth ∧ (s.poke a bs).ptpOfs = s.ptpOfs ∧
    (s.poke a bs).ptpSec = s.ptpSec ∧ (s.poke a bs).pcie = s.pcie ∧ (s.poke a bs).up = s.up ∧ (s.poke a bs).ser = s.ser ∧
    (s.poke a bs).gpioOut = s.gpioOut ∧ (s.poke a bs).flash = s.flash ∧ (s.poke a bs).image = s.image ∧ (s.poke a bs).pads = s.pads ∧
    (s.poke a bs).padSafe = s.padSafe ∧ (s.poke a bs).reload = s.reload ∧ (s.poke a bs).persisting = s.persisting ∧
    (s.poke a bs).floorWant = s.floorWant ∧ (s.poke a bs).deferred = s.deferred ∧ (s.poke a bs).svc = s.svc ∧ (s.poke a bs).clk = s.clk ∧
    (s.poke a bs).pav = s.pav ∧ (s.poke a bs).fuses = s.fuses ∧ (s.poke a bs).tap = s.tap ∧ (s.poke a bs).chip = s.chip ∧
    (s.poke a bs).pending = s.pending := by
  repeat' constructor

@[simp] theorem State.setMark_frame (s : State) (a : Nat) (m : LineMark) :
    (s.setMark a m).now = s.now ∧ (s.setMark a m).regs = s.regs ∧ (s.setMark a m).shad = s.shad ∧ (s.setMark a m).mem = s.mem ∧
    (s.setMark a m).free = s.free ∧ (s.setMark a m).evm = s.evm ∧ (s.setMark a m).arbs = s.arbs ∧ (s.setMark a m).dma = s.dma ∧
    (s.setMark a m).leases = s.leases ∧ (s.setMark a m).resp = s.resp ∧ (s.setMark a m).own = s.own ∧ (s.setMark a m).fc = s.fc ∧
    (s.setMark a m).fcGroup = s.fcGroup ∧ (s.setMark a m).fcOut = s.fcOut ∧ (s.setMark a m).fcBox = s.fcBox ∧
    (s.setMark a m).cmpPulse = s.cmpPulse ∧ (s.setMark a m).cmpEvt = s.cmpEvt ∧ (s.setMark a m).scan = s.scan ∧
    (s.setMark a m).scanCh = s.scanCh ∧ (s.setMark a m).dmaRound = s.dmaRound ∧ (s.setMark a m).pwm = s.pwm ∧
    (s.setMark a m).orphans = s.orphans ∧ (s.setMark a m).link = s.link ∧ (s.setMark a m).arm = s.arm ∧ (s.setMark a m).pos = s.pos ∧
    (s.setMark a m).lane = s.lane ∧ (s.setMark a m).bind = s.bind ∧ (s.setMark a m).cpus = s.cpus ∧ (s.setMark a m).bufs = s.bufs ∧ (s.setMark a m).fse = s.fse ∧
    (s.setMark a m).ses = s.ses ∧ (s.setMark a m).vlan = s.vlan ∧ (s.setMark a m).eth = s.eth ∧ (s.setMark a m).ptpOfs = s.ptpOfs ∧
    (s.setMark a m).ptpSec = s.ptpSec ∧ (s.setMark a m).pcie = s.pcie ∧ (s.setMark a m).up = s.up ∧ (s.setMark a m).ser = s.ser ∧
    (s.setMark a m).gpioOut = s.gpioOut ∧ (s.setMark a m).flash = s.flash ∧ (s.setMark a m).image = s.image ∧
    (s.setMark a m).pads = s.pads ∧ (s.setMark a m).padSafe = s.padSafe ∧ (s.setMark a m).reload = s.reload ∧
    (s.setMark a m).persisting = s.persisting ∧ (s.setMark a m).floorWant = s.floorWant ∧ (s.setMark a m).deferred = s.deferred ∧
    (s.setMark a m).svc = s.svc ∧ (s.setMark a m).clk = s.clk ∧ (s.setMark a m).pav = s.pav ∧ (s.setMark a m).fuses = s.fuses ∧
    (s.setMark a m).tap = s.tap ∧ (s.setMark a m).chip = s.chip ∧ (s.setMark a m).pending = s.pending := by
  repeat' constructor

@[simp] theorem State.wipe_frame (s : State) (lo hi : Nat) :
    (s.wipe lo hi).now = s.now ∧ (s.wipe lo hi).regs = s.regs ∧ (s.wipe lo hi).shad = s.shad ∧ (s.wipe lo hi).free = s.free ∧
    (s.wipe lo hi).evm = s.evm ∧ (s.wipe lo hi).arbs = s.arbs ∧ (s.wipe lo hi).dma = s.dma ∧ (s.wipe lo hi).leases = s.leases ∧
    (s.wipe lo hi).resp = s.resp ∧ (s.wipe lo hi).own = s.own ∧ (s.wipe lo hi).fc = s.fc ∧ (s.wipe lo hi).fcGroup = s.fcGroup ∧
    (s.wipe lo hi).fcOut = s.fcOut ∧ (s.wipe lo hi).fcBox = s.fcBox ∧ (s.wipe lo hi).cmpPulse = s.cmpPulse ∧
    (s.wipe lo hi).cmpEvt = s.cmpEvt ∧ (s.wipe lo hi).scan = s.scan ∧ (s.wipe lo hi).scanCh = s.scanCh ∧
    (s.wipe lo hi).dmaRound = s.dmaRound ∧ (s.wipe lo hi).pwm = s.pwm ∧ (s.wipe lo hi).orphans = s.orphans ∧
    (s.wipe lo hi).link = s.link ∧ (s.wipe lo hi).arm = s.arm ∧ (s.wipe lo hi).pos = s.pos ∧ (s.wipe lo hi).lane = s.lane ∧
    (s.wipe lo hi).bind = s.bind ∧ (s.wipe lo hi).cpus = s.cpus ∧ (s.wipe lo hi).bufs = s.bufs ∧ (s.wipe lo hi).fse = s.fse ∧ (s.wipe lo hi).ses = s.ses ∧
    (s.wipe lo hi).vlan = s.vlan ∧ (s.wipe lo hi).eth = s.eth ∧ (s.wipe lo hi).ptpOfs = s.ptpOfs ∧ (s.wipe lo hi).ptpSec = s.ptpSec ∧
    (s.wipe lo hi).pcie = s.pcie ∧ (s.wipe lo hi).up = s.up ∧ (s.wipe lo hi).ser = s.ser ∧ (s.wipe lo hi).gpioOut = s.gpioOut ∧
    (s.wipe lo hi).flash = s.flash ∧ (s.wipe lo hi).image = s.image ∧ (s.wipe lo hi).pads = s.pads ∧ (s.wipe lo hi).padSafe = s.padSafe ∧
    (s.wipe lo hi).reload = s.reload ∧ (s.wipe lo hi).persisting = s.persisting ∧ (s.wipe lo hi).floorWant = s.floorWant ∧
    (s.wipe lo hi).deferred = s.deferred ∧ (s.wipe lo hi).svc = s.svc ∧ (s.wipe lo hi).clk = s.clk ∧ (s.wipe lo hi).pav = s.pav ∧
    (s.wipe lo hi).fuses = s.fuses ∧ (s.wipe lo hi).tap = s.tap ∧ (s.wipe lo hi).chip = s.chip ∧ (s.wipe lo hi).pending = s.pending := by
  repeat' constructor

@[simp] theorem State.setFch_frame (s : State) (n : Nat) (x : FcChan) :
    (s.setFch n x).now = s.now ∧ (s.setFch n x).shad = s.shad ∧ (s.setFch n x).mem = s.mem ∧ (s.setFch n x).free = s.free ∧
    (s.setFch n x).evm = s.evm ∧ (s.setFch n x).marks = s.marks ∧ (s.setFch n x).arbs = s.arbs ∧ (s.setFch n x).dma = s.dma ∧
    (s.setFch n x).leases = s.leases ∧ (s.setFch n x).resp = s.resp ∧ (s.setFch n x).own = s.own ∧ (s.setFch n x).fcGroup = s.fcGroup ∧
    (s.setFch n x).fcOut = s.fcOut ∧ (s.setFch n x).fcBox = s.fcBox ∧ (s.setFch n x).cmpPulse = s.cmpPulse ∧
    (s.setFch n x).cmpEvt = s.cmpEvt ∧ (s.setFch n x).scan = s.scan ∧ (s.setFch n x).scanCh = s.scanCh ∧
    (s.setFch n x).dmaRound = s.dmaRound ∧ (s.setFch n x).pwm = s.pwm ∧ (s.setFch n x).orphans = s.orphans ∧
    (s.setFch n x).link = s.link ∧ (s.setFch n x).arm = s.arm ∧ (s.setFch n x).pos = s.pos ∧ (s.setFch n x).lane = s.lane ∧
    (s.setFch n x).bind = s.bind ∧ (s.setFch n x).cpus = s.cpus ∧ (s.setFch n x).bufs = s.bufs ∧ (s.setFch n x).fse = s.fse ∧ (s.setFch n x).ses = s.ses ∧
    (s.setFch n x).vlan = s.vlan ∧ (s.setFch n x).eth = s.eth ∧ (s.setFch n x).ptpOfs = s.ptpOfs ∧ (s.setFch n x).ptpSec = s.ptpSec ∧
    (s.setFch n x).pcie = s.pcie ∧ (s.setFch n x).up = s.up ∧ (s.setFch n x).ser = s.ser ∧ (s.setFch n x).gpioOut = s.gpioOut ∧
    (s.setFch n x).flash = s.flash ∧ (s.setFch n x).image = s.image ∧ (s.setFch n x).pads = s.pads ∧ (s.setFch n x).padSafe = s.padSafe ∧
    (s.setFch n x).reload = s.reload ∧ (s.setFch n x).persisting = s.persisting ∧ (s.setFch n x).floorWant = s.floorWant ∧
    (s.setFch n x).deferred = s.deferred ∧ (s.setFch n x).svc = s.svc ∧ (s.setFch n x).clk = s.clk ∧ (s.setFch n x).pav = s.pav ∧
    (s.setFch n x).fuses = s.fuses ∧ (s.setFch n x).tap = s.tap ∧ (s.setFch n x).chip = s.chip ∧ (s.setFch n x).pending = s.pending := by
  repeat' constructor

@[simp] theorem State.setFgr_frame (s : State) (g : Nat) (x : FcGroup) :
    (s.setFgr g x).now = s.now ∧ (s.setFgr g x).regs = s.regs ∧ (s.setFgr g x).shad = s.shad ∧ (s.setFgr g x).mem = s.mem ∧
    (s.setFgr g x).free = s.free ∧ (s.setFgr g x).evm = s.evm ∧ (s.setFgr g x).marks = s.marks ∧ (s.setFgr g x).arbs = s.arbs ∧
    (s.setFgr g x).dma = s.dma ∧ (s.setFgr g x).leases = s.leases ∧ (s.setFgr g x).resp = s.resp ∧ (s.setFgr g x).own = s.own ∧
    (s.setFgr g x).fc = s.fc ∧ (s.setFgr g x).fcOut = s.fcOut ∧ (s.setFgr g x).fcBox = s.fcBox ∧ (s.setFgr g x).cmpPulse = s.cmpPulse ∧
    (s.setFgr g x).cmpEvt = s.cmpEvt ∧ (s.setFgr g x).scan = s.scan ∧ (s.setFgr g x).scanCh = s.scanCh ∧
    (s.setFgr g x).dmaRound = s.dmaRound ∧ (s.setFgr g x).pwm = s.pwm ∧ (s.setFgr g x).orphans = s.orphans ∧
    (s.setFgr g x).link = s.link ∧ (s.setFgr g x).arm = s.arm ∧ (s.setFgr g x).pos = s.pos ∧ (s.setFgr g x).lane = s.lane ∧
    (s.setFgr g x).bind = s.bind ∧ (s.setFgr g x).cpus = s.cpus ∧ (s.setFgr g x).bufs = s.bufs ∧ (s.setFgr g x).fse = s.fse ∧ (s.setFgr g x).ses = s.ses ∧
    (s.setFgr g x).vlan = s.vlan ∧ (s.setFgr g x).eth = s.eth ∧ (s.setFgr g x).ptpOfs = s.ptpOfs ∧ (s.setFgr g x).ptpSec = s.ptpSec ∧
    (s.setFgr g x).pcie = s.pcie ∧ (s.setFgr g x).up = s.up ∧ (s.setFgr g x).ser = s.ser ∧ (s.setFgr g x).gpioOut = s.gpioOut ∧
    (s.setFgr g x).flash = s.flash ∧ (s.setFgr g x).image = s.image ∧ (s.setFgr g x).pads = s.pads ∧ (s.setFgr g x).padSafe = s.padSafe ∧
    (s.setFgr g x).reload = s.reload ∧ (s.setFgr g x).persisting = s.persisting ∧ (s.setFgr g x).floorWant = s.floorWant ∧
    (s.setFgr g x).deferred = s.deferred ∧ (s.setFgr g x).svc = s.svc ∧ (s.setFgr g x).clk = s.clk ∧ (s.setFgr g x).pav = s.pav ∧
    (s.setFgr g x).fuses = s.fuses ∧ (s.setFgr g x).tap = s.tap ∧ (s.setFgr g x).chip = s.chip ∧ (s.setFgr g x).pending = s.pending := by
  repeat' constructor

@[simp] theorem State.setSch_frame (s : State) (n : Nat) (x : ScanChan) :
    (s.setSch n x).now = s.now ∧ (s.setSch n x).regs = s.regs ∧ (s.setSch n x).shad = s.shad ∧ (s.setSch n x).mem = s.mem ∧
    (s.setSch n x).free = s.free ∧ (s.setSch n x).evm = s.evm ∧ (s.setSch n x).marks = s.marks ∧ (s.setSch n x).arbs = s.arbs ∧
    (s.setSch n x).dma = s.dma ∧ (s.setSch n x).leases = s.leases ∧ (s.setSch n x).resp = s.resp ∧ (s.setSch n x).own = s.own ∧
    (s.setSch n x).fc = s.fc ∧ (s.setSch n x).fcGroup = s.fcGroup ∧ (s.setSch n x).fcOut = s.fcOut ∧ (s.setSch n x).fcBox = s.fcBox ∧
    (s.setSch n x).cmpPulse = s.cmpPulse ∧ (s.setSch n x).cmpEvt = s.cmpEvt ∧ (s.setSch n x).scan = s.scan ∧
    (s.setSch n x).dmaRound = s.dmaRound ∧ (s.setSch n x).pwm = s.pwm ∧ (s.setSch n x).orphans = s.orphans ∧
    (s.setSch n x).link = s.link ∧ (s.setSch n x).arm = s.arm ∧ (s.setSch n x).pos = s.pos ∧ (s.setSch n x).lane = s.lane ∧
    (s.setSch n x).bind = s.bind ∧ (s.setSch n x).cpus = s.cpus ∧ (s.setSch n x).bufs = s.bufs ∧ (s.setSch n x).fse = s.fse ∧ (s.setSch n x).ses = s.ses ∧
    (s.setSch n x).vlan = s.vlan ∧ (s.setSch n x).eth = s.eth ∧ (s.setSch n x).ptpOfs = s.ptpOfs ∧ (s.setSch n x).ptpSec = s.ptpSec ∧
    (s.setSch n x).pcie = s.pcie ∧ (s.setSch n x).up = s.up ∧ (s.setSch n x).ser = s.ser ∧ (s.setSch n x).gpioOut = s.gpioOut ∧
    (s.setSch n x).flash = s.flash ∧ (s.setSch n x).image = s.image ∧ (s.setSch n x).pads = s.pads ∧ (s.setSch n x).padSafe = s.padSafe ∧
    (s.setSch n x).reload = s.reload ∧ (s.setSch n x).persisting = s.persisting ∧ (s.setSch n x).floorWant = s.floorWant ∧
    (s.setSch n x).deferred = s.deferred ∧ (s.setSch n x).svc = s.svc ∧ (s.setSch n x).clk = s.clk ∧ (s.setSch n x).pav = s.pav ∧
    (s.setSch n x).fuses = s.fuses ∧ (s.setSch n x).tap = s.tap ∧ (s.setSch n x).chip = s.chip ∧ (s.setSch n x).pending = s.pending := by
  repeat' constructor

@[simp] theorem State.setUnit_frame (s : State) (n : Nat) (x : PwmUnit) :
    (s.setUnit n x).now = s.now ∧ (s.setUnit n x).regs = s.regs ∧ (s.setUnit n x).shad = s.shad ∧ (s.setUnit n x).mem = s.mem ∧
    (s.setUnit n x).free = s.free ∧ (s.setUnit n x).evm = s.evm ∧ (s.setUnit n x).marks = s.marks ∧ (s.setUnit n x).arbs = s.arbs ∧
    (s.setUnit n x).dma = s.dma ∧ (s.setUnit n x).leases = s.leases ∧ (s.setUnit n x).resp = s.resp ∧ (s.setUnit n x).own = s.own ∧
    (s.setUnit n x).fc = s.fc ∧ (s.setUnit n x).fcGroup = s.fcGroup ∧ (s.setUnit n x).fcOut = s.fcOut ∧ (s.setUnit n x).fcBox = s.fcBox ∧
    (s.setUnit n x).cmpPulse = s.cmpPulse ∧ (s.setUnit n x).cmpEvt = s.cmpEvt ∧ (s.setUnit n x).scan = s.scan ∧
    (s.setUnit n x).scanCh = s.scanCh ∧ (s.setUnit n x).dmaRound = s.dmaRound ∧ (s.setUnit n x).orphans = s.orphans ∧
    (s.setUnit n x).link = s.link ∧ (s.setUnit n x).arm = s.arm ∧ (s.setUnit n x).pos = s.pos ∧ (s.setUnit n x).lane = s.lane ∧
    (s.setUnit n x).bind = s.bind ∧ (s.setUnit n x).cpus = s.cpus ∧ (s.setUnit n x).bufs = s.bufs ∧ (s.setUnit n x).fse = s.fse ∧ (s.setUnit n x).ses = s.ses ∧
    (s.setUnit n x).vlan = s.vlan ∧ (s.setUnit n x).eth = s.eth ∧ (s.setUnit n x).ptpOfs = s.ptpOfs ∧ (s.setUnit n x).ptpSec = s.ptpSec ∧
    (s.setUnit n x).pcie = s.pcie ∧ (s.setUnit n x).up = s.up ∧ (s.setUnit n x).ser = s.ser ∧ (s.setUnit n x).gpioOut = s.gpioOut ∧
    (s.setUnit n x).flash = s.flash ∧ (s.setUnit n x).image = s.image ∧ (s.setUnit n x).pads = s.pads ∧
    (s.setUnit n x).padSafe = s.padSafe ∧ (s.setUnit n x).reload = s.reload ∧ (s.setUnit n x).persisting = s.persisting ∧
    (s.setUnit n x).floorWant = s.floorWant ∧ (s.setUnit n x).deferred = s.deferred ∧ (s.setUnit n x).svc = s.svc ∧
    (s.setUnit n x).clk = s.clk ∧ (s.setUnit n x).pav = s.pav ∧ (s.setUnit n x).fuses = s.fuses ∧ (s.setUnit n x).tap = s.tap ∧
    (s.setUnit n x).chip = s.chip ∧ (s.setUnit n x).pending = s.pending := by
  repeat' constructor

@[simp] theorem State.setFlink_frame (s : State) (l : Nat) (x : Flink) :
    (s.setFlink l x).now = s.now ∧ (s.setFlink l x).shad = s.shad ∧ (s.setFlink l x).mem = s.mem ∧ (s.setFlink l x).free = s.free ∧
    (s.setFlink l x).evm = s.evm ∧ (s.setFlink l x).marks = s.marks ∧ (s.setFlink l x).arbs = s.arbs ∧ (s.setFlink l x).dma = s.dma ∧
    (s.setFlink l x).leases = s.leases ∧ (s.setFlink l x).resp = s.resp ∧ (s.setFlink l x).own = s.own ∧ (s.setFlink l x).fc = s.fc ∧
    (s.setFlink l x).fcGroup = s.fcGroup ∧ (s.setFlink l x).fcOut = s.fcOut ∧ (s.setFlink l x).fcBox = s.fcBox ∧
    (s.setFlink l x).cmpPulse = s.cmpPulse ∧ (s.setFlink l x).cmpEvt = s.cmpEvt ∧ (s.setFlink l x).scan = s.scan ∧
    (s.setFlink l x).scanCh = s.scanCh ∧ (s.setFlink l x).dmaRound = s.dmaRound ∧ (s.setFlink l x).pwm = s.pwm ∧
    (s.setFlink l x).orphans = s.orphans ∧ (s.setFlink l x).arm = s.arm ∧ (s.setFlink l x).pos = s.pos ∧ (s.setFlink l x).lane = s.lane ∧
    (s.setFlink l x).bind = s.bind ∧ (s.setFlink l x).cpus = s.cpus ∧ (s.setFlink l x).bufs = s.bufs ∧ (s.setFlink l x).fse = s.fse ∧ (s.setFlink l x).ses = s.ses ∧
    (s.setFlink l x).vlan = s.vlan ∧ (s.setFlink l x).eth = s.eth ∧ (s.setFlink l x).ptpOfs = s.ptpOfs ∧
    (s.setFlink l x).ptpSec = s.ptpSec ∧ (s.setFlink l x).pcie = s.pcie ∧ (s.setFlink l x).up = s.up ∧ (s.setFlink l x).ser = s.ser ∧
    (s.setFlink l x).gpioOut = s.gpioOut ∧ (s.setFlink l x).flash = s.flash ∧ (s.setFlink l x).image = s.image ∧
    (s.setFlink l x).pads = s.pads ∧ (s.setFlink l x).padSafe = s.padSafe ∧ (s.setFlink l x).reload = s.reload ∧
    (s.setFlink l x).persisting = s.persisting ∧ (s.setFlink l x).floorWant = s.floorWant ∧ (s.setFlink l x).deferred = s.deferred ∧
    (s.setFlink l x).svc = s.svc ∧ (s.setFlink l x).clk = s.clk ∧ (s.setFlink l x).pav = s.pav ∧ (s.setFlink l x).fuses = s.fuses ∧
    (s.setFlink l x).tap = s.tap ∧ (s.setFlink l x).chip = s.chip ∧ (s.setFlink l x).pending = s.pending := by
  repeat' constructor

@[simp] theorem State.setArm_frame (s : State) (a : Nat) (x : Arm) :
    (s.setArm a x).now = s.now ∧ (s.setArm a x).regs = s.regs ∧ (s.setArm a x).shad = s.shad ∧ (s.setArm a x).mem = s.mem ∧
    (s.setArm a x).free = s.free ∧ (s.setArm a x).evm = s.evm ∧ (s.setArm a x).marks = s.marks ∧ (s.setArm a x).arbs = s.arbs ∧
    (s.setArm a x).dma = s.dma ∧ (s.setArm a x).leases = s.leases ∧ (s.setArm a x).resp = s.resp ∧ (s.setArm a x).own = s.own ∧
    (s.setArm a x).fc = s.fc ∧ (s.setArm a x).fcGroup = s.fcGroup ∧ (s.setArm a x).fcOut = s.fcOut ∧ (s.setArm a x).fcBox = s.fcBox ∧
    (s.setArm a x).cmpPulse = s.cmpPulse ∧ (s.setArm a x).cmpEvt = s.cmpEvt ∧ (s.setArm a x).scan = s.scan ∧
    (s.setArm a x).scanCh = s.scanCh ∧ (s.setArm a x).dmaRound = s.dmaRound ∧ (s.setArm a x).pwm = s.pwm ∧
    (s.setArm a x).orphans = s.orphans ∧ (s.setArm a x).link = s.link ∧ (s.setArm a x).pos = s.pos ∧ (s.setArm a x).lane = s.lane ∧
    (s.setArm a x).bind = s.bind ∧ (s.setArm a x).cpus = s.cpus ∧ (s.setArm a x).bufs = s.bufs ∧ (s.setArm a x).fse = s.fse ∧ (s.setArm a x).ses = s.ses ∧
    (s.setArm a x).vlan = s.vlan ∧ (s.setArm a x).eth = s.eth ∧ (s.setArm a x).ptpOfs = s.ptpOfs ∧ (s.setArm a x).ptpSec = s.ptpSec ∧
    (s.setArm a x).pcie = s.pcie ∧ (s.setArm a x).up = s.up ∧ (s.setArm a x).ser = s.ser ∧ (s.setArm a x).gpioOut = s.gpioOut ∧
    (s.setArm a x).flash = s.flash ∧ (s.setArm a x).image = s.image ∧ (s.setArm a x).pads = s.pads ∧ (s.setArm a x).padSafe = s.padSafe ∧
    (s.setArm a x).reload = s.reload ∧ (s.setArm a x).persisting = s.persisting ∧ (s.setArm a x).floorWant = s.floorWant ∧
    (s.setArm a x).deferred = s.deferred ∧ (s.setArm a x).svc = s.svc ∧ (s.setArm a x).clk = s.clk ∧ (s.setArm a x).pav = s.pav ∧
    (s.setArm a x).fuses = s.fuses ∧ (s.setArm a x).tap = s.tap ∧ (s.setArm a x).chip = s.chip ∧ (s.setArm a x).pending = s.pending := by
  repeat' constructor

@[simp] theorem State.setLane_frame (s : State) (n : Nat) (x : Lane) :
    (s.setLane n x).now = s.now ∧ (s.setLane n x).shad = s.shad ∧ (s.setLane n x).mem = s.mem ∧ (s.setLane n x).free = s.free ∧
    (s.setLane n x).evm = s.evm ∧ (s.setLane n x).marks = s.marks ∧ (s.setLane n x).arbs = s.arbs ∧ (s.setLane n x).dma = s.dma ∧
    (s.setLane n x).leases = s.leases ∧ (s.setLane n x).resp = s.resp ∧ (s.setLane n x).own = s.own ∧ (s.setLane n x).fc = s.fc ∧
    (s.setLane n x).fcGroup = s.fcGroup ∧ (s.setLane n x).fcOut = s.fcOut ∧ (s.setLane n x).fcBox = s.fcBox ∧
    (s.setLane n x).cmpPulse = s.cmpPulse ∧ (s.setLane n x).cmpEvt = s.cmpEvt ∧ (s.setLane n x).scan = s.scan ∧
    (s.setLane n x).scanCh = s.scanCh ∧ (s.setLane n x).dmaRound = s.dmaRound ∧ (s.setLane n x).pwm = s.pwm ∧
    (s.setLane n x).orphans = s.orphans ∧ (s.setLane n x).link = s.link ∧ (s.setLane n x).arm = s.arm ∧ (s.setLane n x).pos = s.pos ∧
    (s.setLane n x).bind = s.bind ∧ (s.setLane n x).cpus = s.cpus ∧ (s.setLane n x).bufs = s.bufs ∧ (s.setLane n x).fse = s.fse ∧ (s.setLane n x).ses = s.ses ∧
    (s.setLane n x).vlan = s.vlan ∧ (s.setLane n x).eth = s.eth ∧ (s.setLane n x).ptpOfs = s.ptpOfs ∧ (s.setLane n x).ptpSec = s.ptpSec ∧
    (s.setLane n x).pcie = s.pcie ∧ (s.setLane n x).up = s.up ∧ (s.setLane n x).ser = s.ser ∧ (s.setLane n x).gpioOut = s.gpioOut ∧
    (s.setLane n x).flash = s.flash ∧ (s.setLane n x).image = s.image ∧ (s.setLane n x).pads = s.pads ∧
    (s.setLane n x).padSafe = s.padSafe ∧ (s.setLane n x).reload = s.reload ∧ (s.setLane n x).persisting = s.persisting ∧
    (s.setLane n x).floorWant = s.floorWant ∧ (s.setLane n x).deferred = s.deferred ∧ (s.setLane n x).svc = s.svc ∧
    (s.setLane n x).clk = s.clk ∧ (s.setLane n x).pav = s.pav ∧ (s.setLane n x).fuses = s.fuses ∧ (s.setLane n x).tap = s.tap ∧
    (s.setLane n x).chip = s.chip ∧ (s.setLane n x).pending = s.pending := by
  repeat' constructor

@[simp] theorem State.setBnd_frame (s : State) (b : Nat) (x : Bind) :
    (s.setBnd b x).now = s.now ∧ (s.setBnd b x).regs = s.regs ∧ (s.setBnd b x).shad = s.shad ∧ (s.setBnd b x).mem = s.mem ∧
    (s.setBnd b x).free = s.free ∧ (s.setBnd b x).evm = s.evm ∧ (s.setBnd b x).marks = s.marks ∧ (s.setBnd b x).arbs = s.arbs ∧
    (s.setBnd b x).dma = s.dma ∧ (s.setBnd b x).leases = s.leases ∧ (s.setBnd b x).resp = s.resp ∧ (s.setBnd b x).own = s.own ∧
    (s.setBnd b x).fc = s.fc ∧ (s.setBnd b x).fcGroup = s.fcGroup ∧ (s.setBnd b x).fcOut = s.fcOut ∧ (s.setBnd b x).fcBox = s.fcBox ∧
    (s.setBnd b x).cmpPulse = s.cmpPulse ∧ (s.setBnd b x).cmpEvt = s.cmpEvt ∧ (s.setBnd b x).scan = s.scan ∧
    (s.setBnd b x).scanCh = s.scanCh ∧ (s.setBnd b x).dmaRound = s.dmaRound ∧ (s.setBnd b x).pwm = s.pwm ∧
    (s.setBnd b x).orphans = s.orphans ∧ (s.setBnd b x).link = s.link ∧ (s.setBnd b x).arm = s.arm ∧ (s.setBnd b x).pos = s.pos ∧
    (s.setBnd b x).lane = s.lane ∧ (s.setBnd b x).cpus = s.cpus ∧ (s.setBnd b x).bufs = s.bufs ∧ (s.setBnd b x).fse = s.fse ∧ (s.setBnd b x).ses = s.ses ∧
    (s.setBnd b x).vlan = s.vlan ∧ (s.setBnd b x).eth = s.eth ∧ (s.setBnd b x).ptpOfs = s.ptpOfs ∧ (s.setBnd b x).ptpSec = s.ptpSec ∧
    (s.setBnd b x).pcie = s.pcie ∧ (s.setBnd b x).up = s.up ∧ (s.setBnd b x).ser = s.ser ∧ (s.setBnd b x).gpioOut = s.gpioOut ∧
    (s.setBnd b x).flash = s.flash ∧ (s.setBnd b x).image = s.image ∧ (s.setBnd b x).pads = s.pads ∧ (s.setBnd b x).padSafe = s.padSafe ∧
    (s.setBnd b x).reload = s.reload ∧ (s.setBnd b x).persisting = s.persisting ∧ (s.setBnd b x).floorWant = s.floorWant ∧
    (s.setBnd b x).deferred = s.deferred ∧ (s.setBnd b x).svc = s.svc ∧ (s.setBnd b x).clk = s.clk ∧ (s.setBnd b x).pav = s.pav ∧
    (s.setBnd b x).fuses = s.fuses ∧ (s.setBnd b x).tap = s.tap ∧ (s.setBnd b x).chip = s.chip ∧ (s.setBnd b x).pending = s.pending := by
  repeat' constructor

@[simp] theorem State.setCpuAt_frame (s : State) (k : Nat) (x : Cpu) :
    (s.setCpuAt k x).now = s.now ∧ (s.setCpuAt k x).regs = s.regs ∧ (s.setCpuAt k x).shad = s.shad ∧ (s.setCpuAt k x).mem = s.mem ∧
    (s.setCpuAt k x).free = s.free ∧ (s.setCpuAt k x).evm = s.evm ∧ (s.setCpuAt k x).marks = s.marks ∧ (s.setCpuAt k x).arbs = s.arbs ∧
    (s.setCpuAt k x).dma = s.dma ∧ (s.setCpuAt k x).leases = s.leases ∧ (s.setCpuAt k x).resp = s.resp ∧ (s.setCpuAt k x).own = s.own ∧
    (s.setCpuAt k x).fc = s.fc ∧ (s.setCpuAt k x).fcGroup = s.fcGroup ∧ (s.setCpuAt k x).fcOut = s.fcOut ∧
    (s.setCpuAt k x).fcBox = s.fcBox ∧ (s.setCpuAt k x).cmpPulse = s.cmpPulse ∧ (s.setCpuAt k x).cmpEvt = s.cmpEvt ∧
    (s.setCpuAt k x).scan = s.scan ∧ (s.setCpuAt k x).scanCh = s.scanCh ∧ (s.setCpuAt k x).dmaRound = s.dmaRound ∧
    (s.setCpuAt k x).pwm = s.pwm ∧ (s.setCpuAt k x).orphans = s.orphans ∧ (s.setCpuAt k x).link = s.link ∧ (s.setCpuAt k x).arm = s.arm ∧
    (s.setCpuAt k x).pos = s.pos ∧ (s.setCpuAt k x).lane = s.lane ∧ (s.setCpuAt k x).bind = s.bind ∧ (s.setCpuAt k x).fse = s.fse ∧
    (s.setCpuAt k x).ses = s.ses ∧ (s.setCpuAt k x).vlan = s.vlan ∧ (s.setCpuAt k x).eth = s.eth ∧ (s.setCpuAt k x).ptpOfs = s.ptpOfs ∧
    (s.setCpuAt k x).ptpSec = s.ptpSec ∧ (s.setCpuAt k x).pcie = s.pcie ∧ (s.setCpuAt k x).up = s.up ∧ (s.setCpuAt k x).ser = s.ser ∧
    (s.setCpuAt k x).gpioOut = s.gpioOut ∧ (s.setCpuAt k x).flash = s.flash ∧ (s.setCpuAt k x).image = s.image ∧
    (s.setCpuAt k x).pads = s.pads ∧ (s.setCpuAt k x).padSafe = s.padSafe ∧ (s.setCpuAt k x).reload = s.reload ∧
    (s.setCpuAt k x).persisting = s.persisting ∧ (s.setCpuAt k x).floorWant = s.floorWant ∧ (s.setCpuAt k x).deferred = s.deferred ∧
    (s.setCpuAt k x).svc = s.svc ∧ (s.setCpuAt k x).clk = s.clk ∧ (s.setCpuAt k x).pav = s.pav ∧ (s.setCpuAt k x).fuses = s.fuses ∧
    (s.setCpuAt k x).tap = s.tap ∧ (s.setCpuAt k x).chip = s.chip ∧ (s.setCpuAt k x).pending = s.pending := by
  repeat' constructor

@[simp] theorem State.setPort_frame (s : State) (n : Nat) (x : FsePort) :
    (s.setPort n x).now = s.now ∧ (s.setPort n x).shad = s.shad ∧ (s.setPort n x).mem = s.mem ∧ (s.setPort n x).free = s.free ∧
    (s.setPort n x).evm = s.evm ∧ (s.setPort n x).marks = s.marks ∧ (s.setPort n x).arbs = s.arbs ∧ (s.setPort n x).dma = s.dma ∧
    (s.setPort n x).leases = s.leases ∧ (s.setPort n x).resp = s.resp ∧ (s.setPort n x).own = s.own ∧ (s.setPort n x).fc = s.fc ∧
    (s.setPort n x).fcGroup = s.fcGroup ∧ (s.setPort n x).fcOut = s.fcOut ∧ (s.setPort n x).fcBox = s.fcBox ∧
    (s.setPort n x).cmpPulse = s.cmpPulse ∧ (s.setPort n x).cmpEvt = s.cmpEvt ∧ (s.setPort n x).scan = s.scan ∧
    (s.setPort n x).scanCh = s.scanCh ∧ (s.setPort n x).dmaRound = s.dmaRound ∧ (s.setPort n x).pwm = s.pwm ∧
    (s.setPort n x).orphans = s.orphans ∧ (s.setPort n x).link = s.link ∧ (s.setPort n x).arm = s.arm ∧ (s.setPort n x).pos = s.pos ∧
    (s.setPort n x).lane = s.lane ∧ (s.setPort n x).bind = s.bind ∧ (s.setPort n x).cpus = s.cpus ∧ (s.setPort n x).bufs = s.bufs ∧ (s.setPort n x).ses = s.ses ∧
    (s.setPort n x).vlan = s.vlan ∧ (s.setPort n x).eth = s.eth ∧ (s.setPort n x).ptpOfs = s.ptpOfs ∧ (s.setPort n x).ptpSec = s.ptpSec ∧
    (s.setPort n x).pcie = s.pcie ∧ (s.setPort n x).up = s.up ∧ (s.setPort n x).ser = s.ser ∧ (s.setPort n x).gpioOut = s.gpioOut ∧
    (s.setPort n x).flash = s.flash ∧ (s.setPort n x).image = s.image ∧ (s.setPort n x).pads = s.pads ∧
    (s.setPort n x).padSafe = s.padSafe ∧ (s.setPort n x).reload = s.reload ∧ (s.setPort n x).persisting = s.persisting ∧
    (s.setPort n x).floorWant = s.floorWant ∧ (s.setPort n x).deferred = s.deferred ∧ (s.setPort n x).svc = s.svc ∧
    (s.setPort n x).clk = s.clk ∧ (s.setPort n x).pav = s.pav ∧ (s.setPort n x).fuses = s.fuses ∧ (s.setPort n x).tap = s.tap ∧
    (s.setPort n x).chip = s.chip ∧ (s.setPort n x).pending = s.pending := by
  repeat' constructor

@[simp] theorem State.setEth_frame (s : State) (p : Nat) (x : EthPort) :
    (s.setEth p x).now = s.now ∧ (s.setEth p x).regs = s.regs ∧ (s.setEth p x).shad = s.shad ∧ (s.setEth p x).mem = s.mem ∧
    (s.setEth p x).free = s.free ∧ (s.setEth p x).evm = s.evm ∧ (s.setEth p x).marks = s.marks ∧ (s.setEth p x).arbs = s.arbs ∧
    (s.setEth p x).dma = s.dma ∧ (s.setEth p x).leases = s.leases ∧ (s.setEth p x).resp = s.resp ∧ (s.setEth p x).own = s.own ∧
    (s.setEth p x).fc = s.fc ∧ (s.setEth p x).fcGroup = s.fcGroup ∧ (s.setEth p x).fcOut = s.fcOut ∧ (s.setEth p x).fcBox = s.fcBox ∧
    (s.setEth p x).cmpPulse = s.cmpPulse ∧ (s.setEth p x).cmpEvt = s.cmpEvt ∧ (s.setEth p x).scan = s.scan ∧
    (s.setEth p x).scanCh = s.scanCh ∧ (s.setEth p x).dmaRound = s.dmaRound ∧ (s.setEth p x).pwm = s.pwm ∧
    (s.setEth p x).orphans = s.orphans ∧ (s.setEth p x).link = s.link ∧ (s.setEth p x).arm = s.arm ∧ (s.setEth p x).pos = s.pos ∧
    (s.setEth p x).lane = s.lane ∧ (s.setEth p x).bind = s.bind ∧ (s.setEth p x).cpus = s.cpus ∧ (s.setEth p x).bufs = s.bufs ∧ (s.setEth p x).fse = s.fse ∧
    (s.setEth p x).ses = s.ses ∧ (s.setEth p x).vlan = s.vlan ∧ (s.setEth p x).ptpOfs = s.ptpOfs ∧ (s.setEth p x).ptpSec = s.ptpSec ∧
    (s.setEth p x).pcie = s.pcie ∧ (s.setEth p x).up = s.up ∧ (s.setEth p x).ser = s.ser ∧ (s.setEth p x).gpioOut = s.gpioOut ∧
    (s.setEth p x).flash = s.flash ∧ (s.setEth p x).image = s.image ∧ (s.setEth p x).pads = s.pads ∧ (s.setEth p x).padSafe = s.padSafe ∧
    (s.setEth p x).reload = s.reload ∧ (s.setEth p x).persisting = s.persisting ∧ (s.setEth p x).floorWant = s.floorWant ∧
    (s.setEth p x).deferred = s.deferred ∧ (s.setEth p x).svc = s.svc ∧ (s.setEth p x).clk = s.clk ∧ (s.setEth p x).pav = s.pav ∧
    (s.setEth p x).fuses = s.fuses ∧ (s.setEth p x).tap = s.tap ∧ (s.setEth p x).chip = s.chip ∧ (s.setEth p x).pending = s.pending := by
  repeat' constructor

@[simp] theorem State.setFn_frame (s : State) (f : Nat) (x : PcieFn) :
    (s.setFn f x).now = s.now ∧ (s.setFn f x).regs = s.regs ∧ (s.setFn f x).shad = s.shad ∧ (s.setFn f x).mem = s.mem ∧
    (s.setFn f x).free = s.free ∧ (s.setFn f x).evm = s.evm ∧ (s.setFn f x).marks = s.marks ∧ (s.setFn f x).arbs = s.arbs ∧
    (s.setFn f x).dma = s.dma ∧ (s.setFn f x).leases = s.leases ∧ (s.setFn f x).resp = s.resp ∧ (s.setFn f x).own = s.own ∧
    (s.setFn f x).fc = s.fc ∧ (s.setFn f x).fcGroup = s.fcGroup ∧ (s.setFn f x).fcOut = s.fcOut ∧ (s.setFn f x).fcBox = s.fcBox ∧
    (s.setFn f x).cmpPulse = s.cmpPulse ∧ (s.setFn f x).cmpEvt = s.cmpEvt ∧ (s.setFn f x).scan = s.scan ∧
    (s.setFn f x).scanCh = s.scanCh ∧ (s.setFn f x).dmaRound = s.dmaRound ∧ (s.setFn f x).pwm = s.pwm ∧
    (s.setFn f x).orphans = s.orphans ∧ (s.setFn f x).link = s.link ∧ (s.setFn f x).arm = s.arm ∧ (s.setFn f x).pos = s.pos ∧
    (s.setFn f x).lane = s.lane ∧ (s.setFn f x).bind = s.bind ∧ (s.setFn f x).cpus = s.cpus ∧ (s.setFn f x).bufs = s.bufs ∧ (s.setFn f x).fse = s.fse ∧
    (s.setFn f x).ses = s.ses ∧ (s.setFn f x).vlan = s.vlan ∧ (s.setFn f x).eth = s.eth ∧ (s.setFn f x).ptpOfs = s.ptpOfs ∧
    (s.setFn f x).ptpSec = s.ptpSec ∧ (s.setFn f x).up = s.up ∧ (s.setFn f x).ser = s.ser ∧ (s.setFn f x).gpioOut = s.gpioOut ∧
    (s.setFn f x).flash = s.flash ∧ (s.setFn f x).image = s.image ∧ (s.setFn f x).pads = s.pads ∧ (s.setFn f x).padSafe = s.padSafe ∧
    (s.setFn f x).reload = s.reload ∧ (s.setFn f x).persisting = s.persisting ∧ (s.setFn f x).floorWant = s.floorWant ∧
    (s.setFn f x).deferred = s.deferred ∧ (s.setFn f x).svc = s.svc ∧ (s.setFn f x).clk = s.clk ∧ (s.setFn f x).pav = s.pav ∧
    (s.setFn f x).fuses = s.fuses ∧ (s.setFn f x).tap = s.tap ∧ (s.setFn f x).chip = s.chip ∧ (s.setFn f x).pending = s.pending := by
  repeat' constructor

@[simp] theorem State.setSer_frame (s : State) (c : Nat) (x : SerPort) :
    (s.setSer c x).now = s.now ∧ (s.setSer c x).regs = s.regs ∧ (s.setSer c x).shad = s.shad ∧ (s.setSer c x).mem = s.mem ∧
    (s.setSer c x).free = s.free ∧ (s.setSer c x).evm = s.evm ∧ (s.setSer c x).marks = s.marks ∧ (s.setSer c x).arbs = s.arbs ∧
    (s.setSer c x).dma = s.dma ∧ (s.setSer c x).leases = s.leases ∧ (s.setSer c x).resp = s.resp ∧ (s.setSer c x).own = s.own ∧
    (s.setSer c x).fc = s.fc ∧ (s.setSer c x).fcGroup = s.fcGroup ∧ (s.setSer c x).fcOut = s.fcOut ∧ (s.setSer c x).fcBox = s.fcBox ∧
    (s.setSer c x).cmpPulse = s.cmpPulse ∧ (s.setSer c x).cmpEvt = s.cmpEvt ∧ (s.setSer c x).scan = s.scan ∧
    (s.setSer c x).scanCh = s.scanCh ∧ (s.setSer c x).dmaRound = s.dmaRound ∧ (s.setSer c x).pwm = s.pwm ∧
    (s.setSer c x).orphans = s.orphans ∧ (s.setSer c x).link = s.link ∧ (s.setSer c x).arm = s.arm ∧ (s.setSer c x).pos = s.pos ∧
    (s.setSer c x).lane = s.lane ∧ (s.setSer c x).bind = s.bind ∧ (s.setSer c x).cpus = s.cpus ∧ (s.setSer c x).bufs = s.bufs ∧ (s.setSer c x).fse = s.fse ∧
    (s.setSer c x).ses = s.ses ∧ (s.setSer c x).vlan = s.vlan ∧ (s.setSer c x).eth = s.eth ∧ (s.setSer c x).ptpOfs = s.ptpOfs ∧
    (s.setSer c x).ptpSec = s.ptpSec ∧ (s.setSer c x).pcie = s.pcie ∧ (s.setSer c x).up = s.up ∧ (s.setSer c x).gpioOut = s.gpioOut ∧
    (s.setSer c x).flash = s.flash ∧ (s.setSer c x).image = s.image ∧ (s.setSer c x).pads = s.pads ∧ (s.setSer c x).padSafe = s.padSafe ∧
    (s.setSer c x).reload = s.reload ∧ (s.setSer c x).persisting = s.persisting ∧ (s.setSer c x).floorWant = s.floorWant ∧
    (s.setSer c x).deferred = s.deferred ∧ (s.setSer c x).svc = s.svc ∧ (s.setSer c x).clk = s.clk ∧ (s.setSer c x).pav = s.pav ∧
    (s.setSer c x).fuses = s.fuses ∧ (s.setSer c x).tap = s.tap ∧ (s.setSer c x).chip = s.chip ∧ (s.setSer c x).pending = s.pending := by
  repeat' constructor

@[simp] theorem State.setDma_frame (s : State) (n : Nat) (x : DmaCh) :
    (s.setDma n x).now = s.now ∧ (s.setDma n x).regs = s.regs ∧ (s.setDma n x).shad = s.shad ∧ (s.setDma n x).mem = s.mem ∧
    (s.setDma n x).free = s.free ∧ (s.setDma n x).evm = s.evm ∧ (s.setDma n x).marks = s.marks ∧ (s.setDma n x).arbs = s.arbs ∧
    (s.setDma n x).leases = s.leases ∧ (s.setDma n x).resp = s.resp ∧ (s.setDma n x).own = s.own ∧ (s.setDma n x).fc = s.fc ∧
    (s.setDma n x).fcGroup = s.fcGroup ∧ (s.setDma n x).fcOut = s.fcOut ∧ (s.setDma n x).fcBox = s.fcBox ∧
    (s.setDma n x).cmpPulse = s.cmpPulse ∧ (s.setDma n x).cmpEvt = s.cmpEvt ∧ (s.setDma n x).scan = s.scan ∧
    (s.setDma n x).scanCh = s.scanCh ∧ (s.setDma n x).dmaRound = s.dmaRound ∧ (s.setDma n x).pwm = s.pwm ∧
    (s.setDma n x).orphans = s.orphans ∧ (s.setDma n x).link = s.link ∧ (s.setDma n x).arm = s.arm ∧ (s.setDma n x).pos = s.pos ∧
    (s.setDma n x).lane = s.lane ∧ (s.setDma n x).bind = s.bind ∧ (s.setDma n x).cpus = s.cpus ∧ (s.setDma n x).bufs = s.bufs ∧ (s.setDma n x).fse = s.fse ∧
    (s.setDma n x).ses = s.ses ∧ (s.setDma n x).vlan = s.vlan ∧ (s.setDma n x).eth = s.eth ∧ (s.setDma n x).ptpOfs = s.ptpOfs ∧
    (s.setDma n x).ptpSec = s.ptpSec ∧ (s.setDma n x).pcie = s.pcie ∧ (s.setDma n x).up = s.up ∧ (s.setDma n x).ser = s.ser ∧
    (s.setDma n x).gpioOut = s.gpioOut ∧ (s.setDma n x).flash = s.flash ∧ (s.setDma n x).image = s.image ∧ (s.setDma n x).pads = s.pads ∧
    (s.setDma n x).padSafe = s.padSafe ∧ (s.setDma n x).reload = s.reload ∧ (s.setDma n x).persisting = s.persisting ∧
    (s.setDma n x).floorWant = s.floorWant ∧ (s.setDma n x).deferred = s.deferred ∧ (s.setDma n x).svc = s.svc ∧
    (s.setDma n x).clk = s.clk ∧ (s.setDma n x).pav = s.pav ∧ (s.setDma n x).fuses = s.fuses ∧ (s.setDma n x).tap = s.tap ∧
    (s.setDma n x).chip = s.chip ∧ (s.setDma n x).pending = s.pending := by
  repeat' constructor

@[simp] theorem State.setFlashOp_frame (s : State) (b : Nat) (x : FlashOp) :
    (s.setFlashOp b x).now = s.now ∧ (s.setFlashOp b x).regs = s.regs ∧ (s.setFlashOp b x).shad = s.shad ∧
    (s.setFlashOp b x).mem = s.mem ∧ (s.setFlashOp b x).free = s.free ∧ (s.setFlashOp b x).evm = s.evm ∧
    (s.setFlashOp b x).marks = s.marks ∧ (s.setFlashOp b x).arbs = s.arbs ∧ (s.setFlashOp b x).dma = s.dma ∧
    (s.setFlashOp b x).leases = s.leases ∧ (s.setFlashOp b x).resp = s.resp ∧ (s.setFlashOp b x).own = s.own ∧
    (s.setFlashOp b x).fc = s.fc ∧ (s.setFlashOp b x).fcGroup = s.fcGroup ∧ (s.setFlashOp b x).fcOut = s.fcOut ∧
    (s.setFlashOp b x).fcBox = s.fcBox ∧ (s.setFlashOp b x).cmpPulse = s.cmpPulse ∧ (s.setFlashOp b x).cmpEvt = s.cmpEvt ∧
    (s.setFlashOp b x).scan = s.scan ∧ (s.setFlashOp b x).scanCh = s.scanCh ∧ (s.setFlashOp b x).dmaRound = s.dmaRound ∧
    (s.setFlashOp b x).pwm = s.pwm ∧ (s.setFlashOp b x).orphans = s.orphans ∧ (s.setFlashOp b x).link = s.link ∧
    (s.setFlashOp b x).arm = s.arm ∧ (s.setFlashOp b x).pos = s.pos ∧ (s.setFlashOp b x).lane = s.lane ∧
    (s.setFlashOp b x).bind = s.bind ∧ (s.setFlashOp b x).cpus = s.cpus ∧ (s.setFlashOp b x).bufs = s.bufs ∧ (s.setFlashOp b x).fse = s.fse ∧
    (s.setFlashOp b x).ses = s.ses ∧ (s.setFlashOp b x).vlan = s.vlan ∧ (s.setFlashOp b x).eth = s.eth ∧
    (s.setFlashOp b x).ptpOfs = s.ptpOfs ∧ (s.setFlashOp b x).ptpSec = s.ptpSec ∧ (s.setFlashOp b x).pcie = s.pcie ∧
    (s.setFlashOp b x).up = s.up ∧ (s.setFlashOp b x).ser = s.ser ∧ (s.setFlashOp b x).gpioOut = s.gpioOut ∧
    (s.setFlashOp b x).image = s.image ∧ (s.setFlashOp b x).pads = s.pads ∧ (s.setFlashOp b x).padSafe = s.padSafe ∧
    (s.setFlashOp b x).reload = s.reload ∧ (s.setFlashOp b x).persisting = s.persisting ∧ (s.setFlashOp b x).floorWant = s.floorWant ∧
    (s.setFlashOp b x).deferred = s.deferred ∧ (s.setFlashOp b x).svc = s.svc ∧ (s.setFlashOp b x).clk = s.clk ∧
    (s.setFlashOp b x).pav = s.pav ∧ (s.setFlashOp b x).fuses = s.fuses ∧ (s.setFlashOp b x).tap = s.tap ∧
    (s.setFlashOp b x).chip = s.chip ∧ (s.setFlashOp b x).pending = s.pending := by
  repeat' constructor

@[simp] theorem State.setSvc_frame (s : State) (c : Nat) (l : List SvcCall) :
    (s.setSvc c l).now = s.now ∧ (s.setSvc c l).regs = s.regs ∧ (s.setSvc c l).shad = s.shad ∧ (s.setSvc c l).mem = s.mem ∧
    (s.setSvc c l).free = s.free ∧ (s.setSvc c l).evm = s.evm ∧ (s.setSvc c l).marks = s.marks ∧ (s.setSvc c l).arbs = s.arbs ∧
    (s.setSvc c l).dma = s.dma ∧ (s.setSvc c l).leases = s.leases ∧ (s.setSvc c l).resp = s.resp ∧ (s.setSvc c l).own = s.own ∧
    (s.setSvc c l).fc = s.fc ∧ (s.setSvc c l).fcGroup = s.fcGroup ∧ (s.setSvc c l).fcOut = s.fcOut ∧ (s.setSvc c l).fcBox = s.fcBox ∧
    (s.setSvc c l).cmpPulse = s.cmpPulse ∧ (s.setSvc c l).cmpEvt = s.cmpEvt ∧ (s.setSvc c l).scan = s.scan ∧
    (s.setSvc c l).scanCh = s.scanCh ∧ (s.setSvc c l).dmaRound = s.dmaRound ∧ (s.setSvc c l).pwm = s.pwm ∧
    (s.setSvc c l).orphans = s.orphans ∧ (s.setSvc c l).link = s.link ∧ (s.setSvc c l).arm = s.arm ∧ (s.setSvc c l).pos = s.pos ∧
    (s.setSvc c l).lane = s.lane ∧ (s.setSvc c l).bind = s.bind ∧ (s.setSvc c l).cpus = s.cpus ∧ (s.setSvc c l).bufs = s.bufs ∧ (s.setSvc c l).fse = s.fse ∧
    (s.setSvc c l).ses = s.ses ∧ (s.setSvc c l).vlan = s.vlan ∧ (s.setSvc c l).eth = s.eth ∧ (s.setSvc c l).ptpOfs = s.ptpOfs ∧
    (s.setSvc c l).ptpSec = s.ptpSec ∧ (s.setSvc c l).pcie = s.pcie ∧ (s.setSvc c l).up = s.up ∧ (s.setSvc c l).ser = s.ser ∧
    (s.setSvc c l).gpioOut = s.gpioOut ∧ (s.setSvc c l).flash = s.flash ∧ (s.setSvc c l).image = s.image ∧ (s.setSvc c l).pads = s.pads ∧
    (s.setSvc c l).padSafe = s.padSafe ∧ (s.setSvc c l).reload = s.reload ∧ (s.setSvc c l).persisting = s.persisting ∧
    (s.setSvc c l).floorWant = s.floorWant ∧ (s.setSvc c l).deferred = s.deferred ∧ (s.setSvc c l).clk = s.clk ∧
    (s.setSvc c l).pav = s.pav ∧ (s.setSvc c l).fuses = s.fuses ∧ (s.setSvc c l).tap = s.tap ∧ (s.setSvc c l).chip = s.chip ∧
    (s.setSvc c l).pending = s.pending := by
  repeat' constructor

@[simp] theorem State.clr_frame (s : State) (r : Reg) (m : Word) :
    (s.clr r m).now = s.now ∧ (s.clr r m).shad = s.shad ∧ (s.clr r m).mem = s.mem ∧ (s.clr r m).free = s.free ∧ (s.clr r m).evm = s.evm ∧
    (s.clr r m).marks = s.marks ∧ (s.clr r m).arbs = s.arbs ∧ (s.clr r m).dma = s.dma ∧ (s.clr r m).leases = s.leases ∧
    (s.clr r m).resp = s.resp ∧ (s.clr r m).own = s.own ∧ (s.clr r m).fc = s.fc ∧ (s.clr r m).fcGroup = s.fcGroup ∧ (s.clr r m).fcOut = s.fcOut ∧
    (s.clr r m).fcBox = s.fcBox ∧ (s.clr r m).cmpPulse = s.cmpPulse ∧ (s.clr r m).cmpEvt = s.cmpEvt ∧ (s.clr r m).scan = s.scan ∧
    (s.clr r m).scanCh = s.scanCh ∧ (s.clr r m).dmaRound = s.dmaRound ∧ (s.clr r m).pwm = s.pwm ∧ (s.clr r m).orphans = s.orphans ∧
    (s.clr r m).link = s.link ∧ (s.clr r m).arm = s.arm ∧ (s.clr r m).pos = s.pos ∧ (s.clr r m).lane = s.lane ∧ (s.clr r m).bind = s.bind ∧
    (s.clr r m).cpus = s.cpus ∧ (s.clr r m).bufs = s.bufs ∧ (s.clr r m).fse = s.fse ∧ (s.clr r m).ses = s.ses ∧ (s.clr r m).vlan = s.vlan ∧
    (s.clr r m).eth = s.eth ∧ (s.clr r m).ptpOfs = s.ptpOfs ∧ (s.clr r m).ptpSec = s.ptpSec ∧ (s.clr r m).pcie = s.pcie ∧ (s.clr r m).up = s.up ∧
    (s.clr r m).ser = s.ser ∧ (s.clr r m).gpioOut = s.gpioOut ∧ (s.clr r m).flash = s.flash ∧ (s.clr r m).image = s.image ∧
    (s.clr r m).pads = s.pads ∧ (s.clr r m).padSafe = s.padSafe ∧ (s.clr r m).reload = s.reload ∧ (s.clr r m).persisting = s.persisting ∧
    (s.clr r m).floorWant = s.floorWant ∧ (s.clr r m).deferred = s.deferred ∧ (s.clr r m).svc = s.svc ∧ (s.clr r m).clk = s.clk ∧
    (s.clr r m).pav = s.pav ∧ (s.clr r m).fuses = s.fuses ∧ (s.clr r m).tap = s.tap ∧ (s.clr r m).chip = s.chip ∧
    (s.clr r m).pending = s.pending := by
  repeat' constructor

@[simp] theorem State.heat_frame (s : State) (r : Reg) (m : Word) :
    (s.heat r m).now = s.now ∧ (s.heat r m).shad = s.shad ∧ (s.heat r m).mem = s.mem ∧ (s.heat r m).free = s.free ∧ (s.heat r m).evm = s.evm ∧
    (s.heat r m).marks = s.marks ∧ (s.heat r m).arbs = s.arbs ∧ (s.heat r m).dma = s.dma ∧ (s.heat r m).leases = s.leases ∧
    (s.heat r m).resp = s.resp ∧ (s.heat r m).own = s.own ∧ (s.heat r m).fc = s.fc ∧ (s.heat r m).fcGroup = s.fcGroup ∧
    (s.heat r m).fcOut = s.fcOut ∧ (s.heat r m).fcBox = s.fcBox ∧ (s.heat r m).cmpPulse = s.cmpPulse ∧ (s.heat r m).cmpEvt = s.cmpEvt ∧
    (s.heat r m).scan = s.scan ∧ (s.heat r m).scanCh = s.scanCh ∧ (s.heat r m).dmaRound = s.dmaRound ∧ (s.heat r m).pwm = s.pwm ∧
    (s.heat r m).orphans = s.orphans ∧ (s.heat r m).link = s.link ∧ (s.heat r m).arm = s.arm ∧ (s.heat r m).pos = s.pos ∧
    (s.heat r m).lane = s.lane ∧ (s.heat r m).bind = s.bind ∧ (s.heat r m).cpus = s.cpus ∧ (s.heat r m).bufs = s.bufs ∧
    (s.heat r m).fse = s.fse ∧ (s.heat r m).ses = s.ses ∧ (s.heat r m).vlan = s.vlan ∧ (s.heat r m).eth = s.eth ∧
    (s.heat r m).ptpOfs = s.ptpOfs ∧ (s.heat r m).ptpSec = s.ptpSec ∧ (s.heat r m).pcie = s.pcie ∧ (s.heat r m).up = s.up ∧
    (s.heat r m).ser = s.ser ∧ (s.heat r m).gpioOut = s.gpioOut ∧ (s.heat r m).flash = s.flash ∧ (s.heat r m).image = s.image ∧
    (s.heat r m).pads = s.pads ∧ (s.heat r m).padSafe = s.padSafe ∧ (s.heat r m).reload = s.reload ∧ (s.heat r m).persisting = s.persisting ∧
    (s.heat r m).floorWant = s.floorWant ∧ (s.heat r m).deferred = s.deferred ∧ (s.heat r m).svc = s.svc ∧ (s.heat r m).clk = s.clk ∧
    (s.heat r m).pav = s.pav ∧ (s.heat r m).fuses = s.fuses ∧ (s.heat r m).tap = s.tap ∧ (s.heat r m).chip = s.chip ∧
    (s.heat r m).pending = s.pending := by
  repeat' constructor

@[simp] theorem State.setConv_frame (s : State) (k : Nat) (c : ScanConv) :
    (s.setConv k c).now = s.now ∧ (s.setConv k c).regs = s.regs ∧ (s.setConv k c).shad = s.shad ∧ (s.setConv k c).mem = s.mem ∧
    (s.setConv k c).free = s.free ∧ (s.setConv k c).evm = s.evm ∧ (s.setConv k c).marks = s.marks ∧ (s.setConv k c).arbs = s.arbs ∧
    (s.setConv k c).dma = s.dma ∧ (s.setConv k c).leases = s.leases ∧ (s.setConv k c).resp = s.resp ∧ (s.setConv k c).own = s.own ∧
    (s.setConv k c).fc = s.fc ∧ (s.setConv k c).fcGroup = s.fcGroup ∧ (s.setConv k c).fcOut = s.fcOut ∧ (s.setConv k c).fcBox = s.fcBox ∧
    (s.setConv k c).cmpPulse = s.cmpPulse ∧ (s.setConv k c).cmpEvt = s.cmpEvt ∧ (s.setConv k c).scanCh = s.scanCh ∧
    (s.setConv k c).dmaRound = s.dmaRound ∧ (s.setConv k c).pwm = s.pwm ∧ (s.setConv k c).orphans = s.orphans ∧ (s.setConv k c).link = s.link ∧
    (s.setConv k c).arm = s.arm ∧ (s.setConv k c).pos = s.pos ∧ (s.setConv k c).lane = s.lane ∧ (s.setConv k c).bind = s.bind ∧
    (s.setConv k c).cpus = s.cpus ∧ (s.setConv k c).bufs = s.bufs ∧ (s.setConv k c).fse = s.fse ∧ (s.setConv k c).ses = s.ses ∧
    (s.setConv k c).vlan = s.vlan ∧ (s.setConv k c).eth = s.eth ∧ (s.setConv k c).ptpOfs = s.ptpOfs ∧ (s.setConv k c).ptpSec = s.ptpSec ∧
    (s.setConv k c).pcie = s.pcie ∧ (s.setConv k c).up = s.up ∧ (s.setConv k c).ser = s.ser ∧ (s.setConv k c).gpioOut = s.gpioOut ∧
    (s.setConv k c).flash = s.flash ∧ (s.setConv k c).image = s.image ∧ (s.setConv k c).pads = s.pads ∧ (s.setConv k c).padSafe = s.padSafe ∧
    (s.setConv k c).reload = s.reload ∧ (s.setConv k c).persisting = s.persisting ∧ (s.setConv k c).floorWant = s.floorWant ∧
    (s.setConv k c).deferred = s.deferred ∧ (s.setConv k c).svc = s.svc ∧ (s.setConv k c).clk = s.clk ∧ (s.setConv k c).pav = s.pav ∧
    (s.setConv k c).fuses = s.fuses ∧ (s.setConv k c).tap = s.tap ∧ (s.setConv k c).chip = s.chip ∧ (s.setConv k c).pending = s.pending := by
  repeat' constructor

@[simp] theorem State.setPulse_frame (s : State) (c : Nat) (x : Option (Time × Bool)) :
    (s.setPulse c x).now = s.now ∧ (s.setPulse c x).regs = s.regs ∧ (s.setPulse c x).shad = s.shad ∧ (s.setPulse c x).mem = s.mem ∧
    (s.setPulse c x).free = s.free ∧ (s.setPulse c x).evm = s.evm ∧ (s.setPulse c x).marks = s.marks ∧ (s.setPulse c x).arbs = s.arbs ∧
    (s.setPulse c x).dma = s.dma ∧ (s.setPulse c x).leases = s.leases ∧ (s.setPulse c x).resp = s.resp ∧ (s.setPulse c x).own = s.own ∧
    (s.setPulse c x).fc = s.fc ∧ (s.setPulse c x).fcGroup = s.fcGroup ∧ (s.setPulse c x).fcOut = s.fcOut ∧ (s.setPulse c x).fcBox = s.fcBox ∧
    (s.setPulse c x).cmpEvt = s.cmpEvt ∧ (s.setPulse c x).scan = s.scan ∧ (s.setPulse c x).scanCh = s.scanCh ∧
    (s.setPulse c x).dmaRound = s.dmaRound ∧ (s.setPulse c x).pwm = s.pwm ∧ (s.setPulse c x).orphans = s.orphans ∧
    (s.setPulse c x).link = s.link ∧ (s.setPulse c x).arm = s.arm ∧ (s.setPulse c x).pos = s.pos ∧ (s.setPulse c x).lane = s.lane ∧
    (s.setPulse c x).bind = s.bind ∧ (s.setPulse c x).cpus = s.cpus ∧ (s.setPulse c x).bufs = s.bufs ∧ (s.setPulse c x).fse = s.fse ∧
    (s.setPulse c x).ses = s.ses ∧ (s.setPulse c x).vlan = s.vlan ∧ (s.setPulse c x).eth = s.eth ∧ (s.setPulse c x).ptpOfs = s.ptpOfs ∧
    (s.setPulse c x).ptpSec = s.ptpSec ∧ (s.setPulse c x).pcie = s.pcie ∧ (s.setPulse c x).up = s.up ∧ (s.setPulse c x).ser = s.ser ∧
    (s.setPulse c x).gpioOut = s.gpioOut ∧ (s.setPulse c x).flash = s.flash ∧ (s.setPulse c x).image = s.image ∧ (s.setPulse c x).pads = s.pads ∧
    (s.setPulse c x).padSafe = s.padSafe ∧ (s.setPulse c x).reload = s.reload ∧ (s.setPulse c x).persisting = s.persisting ∧
    (s.setPulse c x).floorWant = s.floorWant ∧ (s.setPulse c x).deferred = s.deferred ∧ (s.setPulse c x).svc = s.svc ∧
    (s.setPulse c x).clk = s.clk ∧ (s.setPulse c x).pav = s.pav ∧ (s.setPulse c x).fuses = s.fuses ∧ (s.setPulse c x).tap = s.tap ∧
    (s.setPulse c x).chip = s.chip ∧ (s.setPulse c x).pending = s.pending := by
  repeat' constructor

@[simp] theorem State.setBuf_frame (s : State) (c : Nat) (b : CoreBuf) :
    (s.setBuf c b).now = s.now ∧ (s.setBuf c b).regs = s.regs ∧ (s.setBuf c b).shad = s.shad ∧ (s.setBuf c b).mem = s.mem ∧
    (s.setBuf c b).free = s.free ∧ (s.setBuf c b).evm = s.evm ∧ (s.setBuf c b).marks = s.marks ∧ (s.setBuf c b).arbs = s.arbs ∧
    (s.setBuf c b).dma = s.dma ∧ (s.setBuf c b).leases = s.leases ∧ (s.setBuf c b).resp = s.resp ∧ (s.setBuf c b).own = s.own ∧
    (s.setBuf c b).fc = s.fc ∧ (s.setBuf c b).fcGroup = s.fcGroup ∧ (s.setBuf c b).fcOut = s.fcOut ∧ (s.setBuf c b).fcBox = s.fcBox ∧
    (s.setBuf c b).cmpPulse = s.cmpPulse ∧ (s.setBuf c b).cmpEvt = s.cmpEvt ∧ (s.setBuf c b).scan = s.scan ∧ (s.setBuf c b).scanCh = s.scanCh ∧
    (s.setBuf c b).dmaRound = s.dmaRound ∧ (s.setBuf c b).pwm = s.pwm ∧ (s.setBuf c b).orphans = s.orphans ∧ (s.setBuf c b).link = s.link ∧
    (s.setBuf c b).arm = s.arm ∧ (s.setBuf c b).pos = s.pos ∧ (s.setBuf c b).lane = s.lane ∧ (s.setBuf c b).bind = s.bind ∧
    (s.setBuf c b).cpus = s.cpus ∧ (s.setBuf c b).fse = s.fse ∧ (s.setBuf c b).ses = s.ses ∧ (s.setBuf c b).vlan = s.vlan ∧
    (s.setBuf c b).eth = s.eth ∧ (s.setBuf c b).ptpOfs = s.ptpOfs ∧ (s.setBuf c b).ptpSec = s.ptpSec ∧ (s.setBuf c b).pcie = s.pcie ∧
    (s.setBuf c b).up = s.up ∧ (s.setBuf c b).ser = s.ser ∧ (s.setBuf c b).gpioOut = s.gpioOut ∧ (s.setBuf c b).flash = s.flash ∧
    (s.setBuf c b).image = s.image ∧ (s.setBuf c b).pads = s.pads ∧ (s.setBuf c b).padSafe = s.padSafe ∧ (s.setBuf c b).reload = s.reload ∧
    (s.setBuf c b).persisting = s.persisting ∧ (s.setBuf c b).floorWant = s.floorWant ∧ (s.setBuf c b).deferred = s.deferred ∧
    (s.setBuf c b).svc = s.svc ∧ (s.setBuf c b).clk = s.clk ∧ (s.setBuf c b).pav = s.pav ∧ (s.setBuf c b).fuses = s.fuses ∧
    (s.setBuf c b).tap = s.tap ∧ (s.setBuf c b).chip = s.chip ∧ (s.setBuf c b).pending = s.pending := by
  repeat' constructor

/-! ### The part that is updated -/

theorem State.line_setLine (s : State) (p j : Nat) (x : Line) : (s.setLine p x).line j = if j = p then x else s.line j := Tab.get_set _ _ _ _ _
@[simp] theorem State.line_setLine_same (s : State) (p : Nat) (x : Line) : (s.setLine p x).line p = x := by simp [State.line_setLine]
theorem State.chan_setChan (s : State) (c j : Nat) (x : Chan) : (s.setChan c x).chan j = if j = c then x else s.chan j := Tab.get_set _ _ _ _ _
@[simp] theorem State.chan_setChan_same (s : State) (c : Nat) (x : Chan) : (s.setChan c x).chan c = x := by simp [State.chan_setChan]
theorem State.fch_setFch (s : State) (n j : Nat) (x : FcChan) : (s.setFch n x).fch j = if j = n then x else s.fch j := Tab.get_set _ _ _ _ _
@[simp] theorem State.fch_setFch_same (s : State) (n : Nat) (x : FcChan) : (s.setFch n x).fch n = x := by simp [State.fch_setFch]
theorem State.fgr_setFgr (s : State) (g j : Nat) (x : FcGroup) : (s.setFgr g x).fgr j = if j = g then x else s.fgr j := Tab.get_set _ _ _ _ _
@[simp] theorem State.fgr_setFgr_same (s : State) (g : Nat) (x : FcGroup) : (s.setFgr g x).fgr g = x := by simp [State.fgr_setFgr]
theorem State.sch_setSch (s : State) (n j : Nat) (x : ScanChan) : (s.setSch n x).sch j = if j = n then x else s.sch j := Tab.get_set _ _ _ _ _
@[simp] theorem State.sch_setSch_same (s : State) (n : Nat) (x : ScanChan) : (s.setSch n x).sch n = x := by simp [State.sch_setSch]
theorem State.unit_setUnit (s : State) (n j : Nat) (x : PwmUnit) : (s.setUnit n x).unit j = if j = n then x else s.unit j := Tab.get_set _ _ _ _ _
@[simp] theorem State.unit_setUnit_same (s : State) (n : Nat) (x : PwmUnit) : (s.setUnit n x).unit n = x := by simp [State.unit_setUnit]
theorem State.flink_setFlink (s : State) (l j : Nat) (x : Flink) : (s.setFlink l x).flink j = if j = l then x else s.flink j := Tab.get_set _ _ _ _ _
@[simp] theorem State.flink_setFlink_same (s : State) (l : Nat) (x : Flink) : (s.setFlink l x).flink l = x := by simp [State.flink_setFlink]
theorem State.armOf_setArm (s : State) (a j : Nat) (x : Arm) : (s.setArm a x).armOf j = if j = a then x else s.armOf j := Tab.get_set _ _ _ _ _
@[simp] theorem State.armOf_setArm_same (s : State) (a : Nat) (x : Arm) : (s.setArm a x).armOf a = x := by simp [State.armOf_setArm]
theorem State.laneOf_setLane (s : State) (n j : Nat) (x : Lane) : (s.setLane n x).laneOf j = if j = n then x else s.laneOf j := Tab.get_set _ _ _ _ _
@[simp] theorem State.laneOf_setLane_same (s : State) (n : Nat) (x : Lane) : (s.setLane n x).laneOf n = x := by simp [State.laneOf_setLane]
theorem State.bnd_setBnd (s : State) (b j : Nat) (x : Bind) : (s.setBnd b x).bnd j = if j = b then x else s.bnd j := Tab.get_set _ _ _ _ _
@[simp] theorem State.bnd_setBnd_same (s : State) (b : Nat) (x : Bind) : (s.setBnd b x).bnd b = x := by simp [State.bnd_setBnd]
theorem State.cpuAt_setCpuAt (s : State) (k j : Nat) (x : Cpu) : (s.setCpuAt k x).cpuAt j = if j = k then x else s.cpuAt j := Tab.get_set _ _ _ _ _
@[simp] theorem State.cpuAt_setCpuAt_same (s : State) (k : Nat) (x : Cpu) : (s.setCpuAt k x).cpuAt k = x := by simp [State.cpuAt_setCpuAt]
theorem State.port_setPort (s : State) (n j : Nat) (x : FsePort) : (s.setPort n x).port j = if j = n then x else s.port j := Tab.get_set _ _ _ _ _
@[simp] theorem State.port_setPort_same (s : State) (n : Nat) (x : FsePort) : (s.setPort n x).port n = x := by simp [State.port_setPort]
theorem State.ethPort_setEth (s : State) (p j : Nat) (x : EthPort) : (s.setEth p x).ethPort j = if j = p then x else s.ethPort j := Tab.get_set _ _ _ _ _
@[simp] theorem State.ethPort_setEth_same (s : State) (p : Nat) (x : EthPort) : (s.setEth p x).ethPort p = x := by simp [State.ethPort_setEth]
theorem State.fn_setFn (s : State) (f j : Nat) (x : PcieFn) : (s.setFn f x).fn j = if j = f then x else s.fn j := Tab.get_set _ _ _ _ _
@[simp] theorem State.fn_setFn_same (s : State) (f : Nat) (x : PcieFn) : (s.setFn f x).fn f = x := by simp [State.fn_setFn]
theorem State.dmaCh_setDma (s : State) (n j : Nat) (x : DmaCh) : (s.setDma n x).dmaCh j = if j = n then x else s.dmaCh j := Tab.get_set _ _ _ _ _
@[simp] theorem State.dmaCh_setDma_same (s : State) (n : Nat) (x : DmaCh) : (s.setDma n x).dmaCh n = x := by simp [State.dmaCh_setDma]
theorem State.flashOp_setFlashOp (s : State) (b j : Nat) (x : FlashOp) : (s.setFlashOp b x).flashOp j = if j = b then x else s.flashOp j := Tab.get_set _ _ _ _ _
@[simp] theorem State.flashOp_setFlashOp_same (s : State) (b : Nat) (x : FlashOp) : (s.setFlashOp b x).flashOp b = x := by simp [State.flashOp_setFlashOp]
theorem State.conv_setConv (s : State) (k j : Nat) (x : ScanConv) : (s.setConv k x).conv j = if j = k then x else s.conv j := Tab.get_set _ _ _ _ _
@[simp] theorem State.conv_setConv_same (s : State) (k : Nat) (x : ScanConv) : (s.setConv k x).conv k = x := by simp [State.conv_setConv]
theorem State.buf_setBuf (s : State) (c j : Nat) (x : CoreBuf) : (s.setBuf c x).buf j = if j = c then x else s.buf j := Tab.get_set _ _ _ _ _
@[simp] theorem State.buf_setBuf_same (s : State) (c : Nat) (x : CoreBuf) : (s.setBuf c x).buf c = x := by simp [State.buf_setBuf]
theorem State.pulse_setPulse (s : State) (c j : Nat) (x : Option (Time × Bool)) : (s.setPulse c x).pulse j = if j = c then x else s.pulse j := Tab.get_set _ _ _ _ _
@[simp] theorem State.pulse_setPulse_same (s : State) (c : Nat) (x : Option (Time × Bool)) : (s.setPulse c x).pulse c = x := by simp [State.pulse_setPulse]

/-! ### Repetition and raising -/

/-- What one round keeps, all rounds keep. -/
theorem State.each_keeps {α β : Type} (l : List α) (f : α → State → State) (g : State → β) (h : ∀ x t, g (f x t) = g t) (s : State) :
    g (s.each l f) = g s := by
  induction l generalizing s with
  | nil => rfl
  | cons x l ih => exact (ih (f x s)).trans (h x s)

theorem State.when_true (s : State) (f : State → State) : s.when true f = f s := rfl
theorem State.when_false (s : State) (f : State → State) : s.when false f = s := rfl

/-- Two states agree in all but the event matrix and the registers. -/
def State.SameBut (t s : State) : Prop := t = { s with evm := t.evm, regs := t.regs }

theorem State.SameBut.refl (s : State) : s.SameBut s := rfl
theorem State.SameBut.trans {u t s : State} (h : u.SameBut t) (k : t.SameBut s) : u.SameBut s :=
  Eq.trans h (by rw [k])
theorem State.SameBut.each {α : Type} (l : List α) (f : α → State → State) (h : ∀ x t, (f x t).SameBut t) (s : State) : (s.each l f).SameBut s := by
  induction l generalizing s with
  | nil => exact .refl s
  | cons x l ih => exact (ih (f x s)).trans (h x s)

theorem State.arrive_sameBut (s : State) (c h : Nat) : (s.arrive c h).SameBut s := rfl
theorem State.setLine_sameBut (s : State) (p : Nat) (x : Line) : (s.setLine p x).SameBut s := rfl
theorem State.leave_sameBut (s : State) (p h : Nat) : (s.leave p h).SameBut s := by
  unfold State.leave
  exact (State.SameBut.each _ _ (fun c u => State.arrive_sameBut u c h) _).trans (State.setLine_sameBut _ _ _)
/-- Raising a line changes only the event matrix and its registers (R314). -/
theorem State.raise_sameBut (s : State) (p h : Nat) : (s.raise p h).SameBut s := by
  unfold State.raise
  split
  · rfl
  · dsimp only
    split
    · rfl
    · split
      · split
        · rfl
        · exact State.leave_sameBut s p h
      · exact State.leave_sameBut s p h
theorem State.emit_sameBut (s : State) (p : Nat) (c : Cause) : (s.emit p c).SameBut s := by
  unfold State.emit
  split
  · exact State.raise_sameBut _ _ _
  · split
    · exact State.raise_sameBut _ _ _
    · unfold State.setLoop State.when
      split
      · exact (State.raise_sameBut _ _ _).trans rfl
      · rfl

@[simp] theorem State.raise_frame (s : State) (p h : Nat) :
    (s.raise p h).now = s.now ∧ (s.raise p h).shad = s.shad ∧ (s.raise p h).mem = s.mem ∧ (s.raise p h).free = s.free ∧
    (s.raise p h).marks = s.marks ∧ (s.raise p h).arbs = s.arbs ∧ (s.raise p h).dma = s.dma ∧ (s.raise p h).leases = s.leases ∧
    (s.raise p h).resp = s.resp ∧ (s.raise p h).own = s.own ∧ (s.raise p h).fc = s.fc ∧ (s.raise p h).fcGroup = s.fcGroup ∧
    (s.raise p h).fcOut = s.fcOut ∧ (s.raise p h).fcBox = s.fcBox ∧ (s.raise p h).cmpPulse = s.cmpPulse ∧
    (s.raise p h).cmpEvt = s.cmpEvt ∧ (s.raise p h).scan = s.scan ∧ (s.raise p h).scanCh = s.scanCh ∧
    (s.raise p h).dmaRound = s.dmaRound ∧ (s.raise p h).pwm = s.pwm ∧ (s.raise p h).orphans = s.orphans ∧ (s.raise p h).link = s.link ∧
    (s.raise p h).arm = s.arm ∧ (s.raise p h).pos = s.pos ∧ (s.raise p h).lane = s.lane ∧ (s.raise p h).bind = s.bind ∧
    (s.raise p h).cpus = s.cpus ∧ (s.raise p h).bufs = s.bufs ∧ (s.raise p h).fse = s.fse ∧ (s.raise p h).ses = s.ses ∧ (s.raise p h).vlan = s.vlan ∧
    (s.raise p h).eth = s.eth ∧ (s.raise p h).ptpOfs = s.ptpOfs ∧ (s.raise p h).ptpSec = s.ptpSec ∧ (s.raise p h).pcie = s.pcie ∧
    (s.raise p h).up = s.up ∧ (s.raise p h).ser = s.ser ∧ (s.raise p h).gpioOut = s.gpioOut ∧ (s.raise p h).flash = s.flash ∧
    (s.raise p h).image = s.image ∧ (s.raise p h).pads = s.pads ∧ (s.raise p h).padSafe = s.padSafe ∧ (s.raise p h).reload = s.reload ∧
    (s.raise p h).persisting = s.persisting ∧ (s.raise p h).floorWant = s.floorWant ∧ (s.raise p h).deferred = s.deferred ∧
    (s.raise p h).svc = s.svc ∧ (s.raise p h).clk = s.clk ∧ (s.raise p h).pav = s.pav ∧ (s.raise p h).fuses = s.fuses ∧
    (s.raise p h).tap = s.tap ∧ (s.raise p h).chip = s.chip ∧ (s.raise p h).pending = s.pending := by
  rw [State.raise_sameBut s p h]; repeat' constructor
@[simp] theorem State.emit_frame (s : State) (p : Nat) (c : Cause) :
    (s.emit p c).now = s.now ∧ (s.emit p c).shad = s.shad ∧ (s.emit p c).mem = s.mem ∧ (s.emit p c).free = s.free ∧
    (s.emit p c).marks = s.marks ∧ (s.emit p c).arbs = s.arbs ∧ (s.emit p c).dma = s.dma ∧ (s.emit p c).leases = s.leases ∧
    (s.emit p c).resp = s.resp ∧ (s.emit p c).own = s.own ∧ (s.emit p c).fc = s.fc ∧ (s.emit p c).fcGroup = s.fcGroup ∧
    (s.emit p c).fcOut = s.fcOut ∧ (s.emit p c).fcBox = s.fcBox ∧ (s.emit p c).cmpPulse = s.cmpPulse ∧ (s.emit p c).cmpEvt = s.cmpEvt ∧
    (s.emit p c).scan = s.scan ∧ (s.emit p c).scanCh = s.scanCh ∧ (s.emit p c).dmaRound = s.dmaRound ∧ (s.emit p c).pwm = s.pwm ∧
    (s.emit p c).orphans = s.orphans ∧ (s.emit p c).link = s.link ∧ (s.emit p c).arm = s.arm ∧ (s.emit p c).pos = s.pos ∧
    (s.emit p c).lane = s.lane ∧ (s.emit p c).bind = s.bind ∧ (s.emit p c).cpus = s.cpus ∧ (s.emit p c).bufs = s.bufs ∧ (s.emit p c).fse = s.fse ∧
    (s.emit p c).ses = s.ses ∧ (s.emit p c).vlan = s.vlan ∧ (s.emit p c).eth = s.eth ∧ (s.emit p c).ptpOfs = s.ptpOfs ∧
    (s.emit p c).ptpSec = s.ptpSec ∧ (s.emit p c).pcie = s.pcie ∧ (s.emit p c).up = s.up ∧ (s.emit p c).ser = s.ser ∧
    (s.emit p c).gpioOut = s.gpioOut ∧ (s.emit p c).flash = s.flash ∧ (s.emit p c).image = s.image ∧ (s.emit p c).pads = s.pads ∧
    (s.emit p c).padSafe = s.padSafe ∧ (s.emit p c).reload = s.reload ∧ (s.emit p c).persisting = s.persisting ∧
    (s.emit p c).floorWant = s.floorWant ∧ (s.emit p c).deferred = s.deferred ∧ (s.emit p c).svc = s.svc ∧ (s.emit p c).clk = s.clk ∧
    (s.emit p c).pav = s.pav ∧ (s.emit p c).fuses = s.fuses ∧ (s.emit p c).tap = s.tap ∧ (s.emit p c).chip = s.chip ∧
    (s.emit p c).pending = s.pending := by
  rw [State.emit_sameBut s p c]; repeat' constructor

end Sys2Proof.Machine
end

