-- ==== Sys2Proof/Laws/Memory.lean ====
section
/-!
SUPPORT. Memory: what a reader gets after a write or a wipe, that every operation on memory keeps its canonical form, and what an access
to a register does.
-/
namespace Sys2Proof.Machine

/-! ### The canonical form -/

/-- The canonical form in words: no listed byte equals what an unlisted one reads as, and the addresses rise. -/
theorem Mem.wf_iff (m : List Host.Cell) :
    Mem.wf m = true ↔ (∀ c ∈ m, c.2 ≠ memDefault c.1) ∧ m.Pairwise (fun c d => c.1 < d.1) := by
  induction m with
  | nil => simp [Mem.wf]
  | cons c t ih =>
    obtain ⟨a, v⟩ := c
    cases t with
    | nil => simp [Mem.wf]
    | cons d t =>
      obtain ⟨b, w⟩ := d
      simp only [Mem.wf, Bool.and_eq_true, bne_iff_ne, decide_eq_true_eq, ih, List.pairwise_cons, List.mem_cons, forall_eq_or_imp]
      constructor
      · rintro ⟨⟨h1, h2⟩, ⟨h3, h4⟩, h5, h6⟩
        exact ⟨⟨h1, h3, h4⟩, ⟨h2, fun c hc => Nat.lt_trans h2 (h5 c hc)⟩, h5, h6⟩
      · rintro ⟨⟨h1, h3, h4⟩, ⟨h2, -⟩, h5, h6⟩
        exact ⟨⟨h1, h2⟩, ⟨h3, h4⟩, h5, h6⟩

/-- What `Mem.put` lists is what was listed, or the byte written. -/
theorem Mem.mem_put {m : List Host.Cell} {a : Nat} {v : Byte} {c : Host.Cell} (h : c ∈ Mem.put m a v) :
    (c ∈ m) ∨ (c = (a, v) ∧ v ≠ memDefault a) := by
  induction m with
  | nil => simp only [Mem.put] at h; split at h <;> simp_all
  | cons d t ih =>
    obtain ⟨k, w⟩ := d
    simp only [Mem.put] at h
    repeat' split at h
    all_goals simp only [List.mem_cons] at h ⊢
    · exact .inl h
    · rename_i hv
      rcases h with h | h
      · exact .inr ⟨h, hv⟩
      · exact .inl h
    · exact .inl (.inr h)
    · rename_i hv
      rcases h with h | h
      · exact .inr ⟨h, hv⟩
      · exact .inl (.inr h)
    · rcases h with h | h
      · exact .inl (.inl h)
      · rcases ih h with h | h
        · exact .inl (.inr h)
        · exact .inr h

/-- A write keeps the canonical form. -/
theorem Mem.wf_put {m : List Host.Cell} (a : Nat) (v : Byte) (h : Mem.wf m = true) : Mem.wf (Mem.put m a v) = true := by
  rw [Mem.wf_iff] at h ⊢
  refine ⟨fun c hc => ?_, ?_⟩
  · rcases Mem.mem_put hc with h1 | ⟨rfl, h1⟩
    · exact h.1 c h1
    · exact h1
  · induction m with
    | nil => simp only [Mem.put]; split <;> simp
    | cons d t ih =>
      obtain ⟨k, w⟩ := d
      have h1 := (List.pairwise_cons.mp h.2)
      have ht : (∀ c ∈ t, c.2 ≠ memDefault c.1) ∧ t.Pairwise (fun c d => c.1 < d.1) :=
        ⟨fun c hc => h.1 c (List.mem_cons_of_mem _ hc), h1.2⟩
      simp only [Mem.put]
      repeat' split
      · exact h.2
      · rename_i hk _
        refine List.pairwise_cons.mpr ⟨fun c hc => ?_, h.2⟩
        rcases List.mem_cons.mp hc with rfl | hc
        · exact hk
        · exact Nat.lt_trans hk (h1.1 c hc)
      · exact h1.2
      · rename_i hk _
        subst hk
        exact List.pairwise_cons.mpr ⟨h1.1, h1.2⟩
      · rename_i hk hn
        refine List.pairwise_cons.mpr ⟨fun c hc => ?_, ih ht⟩
        rcases Mem.mem_put hc with h2 | ⟨rfl, -⟩
        · exact h1.1 c h2
        · show k < a
          omega

/-- Writes of several bytes keep the canonical form. -/
theorem Mem.wf_puts {m : List Host.Cell} (a : Nat) (bs : List Byte) (h : Mem.wf m = true) : Mem.wf (Mem.puts m a bs) = true := by
  induction bs generalizing m a with
  | nil => exact h
  | cons b bs ih => exact ih (a + 1) (Mem.wf_put a b h)

/-- Leaving out listed bytes keeps the canonical form. -/
theorem Mem.wf_filter {m : List Host.Cell} (p : Host.Cell → Bool) (h : Mem.wf m = true) : Mem.wf (m.filter p) = true := by
  rw [Mem.wf_iff] at h ⊢
  exact ⟨fun c hc => h.1 c (List.mem_filter.mp hc).1, h.2.filter p⟩

/-- A wipe or an erase keeps the canonical form. -/
theorem Mem.wf_clear {m : List Host.Cell} (lo hi : Nat) (h : Mem.wf m = true) : Mem.wf (Mem.clear m lo hi) = true :=
  Mem.wf_filter _ h

/-! ### What a reader gets -/

/-- Nothing listed from an address on: the address reads its default. -/
theorem Mem.get_of_lt {m : List Host.Cell} {a : Nat} (h : ∀ c ∈ m, a < c.1) : Mem.get m a = memDefault a := by
  induction m with
  | nil => rfl
  | cons d t ih =>
    obtain ⟨k, w⟩ := d
    have hk : a < k := h (k, w) (List.mem_cons_self ..)
    simp only [Mem.get, if_neg (Nat.ne_of_gt hk)]
    exact ih fun c hc => h c (List.mem_cons_of_mem _ hc)

/-- A byte that is written reads back, and every other byte reads as before. -/
theorem Mem.get_put {m : List Host.Cell} (a : Nat) (v : Byte) (h : Mem.wf m = true) (b : Nat) :
    Mem.get (Mem.put m a v) b = if b = a then v else Mem.get m b := by
  induction m with
  | nil =>
    simp only [Mem.put]
    by_cases hv : v = memDefault a <;> by_cases hb : b = a
    · rw [if_pos hv, if_pos hb, hb, hv]; rfl
    · rw [if_pos hv, if_neg hb]
    · rw [if_neg hv, if_pos hb, Mem.get, if_pos hb.symm]
    · rw [if_neg hv, if_neg hb]
      exact if_neg (Ne.symm hb)
  | cons d t ih =>
    obtain ⟨k, w⟩ := d
    have h' := (Mem.wf_iff _).mp h
    have h1 := List.pairwise_cons.mp h'.2
    have ht : Mem.wf t = true := (Mem.wf_iff _).mpr ⟨fun c hc => h'.1 c (List.mem_cons_of_mem _ hc), h1.2⟩
    have low : ∀ x, x ≤ k → Mem.get t x = memDefault x := fun x hx =>
      Mem.get_of_lt fun c hc => Nat.lt_of_le_of_lt hx (h1.1 c hc)
    simp only [Mem.put]
    by_cases hak : a < k
    · rw [if_pos hak]
      by_cases hv : v = memDefault a
      · rw [if_pos hv]
        by_cases hb : b = a
        · subst hb; simp [Mem.get, Nat.ne_of_gt hak, low b (Nat.le_of_lt hak), hv]
        · simp [hb]
      · rw [if_neg hv, Mem.get]
        by_cases hb : b = a
        · rw [if_pos hb, if_pos hb.symm]
        · rw [if_neg hb, if_neg (Ne.symm hb)]
    · rw [if_neg hak]
      by_cases hk : a = k
      · subst hk
        rw [if_pos rfl]
        by_cases hv : v = memDefault a
        · rw [if_pos hv]
          by_cases hb : b = a
          · subst hb; simp [low b (Nat.le_refl _), hv]
          · simp [Mem.get, hb, Ne.symm hb]
        · rw [if_neg hv]
          by_cases hb : b = a
          · subst hb; simp [Mem.get]
          · simp [Mem.get, hb, Ne.symm hb]
      · rw [if_neg hk]
        simp only [Mem.get, ih ht]
        by_cases hb : b = a
        · subst hb; simp [Ne.symm hk]
        · simp [hb]

/-- Bytes that are written read back, and every byte outside them reads as before. -/
theorem Mem.get_puts {m : List Host.Cell} (a : Nat) (bs : List Byte) (h : Mem.wf m = true) (b : Nat) :
    Mem.get (Mem.puts m a bs) b = if a ≤ b ∧ b < a + bs.length then bs.getD (b - a) 0#8 else Mem.get m b := by
  induction bs generalizing m a with
  | nil => rw [if_neg (by simp only [List.length_nil]; omega)]; rfl
  | cons v bs ih =>
    simp only [Mem.puts, ih (a + 1) (Mem.wf_put a v h), Mem.get_put a v h, List.length_cons]
    by_cases h1 : b = a
    · subst h1
      have h2 : ¬(b + 1 ≤ b ∧ b < b + 1 + bs.length) := by omega
      have h3 : b ≤ b ∧ b < b + (bs.length + 1) := by omega
      rw [if_neg h2, if_pos rfl, if_pos h3, Nat.sub_self]
      rfl
    · by_cases h2 : a + 1 ≤ b ∧ b < a + 1 + bs.length
      · have h3 : a ≤ b ∧ b < a + (bs.length + 1) := by omega
        have h4 : b - a = (b - (a + 1)) + 1 := by omega
        rw [if_pos h2, if_pos h3, h4, List.getD_cons_succ]
      · have h3 : ¬(a ≤ b ∧ b < a + (bs.length + 1)) := by omega
        rw [if_neg h2, if_neg h3, if_neg h1]

/-- Bytes that a wipe or an erase covers read their default, and the rest read as before. -/
theorem Mem.get_filter (m : List Host.Cell) (p : Nat → Bool) (b : Nat) :
    Mem.get (m.filter fun c => p c.1) b = if p b then Mem.get m b else memDefault b := by
  induction m with
  | nil => by_cases h : p b = true <;> simp [Mem.get, h]
  | cons d t ih =>
    obtain ⟨k, w⟩ := d
    by_cases hk : p k = true <;> by_cases hb : k = b
    · subst hb; simp [hk, Mem.get]
    · simp [hk, Mem.get, hb, ih]
    · subst hb; simp [hk, ih]
    · simp [hk, Mem.get, hb, ih]

/-! ### The state's memory -/

theorem State.memOk_of_mem {s t : State} (h : s.memOk) (e : t.mem = s.mem) : t.memOk := by
  simpa [State.memOk, e] using h
theorem State.poke_memOk {s : State} (a : Nat) (bs : List Byte) (h : s.memOk) : (s.poke a bs).memOk := Mem.wf_puts a bs h
theorem State.wipe_memOk {s : State} (lo hi : Nat) (h : s.memOk) : (s.wipe lo hi).memOk := Mem.wf_clear lo hi h
theorem State.blank_memOk {s : State} (k : Nat) (h : s.memOk) : (s.blank k).memOk := Mem.wf_clear _ _ h
theorem State.scramble_memOk {s : State} (k : Nat) (h : s.memOk) : (s.scramble k).memOk := State.blank_memOk k h

/-! ### Bytes read after a store without checks -/

/-- A stored byte reads back, and every other byte reads as before, where no erase has left the block indeterminate. -/
theorem State.byteAt_poke {s : State} (a : Nat) (bs : List Byte) (h : s.memOk) (hm : s.flash.mix = []) (ha : 0x40000 ≤ a) (b : Nat) :
    (s.poke a bs).byteAt b = if a ≤ b ∧ b < a + bs.length then bs.getD (b - a) 0#8 else s.byteAt b := by
  have e : ∀ t : State, t.flash.mix = [] → t.mixSeed b = none := fun t ht => by simp [State.mixSeed, ht]
  have hp : (s.poke a bs).mixSeed b = none := e _ hm
  have hs : s.mixSeed b = none := e _ hm
  simp only [State.byteAt, hp, hs]
  have g : Mem.get (s.poke a bs).mem b = _ := Mem.get_puts a bs h b
  rw [g]
  by_cases hb : b < 0x40000
  · rw [if_pos hb, if_neg (by omega), if_pos hb]
  · rw [if_neg hb, if_neg hb]
/-- Stored bytes read back. -/
theorem State.bytesAt_poke {s : State} {a o n : Nat} {bs : List Byte} (h : s.memOk) (hm : s.flash.mix = []) (ha : 0x40000 ≤ a) (hn : o + n ≤ bs.length) :
    (s.poke a bs).bytesAt (a + o) n = (bs.drop o).take n := by
  apply List.ext_getElem
  · simp [State.bytesAt]; omega
  · intro i h1 h2
    have hi : i < n := by simpa [State.bytesAt] using h1
    simp only [State.bytesAt, List.getElem_map, List.getElem_range, List.getElem_take, List.getElem_drop]
    rw [State.byteAt_poke a bs h hm ha, if_pos (by omega), show a + o + i - a = o + i by omega, List.getD_eq_getElem?_getD,
      List.getElem?_eq_getElem (by omega)]
    rfl
/-- Bytes outside a store read as before. -/
theorem State.bytesAt_poke_ne {s : State} {a b n : Nat} {bs : List Byte} (h : s.memOk) (hm : s.flash.mix = []) (ha : 0x40000 ≤ a)
    (hb : b + n ≤ a ∨ a + bs.length ≤ b) : (s.poke a bs).bytesAt b n = s.bytesAt b n := by
  apply List.map_congr_left
  intro i hi
  have : i < n := List.mem_range.mp hi
  rw [State.byteAt_poke a bs h hm ha, if_neg (by omega)]

/-! ### Lines -/

/-- Recording a memory error changes no byte. -/
@[simp] theorem State.memError_mem (s : State) (w : Who) (m addr kind : Nat) : (s.memError w m addr kind).mem = s.mem := by
  unfold State.memError
  by_cases h : kind = 1 <;> simp only [h, if_true, if_false] <;> split <;> simp
/-- Marking a line changes no byte. -/
@[simp] theorem State.setMark_mem (s : State) (a : Nat) (m : LineMark) : (s.setMark a m).mem = s.mem := rfl
/-- Reading a flash unit changes no byte. -/
@[simp] theorem State.flashEcc_mem (s : State) (a : Nat) : (s.flashEcc a).2.mem = s.mem := by
  unfold State.flashEcc
  split <;> rfl
/-- Reading a line changes no byte. -/
@[simp] theorem State.lineRead_mem (s : State) (w : Who) (a : Nat) : (s.lineRead w a).2.mem = s.mem := by
  unfold State.lineRead
  cases memCode (regionOf a) with
  | none => by_cases h : inFlash a = true <;> simp [h]
  | some m => dsimp only; by_cases h1 : (s.mark a).double = true <;> by_cases h2 : (s.mark a).single = true <;> simp [h1, h2]
/-- An injection changes no byte. -/
@[simp] theorem State.inject_mem (s : State) (a : Nat) : (s.inject a).mem = s.mem := by
  unfold State.inject
  split
  · dsimp only
    split <;> simp [State.fresh, State.setMark]
  · rfl
/-- A write within a line keeps memory canonical. -/
theorem State.lineWrite_memOk {s : State} (w : Who) (a : Nat) (bs : List Byte) (h : s.memOk) : (s.lineWrite w a bs).2.memOk := by
  unfold State.lineWrite
  split
  · exact State.poke_memOk a bs h
  · split
    · exact State.memOk_of_mem (State.poke_memOk a bs (s := s.setMark a {}) h) (State.inject_mem _ a)
    · have h1 : (s.lineRead w a).2.memOk := State.memOk_of_mem h (State.lineRead_mem s w a)
      split
      rename_i ok u hu
      rw [hu] at h1
      split
      · exact h1
      · exact State.memOk_of_mem (State.poke_memOk a bs (s := u.setMark a { chk := (u.mark a).chk }) h1) (State.inject_mem _ a)
/-- A write over lines keeps memory canonical. -/
theorem State.memWrite_memOk {s : State} (w : Who) (a : Nat) (bs : List Byte) (h : s.memOk) : (s.memWrite w a bs).2.memOk := by
  have : ∀ (ps : List (Nat × List Byte)) (r : Bool × State), r.2.memOk →
      (ps.foldl (fun r p => if r.1 then r.2.lineWrite w p.1 p.2 else r) r).2.memOk := by
    intro ps
    induction ps with
    | nil => exact fun r hr => hr
    | cons p ps ih =>
      intro r hr
      apply ih
      dsimp only
      split
      · exact State.lineWrite_memOk w p.1 p.2 hr
      · exact hr
  exact this _ (true, s) h

/-! ### Accesses to registers -/

/-- An access that is allowed has its effect. -/
theorem State.access_accepts {s : State} {q : Requester} {k : Access} {r : Reg} (eff : State → State) (h : s.Accepts q k r) :
    s.access q k r eff = eff s := by
  obtain ⟨h1, h2, h3⟩ := h
  have h4 : (s.dead || (q == .dap && !s.dapLinked)) = false := by
    by_cases hq : q = .dap
    · simp [h1, h2 hq]
    · simp [h1, hq]
  simp [State.access, h4, h3]

/-- A command that writes a register it may write has the effect and goes on. -/
theorem regWrite_accepts {s : State} {q : Requester} {r : Reg} (eff : State → State) (h : s.Accepts q .write r) :
    regWrite q r eff s = .next (eff s) := by
  rw [regWrite, State.access_accepts eff h]
/-- A command that reads a register it may read has the effect and goes on. -/
theorem regRead_accepts {s : State} {q : Requester} {r : Reg} (eff : State → State) (h : s.Accepts q .read r) :
    regRead q r eff s = .next (eff s) := by
  rw [regRead, State.access_accepts eff h]

end Sys2Proof.Machine
end

