-- ==== Sys2Proof/Laws/Boot.lean ====
section
/-!
SUPPORT. The boot before ROM chooses an image: what it finds in the slots where no journal and no calibration record is valid.
-/
namespace Sys2Proof.Machine

/-- Bytes depend on memory and on what erases have left. -/
theorem State.bytesAt_congr {s t : State} {a n : Nat} (h : t.mem = s.mem) (hm : t.flash.mix = s.flash.mix) : t.bytesAt a n = s.bytesAt a n := by
  simp only [State.bytesAt, State.byteAt, State.mixSeed, h, hm]
/-- A switch of the journal leaves the slots and the calibration record. -/
theorem State.journalSwitch_bytes {s : State} (h : s.memOk) (hm : s.flash.mix = []) {a n : Nat} (_ : 0x40000 ≤ a) (hi : a + n ≤ 0x0A010000) :
    (s.journalSwitch 0).bytesAt a n = s.bytesAt a n := by
  have hb : (s.blank 513).flash.mix = [] := by simp [State.blank, hm, Tab.drop]
  have e : (s.blank 513).bytesAt a n = s.bytesAt a n := by
    apply List.map_congr_left
    intro i hi'
    have : i < n := List.mem_range.mp hi'
    have g := Mem.get_filter s.mem (fun k => !(decide (blockBase 513 ≤ k) && decide (k < blockBase 513 + 0x10000))) (a + i)
    have w : (!(decide (blockBase 513 ≤ a + i) && decide (a + i < blockBase 513 + 0x10000))) = true := by
      have : blockBase 513 = 0x0A010000 := by decide
      simp [this]; omega
    rw [w, if_pos rfl] at g
    have m : (s.blank 513).mem = s.mem.filter fun c => !(decide (blockBase 513 ≤ c.1) && decide (c.1 < blockBase 513 + 0x10000)) := rfl
    simp only [State.byteAt, State.mixSeed, hb, hm, m, g]
  have p := State.blank_memOk 513 h
  have g : ∀ (l m : List Byte) (t : State), t.mem = ((s.blank 513).poke 0x0A010000 l).mem → t.flash.mix = [] →
      (t.poke (0x0A010000 + 32 * 64) m).bytesAt a n = s.bytesAt a n := fun l m t h1 h2 =>
    (State.bytesAt_poke_ne (State.memOk_of_mem (State.poke_memOk _ _ p) h1) h2 (by omega) (Or.inl (by omega))).trans
      ((State.bytesAt_congr h1 (h2.trans hb.symm)).trans ((State.bytesAt_poke_ne p hb (by omega) (Or.inl hi)).trans e))
  unfold State.journalSwitch State.putJournal
  simp only [show journalBase 0 = 0x0A010000 from rfl]
  generalize ((List.range 512).map _).flatten = l
  generalize journalEntry _ _ _ _ _ _ = m
  exact (State.bytesAt_congr rfl rfl).trans (g l m _ rfl hb)
theorem State.journalSwitch_rest (s : State) : (s.journalSwitch 0).fuses = s.fuses ∧ (s.journalSwitch 0).flash.mix = (s.blank 513).flash.mix ∧
    (s.journalSwitch 0).flash.ecc = (s.blank 513).flash.ecc ∧ (s.journalSwitch 0).regs = s.regs := by
  have g : ∀ (b t u v : State) (l m : List Byte) (a e j : Nat), t = b.poke a l → u = { t with flash := { t.flash with active := some 0, entry := 64 } } →
      v = u.poke j m → let r : State := { v with flash := { v.flash with entry := v.flash.entry + 1, seq := v.flash.seq + 1 } }
      r.fuses = b.fuses ∧ r.flash.mix = b.flash.mix ∧ r.flash.ecc = b.flash.ecc ∧ r.regs = b.regs := by
    rintro b _ _ _ l m a e j rfl rfl rfl
    exact ⟨rfl, rfl, rfl, rfl⟩
  exact g (s.blank 513) _ _ _ _ _ _ 0 _ rfl rfl rfl
/-- Writes of other registers leave a field. -/
theorem State.each_put_get {α : Type} (l : List α) (q : α → RF) (x : Nat) (r : RF) (h : ∀ k ∈ l, r.reg.addr ≠ (q k).reg.addr) (s : State) :
    (s.each l fun k t => t.put (q k) x).get r = s.get r := by
  induction l generalizing s with
  | nil => rfl
  | cons k l ih => exact (ih (fun j m => h j (List.mem_cons_of_mem _ m)) _).trans (State.get_put_ne _ _ _ _ (h k List.mem_cons_self))
/-- They leave memory, the fuses and the flash. -/
theorem State.each_put_mem {α : Type} (l : List α) (q : α → RF) (x : Nat) (s : State) :
    let t := s.each l fun k t => t.put (q k) x
    t.mem = s.mem ∧ t.flash = s.flash ∧ t.fuses = s.fuses := by
  induction l generalizing s with
  | nil => exact ⟨rfl, rfl, rfl⟩
  | cons k l ih => exact ih (s.put (q k) x)
/-- The flash state that ROM rebuilds from no valid journal (R463). -/
def State.rebuilt (s : State) : State := ({ s with flash := { s.flash with count := [], incom := [], active := none, entry := 0, seq := 0 } } : State).put R.SCFG_FLOOR_FLOOR 0
theorem State.journalRebuild_none {s : State} (h0 : s.snapSeq 0 = none) (h1 : s.snapSeq 1 = none) : s.journalRebuild = State.rebuilt s := by
  have g : ∀ k, (State.rebuilt s).snapSeq k = s.snapSeq k := fun k => by simp only [State.snapSeq, State.bytesAt_congr (s := s) (t := State.rebuilt s) rfl rfl]
  unfold State.journalRebuild
  simp only [← State.rebuilt.eq_1, g, h0, h1]
/-- SEQ of a slot's image where its header is readable (R528). -/
def seqOf (img : List Byte) : Nat := if readable img then imgSeq img else 0
theorem State.bootJournal_none {s : State} (hm : s.flash.mix = []) (he : s.flash.ecc = []) (hl : s.fuses.lcs = 1) (h0 : s.snapSeq 0 = none) (h1 : s.snapSeq 1 = none) :
    s.bootJournal = (((State.rebuilt s).put R.SCFG_FLOOR_FLOOR (max (seqOf (s.slotImage 0)) (seqOf (s.slotImage 1)))).put R.RST_BOOT_JOURNAL_REBUILT 1).journalSwitch 0 := by
  have fi : ∀ k, (State.rebuilt s).slotImage k = s.slotImage k := fun k => by
    simp only [State.slotImage, State.numAt, State.bytesAt_congr (s := s) (t := State.rebuilt s) rfl rfl]
  have fk : ∀ k, (State.rebuilt s).slotSound k = true := fun k => by
    simp only [State.slotSound, State.unitEcc, State.mixSeed, show (State.rebuilt s).flash.mix = [] from hm, show (State.rebuilt s).flash.ecc = [] from he]
    simp
  unfold State.bootJournal
  simp only [State.journalRebuild_none h0 h1, fi, fk]
  rw [if_neg (show ¬(State.rebuilt s).flash.active.isSome = true from Bool.false_ne_true), if_neg (show ¬(State.rebuilt s).fuses.lcs = 0 by rw [show (State.rebuilt s).fuses.lcs = 1 from hl]; decide)]
  simp only [List.map_cons, List.map_nil, List.foldl_cons, List.foldl_nil, Nat.zero_max, seqOf]
/-- ROM finds no calibration record (R467). -/
def State.noCal (s : State) : State :=
  ((s.each (List.range 3) fun g t => t.put (R.FCV_Gg_STATUS_CAL_MISSING g) 1).each (List.range 24) fun n t => t.put (R.FCV_CHn_STATUS_UNSETTLED n) 1).each
    (List.range 4) fun k t => t.put (R.SCV_Ck_STATUS_CAL_MISSING k) 1
theorem State.noCal_mem (s : State) : (State.noCal s).mem = s.mem ∧ (State.noCal s).flash = s.flash ∧ (State.noCal s).fuses = s.fuses := by
  have a := State.each_put_mem (List.range 3) R.FCV_Gg_STATUS_CAL_MISSING 1 s
  have b := State.each_put_mem (List.range 24) R.FCV_CHn_STATUS_UNSETTLED 1 (s.each (List.range 3) fun g t => t.put (R.FCV_Gg_STATUS_CAL_MISSING g) 1)
  have c := State.each_put_mem (List.range 4) R.SCV_Ck_STATUS_CAL_MISSING 1
    ((s.each (List.range 3) fun g t => t.put (R.FCV_Gg_STATUS_CAL_MISSING g) 1).each (List.range 24) fun n t => t.put (R.FCV_CHn_STATUS_UNSETTLED n) 1)
  exact ⟨c.1.trans (b.1.trans a.1), c.2.1.trans (b.2.1.trans a.2.1), c.2.2.trans (b.2.2.trans a.2.2)⟩
theorem State.noCal_floor (s : State) : (State.noCal s).get R.SCFG_FLOOR_FLOOR = s.get R.SCFG_FLOOR_FLOOR := by
  unfold State.noCal
  rw [State.each_put_get _ R.SCV_Ck_STATUS_CAL_MISSING _ _ (by decide +kernel), State.each_put_get _ R.FCV_CHn_STATUS_UNSETTLED _ _ (by decide +kernel),
    State.each_put_get _ R.FCV_Gg_STATUS_CAL_MISSING _ _ (by decide +kernel)]
theorem State.bootCal_none {s : State} (h : s.bytesAt 0x0A000000 4 ≠ ([0x43, 0x41, 0x4C, 0x52] : List Byte)) : s.bootCal = State.noCal s := by
  have e : s.calRecord.take 4 = s.bytesAt 0x0A000000 4 := by simp [State.calRecord, State.bytesAt, ← List.map_take, List.take_range]
  have n : calOk s.calRecord = false := by
    simp only [calOk, e]
    rw [Bool.and_assoc, Bool.and_assoc, Bool.and_assoc, show (s.bytesAt 0x0A000000 4 == ([0x43, 0x41, 0x4C, 0x52] : List Byte)) = false from by simpa using h]
    simp
  unfold State.bootCal
  rw [n, if_neg Bool.false_ne_true]
  rfl
theorem State.bootClocks_mem (s : State) : s.bootClocks.mem = s.mem ∧ s.bootClocks.flash = s.flash ∧ s.bootClocks.fuses = s.fuses := by
  have e : ∀ (l : List Nat) (s : State), let t := s.each l fun d t => (t.put (R.CLK_Dd_CTRL_SEL d) 0).connect d
      t.mem = s.mem ∧ t.flash = s.flash ∧ t.fuses = s.fuses := fun l => by
    induction l with
    | nil => exact fun s => ⟨rfl, rfl, rfl⟩
    | cons d l ih => exact fun s => ih ((s.put (R.CLK_Dd_CTRL_SEL d) 0).connect d)
  unfold State.bootClocks
  exact e _ _
/-- What ROM finds in the slots before it chooses, of a device in state 1 without a journal and a calibration record. -/
theorem State.bootReady_slots {s : State} (h : s.memOk) (hm : s.flash.mix = []) (he : s.flash.ecc = []) (hl : s.fuses.lcs = 1) (h0 : s.snapSeq 0 = none) (h1 : s.snapSeq 1 = none)
    (hc : s.bytesAt 0x0A000000 4 ≠ ([0x43, 0x41, 0x4C, 0x52] : List Byte)) :
    (∀ k, k < 2 → s.bootReady.slotImage k = s.slotImage k ∧ s.bootReady.slotSound k = true) ∧ s.bootReady.fuses = s.fuses ∧
    s.bootReady.get R.SCFG_FLOOR_FLOOR = max (seqOf (s.slotImage 0)) (seqOf (s.slotImage 1)) % 2 ^ 32 := by
  obtain ⟨c, hc', cm, cf, cu⟩ : ∃ c, c = s.bootClocks ∧ c.mem = s.mem ∧ c.flash = s.flash ∧ c.fuses = s.fuses := ⟨_, rfl, State.bootClocks_mem s⟩
  have cb : ∀ a n, c.bytesAt a n = s.bytesAt a n := fun a n => State.bytesAt_congr cm (congrArg _ cf)
  have ci : ∀ k, c.slotImage k = s.slotImage k := fun k => by simp only [State.slotImage, State.numAt, cb]
  have cs : ∀ k, c.snapSeq k = s.snapSeq k := fun k => by simp only [State.snapSeq, cb]
  have j := State.bootJournal_none (s := c) (cf ▸ hm) (cf ▸ he) (cu ▸ hl) ((cs 0).trans h0) ((cs 1).trans h1)
  rw [ci, ci] at j
  obtain ⟨g, hg, gm, gf, ge, gu, gl⟩ : ∃ g : State, g = ((State.rebuilt c).put R.SCFG_FLOOR_FLOOR (max (seqOf (s.slotImage 0)) (seqOf (s.slotImage 1)))).put R.RST_BOOT_JOURNAL_REBUILT 1 ∧
      g.mem = c.mem ∧ g.flash.mix = c.flash.mix ∧ g.flash.ecc = c.flash.ecc ∧ g.fuses = c.fuses ∧
      g.get R.SCFG_FLOOR_FLOOR = max (seqOf (s.slotImage 0)) (seqOf (s.slotImage 1)) % 2 ^ 32 :=
    ⟨_, rfl, rfl, rfl, rfl, rfl, (State.get_put_ne _ _ _ _ (by decide +kernel)).trans (State.get_put _ _ _ (by decide +kernel))⟩
  rw [← hg] at j
  have gok : g.memOk := State.memOk_of_mem h (gm.trans cm)
  have gmx : g.flash.mix = [] := gf.trans ((congrArg _ cf).trans hm)
  have jb : ∀ {a n}, 0x40000 ≤ a → a + n ≤ 0x0A010000 → (g.journalSwitch 0).bytesAt a n = s.bytesAt a n := fun lo hi =>
    (State.journalSwitch_bytes gok gmx lo hi).trans ((State.bytesAt_congr gm gf).trans (cb _ _))
  obtain ⟨w, hw, wu, wx, we, wf⟩ : ∃ w : State, w = g.journalSwitch 0 ∧ w.fuses = g.fuses ∧ w.flash.mix = (g.blank 513).flash.mix ∧
      w.flash.ecc = (g.blank 513).flash.ecc ∧ w.get R.SCFG_FLOOR_FLOOR = g.get R.SCFG_FLOOR_FLOOR :=
    have q := State.journalSwitch_rest g
    ⟨_, rfl, q.1, q.2.1, q.2.2.1, congrArg (fun f : RegFile => f.fld R.SCFG_FLOOR_FLOOR) q.2.2.2⟩
  rw [← hw] at j
  simp only [← hw] at jb
  have wl : w.fuses.lcs = 1 := by rw [wu, gu, cu, hl]
  have r : s.bootReady = State.noCal w := by
    unfold State.bootReady
    rw [← hc', j]
    have : w.bootReturn = w := by unfold State.bootReturn; rw [wl]; simp
    rw [this]
    exact State.bootCal_none (by rw [jb (by decide) (by decide)]; exact hc)
  have nm := State.noCal_mem w
  rw [r]
  refine ⟨fun k hk => ⟨?_, ?_⟩, nm.2.2.trans (wu.trans (gu.trans cu)), (State.noCal_floor w).trans (wf.trans gl)⟩
  · have nb : ∀ a n, (State.noCal w).bytesAt a n = w.bytesAt a n := fun a n => State.bytesAt_congr nm.1 (congrArg _ nm.2.1)
    have sb : 0x40000 ≤ slotBase k ∧ slotBase k + 4194304 ≤ 0x0A010000 := by
      rcases k with _ | _ | k <;> simp_all [slotBase]
    simp only [State.slotImage, State.numAt, nb]
    rw [jb (by omega) (by omega), jb (by omega) (by omega)]
  · have e1 : (State.noCal w).flash.mix = [] := by rw [nm.2.1, wx]; simp [State.blank, gmx, Tab.drop]
    have e2 : (State.noCal w).flash.ecc = [] := by rw [nm.2.1, we]; simp [State.blank, ge, cf, he, Tab.drop]
    simp only [State.slotSound, State.unitEcc, State.mixSeed, e1, e2]
    simp
end Sys2Proof.Machine
end

