-- ==== Sys2Proof/Tests/Slice0.lean ====
section
/-!
SUPPORT. Tests: the checks of WellFormed, a state for the hypotheses of every statement, and examples of the spec.
-/
namespace Sys2Proof.Tests
set_option Elab.async false
open Sys2Proof.Machine

/-! ### WellFormed refuses an ill-formed term for each of its checks -/

theorem test_wf_short_immediate : (Instr.movi (.core 0) 1 64#21 true).wf = false ∧ (Instr.movi (.core 0) 1 63#21 true).wf = true := by decide
theorem test_wf_same_first : (Instr.add (.core 0) 1 2 3 true).wf = false ∧ (Instr.add (.core 0) 1 1 3 true).wf = true := by decide
theorem test_wf_condition : (Instr.csel (.core 0) 1 2 3 15).wf = false ∧ (Instr.bcc (.core 0) 15 0#21 false).wf = false := by decide
theorem test_wf_load_base : (Instr.ldW (.core 0) 3 (.post 3 4#10) []).wf = false ∧ (Instr.ldB (.core 0) 3 (.shortSp 1#7) []).wf = false := by decide
theorem test_wf_store_form : (Instr.stH (.core 0) 3 (.shortAbs 1#7) []).wf = false := by decide
theorem test_wf_lists : (Instr.push (.core 0) 0#8 false []).wf = false ∧ (Instr.pushm (.core 0) 0x8000#16 []).wf = false ∧
    (Instr.pop (.core 0) 0#8 false []).wf = false ∧ (Instr.popm (.core 0) 0#16 []).wf = false := by decide
theorem test_wf_branch : (Instr.br (.core 0) 1024#25 true).wf = false ∧ (Instr.jlr (.core 0) 3 4 true).wf = false := by decide
theorem test_wf_loop : (Instr.loop (.core 0) false true 3#9 0#8 0).wf = false ∧ (Instr.loop (.core 0) false true 3#9 1#8 1).wf = false := by decide
theorem test_wf_pairs : (Instr.macl (.core 0) 3 1 2).wf = false ∧ (Instr.maclu (.core 0) 14 1 2).wf = false := by decide
theorem test_wf_frames : (Instr.upstreamFrame 0 0 0 []).wf = false ∧ (Instr.ethRxFrame 0 [] 0#64).wf = false := by decide
theorem test_wf_access : (Instr.pcieBarAccess 0 0 0#25 2 (some [1#8]) []).wf = false ∧ (Instr.debugAccessPortAccess 1#32 4 none []).wf = false := by decide
theorem test_wf_ports : (Instr.canFrameReceived 0 true false 0x800#29 false 0 []).wf = false ∧ (Instr.i2cTargetAddressed 0 128#10 false).wf = false := by decide

/-- No row of the table has bits, so no word spells a command. -/
theorem test_no_word_decodes : decodeTableWord 32 0 = none ∧ State.reset.withFetchWord 32 0 = State.reset := by decide

/-! ### States -/

/-- The state that a command leaves, or the state before it. -/
def after (o : Out) (s : State) : State := match o with | .next t => t | _ => s
/-- Some gates open, nothing in reset. -/
def gates (ds : List Nat) : State := State.reset.each ds fun d t => t.put (R.CLK_Dd_STATUS_RUNNING d) 1
/-- The supervisor runs at M in its TCM, with a stack and a base register. -/
def sup : State := (gates [21]).setCpuAt 8 { started := true, pc := 0x38200000#32, w := [(1, 0x38210000#32), (2, 6#32), (3, 7#32), (15, 0x38220000#32)] }
/-- Lane 0 runs an activation. -/
def lane : State := ((gates [0]).setCpuAt 16 { Cpu.init 16 with pc := 0x30000000#32, started := true, w := [(1, 0x30010000#32), (15, 0x30010100#32)] }).setLane 0
  { act := some ⟨0, 0, 0#64, none, false, [], 0, 0, none⟩ }
/-- The supervisor as a requester. -/
def sv : Requester := .core 8
/-- Its registers in `sup`. -/
def cpu : Cpu := sup.cpuAt 8
/-- Is an access to a register accepted? -/
def acc (s : State) (r : Reg) (k : Access := .write) (q : Requester := sv) : Bool :=
  !s.dead && (decide (q ≠ .dap) || s.dapLinked) && s.reach q (s.viewOf q) (s.atU q) k r.addr 4
theorem acc_accepts (s : State) (r : Reg) (k : Access) (q : Requester) (h : acc s r k q = true) : s.Accepts q k r := by
  simp only [acc, Bool.and_eq_true, Bool.or_eq_true, Bool.not_eq_true', decide_eq_true_eq] at h
  exact ⟨h.1.1, fun e => h.1.2.resolve_left (fun n => n e), h.2⟩

/-! ### The queue, memory, frames of units -/

theorem test_StepRunsFrontCommand : ({ State.reset with pending := [.resetNHigh] } : State).pending = [.resetNHigh] := by decide
theorem test_EmptyQueueStepIsOneTick : State.reset.pending = [] := by decide
theorem test_CommandsKeepTheQueue : ∃ t, exec .resetNHigh State.reset = .next t := ⟨_, rfl⟩
theorem test_EveryStepKeepsMemoryCanonical : State.reset.memOk ∧ ∃ t, step State.reset = .next t := ⟨by unfold State.memOk; decide, _, rfl⟩
theorem test_MemoryReadsWhatWasWritten : Mem.wf [] = true ∧ Mem.wf [(0x08000000, 1#8), (0x10000000, 1#8)] = true ∧
    Mem.wf [(0x10000000, 0#8)] = false ∧ Mem.wf [(0x08000000, 0xFF#8)] = false ∧ Mem.wf [(2, 1#8), (1, 1#8)] = false := by decide
theorem test_CommandsStayInTheirUnit : areaOf (.fcvFire sv 0) = some .converters ∧ areaOf .resetNHigh = some .release ∧
    ∃ t, exec .resetNHigh State.reset = .next t := ⟨by decide, by decide, _, rfl⟩

/-! ### Instructions -/

/-- The state in which instruction `i` stands at the pc of processor `p`. -/
def placed (p : Proc) (i : Instr) (s : State) : State :=
  match encodeInsn i with
  | some (short, w) => s.poke (s.pcOf p) (leBytes (formLen short) w)
  | none => s
/-- Does `p` issue `i` where it is placed? -/
def issued (p : Proc) (i : Instr) (s : State) : Bool :=
  match encodeInsn i with
  | some (short, _) => (placed p i s).issues p (formLen short) && (placed p i s).finds p (formLen short) i
  | none => false
/-- A few of the forms that the statements name, of either length. -/
def someForms (p : Proc) : List Instr :=
  [.add p 1 2 3 false, .add p 1 1 3 true, .csel p 1 2 3 4, .movi p 1 63#21 true, .mac p 4 2 3, .macl p 2 1 3, .qadd p 1 2 3, .sat p 1 2 7, .fmadd p 4 2 3, .fcmp p 2 3,
   .ldW p 4 (.base 1 0#17) [], .ldB p 4 (.post 1 1#10) [], .stW p 2 (.base 1 0#17) [], .stH p 2 (.pre 1 2#10) [], .br p 0#25 true, .bcc p 0 0#21 false, .jlr p 14 2 true,
   .mfc p 4 1#8, .mtc p 1#8 4, .loop p false true 1#9 5#8 0, .push p 1#8 true [], .popm p 0x8010#16 [], .sync p, .syncI p, .swi p 7#8, .rfe p [], .wfi p]
theorem test_issues : (someForms (.core 8)).all (fun i => issued (.core 8) i sup) = true := by decide +kernel
theorem test_issues_lane : (someForms (.lane 0)).all (fun i => issued (.lane 0) i lane) = true := by decide +kernel
/-- A word of MACL with an odd rd, and a halfword that no table defines, are undefined where they stand. -/
theorem test_undefined : let w := encWr 0x1D 4 3 1 2
    let s := sup.poke 0x38200000 (leBytes 4 w)
    let z := sup.poke 0x38200000 (leBytes 2 0)
    s.issues (.core 8) 4 = true ∧ w % 65536 ∈ s.halvesAt (.core 8) (s.pcOf (.core 8)) ∧ w / 65536 ∈ s.halvesAt (.core 8) (s.pcOf (.core 8) + 2) ∧
    z.issues (.core 8) 2 = true ∧ (2, none) ∈ z.decoded (.core 8) [] := by decide +kernel
/-- Words that the spec writes out (Table 10.16) and what they stand for. -/
theorem test_words : let p := Proc.lane 3
    ([0x04030135, 0x01143123, 0x011439A3, 0x0011923B, 0x00806221].map fun w => decodeInsn p [] (w % 65536) (w / 65536)) =
      [some (.loop p false true 8#9 6#8 0), some (.ldW p 2 (.post 6 4#10) []), some (.ldW p 3 (.post 7 4#10) []), some (.qmac p 4 2 3), some (.stW p 4 (.base 12 0x100#17) [])] := by
  decide +kernel
/-- The stack limit that a write of w15 needs: 0 at reset (R308). -/
theorem test_limits : ∀ l, l < 3 → cpu.limit l = 0#32 := by decide +kernel
theorem test_ConditionsAndFlags : cpu.flags = ⟨false, false, false, false⟩ ∧ cpu.psBit 27 = false := by decide +kernel
/-- Operands of the corners: even and odd pairs, NaN, zeros of either sign. -/
theorem test_MultiplyAccumulate_registers : ((2 : RegNo).val % 2 = 0 ∧ (2 : RegNo) ≠ 14) ∧ (3 : RegNo).val % 2 = 1 ∧ (14 : RegNo).val % 2 = 0 := by decide
theorem test_FloatingPoint_operands : let x := (cpu.setReg 1 0x7FC00000#32).setReg 2 0x80000000#32
    x.reg 1 &&& 0x7F800000#32 = 0x7F800000#32 ∧ x.reg 1 &&& 0x7FFFFF#32 ≠ 0#32 ∧ (x.reg 1).getLsbD 22 = true ∧ x.reg 5 = 0#32 ∧ x.reg 2 = 0x80000000#32 := by
  decide +kernel

/-- A load and a store of the supervisor in its TCM, and of a lane in its data RAM. -/
theorem test_Loads : let u := (placed (.core 8) (.ldW (.core 8) 4 (.base 1 0#17) []) sup).fetched (.core 8) 4
    let r := u.dataLoad (.core 8) 0x38210000 4 []
    r.1.toOption = some [0#8, 0#8, 0#8, 0#8] ∧ r.2.cpuAt 8 = cpu ∧ u.dataHeld (.core 8) 0x38210000 4 = false ∧
    cpu.ea (.base 1 0#17) 2 = (0x38210000#32, none) ∧ (Instr.ldW (.core 8) 4 (.base 1 0#17) []).wf = true ∧
    (Instr.ldB (.core 8) 4 (.post 1 1#10) []).wf = true ∧ (Instr.ldH (.core 8) 4 (.pre 1 2#10) []).wf = true := by decide +kernel
theorem test_Stores : let u := (placed (.core 8) (.stW (.core 8) 2 (.base 1 0#17) []) sup).fetched (.core 8) 4
    let r := u.dataStore (.core 8) 0x38210000 [6#8, 0#8, 0#8, 0#8] []
    r.1.isNone = true ∧ r.2.cpuAt 8 = cpu ∧ (Instr.stW (.core 8) 2 (.base 1 0#17) []).wf = true ∧ (Instr.stB (.core 8) 2 (.pre 1 1#10) []).wf = true ∧
    isReg 0x38210000 = false ∧ sup.mixSeed 0x38210000 = none ∧ (sup.mark 0x38210000).double = false ∧
    sup.coreMay 8 (sup.cpuAt 8).lvl .write 0x38210000 4 = true ∧ sup.memOk := by unfold State.memOk; decide +kernel
/-- A lane's data RAM, the store buffer with room and with a store in it, and a push that passes it. -/
theorem test_Stores_bytes : let one := (sup.dataStore (.core 8) 0x38210000 [6#8, 0#8, 0#8, 0#8] []).2
    inLaneData 0 0x30010000 4 = true ∧ (lane.dataStore (.lane 0) 0x30010000 [1#8, 2#8, 3#8, 4#8] []).1.isNone = true ∧ lane.memOk ∧
    (sup.buf 8).stores.length < 4 ∧ (one.buf 8).stores = [⟨0x38210000, [6#8, 0#8, 0#8, 0#8], 2, platform, []⟩] ∧ one.memOk ∧
    0x38210000 / 64 = (0x38210000 + 4 - 1) / 64 ∧ one.mixSeed 0x38210000 = none ∧ (one.mark 0x38210000).double = false ∧
    (one.pushWords (.core 8) [] 0x3821FFF8 [1#32, 2#32]).1 = 2 ∧ (∀ i, i < 2 → isReg ((0x3821FFF8 + 4 * i) % 2 ^ 32) = false) := by
  unfold State.memOk; decide +kernel
theorem test_AddressForms : cpu.cr 1 &&& 0xFFF#32 = 0#32 := by decide +kernel
theorem test_RegisterInstructions : (sup.cpuAt 8).step = false ∧ ∃ t, regInstr (.nop (.core 8)) (.core 8) true (fun x => .ok x) sup = .next t :=
  ⟨by decide +kernel, _, rfl⟩
theorem test_RegisterWrites : (cpu.put 15 8#32).toOption = some (cpu.setReg 15 8#32) := by decide +kernel
theorem test_StackTransfers_push : let v := cpu.reg 15 - 8#32
    let r := ((placed (.core 8) (.push (.core 8) 1#8 true []) sup).fetched (.core 8) 2).pushWords (.core 8) [] v.toNat ([4, 14].map cpu.reg)
    v.toNat % 4 = 0 ∧ r.1 = 2 ∧ r.2.1.isNone = true ∧ r.2.2.cpuAt 8 = cpu ∧ cpu.limit cpu.lvl ≤ v := by decide +kernel
theorem test_StackTransfers_pop : let u := (placed (.core 8) (.popm (.core 8) 0x8010#16 []) sup).fetched (.core 8) 4
    let r := u.popWords (.core 8) [] 2 cpu.sp.toNat
    r.1 = [0#32, 0#32] ∧ r.2.1.isNone = true ∧ r.2.2.cpuAt 8 = cpu ∧ cpu.sp.toNat % 4 = 0 ∧
    (∀ k, k < 2 → u.dataHeld (.core 8) ((cpu.sp.toNat + 4 * k) % 2 ^ 32) 4 = false) := by decide +kernel

/-! ### Control flow, levels and exceptions -/

/-- A processor in the body of loop 0, loop 1, at their ends. -/
def looping (k : Nat) (n : Word) : Cpu :=
  { ps := BitVec.ofNat 32 (0x200 + 2 ^ k), ctl := [(lcNo k, n), (lsNo k, 0x38200000#32), (leNo k, 0x38200010#32), (0x14, 2#32)] }
/-- The supervisor with other registers. -/
def supBy (f : Cpu → Cpu) : State := sup.setCpuAt 8 (f cpu)
/-- At level `l`. -/
def atLevel (l : Nat) : Cpu := { cpu with ps := BitVec.ofNat 32 (256 * l) }

theorem test_Jumps : (cpu.reg 2).getLsbD 0 = false ∧ (cpu.reg 3).getLsbD 0 = true ∧ (cpu.reg 14).getLsbD 0 = false ∧
    ((cpu.setReg 14 1#32).reg 14).getLsbD 0 = true ∧ issued (.core 8) (.ret (.core 8)) (supBy (·.setReg 14 1#32)) = true ∧ cpu.limit cpu.lvl ≤ cpu.pc + 2#32 := by
  decide +kernel
theorem test_HardwareLoops : ((looping 0 2#32).la 0 = true ∧ (looping 0 2#32).cr 4 = 0x38200010#32 ∧ 1#32 < (looping 0 2#32).cr 2) ∧
    (looping 0 1#32).cr 2 ≤ 1#32 ∧ ((looping 1 2#32).la 0 = false ∧ (looping 1 2#32).la 1 = true ∧ 1#32 < (looping 1 2#32).cr 5) ∧
    (looping 1 1#32).cr 5 ≤ 1#32 ∧ (cpu.la 0 = false ∧ cpu.la 1 = false) := by decide +kernel
theorem test_Loop : cpu.pc.toNat < 2 ^ 31 ∧ cpu.loopForbidden 0 (cpu.pc + 4#32) (cpu.pc + 514#32) = false ∧
    (Instr.loop (.core 8) false true 1#9 255#8 0).wf = true ∧ (Instr.loop (.core 8) true false 0#9 1#8 2).wf = true ∧ cpu.reg 2 ≠ 0#32 ∧ cpu.reg 5 = 0#32 ∧
    (looping 0 2#32).la 0 = true ∧ ((looping 1 2#32).la 1 = true ∧ ¬(looping 1 2#32).cr 6 ≤ 0#32) := by decide +kernel
theorem test_ControlRegisters : issued (.core 8) (.mfc (.core 8) 4 0x10#8) (supBy fun _ => atLevel 0) = true ∧ issued (.core 8) (.mtc (.core 8) 0x13#8 4) sup = true ∧ (atLevel 0).lvl < 1 ∧ (atLevel 1).lvl < 2 ∧ cpu.lvl = 2 ∧ cpu.loopsOk = true ∧ cpu.la 0 = false ∧ cpu.la 1 = false := by decide +kernel
theorem test_StatusWrites : (atLevel 0).lvl = 0 ∧ (atLevel 1).lvl = 1 ∧ (atLevel 2).lvl = 2 ∧ (atLevel 0).loopsOk = true ∧ (atLevel 2).limit 0 ≤ (atLevel 2).sp ∧
    ((atLevel 2).setCr 0x10 0xFFFFFFF0#32).sp < ((atLevel 2).setCr 0x10 0xFFFFFFF0#32).limit 0 := by decide +kernel
theorem test_System : sup.brkHalts (.core 8) = false ∧ (sup.put (R.DBG_Cc_CTRL_HALT_ON_BRK 8) 1).brkHalts (.core 8) = true ∧
    issued (.core 8) (.brk (.core 8) 7#8) (sup.put (R.DBG_Cc_CTRL_HALT_ON_BRK 8) 1) = true ∧ cpu.lvl ≠ 0 ∧ (sup.buf 8).stores.length ≤ 4 ∧
    (let u := (placed (.core 8) (.sync (.core 8)) (sup.dataStore (.core 8) 0x38210000 [6#8, 0#8, 0#8, 0#8] []).2).fetched (.core 8) 4; (u.drainAll 8).cpuAt 8 = cpu) := by decide +kernel
/-- A stack frame at sp with PS and PC. -/
def framed (ps pc : Nat) : State := sup.poke 0x38220028 (leBytes 4 ps ++ leBytes 4 pc)
/-- The words that RFE reads there. -/
def frame (ps pc : Nat) : List Word := List.replicate 10 0#32 ++ [BitVec.ofNat 32 ps, BitVec.ofNat 32 pc]
theorem test_Return : ∀ e ∈ [(0x200, 0x38200100), (0x300, 0x38200100), (0x100, 0x38200101)],
    let s := framed e.1 e.2
    let r := ((placed (.core 8) (.rfe (.core 8) []) s).fetched (.core 8) 4).popWords (.core 8) [] 12 cpu.sp.toNat
    issued (.core 8) (.rfe (.core 8) []) s = true ∧ r.1 = frame e.1 e.2 ∧ r.2.1.isNone = true ∧ r.2.2.cpuAt 8 = cpu ∧ cpu.sp.toNat % 4 = 0 ∧ cpu.step = false := by
  decide +kernel
theorem test_Return_unstack : (cpu.unstack fun o => (frame 0x200 0x38200100).getD (o / 4) 0#32).toOption.isSome = true ∧
    (cpu.unstack fun o => (frame 0x300 0x38200100).getD (o / 4) 0#32).toOption = none ∧
    (cpu.unstack fun o => (frame 0x100 0x38200101).getD (o / 4) 0#32).toOption = none := by decide +kernel

/-- A vector table in the TCM whose entries lead to 0x38200100. -/
def vectored : State := (supBy (·.setCr 0x13 0x38230000#32)).poke 0x38230010 (leBytes 4 0x38200100)
theorem test_Entry : let x := vectored.cpuAt 8
    let base := (x.sp - 48#32) &&& 0xFFFFFFF8#32
    let r := vectored.pushFrame 8 x.lvl base.toNat (x.frame x.pc (vectored.on (R.CPS_NMI_ACTIVE 8)) ((x.sp - 48#32).getLsbD 2))
    x.limit 2 ≤ base ∧ r.1 = true ∧ r.2.cpuAt 8 = x ∧ 0x440 ≤ ((x.cr 0x13).toNat + 16) % 2 ^ 32 ∧
    (let v := (r.2.setCpuAt 8 (x.setCr 0x14 (BitVec.ofNat 32 x.lvl))).vectorAt 8 2 (((x.cr 0x13).toNat + 16) % 2 ^ 32)
     v.1 = some 0x38200100#32 ∧ v.2.cpuAt 8 = x.setCr 0x14 (BitVec.ofNat 32 x.lvl)) := by decide +kernel
theorem test_Lockup : let x := ({ cpu with w := [(15, 0x20030#32)] } : Cpu).setCr 0x12 0x20008#32
    ((x.sp - 48#32) &&& 0xFFFFFFF8#32) < x.limit 2 := by decide +kernel
theorem test_Faults_fetch : let out := supBy fun x => { x with pc := 0x38280000#32 }
    let bad := sup.setMark 0x38200000 { double := true }
    (out.ready (.core 8) = true ∧ out.displaced (.core 8) = false ∧ out.fetchWaits (.core 8) 0x38280000 = false ∧ out.fetchMay (.core 8) 0x38280000 = false) ∧
    (bad.ready (.core 8) = true ∧ bad.displaced (.core 8) = false ∧ bad.fetchWaits (.core 8) 0x38200000 = false ∧ bad.fetchMay (.core 8) 0x38200000 = true ∧
      bad.lineHeld (.core 8) 0x38200000 = false ∧ bad.codeSound 0x38200000 = false) := by
  decide +kernel
/-- Interrupt 255 pends, enabled, with priority 15; and the NMI pends. -/
def pends : State := ((sup.putBit (R.CPS_IRQ_SETj_PEND 8 7) 31 true).wr (R.CPS_IRQ_CFGn 8 255) 0x3F#32)
theorem test_Interrupts : pends.atBoundary 8 = true ∧ (pends.cpuAt 8).inService = false ∧ pends.nmiMay 8 = false ∧ pends.irqNext 8 = some 255 ∧
    (let n := sup.put (R.CPS_NMI_PEND 8) 1; n.atBoundary 8 = true ∧ n.nmiMay 8 = true) := by decide +kernel

theorem priv_region (a : Nat) (h : 0xE0000000 ≤ a) (h2 : a < 0xE0010000) : regionOf a = some .priv := by
  unfold regionOf
  repeat rw [if_neg (by omega)]
  rw [if_pos h2]
theorem test_InterruptRegisters : sup.ready (.core 8) = true ∧ (sup.cpuAt 8).lvl = 2 ∧
    ∀ a, 0xE0000000 ≤ a → a < 0xE0010000 → a % 4 = 0 → sup.coreMay 8 2 .write a 4 = true := by
  refine ⟨by decide +kernel, by decide +kernel, fun a h1 h2 h3 => ?_⟩
  have g : sup.reload = none := by decide +kernel
  simp [State.coreMay, State.reach, State.fenceOk, State.staged, g, formOk, priv_region a h1 h2, h3]

/-! ### Resets, boot and reload -/

/-- A signed image with the records that every image needs, SEQ 1. -/
def image1 : List Byte := beBytes 380
  0x5352494d010090002094000001000001010000007c0100000100000000000000088bb9ff22ab291a74c86fc677ba897baadee370cc6129b82d170ba3fc26415c442da9a716067956d91eaa02b93ad409490e87cd5e758ea6a331a1deb75ba846ff000000900000008c0000000000000034ac0393b1daf8cc149c6559f004830b72b33327696189437b4ce6d5d50017700200000003001b000000680000000000000000000000000000000000000000000001010000000000000000000000000000000000000000000001000000000000000000000000000000000000000000000000000000000000000000000000000000000000000000000001000000000000010001010b000100000000000f000300000000000000000001020304861f75f371abeb1766d563c39b3065ad2ea42c463b431674cb849a9fb75f4016f415c6157336ea2245bcc9d3cd86a29697c8756de2953ff612403b442dc9a12de5d793c6b5ca975eacadf57c242ec14bcb0d6a23c57b27e2a73e2f3feb15d8c9
/-- The same with SEQ 2. -/
def image2 : List Byte := image1.take 16 ++ leBytes 4 2 ++ (image1.take 284).drop 20 ++ beBytes 96
  0xb07cfccec09061af049e95415d8d4a6b8e9c5e919a761c81af3baa30d9d224bef415c6157336ea2245bcc9d3cd86a29697c8756de2953ff612403b442dc9a12dddcc96811c4b6354ccf76a05337e0c519f5db69ffd425b3090ee40e40be7c526
/-- The hash of the key that signs them. -/
def keyHash : List Byte := beBytes 32
  0x0f8a212d4f085087c3547aae01e8f656e297a664b1373995bd4e554efb036244

/-- A requester that comes through the debug port. -/
def w06dap : State := { State.reset with tap := { instr := 0x20 } }
/-- Recovery boot with command RESET taken. -/
def w06rec : State := ({ State.reset with chip := { cmd := some 6 } } : State).put R.RST_BOOT_PHASE 10
/-- STANDBY with its context, wakes enabled and due. -/
def w06sleep : State := (({ State.reset with chip := { asleep := 2 } } : State).put R.PWR_WAKE_EN_RTC 1).put R.PWR_RTC_CTRL_ALARM 1 |>.put R.PWR_WAKE_EN_WAKE_N 1
/-- Held in reset with RESET_N high. -/
def w06held : State := { State.reset with chip := { held := true } }

theorem test_DeviceResets : acc State.reset R.RST_CTRL = true ∧ acc w06dap R.RST_CTRL .write .dap = true ∧ State.reset.monitored 0 = true ∧
    State.reset.monitored 8 = true ∧ State.reset.monitored 6 = true ∧ State.reset.chip.asleep ≠ 2 ∧ w06rec.recovering 6 = true ∧
    (w06sleep.chip.asleep = 2 ∧ w06sleep.chip.lost = false ∧ (w06sleep.on R.PWR_WAKE_EN_RTC && w06sleep.on R.PWR_RTC_CTRL_ALARM) = true ∧
      w06sleep.on R.PWR_WAKE_EN_WAKE_N = true) ∧
    (w06held.chip.held = true ∧ w06held.chip.resetN = true ∧ w06held.chip.low = 0) := by decide +kernel

/-- The fuses of a device of state 1 that accepts the images. -/
def fuses1 : Fuses := { lcs := 1, keys := [(0, keyHash)] }
/-- At the boot, before the slots are written: both are blank, LENGTH 0. -/
def atBoot : State := ((({ State.reset with fuses := fuses1 } : State).put R.RST_BOOT_PHASE 1).poke 0x08000014 [0#8, 0#8, 0#8, 0#8]).poke 0x08800014 [0#8, 0#8, 0#8, 0#8]
/-- Slot A holds the image. -/
def w06boot : State := atBoot.poke (slotBase 0) image1
/-- Slot A holds a header of the same SEQ with nothing behind it, slot B the image. -/
def head1 : List Byte := image1.take 20 ++ leBytes 4 96 ++ (image1.take 96).drop 24
def w06fall : State := (atBoot.poke (slotBase 0) head1).poke (slotBase 1) image1
/-- Both slots blank. -/
def w06none : State := atBoot
/-- In END, with or without a PLL lock. -/
def w06end : State := ({ atBoot with fuses := { lcs := 5 } } : State).put R.RST_BOOT_PLL_WAIT 1
/-- Waiting for a PLL in the recovery boot. -/
def w06wait : State := (atBoot.put R.RST_BOOT_PLL_WAIT 1).put R.RST_BOOT_RCV_STRAP 1
/-- Waiting for a PLL with an image in a slot. -/
def waiting (s : State) : State := s.put R.RST_BOOT_PLL_WAIT 1
/-- The supervisor is to be restarted. -/
def w06restart : State := (({ State.reset with image := image1 } : State).put R.SUP_REC_STATUS_STATE 2)

theorem test_Boot : w06boot.dead = false ∧ w06boot.get R.RST_BOOT_PHASE = 1 ∧ w06boot.get R.SUP_REC_STATUS_STATE ≠ 3 ∧ w06end.fuses.lcs = 5 ∧
    w06boot.fuses.lcs ≠ 5 ∧ w06end.dead = false ∧ w06end.on R.RST_BOOT_PLL_WAIT = true ∧ w06wait.on R.RST_BOOT_RCV_STRAP = true ∧ w06wait.fuses.lcs ≠ 5 ∧
    w06restart.get R.SUP_REC_STATUS_STATE = 2 ∧ (waiting w06boot).dead = false ∧ (waiting w06boot).on R.RST_BOOT_PLL_WAIT = true ∧
    (waiting w06boot).on R.RST_BOOT_RCV_STRAP = false := by decide +kernel
theorem image1_passes : checkImage image1 0 fuses1 = none := by decide +kernel
theorem image1_passes1 : checkImage image1 1 fuses1 = none := by decide +kernel
theorem image1_length : image1.length = 380 := by decide +kernel
theorem head1_length : head1.length = 96 := by decide +kernel
theorem atBoot_memOk : atBoot.memOk := by unfold State.memOk; decide +kernel
/-- A slot whose LENGTH is that of the bytes written to it. -/
theorem slot_poke {s : State} {k : Nat} {img : List Byte} (h : s.memOk) (hm : s.flash.mix = []) (h0 : 96 ≤ img.length)
    (h1 : img.length ≤ 4194304) (h2 : leNat ((img.drop 20).take 4) = img.length) : (s.poke (slotBase k) img).slotImage k = img := by
  have hk : 0x40000 ≤ slotBase k := by simp only [slotBase]; omega
  have e : (s.poke (slotBase k) img).numAt (slotBase k + 20) 4 = img.length := by
    simp only [State.numAt]; rw [State.bytesAt_poke h hm hk (by omega)]; exact h2
  unfold State.slotImage
  rw [e, Nat.min_eq_left h1, Nat.max_eq_right h0]
  have := State.bytesAt_poke (s := s) (o := 0) (n := img.length) (bs := img) h hm hk (by omega)
  simpa using this
/-- What is written to one slot leaves the other. -/
theorem slot_other {s : State} {j k : Nat} {img : List Byte} (h : s.memOk) (hm : s.flash.mix = []) (hj : j < 2) (_ : k < 2) (hn : j ≠ k) (h1 : img.length ≤ 4194304) :
    (s.poke (slotBase j) img).slotImage k = s.slotImage k := by
  have e : ∀ o n, o + n ≤ 4194304 → (s.poke (slotBase j) img).bytesAt (slotBase k + o) n = s.bytesAt (slotBase k + o) n := fun o n ho =>
    State.bytesAt_poke_ne h hm (by simp only [slotBase]; omega) (by simp only [slotBase]; omega)
  have e0 : ∀ n, n ≤ 4194304 → (s.poke (slotBase j) img).bytesAt (slotBase k) n = s.bytesAt (slotBase k) n := fun n ho => e 0 n (by omega)
  simp only [State.slotImage, State.numAt, e 20 4 (by decide)]
  exact e0 _ (by omega)
theorem image1_slot {s : State} (k : Nat) (h : s.memOk) (hm : s.flash.mix = []) : (s.poke (slotBase k) image1).slotImage k = image1 :=
  slot_poke h hm (by rw [image1_length]; decide) (by rw [image1_length]; decide) (by rw [image1_length]; decide +kernel)
theorem headed_memOk : (atBoot.poke (slotBase 0) head1).memOk := State.poke_memOk _ _ atBoot_memOk
theorem boot_slots : (w06boot.slotImage 0 = image1 ∧ w06boot.slotImage 1 = atBoot.slotImage 1) ∧ (w06fall.slotImage 0 = head1 ∧ w06fall.slotImage 1 = image1) := by
  refine ⟨⟨image1_slot 0 atBoot_memOk rfl, slot_other atBoot_memOk rfl (by decide) (by decide) (by decide) (by rw [image1_length]; decide)⟩, ?_, image1_slot 1 headed_memOk rfl⟩
  exact (slot_other headed_memOk rfl (by decide) (by decide) (by decide) (by rw [image1_length]; decide)).trans
    (slot_poke atBoot_memOk rfl (by rw [head1_length]) (by rw [head1_length]; decide) (by rw [head1_length]; decide +kernel))
/-- The choice of the first slot, of the other one, and of none. -/
def firstOf (s : State) : Nat := (slotOrder (s.slotImage 0) (s.slotImage 1) (s.slotSound 0) (s.slotSound 1)).headD 0
def passes (s : State) (k : Nat) : Prop := checkImage (s.slotImage k) (s.get R.SCFG_FLOOR_FLOOR) s.fuses = none
theorem test_Boot_choice : (firstOf w06boot = 0 ∧ passes w06boot 0) ∧ (firstOf w06fall = 0 ∧ ¬passes w06fall 0 ∧ passes w06fall 1) ∧
    (firstOf w06none = 0 ∧ ¬passes w06none 0 ∧ ¬passes w06none 1) := by
  have f : w06boot.get R.SCFG_FLOOR_FLOOR = 0 ∧ w06fall.get R.SCFG_FLOOR_FLOOR = 0 := ⟨by decide +kernel, by decide +kernel⟩
  have n : ∀ (s : State) k, s.flash = {} → s.slotSound k = true := fun s k h => by
    simp only [State.slotSound, State.unitEcc, State.mixSeed, h]; simp
  obtain ⟨⟨a, b⟩, c, d⟩ := boot_slots
  simp only [firstOf, passes, a, b, c, d, f.1, f.2, n w06boot _ rfl, n w06fall _ rfl]
  exact ⟨⟨by decide +kernel, image1_passes⟩, ⟨by decide +kernel, by decide +kernel, image1_passes⟩, by decide +kernel⟩
/-- The same at the choice itself, from step 1 and from the retry. -/
theorem ready_poked {s t : State} (e : s.mem = t.mem) (hm : s.flash = {}) (hu : s.fuses = fuses1) (ht : t.memOk) (hf : t.flash = {})
    (far : ∀ a n, 0x0A000000 ≤ a → t.bytesAt a n = atBoot.bytesAt a n) :
    (∀ k, k < 2 → s.bootReady.slotImage k = t.slotImage k ∧ s.bootReady.slotSound k = true) ∧ s.bootReady.fuses = fuses1 ∧
    s.bootReady.get R.SCFG_FLOOR_FLOOR = max (seqOf (t.slotImage 0)) (seqOf (t.slotImage 1)) % 2 ^ 32 := by
  have b : ∀ a n, s.bytesAt a n = t.bytesAt a n := fun a n => State.bytesAt_congr e (by rw [hm, hf])
  have i : ∀ k, s.slotImage k = t.slotImage k := fun k => by simp only [State.slotImage, State.numAt, b]
  have r := State.bootReady_slots (s := s) (State.memOk_of_mem ht e) (by rw [hm]) (by rw [hm]) (by rw [hu]; rfl)
    (by simp only [State.snapSeq, b]; rw [far _ _ (by decide)]; decide +kernel) (by simp only [State.snapSeq, b]; rw [far _ _ (by decide)]; decide +kernel)
    (by rw [b, far _ _ (by decide)]; decide +kernel)
  rw [i, i, hu] at r
  exact ⟨fun k hk => ⟨(r.1 k hk).1.trans (i k), (r.1 k hk).2⟩, r.2⟩
theorem test_Boot_ready (f : State → State) (hf : ∀ s ∈ [w06boot, w06fall, w06none], (f s).mem = s.mem ∧ (f s).flash = s.flash ∧ (f s).fuses = s.fuses) :
    (firstOf (f w06boot).bootReady = 0 ∧ passes (f w06boot).bootReady 0) ∧
    (firstOf (f w06fall).bootReady = 0 ∧ ¬passes (f w06fall).bootReady 0 ∧ passes (f w06fall).bootReady 1) ∧
    (firstOf (f w06none).bootReady = 0 ∧ ¬passes (f w06none).bootReady 0 ∧ ¬passes (f w06none).bootReady 1) := by
  have p : ∀ (s : State) (k : Nat) (l : List Byte), s.memOk → s.flash = {} → k < 2 → l.length ≤ 380 → (∀ a n, 0x0A000000 ≤ a → s.bytesAt a n = atBoot.bytesAt a n) →
      ∀ a n, 0x0A000000 ≤ a → (s.poke (slotBase k) l).bytesAt a n = atBoot.bytesAt a n := fun s k l h m hk hl g a n ha =>
    (State.bytesAt_poke_ne h (by rw [m]) (by simp only [slotBase]; omega) (Or.inr (by simp only [slotBase]; omega))).trans (g a n ha)
  have r := fun (t : State) (m : t ∈ [w06boot, w06fall, w06none]) (ht : t.memOk) (h1 : t.flash = {}) (h2 : t.fuses = fuses1) (far : ∀ a n, 0x0A000000 ≤ a → t.bytesAt a n = atBoot.bytesAt a n) =>
    ready_poked (s := f t) (t := t) (hf t m).1 ((hf t m).2.1.trans h1) ((hf t m).2.2.trans h2) ht h1 far
  have q := r w06boot (by simp) (State.poke_memOk _ _ atBoot_memOk) rfl rfl (p atBoot 0 image1 atBoot_memOk rfl (by decide) (by rw [image1_length]) fun _ _ _ => rfl)
  have w := r w06fall (by simp) (State.poke_memOk _ _ headed_memOk) rfl rfl (p _ 1 image1 headed_memOk rfl (by decide) (by rw [image1_length])
    (p atBoot 0 head1 atBoot_memOk rfl (by decide) (by rw [head1_length]; decide) fun _ _ _ => rfl))
  have z := r w06none (by simp) atBoot_memOk rfl rfl fun _ _ _ => rfl
  obtain ⟨⟨a, b⟩, c, d⟩ := boot_slots
  simp only [firstOf, passes, q.1 0 (by decide), q.1 1 (by decide), q.2, w.1 0 (by decide), w.1 1 (by decide), w.2, z.1 0 (by decide), z.1 1 (by decide), z.2, a, b, c, d]
  refine ⟨⟨by decide +kernel, ?_⟩, ⟨by decide +kernel, by decide +kernel, ?_⟩, by decide +kernel⟩
  · rw [show max (seqOf image1) (seqOf (atBoot.slotImage 1)) % 2 ^ 32 = 1 by decide +kernel]; exact image1_passes1
  · rw [show max (seqOf head1) (seqOf image1) % 2 ^ 32 = 1 by decide +kernel]; exact image1_passes1
theorem test_Boot_ways : ∀ s ∈ [w06boot, w06fall, w06none], ∀ f ∈ [fun s : State => s.bootStart false, waiting],
    (f s).mem = s.mem ∧ (f s).flash = s.flash ∧ (f s).fuses = s.fuses := by decide +kernel

/-- Partition 0 has bank 0, where the image of SEQ 2 is to be staged; SEQ 1 runs, and reload is allowed. -/
def running1 : State := ((((((({ State.reset with fuses := fuses1, image := image1 } : State).put (R.PART_Pn_CFG_PRESENT 0) 1).put (R.PART_Pn_SRAM_BANKS 0) 1).put
  (R.PART_Pn_CFG_RELOAD_ALLOWED 0) 1).put (R.SCFG_RQn_ADDR_ADDR 0) 0x400000).put (R.SCFG_RQn_LEN_LEN 0) 95).put R.SCFG_SEQ_SEQ 1)
/-- It is staged. -/
def w06stage : State := running1.poke 0x10000000 image2
/-- In a state of the reload of partition 0. -/
def reloading (st : Nat) : State := { running1.put (R.SCFG_RQn_STAT_STATE 0) st with reload := some { part := 0, image := image2, stage := 0x10000000, len := 380 } }
def w06checking : State := (reloading 1).poke 0x10000000 image2
/-- The image staged is not newer. -/
def w06stale : State := ((reloading 1).put R.SCFG_SEQ_SEQ 2).poke 0x10000000 image2
def w06prepare : State := reloading 2
def w06switch : State := { reloading 3 with bind := [(0, { ahead := some ⟨0#32, 5#32, 7⟩ })] }
def w06done : State := reloading 3
/-- A persist runs; slot B is being written. -/
def w06persist : State := { running1.put R.SCFG_STATUS_BASE_SLOT 0 with persisting := some (0, image1), flash := { ops := [(1, { state := 1 })] } }
/-- A START of partition 0, or of partition 1, has come in this cycle. -/
def startOf (p : Nat) (s : State) : State := { s with chip := { s.chip with start := some (p, 0#64) } }
theorem startOf_numAt (p : Nat) (s : State) (a n : Nat) : (startOf p s).numAt a n = s.numAt a n := rfl
def w06first : State := startOf 0 w06stage
def w06second : State := startOf 1 w06stage
def w06floor : State := { running1.put R.SCFG_STATUS_IN_SLOT 1 with floorWant := some 5 }

theorem test_Reload_start : w06stage.stagingOk 0 = true ∧ w06second.stagingOk 0 = true := by
  have e : w06stage.numAt (0x10000000 + 20) 4 = 380 :=
    (congrArg leNat (State.bytesAt_poke (s := running1) (a := 0x10000000) (o := 20) (n := 4) (bs := image2) rfl rfl (by decide) (by decide +kernel))).trans
      (by decide +kernel)
  have e2 : w06second.numAt (0x10000000 + 20) 4 = 380 := (startOf_numAt 1 w06stage _ _).trans e
  have h : w06stage.staging 0 = (0x10000000, 380) ∧ w06second.staging 0 = (0x10000000, 380) := by decide +kernel
  unfold State.stagingOk
  rw [h.1, h.2]
  simp only [e, e2]
  decide +kernel
theorem test_Reload : acc w06stage (R.SCFG_RQn_CTRL 0) = true ∧ w06stage.get (R.SCFG_RQn_STAT_STATE 0) = 0 ∧ w06stage.reload = none ∧
    w06stage.persisting = none ∧ w06stage.startNow = none ∧ (w06checking.startNow = none ∧ w06checking.reload.isSome = true) ∧
    (w06first.startNow = some 0 ∧ acc w06first (R.SCFG_RQn_CTRL 1) = true ∧ w06first.get (R.SCFG_RQn_STAT_STATE 1) = 0) ∧
    (w06second.startNow = some 1 ∧ acc w06second (R.SCFG_RQn_CTRL 0) = true ∧ w06second.get (R.SCFG_RQn_STAT_STATE 0) = 0) ∧ running1.stagingOk 0 = false ∧ w06persist.persisting.isSome = true ∧
    (w06checking.reload.map (·.part) = some 0 ∧ w06checking.get (R.SCFG_RQn_STAT_STATE 1) = 0 ∧ acc w06checking (R.SCFG_RQn_CTRL 1) = true) ∧
    (∀ st, st < 4 → (reloading st).get (R.SCFG_RQn_STAT_STATE 0) = st) ∧
    (w06prepare.reload.all fun r => r.holds.all w06prepare.gateOpen) = true ∧ w06done.reload.map (·.todo) = some [] ∧ w06done.bind = [] ∧ w06done.deferred = [] ∧
    (w06switch.bnd 0).ahead.isSome = true ∧ (w06persist.get R.SCFG_STATUS_BASE_SLOT = 0 ∧ (w06persist.flashOp 1).state = 1 ∧ (w06persist.flashOp 1).op = 0) ∧
    acc w06floor R.SCFG_FLOOR_CTRL = true ∧ w06floor.on R.SCFG_STATUS_IN_SLOT = true ∧ w06stage.on R.SCFG_STATUS_IN_SLOT = false ∧ w06floor.floorWant = some 5 := by
  decide +kernel
theorem staged (s : State) (h : s.memOk) (hm : s.flash.mix = []) : (s.poke 0x10000000 image2).bytesAt 0x10000000 380 = image2 := by
  have := State.bytesAt_poke (s := s) (a := 0x10000000) (o := 0) (n := 380) (bs := image2) h hm (by decide) (by decide +kernel)
  exact this.trans (by decide +kernel)
theorem test_Reload_check : w06checking.reload = some { part := 0, image := image2, stage := 0x10000000, len := 380 } ∧
    w06checking.checkReload 0 (w06checking.bytesAt 0x10000000 380) = none ∧ w06stale.checkReload 0 (w06stale.bytesAt 0x10000000 380) = some (0x0A04, 16) := by
  rw [show w06checking.bytesAt 0x10000000 380 = image2 from staged _ rfl rfl, show w06stale.bytesAt 0x10000000 380 = image2 from staged _ rfl rfl]
  exact ⟨rfl, by decide +kernel, by decide +kernel⟩

/-! ### Converters -/

/-- Fast group 0 and scan converter 0 run; channel 0 of each and its comparators belong to the platform. -/
def w07 : State := { gates [25, 28] with own := [(2 * 256, 15), (3 * 256, 15)] }
/-- At the instant that channel 0 was armed for, with a word on its way. -/
def w07armed : State := (({ w07.put (R.FCV_CHn_TRIG_MODE 0) 1 with now := 1024#64, fcOut := [⟨0, 5#32, 9#64, 3, 1⟩] } : State).setFch 0 { target := some 1024#64 })
/-- Trigger mode 1, not armed, with a congruence; and mode 2, the next word due. -/
def w07free : State := ((w07.put (R.FCV_CHn_TRIG_MODE 0) 1).put (R.FCV_CHn_TMOD_TMOD 0) 640).put (R.FCV_CHn_TPHASE_TPHASE 0) 7
def w07div : State := (w07.put (R.FCV_CHn_TRIG_MODE 0) 2).put (R.FCV_CHn_TRIG_DIV 0) 0
/-- A calibration step runs; a second comparison is due; a swap is due. -/
def w07step : State := { w07 with now := 40000#64 }.setFgr 0 { step := true }
def w07again : State := { w07 with now := 40000#64 }.setFgr 0 { step := true, tries := 1 }
def w07due : State := w07.setFgr 0 { step := true, due := true }
/-- A swap that has waited 100 µs for a channel in mode 1; armed by an event of this cycle, at its own hold edge or not. -/
def w07long : State := { (w07.put (R.FCV_CHn_TRIG_MODE 0) 1) with now := 3200000#64 }.setFgr 0 { step := true, due := true }
def w07event : State := (w07free.setFch 0 { armed := some (0#64, false), target := some 512#64 })

theorem test_FastConverters : w07.fcRuns 0 = true ∧ w07.onGrid 0 = true ∧ w07armed.onGrid 0 = true ∧ w07armed.reached 1024#64 = true ∧
    (w07div.get (R.FCV_CHn_TRIG_MODE 0) = 2 ∧ (w07div.fch 0).count = 0 ∧ w07div.get (R.FCV_CHn_TRIG_DIV 0) = 0) ∧
    (w07armed.fcOut.find? fun u => u.chan == (0 : Nat)).isSome = true ∧
    acc w07 (R.FCV_CHn_FIRE 0) = true ∧ w07.get (R.FCV_CHn_TRIG_MODE 0) ≠ 1 ∧ (acc w07armed (R.FCV_CHn_FIRE 0) = true ∧ (w07armed.fch 0).target = some 1024#64 ∧ (w07armed.fch 0).armed = none ∧ w07armed.fcRuns 0 = true ∧ (w07armed.fch 0).again = false) ∧
    (acc w07event (R.FCV_CHn_FIRE 0) = true ∧ (w07event.fch 0).armed = some (0#64, false) ∧ w07event.sameCycle 0#64 = true ∧ w07event.get (R.FCV_CHn_TRIG_MODE 0) = 1) ∧
    (w07armed.get (R.FCV_CHn_TRIG_MODE 0) = 1 ∧ w07armed.get (R.FCV_CHn_TMOD_TMOD 0) = 0) ∧
    (acc w07free (R.FCV_CHn_FIRE 0) = true ∧ (w07free.fch 0).target = none ∧ w07free.get (R.FCV_CHn_TMOD_TMOD 0) = 640) ∧
    acc w07 (R.FCV_CHn_COMMIT 0) = true ∧ acc w07 (R.FCV_CHn_DMA 0) = true ∧ acc w07 (R.FCV_Gg_CAL_CTRL 0) = true ∧
    (w07.calMay 0 = true ∧ (w07.fgr 0).step = false) ∧ (w07step.calRuns 0 = true ∧ (w07step.fgr 0).step = true ∧ (w07step.fgr 0).due = false ∧ 32768 ≤ w07step.since (w07step.fgr 0).since ∧ (w07step.fgr 0).tries = 0) ∧
    (w07again.calRuns 0 = true ∧ (w07again.fgr 0).step = true ∧ (w07again.fgr 0).due = false ∧ 32768 ≤ w07again.since (w07again.fgr 0).since ∧ (w07again.fgr 0).tries ≠ 0) ∧
    ((w07due.fgr 0).due = true ∧ w07due.calRuns 0 = true ∧ w07due.onGrid 0 = true ∧ w07due.get (R.FCV_Gg_STATUS_NEXT_CH 0) = 0 ∧ w07due.get (R.FCV_CHn_TRIG_MODE 0) ∈ [0, 3]) ∧
    ((w07long.fgr 0).due = true ∧ w07long.calRuns 0 = true ∧ w07long.onGrid 0 = true ∧ w07long.get (R.FCV_CHn_TRIG_MODE 0) = 1 ∧ 3200000 ≤ w07long.since (w07long.fgr 0).dueAt ∧ (w07long.fch 0).target = none) := by
  decide +kernel

/-- Comparator 0 enabled with threshold 0; its output active; a test pulse on it. -/
def w07cmp : State := w07.put (R.CMP_Cc_CTRL_EN 0) 1
def w07live : State := w07cmp.put (R.CMP_Cc_STATUS_LIVE 0) 1
def w07pulse : State := w07live.setPulse 0 (some (0#64, true))
def w07late : State := { w07pulse with now := 32000#64 }
/-- Scan converter 0 in periodic mode; the last conversion of a round of it. -/
def w07scan : State := (w07.put (R.SCV_Ck_CTRL_MODE 0) 1).put (R.SCV_CHn_CFG_EN 0) 1
def w07conv : State := { w07scan with scan := [(0, { slots := [0] })] }
/-- A round has begun 2 converter cycles ago, its interval 1. -/
def w07round : State := { w07scan with scan := [(0, { began := some 0#64, gap := 1 })], now := 12800#64 }

theorem test_Comparators : w07cmp.cmpOn 0 = true ∧ w07cmp.on (R.CMP_Cc_STATUS_LIVE 0) = false ∧ signed 10 (w07cmp.get (R.CMP_Cc_THR_THRESH 0)) = 0 ∧
    w07live.on (R.CMP_Cc_STATUS_LIVE 0) = true ∧ w07live.pulse 0 = none ∧ w07cmp.pulse 0 = none ∧ w07live.get (R.CMP_Cc_CTRL_HYST 0) = 0 ∧ acc w07cmp (R.CMP_Cc_CTRL 0) = true ∧
    acc w07cmp (R.CMP_Cc_TEST 0) = true ∧ (w07pulse.pulse 0 = some (0#64, true) ∧ w07pulse.cmpOn 0 = true ∧ w07pulse.since 0#64 < 32000 ∧ 32000 ≤ w07late.since 0#64) ∧
    ((w07scan.conv 0).mode = 1 ∧ (w07scan.conv 0).began = none ∧ (w07round.conv 0).began = some 0#64 ∧ w07round.since 0#64 ≠ 0 ∧ w07round.since 0#64 % ((w07round.conv 0).gap * 6400) = 0 ∧
      w07round.on (R.SCV_Ck_STATUS_BUSY 0) = false ∧ w07round.scanRuns 0 = true ∧ (w07round.conv 0).mode = 1 ∧ w07scan.on (R.SCV_Ck_STATUS_BUSY 0) = false ∧ w07scan.scanRuns 0 = true ∧ w07scan.on (R.SCV_CHn_CFG_EN 0) = true) ∧
    ((w07conv.conv 0).slots = [0] ∧ w07conv.scanRuns 0 = true ∧ (w07conv.sch (scanChannel 0 0)).void = false ∧ w07conv.ownerInReset (w07conv.owner 3 (scanChannel 0 0)) = false ∧ (w07conv.sch (scanChannel 0 0)).count + 1 = 2 ^ (w07conv.sch (scanChannel 0 0)).avg) ∧
    acc w07 (R.SCV_CHn_WIN_HI 79) = true ∧ acc w07 (R.SCV_CHn_WIN_LO 0) = true := by decide +kernel

/-! ### Lanes and the commit stage -/

/-- Partition 0 runs with core 0; what `own` lists is its own. -/
def part0 (own : List Nat) (s : State) : State :=
  (({ s with own := own.map fun k => (k, 0) } : State).put (R.PART_Pn_CFG_PRESENT 0) 1).put (R.PART_Pn_CFG_CORES 0) 1 |>.put (R.PART_Pn_STATE_STATE 0) 1
/-- Lane 0, lanes 1 and 2 compared, are bound by bindings 0 and 1; binding 0 drives PWM unit 3 and commands link 4. -/
def w08 : State := (part0 [256, 257, 258, 4 * 256 + 3, 5 * 256 + 4] (gates [0, 1, 2, 16])).each
  [(R.LNC_Bb_MAP_DEFINED 0, 1), (R.LNC_Bb_MAP_LANE_A 0, 0), (R.LNC_Bb_MAP_DEFINED 1, 1), (R.LNC_Bb_MAP_COMPARED 1, 1), (R.LNC_Bb_MAP_LANE_A 1, 1),
   (R.LNC_Bb_MAP_LANE_B 1, 2), (R.LNC_Bb_DEST_KIND 0 0, 1), (R.LNC_Bb_DEST_ID 0 0, 3), (R.LNC_Bb_DEST_KIND 0 1, 3), (R.LNC_Bb_DEST_ID 0 1, 4),
   (R.LNC_Ln_STATUS_BOUND 0, 1), (R.LNC_Ln_STATUS_BINDING 0, 0), (R.LNC_Bb_ENTRY_ENTRY 0, 0x100), (R.LNC_Bb_MAP_TRIG_KIND 0, 3)] fun p s => s.put p.1 p.2
/-- An activation of binding `b`. -/
def actOf (b : Nat) : Act := ⟨b, 0, 7#64, none, false, [(1, 9#32)], 2, 0, some 0#64⟩
/-- Lane 0 runs an activation with a deadline. -/
def w08busy : State := { (w08.setLane 0 { act := some (actOf 0) }).put (R.LNC_Bb_CTRL_DEADLINE 0) 5 with now := 200#64 }
def w08free : State := w08.setLane 0 { act := some { actOf 0 with since := none } }
/-- A trigger that waits; its gate is closed, the wait limited. -/
def w08wait : State := { w08 with bind := [(0, { wait := some ⟨9#64, 0, none, 8#64, true, false, none⟩ })] }
def w08shut : State := { (w08wait.put (R.LNC_Bb_WAIT_WAIT_MASK 0) 1).put (R.LNC_Bb_WAIT_WAIT_LIMIT 0) 3 with now := 104#64 }
def w08soon : State := { w08shut with now := 103#64 }
/-- A hardware trigger, or a FIRE, has come in this cycle. -/
def w08came (fire : Bool) : State := { w08 with bind := [(0, { trig := some (0#64, fire) })] }
/-- A word is on its way to mailbox 2 of lane 0. -/
def w08box : State := { w08 with fcBox := [⟨5, 7#32, 3#64, 0, 2⟩] }

theorem test_Lanes : w08.bound 0 = true ∧ w08.ownerInReset (w08.bindingOwner 0) = false ∧ (∀ j ∈ w08.lanesOf 0, (w08.laneOf j).act = none ∧
      w08.on (R.LNC_Ln_STATUS_HALTED j) = false) ∧ (w08.bnd 0).wait = none ∧ (0 ∈ w08busy.lanesOf 0 ∧ (w08busy.laneOf 0).act.isSome = true) ∧
    w08busy.ownerInReset (w08busy.bindingOwner 0) = false ∧ acc w08 (R.LNC_Bb_CMD 0) = true ∧
    (w08box.fcBox.find? fun y => y.lanes == (0 : Nat) && y.box == (2 : Nat)).isSome = true ∧
    ((w08wait.waiting 0 false).isSome = true ∧ w08wait.laneReady 0 false = true ∧ (w08wait.waiting 0 false).all (w08wait.gateHolds 0 false) = true) ∧
    ((w08shut.waiting 0 false).all (w08shut.gateHolds 0 false) = false ∧ w08shut.laneReady 0 false = true ∧ w08shut.get (R.LNC_Bb_WAIT_WAIT_LIMIT 0) = 3 ∧ w08shut.since 8#64 = 96 ∧ w08soon.since 8#64 = 95) ∧
    (w08.mergedTrig 0 3 = false ∧ w08.mergedTrig 0 4 = false ∧ (w08came false).mergedTrig 0 4 = true ∧ (w08came true).mergedTrig 0 3 = true) ∧ (w08wait.bnd 0).wait.isSome = true ∧
    (w08busy.get (R.LNC_Bb_CTRL_DEADLINE 0) = 5 ∧ 32 * 5 ≤ (actOf 0).ran + w08busy.since 0#64 ∧ (w08free.laneOf 0).act.map (·.since) = some none) ∧
    acc w08 (R.LNC_Ln_CTRL 0) = true ∧ w08.viewOf sv = platform ∧
    (w08.viewOf (.core 0) ≠ platform ∧ (w08.served 0).isSome = true ∧ acc w08 (R.LNC_Ln_CTRL 0) .write (.core 0) = true) := by decide +kernel

/-- Sends of the running epoch, of an old one, and of a stale activation. -/
def sendOf (b e : Nat) (stale : Bool) : Send := ⟨b, e, 0, stale, 7#64, [(0, 9#32)]⟩
def w08send : State := w08.setLane 0 { out := [sendOf 0 0 false] }
def w08old : State := w08.setLane 0 { out := [sendOf 0 5 false] }
/-- Lane 2 has sent what lane 1 has, or another word. -/
def w08pair : State := { w08 with lane := [(2, { out := [sendOf 1 0 false] })], bind := [(1, { pairs := [⟨false, 1#64, sendOf 1 0 false⟩] })] }
def w08differ : State := { w08pair with bind := [(1, { pairs := [⟨false, 1#64, { sendOf 1 0 false with words := [(0, 8#32)] }⟩] })] }
/-- The half of binding 1 has waited 200 ticks, with CMP_WAIT `n`. -/
def w08half (n : Nat) : State := { w08pair.put (R.LNC_Bb_CTRL_CMP_WAIT 1) n with now := 201#64 }
/-- A word due at destination 0, of binding 0, forced or not. -/
def w08due : State := { w08 with bind := [(0, { due := [(w08.rd (R.LNC_Bb_DEST 0), sendOf 0 0 false)] })] }
def w08forced : State := w08due.put (R.LNC_Bb_STATUS_FORCED 0) 1
/-- The clock force of lane 0's domain stands. -/
def w08path : State := w08.put (R.CLK_Dd_STATUS_FORCING 0) 1

theorem test_CommitStage : w08.running 16 = true ∧ (w08send.laneOf 0).out = [sendOf 0 0 false] ∧ (w08send.bnd 0).ahead = none ∧
    ((w08.rd (R.LNC_Bb_MAP 0)).msb = true ∧ w08.get (R.LNC_Bb_STATUS_EPOCH 0) = 0) ∧ (w08old.laneOf 0).out = [sendOf 0 5 false] ∧
    fieldGet (w08.rd (R.LNC_Bb_MAP 0)) 25 1 = 0 ∧ (fieldGet (w08.rd (R.LNC_Bb_MAP 1)) 25 1 = 1 ∧ (fieldGet (w08.rd (R.LNC_Bb_MAP 1)) 4 4 == 2) = true) ∧
    (w08pair.laneOf 2).out = [sendOf 1 0 false] ∧ (w08pair.bnd 1).pairs = [⟨false, 1#64, sendOf 1 0 false⟩] ∧ w08pair.on (R.LNC_Bb_STATUS_FORCED 1) = false ∧
    (w08differ.bnd 1).pairs.map (·.send.words) = [[(0, 8#32)]] ∧ ((w08half 6).since 1#64 = 200 ∧ (w08half 6).get (R.LNC_Bb_CTRL_CMP_WAIT 1) = 6 ∧ (w08half 7).get (R.LNC_Bb_CTRL_CMP_WAIT 1) = 7) ∧
    ((w08.rd (R.LNC_Bb_MAP 1)).msb = true ∧ w08.get (R.LNC_Bb_STATUS_EPOCH 1) = 0) ∧
    (w08due.bnd 0).due.map (·.2.words) = [[(0, 9#32)]] ∧ w08due.on (R.LNC_Bb_STATUS_FORCED 0) = false ∧ w08forced.on (R.LNC_Bb_STATUS_FORCED 0) = true ∧
    ((w08.isHot (R.LNC_Bb_STATUS_FORCED 0) || w08.pathForced 0 || (w08.compared 0 && w08.on R.SUP_CMPTEST_COMMIT)) = false) ∧ (w08path.pathForced 0 = true ∧ acc w08path (R.LNC_Bb_CMD 0) = true) := by decide +kernel

/-! ### PWM units -/

/-- PWM group 0 is aligned; units 0 and 1 belong to partition 0, unit 2 to none. -/
def w09 : State := (part0 [1024, 1025] (gates [16, 41, 45])).each [(R.PWM_Gg_STATUS_ALIGNED 0, 1), (R.PWM_Gg_STATUS_SUBSTEP_OK 0, 1)] fun p s => s.put p.1 p.2
/-- Unit 0 runs since 40000 with a compare of a quarter; a new compare has landed. -/
def w09run (now : Nat) (u : PwmUnit) : State :=
  ({ (w09.each [(R.PWM_Un_STATUS_RUNNING 0, 1), (R.PWM_Un_CFG_ENABLE 0, 1), (R.PWM_Un_CMP_ACTIVE_C 0, 40000), (R.PWM_Un_CFG_CARRIER 0, 2)] fun p s => s.put p.1 p.2) with
    now := BitVec.ofNat 64 now } : State).setUnit 0 { u with last := 40000#64, next := 200000#64 }
def w09start : State := w09run 200000 { landed := some 50000#64 }
def w09stop : State := w09start.put (R.PWM_Un_CFG_ENABLE 0) 0
/-- At the half period, with both transfers a period. -/
def w09half : State := (w09run 120000 { landed := some 50000#64 }).put (R.PWM_Un_CFG_UPDATE 0) 1
/-- The reference is to rise at 60000 and to fall at 100000 of the carrier. -/
def w09rise : State := w09run 100000 {}
def w09late : State := w09run 100001 {}
def w09fall : State := w09run 140000 { ref := true, rose := true }
/-- A unit that starts, on the instant and one period late. -/
def w09first (late : Nat) : State := { w09 with now := BitVec.ofNat 64 (1000 + 160000 * late) }.setUnit 0 { starting := true, next := 1000#64 }
def w09begin : State := w09first 0
def w09begin1 : State := w09first 1
/-- Shadows of a stopped unit ask for a start in the past or in the future. -/
def w09past : State := { w09 with now := 1000000#64, shad := (w09.put (R.PWM_Un_CFG_ENABLE 0) 1).regs }
def w09future : State := { w09past with shad := ((w09.put (R.PWM_Un_CFG_ENABLE 0) 1).wr (R.PWM_Un_START_LO 0) 2000000#32).regs }
/-- The commit stage of binding 0 drives unit 0. -/
def w09named : State := w09start.each [(R.LNC_Bb_MAP_DEFINED 0, 1), (R.LNC_Bb_DEST_KIND 0 0, 1), (R.LNC_Bb_DEST_ID 0 0, 0)] fun p s => s.put p.1 p.2
def w09immediate : State := w09start.put (R.PWM_Un_CFG_UPDATE 0) 2
/-- A commit waits; a compare lands in the cycle of 200000 or has landed; the grid is lost. -/
def w09queue : State := w09run 200000 { commits := [(9#64, [1#32, 2#32, 3#32, 4#32, 5#32])] }
def w09coming : State := w09run 200000 { coming := [(6250, 7#32)] }
def w09lost : State := w09run 400000 { lost := true }
/-- A trip event is latched. -/
def w09trip : State := w09start.put (R.PWM_Un_LATCH_TRIP_EVT 0) 1

theorem test_PwmUnits_grid : (w09start.on (R.PWM_Un_STATUS_RUNNING 0) = true ∧ w09start.groupReady 0 = true ∧ w09start.now = (w09start.unit 0).next ∧
      w09start.reload = none ∧ (w09start.unit 0).commits = [] ∧ (w09start.unit 0).lost = false ∧ w09start.on (R.PWM_Un_CFG_ENABLE 0) = true ∧ (w09start.unit 0).landed = some 50000#64 ∧
      50000 / 32 < w09start.now.toNat / 32) ∧
    (w09stop.on (R.PWM_Un_CFG_ENABLE 0) = false ∧ w09stop.now = (w09stop.unit 0).next) ∧
    (∀ l, l < 2 → (let s := w09first l; (s.unit 0).starting && s.groupReady 0 && s.reached (s.unit 0).next && s.since (s.unit 0).next % s.period 0 == 0) = true) ∧
    ((w09queue.unit 0).commits = [(9#64, [1#32, 2#32, 3#32, 4#32, 5#32])] ∧ w09queue.on (R.PWM_Un_STATUS_RUNNING 0) = true ∧ w09queue.groupReady 0 = true ∧ w09queue.now = (w09queue.unit 0).next) ∧
    ((w09coming.unit 0).coming = [(6250, 7#32)] ∧ 6250 ≤ w09coming.now.toNat / 32 ∧ w09coming.on (R.PWM_Un_STATUS_RUNNING 0) = true ∧ w09coming.get (R.PWM_Un_CFG_UPDATE 0) ≠ 2) ∧
    ((w09lost.unit 0).lost = true ∧ w09lost.on (R.PWM_Un_STATUS_RUNNING 0) = true ∧ w09lost.groupReady 0 = true ∧ w09lost.period 0 ≠ 0) ∧
    w09begin.period 0 = 160000 ∧ (w09half.carrier 0 = w09half.period 0 / 2 ∧ w09half.get (R.PWM_Un_CFG_UPDATE 0) = 1 ∧ (w09half.unit 0).landed = some 50000#64) ∧
    ((w09rise.unit 0).rose = false ∧ pulse 2 160000 40000 = (60000, 100000) ∧ w09rise.carrier 0 = 60000 ∧ w09rise.get (R.PWM_Un_CFG_CARRIER 0) = 2) ∧
    w09late.carrier 0 = 60001 ∧ ((w09fall.unit 0).rose = true ∧ (w09fall.unit 0).fell = false ∧ w09fall.carrier 0 = 100000) := by decide +kernel
theorem test_PwmUnits_registers : (acc w09start (R.PWM_Un_COMMIT 0) = true ∧ w09start.ownerInReset (w09start.owner 4 0) = false) ∧
    (acc w09start (R.PWM_Un_COMMIT 2) = true ∧ w09start.ownerInReset (w09start.owner 4 2) = true) ∧ (acc w09past (R.PWM_Un_COMMIT 0) = true ∧ w09past.on (R.PWM_Un_STATUS_RUNNING 0) = false ∧
      (w09past.shad.rd (R.PWM_Un_CFG 0)).getLsbD 8 = true ∧ (w09past.shad.rd (R.PWM_Un_START_LO 0)).toNat < w09past.now.toNat + 2048 ∧
      (w09past.shad.rd (R.PWM_Un_PERIOD 0)).toNat ≠ 0) ∧
    (w09future.now.toNat + 2048 ≤ (w09future.shad.rd (R.PWM_Un_START_LO 0)).toNat ∧ (w09future.shad.rd (R.PWM_Un_CFG 0)).getLsbD 8 = true) ∧
    (acc w09start R.PWM_COMMIT_ALL = true ∧ acc w09start R.PWM_COMMIT_ALL .write (.core 0) = true ∧ w09start.viewOf (.core 0) = 0 ∧ w09start.owner 4 0 = 0 ∧
      w09start.owner 4 2 ≠ 0) ∧
    (acc w09named (R.PWM_Un_CMP 0) = true ∧ w09named.named 1 0 = true) ∧ (acc w09start (R.PWM_Un_CMP 0) = true ∧ w09start.named 1 0 = false) ∧
    w09immediate.get (R.PWM_Un_CFG_UPDATE 0) = 2 ∧ w09trip.unitForce 0 = true ∧ acc w09trip (R.PWM_Un_LATCH 0) = true ∧ acc w09start (R.PWM_Un_FORCE 0) = true ∧
    (w09.running 41 = true ∧ w09.domReset 41 = false) ∧ (w09rise.groupReady 0 = true ∧ w09rise.period 0 ≠ 0) := by decide +kernel

/-! ### Cell links, the balancer and position feedback -/

/-- Link 0 of partition 0, of one cell, in state `st`; links send in every eighth microsecond. -/
def linkIn (st : Nat) (x : Flink) : State := ((part0 [1280] (gates [16, 40, 45, 46, 78])).each
  [(R.FLK_Ln_STATUS_STATE 0, st), (R.FLK_Ln_STATUS_COUNT 0, 1), (R.FLK_Ln_IMAGE_SLEEP_OK 0, 1), (R.FLK_Ln_IMAGE_ARM 0, 0xFF), (R.FLK_Ln_IMAGE_CELLS 0, 1)]
  fun p s => s.put p.1 p.2).setFlink 0 x
def w10off : State := linkIn 0 {}
def w10enum : State := linkIn 1 {}
def w10meas : State := linkIn 2 { rounds := 16, r0sum := 1605, valid := true }
/-- Bring-up has lasted 1 ms; a frame is in progress at block `k`. -/
def w10slow : State := { w10enum with now := 32000000#64 }
def w10block (k : Nat) : State := linkIn 3 { sending := some ⟨9, 0, 5#64, none, k, []⟩, queue := [7] }
def w10run : State := { linkIn 3 { queue := List.replicate 41 7 } with now := 8192#64 }
def w10sleep : State := linkIn 4 {}
def w10down : State := linkIn 5 {}
def w10missed : State := linkIn 3 { missed := 3 }
def w10handshake : State := linkIn 3 { sleep := some 0, wake := true }
def w10remeas : State := { (linkIn 3 {}).put (R.FLK_Ln_CFG_REMEAS 0) 5 with now := 10240000#64 }
/-- Requests of software and of the device without a reply, the latter once and twice sent. -/
def reqOf (own again : Bool) : MgmtReq := ⟨own, 1, 1, 2, 4, [], 0, 0, 8, again⟩
def w10soft : State := linkIn 3 { sent := [reqOf false false] }
def w10own : State := linkIn 3 { sent := [reqOf true false] }
def w10twice : State := linkIn 3 { sent := [reqOf true true] }
def w10force : State := (w10run.put (R.FLK_Ln_FORCE_SW_FORCE 0) 1).put ⟨R.FLK_Ln_FORCESRC 0, 0, 7⟩ 0
/-- A frame of one cell with a sound header and record. -/
def upFrame : List Byte :=
  let h := [0x22#8, 0#8, 0#8, 1#8] ++ List.replicate 10 0#8
  let w := [1#8, 2#8, 3#8, 4#8, 5#8, 6#8, 7#8]
  h ++ [BitVec.ofNat 8 (crc8 h)] ++ w ++ [BitVec.ofNat 8 (crc8 w)]

theorem test_CellLinks : (w10run.now.toNat % 8192 = 0 ∧ w10run.squelched 0 = false ∧ w10run.running 78 = true ∧ w10run.domReset 78 = false) ∧
    (w10run.linkUp 0 = true ∧ headerOk upFrame 1 = false ∧ headerOk upFrame 0 = true ∧ w10run.get (R.FLK_Ln_STATUS_STATE 0) = 3 ∧
      ((w10run.flink 0).receive w10run.now 1).2 = none ∧ ((w10run.flink 0).receive w10run.now 0).2 = none ∧ w10run.get (R.FLK_Ln_RTT_RTT 0) ≤ 64 ∧
      leNat ((upFrame.drop 3).take 1) % 64 = 1 ∧ w10run.get (R.FLK_Ln_STATUS_COUNT 0) = 1 ∧ blockOk upFrame 0 2 = true) ∧
    ((w10missed.flink 0).missed = 3 ∧ (w10run.flink 0).missed < 3) ∧
    (acc w10off (R.FLK_Ln_CTRL 0) = true ∧ w10off.get (R.FLK_Ln_STATUS_STATE 0) = 0 ∧ w10down.get (R.FLK_Ln_STATUS_STATE 0) = 5) ∧
    ((w10run.flink 0).meas = none ∧ (w10run.flink 0).left = [] ∧ acc w10run (R.FLK_Ln_CTRL 0) = true) ∧
    ((w10run.flink 0).sleep = none ∧ w10run.on (R.FLK_Ln_IMAGE_SLEEP_OK 0) = true ∧ w10run.linkHeld 0 = false) ∧
    (w10sleep.get (R.FLK_Ln_STATUS_STATE 0) = 4 ∧ acc w10sleep (R.FLK_Ln_CTRL 0) = true) ∧ ((w10handshake.flink 0).sleep = some 0 ∧ acc w10handshake (R.FLK_Ln_CTRL 0) = true) ∧
    w10enum.get (R.FLK_Ln_STATUS_STATE 0) = 1 ∧ (32000000 ≤ w10slow.since (w10slow.flink 0).began ∧ w10enum.since (w10enum.flink 0).began < 32000000) ∧
    (w10enum.linkUp 0 = true ∧ ((w10block 47).flink 0).sending.isSome = true ∧ ((w10block 2).flink 0).queue = [7]) ∧ ((w10meas.flink 0).valid = true ∧ (w10meas.flink 0).own = [] ∧ (w10meas.flink 0).sent = []) ∧ (w10meas.get (R.FLK_Ln_STATUS_STATE 0) = 2 ∧ (w10meas.flink 0).rounds = 16) ∧
    ((w10soft.flink 0).sent.find? (fun y => y.own == false && decide (8 ≤ y.age))).isSome = true ∧
    ((w10own.flink 0).sent.find? (fun y => y.own == true && decide (8 ≤ y.age))).map (·.again) = some false ∧
    ((w10twice.flink 0).sent.find? (fun y => y.own == true && decide (8 ≤ y.age))).map (·.again) = some true ∧
    (w10remeas.get (R.FLK_Ln_CFG_REMEAS 0) = 5 ∧ 2048000 * 5 ≤ w10remeas.since (w10remeas.flink 0).remeas) ∧ (w10force.linkForced 0 = true ∧ w10force.get ⟨R.FLK_Ln_FORCESRC 0, 0, 7⟩ = 0) ∧
    acc w10run (R.FLK_Ln_FORCE 0) = true ∧ acc w10run (R.FLK_Ln_LATCH 0) = true ∧
    (acc w10run (R.FLK_Ln_MGMT_CMD 0) = true ∧ w10run.on (R.FLK_Ln_MGMT_STAT_BUSY 0) = false) := by decide +kernel

/-- Arm 0 consists of link 0 and is balanced. -/
def w10arm : State := { (linkIn 3 { cells := [(0, { seen := true })] }).each [(R.FLK_Ln_IMAGE_ARM 0, 0), (R.ABL_Aa_LINKS_LINKS 0, 1), (R.ABL_Aa_CFG_COUNT 0, 1),
  (R.ABL_Aa_STATUS_RUNNING 0, 1), (R.ABL_Aa_CTRL_ENABLE 0, 1)] fun p s => s.put p.1 p.2 with now := 32000#64 }
def w10bypass : State := (w10arm.setArm 0 { lost := true }).put (R.ABL_Aa_CTRL_LINK_LOSS 0) 1
/-- A software command enters in this cycle, on a link with room and on a forced one. -/
def w10enter (s : State) : State := s.setFlink 0 { s.flink 0 with soon := [7], entered := (0#64, []) }
/-- It asks for one cell. -/
def w10insert : State := w10arm.setArm 0 { ref := 256 }
/-- Interface 0 reads Hall sensors in sector 1, interface 1 an encoder, interface 2 sine and cosine. -/
def w10pos : State := { (linkIn 0 {}).each [(R.POS_Pn_CFG_MODE 0, 1), (R.POS_Pn_CFG_MODE 1, 2), (R.POS_Pn_CFG_MODE 2, 3), (R.POS_Pn_CFG_STILL_TO 0, 5),
  (R.POS_Pn_CFG_STILL_TO 1, 5), (R.CLK_Dd_STATUS_RUNNING 34, 1)] fun p s => s.put p.1 p.2 with
  pos := [(0, { started := true, levels := 3, sector := some 1 }), (1, { started := true, valid := true, cfg := 0x50000#32 })], now := 32000#64 }
/-- Interface 1 has been still for 5 us. -/
def w10still : State := { w10pos with now := 160064#64 }
/-- The edge that the filter has accepted by now. -/
def edgeAt : Time := BitVec.ofNat 64 (32000 - w10pos.filtTicks 0)
def w10full : State := w10pos.put (R.POS_Pn_PRB_CTRL_FULL 0) 1

theorem test_Balancer : (w10arm.now.toNat % 32000 = 0 ∧ w10arm.running 16 = true ∧ w10arm.on (R.ABL_Aa_STATUS_RUNNING 0) = true) ∧
    ((w10arm.armOf 0).lost = false ∧ ((w10bypass.armOf 0).lost && (w10bypass.armCfg 0).ctrl.getLsbD 2) = true ∧ (w10insert.armOf 0).refFor w10insert.now / 256 % 256 = 1) ∧
    (acc w10arm (R.ABL_Ln_SWCMD 0) = true ∧ w10arm.linkArm 0 = some 0 ∧ w10arm.on (R.ABL_Aa_CTRL_ENABLE 0) = true) ∧
    (acc w10run (R.ABL_Ln_SWCMD 0) = true ∧ w10run.linkArm 0 = none ∧ w10run.linkForced 0 = false ∧ (w10run.flink 0).queue.length < 64 ∧ w10force.linkForced 0 = true) ∧
    (((w10enter w10run).flink 0).soon = [7] ∧ (w10enter w10run).sameCycle 0#64 = false ∧ (w10enter w10run).linkForced 0 = false ∧ (w10enter w10force).linkForced 0 = true ∧
      ((w10enter w10force).flink 0).soon = [7]) ∧
    acc w10arm (R.ABL_Aa_CTRL 0) = true ∧ (acc w10run (R.ABL_Aa_CTRL 0) = true ∧ w10run.on (R.ABL_Aa_CTRL_ENABLE 0) = false) := by decide +kernel
theorem test_Position : (w10pos.posLogic = true ∧ (w10pos.posIf 0).started = true ∧ w10pos.posMode 0 = 1 ∧ (w10pos.posIf 0).levels ≠ 2 ∧
      hallSector (hallState (w10pos.on (R.POS_Pn_CFG_DIR_INV 0)) 7) = none ∧ hallSector (hallState (w10pos.on (R.POS_Pn_CFG_DIR_INV 0)) 2) = some 2 ∧
      (w10pos.posIf 0).sector = some 1 ∧ (w10pos.posIf 0).base = none ∧ w10pos.posDiscards 0 = false ∧ w10pos.filtered 0 7 edgeAt = true ∧ w10pos.filtered 0 2 edgeAt = true ∧
      w10pos.filtered 0 2 0#64 = false) ∧
    (w10pos.posMode 2 = 3 ∧ w10pos.posDiscards 2 = false ∧ w10pos.running 34 = true ∧ w10pos.domReset 34 = false ∧ (w10pos.posIf 2).hold = none ∧ w10pos.now.toNat % 32000 = (w10pos.posIf 2).phase) ∧
    (w10pos.posMode 1 = 2 ∧ fieldGet (w10still.posIf 1).cfg 16 16 = 5 ∧ 32000 * 5 + 64 ≤ w10still.since (w10still.posIf 1).heard ∧ (w10still.posIf 1).started = true ∧ (w10still.posIf 1).still = false ∧
      w10still.posLogic = true) ∧
    (acc w10full (R.POS_Pn_PRB_CTRL 0) = true ∧ w10full.on (R.POS_Pn_PRB_CTRL_FULL 0) = true) ∧ (acc w10pos (R.POS_Pn_PRB_CTRL 0) = true ∧ w10pos.on (R.POS_Pn_PRB_CTRL_FULL 0) = false) ∧
    acc w10pos (R.POS_Pn_CFG 15) = true := by decide +kernel

/-! ### The event matrix -/

/-- Everything that consumes events runs and belongs to the platform; line 0 is joined to channel 0. -/
def w11 : State := { (gates [0, 16, 17, 21, 23, 25, 28, 40, 41, 45, 87, 92, 93]).put (R.EVM_Cc_ENj_EN 0 0) 1 with
  now := 5000#64, own := [256, 512, 1024, 1536, 1792].map fun k => (k, 15) }
/-- Its producer has sent within 8.0 ns, and has an event held too. -/
def w11line (held : Option Nat) : State := w11.setLine 0 ⟨some 4900#64, held⟩
def w11near : State := w11line none
def w11held : State := w11line (some 2)
/-- 8.0 ns have passed, and its producer is in reset or not. -/
def w11due : State := { w11held with now := 6000#64 }
def w11orphan : State := { w11due with own := [] }
/-- Channel 0 feeds input `i`; what has arrived and what is pending. -/
def w11to (i : Nat) (x : Chan) : State := ((w11.put (R.EVM_Cc_CONS_VALID 0) 1).put (R.EVM_Cc_CONS_INPUT 0) i).setChan 0 x
def w11open : State := w11.setChan 0 { arrived := [3] }
def w11drop : State := w11to 0x0A01 { arrived := [3], pend := [1] }
def w11first : State := w11to 0x0A30 { arrived := [3, 4] }
def w11over : State := w11to 0x0800 { arrived := [3], pend := [1] }
def w11next : State := w11to 0x0A30 { arrived := [3], pend := [1] }
/-- A timed fire at 100, later than its instant or before it. -/
def w11timed (t : Nat) : State := { (w11.put (R.EVM_Cc_AT_LO_AT_LO 0) 100).setChan 0 { timed := some 2 } with now := BitVec.ofNat 64 t }
def w11late : State := w11timed 200
def w11early : State := w11timed 50
/-- An event pends at each kind of input. -/
def w11at (i : Nat) : State := w11to i { pend := [1] }
def w11irq : State := w11at 0x0800
def w11nmi : State := w11at 0x0908
/-- Lane 0 is bound with an event trigger. -/
def w11lane : State := ((w11at 0x0A00).put (R.LNC_Bb_MAP_DEFINED 0) 1).put (R.LNC_Bb_MAP_TRIG_KIND 0) 3
def w11arm : State := ((w11at 0x0A10).put (R.FCV_CHn_TRIG_EVT_EN 0) 1).put (R.FCV_CHn_TRIG_MODE 0) 1
def w11scan : State := { w11at 0x0A28 with scan := [(0, { mode := 2 })] }
def w11busy : State := w11scan.put (R.SCV_Ck_STATUS_BUSY 0) 1
def w11trip : State := w11at 0x0A30
def w11probe : State := (w11at 0x0A50).put (R.POS_Pn_CFG_PRB_SRC 0) 3
def w11dma : State := w11at 0x0A60
def w11go : State := (w11at 0x0A80).put (R.FSE_Pn_STATUS_GATED 0) 1
def w11eth : State := w11at 0x0A88
def w11pin : State := (w11at 0x0A90).wr (R.GPIO_OEVk 0) 0x320#32

theorem test_EventMatrix_lines : w11.ownerInReset (w11.lineOwner 0) = false ∧ w11.line 0 = {} ∧ w11near.since 4900#64 < ns 8 ∧ (w11held.line 0).held = some 2 ∧
    (ns 8 ≤ w11due.since 4900#64 ∧ w11due.ownerInReset (w11due.lineOwner 0) = false ∧ w11orphan.ownerInReset (w11orphan.lineOwner 0) = true ∧ (w11orphan.line 0).held = some 2) ∧
    w11.joined 0 0 = true ∧ (w11open.chan 0).arrived = [3] ∧ w11open.on (R.EVM_Cc_CONS_VALID 0) = false ∧
    (w11drop.on (R.EVM_Cc_CONS_VALID 0) = true ∧ w11drop.inputInReset (w11drop.get (R.EVM_Cc_CONS_INPUT 0)) = true ∧ (w11drop.chan 0).pend = [1]) ∧
    (w11first.inputInReset (w11first.get (R.EVM_Cc_CONS_INPUT 0)) = false ∧ (w11first.chan 0).pend = []) ∧
    (w11over.inputInReset (w11over.get (R.EVM_Cc_CONS_INPUT 0)) = false ∧ (w11over.chan 0).pend = [1] ∧ takesOnArrival (w11over.get (R.EVM_Cc_CONS_INPUT 0)) = false) ∧
    (w11next.inputInReset (w11next.get (R.EVM_Cc_CONS_INPUT 0)) = false ∧ (w11next.chan 0).pend = [1] ∧
      (takesOnArrival (w11next.get (R.EVM_Cc_CONS_INPUT 0)) && w11next.running (inputDomain (w11next.get (R.EVM_Cc_CONS_INPUT 0)))) = true) ∧
    acc w11late (R.EVM_Cc_FIRE 0) = true ∧ (w11late.reached 100#64 = true ∧ w11late.now ≠ 100#64 ∧ timeOf 100 0 = 100#64) ∧ w11early.reached 100#64 = false ∧
    (w11late.chan 0).timed = some 2 := by decide +kernel
/-- Is there an event for input `i` at a consumer that runs? -/
def given (i : Nat) (s : State) : Bool := s.channelOf i == some 0 && (s.chan 0).pend == [1] && !(s.chan 0).handed && !s.inputInReset i && s.running (inputDomain i)
theorem test_EventMatrix_inputs : given 0x0800 w11irq = true ∧ given 0x0908 w11nmi = true ∧
    (given 0x0A00 w11lane = true ∧ w11lane.bound 0 = true ∧ w11lane.get (R.LNC_Bb_MAP_TRIG_KIND 0) = 3 ∧ w11lane.laneNo 0 false = 0 ∧
      w11lane.ownerInReset (w11lane.bindingOwner 0) = false ∧ (w11lane.bnd 0).wait = none ∧ w11lane.mergedTrig 0 3 = false ∧ w11lane.lanesOf 0 = [0] ∧ (w11lane.laneOf 0).act = none ∧
      w11lane.on (R.LNC_Ln_STATUS_HALTED 0) = false) ∧
    (given 0x0A10 w11arm = true ∧ (w11arm.fch 0).armed = none ∧ w11arm.on (R.FCV_CHn_TRIG_EVT_EN 0) = true ∧ w11arm.get (R.FCV_CHn_TRIG_MODE 0) = 1) ∧
    (given 0x0A28 w11scan = true ∧ (w11scan.conv 0).mode = 2 ∧ (w11scan.conv 0).event = none ∧ w11scan.scanRuns 0 = true ∧ w11scan.on (R.SCV_Ck_STATUS_BUSY 0) = false) ∧
    (given 0x0A28 w11busy = true ∧ w11busy.on (R.SCV_Ck_STATUS_BUSY 0) = true) ∧ given 0x0A30 w11trip = true ∧
    (given 0x0A50 w11probe = true ∧ w11probe.get (R.POS_Pn_CFG_PRB_SRC 0) = 3 ∧ w11probe.on (R.POS_Pn_PRB_CTRL_FULL 0) = false) ∧ (given 0x0A60 w11dma = true ∧ (w11dma.dmaCh 0).desc = none) ∧
    (given 0x0A80 w11go = true ∧ w11go.on (R.FSE_Pn_STATUS_GATED 0) = true) ∧ given 0x0A88 w11eth = true ∧ given 0x0A90 w11pin = true := by decide +kernel

/-! ### Feeder ports and sessions -/

/-- Feeder port 0 of partition 0, whose bank 0 holds a descriptor at its start with FLAGS `flags` and CTX `ctx` for a frame of `len` bytes. -/
def w12desc (flags ctx len : Nat) (s : State) : State :=
  s.poke 0x10000000 (leBytes 4 0x10000100 ++ leBytes 2 len ++ leBytes 2 flags ++ leBytes 4 ctx)
/-- The port is enabled and its ring of four holds one descriptor. -/
def w12port : State := (part0 [1792, 3584] (gates [23, 25, 92])).each [(R.PART_Pn_SRAM_BANKS 0, 1), (R.FSE_Pn_CTRL_ENABLE 0, 1), (R.FSE_Pn_CTRL_RX_EN 0, 1),
  (R.FSE_Pn_STATUS_RATE_OK 0, 1), (R.FSE_Pn_TXSIZE_SIZE 0, 4), (R.FSE_Pn_TXRING_TXTAIL 0, 1), (R.FSE_Pn_TXBASE_BASE 0, 0x800000)] fun p s => s.put p.1 p.2
def w12 : State := w12desc 0 0xFFFFFFFF 5 w12port
/-- The same with an acknowledgement asked for and a context of the partition, 0. -/
def w12owned : State := (w12desc 2 0 1280 w12port).poke 0x2000000C [1#8, 0#8]
/-- The same secured under a valid key. -/
def w12secure : State := ((w12desc 1 0 5 w12port).put (R.SES_Pp_KEYk_CTRL_VALID 0 0) 1).poke 0x2000000C [1#8, 0#8]
def w12slow : State := w12.put (R.FSE_Pn_STATUS_RATE_OK 0) 0
def w12bad : State := w12desc 256 0xFFFFFFFF 5 w12port
def w12short : State := w12desc 0 0xFFFFFFFF 4 w12port
/-- A gated descriptor. -/
def w12gated : State := w12desc 16 0xFFFFFFFF 5 w12port
/-- Acknowledgements are due; a frame or an acknowledgement is on the air. -/
def w12acks : State := w12.setPort 0 { acks := 2 }
def w12acks0 : State := w12slow.setPort 0 { acks := 1 }
def w12tx : State := w12.setPort 0 { tx := some ⟨false, 0#64, [1#8], 0, 0, false⟩, tries := 1 }
/-- The last sample has passed, or is still to come. -/
def txOf (at0 : Time) : FseTx := ⟨false, at0, [1#8], 0, 0, false⟩
def w12past : State := { w12.setPort 0 { tx := some (txOf 0#64), tries := 1 } with now := (txOf 0#64).lastSample false }
def soonTx : FseTx := txOf (1#64 - (txOf 0#64).lastSample false)
def w12ahead : State := w12.setPort 0 { tx := some soonTx, tries := 1 }
/-- A tone-map request is to be answered. -/
def w12reply (s : State) : State := s.setPort 0 { answers := [(.short 1#16 2#16, 1, 2)] }
def w12ack : State := w12.setPort 0 { tx := some ⟨true, 0#64, [1#8], 0, 0, false⟩ }
/-- The head waits for an acknowledgement; its status waits for write-back, in a view or not. -/
def w12wait : State := w12.setPort 0 { wait := true, tries := 1 }
def w12over : State := w12.setPort 0 { wait := true, tries := 8 }
def w12done : State := w12.setPort 0 { result := some 3, tries := 1 }
def w12lost : State := w12done.put (R.PART_Pn_SRAM_BANKS 0) 2
/-- A frame from the air, and one that fills the buffer. -/
def airFrame : AirFrame := ⟨true, .broadcast, .ext 7#64, false, 0, 0, 0, 0#32, true, false, none, [1#8], [2#8, 3#8], 9#8, 0, []⟩
def w12full : State := w12.setPort 0 { buf := [({ airFrame with payload := List.replicate 65534 0#8 }, 0#64)] }

theorem reached_self (s : State) (x : Time) : ({ s with now := x } : State).reached x = true := by simp [State.reached]
theorem test_Feeder_samples : (w12past.portRuns 0 = true ∧ w12past.on (R.FSE_Pn_IMAGE_BAND 0) = false ∧ (w12past.port 0).tx = some (txOf 0#64) ∧
      w12past.reached ((txOf 0#64).lastSample false) = true) ∧
    (w12ahead.portRuns 0 = true ∧ w12ahead.on (R.FSE_Pn_IMAGE_BAND 0) = false ∧ (w12ahead.port 0).tx = some soonTx ∧ w12ahead.reached (soonTx.lastSample false) = false) := by
  have h : soonTx.lastSample false = 1#64 := by simp [soonTx, FseTx.lastSample, txOf]
  rw [h]
  exact ⟨⟨by decide +kernel, by decide +kernel, by decide +kernel, reached_self _ _⟩, by decide +kernel, by decide +kernel, rfl, by decide +kernel⟩
theorem test_Feeder_start : (w12.portRuns 0 = true ∧ w12.on (R.FSE_Pn_CTRL_ENABLE 0) = true ∧ w12.on (R.FSE_Pn_LOOP_MUTE 0) = false ∧ (w12.port 0).tx = none ∧ (w12.port 0).answers = []) ∧
    (((w12reply w12).port 0).answers = [(.short 1#16 2#16, 1, 2)] ∧ ((w12reply w12).port 0).acks = 0 ∧ (w12reply w12slow).on (R.FSE_Pn_STATUS_RATE_OK 0) = false) ∧
    acc w12 (R.FSE_Pn_TXRING 0) = true ∧ (w12acks.port 0).acks = 2 ∧ w12acks.on (R.FSE_Pn_STATUS_RATE_OK 0) = true ∧ (w12acks0.port 0).acks = 1 ∧
    w12slow.on (R.FSE_Pn_STATUS_RATE_OK 0) = false ∧
    (w12.fsePosted 0 = true ∧ (w12.port 0).acks = 0 ∧ (w12.port 0).result = none ∧ (w12.port 0).wait = false ∧ (w12.port 0).tries = 0) ∧
    txDesc (w12.bytesAt (w12.fseDesc 0) 32) = ⟨0x10000100, 5, 0, 0xFFFFFFFF, false⟩ ∧
    txDesc (w12owned.bytesAt (w12owned.fseDesc 0) 32) = ⟨0x10000100, 1280, 2, 0, false⟩ ∧ (ctxFlag (w12owned.ctx 0) 0 = true ∧ ctxOwner (w12owned.ctx 0) = w12owned.owner 7 0) ∧
    txDesc (w12secure.bytesAt (w12secure.fseDesc 0) 32) = ⟨0x10000100, 5, 1, 0, false⟩ ∧ ctxFlag (w12secure.ctx 0) 0 = true ∧
    w12secure.on (R.SES_Pp_KEYk_CTRL_VALID 0 0) = true ∧ w12secure.get (R.SES_Pp_KEYk_TXFC_TXFC 0 0) ≠ 2 ^ 32 - 1 ∧
    (txDesc (w12bad.bytesAt (w12bad.fseDesc 0) 32)).resvd = true ∧ (txDesc (w12short.bytesAt (w12short.fseDesc 0) 32)).len < 5 ∧
    (txDesc (w12gated.bytesAt (w12gated.fseDesc 0) 32)).flags.testBit 4 = true := by decide +kernel
theorem test_Feeder_frame : w12.reach .feeder 0 false .read 0x10000100 5 = true ∧
    w12.memEgress (w12.fseWho 0) 0x10000100 5 = (some (List.replicate 5 0#8), w12) := by decide +kernel
theorem test_Feeder_end : (w12tx.port 0).tx.isSome = true ∧ (w12tx.port 0).tx.any (·.ack) = false ∧ (w12ack.port 0).tx.any (·.ack) = true ∧ (w12wait.port 0).wait = true ∧
    (w12wait.port 0).tries ≤ w12wait.get (R.FSE_Pn_CSMA_MAX_RETRIES 0) ∧ ¬(w12over.port 0).tries ≤ w12over.get (R.FSE_Pn_CSMA_MAX_RETRIES 0) ∧
    (w12wait.port 0).result = none ∧ (w12done.port 0).result = some 3 ∧ w12done.reach .feeder (w12done.owner 7 0) false .write (w12done.fseDesc 0) 32 = true ∧
    w12lost.reach .feeder (w12lost.owner 7 0) false .write (w12lost.fseDesc 0) 32 = false ∧
    (w12.on (R.FSE_Pn_CTRL_RX_EN 0) = true ∧ w12.running 25 = true ∧ w12.domReset 25 = false ∧ w12.get (R.FSE_Pn_IMAGE_RX_FC 0) / 8 = 0 ∧ (w12.port 0).quiet = none) ∧
    (airFrame.fcs = true ∧ w12.fseAccepts 0 airFrame.dest = true ∧ w12.fseAccepts 0 (.short 1#16 2#16) = false) ∧
    acc w12tx (R.FSE_Pn_LOOP 0) = true ∧ acc w12tx (R.FSE_Pn_CTRL 0) = true := by decide +kernel
theorem test_Feeder_full : 65536 < ((w12full.port 0).buf.map fun e => e.1.header.length + e.1.payload.length).sum + frameSize airFrame := by
  have g : ∀ n, (([({ airFrame with payload := List.replicate n 0#8 }, 0#64)] : List (AirFrame × BitVec 64)).map fun e => e.1.header.length + e.1.payload.length).sum = 1 + n := by
    intro n
    simp only [List.map, List.sum_cons, List.sum_nil, List.length_replicate, airFrame, List.length_cons, List.length_nil, Nat.add_zero, Nat.zero_add]
  have h : (w12full.port 0).buf = [({ airFrame with payload := List.replicate 65534 0#8 }, 0#64)] := rfl
  have k : frameSize airFrame = 3 := by decide
  rw [h, g, k]
  omega

/-! ### Sessions -/

/-- Partition 0 with its session window and feeder port 0; its quota is four contexts. -/
def w13 : State := (part0 [1792] (gates [23, 24, 25, 92])).put (R.SES_Pp_QUOTA_QUOTA 0) 4
/-- Context `n` of partition `p` with extended identifier `id`, in the index. -/
def w13ctx (n p id : Nat) (s : State) : State :=
  let k : SesKey := ⟨0, p, id⟩
  (s.poke (ctxAddr n) (leBytes 8 id ++ leBytes 4 0 ++ [1#8, BitVec.ofNat 8 p])).poke (entryAddr k.h1 0) (leBytes 4 (k.entry n))
/-- The window names context 1, live for the partition, of another one, or no context. -/
def w13live : State := (w13ctx 1 0 7 w13).put (R.SES_Pp_CTX_CTX 0) 1
def w13other : State := (w13ctx 1 1 7 w13).put (R.SES_Pp_CTX_CTX 0) 1
/-- Data with a reserved tone map; an identifier too long for a short key; no contexts left; the key of CREATE is taken. -/
def w13res : State := w13live.put (R.SES_Pp_DATAi_DATA 0 3) 0x500000
def w13long : State := w13.put (R.SES_Pp_ID_HI_ID_HI 0) 1
def w13quota : State := w13.put (R.SES_Pp_QUOTA_QUOTA 0) 0
def w13dup : State := w13ctx 1 0 0 w13
/-- A command is in the window. -/
def w13busy : State := { w13.put (R.SES_Pp_CSTAT_BUSY 0) 1 with ses := { busy := [(0, ⟨0, some 5, some [1#8, 2#8]⟩)] } }
/-- A frame waits, from a known source or not, or secured in a way the engine rejects. -/
def w13frame : State := w13.setPort 0 { buf := [(airFrame, 8#64)] }
def w13known : State := w13live.setPort 0 { buf := [(airFrame, 8#64)] }
def w13rej : State := w13live.setPort 0 { buf := [({ airFrame with secured := true }, 8#64)] }

/-- A line of the store that the window's context, or the index of a frame's key, needs is uncorrectable. -/
def w13hurt : State := w13live.setMark (ctxAddr 1) { double := true }
def w13lost : State := w13frame.setMark (entryAddr (frameKey airFrame 0).h1 0) { double := true }
/-- Does the engine read what a command needs, with no error and no correction? -/
def soundFor (s : State) (op kind mask : Nat) : Bool := let z := s.inc R.SES_LOOKUPS_COUNT; decide (z.sesReads 0 (z.sesTouches 0 op kind mask) = (true, z))
theorem test_Sessions_reads : (∀ s ∈ [w13, w13long, w13res, w13quota, w13dup], ∀ op ∈ [1, 2], soundFor s op 0 0 = true) ∧
    (∀ s ∈ [w13, w13live, w13other, w13res], ∀ op ∈ [3, 4, 5, 6, 7], ∀ m ∈ [0, 1, 8, 0x80], soundFor s op 0 m = true) ∧
    (let z := w13hurt.inc R.SES_LOOKUPS_COUNT; (z.sesReads 0 (z.sesTouches 0 3 0 0)).1 = false) ∧ acc w13hurt (R.SES_Pp_CMD 0) = true ∧
    (acc w13busy (R.SES_Pp_CMD 0) = true ∧ w13busy.on (R.SES_Pp_CSTAT_BUSY 0) = true ∧ w13busy.sesRuns = true) ∧
    (∀ s ∈ [w13frame, w13known], let u := (s.setPort 0 { s.port 0 with buf := [] }).inc R.SES_LOOKUPS_COUNT
      s.sesRuns = true ∧ u.sesReads 0 (u.lookupReads (frameKey airFrame 0)) = (true, u)) ∧
    (let u := (w13lost.setPort 0 { w13lost.port 0 with buf := [] }).inc R.SES_LOOKUPS_COUNT; (u.sesReads 0 (u.lookupReads (frameKey airFrame 0))).1 = false) ∧
    (w13frame.put (R.CLK_Dd_STATUS_RUNNING 24) 0).sesRuns = false := by decide +kernel
theorem test_Sessions_commands : acc w13 (R.SES_Pp_CMD 0) = true ∧ w13.on (R.SES_Pp_CSTAT_BUSY 0) = false ∧
    w13.get (R.SES_Pp_ID_LO_ID_LO 0) + 2 ^ 32 * w13.get (R.SES_Pp_ID_HI_ID_HI 0) < 2 ^ 32 ∧
    2 ^ 32 ≤ w13long.get (R.SES_Pp_ID_LO_ID_LO 0) + 2 ^ 32 * w13long.get (R.SES_Pp_ID_HI_ID_HI 0) ∧
    ctxReserved (w13res.sesData 0) = true ∧ ctxReserved (w13.sesData 0) = false ∧
    w13quota.get (R.SES_Pp_QUOTA_QUOTA 0) ≤ w13quota.get (R.SES_Pp_USED_USED 0) ∧ w13.get (R.SES_Pp_USED_USED 0) < w13.get (R.SES_Pp_QUOTA_QUOTA 0) ∧
    w13.ses.head = some (0, { fresh := 1 }) ∧ w13busy.on (R.SES_Pp_CSTAT_BUSY 0) = true := by decide +kernel
/-- The context that CREATE makes of the window's data, and the store with it. -/
def made (s : State) : List Byte := let d := s.sesData 0; ctxSet (ctxSetFlag d 0 true) 13 1 (ctxField d 13 1 / 8 * 8)
def madeIn (s : State) : State := ({ s with ses := { fresh := 1 } } : State).putCtx 0 0 (made s)
theorem test_Sessions_create : ctxFlag (made w13) 1 = false ∧ (madeIn w13).lookup (ctxExtKey (made w13)) = none ∧
    ((madeIn w13).entry (ctxExtKey (made w13)).h1 0).testBit 31 = false ∧ ((madeIn w13dup).lookup (ctxExtKey (made w13dup))).isSome = true := by decide +kernel
theorem test_Sessions_contexts : ctxFlag (w13.ctx 0) 0 = false ∧ (ctxFlag (w13other.ctx 1) 0 = true ∧ ctxOwner (w13other.ctx 1) = 1) ∧
    (ctxFlag (w13live.ctx 1) 0 = true ∧ ctxOwner (w13live.ctx 1) = 0 ∧ w13live.get (R.SES_Pp_CTX_CTX 0) = 1) ∧
    4 < ctxField (w13res.sesData 0) 14 1 / 16 % 8 ∧ ctxField (w13live.sesData 0) 14 1 / 16 % 8 ≤ 4 ∧ w13live.get (R.SES_Pp_DATAi_DATA 0 2) = 0 := by decide +kernel
theorem test_Sessions_frames : (w13frame.port 0).buf = [(airFrame, 8#64)] ∧ w13frame.lookup (frameKey airFrame (w13frame.owner 7 0)) = none ∧
    (w13known.lookup (frameKey airFrame (w13known.owner 7 0)) = some 1 ∧ (w13known.sesCheck 0 (w13known.ctx 1) airFrame).toOption = some (0, [2#8, 3#8])) ∧
    (w13rej.lookup (frameKey { airFrame with secured := true } (w13rej.owner 7 0)) = some 1 ∧
      (w13rej.sesCheck 0 (w13rej.ctx 1) { airFrame with secured := true }).toOption = none) ∧
    acc w13 (R.SES_Pp_KEYk_Wj 0 0 3) = true ∧ acc w13 (R.SES_Pp_KEYk_TXFC 0 0) = true := by decide +kernel

/-! ### Ethernet ports and PTP time -/

/-- Port 0 runs with its link up. -/
def w14 : State := { (gates [86, 87]).put (R.ETH_Pp_STATUS_LINK_UP 0) 1 with now := 5000#64 }
/-- A frame with its FCS. -/
def framed8 (f : List Byte) : List Byte := f ++ fcsOf f
/-- A frame of the least size to address 0, ring 8's at reset. -/
def plain60 : List Byte := List.replicate 60 0#8
/-- The same to another address, and one tagged with VLAN 5. -/
def strange60 : List Byte := 2#8 :: List.replicate 59 0#8
def tagged60 : List Byte := List.replicate 12 0#8 ++ [0x81#8, 0#8, 0#8, 5#8] ++ List.replicate 44 0#8
/-- Ring 0 is VLAN 5; ring 8 has posted a buffer. -/
def w14vlan : State := { w14 with vlan := [(0, 5)] }
def w14room : State := ((w14.poke 0x10000000 (leBytes 4 0x10000100)).each [(R.ETH_Pp_Rr_CTRL_RX_EN 0 8, 1), (R.ETH_Pp_Rr_SIZE_RXSIZE 0 8, 4), (R.ETH_Pp_Rr_RXPTR_TAIL 0 8, 1),
  (R.ETH_Pp_Rr_RXBASE_BASE 0 8, 0x1000000)] fun p s => s.put p.1 p.2)
/-- Ring 8 has a head frame; a gate list is in force. -/
def w14head : State := w14.setEth 0 { heads := [(8, ⟨0, plain60⟩)] }
def w14gates : State := ({ w14 with now := 0#64 }.put (R.ETH_Pp_GCL_CTRL_GCL_EN 0) 1).setEth 0 { heads := [(8, ⟨0, plain60⟩)], oper := [(1, 100000), (0, 1000)] }
/-- A frame is on the wire, to its end or past it. -/
def w14wire : State := { w14 with now := 0#64 }.setEth 0 { wire := some ⟨some 8, 0, 5#64, 9#64, [1#8]⟩ }
def w14sent : State := { (gates [86]).setEth 0 { wire := some ⟨some 8, 0, 5#64, 9#64, [1#8]⟩ } with now := 10#64 }
/-- An admin list of one entry is pending, and qualifies. -/
def w14pend : State := w14.put (R.ETH_Pp_GCL_CTRL_PENDING 0) 1
def w14due : State := { ((w14pend.put (R.ETH_Pp_GCL_CTRL_ADMIN_LEN 0) 1).put (R.ETH_Pp_GCLk_INTERVAL 0 0) 1000).setEth 0 { changed := some 0#64 } with now := 64000#64 }

/-- A frame waits in the port's buffer. -/
def w14buf : State := w14room.setEth 0 { buf := [⟨8, plain60, 7#64⟩] }
theorem test_Ethernet_reception : (w14.reached 0#64 = true ∧ 128 * 68 ≤ 5 * w14.since 0#64 ∧ (w14.ethPort 0).buf = [] ∧ (w14buf.ethPort 0).buf = [⟨8, plain60, 7#64⟩]) ∧ (w14.ethRuns 0 false = true ∧ w14.on (R.ETH_Pp_STATUS_LINK_UP 0) = true) ∧
    (List.replicate 64 1#8).drop 60 ≠ fcsOf (List.replicate 60 1#8) ∧ (framed8 []).drop ((framed8 []).length - 4) = fcsOf ((framed8 []).take ((framed8 []).length - 4)) ∧
    ((framed8 plain60).drop 60 = fcsOf plain60 ∧ (framed8 plain60).take 60 = plain60 ∧ (framed8 plain60).length = 64 ∧ tagged plain60 = false) ∧
    ((framed8 tagged60).drop 60 = fcsOf tagged60 ∧ tagged tagged60 = true ∧ be16 tagged60 14 % 4096 = 5 ∧ ((List.range 8).all fun k => w14.ethVlan 0 k != 5) = true) ∧
    ((List.range 8).find? fun k => w14vlan.ethVlan 0 k == 5) = some 0 ∧ w14.ethAccepts 0 8 strange60 = false ∧ w14.ethAccepts 0 8 plain60 = true ∧
    w14.on (R.ETH_Pp_Rr_CTRL_RX_EN 0 8) = false ∧ ((framed8 strange60).drop 60 = fcsOf strange60 ∧ tagged strange60 = false) ∧
    w14vlan.ethAccepts 0 0 tagged60 = true := by decide +kernel
/-- The engine of port 0 for ring 8. -/
def ring8 : Who := ethWho 0 8
theorem test_Ethernet_store :
    (w14room.on (R.ETH_Pp_Rr_CTRL_RX_EN 0 8) = true ∧ w14room.get (R.ETH_Pp_Rr_SIZE_RXSIZE 0 8) = 4 ∧ w14room.get (R.ETH_Pp_Rr_RXPTR_HEAD 0 8) ≠ w14room.get (R.ETH_Pp_Rr_RXPTR_TAIL 0 8)) ∧
    w14room.get (R.ETH_Pp_Rr_RXBASE_BASE 0 8) * 16 + 16 * w14room.get (R.ETH_Pp_Rr_RXPTR_HEAD 0 8) = 0x10000000 ∧
    w14room.reach ring8.req ring8.view false .write 0x10000000 16 = true ∧ w14room.memRead ring8 0x10000000 4 = (some (leBytes 4 0x10000100), w14room) ∧
    leNat (leBytes 4 0x10000100) = 0x10000100 ∧ w14room.reach ring8.req ring8.view false .write 0x10000100 60 = true ∧ (w14room.memWrite ring8 0x10000100 plain60).1 = true := by
  decide +kernel
theorem test_Ethernet_transmission : (w14head.ethRuns 0 true = true ∧ (w14head.ethPort 0).wire = none ∧
      ((List.range 8).all fun k => ((w14head.ethPort 0).heads.find? fun e => e.1 == k).isNone && !w14head.ethRing 0 k) = true) ∧
    (((w14head.ethPort 0).heads.find? fun e => e.1 == 8) = some (8, ⟨0, plain60⟩) ∧ w14head.noWindow 0 ⟨0, plain60⟩ = false) ∧
    (⟨0, plain60⟩ : EthHead).queue = 0 ∧ (w14head.ethPort 0).nextRing 0 = some 8 ∧ ((List.range 7).all fun k => ((w14head.ethPort 0).nextRing (k + 1)).isNone) = true ∧
    w14head.on (R.ETH_Pp_GCL_CTRL_GCL_EN 0) = false ∧ (w14gates.on (R.ETH_Pp_GCL_CTRL_GCL_EN 0) = true ∧ w14gates.noWindow 0 ⟨0, plain60⟩ = false ∧
      w14gates.gclOpen 0 0 = some 3200000 ∧ wireTime5 (⟨0, plain60⟩ : EthHead).size ≤ 5 * 3200000) ∧
    (((List.range 8).all fun k => ((w14.ethPort 0).nextRing k).isNone) = true ∧ (w14.ethPort 0).heads = [] ∧
      w14.on (R.ETH_Pp_Rr_CTRL_TX_EN 0 8) = false) ∧
    ((w14wire.ethPort 0).wire.map (·.done) = some 9#64 ∧ w14wire.reached 9#64 = false) ∧
    ((w14sent.ethPort 0).wire.map (·.ring) = some (some 8) ∧ w14sent.reached 9#64 = true ∧ w14sent.ethRuns 0 true = false) := by decide +kernel
theorem test_Ethernet_registers : acc w14 (R.ETH_Pp_Rr_RXPTR 0 8) = true ∧ acc w14 (R.ETH_Pp_Rr_TXPTR 0 8) = true ∧ w14.ethRing 0 8 = true ∧ w14.ethRing 0 0 = false ∧
    acc w14 (R.ETH_Pp_Rr_TXPTR 0 0) = true ∧ acc w14 (R.ETH_Pp_GCL_CTRL 0) = true ∧ w14.on (R.ETH_Pp_GCL_CTRL_PENDING 0) = false ∧
    w14pend.on (R.ETH_Pp_GCL_CTRL_PENDING 0) = true ∧ w14due.gclQualifies 0 = true ∧ w14.gclQualifies 0 = false ∧
    acc w14 R.ETH_TIME_RATE = true ∧ acc w14 R.ETH_PTP_OFS_HI = true ∧ acc w14 R.ETH_PTP_SEC_HI = true := by decide +kernel

/-! ### Host and service ports -/

/-- Function 0, of partition 0 with bank 0 and pins 3 and 4, is present on link 0 and may send; function 1, of the platform, is present. -/
def w15 : State := (part0 [13 * 256 + 3, 13 * 256 + 4] (gates [23, 90, 91, 92, 93, 94, 95])).each [(R.PCIE_Fn_STATUS_PRESENT 0, 1), (R.PCIE_Fn_STATUS_MEM_EN 0, 1), (R.PCIE_Fn_STATUS_BME 0, 1),
  (R.PCIE_Fn_STATUS_MSIX_EN 0, 1), (R.PART_Pn_SRAM_BANKS 0, 1), (R.PCIE_Fn_STATUS_PRESENT 1, 1), (R.PCIE_Fn_STATUS_MEM_EN 1, 1)] fun p s => s.put p.1 p.2
/-- Vector 0 is unmasked and wanted. -/
def w15want : State := w15.setFn 0 { want := 1, table := [(3, 0#32)] }
/-- Vector 0 is masked and pending. -/
def w15mask : State := w15.setFn 0 { pend := 1 }
/-- The function holds lock 9. -/
def w15lock : State := (w15.put (R.PART_LOCKk_STAT_HELD 9) 1).put (R.PART_LOCKk_STAT_OWNER 9) 16
/-- PERST_N is high. -/
def w15perst : State := { w15 with chip := { w15.chip with perstN := true } }
/-- Its partition is in reset. -/
def w15reset : State := w15.put (R.PART_Pn_STATE_STATE 0) 2

theorem test_HostPorts : acc w15 (R.PCIE_Fn_VREQ_LO 0) = true ∧ acc w15 (R.PCIE_Fn_VREQ_HI 0) = true ∧ w15.on (R.PCIE_Fn_STATUS_PRESENT 2) = false ∧
    acc w15 (R.PCIE_Fn_VREQ_LO 2) = true ∧ (w15want.fn 0).want.testBit 0 = true ∧ w15want.maySend 0 0 = true ∧ ((w15mask.fn 0).pend.testBit 0 = true ∧ w15mask.maySend 0 0 = false) ∧
    (w15lock.on (R.PART_LOCKk_STAT_HELD 9) = true ∧ w15lock.get (R.PART_LOCKk_STAT_OWNER 9) = 16) ∧
    (w15.onLink 0 0 = true ∧ w15.running 90 = true ∧ w15.running 91 = true ∧ w15.domReset 90 = false ∧ w15.domReset 91 = false) ∧
    (w15perst.chip.perstN = true ∧ w15perst.dead = false) ∧ (w15.fn 0).buf = [] := by decide +kernel
theorem test_HostPorts_access : (w15.dead = false ∧ w15.fnOwner 0 = 0 ∧ w15.ownerInReset 0 = false ∧ barAddr 0 16 = some 0x10000010) ∧
    w15.reach (.pcie 0) 0 false .write 0x10000010 8 = true ∧ w15.reach (.pcie 0) 0 false .read 0x10000010 8 = true ∧ isReg 0x10000010 = false ∧
    (w15.memEgress ⟨.pcie 0, 0⟩ 0x10000010 8).1 = some (List.replicate 8 0#8) ∧ isReg 0x403EC00C = true ∧
    (barAddr 2 0x3EC00C = some 0x403EC00C ∧ w15.reach (.pcie 0) 0 false .write 0x403EC00C 4 = true) ∧ w15reset.ownerInReset 0 = true ∧
    (barAddr 0 0xC0000 = some 0x100C0000 ∧ w15.reach (.pcie 0) 0 false .read 0x100C0000 4 = false) ∧ w15.fnOwner 1 = platform := by decide +kernel

/-- The service ports run: a word, and STATUS, of a controller. -/
def serial (c : Nat) (l : List (Nat × Word)) (x : SerPort) : State := ((({ w15 with own := [2304, 2560, 2816, 3072].map fun k => (k, 0) } : State).each l fun e s => s.wr (R.SER c e.1) e.2)).setSer c x
/-- CAN 0 runs: buffer 0 receives, or is to be sent from; it is bus-off. -/
def w15can : State := serial 0 [(8, 1#32)] {}
def w15send : State := serial 0 [(8, 1#32), (0x100, 0x80000000#32), (0x108, 0x80000000#32)] { tec := 249 }
def w15off : State := serial 0 [(8, 1#32), (12, 0x20#32)] { tec := 256 }
/-- UART 0 with parity, its FIFO full or not. -/
def w15uart : State := serial 2 [(0, 5#32)] {}
def w15uartFull : State := serial 2 [(0, 5#32)] { rx := List.replicate 64 1 }
/-- SPI 0 as a controller with a word, as a target without one, and with its FIFO full. -/
def w15spi : State := serial 6 [] { tx := [9] }
def w15target : State := serial 6 [(0, 1#32)] {}
def w15spiFull : State := serial 6 [] { tx := [9], rx := List.replicate 64 1 }
/-- I²C 0 is busy, or listens at address 0x55. -/
def w15i2c : State := serial 10 [(12, 1#32)] {}
def w15listen : State := serial 10 [(0, 0x550001#32)] {}
/-- Input event 1 names pin 3, either edge; output event 1 is of pin 3. -/
def w15gpio : State := (w15.wr (R.GPIO_EVk 1) 0x703#32).wr (R.GPIO_OEVk 1) 0x303#32

theorem test_ServicePorts : (w15can.serRuns 0 = true ∧ (w15can.serReg 0 8).testBit 0 = true ∧ (w15can.rd (R.SER_STATUS 0)).getLsbD 5 = false ∧
      (List.range 32).find? (fun y => w15can.canMatch 0 y false 0) = some 0) ∧
    ((w15send.serReg 0 8).testBit 1 = false ∧ (w15send.rd (R.CAN_BUFm 0 0 0)).getLsbD 31 = true ∧ (w15send.rd (R.CAN_BUFm 0 0 2)).getLsbD 31 = true ∧
      (w15send.serPort 0).tec = 249) ∧ (w15off.serRuns 0 = true ∧ (w15off.rd (R.SER_STATUS 0)).getLsbD 5 = true) ∧
    (w15uart.serRuns 2 = true ∧ (w15uart.serReg 2 0).testBit 0 = true ∧ w15uart.serReg 2 0 / 4 % 4 ≠ 0 ∧ 64 ≤ (w15uartFull.serPort 2).rx.length) ∧
    (w15spi.serRuns 6 = true ∧ (w15spi.serPort 6).tx ≠ [] ∧ (w15spi.serPort 6).rx.length < 64 ∧ w15target.serRuns 6 = true ∧ (w15target.serReg 6 0).testBit 0 = true ∧ (w15target.serPort 6).tx = []) ∧
    64 ≤ (w15spiFull.serPort 6).rx.length ∧ (w15i2c.serRuns 10 = true ∧ (w15i2c.rd (R.SER_STATUS 10)).getLsbD 0 = true) ∧
    (w15listen.serRuns 10 = true ∧ (w15listen.serReg 10 0).testBit 0 = true ∧ (w15listen.serReg 10 0).testBit 8 = false ∧ w15listen.serReg 10 0 / 65536 % 128 = 0x55) := by decide +kernel
theorem test_GeneralPurposeEvents : (((w15gpio.rd (R.GPIO_EVk 1)).getLsbD 10 && (w15gpio.rd (R.GPIO_EVk 1)).getLsbD 8) = true ∧ w15gpio.line 745 = {} ∧
      w15gpio.ownerInReset (w15gpio.lineOwner 745) = false) ∧
    (w15gpio.rd (R.GPIO_EVk 2)).getLsbD 10 = false ∧ (acc w15gpio (R.GPIO_EVk 1) = true ∧ w15gpio.viewOf sv = platform) ∧
    (w15gpio.viewOf (.core 0) = 0 ∧ acc w15gpio (R.GPIO_OEVk 1) .write (.core 0) = true ∧ acc w15gpio (R.GPIO_EVk 2) .write (.core 0) = true ∧ w15gpio.owner 13 4 = 0 ∧ w15gpio.owner 13 3 = 0 ∧
      w15gpio.owner 13 5 ≠ 0 ∧ gpioOff false (w15gpio.rd (R.GPIO_EVk 2)).toNat = true ∧ gpioOff true (w15gpio.rd (R.GPIO_OEVk 1)).toNat = false) := by decide +kernel

/-! ### Locks and partition resets -/

/-- Partitions 0 and 1 run with cores 0 and 1; lock 9 is of partition 0. -/
def w16 : State := ((part0 [] (gates [23, 92, 93])).each [(R.PART_Pn_CFG_PRESENT 1, 1), (R.PART_Pn_CFG_CORES 1, 2), (R.PART_Pn_STATE_STATE 1, 1), (R.PART_Pn_CFG_PCIE_FN 1, 1),
  (R.PART_Pn_LOCKS_FIRST 0, 8), (R.PART_Pn_LOCKS_COUNT 0, 4), (R.PART_Pn_SRAM_BANKS 0, 1), (R.PART_Pn_BOOT_BOOT_ADDR 0, 0x10000000)] fun p s => s.put p.1 p.2).setCpuAt 0
  { Cpu.init 0 with started := true }
/-- Core 0 holds lock 9, with a lease or without. -/
def w16held : State := { (w16.put (R.PART_LOCKk_STAT_HELD 9) 1).put (R.PART_LOCKk_STAT_OWNER 9) 0 with leases := [(9, ⟨0#64, 100, false, 0#64, none⟩)] }
def w16late : State := { w16held with now := 3200000#64 }
/-- Core 1 holds lock 9 of partition 0. -/
def w16other : State := { (w16.put (R.PART_LOCKk_STAT_HELD 9) 1).put (R.PART_LOCKk_STAT_OWNER 9) 1 with leases := [(9, ⟨0#64, 100, false, 0#64, none⟩)] }
/-- Does the lease of lock 9 still run, with a cycle of the peripheral bus to spare? -/
def leased9 (s : State) : Bool := (s.lease 9).any fun e => decide (s.since e.start < e.len * e.unit + ns 10)
/-- The lease of lock 9 ran out a cycle ago. -/
def w16out : State := { w16held with now := 3200320#64 }
/-- Partition 0 has a reload in SWITCHING, is in reset, waits for START or is HELD. -/
def w16switch : State := w16.put (R.SCFG_RQn_STAT_STATE 0) 3
def w16reset : State := w16.put (R.PART_Pn_STATE_STATE 0) 2
def w16wait : State := w16.put (R.PART_Pn_STATE_STATE 0) 5
def w16hold : State := w16.put (R.PART_Pn_STATE_STATE 0) 4
/-- A wipe with HOLD, and a request that ends by the reset. -/
def w16keep : State := w16reset.put (R.PART_Pn_RSTCTRL_HOLD 0) 1
def w16check : State := w16.put (R.SCFG_RQn_STAT_STATE 0) 1

theorem test_Locks : (acc w16 (R.PART_LOCKk_ACQ 9) .read (.core 0) = true ∧ w16.on (R.PART_LOCKk_STAT_HELD 9) = false) ∧
    (acc w16held (R.PART_LOCKk_ACQ 9) .read (.core 0) = true ∧ w16held.on (R.PART_LOCKk_STAT_HELD 9) = true ∧ w16held.get (R.PART_LOCKk_STAT_OWNER 9) = w16held.lockCode (.core 0)) ∧
    (w16other.on (R.PART_LOCKk_STAT_HELD 9) = true ∧ w16other.get (R.PART_LOCKk_STAT_OWNER 9) ≠ w16other.lockCode (.core 0)) ∧
    (acc w16held (R.PART_LOCKk_CTRL 9) .write (.core 0) = true ∧ canLock (.core 0) = true) ∧
    (acc w16other (R.PART_LOCKk_CTRL 9) .write (.core 0) = true ∧ w16other.viewOf (.core 0) = 0) ∧ (acc w16held (R.PART_LOCKk_CTRL 9) = true ∧ w16held.viewOf sv = platform) ∧
    w16late.leaseLeft 9 = 0 ∧ w16held.leaseLeft 9 = 100 ∧ leased9 w16held = true ∧ leased9 w16late = true ∧ leased9 w16other = true ∧
    (leased9 w16out = false ∧ acc w16out (R.PART_LOCKk_CTRL 9) .write (.core 0) = true ∧ w16out.on (R.PART_LOCKk_STAT_HELD 9) = true) ∧
    ((w16held.lease 9).all fun e => w16held.sameCycle e.got) = true ∧ ((w16late.lease 9).all fun e => !w16late.sameCycle e.got) = true := by decide +kernel
theorem test_PartitionResets : (w16.partState 0 = 1 ∧ w16.get (R.SCFG_RQn_STAT_STATE 0) = 0 ∧ w16.coreOwner 0 = 0 ∧ w16held.lockHolder 0 0 = true ∧ w16check.get (R.SCFG_RQn_STAT_STATE 0) = 1) ∧
    w16reset.partState 0 = 2 ∧ w16switch.get (R.SCFG_RQn_STAT_STATE 0) = 3 ∧ acc w16 (R.PART_Pn_SELF 0) = true ∧
    (acc w16 (R.PART_Pn_SELF 0) .write (.core 0) = true ∧ w16.viewOf (.core 0) = 0 ∧ w16.reqLvl (.core 0) = 2) ∧
    (acc w16 (R.PART_Pn_SELF 0) .write (.pcie 0) = true ∧ w16.viewOf (.pcie 0) = 0) ∧ (w16wait.partState 0 = 5 ∧ 0 ∈ w16wait.coresOf 0) ∧
    acc w16 (R.PART_Pn_RSTCTRL 0) = true ∧ (w16hold.partState 0 = 4 ∧ acc w16hold (R.PART_Pn_RSTCTRL 0) = true ∧ w16hold.rd R.SUP_CMPTEST = 0#32) ∧
    (w16keep.on (R.PART_Pn_RSTCTRL_HOLD 0) = true ∧ w16keep.partState 0 = 2) ∧ w16reset.bankOwner 0 = 0 := by decide +kernel

/-! ### Memory, DMA, arbiters and register writes -/

/-- The line of 0x10000000 waits for its corrected word. -/
def w17 : State := gates [16, 21, 23, 92, 93]
def w17line : State := w17.setMark 0x10000000 { single := true, wback := true }
/-- Channel 0 in a state, with what is beside its registers, CUR at the start of bank 0. -/
def dmaAt (st : Nat) (x : DmaCh) : State := ((w17.put (R.DMA_Cn_STATUS_STATE 0) st).put (R.DMA_Cn_CUR_ADDR 0) 0x10000000).setDma 0 x
/-- Copy 64 bytes; the same on request; from a stream that is another's, or its own. -/
def copy64 : Desc := ⟨0x10000100, 0, 0x10000200, 0, 64, 0, 0⟩
def copyReq : Desc := { copy64 with ctl := 64 }
def copyStream : Desc := ⟨0, 0, 0x10000200, 0, 64, 2, 0⟩
/-- The bytes of a descriptor. -/
def descBytes (d : Desc) : List Byte := ([d.srcLo, d.srcHi, d.dstLo, d.dstHi, d.len, d.ctl, d.next].map (leBytes 4)).flatten
def w17fetch : State := (dmaAt 1 { fetch := true }).poke 0x10000000 (descBytes copy64)
def w17odd : State := w17fetch.put (R.DMA_Cn_CUR_ADDR 0) 0x10000004
def w17bad : State := dmaAt 1 { fetch := true }
def w17foreign : State := (dmaAt 1 { fetch := true }).poke 0x10000000 (descBytes copyStream)
def w17wait : State := dmaAt 2 { desc := some copyReq }
def w17dry : State := dmaAt 3 { desc := some copyStream }
def w17run : State := dmaAt 1 { desc := some copy64 }
def w17lost : State := dmaAt 1 { desc := some { copy64 with srcLo := 0x12000000 } }
def w17end : State := dmaAt 1 { desc := some copy64, moved := 64 }

theorem test_Memory : (w17line.mark 0x10000000).wback = true ∧ (w17.mark 0x10000000).wback = false ∧ acc w17 R.MEMC_INJ_CTRL = true := by decide +kernel
theorem test_Dma_states : acc w17 (R.DMA_Cn_CTRL 0) = true ∧ w17.dmaState 0 = 0 ∧ (w17end.dmaState 0 = 1 ∧ (w17end.dmaCh 0).fetch = false ∧ acc w17end (R.DMA_Cn_CTRL 0) = true) ∧
    (w17fetch.dmaState 0 = 1 ∧ (w17fetch.dmaCh 0).fetch = true ∧ acc w17fetch (R.DMA_Cn_CTRL 0) = true) ∧ (w17wait.dmaState 0 = 2 ∧ acc w17wait (R.DMA_Cn_CTRL 0) = true) ∧
    ((dmaAt 4 {}).dmaState 0 = 4 ∧ acc (dmaAt 4 {}) (R.DMA_Cn_CTRL 0) = true) ∧ acc w17 (R.DMA_Cn_REQ 0) = true ∧ (w17.dmaCh 0).desc = none ∧
    (acc w17wait (R.DMA_Cn_REQ 0) = true ∧ (w17wait.dmaCh 0).desc = some copyReq ∧ copyReq.wait = true) ∧ (w17dry.dmaState 0 = 3 ∧ (w17dry.dmaCh 0).desc = some copyStream) := by
  decide +kernel
theorem test_Dma_fetch : w17fetch.dmaRuns = true ∧ w17fetch.get (R.DMA_Cn_CUR_ADDR 0) = 0x10000000 ∧ w17odd.get (R.DMA_Cn_CUR_ADDR 0) % 32 ≠ 0 ∧ w17fetch.dmaOwner 0 = platform ∧
    w17fetch.reach (.dma 0) platform false .read 0x10000000 32 = true ∧ regionOf 0x10000000 = some (.sram 0) ∧
    ((w17fetch.memEgress ⟨.dma 0, platform⟩ 0x10000000 32).1.map Desc.ofBytes = some copy64 ∧ copy64.ok (w17fetch.ownerFn platform).isSome = true ∧ copy64.stream = false) ∧
    ((w17bad.memEgress ⟨.dma 0, platform⟩ 0x10000000 32).1.map Desc.ofBytes).any (fun d => !d.ok (w17bad.ownerFn platform).isSome) = true ∧
    ((w17foreign.memEgress ⟨.dma 0, platform⟩ 0x10000000 32).1.map Desc.ofBytes = some copyStream ∧ copyStream.ok (w17foreign.ownerFn platform).isSome = true ∧
      copyStream.stream = true ∧ w17foreign.streamOwner 0 ≠ platform) := by decide +kernel
theorem test_Dma_bursts : w17.dmaNext = none ∧ (w17run.dmaNext = some (0, [(0, 0)]) ∧ (copy64.burst 0).1 = 0x10000100 ∧ (copy64.burst 0).2.1 = 0x10000200 ∧ (copy64.burst 0).2.2 = 64 ∧
      copy64.srcSpace = 0 ∧ copy64.dstSpace = 0) ∧ (isReg 0x10000100 = false ∧ isReg 0x10000200 = false ∧ touchesPer 0x10000100 64 = false) ∧
    (w17run.reach (.dma 0) platform false .read 0x10000100 64 = true ∧ w17run.reach (.dma 0) platform false .write 0x10000200 64 = true) ∧
    ((w17run.memEgress ⟨.dma 0, platform⟩ 0x10000100 64).1 = some (List.replicate 64 0#8) ∧ (w17run.memWrite ⟨.dma 0, platform⟩ 0x10000200 (List.replicate 64 0#8)).1 = true) ∧
    (w17lost.dmaNext = some (0, [(0, 0)]) ∧ w17lost.reach (.dma 0) platform false .read 0x12000000 64 = false) ∧ ((w17end.dmaCh 0).desc = some copy64 ∧ copy64.len ≤ (w17end.dmaCh 0).moved) := by
  decide +kernel
theorem test_Arbiters : acc w17 (R.ARB_Aa_COMMIT 0) = true ∧ acc w17 R.ARB_COMMIT_LO = true ∧ acc w17 R.ARB_COMMIT_HI = true := by decide +kernel
/-- May a write to a register, with index `n`, take effect: no session window in use, no unused port? -/
def opens (s : State) (r : Reg) (n : Nat) : Bool := (regClassOf (busKey sv r.addr)).any fun c => !((sesWindow c && !s.sesFree n) || s.unusedPort c n)
/-- Is there an effect of its own of a write to a register? -/
def special (r : Reg) : Bool := (regClassOf (busKey sv r.addr)).any fun c => (writers.find? fun e => e.1 == c.base).isSome
theorem test_RegisterWrite : (w08.dead = false ∧ isReg (R.LNC_Ln_CTRL 5).addr = true ∧ w08.reach (.core 0) (w08.viewOf (.core 0)) (w08.atU (.core 0)) .write (R.LNC_Ln_CTRL 5).addr 4 = false) ∧
    (acc w17 (R.PART_LOCKk_LEASE 9) = true ∧ (regClassOf (busKey sv (R.PART_LOCKk_LEASE 9).addr)).any sesWindow = false ∧ special (R.PART_LOCKk_LEASE 9) = false) ∧
    (acc w17 (R.DMA_Cn_CTRL 0) = true ∧ (regClassOf (busKey sv (R.DMA_Cn_CTRL 0).addr)).any sesWindow = false ∧ special (R.DMA_Cn_CTRL 0) = true) ∧
    opens w17 (R.PART_LOCKk_LEASE 9) 9 = true ∧ opens w17 (R.DMA_Cn_CTRL 0) 0 = true := by decide +kernel

/-! ### Flash -/

/-- Core `c` stands at the gate at level `l` with service `k`, argument block `ws`, and w2 `fl`. -/
def calls (c : Fin 9) (arg l k fl : Nat) (ws : List Nat) : State :=
  ((if c = 8 then gates [21, 23] else part0 [] (gates [17, 23])).setCpuAt c { started := true, ps := BitVec.ofNat 32 (256 * l), pc := 0x800#32, w := [(0, BitVec.ofNat 32 k), (1, BitVec.ofNat 32 arg), (2, BitVec.ofNat 32 fl), (14, 0x38200000#32)] }).poke arg (ws.map (leBytes 4)).flatten
/-- A call by the supervisor, and by core 0 for partition 0. -/
def w18 (k : Nat) (ws : List Nat) (fl : Nat := 0) : State := calls 8 0x38210000 2 k fl ws
def w18core (k : Nat) (ws : List Nat) : State := calls 0 0x38000000 2 k 0 ws
/-- The operation on array 0 in a state. -/
def flashAt (st : Nat) (s : State) : State := s.setFlashOp 0 { state := st, op := 1, len := 32, owner := 1 }
def w18warn : State := (w18 4 [0]).putBit R.PWR_SUP_LIVE_CORE 0 true
/-- Block 0 is locked. -/
def w18lock : State := { w18 1 [0x08000000, 0x38210100, 32] with flash := { lock := [(0, 0)] } }
/-- A calibration record, and where it waits. -/
def recordHead : List Byte := [0x43#8, 0x41#8, 0x4C#8, 0x52#8, 1#8, 0#8, 0xA0#8, 4#8] ++ List.replicate 1172 0#8
def record : List Byte := recordHead ++ leBytes 4 2811101616
def w18cal : State := (w18 10 [0, 0x38210100]).poke 0x38210100 record
def w18calCore : State := (w18core 10 [0, 0x38000100]).poke 0x38000100 record
/-- A program and an erase at their ends. -/
def w18prog : State := (w18 1 []).setFlashOp 0 { state := 1, op := 1, addr := 0x08000000, len := 32, units := 1 }
def w18erase : State := (w18 2 []).setFlashOp 0 { state := 1, op := 2, addr := 0x08000000, len := 0x10000 }
/-- An operation suspended for 50 ms; one held for the supply. -/
def w18long : State := { flashAt 2 (w18 3 [0]) with now := us 50000 }
def w18held : State := { flashAt 3 (w18 3 [0]) with now := us 20 }

/-- Does the caller ask for service `k`, and is its argument block sound, of which `ws` is listed? -/
def stands (c : Fin 9) (k : Nat) (s : State) : Bool :=
  let x := s.cpuAt c
  let a := (x.reg 1).toNat
  s.atGate c && (x.reg 0).toNat == k && x.lvl == 2 && a % 4 == 0 && decide ((x.reg 2).toNat < 2) && s.svcMay c x.lvl .read a 32 &&
    (x.reg 14).toNat == 0x38200000 && !x.want && !x.step
def block (ws : List Nat) : List Byte := ((ws ++ List.replicate (8 - ws.length) 0).map (leBytes 4)).flatten
def asked (c : Fin 9) (k : Nat) (ws : List Nat) (s : State) : Bool :=
  let r := s.memRead (s.coreWho c) (s.cpuAt c |>.reg 1).toNat 32
  stands c k s && r.1 == some (block ws) && decide (r.2 = s)
theorem test_FlashServices_calls : asked 8 1 [0x08000000, 0x38210100, 32] (w18 1 [0x08000000, 0x38210100, 32]) = true ∧ asked 8 1 [0x08000000, 0x38210100, 32] w18lock = true ∧
    asked 8 2 [5] (w18 2 [5] 1) = true ∧ asked 8 3 [0] (flashAt 1 (w18 3 [0])) = true ∧ asked 8 4 [0] (flashAt 2 (w18 4 [0])) = true ∧ asked 8 4 [0] (flashAt 0 (w18 4 [0])) = true ∧
    asked 8 5 [0, 0x38210100] (w18 5 [0, 0x38210100]) = true ∧ asked 8 6 [0x08000000, 0x38210100, 32, 2] (w18 6 [0x08000000, 0x38210100, 32, 2]) = true := by decide +kernel
theorem test_FlashServices_more_calls : asked 8 7 [5] (w18 7 [5]) = true ∧ asked 8 8 [5, 2] (w18 8 [5, 2]) = true ∧ asked 8 9 [0, 0x38210100] (w18 9 [0, 0x38210100]) = true ∧
    stands 8 10 w18cal = true ∧ stands 0 10 w18calCore = true ∧ asked 8 11 [0, 0x38210100] (w18 11 [0, 0x38210100]) = true ∧
    asked 0 3 [0] (flashAt 1 (w18core 3 [0])) = true := by decide +kernel
/-- The supervisor asks for PROGRAM. -/
def w18p : State := w18 1 [0x08000000, 0x38210100, 32]
theorem test_FlashServices_checks :
    (flashRange 0x08000000 32 = true ∧ w18p.svcMay 8 2 .read 0x38210100 32 = true ∧ blocksOf 0x08000000 32 = [0] ∧ w18p.mayName platform 0 = true ∧ w18p.flash.lock = [] ∧
      w18p.flash.incom = [] ∧ (w18p.flashOp 0).busy = false ∧ flashArray 0x08000000 = 0 ∧ w18p.coreOwner 8 = platform) ∧ ¬w18lock.flash.lock.find? (·.1 == 0) = none ∧
    (flashAt 1 w18p |>.flashOp 0).busy = true ∧ w18p.mayName platform 5 = true ∧ w18p.svcMay 8 2 .write 0x38210100 1184 = true ∧ w18p.svcMay 8 2 .read 0x38210100 1184 = true ∧
    (w18core 3 [0]).coreOwner 0 = 0 ∧ (calls 8 0x38210000 0 1 0 []).atGate 8 = true ∧ ((calls 8 0x38210000 0 1 0 []).cpuAt 8).lvl = 0 ∧ sup.atGate 8 = false := by decide +kernel
/-- The CRC register after some bytes, each step with its number at hand. -/
def crcFrom : List Byte → Nat → Nat
  | [], c => c
  | b :: l, 0 => crcFrom l (crc32Byte 0 b)
  | b :: l, n + 1 => crcFrom l (crc32Byte (n + 1) b)
theorem crcFrom_eq (l : List Byte) (c : Nat) : crcFrom l c = l.foldl crc32Byte c := by
  induction l generalizing c with
  | nil => rfl
  | cons b l ih => cases c <;> simp [crcFrom, ih]
theorem recordHead_length : recordHead.length = 1180 := by
  simp only [recordHead, List.length_append, List.length_replicate]
  rfl
theorem record_length : record.length = 1184 := by
  rw [record, List.length_append, recordHead_length]
  rfl
theorem recordHead_crc1 : crcFrom ([0x43#8, 0x41#8, 0x4C#8, 0x52#8, 1#8, 0#8, 0xA0#8, 4#8] ++ List.replicate 572 0#8) 0xFFFFFFFF = 1614447998 := by decide +kernel
theorem recordHead_crc2 : crcFrom (List.replicate 600 0#8) 1614447998 = 1483865679 := by decide +kernel
theorem recordHead_split : recordHead = ([0x43#8, 0x41#8, 0x4C#8, 0x52#8, 1#8, 0#8, 0xA0#8, 4#8] ++ List.replicate 572 0#8) ++ List.replicate 600 0#8 := by
  rw [recordHead, List.append_assoc, List.replicate_append_replicate, show 572 + 600 = 1172 from rfl]
theorem crc_split {l a b : List Byte} {x y : Nat} (e : l = a ++ b) (h : crcFrom a 0xFFFFFFFF = x) (k : crcFrom b x = y) : crc32c l = y ^^^ 0xFFFFFFFF := by
  rw [crcFrom_eq] at h k
  rw [crc32c, e, List.foldl_append, h, k]
theorem recordHead_crc : crc32c recordHead = 2811101616 := crc_split recordHead_split recordHead_crc1 recordHead_crc2
theorem test_FlashServices_record : calOk record = true := by
  have e : record.take 1180 = recordHead := List.take_left' recordHead_length
  have d : record.drop 1180 = leBytes 4 2811101616 := List.drop_left' recordHead_length
  simp only [calOk, e, d, recordHead_crc, record_length]
  decide +kernel
theorem poke_reads (s : State) (h : s.memOk) (hm : s.flash.mix = []) (a n : Nat) (bs : List Byte) (e : bs.length = n) (ha : 0x40000 ≤ a) :
    (s.poke a bs).bytesAt a n = bs := by
  have := State.bytesAt_poke (s := s) (a := a) (o := 0) (n := n) (bs := bs) h hm ha (by omega)
  rwa [Nat.add_zero, List.drop_zero, List.take_of_length_le (by omega)] at this
theorem test_FlashServices_record_read (s : State) (h : s.memOk) (hm : s.flash.mix = []) (a : Nat) (ha : 0x40100 ≤ a) :
    (s.poke a record).bytesAt a 1184 = record ∧ (s.poke a record).bytesAt (a - 256) 32 = s.bytesAt (a - 256) 32 :=
  ⟨poke_reads s h hm a 1184 record record_length (by omega), State.bytesAt_poke_ne h hm (by omega) (by omega)⟩
theorem test_FlashServices_record_blocks : ((w18 10 [0, 0x38210100]).bytesAt 0x38210000 32 = block [0, 0x38210100] ∧ (w18core 10 [0, 0x38000100]).bytesAt 0x38000000 32 = block [0, 0x38000100]) ∧
    w18calCore.svcMay 0 2 .read 0x38000100 1184 = true := by decide +kernel
theorem test_FlashServices_record_states : ((w18 10 [0, 0x38210100]).memOk ∧ (w18core 10 [0, 0x38000100]).memOk) ∧
    w18cal.memRead (w18cal.coreWho 8) 0x38210000 32 = (some (w18cal.bytesAt 0x38210000 32), w18cal) ∧
    w18calCore.memRead (w18calCore.coreWho 0) 0x38000000 32 = (some (w18calCore.bytesAt 0x38000000 32), w18calCore) :=
  ⟨⟨by unfold State.memOk; decide +kernel, by unfold State.memOk; decide +kernel⟩, rfl, rfl⟩
theorem test_FlashServices_ends : (w18prog.flashOp 0).len ≤ 32 * (w18prog.flashOp 0).units ∧ (w18erase.flashOp 0).addr = blockBase 0 ∧ ((w18 1 []).flashOp 0).state ≠ 1 ∧
    w18prog.persisting = none ∧ w18erase.persisting = none ∧ ((w18prog.flashOp 0).code = 0 ∧ (w18erase.flashOp 0).code = 0) := by decide +kernel
theorem test_FlashServices_waits : (w18long.flashOp 0).state = 2 ∧ us 50000 ≤ w18long.since (w18long.flashOp 0).since ∧ w18long.flashWarn = false ∧ (w18held.flashOp 0).state = 3 ∧
    w18held.flashWarn = false ∧ us 20 ≤ w18held.since w18held.flash.clear ∧ (flashAt 3 (w18 3 [0])).since (flashAt 3 (w18 3 [0])).flash.clear < us 20 ∧
    w18warn.flashWarn = true := by decide +kernel

/-! ### Clocks and power states -/

/-- Every source runs; lane 0 has work, its gate closed. -/
def w19 : State := (gates [16, 17, 21, 22, 23, 92, 93]).wr R.CLK_SRC_STATUS 0xFFFFFF#32
def w19lane : State := w19.setLane 0 { act := some (actOf 0) }
/-- The same from PARK, or with PLL_SYS stopped. -/
def w19park : State := w19lane.put R.PWR_STATUS_STATE 1
def w19stop : State := w19lane.wr R.CLK_SRC_STATUS 7#32
/-- Domain 0 runs with nothing to do. -/
def w19idle : State := w19.put (R.CLK_Dd_STATUS_RUNNING 0) 1
/-- PLL_SYS is to lock; domain 0 waits for it. -/
def w19lock : State := { w19 with clk := { w19.clk with started := 32, waiting := 1 } }.wr R.CLK_SRC_STATUS 7#32
/-- Domain 22 is held in reset, switches, or has a failed source. -/
def w19hold : State := (w19.put (R.CLK_Dd_CTRL_HOLD_RESET 22) 1).put (R.CLK_Dd_STATUS_IN_RESET 22) 1
def w19switch : State := w19.put (R.CLK_Dd_STATUS_SWITCHING 22) 1
def w19failed : State := w19hold.wr R.CLK_SRC_FAIL 0xFFFFFF#32
/-- Domain 22 has shown edges for 2 µs. -/
def w19edges : State := { w19 with clk := { w19.clk with edges := [(22, 0#64)] }, now := us 2 }
/-- The alarm is due. -/
def w19alarm : State := w19.put R.PWR_RTC_CTRL_ALM_EN 1
/-- Something can wake the device. -/
def w19wake : State := w19.wr R.PWR_WAKE_EN 1#32
/-- A flash operation runs. -/
def w19busy : State := w19wake.setFlashOp 0 { state := 1 }

theorem test_Clocks_gates : (w19lane.requested 0 = true ∧ w19lane.gateOpen 0 = false ∧ ungated 0 = false ∧ w19lane.domMode 0 ≠ 2 ∧ w19lane.on (R.CLK_Dd_CTRL_HOLD_RESET 0) = false ∧ w19lane.fed 0 = true) ∧
    (w19park.get R.PWR_STATUS_STATE = 1 ∧ w19park.requested 0 = true ∧ w19park.fed 0 = true) ∧ (w19stop.fed 0 = false ∧ w19stop.srcOf 0 = some 5 ∧ isPll 5 = true ∧ w19stop.srcFailed 5 = false ∧ w19stop.requested 0 = true) ∧
    (w19idle.mayClose 0 = true ∧ w19idle.gateOpen 0 = true) ∧ w19lane.mayClose 0 = false ∧
    (w19lock.clk.started.testBit 5 = true ∧ w19lock.srcRuns 5 = false ∧ w19lock.srcRuns 0 = true ∧ w19lock.clk.waiting.testBit 0 = true ∧ w19lock.srcOf 0 = some 5) ∧
    (w19.keep 8 = false ∧ ((List.range 104).all fun j => w19.srcOf j != some 8 || (!w19.gateOpen j && !w19.clk.waiting.testBit j && w19.longShut j)) = true) := by decide +kernel
theorem test_Clocks_control : acc w19 (R.CLK_Dd_CTRL 22) = true ∧ (twoSources 22 = true ∧ w19.on (R.CLK_Dd_STATUS_SWITCHING 22) = false) ∧
    (w19switch.on (R.CLK_Dd_STATUS_SWITCHING 22) = true ∧ acc w19switch (R.CLK_Dd_CTRL 22) = true) ∧ (twoSources 0 = false ∧ acc w19 (R.CLK_Dd_CTRL 0) = true) ∧
    (w19hold.on (R.CLK_Dd_CTRL_HOLD_RESET 22) = true ∧ w19hold.fed 22 = true ∧ acc w19hold (R.CLK_Dd_CTRL 22) = true ∧ (match w19hold.srcOf 22 with | some j => w19hold.srcFailed j | none => false) = false) ∧
    ((match w19failed.srcOf 22 with | some j => w19failed.srcFailed j | none => false) = true ∧ acc w19failed (R.CLK_Dd_CTRL 22) = true) ∧
    (w19.on (R.CLK_Dd_CTRL_HOLD_RESET 22) = false ∧ w19edges.edgesOk 22 = true ∧ w19.edgesOk 22 = false ∧ acc w19edges (R.CLK_Dd_CTRL 22) = true) ∧
    (w19switch.fed 22 = true ∧ (match w19switch.srcSel 22 with | some j => w19switch.srcRuns j | none => false) = true) ∧ acc w19 R.CLK_PLL_CTRL = true ∧ w19failed.srcFailed 5 = true := by
  decide +kernel
theorem test_Clocks_failures : (w19edges.watched 22 = true ∧ w19idle.watched 0 = true ∧ hasForce 0 = true) ∧ w19.watched 1 = false ∧ (w19.srcOf 0 = some 5 ∧ w19.srcOf 25 = some 6 ∧ w19.srcOf 28 = some 0 ∧ w19.srcOf 41 = some 7) ∧
    w19lock.clk.started.testBit 5 = true ∧ w19.get R.SUP_REC_STATUS_STATE ≠ 3 ∧ w19.srcRuns 1 = true ∧ acc w19 R.PWR_RTC_HI = true ∧
    (w19alarm.on R.PWR_RTC_CTRL_ALM_EN = true ∧ w19alarm.pav.rtc = w19alarm.get R.PWR_ALM_LO_ALM_LO + w19alarm.get R.PWR_ALM_HI_RTC_HI * 2 ^ 32) ∧ w19.on R.PWR_RTC_CTRL_ALM_EN = false := by decide +kernel
theorem test_PowerStates : (acc w19 R.PWR_CTRL = true ∧ w19.entryRefusal 1 = 0) ∧ (acc w19wake R.PWR_CTRL = true ∧ w19wake.entryRefusal 2 = 0 ∧ w19wake.entryRefusal 3 = 0) ∧
    (w19busy.entryRefusal 1 = 5 ∧ w19busy.entryRefusal 2 = 5 ∧ w19busy.entryRefusal 3 = 5 ∧ acc w19busy R.PWR_CTRL = true) ∧ (w19.monitored 3 = true ∧ w19.warn 3 = false ∧ w19.monitored 7 = false) ∧ w19.monitored 9 = true := by
  decide +kernel

/-! ### Supervision and recovery -/

/-- Host pair 0 compares; the supervisor runs. -/
def w20 : State := ((sup.put (R.SUP_PAIRk_STATUS_COMPARING 0) 1).put (R.SUP_PAIRk_STATUS_LOCKSTEP 0) 1).each [23, 92, 93] fun d s => s.put (R.CLK_Dd_STATUS_RUNNING d) 1
/-- The watchdog runs from 1 to 2 ms, some cycles after a kick. -/
def w20wdt (n : Nat) (kicked : Bool) : State := { (w20.put R.SUP_WDT_MIN 1).put R.SUP_WDT_MAX 2 with pav := { wdt := some n, kicked := kicked } }
def w20soon : State := w20wdt 10 true
def w20right : State := w20wdt 40 true
def w20late : State := w20wdt 64 true
/-- A kick is at its second edge. -/
def w20kick : State := { w20right with pav := { w20right.pav with kick := some 1 } }
/-- A failure is latched; it is the fourth within the window, or another ran before. -/
def w20fail (tries : List Nat) : State := { w20.put R.SCFG_STATUS_BASE_SLOT 0 with pav := { fail := some 3, tries := tries } }
/-- The machine is in SAFE_HOLD, or asserts the device's reset. -/
def w20safe : State := w20.put R.SUP_REC_STATUS_STATE 3
def w20pulse : State := w20.put R.SUP_REC_STATUS_STATE 1
/-- The last-resort timer is at its end. -/
def w20lrt : State := { w20 with pav := { w20.pav with lrt := 256 } }

theorem test_Supervision : (w20.comparing 0 = true ∧ w20.comparing 4 = true ∧ w20.comparing 1 = false) ∧ w20.get R.SUP_REC_STATUS_STATE ≠ 3 ∧ acc w20 R.SUP_FORCE_PWM = true ∧ acc w20 R.SUP_FORCE_LINK = true ∧
    acc w20 R.SUP_FAULTOUT = true ∧ acc w20 R.SUP_WDT = true ∧ (acc w20 R.SUP_KICK = true ∧ w20.pav.wdt = none) ∧
    (acc w20right R.SUP_KICK = true ∧ w20right.pav.wdt = some 40 ∧ w20right.pav.key = 0x5A ∧ w20right.pav.kick = none ∧ 32 * w20right.get R.SUP_WDT_MIN ≤ 40) ∧
    (acc w20soon R.SUP_KICK = true ∧ w20soon.pav.kicked = true ∧ 10 < 32 * w20soon.get R.SUP_WDT_MIN ∧ w20soon.get R.SUP_REC_STATUS_STATE ≠ 3) := by decide +kernel
theorem test_Recovery : (acc w20 R.SUP_REC_CTRL = true ∧ (w20.pav.fail.isSome || w20.get R.SUP_REC_STATUS_STATE != 0) = false) ∧ (acc w20pulse R.SUP_REC_CTRL = true ∧ w20pulse.get R.SUP_REC_STATUS_STATE = 1) ∧
    (w20late.pav.wdt = some 64 ∧ 32 * w20late.get R.SUP_WDT_MAX ≤ 64 ∧ w20late.get R.SUP_REC_STATUS_STATE ≠ 3) ∧ 40 < 32 * w20right.get R.SUP_WDT_MAX ∧ w20safe.get R.SUP_REC_STATUS_STATE = 3 ∧
    (w20right.pav.fail = none ∧ w20right.wdtPaused = false ∧ w20kick.pav.kick = some 1 ∧ w20kick.pav.fail = none ∧ 40 + 1 < 32 * w20kick.get R.SUP_WDT_MAX ∧ w20pulse.pav.fail = none) ∧
    ((w20fail []).pav.fail = some 3 ∧ (w20fail []).get R.SCFG_STATUS_BASE_SLOT ≠ 3 ∧ ({ (w20fail []).pav with edges := 1 } : Pav).recent.length = 0) ∧
    ({ (w20fail [0, 0, 0]).pav with edges := 1 } : Pav).recent.length = 3 ∧ (256 ≤ w20lrt.pav.lrt ∧ w20.pav.lrt < 256) := by decide +kernel

/-! ### Debug, recovery boot, the life cycle -/

/-- The debug access port is connected; core 0 of partition 0, the supervisor and lane 0 run. -/
def w21 : State := { (((part0 [256] (gates [0, 17, 21, 23, 92, 93])).put R.DBG_DAP_VIEW_VIEW 8).setCpuAt 0 { started := true, pc := 0x38000000#32 }).setCpuAt 8
  { started := true, pc := 0x38200000#32 } with tap := { instr := 0x20 } }
/-- In FIELD, so that the supervisor's scope is shut. -/
def w21field : State := { w21 with fuses := { lcs := 2 } }
/-- Core 0 in a service, or compared with core 1. -/
def w21svc : State := w21.setCpuAt 0 { started := true, pc := 0x804#32 }
def w21pair : State := (w21.put (R.SUP_PAIRk_STATUS_COMPARING 0) 1).put (R.SUP_PAIRk_STATUS_LOCKSTEP 0) 1
/-- Core 0, or lane 0, is halted, the window at register 3 or at the pc. -/
def w21halt : State := (w21.put (R.DBG_Cc_STATUS_STATE 0) 1).put (R.DBG_Cc_REGSEL_REG 0) 3
def w21pc : State := w21halt.put (R.DBG_Cc_REGSEL_REG 0) 16
def w21lane : State := w21.put (R.DBG_Cc_STATUS_STATE 16) 1
/-- A breakpoint at core 0's pc. -/
def w21brk : State := (w21.put (R.DBG_Cc_BPk_EN 0 0) 1).put (R.DBG_Cc_BPk_ADDR 0 0) 0x1C000000
/-- A verification runs, to a grant or not. -/
def w21grant : State := { w21.put R.DBG_AUTH_STATUS_STATE 2 with chip := { verify := some (some 0x101) } }
def w21deny : State := { w21.put R.DBG_AUTH_STATUS_STATE 2 with chip := { verify := some none } }

theorem test_Debug_grants : (acc w21 R.DBG_AUTH_CTRL .write .dap = true ∧ w21.get R.DBG_AUTH_STATUS_STATE ≠ 2 ∧ w21.chip.nonce = false) ∧ w21grant.chip.verify = some (some 0x101) ∧ w21deny.chip.verify = some none := by decide +kernel
theorem test_Debug_halts : (dbgExists 8 = true ∧ acc w21field (R.DBG_Cc_CTRL 8) .write .dap = true ∧ w21field.coreScope 8 = false) ∧
    (acc w21 (R.DBG_Cc_CTRL 0) .write .dap = true ∧ w21.coreScope 0 = true ∧ w21.debugHalted 0 = false ∧ (w21.cpuAt 0).started = true ∧ (w21.cpuAt 0).inService = false) ∧
    (acc w21pair (R.DBG_Cc_CTRL 0) .write .dap = true ∧ w21pair.comparing 0 = true ∧ w21pair.coreScope 0 = true) ∧ (w21svc.cpuAt 0).inService = true ∧
    (acc w21 (R.DBG_Cc_CTRL 16) .write .dap = true ∧ w21.coreScope 16 = true ∧ w21.debugHalted 16 = false) ∧
    (acc w21halt (R.DBG_Cc_CTRL 0) .write .dap = true ∧ w21halt.debugHalted 0 = true ∧ (w21halt.cpuAt 0).started = true ∧ w21halt.coreScope 0 = true) ∧
    (acc w21lane (R.DBG_Cc_CTRL 16) .write .dap = true ∧ w21lane.debugHalted 16 = true) ∧ acc w21 (R.DBG_Cc_CTRL 0) = true := by decide +kernel
theorem test_Debug_window : ((w21brk.cpuAt 0).started && !(w21brk.cpuAt 0).wfi && !w21brk.debugHalted 0 && !(w21brk.cpuAt 0).inService && w21brk.breakHit 0) = true ∧ w21.breakHit 0 = false ∧
    (acc w21halt (R.DBG_Cc_DATA 0) .read .dap = true ∧ acc w21halt (R.DBG_Cc_DATA 0) .write .dap = true ∧ w21halt.dataOpen 0 = true ∧ w21halt.get (R.DBG_Cc_REGSEL_REG 0) = 3) ∧
    (acc w21pc (R.DBG_Cc_DATA 0) .read .dap = true ∧ acc w21pc (R.DBG_Cc_DATA 0) .write .dap = true ∧ w21pc.dataOpen 0 = true ∧ w21pc.get (R.DBG_Cc_REGSEL_REG 0) = 16) ∧ w21.dataOpen 0 = false ∧
    acc w21 (R.DBG_Cc_DATA 0) .read .dap = true := by decide +kernel
theorem test_Debug_port : w21.memOk ∧ (w21.dead = false ∧ w21.dapLinked = true) ∧ (w21.reach .dap (w21.viewOf .dap) false .write 0x10000000 4 = true ∧
    w21.reach .dap (w21.viewOf .dap) false .read 0x10000000 4 = true ∧ isReg 0x10000000 = false ∧ (w21.memRead ⟨.dap, w21.viewOf .dap⟩ 0x10000000 4).1 = some (List.replicate 4 0#8)) ∧
    w21.reach .dap (w21.viewOf .dap) false .read 0x18000000 4 = false := by unfold State.memOk; decide +kernel

/-- Recovery boot in a life-cycle state, with the mailbox's words and a command taken or not. -/
def rescue (lcs : Nat) (cmd : Option Nat) (ws : List Nat) : State :=
  (({ State.reset with chip := { cmd := cmd }, fuses := { fuses1 with lcs := lcs } } : State).put R.RST_BOOT_PHASE 10).poke 0x10000000 (ws.map (leBytes 4)).flatten
/-- The mailbox names image 1 behind it. -/
def w21image (c : Nat) : State := (rescue 1 (some c) [0, 0x10000040, 380]).poke 0x10000040 image1
/-- It names bytes that are no image, or no bytes in order. -/
def w21junk (c : Nat) : State := rescue 1 (some c) [0, 0x10000040, 4]
def w21none (c : Nat) : State := rescue 1 (some c) [0, 0x10000041, 4]
/-- Does ROM wait for a command, and is one written? -/
def waits (s : State) : Bool := !s.dead && s.get R.RST_BOOT_PHASE == 10 && s.chip.cmd.isNone && s.mailbox 0 != 0 && s.mailbox 20 != 1
theorem test_Recovery_mailbox : (waits (rescue 1 none [7]) = true ∧ (rescue 1 none [7]).mailbox 0 = 7) ∧ (waits (rescue 0 none [1]) = true ∧ recoveryAllowed 0 1 = false) ∧
    (waits (rescue 1 none [2]) = true ∧ recoveryAllowed 1 2 = true) ∧ waits State.reset = false := by decide +kernel
theorem test_Recovery_images : ((w21none 1).recovering 1 = true ∧ (w21none 1).mailboxImage = none) ∧ ((w21none 2).recovering 2 = true ∧ (w21none 3).recovering 3 = true) ∧
    ((w21junk 1).recovering 1 = true ∧ (w21junk 1).mailboxImage = some (List.replicate 4 0#8) ∧ (checkImage (List.replicate 4 0#8) 0 (w21junk 1).fuses).isSome = true ∧
      (w21junk 1).get R.SCFG_FLOOR_FLOOR = 0) := by decide +kernel
theorem poke_get (s : State) (a : Nat) (bs : List Byte) (r : RF) : (s.poke a bs).get r = s.get r := rfl
theorem poke_fuses (s : State) (a : Nat) (bs : List Byte) : (s.poke a bs).fuses = s.fuses := rfl
theorem test_Recovery_image (c : Nat) : (w21image c).mailboxImage = some image1 ∧ checkImage image1 ((w21image c).get R.SCFG_FLOOR_FLOOR) (w21image c).fuses = none := by
  have h : (rescue 1 (some c) [0, 0x10000040, 380]).memOk := by unfold State.memOk; change Mem.wf (rescue 1 none [0, 0x10000040, 380]).mem = true; decide +kernel
  have g : ∀ o, o + 4 ≤ 64 → (w21image c).mailbox o = (rescue 1 none [0, 0x10000040, 380]).mailbox o := fun o ho =>
    congrArg leNat (State.bytesAt_poke_ne (s := rescue 1 (some c) [0, 0x10000040, 380]) h rfl (by decide) (Or.inl (by omega)))
  have a : (w21image c).mailbox 4 = 0x10000040 := (g 4 (by decide)).trans (by decide +kernel)
  have n : (w21image c).mailbox 8 = 380 := (g 8 (by decide)).trans (by decide +kernel)
  constructor
  · unfold State.mailboxImage
    rw [a, n, if_pos (by decide)]
    have e : (w21image c).bytesAt 0x10000040 380 = image1 := by
      unfold w21image
      exact poke_reads _ h rfl _ _ _ image1_length (by decide)
    rw [e]
  · have f : (w21image c).get R.SCFG_FLOOR_FLOOR = 0 := by
      rw [w21image, poke_get, rescue, poke_get]
      exact (rfl : _ = (State.reset.put R.RST_BOOT_PHASE 10).get R.SCFG_FLOOR_FLOOR).trans (by decide +kernel)
    have k : (w21image c).fuses = fuses1 := by
      rw [w21image, poke_fuses, rescue, poke_fuses]
      rfl
    rw [f, k]
    exact image1_passes
theorem test_Recovery_taken : (w21image 1).recovering 1 = true ∧ (w21image 2).recovering 2 = true ∧ (w21image 3).recovering 3 = true := by decide +kernel

/-- A device in a life-cycle state whose supervisor makes a request; a second key is provisioned in `keys2`. -/
def life (lcs : Nat) : State := { w21 with fuses := { lcs := lcs, keys := [(0, keyHash)] } }
def keys2 : State := { w21 with fuses := { lcs := 1, keys := [(0, keyHash), (1, keyHash)] } }
def lifeToken : State := (life 2).wr R.LCS_TOKEN_ADDR 0x10000100#32
def lifeBusy : State := (life 1).setFlashOp 0 { state := 1 }
theorem test_LifeCycle : (acc (life 1) R.LCS_CTRL = true ∧ (life 1).lcsBusy = false ∧ (life 1).fuses.mayEnter 2 = true ∧ (life 1).fuses.mayEnter 5 = false) ∧
    ((life 2).fuses.mayEnter 4 = true ∧ inSram (lifeToken.rd R.LCS_TOKEN_ADDR).toNat 144 = true ∧ acc lifeToken R.LCS_CTRL = true ∧ lifeToken.lcsBusy = false) ∧
    ((life 1).fuses.keys.get [] 1 = [] ∧ (acc (life 3) R.LCS_CTRL = true ∧ (life 3).lcsBusy = false)) ∧ (acc lifeBusy R.LCS_CTRL = true ∧ lifeBusy.lcsBusy = true) ∧
    (acc keys2 R.LCS_CTRL = true ∧ keys2.lcsBusy = false ∧ ((List.range 4).any fun j => j != 1 && !(keys2.fuses.keys.get [] j).isEmpty && !keys2.fuses.revoked.testBit j) = true ∧ keys2.image = []) ∧
    (acc (life 0) R.LCS_CTRL = true ∧ (life 0).lcsBusy = false) := by decide +kernel
theorem test_Recovery_fuses : ((rescue 1 (some 4) [0, 0, 0, 1]).recovering 4 = true ∧ (rescue 1 (some 4) [0, 0, 0, 1]).mailbox 12 = 1 ∧ (rescue 1 (some 4) [0, 0, 0, 1]).fuses.keys.get [] 1 = []) ∧
    ((rescue 1 (some 5) [0, 0, 0, 2]).recovering 5 = true ∧ (rescue 1 (some 5) [0, 0, 0, 2]).mailbox 12 = 2 ∧ (rescue 1 (some 5) [0, 0, 0, 2]).fuses.mayEnter 2 = true) ∧
    ((rescue 1 (some 5) [0, 0, 0, 5]).recovering 5 = true ∧ (rescue 1 (some 5) [0, 0, 0, 5]).fuses.mayEnter 5 = false ∧ (rescue 1 (some 5) [0, 0, 0, 5]).mailbox 12 = 5) ∧
    (State.reset.dead = false ∧ State.reset.chip.asleep = 0 ∧ ({ State.reset with chip := { resetN := false } } : State).chip.resetN = false) := by decide +kernel

end Sys2Proof.Tests
end

section
/-!
PROOF. A fetch leaves the registers of every processor (R278 to R280), and with that the rule for each effect of an instruction that issues.
-/
namespace Sys2Proof.Machine

/-! ### Reading memory leaves the processors -/

@[simp] theorem State.memError_cpus (s : State) (w : Who) (m addr kind : Nat) : (s.memError w m addr kind).cpus = s.cpus := by
  unfold State.memError
  dsimp only
  split_ifs <;> simp

@[simp] theorem State.flashEcc_cpus (s : State) (a : Nat) : (s.flashEcc a).2.cpus = s.cpus := by
  unfold State.flashEcc
  split <;> rfl

@[simp] theorem State.lineRead_cpus (s : State) (w : Who) (a : Nat) : (s.lineRead w a).2.cpus = s.cpus := by
  unfold State.lineRead
  split
  · split <;> simp
  · dsimp only
    split_ifs <;> simp

/-- What each line's access keeps, an access to several lines keeps. -/
theorem State.linesBy_keeps {β : Type} (g : State → β) (f : State → Nat → Bool × State) (h : ∀ s l, g (f s l).2 = g s)
    (ls : List Nat) (s : State) : g (State.linesBy f ls s).2 = g s := by
  induction ls generalizing s with
  | nil => rfl
  | cons l ls ih =>
    rw [State.linesBy]
    by_cases ok : (f s l).1 = true
    · simp only [ok, if_true, ih, h]
    · simp [ok, h]

@[simp] theorem State.memRead_cpus (s : State) (w : Who) (a n : Nat) : (s.memRead w a n).2.cpus = s.cpus :=
  State.linesBy_keeps (·.cpus) _ (fun t l => t.lineRead_cpus w l) _ s

/-! ### Arbitration leaves the processors (R428 to R435) -/

@[simp] theorem State.arbApply_cpus (s : State) (a slot : Nat) : (s.arbApply a slot).cpus = s.cpus := by
  unfold State.arbApply
  dsimp only
  split
  · rfl
  · split
    · rfl
    · simp only [State.put_frame]
      exact State.each_keeps _ _ (·.cpus) (fun e t => by simp) s

@[simp] theorem State.sendHints_cpus (s : State) (a : Nat) : (s.sendHints a).cpus = s.cpus := rfl

theorem State.when_cpus (s : State) (b : Bool) (f : State → State) (h : (f s).cpus = s.cpus) : (s.when b f).cpus = s.cpus := by
  cases b
  · rfl
  · exact h

@[simp] theorem State.arbSlot_cpus (s : State) (a : Nat) : (s.arbSlot a).2.cpus = s.cpus := by
  unfold State.arbSlot
  extract_lets x ws cut s1 s2
  have h1 : s1.cpus = s.cpus := State.when_cpus _ _ _ (by simp)
  have h2 : s2.cpus = s1.cpus := State.each_keeps _ _ (·.cpus) (fun r t => by dsimp only; split <;> simp) _
  split
  · exact h2.trans h1
  · dsimp only
    split <;> simp [h2, h1]

@[simp] theorem State.arbRun_cpus (f slot a w : Nat) (rivals : List Nat) (s : State) : (State.arbRun f slot a w rivals s).cpus = s.cpus := by
  induction f generalizing slot s with
  | zero => rfl
  | succ f ih =>
    rw [State.arbRun]
    dsimp only
    split <;> simp [ih]

@[simp] theorem State.portSlot_cpus (s : State) (a : Nat) : (s.portSlot a).2.cpus = s.cpus := by
  unfold State.portSlot
  dsimp only
  split <;> rfl

@[simp] theorem State.portRun_cpus (f a w : Nat) (rivals : List Nat) (s : State) : (State.portRun f a w rivals s).cpus = s.cpus := by
  induction f generalizing s with
  | zero => rfl
  | succ f ih =>
    rw [State.portRun]
    dsimp only
    split <;> simp [ih]

@[simp] theorem State.arbitrate_cpus (s : State) (addr : Nat) (w : Option Nat) (rivals : List Nat) : (s.arbitrate addr w rivals).cpus = s.cpus := by
  unfold State.arbitrate
  cases w with
  | none => rfl
  | some r =>
    dsimp only
    split
    · split <;> simp
    · split <;> simp

/-! ### The fetch (R278 to R280) -/

@[simp] theorem State.bringLine_cpus (s : State) (c : Fin 9) (l : Nat) : (s.bringLine c l).2.cpus = s.cpus := by simp [State.bringLine]

@[simp] theorem State.demand_cpus (s : State) (c : Fin 9) (l : Nat) : (s.demand c l).cpus = s.cpus := by
  have h := s.bringLine_cpus c l
  unfold State.demand
  split
  · simp
  · split <;> simp_all

@[simp] theorem State.prefetch_cpus (s : State) (c : Fin 9) (l : Nat) : (s.prefetch c l).cpus = s.cpus := by
  unfold State.prefetch
  extract_lets b t a
  have h := t.bringLine_cpus c (l + 1)
  have ht : t.cpus = s.cpus := by simp [t]
  split
  · rfl
  · split
    · split <;> simp_all
    · exact ht

@[simp] theorem State.fetched_cpus (s : State) (p : Proc) (len : Nat) : (s.fetched p len).cpus = s.cpus := by
  cases p with
  | lane n => simp [State.fetched]
  | core c =>
    simp only [State.fetched, State.setBuf_frame]
    split <;> simp

/-- A fetch leaves the registers of every processor. -/
@[simp] theorem State.fetched_cpuAt (s : State) (p : Proc) (len k : Nat) : (s.fetched p len).cpuAt k = s.cpuAt k := by simp [State.cpuAt]

/-! ### The effects of an instruction that issues -/

/-- An effect that raises an exception traps at the instruction. -/
theorem State.run_raise {s : State} {p : Proc} {len : Nat} {f : State → Cpu → Eff} {e : Exc} (h : s.issues p len = true)
    (hf : f (s.fetched p len) (s.cpuAt p.key) = .raise (s.fetched p len) e) : s.run p len f = (s.fetched p len).trapped p e := by
  simp [State.run, h, hf, State.trapped]

/-- An effect that is done completes with the registers it gives. -/
theorem State.issue_done {s : State} {p : Proc} {len : Nat} {i : Instr} {f : State → Cpu → Eff} {y : Cpu} (h : s.Issues p len i)
    (hf : f (s.fetched p len) (s.cpuAt p.key) = .done (s.fetched p len) y) : s.issue i p len f = (s.fetched p len).completed p y := by
  obtain ⟨issues, finds⟩ := h
  simp [State.issue, finds, State.run, issues, hf, State.completed]

/-- An effect that jumps is a taken transfer to the pc it gives. -/
theorem State.issue_jump {s : State} {p : Proc} {len : Nat} {i : Instr} {f : State → Cpu → Eff} {y : Cpu} (h : s.Issues p len i)
    (hf : f (s.fetched p len) (s.cpuAt p.key) = .jump (s.fetched p len) y) :
    s.issue i p len f = ((s.fetched p len).taken p (s.cpuAt p.key).pc.toNat y.pc.toNat).completed p y := by
  obtain ⟨issues, finds⟩ := h
  simp [State.issue, finds, State.run, issues, hf, State.completed]

end Sys2Proof.Machine
end

section
/-!
PROOF. The forms in which instructions are stated, `State.Writes` and `State.Sets`, from the shapes in which the model gives their
meanings: `regInstr`, `aluPlain` and `aluSat`.
-/
namespace Sys2Proof.Machine

/-- A register takes a value that its stack limit allows (R298). -/
theorem Cpu.put_of_allowed {x : Cpu} {r : RegNo} {v : Word} (h : r = 15 → x.limit x.lvl ≤ v) : x.put r v = .ok (x.setReg r v) := by
  have : ¬(r = 15 ∧ v < x.limit x.lvl) := fun ⟨hr, hv⟩ => absurd hv (BitVec.not_lt.mpr (h hr))
  rw [Cpu.put, if_neg this]

/-- An instruction whose work on the registers succeeds completes with them, at the next address. -/
theorem State.regInstr_ok {s : State} {p : Proc} {i : Instr} {short : Bool} {f : Cpu → Except Exc Cpu} {y : Cpu}
    (h : s.Issues p (formLen short) i) (hf : f (s.cpuAt p.key) = .ok y) :
    regInstr i p short f s = .next ((s.fetched p (formLen short)).completed p (y.advance ((s.cpuAt p.key).next short))) := by
  change Host.Outcome.next (s.issue i p (formLen short) _) = _
  rw [State.issue_done h (y := y.advance ((s.cpuAt p.key).next short)) (by simp only [hf])]

variable {s : State} {p : Proc} {i : Instr} {rd : RegNo}

theorem State.sets_of_regInstr {short : Bool} {f : Cpu → Except Exc Cpu} {g : Cpu → Cpu} (he : exec i s = regInstr i p short f s)
    (hf : f (s.cpuAt p.key) = .ok (g (s.cpuAt p.key))) : s.Sets p (formLen short) g i :=
  fun h => he.trans (State.regInstr_ok h hf)

theorem State.writes_of_regInstr {short : Bool} {f : Cpu → Except Exc Cpu} {v : Word} {g : Cpu → Cpu}
    (he : exec i s = regInstr i p short f s) (hf : f (s.cpuAt p.key) = ((s.cpuAt p.key).put rd v).map g) :
    s.Writes p (formLen short) rd v g i :=
  fun h hv => he.trans (State.regInstr_ok h (by rw [hf, Cpu.put_of_allowed hv]; rfl))

/-- A result that sets no flag. -/
theorem State.writes_of_aluPlain {short : Bool} {f : Cpu → Word} {v : Word} (he : exec i s = aluPlain i p short rd f s)
    (hf : f (s.cpuAt p.key) = v) : s.Writes p (formLen short) rd v id i :=
  State.writes_of_regInstr (g := id) he (by rw [hf]; cases (s.cpuAt p.key).put rd v <;> rfl)

/-- A result that sets Q where it saturates (R257). -/
theorem State.writes_of_aluSat {f : Cpu → Word × Bool} {v : Word} {q : Bool} (he : exec i s = aluSat i p rd f s)
    (hf : f (s.cpuAt p.key) = (v, q)) : s.Writes p 4 rd v (·.stickQ q) i :=
  State.writes_of_regInstr (short := false) he (by rw [hf])

end Sys2Proof.Machine
end
section
/-!
PROOF. The multiply and divide group (R246): the exact products and quotients of Flags.lean as operations on words.
-/
namespace Sys2Proof.Machine

/-- The high word of an exact 64-bit product. -/
theorem wordOf_shrI_32 (e : Int) : wordOf (shrI e 32) = (BitVec.ofInt 64 e).extractLsb' 32 32 := by
  apply BitVec.eq_of_toNat_eq
  simp only [wordOf, shrI, Int.fdiv_eq_ediv_of_nonneg _ (show (0 : Int) ≤ 2 ^ 32 by decide), BitVec.extractLsb'_toNat, BitVec.toNat_ofInt,
    Nat.shiftRight_eq_div_pow]
  omega

theorem ofNat_div_32 (n : Nat) : BitVec.ofNat 32 (n / 2 ^ 32) = (BitVec.ofNat 64 n).extractLsb' 32 32 := by
  apply BitVec.eq_of_toNat_eq
  simp only [BitVec.extractLsb'_toNat, BitVec.toNat_ofNat, Nat.shiftRight_eq_div_pow]
  omega

theorem mul_eq_ofNat (a b : Word) : a * b = BitVec.ofNat 32 (a.toNat * b.toNat) := by
  rw [BitVec.ofNat_mul, BitVec.ofNat_toNat, BitVec.ofNat_toNat, BitVec.setWidth_eq, BitVec.setWidth_eq]

/-- Signed division with its corners (Table 10.10). -/
theorem divS_eq (a b : Word) : divS a b =
    if b = 0#32 then 0xFFFFFFFF#32 else if a = 0x80000000#32 ∧ b = 0xFFFFFFFF#32 then 0x80000000#32
    else BitVec.ofInt 32 (a.toInt.tdiv b.toInt) := by
  unfold divS
  by_cases overflow : a = 0x80000000#32 ∧ b = 0xFFFFFFFF#32
  · obtain ⟨rfl, rfl⟩ := overflow
    decide
  · rw [if_neg overflow, wordOf]

/-- Signed remainder with its corners (Table 10.10). -/
theorem remS_eq (a b : Word) : remS a b =
    if b = 0#32 then a else if a = 0x80000000#32 ∧ b = 0xFFFFFFFF#32 then 0#32 else BitVec.ofInt 32 (a.toInt.tmod b.toInt) := by
  unfold remS
  by_cases overflow : a = 0x80000000#32 ∧ b = 0xFFFFFFFF#32
  · obtain ⟨rfl, rfl⟩ := overflow
    decide
  · rw [if_neg overflow, wordOf]

theorem divU_eq (a b : Word) : divU a b = if b = 0#32 then 0xFFFFFFFF#32 else a / b := by
  rw [divU, BitVec.udiv_def]

theorem remU_eq (a b : Word) : remU a b = if b = 0#32 then a else a % b := by
  rw [remU, BitVec.umod_def]

/-- Settles O14: each result is the model's exact one, with the corners of Table 10.10 told apart. -/
theorem multiplyDivideResults : Obligations.MultiplyDivideResults := by
  intro s p rd r1 r2 a b is
  refine ⟨?mul, ?mulh, ?mulhu, ?div, ?divu, ?rem, ?remu⟩
  case mul => exact State.writes_of_aluPlain (short := false) rfl (mul_eq_ofNat a b)
  case mulh => exact State.writes_of_aluPlain (short := false) rfl (wordOf_shrI_32 _)
  case mulhu => exact State.writes_of_aluPlain (short := false) rfl (ofNat_div_32 _)
  case div => exact State.writes_of_aluPlain (short := false) rfl (divS_eq a b)
  case divu => exact State.writes_of_aluPlain (short := false) rfl (divU_eq a b)
  case rem => exact State.writes_of_aluPlain (short := false) rfl (remS_eq a b)
  case remu => exact State.writes_of_aluPlain (short := false) rfl (remU_eq a b)

end Sys2Proof.Machine
end

section
/-!
PROOF. The fixed-point group (R256, R257): an exact value limited to bounds that a word holds, and Q where the limit is not the value.
-/
namespace Sys2Proof.Machine

/-- A word holds every value of its range. -/
theorem toInt_wordOf {e : Int} (hlo : -2 ^ 31 ≤ e) (hhi : e ≤ 2 ^ 31 - 1) : (wordOf e).toInt = e :=
  BitVec.toInt_ofInt_eq_self (by decide) (by omega) (by omega)

theorem wordOf_toInt (a : Word) : wordOf a.toInt = a := BitVec.ofInt_toInt

theorem shrI_eq_div (e : Int) (n : Nat) : shrI e n = e / 2 ^ n := Int.fdiv_eq_ediv_of_nonneg _ (by positivity)

theorem limit_of_lt {lo hi e : Int} (h : e < lo) : limit lo hi e = lo := if_pos h
theorem limit_of_gt {lo hi e : Int} (hb : lo ≤ hi) (h : hi < e) : limit lo hi e = hi := by
  rw [limit, if_neg (by omega), if_pos h]
theorem limit_of_mem {lo hi e : Int} (hlo : lo ≤ e) (hhi : e ≤ hi) : limit lo hi e = e := by
  rw [limit, if_neg (by omega), if_neg (by omega)]

/-- A limited value lies within its bounds. -/
theorem limit_mem {lo hi : Int} (hb : lo ≤ hi) (e : Int) : lo ≤ limit lo hi e ∧ limit lo hi e ≤ hi := by
  unfold limit
  split_ifs <;> omega

/-- Bounds between which every value fits a word. -/
def WordBounds (lo hi : Int) : Prop := -2 ^ 31 ≤ lo ∧ lo ≤ hi ∧ hi ≤ 2 ^ 31 - 1

theorem wordBounds_signed (n : Fin 32) : WordBounds (-2 ^ n.val) (2 ^ n.val - 1) := by
  have h1 : (1 : Int) ≤ 2 ^ n.val := one_le_pow₀ (by decide)
  have h2 : (2 : Int) ^ n.val ≤ 2 ^ 31 := pow_le_pow_right₀ (by decide) (by omega)
  unfold WordBounds
  omega

theorem toInt_wordOf_limit {lo hi : Int} (hb : WordBounds lo hi) (e : Int) : (wordOf (limit lo hi e)).toInt = limit lo hi e := by
  obtain ⟨hlo, hle, hhi⟩ := hb
  obtain ⟨h1, h2⟩ := limit_mem hle e
  exact toInt_wordOf (by omega) (by omega)

/-- The word that saturation writes is the limit of the exact value. -/
theorem limited_wordOf {lo hi : Int} (hb : WordBounds lo hi) (e : Int) : Limited lo hi e (wordOf (limit lo hi e)) := by
  rw [Limited, toInt_wordOf_limit hb]
  obtain ⟨_, hle, _⟩ := hb
  exact ⟨limit_of_lt, limit_of_gt hle, limit_of_mem⟩

section
variable {s : State} {p : Proc} {i : Instr} {rd : RegNo}

/-- An instruction that saturates writes the limit of its exact value and sets Q where the two differ. -/
theorem State.limits_of_aluSat {lo hi e : Int} {f : Cpu → Word × Bool} (hb : WordBounds lo hi) (he : exec i s = aluSat i p rd f s)
    (hf : f (s.cpuAt p.key) = saturate lo hi e) :
    ∃ v : Word, Limited lo hi e v ∧ s.Writes p 4 rd v (·.stickQ (decide (v.toInt ≠ e))) i :=
  ⟨_, limited_wordOf hb e, State.writes_of_aluSat he (by rw [hf, saturate, toInt_wordOf_limit hb])⟩

/-- The same to 32 bits. -/
theorem State.limits_of_aluSat_sat32 {e : Int} {f : Cpu → Word × Bool} (he : exec i s = aluSat i p rd f s)
    (hf : f (s.cpuAt p.key) = sat32 e) :
    ∃ v : Word, Limited (-2 ^ 31) (2 ^ 31 - 1) e v ∧ s.Writes p 4 rd v (·.stickQ (decide (v.toInt ≠ e))) i :=
  State.limits_of_aluSat (wordBounds_signed 31) he hf

end

/-- SATU: a word limited to n + 1 unsigned bits. -/
theorem saturate_unsigned (a : Word) (n : Nat) : saturate 0 (2 ^ (n + 1) - 1) a.toInt =
    (if a.toInt < 0 then 0#32 else if 2 ^ (n + 1) - 1 < a.toInt then BitVec.ofNat 32 (2 ^ (n + 1) - 1) else a,
      decide (a.toInt < 0 ∨ 2 ^ (n + 1) - 1 < a.toInt)) := by
  have hb : (0 : Int) ≤ 2 ^ (n + 1) - 1 := by have : (1 : Int) ≤ 2 ^ (n + 1) := one_le_pow₀ (by decide); omega
  have hn : wordOf (2 ^ (n + 1) - 1) = BitVec.ofNat 32 (2 ^ (n + 1) - 1) := by
    rw [wordOf, ← BitVec.ofInt_natCast, Nat.cast_sub Nat.one_le_two_pow]
    norm_cast
  unfold saturate
  by_cases low : a.toInt < 0
  · rw [limit_of_lt low, if_pos low]
    simp [low, wordOf, Int.ne_of_gt low]
  · by_cases high : 2 ^ (n + 1) - 1 < a.toInt
    · rw [limit_of_gt hb high, if_neg low, if_pos high, hn]
      simp [high, Int.ne_of_lt high]
    · rw [limit_of_mem (by omega) (by omega), if_neg low, if_neg high, wordOf_toInt]
      simp [low, high]

/-- CLAMP: the greater of rd and the lower bound, under the upper bound, is one of the three words. -/
theorem toInt_clamp (d a b : Word) :
    (if b.toInt < a.toInt then b else if d.toInt < a.toInt then a else if b.toInt < d.toInt then b else d).toInt =
      min (max d.toInt a.toInt) b.toInt := by
  split_ifs <;> omega

/-- A value that is a word's is written as that word, and differs from rd's where the words differ. -/
theorem wordOf_ne_of_toInt_eq {v : Int} {w : Word} (d : Word) (h : w.toInt = v) :
    (wordOf v, decide (v ≠ d.toInt)) = (w, decide (w ≠ d)) := by
  rw [← h, wordOf_toInt]
  simp only [ne_eq, BitVec.toInt_inj]

/-- Settles O15: each result is `saturate` of the value that Table 10.12 gives. -/
theorem fixedPointResults : Obligations.FixedPointResults := by
  intro s p rd r1 r2 n x a b half is
  refine ⟨?qadd, ?qsub, ?qneg, ?qabs, ?qmul, ?qmulh, ?qshl, ?sat, ?satu, ?clamp⟩
  case qadd => exact State.limits_of_aluSat_sat32 rfl rfl
  case qsub => exact State.limits_of_aluSat_sat32 rfl rfl
  case qneg => exact State.limits_of_aluSat_sat32 rfl rfl
  case qabs => exact State.limits_of_aluSat_sat32 rfl rfl
  case qmul => exact State.limits_of_aluSat_sat32 rfl (congrArg sat32 (shrI_eq_div _ 31))
  case qmulh => exact State.limits_of_aluSat (wordBounds_signed 15) rfl (congrArg sat16 (shrI_eq_div _ 15))
  case qshl => exact State.limits_of_aluSat_sat32 rfl rfl
  case sat => exact State.limits_of_aluSat (wordBounds_signed n) rfl rfl
  case satu => exact State.writes_of_aluSat rfl (saturate_unsigned _ _)
  case clamp => exact State.writes_of_aluSat rfl (wordOf_ne_of_toInt_eq _ (toInt_clamp _ _ _))

end Sys2Proof.Machine
end

section
/-!
PROOF. The multiply-accumulate group (R258): accumulation into a word and into a register pair, and the words that name no pair.
-/
namespace Sys2Proof.Machine

/-! ### Accumulation -/

/-- Rounding a product once into rd at Q31, half upward. -/
theorem qmac_add (d a b : Word) : qmac false d a b = sat32 ((d.toInt * 2 ^ 31 + a.toInt * b.toInt + 2 ^ 30) / 2 ^ 31) :=
  congrArg sat32 (shrI_eq_div _ 31)
theorem qmac_sub (d a b : Word) : qmac true d a b = sat32 ((d.toInt * 2 ^ 31 - a.toInt * b.toInt + 2 ^ 30) / 2 ^ 31) :=
  congrArg sat32 (shrI_eq_div _ 31)

/-- A register pair as a number. -/
theorem toNat_pair (hi lo : Word) : (hi ++ lo).toNat = lo.toNat + 2 ^ 32 * hi.toNat := by
  rw [BitVec.toNat_append, Nat.shiftLeft_eq, Nat.mul_comm, ← Nat.two_pow_add_eq_or_of_lt lo.isLt, Nat.add_comm]

/-- A signed product added to a pair, modulo 2^64. -/
theorem toNat_pair_add_signed (d : BitVec 64) (a b : Word) :
    (((d.toNat : Int) + a.toInt * b.toInt) % 2 ^ 64).toNat = (d + a.signExtend 64 * b.signExtend 64).toNat := by
  have h : d + a.signExtend 64 * b.signExtend 64 = BitVec.ofInt 64 (d.toNat + a.toInt * b.toInt) := by
    rw [BitVec.ofInt_add, BitVec.ofInt_mul, BitVec.ofInt_natCast, BitVec.ofNat_toNat, BitVec.setWidth_eq]
    rfl
  rw [h, BitVec.toNat_ofInt]
  rfl

/-- An unsigned product added to a pair, modulo 2^64. -/
theorem toNat_pair_add_unsigned (d : BitVec 64) (a b : Word) :
    (d.toNat + a.toNat * b.toNat) % 2 ^ 64 = (d + a.setWidth 64 * b.setWidth 64).toNat := by
  rw [BitVec.toNat_add, BitVec.toNat_mul, BitVec.toNat_setWidth_of_le (by decide), BitVec.toNat_setWidth_of_le (by decide), Nat.add_mod_mod]

/-- The halves of a 64-bit value as words. -/
theorem ofNat_toNat_low (v : BitVec 64) : BitVec.ofNat 32 v.toNat = v.extractLsb' 0 32 := by
  rw [BitVec.extractLsb', Nat.shiftRight_zero]
theorem ofNat_toNat_high (v : BitVec 64) : BitVec.ofNat 32 (v.toNat / 2 ^ 32) = v.extractLsb' 32 32 := by
  rw [BitVec.extractLsb', Nat.shiftRight_eq_div_pow]

/-- The meanings of MACL and MACLU (Table 10.13). -/
theorem exec_macl (p : Proc) (rd r1 r2 : RegNo) (s : State) : exec (.macl p rd r1 r2) s =
    aluPair (.macl p rd r1 r2) p rd (fun x v => (((v : Int) + (x.reg r1).toInt * (x.reg r2).toInt) % 2 ^ 64).toNat) s := by
  change execMacl p rd r1 r2 s = _
  rfl
theorem exec_maclu (p : Proc) (rd r1 r2 : RegNo) (s : State) : exec (.maclu p rd r1 r2) s =
    aluPair (.maclu p rd r1 r2) p rd (fun x v => (v + (x.reg r1).toNat * (x.reg r2).toNat) % 2 ^ 64) s := by
  change execMaclu p rd r1 r2 s = _
  rfl

/-- An even rd below w14 takes a 64-bit value together with the register after it. -/
theorem State.sets_of_aluPair {s : State} {p : Proc} {i : Instr} {rd : RegNo} {f : Cpu → Nat → Nat} {v : BitVec 64} (even : rd.val % 2 = 0)
    (ne14 : rd ≠ 14) (he : exec i s = aluPair i p rd f s)
    (hf : f (s.cpuAt p.key) ((s.cpuAt p.key).reg (rd.val + 1) ++ (s.cpuAt p.key).reg rd).toNat = v.toNat) :
    s.Sets p 4 (fun y => (y.setReg rd (v.extractLsb' 0 32)).setReg (rd.val + 1) (v.extractLsb' 32 32)) i := by
  have pair : ¬(rd.val % 2 = 1 ∨ rd = 14) := fun h => h.elim (by omega) ne14
  refine State.sets_of_regInstr (short := false) he ?_
  rw [toNat_pair] at hf
  dsimp only
  rw [if_neg pair, hf, ofNat_toNat_low, ofNat_toNat_high]

/-! ### Words that name no pair (R236, R258) -/

section
variable {op func : Nat} (rd r1 r2 : RegNo) {aux : Nat}

theorem wbits_encWr_op (hop : op < 64) : wbits (encWr op func rd r1 r2 aux) 1 6 = op := by
  unfold wbits encWr
  omega
theorem wbits_encWr_func (hop : op < 64) (hfunc : func < 128) : wbits (encWr op func rd r1 r2 aux) 19 7 = func := by
  unfold wbits encWr
  omega
theorem regAt_encWr_rd (hop : op < 64) : regAt (encWr op func rd r1 r2 aux) 7 = rd := by
  apply Fin.ext
  simp only [regAt, encWr]
  omega
/-- A WR-format word is that of a 32-bit instruction. -/
theorem isShort_encWr : isShort (encWr op func rd r1 r2 aux % 65536) = false := by
  simp only [isShort, encWr, beq_eq_false_iff_ne]
  omega

end

/-- MACL and MACLU of an odd rd or of w14 decode to nothing. -/
theorem decode32_no_pair (p : Proc) (rv : List (Fin 18)) (rd r1 r2 : RegNo) {func : Nat} (hfunc : func = 4 ∨ func = 5)
    (hrd : rd.val % 2 = 1 ∨ rd = 14) : decode32 p rv (encWr 0x1D func rd r1 r2) = none := by
  have op := wbits_encWr_op (func := func) (aux := 0) rd r1 r2 (show 0x1D < 64 by decide)
  have fn := wbits_encWr_func (aux := 0) rd r1 r2 (show 0x1D < 64 by decide) (show func < 128 by omega)
  have reg := regAt_encWr_rd (func := func) (aux := 0) rd r1 r2 (show 0x1D < 64 by decide)
  have notPair : (rd.val % 2 == 0 && rd != 14) = false := by
    rcases hrd with odd | rfl
    · simp [odd]
    · rfl
  have wr : decodeWr p (encWr 0x1D func rd r1 r2) = none := by
    simp [decodeWr, op, fn, reg, hfunc, form, Bool.and_assoc, notPair]
  simp [decode32, op, loadStore, wr]

/-- Two halfwords at the pc, of which the first is that of a 32-bit instruction, may be decoded together. -/
theorem State.decoded_of_long {s : State} {p : Proc} {rv : List (Fin 18)} {h0 h1 : Nat} (m0 : h0 ∈ s.halvesAt p (s.pcOf p))
    (m1 : h1 ∈ s.halvesAt p (s.pcOf p + 2)) (long : isShort h0 = false) : (4, decodeInsn p rv h0 h1) ∈ s.decoded p rv := by
  refine List.mem_flatten.mpr ⟨_, List.mem_map.mpr ⟨h0, m0, rfl⟩, ?_⟩
  rw [long]
  exact List.mem_map.mpr ⟨h1, m1, rfl⟩

/-- A 32-bit word at the pc that decodes to nothing raises UNDEF. -/
theorem State.undefined_long_traps {s : State} {p : Proc} {w : Nat} (issues : s.issues p 4 = true) (m0 : w % 65536 ∈ s.halvesAt p (s.pcOf p))
    (m1 : w / 65536 ∈ s.halvesAt p (s.pcOf p + 2)) (long : isShort (w % 65536) = false) (hw : w < 2 ^ 32) (undef : decode32 p [] w = none) :
    exec (.undefinedInstruction p false) s = .next ((s.fetched p 4).trapped p .undef) := by
  have found : (4, none) ∈ s.decoded p [] := by
    have h := State.decoded_of_long (rv := []) m0 m1 long
    have whole : w % 65536 % 65536 + 65536 * (w / 65536 % 65536) = w := by omega
    rwa [decodeInsn, if_neg (by simp [long]), whole, undef] at h
  change Host.Outcome.next (if (s.decoded p []).contains (4, none) = true then s.run p 4 _ else s) = _
  rw [if_pos (List.contains_iff_mem.mpr found)]
  exact congrArg _ (State.run_raise issues rfl)

/-- Settles O16: words and pairs accumulate as Table 10.13 gives, and no MACL or MACLU of another rd decodes. -/
theorem multiplyAccumulateResults : Obligations.MultiplyAccumulateResults := by
  intro s p rd r1 r2 x d a b is pair both
  refine ⟨?mac, ?msu, ?qmac, ?qmsu, ?pairs, ?undef⟩
  case mac => exact State.writes_of_aluPlain (short := false) rfl rfl
  case msu => exact State.writes_of_aluPlain (short := false) rfl rfl
  case qmac => exact State.limits_of_aluSat_sat32 rfl (qmac_add d a b)
  case qmsu => exact State.limits_of_aluSat_sat32 rfl (qmac_sub d a b)
  case pairs =>
    intro even ne14
    constructor
    · exact State.sets_of_aluPair even ne14 (exec_macl p rd r1 r2 s) (toNat_pair_add_signed pair a b)
    · exact State.sets_of_aluPair even ne14 (exec_maclu p rd r1 r2 s) (toNat_pair_add_unsigned pair a b)
  case undef =>
    intro hrd issues func hfunc w m0 m1
    have hw : w < 2 ^ 32 := by simp only [w, encWr]; omega
    exact State.undefined_long_traps issues m0 m1 (isShort_encWr rd r1 r2) hw (decode32_no_pair p [] rd r1 r2 hfunc hrd)

end Sys2Proof.Machine
end

section
/-!
PROOF. The registers of a processor one by one (R229, R230), and the hardware loops (R263, R264): what completing an instruction and a taken
transfer do to them.
-/
namespace Sys2Proof.Machine

/-! ### A register that is written, and the others -/

section
variable (x : Cpu)

@[simp] theorem Cpu.cr_setCr_same (n : Nat) (v : Word) : (x.setCr n v).cr n = v := Tab.get_set_same _ _ _ _
theorem Cpu.cr_setCr_ne {n m : Nat} (v : Word) (h : m ≠ n) : (x.setCr n v).cr m = x.cr m := Tab.get_set_ne _ _ _ h

/-- LAk is bit k of PS (R230); the other bits stay when it is written. -/
theorem Cpu.psBit_setLa_ne {k j : Nat} (b : Bool) (h : j ≠ k) : (x.setLa k b).psBit j = x.psBit j := by
  rw [Cpu.psBit, Cpu.setLa, fieldPut_getLsbD, if_neg (by omega), Cpu.psBit]
theorem Cpu.la_setLa_ne {k j : Nat} (b : Bool) (h : j ≠ k) : (x.setLa k b).la j = x.la j := x.psBit_setLa_ne b h
theorem Cpu.la_setLa_same {k : Nat} (b : Bool) (h : k < 32) : (x.setLa k b).la k = b := by
  rw [Cpu.la, Cpu.psBit, Cpu.setLa, fieldPut_getLsbD, if_pos (by omega), Nat.sub_self, Nat.testBit_zero]
  cases b <;> rfl

/-- Ending a loop changes no flag. -/
theorem Cpu.flags_setLa {k : Nat} (b : Bool) (h : k < 28) : (x.setLa k b).flags = x.flags := by
  have other : ∀ j, 28 ≤ j → (x.setLa k b).psBit j = x.psBit j := fun j hj => x.psBit_setLa_ne b (by omega)
  simp only [Cpu.flags, other _ (show 28 ≤ 28 by decide), other _ (show 28 ≤ 29 by decide), other _ (show 28 ≤ 30 by decide), other _ (show 28 ≤ 31 by decide)]

/-! ### One loop at its end (R263) -/

/-- Does the next address stand at the end of active loop `k`? -/
def Cpu.atEnd (x : Cpu) (k : Nat) (next : Word) : Prop := x.la k = true ∧ next = x.le k

variable {x} {y : Cpu} {k : Nat} {next : Word}

theorem Cpu.loopEnd_back (h : x.atEnd k next) (count : 1#32 < x.lc k) : x.loopEnd k next = (true, x.setCr (lcNo k) (x.lc k - 1#32)) := by
  obtain ⟨active, rfl⟩ := h
  simp [Cpu.loopEnd, active, count]
theorem Cpu.loopEnd_last (h : x.atEnd k next) (count : x.lc k ≤ 1#32) : x.loopEnd k next = (false, (x.setCr (lcNo k) 0#32).setLa k false) := by
  obtain ⟨active, rfl⟩ := h
  simp [Cpu.loopEnd, active, BitVec.not_lt.mpr count]
theorem Cpu.loopEnd_elsewhere (h : ¬x.atEnd k next) : x.loopEnd k next = (false, x) := by
  have : (x.la k && next == x.le k) = false := by simpa [Cpu.atEnd] using h
  rw [Cpu.loopEnd, this]
  rfl

/-! ### Both loops, the inner one first (R263) -/

/-- What R263 does with loop 1 and pc, once loop 0 has not gone back. -/
def Cpu.outerEnd (x : Cpu) (next : Word) : Cpu :=
  { (x.loopEnd 1 next).2 with pc := if (x.loopEnd 1 next).1 then (x.loopEnd 1 next).2.ls 1 else next }

theorem Cpu.advance_of_back (h : x.loopEnd 0 next = (true, y)) : x.advance next = { y with pc := y.ls 0 } := by
  rw [Cpu.advance, h]
  rfl
theorem Cpu.advance_of_not_back (h : x.loopEnd 0 next = (false, y)) : x.advance next = y.outerEnd next := by
  rw [Cpu.advance, h]
  rfl

theorem Cpu.outerEnd_back (h : x.atEnd 1 next) (count : 1#32 < x.cr 5) :
    x.outerEnd next = { x.setCr 5 (x.cr 5 - 1#32) with pc := (x.setCr 5 (x.cr 5 - 1#32)).cr 6 } := by
  rw [Cpu.outerEnd, Cpu.loopEnd_back h count]
  rfl
theorem Cpu.outerEnd_last (h : x.atEnd 1 next) (count : x.cr 5 ≤ 1#32) :
    x.outerEnd next = { (x.setCr 5 0#32).setLa 1 false with pc := next } := by
  rw [Cpu.outerEnd, Cpu.loopEnd_last h count]
  rfl
theorem Cpu.outerEnd_elsewhere (h : ¬x.atEnd 1 next) : x.outerEnd next = { x with pc := next } := by
  rw [Cpu.outerEnd, Cpu.loopEnd_elsewhere h]
  rfl

/-- Loop 1 leaves loop 0 as it is. -/
theorem Cpu.outerEnd_keeps_inner (x : Cpu) (next : Word) : (x.outerEnd next).cr 2 = x.cr 2 ∧ (x.outerEnd next).la 0 = x.la 0 := by
  by_cases h : x.atEnd 1 next
  · by_cases count : 1#32 < x.cr 5
    · rw [Cpu.outerEnd_back h count]
      exact ⟨x.cr_setCr_ne _ (by decide), rfl⟩
    · rw [Cpu.outerEnd_last h (BitVec.not_lt.mp count)]
      exact ⟨x.cr_setCr_ne _ (by decide), Cpu.la_setLa_ne _ _ (by decide)⟩
  · rw [Cpu.outerEnd_elsewhere h]
    exact ⟨rfl, rfl⟩

/-- The three ways of loop 1, as pc, its count and its active bit show. -/
theorem Cpu.outerEnd_cases (x : Cpu) (next : Word) :
    (x.atEnd 1 next → 1#32 < x.cr 5 → (x.outerEnd next).pc = x.cr 6 ∧ (x.outerEnd next).cr 5 = x.cr 5 - 1#32 ∧ (x.outerEnd next).la 1 = true) ∧
    (x.atEnd 1 next → x.cr 5 ≤ 1#32 → (x.outerEnd next).pc = next ∧ (x.outerEnd next).cr 5 = 0#32 ∧ (x.outerEnd next).la 1 = false) ∧
    (¬x.atEnd 1 next → (x.outerEnd next).pc = next ∧ (x.outerEnd next).cr 5 = x.cr 5 ∧ (x.outerEnd next).la 1 = x.la 1) := by
  refine ⟨fun h count => ?_, fun h count => ?_, fun h => ?_⟩
  · rw [Cpu.outerEnd_back h count]
    exact ⟨x.cr_setCr_ne _ (by decide), x.cr_setCr_same _ _, h.1⟩
  · rw [Cpu.outerEnd_last h count]
    exact ⟨rfl, x.cr_setCr_same _ _, Cpu.la_setLa_same _ _ (by decide)⟩
  · rw [Cpu.outerEnd_elsewhere h]
    exact ⟨rfl, rfl, rfl⟩

theorem Cpu.advance_back (h : x.atEnd 0 next) (count : 1#32 < x.cr 2) :
    x.advance next = { x.setCr 2 (x.cr 2 - 1#32) with pc := (x.setCr 2 (x.cr 2 - 1#32)).cr 3 } :=
  Cpu.advance_of_back (Cpu.loopEnd_back h count)
theorem Cpu.advance_last (h : x.atEnd 0 next) (count : x.cr 2 ≤ 1#32) :
    x.advance next = ((x.setCr 2 0#32).setLa 0 false).outerEnd next :=
  Cpu.advance_of_not_back (Cpu.loopEnd_last h count)
theorem Cpu.advance_elsewhere (h : ¬x.atEnd 0 next) : x.advance next = x.outerEnd next :=
  Cpu.advance_of_not_back (Cpu.loopEnd_elsewhere h)

/-- Where loop 0 does not go back, loop 1 is found as it was. -/
theorem Cpu.advance_outer (h : ¬x.atEnd 0 next ∨ x.atEnd 0 next ∧ x.cr 2 ≤ 1#32) :
    ∃ z : Cpu, x.advance next = z.outerEnd next ∧ z.cr 5 = x.cr 5 ∧ z.cr 6 = x.cr 6 ∧ z.cr 7 = x.cr 7 ∧ z.la 1 = x.la 1 := by
  rcases h with away | ⟨last, count⟩
  · exact ⟨x, Cpu.advance_elsewhere away, rfl, rfl, rfl, rfl⟩
  · exact ⟨_, Cpu.advance_last last count, x.cr_setCr_ne _ (by decide), x.cr_setCr_ne _ (by decide), x.cr_setCr_ne _ (by decide),
      Cpu.la_setLa_ne _ _ (by decide)⟩

end

/-- Settles O28: the ways of loop 0 are `Cpu.advance_back`, `Cpu.advance_last` and `Cpu.advance_elsewhere`; those of loop 1 follow in
`Cpu.outerEnd_cases`. -/
theorem hardwareLoopsGoBack : Obligations.HardwareLoopsGoBack := by
  intro x next at0 at1 ends0 y
  refine ⟨?back, ?last, ?elsewhere, ?outer, ?neither⟩
  case back =>
    intro h count
    rw [show y = _ from Cpu.advance_back h count]
    exact ⟨x.cr_setCr_ne _ (by decide), x.cr_setCr_same _ _, x.cr_setCr_ne _ (by decide), rfl⟩
  case last =>
    rintro ⟨h, count⟩
    rw [show y = _ from Cpu.advance_last h count, (Cpu.outerEnd_keeps_inner _ _).1, (Cpu.outerEnd_keeps_inner _ _).2]
    exact ⟨x.cr_setCr_same _ _, Cpu.la_setLa_same _ _ (by decide)⟩
  case elsewhere =>
    intro h
    rw [show y = _ from Cpu.advance_elsewhere h]
    exact Cpu.outerEnd_keeps_inner x next
  case outer =>
    intro h
    obtain ⟨z, hz, h5, h6, h7, hla⟩ := Cpu.advance_outer h
    have := z.outerEnd_cases next
    rw [show z.atEnd 1 next ↔ at1 by simp only [Cpu.atEnd, hla, show z.le 1 = x.cr 7 from h7, at1], ← hz, h5, h6, hla] at this
    exact this
  case neither =>
    intro h0 h1
    rw [show y = _ from Cpu.advance_elsewhere h0, Cpu.outerEnd_elsewhere h1]

end Sys2Proof.Machine
end

section
/-!
PROOF. Branches (R241, R242, R252): where they go, and that neither a taken transfer nor the hardware loops change a flag.
-/
namespace Sys2Proof.Machine

/-! ### Flags (R230, R263, R264) -/

theorem Cpu.flags_loopEnd (x : Cpu) {k : Nat} (next : Word) (h : k < 28) : (x.loopEnd k next).2.flags = x.flags := by
  by_cases ends : x.atEnd k next
  · by_cases count : 1#32 < x.lc k
    · rw [Cpu.loopEnd_back ends count]
      rfl
    · rw [Cpu.loopEnd_last ends (BitVec.not_lt.mp count)]
      exact Cpu.flags_setLa _ _ h
  · rw [Cpu.loopEnd_elsewhere ends]

/-- Completing an instruction changes no flag. -/
theorem Cpu.flags_advance (x : Cpu) (next : Word) : (x.advance next).flags = x.flags := by
  have inner := x.flags_loopEnd next (show 0 < 28 by decide)
  have outer := (x.loopEnd 0 next).2.flags_loopEnd next (show 1 < 28 by decide)
  cases h : (x.loopEnd 0 next).1
  · rw [Cpu.advance_of_not_back (Prod.ext h rfl)]
    exact outer.trans inner
  · rw [Cpu.advance_of_back (Prod.ext h rfl)]
    exact inner

@[simp] theorem Cpu.pc_transfer (x : Cpu) (t : Word) : (x.transfer t).pc = t := rfl

/-- Leaving a loop's body changes no flag. -/
theorem Cpu.flags_leave (x : Cpu) {k : Nat} (c : Bool) (h : k < 28) : (if c then x.setLa k false else x).flags = x.flags := by
  cases c
  · rfl
  · exact x.flags_setLa false h

/-- A taken transfer changes no flag. -/
theorem Cpu.flags_transfer (x : Cpu) (t : Word) : (x.transfer t).flags = x.flags :=
  (Cpu.flags_leave _ _ (show 1 < 28 by decide)).trans (Cpu.flags_leave x _ (show 0 < 28 by decide))

/-! ### Targets (R241, R252) -/

/-- The address `off` halfwords from the pc. -/
def Cpu.branchTarget (x : Cpu) (off : Int) : Word := x.pc + BitVec.ofInt 32 (2 * off)

theorem Cpu.branchTarget_of_signExtend (x : Cpu) {n : Nat} (off : BitVec n) : x.pc + off.signExtend 32 * 2#32 = x.branchTarget off.toInt := by
  rw [Cpu.branchTarget, Int.mul_comm, BitVec.ofInt_mul]
  rfl

/-- From an even pc every target is even. -/
theorem Cpu.branchTarget_even (x : Cpu) (off : Int) (h : x.pc.getLsbD 0 = false) : (x.branchTarget off).getLsbD 0 = false := by
  have twice : (BitVec.ofInt 32 (2 * off)).getLsbD 0 = false := by
    rw [BitVec.getLsbD, BitVec.toNat_ofInt, Nat.testBit_zero, decide_eq_false_iff_not]
    omega
  rw [Cpu.branchTarget, BitVec.getLsbD_add (by decide), h, twice]
  simp

/-! ### The branches -/

section
variable {s : State} {p : Proc} {i : Instr}

/-- A branch whose condition holds is a taken transfer to its target. -/
theorem State.jumps_of_branch {short : Bool} {off : Word} {c : Cpu → Bool} (he : exec i s = branch i p short off c s)
    (hc : c (s.cpuAt p.key) = true) : s.Jumps p (formLen short) (s.cpuAt p.key) ((s.cpuAt p.key).pc + off * 2#32) i := by
  intro h
  rw [he, branch]
  exact congrArg _ (State.issue_jump h (y := (s.cpuAt p.key).transfer _) (if_pos hc))

/-- A branch whose condition does not hold goes on. -/
theorem State.sets_of_branch {short : Bool} {off : Word} {c : Cpu → Bool} (he : exec i s = branch i p short off c s)
    (hc : c (s.cpuAt p.key) = false) : s.Sets p (formLen short) id i := by
  intro h
  rw [he, branch]
  exact congrArg _ (State.issue_done h (by rw [hc]; rfl))

/-- A branch is taken to its target or goes on as its condition says. -/
theorem State.branches {short : Bool} {n : Nat} {off : BitVec n} {c : Cpu → Bool} (he : exec i s = branch i p short (off.signExtend 32) c s) :
    (c (s.cpuAt p.key) = true → s.Jumps p (formLen short) (s.cpuAt p.key) ((s.cpuAt p.key).branchTarget off.toInt) i) ∧
    (c (s.cpuAt p.key) = false → s.Sets p (formLen short) id i) := by
  rw [← Cpu.branchTarget_of_signExtend]
  exact ⟨State.jumps_of_branch he, State.sets_of_branch he⟩

/-- A jump to an even target, linking where the stack limit allows it (R253). -/
theorem State.jumps_of_jump {short : Bool} {rs r : RegNo} (he : exec i s = jump i p short rs (some r) s)
    (even : ((s.cpuAt p.key).reg rs).getLsbD 0 = false)
    (allowed : r = 15 → (s.cpuAt p.key).limit (s.cpuAt p.key).lvl ≤ (s.cpuAt p.key).next short) :
    s.Jumps p (formLen short) ((s.cpuAt p.key).setReg r ((s.cpuAt p.key).next short)) ((s.cpuAt p.key).reg rs) i := by
  intro h
  rw [he, jump]
  exact congrArg _ (State.issue_jump h (y := ((s.cpuAt p.key).setReg r _).transfer _) (by
    simp only [Cpu.put_of_allowed allowed, even]
    rfl))

/-- BL links the next address and is a taken transfer to its target (R252). -/
theorem State.bl_jumps (off : BitVec 25) :
    s.Jumps p 4 ((s.cpuAt p.key).setReg 14 ((s.cpuAt p.key).pc + 4#32)) ((s.cpuAt p.key).branchTarget off.toInt) (.bl p off) := by
  intro h
  rw [← Cpu.branchTarget_of_signExtend]
  exact congrArg Host.Outcome.next (State.issue_jump h (y := ((s.cpuAt p.key).setReg 14 _).transfer _) rfl)

end

/-! ### The meanings of the branches -/

/-- BCC of a defined condition (R242). -/
theorem exec_bcc (p : Proc) {cc : Fin 16} (off : BitVec 21) (short : Bool) (s : State) (h : cc ≠ 15) :
    exec (.bcc p cc off short) s = branch (.bcc p cc off short) p short (off.signExtend 32) (fun x => condHolds x.flags cc) s := by
  change execBcc p cc off short s = _
  rw [execBcc, if_neg h]

theorem exec_br (p : Proc) (off : BitVec 25) (short : Bool) (s : State) :
    exec (.br p off short) s = branch (.br p off short) p short (off.signExtend 32) (fun _ => true) s := by
  change execBr p off short s = _
  rfl
theorem exec_jlr (p : Proc) (rd rs : RegNo) (short : Bool) (s : State) :
    exec (.jlr p rd rs short) s = jump (.jlr p rd rs short) p short rs (some (if short then 14 else rd)) s := by
  change execJlr p rd rs short s = _
  rfl
theorem exec_cbz (p : Proc) (rs : RegNo) (off : BitVec 20) (s : State) :
    exec (.cbz p rs off) s = branch (.cbz p rs off) p false (off.signExtend 32) (fun x => x.reg rs == 0#32) s := by
  change execCbz p rs off s = _
  rfl
theorem exec_cbnz (p : Proc) (rs : RegNo) (off : BitVec 20) (s : State) :
    exec (.cbnz p rs off) s = branch (.cbnz p rs off) p false (off.signExtend 32) (fun x => x.reg rs != 0#32) s := by
  change execCbnz p rs off s = _
  rfl

/-- Settles O26: a branch is taken or goes on by its condition, and the flags, the pc and the parity of the target do not depend on which
branch it is. -/
theorem branchesGoToPcPlusTwiceTheOffset : Obligations.BranchesGoToPcPlusTwiceTheOffset := by
  intro s p short cc o21 o25 o20 rd r x n target go l next
  have goes : ∀ {len : Nat} {y : Cpu} {taken : Bool} {off : Int} {i : Instr}, y.flags = x.flags →
      (taken = true → s.Jumps p len y (x.branchTarget off) i) ∧ (taken = false → s.Sets p len id i) → go len y taken off i :=
    fun hy ⟨jumps, sets⟩ => ⟨jumps, sets, (Cpu.flags_transfer _ _).trans hy, Cpu.flags_advance _ _, Cpu.pc_transfer _ _, Cpu.branchTarget_even _ _⟩
  refine ⟨?bcc, ?br, ?jlr, ?bl, ?cbz, ?cbnz⟩
  case bcc => exact fun hcc => goes rfl (State.branches (exec_bcc p o21 short s hcc))
  case br => exact goes rfl (State.branches (exec_br p o25 short s))
  case jlr => exact State.jumps_of_jump (exec_jlr p rd r short s)
  case bl => exact goes rfl ⟨fun _ => State.bl_jumps o25, nofun⟩
  case cbz => exact goes rfl (State.branches (exec_cbz p r o20 s))
  case cbnz => exact goes rfl (State.branches (exec_cbnz p r o20 s))

end Sys2Proof.Machine
end

section
/-!
PROOF. The queue, the tick and the frames of the units: what a step runs, that every command goes on, and two states that refute what was
expected of an empty queue and of the units' frames.
-/
namespace Sys2Proof.Machine

/-- Settles O1. -/
theorem stepRunsFrontCommand : Obligations.StepRunsFrontCommand := by
  intro s c cs h
  rw [step, h]

/-- Settles O5: the list of memory is empty at reset. -/
theorem resetMemoryIsCanonical : Obligations.ResetMemoryIsCanonical := rfl

/-- Settles O3: all but five rows answer `.next` outright, and those five do so in each of their two forms. -/
theorem everyCommandGoesOn : Obligations.EveryCommandGoesOn := by
  intro i s
  cases i
  case add p rd r1 r2 short => cases short <;> exact ⟨_, rfl⟩
  case addi p rd r1 imm short => cases short <;> exact ⟨_, rfl⟩
  case sub p rd r1 r2 short => cases short <;> exact ⟨_, rfl⟩
  case bcc p cc off short =>
    change ∃ t, execBcc p cc off short s = .next t
    by_cases h : cc = 15
    · exact ⟨_, by rw [execBcc, if_pos h]⟩
    · exact ⟨_, by rw [execBcc, if_neg h]; rfl⟩
  case debugDataAccess q c w => cases w <;> exact ⟨_, rfl⟩
  all_goals exact ⟨_, rfl⟩

/-- A store of the supervisor to RST_CTRL with the key 0x3C of a DEVICE reset that has been the oldest in its buffer for its access time. -/
def resetDraining : State :=
  { State.reset with
    now := 800#64
    bufs := [(8, { stores := [{ addr := 0x40040004, bytes := [1#8, 0x3C#8, 0#8, 0#8], lvl := 2, view := 15, rivals := [] }] })] }

/-- The tick in which that store drains resets the device, and device time with it (R284, R516). -/
theorem resetDraining_tick_now : resetDraining.tick.now = 0#64 := by decide +kernel

/-- Refutes O2: with an empty queue, a buffered store to RST_CTRL that drains in the tick resets the device, and device time stands at 0
(`resetDraining`). -/
theorem not_emptyQueueStepIsOneTick : ¬ Obligations.EmptyQueueStepIsOneTick := by
  intro h
  obtain ⟨t, hstep, hnow, -⟩ := h resetDraining rfl
  obtain rfl : resetDraining.tick = t := Host.Outcome.next.inj hstep
  exact absurd (resetDraining_tick_now.symm.trans hnow) (by decide)

/-- A round of scan converter 0 at its last slot, started by an event whose eighth hop came from a channel that the device does not have. -/
def strayRound : State :=
  { State.reset.put (R.CLK_Dd_STATUS_RUNNING 28) 1 with scan := [(0, { slots := [0], cause := some (7, 0x4000) })] }

/-- Refutes O8: a state may hold, as the cause of a scan round, a channel of the event matrix beyond its 256; the event at the end of the
round then sets LOOP at an address beyond page 0x4028 (`strayRound`). -/
theorem not_commandsStayInTheirUnit : ¬ Obligations.CommandsStayInTheirUnit := by
  intro h
  obtain ⟨-, regs⟩ := h (.scanConversion 0 0) .scanners strayRound _ rfl rfl
  exact absurd (regs (R.EVM_Cc_STATUS 0x4000) (by decide)) (by decide +kernel)

end Sys2Proof.Machine
end

section
/-!
PROOF. The integer instructions (R241 to R245): sums and differences with their flags, shifts, extensions and comparisons as R243 to R245
word them, and the three shapes of their meanings, `aluPlain`, `aluNzcv` and `aluNz`.
-/
namespace Sys2Proof.Machine

/-! ### Flags (R243) -/

theorem flagN_eq (r : Word) : flagN r = r.getLsbD 31 := BitVec.msb_eq_getLsbD_last r

/-- A word's value differs from an exact one where that one lies outside the range of a word. -/
theorem toInt_ofInt_ne_iff (e : Int) : (BitVec.ofInt 32 e).toInt ≠ e ↔ e < -2 ^ 31 ∨ 2 ^ 31 ≤ e := by
  rw [BitVec.toInt_ofInt]
  constructor
  · intro h
    by_contra inside
    rw [not_or, not_lt, not_le] at inside
    exact h (Int.bmod_eq_of_le (by omega) (by omega))
  · intro outside same
    have lower := Int.le_bmod (x := e) (m := 2 ^ 32) (by decide)
    have upper := Int.bmod_lt (x := e) (m := 2 ^ 32) (by decide)
    omega

/-- A word that has the value of an exact integer modulo 2^32 overflows where the integer lies outside the range of a word. -/
theorem overflow_iff {r : Word} {e : Int} (h : r = BitVec.ofInt 32 e) : decide (r.toInt ≠ e) = decide (e < -2 ^ 31 ∨ 2 ^ 31 ≤ e) := by
  rw [h, decide_eq_decide]
  exact toInt_ofInt_ne_iff e

theorem addFlags_eq (a b : Word) (c : Bool) : addFlags a b c = (a + b + BitVec.ofNat 32 c.toNat, sumFlags a b c.toNat) := by
  have carry : (if c then 1 else 0) = c.toNat := by cases c <;> rfl
  have sum : wordOf ((a.toNat + b.toNat + c.toNat : Nat) : Int) = a + b + BitVec.ofNat 32 c.toNat := by
    rw [wordOf, BitVec.ofInt_natCast, BitVec.ofNat_add, BitVec.ofNat_add, BitVec.ofNat_toNat, BitVec.ofNat_toNat, BitVec.setWidth_eq,
      BitVec.setWidth_eq]
  have exact_sum : a + b + BitVec.ofNat 32 c.toNat = BitVec.ofInt 32 (a.toInt + b.toInt + c.toNat) := by
    rw [BitVec.ofInt_add, BitVec.ofInt_add, BitVec.ofInt_toInt, BitVec.ofInt_toInt, BitVec.ofInt_natCast]
  simp only [addFlags, carry, sum, sumFlags, flagN_eq, flagZ, overflow_iff exact_sum]

theorem subFlags_eq (a b : Word) (c : Bool) : subFlags a b c = (a - b - BitVec.ofNat 32 (1 - c.toNat), diffFlags a b c.toNat) := by
  have borrow : (if c then 0 else 1) = 1 - c.toNat := by cases c <;> rfl
  have diff : a - b - BitVec.ofNat 32 (1 - c.toNat) = BitVec.ofInt 32 (a.toInt - b.toInt - (1 - c.toNat : Nat)) := by
    rw [Int.sub_eq_add_neg, Int.sub_eq_add_neg, BitVec.ofInt_add, BitVec.ofInt_add, BitVec.ofInt_neg, BitVec.ofInt_neg, BitVec.ofInt_toInt,
      BitVec.ofInt_toInt, BitVec.ofInt_natCast, ← BitVec.sub_eq_add_neg, ← BitVec.sub_eq_add_neg]
  simp only [subFlags, borrow, wordOf, ← diff, diffFlags, flagN_eq, flagZ, overflow_iff diff]

theorem nzFlags_eq (r : Word) (old : Nzcv) : nzFlags r old = resultFlags r old := by
  rw [nzFlags, resultFlags, flagN_eq, flagZ]

/-- ADD, ADDS and CMN carry nothing in. -/
theorem addFlags_false (a b : Word) : addFlags a b false = (a + b, sumFlags a b 0) := by simp [addFlags_eq]
/-- SUB, SUBS and CMP borrow nothing. -/
theorem subFlags_true (a b : Word) : subFlags a b true = (a - b, diffFlags a b 1) := by simp [subFlags_eq]

/-! ### Shifts (R245) -/

theorem shl_eq (a b : Word) : shl a b = if 32 ≤ b.toNat % 256 then 0#32 else a <<< (b.toNat % 256) := by
  unfold shl
  split
  · exact BitVec.shiftLeft_eq_zero ‹_›
  · rfl
theorem shr_eq (a b : Word) : shr a b = if 32 ≤ b.toNat % 256 then 0#32 else a >>> (b.toNat % 256) := by
  unfold shr
  split
  · exact BitVec.ushiftRight_eq_zero ‹_›
  · rfl
theorem sar_eq (a b : Word) : sar a b =
    if 32 ≤ b.toNat % 256 then (if a.getLsbD 31 then 0xFFFFFFFF#32 else 0#32) else a.sshiftRight (b.toNat % 256) := by
  unfold sar
  split
  · next big =>
    apply BitVec.eq_of_getLsbD_eq
    intro i hi
    have beyond : ¬b.toNat % 256 + i < 32 := by omega
    have full : ∀ k : Nat, k < 32 → (0xFFFFFFFF#32 : Word).getLsbD k = true := by decide
    rw [BitVec.getLsbD_sshiftRight, BitVec.msb_eq_getLsbD_last]
    cases a.getLsbD 31 <;> simp [beyond, Nat.not_le.mpr hi, full i hi]
  · rfl
theorem ror_eq (a b : Word) : ror a b = (a >>> (b.toNat % 256 % 32)) ||| (a <<< (32 - b.toNat % 256 % 32)) := by
  have amount : b.toNat % 256 % 32 = b.toNat % 32 := by omega
  rw [ror, amount, BitVec.rotateRight_def, Nat.mod_mod]

/-- A shift by an immediate shifts by it. -/
theorem toNat_ofNat_shift (n : Fin 32) : (BitVec.ofNat 32 n.val).toNat % 256 = n.val := by
  have := n.isLt
  rw [BitVec.toNat_ofNat]
  omega

/-! ### Extensions, REV and CLZ (R244) -/

theorem setWidth_and_mask (a : Word) : (a.setWidth 8).setWidth 32 = a &&& 0xFF#32 := by
  ext i hi
  simp only [BitVec.getElem_setWidth, BitVec.getElem_and, BitVec.getLsbD_setWidth, show (0xFF#32 : Word) = (BitVec.allOnes 8).setWidth 32 from rfl,
    BitVec.getLsbD_allOnes]
  rw [BitVec.getLsbD_eq_getElem hi, Bool.and_comm]
theorem setWidth_and_mask_16 (a : Word) : (a.setWidth 16).setWidth 32 = a &&& 0xFFFF#32 := by
  ext i hi
  simp only [BitVec.getElem_setWidth, BitVec.getElem_and, BitVec.getLsbD_setWidth, show (0xFFFF#32 : Word) = (BitVec.allOnes 16).setWidth 32 from rfl,
    BitVec.getLsbD_allOnes]
  rw [BitVec.getLsbD_eq_getElem hi, Bool.and_comm]

/-- REV gathers the bytes in the opposite order. -/
theorem revW_eq (a : Word) : revW a = a.extractLsb' 0 8 ++ a.extractLsb' 8 8 ++ a.extractLsb' 16 8 ++ a.extractLsb' 24 8 := by
  have appended : ∀ (u v w x : BitVec 8) (k : Nat), (u ++ v ++ w ++ x : Word).getLsbD k =
      if k < 8 then x.getLsbD k else if k < 16 then w.getLsbD (k - 8) else if k < 24 then v.getLsbD (k - 16) else u.getLsbD (k - 24) := by
    intro u v w x k
    rw [BitVec.getLsbD_append, BitVec.getLsbD_append, BitVec.getLsbD_append]
    grind
  apply BitVec.eq_of_getLsbD_eq
  intro k hk
  rw [appended, revW]
  simp only [BitVec.getLsbD_or, BitVec.getLsbD_shiftLeft, BitVec.getLsbD_ushiftRight, BitVec.getLsbD_and, BitVec.getLsbD_extractLsb']
  interval_cases k <;> simp

/-- CLZ counts the zeros above the highest one (Table 10.9). -/
theorem clzW_spec (a : Word) : ∃ n : Nat, n ≤ 32 ∧ clzW a = BitVec.ofNat 32 n ∧ (∀ j, j < n → a.getLsbD (31 - j) = false) ∧
    (n < 32 → a.getLsbD (31 - n) = true) := by
  by_cases zero : a = 0#32
  · exact ⟨32, le_rfl, by rw [clzW, if_pos zero], fun j _ => by simp [zero], fun h => absurd h (lt_irrefl _)⟩
  · have positive : a.toNat ≠ 0 := fun h => zero (BitVec.eq_of_toNat_eq h)
    have top : Nat.log2 a.toNat < 32 := (Nat.log2_lt positive).mpr a.isLt
    refine ⟨31 - Nat.log2 a.toNat, by omega, by rw [clzW, if_neg zero], fun j hj => ?_, fun _ => ?_⟩
    · exact Nat.testBit_lt_two_pow (lt_of_lt_of_le Nat.lt_log2_self (Nat.pow_le_pow_right (by decide) (by omega)))
    · have index : 31 - (31 - Nat.log2 a.toNat) = Nat.log2 a.toNat := by omega
      rw [index]
      exact Nat.testBit_log2 positive

/-! ### Comparisons (R244) -/

theorem min_of_slt (a b : Word) : (if a.slt b then a else b) = if a.toInt ≤ b.toInt then a else b := by
  rw [BitVec.slt]
  rcases lt_trichotomy a.toInt b.toInt with less | same | more
  · simp [less, less.le]
  · simp [BitVec.eq_of_toInt_eq same]
  · simp [not_lt.mpr more.le, not_le.mpr more]
theorem max_of_slt (a b : Word) : (if a.slt b then b else a) = if b.toInt ≤ a.toInt then a else b := by
  rw [BitVec.slt]
  by_cases less : a.toInt < b.toInt
  · simp [less, not_le.mpr less]
  · simp [less, not_lt.mp less]
theorem minu_of_lt (a b : Word) : (if a < b then a else b) = if a.toNat ≤ b.toNat then a else b := by
  simp only [BitVec.lt_def]
  rcases lt_trichotomy a.toNat b.toNat with less | same | more
  · simp [less, less.le]
  · simp [BitVec.eq_of_toNat_eq same]
  · simp [not_lt.mpr more.le, not_le.mpr more]
theorem maxu_of_lt (a b : Word) : (if a < b then b else a) = if b.toNat ≤ a.toNat then a else b := by
  simp only [BitVec.lt_def]
  by_cases less : a.toNat < b.toNat
  · simp [less, not_le.mpr less]
  · simp [less, not_lt.mp less]

/-! ### The shapes that set flags -/

section
variable {s : State} {p : Proc} {i : Instr} {rd : RegNo} {short : Bool}

/-- A result that sets N, Z, C and V. -/
theorem State.writes_of_aluNzcv {f : Cpu → Word × Nzcv} {v : Word} {n : Nzcv} (he : exec i s = aluNzcv i p short rd f s)
    (hf : f (s.cpuAt p.key) = (v, n)) : s.Writes p (formLen short) rd v (·.setFlags n) i :=
  State.writes_of_regInstr he (by simp only [hf])

/-- A result that sets N and Z. -/
theorem State.writes_of_aluNz {f : Cpu → Word} {v : Word} (he : exec i s = aluNz i p short true rd f s) (hf : f (s.cpuAt p.key) = v) :
    s.Writes p (formLen short) rd v (·.setFlags (resultFlags v (s.cpuAt p.key).flags)) i :=
  State.writes_of_regInstr he (by simp only [hf, if_true, nzFlags_eq])

/-- A logical result of the 32-bit form, which sets no flag. -/
theorem State.writes_of_aluNz_plain {f : Cpu → Word} {v : Word} (he : exec i s = aluNz i p short false rd f s) (hf : f (s.cpuAt p.key) = v) :
    s.Writes p (formLen short) rd v id i :=
  State.writes_of_regInstr (g := id) he (by simp only [hf, Bool.false_eq_true, if_false]; rfl)

/-- A comparison. -/
theorem State.sets_of_aluFlags {f : Cpu → Nzcv} {n : Nzcv} (he : exec i s = aluFlags i p short f s) (hf : f (s.cpuAt p.key) = n) :
    s.Sets p (formLen short) (·.setFlags n) i :=
  State.sets_of_regInstr he (by rw [hf])

end

/-! ### The groups -/

/-- Settles O9: shifts and comparisons are `shl_eq` to `maxu_of_lt`; the rest write what the model computes. -/
theorem threeRegisterResults : Obligations.ThreeRegisterResults := by
  intro s p rd r1 r2 a b k is
  refine ⟨?add, ?sub, ?and, ?or, ?xor, ?andn, ?lsl, ?lsr, ?asr, ?ror, ?min, ?max, ?minu, ?maxu⟩
  case add => exact State.writes_of_aluPlain (short := false) rfl rfl
  case sub => exact State.writes_of_aluPlain (short := false) rfl rfl
  case and => exact State.writes_of_aluNz_plain (short := false) rfl rfl
  case or => exact State.writes_of_aluNz_plain (short := false) rfl rfl
  case xor => exact State.writes_of_aluNz_plain (short := false) rfl rfl
  case andn => exact State.writes_of_aluPlain (short := false) rfl rfl
  case lsl => exact State.writes_of_aluPlain (short := false) rfl (shl_eq a b)
  case lsr => exact State.writes_of_aluPlain (short := false) rfl (shr_eq a b)
  case asr => exact State.writes_of_aluPlain (short := false) rfl (sar_eq a b)
  case ror => exact State.writes_of_aluPlain (short := false) rfl (ror_eq a b)
  case min => exact State.writes_of_aluPlain (short := false) rfl (min_of_slt a b)
  case max => exact State.writes_of_aluPlain (short := false) rfl (max_of_slt a b)
  case minu => exact State.writes_of_aluPlain (short := false) rfl (minu_of_lt a b)
  case maxu => exact State.writes_of_aluPlain (short := false) rfl (maxu_of_lt a b)

/-- Settles O10: REV and CLZ are `revW_eq` and `clzW_spec`; CSEL selects where its condition is defined. -/
theorem oneRegisterResults : Obligations.OneRegisterResults := by
  intro s p rd r1 r2 cc x a is
  obtain ⟨n, hn, hclz, zeros, one⟩ := clzW_spec a
  refine ⟨?sxtb, ?sxth, ?zxtb, ?zxth, ?rev, ⟨n, hn, ?clz, zeros, one⟩, ?csel⟩
  case sxtb => exact State.writes_of_aluPlain (short := false) rfl (by rw [BitVec.setWidth_eq_extractLsb' (by decide)])
  case sxth => exact State.writes_of_aluPlain (short := false) rfl (by rw [BitVec.setWidth_eq_extractLsb' (by decide)])
  case zxtb => exact State.writes_of_aluPlain (short := false) rfl (setWidth_and_mask a)
  case zxth => exact State.writes_of_aluPlain (short := false) rfl (setWidth_and_mask_16 a)
  case rev => exact State.writes_of_aluPlain (short := false) rfl (revW_eq a)
  case clz => exact State.writes_of_aluPlain (short := false) rfl hclz
  case csel =>
    intro defined
    exact State.writes_of_regInstr (short := false) (g := id) rfl (by
      rw [if_neg defined]
      cases (s.cpuAt p.key).put rd _ <;> rfl)

/-- Settles O11: sums and differences carry the flags of `addFlags_eq` and `subFlags_eq`. -/
theorem flagSettingResults : Obligations.FlagSettingResults := by
  intro s p rd r1 r2 imm x a b c
  refine ⟨?adds, ?subs, ?adc, ?sbc, ?ands, ?cmp, ?cmn, ?tst, ?cmpi⟩
  case adds => exact State.writes_of_aluNzcv (short := false) rfl (addFlags_false a b)
  case subs => exact State.writes_of_aluNzcv (short := false) rfl (subFlags_true a b)
  case adc => exact State.writes_of_aluNzcv (short := false) rfl (addFlags_eq a b x.flags.c)
  case sbc => exact State.writes_of_aluNzcv (short := false) rfl (subFlags_eq a b x.flags.c)
  case ands => exact State.writes_of_aluNz (short := false) rfl rfl
  case cmp => exact State.sets_of_aluFlags (short := false) rfl (congrArg Prod.snd (subFlags_true a b))
  case cmn => exact State.sets_of_aluFlags (short := false) rfl (congrArg Prod.snd (addFlags_false a b))
  case tst => exact State.sets_of_aluFlags (short := false) rfl (nzFlags_eq _ _)
  case cmpi => exact State.sets_of_aluFlags (short := false) rfl (congrArg Prod.snd (subFlags_true a _))

theorem shiftLeft_16_eq_append (i : BitVec 16) : i.setWidth 32 <<< 16 = i ++ 0#16 := by
  apply BitVec.eq_of_getLsbD_eq
  intro k hk
  rw [BitVec.getLsbD_append, BitVec.getLsbD_shiftLeft, BitVec.getLsbD_setWidth]
  by_cases low : k < 16
  · simp [low]
  · have high : k - 16 < 32 := by omega
    simp [low, high, hk]

/-- A sign-extended immediate is its value. -/
theorem signExtend_eq_ofInt {n : Nat} (i : BitVec n) : i.signExtend 32 = BitVec.ofInt 32 i.toInt := rfl

/-- Settles O12: a sign-extended immediate is its value, and a shift by an immediate shifts by it (`toNat_ofNat_shift`). -/
theorem immediateResults : Obligations.ImmediateResults := by
  intro s p rd r1 i16 i17 i21 n x a is
  have small : n.val < 32 := n.isLt
  refine ⟨?movi, ?movhi, ?adr, ?addi, ?andi, ?ori, ?xori, ?lsli, ?lsri, ?asri, ?rori⟩
  case movi => exact State.writes_of_aluPlain (short := false) rfl rfl
  case movhi => exact State.writes_of_aluPlain (short := false) rfl (shiftLeft_16_eq_append i16)
  case adr => exact State.writes_of_aluPlain (short := false) rfl (by
    rw [signExtend_eq_ofInt, Int.mul_comm, BitVec.ofInt_mul]; rfl)
  case addi => exact State.writes_of_aluPlain (short := false) rfl rfl
  case andi => exact State.writes_of_aluPlain (short := false) rfl (by rw [BitVec.ofNat_toNat])
  case ori => exact State.writes_of_aluPlain (short := false) rfl (by rw [BitVec.ofNat_toNat])
  case xori => exact State.writes_of_aluPlain (short := false) rfl (by rw [BitVec.ofNat_toNat])
  case lsli => exact State.writes_of_aluPlain (short := false) rfl (by rw [shl, toNat_ofNat_shift])
  case lsri => exact State.writes_of_aluPlain (short := false) rfl (by rw [shr, toNat_ofNat_shift])
  case asri => exact State.writes_of_aluPlain (short := false) rfl (by rw [sar, toNat_ofNat_shift])
  case rori => exact State.writes_of_aluPlain (short := false) rfl (by
    rw [ror, BitVec.toNat_ofNat, Nat.mod_eq_of_lt (by omega : n.val % 2 ^ 32 < 32), Nat.mod_eq_of_lt (by omega)])

/-- An immediate of 7 bits, extended by way of a wider one. -/
theorem signExtend_signExtend (i : BitVec 7) {n : Nat} (h : 7 ≤ n) : (i.signExtend n).signExtend 32 = i.signExtend 32 := by
  rw [signExtend_eq_ofInt, BitVec.toInt_signExtend_of_le h, signExtend_eq_ofInt]

/-- Settles O13: the 16-bit forms are those of the 32-bit groups with rd as first operand, and the flags of Table 10.4. -/
theorem sixteenBitForms : Obligations.SixteenBitForms := by
  intro s p rd r1 rs imm x a b i k is
  have i17 : (imm.signExtend 17).signExtend 32 = i := signExtend_signExtend imm (by decide)
  refine ⟨?mov, ?movi, ?not, ?mul, ?sxth, ?zxth, ?lsl, ?lsr, ?asr, ?add, ?sub, ?addi, ?neg, ?and, ?or, ?xor, ?cmp, ?cmpi, ?tst, ?nop⟩
  case mov => exact State.writes_of_aluPlain (short := true) rfl rfl
  case movi => exact State.writes_of_aluPlain (short := true) rfl (signExtend_signExtend imm (by decide))
  case not => exact State.writes_of_aluPlain (short := true) rfl rfl
  case mul => exact State.writes_of_aluPlain (short := true) rfl rfl
  case sxth => exact State.writes_of_aluPlain (short := true) rfl (by rw [BitVec.setWidth_eq_extractLsb' (by decide)])
  case zxth => exact State.writes_of_aluPlain (short := true) rfl (setWidth_and_mask_16 b)
  case lsl => exact State.writes_of_aluPlain (short := true) rfl (shl_eq a b)
  case lsr => exact State.writes_of_aluPlain (short := true) rfl (shr_eq a b)
  case asr => exact State.writes_of_aluPlain (short := true) rfl (sar_eq a b)
  case add => exact State.writes_of_aluNzcv (short := true) rfl (addFlags_false a b)
  case sub => exact State.writes_of_aluNzcv (short := true) rfl (subFlags_true a b)
  case addi => exact State.writes_of_aluNzcv (short := true) rfl (by rw [i17]; exact addFlags_false a i)
  case neg => exact State.writes_of_aluNzcv (short := true) rfl (subFlags_true 0#32 b)
  case and => exact State.writes_of_aluNz (short := true) rfl rfl
  case or => exact State.writes_of_aluNz (short := true) rfl rfl
  case xor => exact State.writes_of_aluNz (short := true) rfl rfl
  case cmp => exact State.sets_of_aluFlags (short := true) rfl (congrArg Prod.snd (subFlags_true a b))
  case cmpi => exact State.sets_of_aluFlags (short := true) rfl (by rw [i17]; exact congrArg Prod.snd (subFlags_true a i))
  case tst => exact State.sets_of_aluFlags (short := true) rfl (nzFlags_eq _ _)
  case nop => exact State.sets_of_regInstr (short := true) rfl rfl

end Sys2Proof.Machine
end

section
/-!
PROOF. Memory as a reader sees it: a list in canonical form is told by what its bytes read as (R5, R407, R442).
-/
namespace Sys2Proof.Machine

/-- Canonical memory lists exactly the bytes that read as something else than an unlisted one. -/
theorem Mem.mem_iff_get {m : List Host.Cell} (h : Mem.wf m = true) (c : Host.Cell) : c ∈ m ↔ Mem.get m c.1 = c.2 ∧ c.2 ≠ memDefault c.1 := by
  induction m with
  | nil => exact ⟨nofun, fun h => absurd h.1.symm h.2⟩
  | cons d t ih =>
    obtain ⟨others, rising⟩ := (Mem.wf_iff _).mp h
    obtain ⟨above, rest⟩ := List.pairwise_cons.mp rising
    have ih := ih ((Mem.wf_iff t).mpr ⟨fun e he => others e (List.mem_cons_of_mem _ he), rest⟩)
    have first : d.1 = c.1 → c ∉ t := fun same later => (above c later).ne same
    by_cases same : d.1 = c.1
    · have reads : Mem.get (d :: t) c.1 = d.2 := by rw [Mem.get, if_pos same]
      rw [reads]
      constructor
      · intro hc
        rcases List.mem_cons.mp hc with rfl | later
        · exact ⟨rfl, others c hc⟩
        · exact absurd later (first same)
      · rintro ⟨value, -⟩
        exact List.mem_cons.mpr (.inl (Prod.ext same.symm value.symm))
    · have reads : Mem.get (d :: t) c.1 = Mem.get t c.1 := by rw [Mem.get, if_neg same]
      rw [reads, ← ih, List.mem_cons, or_iff_right fun e => same (congrArg Prod.fst e.symm)]

/-- Canonical memories that read the same are the same list. -/
theorem Mem.ext_get {m m' : List Host.Cell} (h : Mem.wf m = true) (h' : Mem.wf m' = true) (reads : ∀ b, Mem.get m b = Mem.get m' b) : m = m' := by
  have rising := ((Mem.wf_iff m).mp h).2
  have rising' := ((Mem.wf_iff m').mp h').2
  have same : ∀ c, c ∈ m ↔ c ∈ m' := fun c => by rw [Mem.mem_iff_get h, Mem.mem_iff_get h', reads]
  have irrefl : ∀ {l : List Host.Cell}, l.Pairwise (fun c d => c.1 < d.1) → l.Nodup :=
    fun hl => List.Pairwise.imp (fun less same => absurd (congrArg Prod.fst same) less.ne) hl
  exact List.Perm.eq_of_pairwise (fun c d _ _ less more => absurd less (not_lt.mpr more.le)) rising rising'
    ((List.perm_ext_iff_of_nodup (irrefl rising) (irrefl rising')).mpr same)

/-- Settles O7: `Mem.get_put` tells what every byte reads, and `Mem.ext_get` that nothing else is in the data. -/
theorem memoryReadsWhatWasWritten : Obligations.MemoryReadsWhatWasWritten := by
  intro m a v h
  refine ⟨?written, fun b hb => ?other, Mem.wf_put a v h, fun m' h' => Mem.ext_get h h'⟩
  case written => rw [Mem.get_put a v h, if_pos rfl]
  case other => rw [Mem.get_put a v h, if_neg hb]

end Sys2Proof.Machine
end

section
/-!
PROOF. The registers of a processor: what conditions and flags read, which address each form of load and store gives, what a write of a register
and going on leave, and jumps through registers.
-/
namespace Sys2Proof.Machine

/-! ### Flags and conditions (R230, R257) -/

/-- Setting the flags writes bits 31 to 28 of PS alone. -/
theorem Cpu.ps_setFlags_getLsbD (x : Cpu) (f : Nzcv) (k : Nat) : (x.setFlags f).ps.getLsbD k =
    if 28 ≤ k ∧ k < 32 then (8 * f.n.toNat + 4 * f.z.toNat + 2 * f.c.toNat + f.v.toNat).testBit (k - 28) else x.ps.getLsbD k := by
  rw [Cpu.setFlags, fieldPut_getLsbD]
  congr 1
  rw [eq_iff_iff]
  omega

theorem Cpu.flags_setFlags (x : Cpu) (f : Nzcv) : (x.setFlags f).flags = f := by
  obtain ⟨n, z, c, v⟩ := f
  simp only [Cpu.flags, Cpu.psBit, Cpu.ps_setFlags_getLsbD]
  cases n <;> cases z <;> cases c <;> cases v <;> rfl

/-- Q sets bit 27 of PS, and nothing clears it. -/
theorem Cpu.ps_stickQ_getLsbD (x : Cpu) (q : Bool) (k : Nat) : (x.stickQ q).ps.getLsbD k = (x.ps.getLsbD k || (q && decide (k = 27))) := by
  cases q
  · simp [Cpu.stickQ]
  · simp only [Cpu.stickQ, if_true, fieldPut_getLsbD]
    by_cases h : k = 27
    · subst h
      simp
    · rw [if_neg (by omega)]
      simp [h]

/-- Settles O18. -/
theorem conditionsAndFlagsOfPs : Obligations.ConditionsAndFlagsOfPs := by
  refine ⟨fun f => rfl, fun x f q => ⟨Cpu.flags_setFlags x f, fun k hk => ?low, ?sticky, fun k _ hk => ?others, rfl, rfl, ?w⟩⟩
  case low => rw [Cpu.ps_setFlags_getLsbD, if_neg (by omega)]
  case sticky => rw [Cpu.psBit, Cpu.ps_stickQ_getLsbD, decide_eq_true rfl, Bool.and_true, Cpu.psBit]
  case others => rw [Cpu.ps_stickQ_getLsbD, decide_eq_false hk, Bool.and_false, Bool.or_false]
  case w => cases q <;> rfl

/-! ### Addresses (R241, R247, R250) -/

/-- Below 2^12 a base of whole pages takes an offset by OR as by addition. -/
theorem or_eq_add_of_page {b o : Word} (page : b &&& 0xFFF#32 = 0#32) (h : o.toNat < 2 ^ 12) : b ||| o = b + o := by
  have within : 0xFFF#32 &&& o = o := by
    apply BitVec.eq_of_toNat_eq
    rw [BitVec.toNat_and, Nat.and_comm]
    exact (Nat.and_two_pow_sub_one_eq_mod o.toNat 12).trans (Nat.mod_eq_of_lt h)
  refine (BitVec.add_eq_or_of_and_eq_zero b o ?_).symm
  rw [← within, ← BitVec.and_assoc, page, BitVec.zero_and]

/-- Four times a short offset. -/
theorem setWidth_mul_four {n : Nat} (i : BitVec n) : i.setWidth 32 * 4#32 = BitVec.ofNat 32 (4 * i.toNat) := by
  rw [Nat.mul_comm, BitVec.ofNat_mul, BitVec.ofNat_toNat]

/-- Settles O21: the forms are `Cpu.ea`, and the short absolute ones add as `or_eq_add_of_page` says. -/
theorem addressForms : Obligations.AddressForms := by
  intro x rb ri i17 i10 i12 i3 i7 k b
  refine ⟨rfl, ?index, rfl, rfl, fun page => ?abs, ?shortBase, ?shortSp, fun page => ?shortAbs⟩
  case index =>
    have power : BitVec.twoPow 32 k = BitVec.ofNat 32 (2 ^ k) := BitVec.eq_of_toNat_eq (by rw [BitVec.toNat_twoPow, BitVec.toNat_ofNat])
    rw [Cpu.ea, BitVec.shiftLeft_eq_mul_twoPow, power]
  case abs =>
    have small : (i12.setWidth 32).toNat < 2 ^ 12 := by have := i12.isLt; rw [BitVec.toNat_setWidth]; omega
    rw [Cpu.ea, or_eq_add_of_page page small, BitVec.ofNat_toNat]
  case shortBase => rw [Cpu.ea, setWidth_mul_four]
  case shortSp => rw [Cpu.ea, setWidth_mul_four]; rfl
  case shortAbs =>
    have small : (BitVec.ofNat 32 (4 * i7.toNat)).toNat < 2 ^ 12 := by have := i7.isLt; rw [BitVec.toNat_ofNat]; omega
    rw [Cpu.ea, setWidth_mul_four, or_eq_add_of_page page small]

/-! ### What a write of a register and going on leave (R237, R263) -/

@[simp] theorem Cpu.reg_setReg_same (x : Cpu) (r : Nat) (v : Word) : (x.setReg r v).reg r = v := Tab.get_set_same _ _ _ _
theorem Cpu.reg_setReg_ne (x : Cpu) {r k : Nat} (v : Word) (h : k ≠ r) : (x.setReg r v).reg k = x.reg k := Tab.get_set_ne _ _ _ h

theorem Cpu.eq_of_put {x y : Cpu} {r : RegNo} {v : Word} (h : x.put r v = .ok y) : y = x.setReg r v := by
  rw [Cpu.put] at h
  split at h
  · cases h
  · exact (Except.ok.inj h).symm

/-- The general registers, and the bits of PS above LA0 and LA1, are as they were, and so is every control register but LC0 and LC1. -/
def Cpu.GoesOnFrom (x y : Cpu) : Prop :=
  y.w = x.w ∧ (∀ k, 2 ≤ k → y.ps.getLsbD k = x.ps.getLsbD k) ∧ ∀ n, n ≠ 2 → n ≠ 5 → y.cr n = x.cr n

theorem Cpu.GoesOnFrom.refl (x : Cpu) : x.GoesOnFrom x := ⟨rfl, fun _ _ => rfl, fun _ _ _ => rfl⟩
theorem Cpu.GoesOnFrom.trans {x y z : Cpu} (h : x.GoesOnFrom y) (g : y.GoesOnFrom z) : x.GoesOnFrom z :=
  ⟨g.1.trans h.1, fun k hk => (g.2.1 k hk).trans (h.2.1 k hk), fun n h2 h5 => (g.2.2 n h2 h5).trans (h.2.2 n h2 h5)⟩
theorem Cpu.GoesOnFrom.pc {x y : Cpu} (h : x.GoesOnFrom y) (a : Word) : x.GoesOnFrom { y with pc := a } := h
theorem Cpu.GoesOnFrom.count (x : Cpu) {k : Nat} (v : Word) : x.GoesOnFrom (x.setCr (lcNo k) v) :=
  ⟨rfl, fun _ _ => rfl, fun n h2 h5 => x.cr_setCr_ne v (by unfold lcNo; split <;> assumption)⟩
theorem Cpu.GoesOnFrom.la (x : Cpu) {k : Nat} (b : Bool) (hk : k < 2) : x.GoesOnFrom (x.setLa k b) :=
  ⟨rfl, fun _ h => x.psBit_setLa_ne b (by omega), fun _ _ _ => rfl⟩

theorem Cpu.GoesOnFrom.loopEnd (x : Cpu) {k : Nat} (next : Word) (hk : k < 2) : x.GoesOnFrom (x.loopEnd k next).2 := by
  by_cases ends : x.atEnd k next
  · by_cases count : 1#32 < x.lc k
    · rw [Cpu.loopEnd_back ends count]
      exact .count x _
    · rw [Cpu.loopEnd_last ends (BitVec.not_lt.mp count)]
      exact (Cpu.GoesOnFrom.count x _).trans (.la _ false hk)
  · rw [Cpu.loopEnd_elsewhere ends]
    exact .refl x

/-- Going on changes the loop state and pc alone. -/
theorem Cpu.goesOnFrom_advance (x : Cpu) (next : Word) : x.GoesOnFrom (x.advance next) := by
  have inner := Cpu.GoesOnFrom.loopEnd x next (show 0 < 2 by decide)
  have outer := Cpu.GoesOnFrom.loopEnd (x.loopEnd 0 next).2 next (show 1 < 2 by decide)
  cases h : (x.loopEnd 0 next).1
  · rw [Cpu.advance_of_not_back (Prod.ext h rfl)]
    exact (inner.trans outer).pc _
  · rw [Cpu.advance_of_back (Prod.ext h rfl)]
    exact inner.pc _

/-- Settles O24: a written register is `Cpu.eq_of_put`, and going on is `Cpu.goesOnFrom_advance`. -/
theorem registerWritesAndGoingOnKeepTheRest : Obligations.RegisterWritesAndGoingOnKeepTheRest := by
  refine ⟨fun x y r v h => ?write, fun x next => ?goingOn⟩
  case write =>
    obtain rfl := Cpu.eq_of_put h
    exact ⟨Cpu.reg_setReg_same x r v, fun k hk => Cpu.reg_setReg_ne x v hk, rfl, rfl, fun _ => rfl⟩
  case goingOn =>
    obtain ⟨w, ps, cr⟩ := Cpu.goesOnFrom_advance x next
    exact ⟨w, fun k h _ => ps k h, cr⟩

/-! ### Jumps through registers (R252, R253) -/

section
variable {s : State} {p : Proc} {i : Instr} {short : Bool} {rs : RegNo}

/-- A jump to an even target that links nothing. -/
theorem State.jumps_of_jump_plain (he : exec i s = jump i p short rs none s) (even : ((s.cpuAt p.key).reg rs).getLsbD 0 = false) :
    s.Jumps p (formLen short) (s.cpuAt p.key) ((s.cpuAt p.key).reg rs) i := by
  intro h
  rw [he, jump]
  exact congrArg _ (State.issue_jump h (y := (s.cpuAt p.key).transfer _) (by simp only [even]; rfl))

/-- An effect that raises an exception where the instruction stands traps there. -/
theorem State.issue_raise {len : Nat} {f : State → Cpu → Eff} {e : Exc} (h : s.Issues p len i)
    (hf : f (s.fetched p len) (s.cpuAt p.key) = .raise (s.fetched p len) e) : s.issue i p len f = (s.fetched p len).trapped p e := by
  obtain ⟨issues, finds⟩ := h
  rw [State.issue, if_pos finds, State.run_raise issues hf]

/-- A jump to an odd target raises ALIGN, whatever it would link (R253). -/
theorem State.raises_of_jump {link : Option RegNo} (he : exec i s = jump i p short rs link s) (odd : ¬((s.cpuAt p.key).reg rs).getLsbD 0 = false)
    (allowed : ∀ r, link = some r → r = 15 → (s.cpuAt p.key).limit (s.cpuAt p.key).lvl ≤ (s.cpuAt p.key).next short) :
    s.Raises p (formLen short) (.align ((s.cpuAt p.key).reg rs).toNat false) i := by
  intro h
  rw [he, jump]
  refine congrArg _ (State.issue_raise h ?_)
  rw [Bool.not_eq_false] at odd
  cases link with
  | none => simp only [odd, if_true]
  | some r => simp only [Cpu.put_of_allowed (allowed r rfl), odd, if_true]

end

/-- Settles O27: the jumps to even targets are `State.jumps_of_jump` and its plain form, those to odd ones `State.raises_of_jump`. -/
theorem jumpsGoToEvenTargets : Obligations.JumpsGoToEvenTargets := by
  intro s p rd r short x l n next odd even
  refine ⟨?jr, ?jrOdd, ?ret, ?retOdd, fun allowed => ⟨?jlr, ?jlrOdd⟩⟩
  case jr => exact fun h => State.jumps_of_jump_plain (short := true) rfl h
  case jrOdd => exact fun h => State.raises_of_jump (short := true) (link := none) rfl h nofun
  case ret => exact fun h => State.jumps_of_jump_plain (short := true) (rs := 14) rfl h
  case retOdd => exact fun h => State.raises_of_jump (short := true) (rs := 14) (link := none) rfl h nofun
  case jlr => exact fun h => State.jumps_of_jump (exec_jlr p rd r short s) h allowed
  case jlrOdd =>
    refine fun h => State.raises_of_jump (exec_jlr p rd r short s) h fun j hj => ?_
    obtain rfl := Option.some.inj hj
    exact allowed

end Sys2Proof.Machine
end

section
/-!
PROOF. What an access to memory leaves (R278 to R280, R405 to R414, R428 to R435): it may raise events, count, record an error, mark a line and
move the requests at an arbiter, and change a core's line buffer; all else of the state stays, `State.atRest`.
-/
namespace Sys2Proof.Machine

/-- What no access to memory that stores nothing changes: the state without the event matrix, the marks of lines, the arbiters, the counters of
flash errors and the fetch buffers; the registers below page 0x4028; and the store buffers. -/
def State.atRest (s : State) : State × (Reg → Word) × (Nat → List Buffered × Time) :=
  ({ s with regs := {}, evm := {}, marks := [], arbs := [], bufs := [], flash := { s.flash with corr := [], uncorr := [] } },
    fun r => if r.addr < 0x40280000 then s.rd r else 0#32, fun c => ((s.buf c).stores, (s.buf c).since))

/-! ### What `State.atRest` holds -/

section
variable {s t : State} (h : t.atRest = s.atRest)
include h

theorem State.mem_of_atRest : t.mem = s.mem := congrArg (·.1.mem) h
theorem State.cpus_of_atRest : t.cpus = s.cpus := congrArg (·.1.cpus) h
theorem State.chip_of_atRest : t.chip = s.chip := congrArg (·.1.chip) h
theorem State.mix_of_atRest : t.flash.mix = s.flash.mix := congrArg (·.1.flash.mix) h
theorem State.stores_of_atRest (c : Nat) : (t.buf c).stores = (s.buf c).stores := congrArg (fun x => (x.2.2 c).1) h
theorem State.rd_of_atRest {r : Reg} (low : r.addr < 0x40280000) : t.rd r = s.rd r := by
  have same := congrArg (fun x => x.2.1 r) h
  simpa only [State.atRest, if_pos low] using same
theorem State.get_of_atRest {q : RF} (low : q.reg.addr < 0x40280000) : t.get q = s.get q :=
  congrArg (fieldGet · q.lsb q.wid) (State.rd_of_atRest h low)
theorem State.on_of_atRest {q : RF} (low : q.reg.addr < 0x40280000) : t.on q = s.on q :=
  congrArg (fun v => fieldGet v q.lsb q.wid != 0) (State.rd_of_atRest h low)

end

theorem State.byteAt_congr {s t : State} (h : t.mem = s.mem) (hm : t.flash.mix = s.flash.mix) (a : Nat) : t.byteAt a = s.byteAt a := by
  simp only [State.byteAt, State.mixSeed, h, hm]

/-! ### Registers from page 0x4028 up -/

section
variable (s : State)

theorem State.wr_atRest {r : Reg} (v : Word) (high : 0x40280000 ≤ r.addr) : (s.wr r v).atRest = s.atRest := by
  refine Prod.ext rfl (Prod.ext (funext fun q => ?_) rfl)
  simp only [State.atRest]
  split
  · rw [State.rd_wr_ne _ _ _ _ (by omega)]
  · rfl
theorem State.heat_atRest (r : Reg) (m : Word) : (s.heat r m).atRest = s.atRest := by
  refine Prod.ext rfl (Prod.ext (funext fun q => ?_) rfl)
  simp only [State.atRest, State.rd, State.heat, RegFile.rd_heat]
theorem State.put_eq (q : RF) (x : Nat) :
    s.put q x = (s.wr q.reg (fieldPut (s.rd q.reg) q.lsb q.wid x)).heat q.reg (if q.wid = 1 then fieldPut 0#32 q.lsb q.wid x else 0#32) := rfl
theorem State.put_atRest {q : RF} (x : Nat) (high : 0x40280000 ≤ q.reg.addr) : (s.put q x).atRest = s.atRest := by
  rw [State.put_eq, State.heat_atRest, State.wr_atRest _ _ high]
theorem State.putB_atRest {q : RF} (b : Bool) (high : 0x40280000 ≤ q.reg.addr) : (s.putB q b).atRest = s.atRest := s.put_atRest _ high
theorem State.putBit_atRest {q : RF} (k : Nat) (b : Bool) (high : 0x40280000 ≤ q.reg.addr) : (s.putBit q k b).atRest = s.atRest := by
  rw [State.putBit, State.heat_atRest, State.put_atRest _ _ high]
theorem State.incSat_atRest {q : RF} (high : 0x40280000 ≤ q.reg.addr) : (s.incSat q).atRest = s.atRest := s.put_atRest _ high

theorem State.when_keeps {β : Type} (g : State → β) (b : Bool) {f : State → State} (h : g (f s) = g s) : g (s.when b f) = g s := by
  cases b
  · rfl
  · exact h

/-! ### Events (R314, R315) -/

theorem State.setLine_atRest (p : Nat) (l : Line) : (s.setLine p l).atRest = s.atRest := rfl
theorem State.setChan_atRest (c : Nat) (x : Chan) : (s.setChan c x).atRest = s.atRest := by
  rw [State.setChan, State.putB_atRest _ _ (Nat.le_add_right_of_le (by decide)), State.putB_atRest _ _ (Nat.le_add_right_of_le (by decide))]
  rfl
theorem State.leave_atRest (p h : Nat) : (s.leave p h).atRest = s.atRest :=
  (State.each_keeps _ _ State.atRest (fun c t => t.setChan_atRest c _) _).trans (s.setLine_atRest p _)
@[simp] theorem State.raise_atRest (p h : Nat) : (s.raise p h).atRest = s.atRest := by
  unfold State.raise
  dsimp only
  split_ifs
  · rfl
  · split
    · rw [State.putBit_atRest _ _ _ (Nat.le_add_right_of_le (by decide)), State.setLine_atRest]
    · split
      · split_ifs
        · rw [State.putBit_atRest _ _ _ (Nat.le_add_right_of_le (by decide)), State.setLine_atRest]
        · exact s.leave_atRest p h
      · exact s.leave_atRest p h

/-! ### Lines (R405, R406, R443) -/

@[simp] theorem State.memError_atRest (w : Who) (m addr kind : Nat) : (s.memError w m addr kind).atRest = s.atRest := by
  unfold State.memError
  extract_lets u lane v
  have counted : u.atRest = s.atRest := by
    simp only [u]
    split
    · exact s.incSat_atRest (by decide)
    · exact s.incSat_atRest (by decide)
  split
  · rw [State.put_atRest _ _ (by decide), counted]
  · rw [State.raise_atRest, State.wr_atRest _ _ (by decide), State.put_atRest _ _ (by decide), State.wr_atRest _ _ (by decide), counted]
@[simp] theorem State.setMark_atRest (a : Nat) (m : LineMark) : (s.setMark a m).atRest = s.atRest := rfl
@[simp] theorem State.flashEcc_atRest (a : Nat) : (s.flashEcc a).2.atRest = s.atRest := by
  unfold State.flashEcc
  split <;> rfl
@[simp] theorem State.lineRead_atRest (w : Who) (a : Nat) : (s.lineRead w a).2.atRest = s.atRest := by
  unfold State.lineRead
  split
  · split
    · exact s.flashEcc_atRest a
    · rfl
  · dsimp only
    split_ifs
    · exact s.memError_atRest w _ _ 1
    · rw [State.incSat_atRest _ (by decide), State.setMark_atRest]
    · rfl
@[simp] theorem State.memRead_atRest (w : Who) (a n : Nat) : (s.memRead w a n).2.atRest = s.atRest :=
  State.linesBy_keeps State.atRest _ (fun t l => t.lineRead_atRest w l) _ s

/-! ### Arbiters (R428 to R435) -/

theorem State.arbs_atRest (x : Tab Arb) : State.atRest { s with arbs := x } = s.atRest := rfl
@[simp] theorem State.arbApply_atRest (a slot : Nat) : (s.arbApply a slot).atRest = s.atRest := by
  have high : ∀ o, 0x40441000 ≤ o → 0x40280000 ≤ o + 0x100 * a := fun o ho => by omega
  unfold State.arbApply
  dsimp only
  split
  · rfl
  · next at_ l _ =>
    split
    · rfl
    · rw [State.put_atRest _ _ (high _ (by decide)), State.put_atRest _ _ (high _ (by decide))]
      refine State.each_keeps l _ State.atRest (fun e t => ?_) s
      refine (State.put_atRest _ _ ?_).trans (State.put_atRest _ _ ?_)
      all_goals exact Nat.le_add_right_of_le (high _ (by decide))
@[simp] theorem State.arbSlot_atRest (a : Nat) : (s.arbSlot a).2.atRest = s.atRest := by
  have high : ∀ o, 0x40441000 ≤ o → 0x40280000 ≤ o + 0x100 * a := fun o ho => by omega
  unfold State.arbSlot
  extract_lets x ws cut s1 s2
  have h1 : s1.atRest = s.atRest := State.when_keeps s State.atRest _ (s.raise_atRest _ _)
  have h2 : s2.atRest = s1.atRest := State.each_keeps _ _ State.atRest (fun r t => by
    dsimp only
    split
    all_goals
      refine (State.putBit_atRest _ _ _ (by decide)).trans ((State.putBit_atRest _ _ _ ?_).trans
        ((State.put_atRest _ _ ?_).trans (State.put_atRest _ _ ?_)))
      all_goals exact high _ (by decide)) s1
  split
  · exact h2.trans h1
  · refine (State.arbs_atRest _ _).trans ?_
    split
    · refine ((State.put_atRest _ _ ?_).trans (State.put_atRest _ _ ?_)).trans (h2.trans h1)
      all_goals exact high _ (by decide)
    · exact h2.trans h1
@[simp] theorem State.arbRun_atRest (f slot a w : Nat) (rivals : List Nat) : (State.arbRun f slot a w rivals s).atRest = s.atRest := by
  induction f generalizing slot s with
  | zero => rfl
  | succ f ih =>
    rw [State.arbRun]
    dsimp only
    have round : ∀ x, ((({ s with arbs := s.arbs.set a x } : State).arbApply a slot |>.sendHints a).arbSlot a).2.atRest = s.atRest := fun x =>
      (State.arbSlot_atRest _ a).trans (State.arbApply_atRest _ a slot)
    split
    · exact round _
    · exact (ih _ _).trans (round _)
@[simp] theorem State.portSlot_atRest (a : Nat) : (s.portSlot a).2.atRest = s.atRest := by
  unfold State.portSlot
  dsimp only
  split <;> rfl
@[simp] theorem State.portRun_atRest (f a w : Nat) (rivals : List Nat) : (State.portRun f a w rivals s).atRest = s.atRest := by
  induction f generalizing s with
  | zero => rfl
  | succ f ih =>
    rw [State.portRun]
    dsimp only
    split
    · exact State.portSlot_atRest _ a
    · exact (ih _).trans (State.portSlot_atRest _ a)
@[simp] theorem State.arbitrate_atRest (addr : Nat) (w : Option Nat) (rivals : List Nat) : (s.arbitrate addr w rivals).atRest = s.atRest := by
  unfold State.arbitrate
  cases w with
  | none => rfl
  | some r =>
    dsimp only
    split
    · split
      · exact State.arbRun_atRest ..
      · rfl
    · split
      · exact State.portRun_atRest ..
      · rfl

/-! ### The fetch (R278 to R280) -/

/-- A change of the fetch buffers leaves the store buffers. -/
theorem State.setBuf_atRest {c : Nat} {b : CoreBuf} (h : b.stores = (s.buf c).stores ∧ b.since = (s.buf c).since) : (s.setBuf c b).atRest = s.atRest := by
  refine Prod.ext rfl (Prod.ext rfl (funext fun d => ?_))
  simp only [State.atRest, State.buf_setBuf]
  split
  · next same => rw [same, h.1, h.2]
  · rfl

@[simp] theorem State.bringLine_atRest (c : Fin 9) (l : Nat) : (s.bringLine c l).2.atRest = s.atRest := by
  rw [State.bringLine]
  exact (State.memRead_atRest _ _ _ _).trans (State.arbitrate_atRest _ _ _ _)
@[simp] theorem State.demand_atRest (c : Fin 9) (l : Nat) : (s.demand c l).atRest = s.atRest := by
  have brought := s.bringLine_atRest c l
  unfold State.demand
  split
  · exact State.setBuf_atRest _ (by exact ⟨rfl, rfl⟩)
  · split
    · next t ht =>
      rw [ht] at brought
      exact (State.setBuf_atRest t (by exact ⟨rfl, rfl⟩)).trans brought
    · next t ht =>
      rw [ht] at brought
      exact brought
@[simp] theorem State.prefetch_atRest (c : Fin 9) (l : Nat) : (s.prefetch c l).atRest = s.atRest := by
  unfold State.prefetch
  extract_lets b t a
  have ht : t.atRest = s.atRest := State.setBuf_atRest _ (by exact ⟨rfl, rfl⟩)
  have brought := (t.bringLine_atRest c (l + 1)).trans ht
  split
  · rfl
  · split
    · split
      · next u hu =>
        rw [hu] at brought
        exact (State.setBuf_atRest u (by exact ⟨rfl, rfl⟩)).trans brought
      · next u hu =>
        rw [hu] at brought
        exact brought
    · exact ht
/-- A fetch of an instruction changes nothing that `State.atRest` holds. -/
@[simp] theorem State.fetched_atRest (p : Proc) (len : Nat) : (s.fetched p len).atRest = s.atRest := by
  cases p with
  | lane n => exact State.memRead_atRest _ _ _ _
  | core c =>
    simp only [State.fetched]
    refine (State.setBuf_atRest _ (by exact ⟨rfl, rfl⟩)).trans ?_
    split
    · exact (State.prefetch_atRest _ _ _).trans ((State.demand_atRest _ _ _).trans (State.demand_atRest _ _ _))
    · exact (State.memRead_atRest _ _ _ _).trans (State.setBuf_atRest _ (by exact ⟨rfl, rfl⟩))
/-- A taken transfer changes the fetch buffers alone (R280). -/
@[simp] theorem State.taken_atRest (p : Proc) (a t : Nat) : (s.taken p a t).atRest = s.atRest := by
  unfold State.taken
  split
  · rfl
  · dsimp only
    split
    · exact State.setBuf_atRest _ (by exact ⟨rfl, rfl⟩)
    · split
      · split
        · exact (State.setBuf_atRest _ (by exact ⟨rfl, rfl⟩)).trans (State.demand_atRest _ _ _)
        · exact State.demand_atRest _ _ _
      · rfl

end
end Sys2Proof.Machine
end

section
/-!
PROOF. Loads, stores, pushes and pops (R247 to R251): the general rules for an effect that accesses memory, and bytes as words.
-/
namespace Sys2Proof.Machine

/-! ### Effects that leave another state than the fetch -/

section
variable {s t : State} {p : Proc} {len : Nat} {i : Instr} {f : State → Cpu → Eff} {y : Cpu} {e : Exc}

/-- An effect that is done completes with the state and the registers it gives, where it did not reset its own processor. -/
theorem State.issue_done_of (h : s.Issues p len i) (hf : f (s.fetched p len) (s.cpuAt p.key) = .done t y) (same : t.cpuAt p.key = s.cpuAt p.key) :
    s.issue i p len f = t.completed p y := by
  obtain ⟨issues, finds⟩ := h
  simp [State.issue, finds, State.run, issues, hf, same, State.completed]

/-- An effect that jumps is a taken transfer from the state it gives. -/
theorem State.issue_jump_of (h : s.Issues p len i) (hf : f (s.fetched p len) (s.cpuAt p.key) = .jump t y) (same : t.cpuAt p.key = s.cpuAt p.key) :
    s.issue i p len f = (t.taken p (s.cpuAt p.key).pc.toNat y.pc.toNat).completed p y := by
  obtain ⟨issues, finds⟩ := h
  simp [State.issue, finds, State.run, issues, hf, same, State.completed]

/-- An effect that raises an exception enters its handler from the state it gives. -/
theorem State.issue_raise_of (h : s.Issues p len i) (hf : f (s.fetched p len) (s.cpuAt p.key) = .raise t e) (same : t.cpuAt p.key = s.cpuAt p.key) :
    s.issue i p len f = (t.raiseAt p e (s.cpuAt p.key).pc).stepped p := by
  obtain ⟨issues, finds⟩ := h
  simp [State.issue, finds, State.run, issues, hf, same]

end

/-! ### Bytes and words (R5) -/

theorem leNat_cons (b : Byte) (bs : List Byte) : leNat (b :: bs) = b.toNat + 256 * leNat bs := rfl

/-- The word of one byte more is that byte below the word of the rest. -/
theorem ofNat_leNat_cons (n : Nat) (b : Byte) (bs : List Byte) : BitVec.ofNat (n + 8) (leNat (b :: bs)) = BitVec.ofNat n (leNat bs) ++ b := by
  apply BitVec.eq_of_toNat_eq
  have := b.isLt
  rw [leNat_cons, BitVec.toNat_append, BitVec.toNat_ofNat, BitVec.toNat_ofNat, Nat.shiftLeft_eq, Nat.mul_comm (_ % _), ← Nat.two_pow_add_eq_or_of_lt b.isLt,
    Nat.pow_add, Nat.mul_comm (2 ^ n), Nat.mod_mul, Nat.add_mul_mod_self_left, Nat.add_mul_div_left _ _ (by decide), Nat.mod_eq_of_lt this,
    Nat.div_eq_of_lt this, Nat.zero_add, Nat.add_comm]

theorem ofNat_leNat_one {bs : List Byte} (h : bs.length = 1) : BitVec.ofNat 8 (leNat bs) = bs.getD 0 0#8 := by
  obtain ⟨b, rfl⟩ := List.length_eq_one_iff.mp h
  simp [leNat]
theorem ofNat_leNat_two {bs : List Byte} (h : bs.length = 2) : BitVec.ofNat 16 (leNat bs) = bs.getD 1 0#8 ++ bs.getD 0 0#8 := by
  obtain ⟨b, c, rfl⟩ := List.length_eq_two.mp h
  rw [ofNat_leNat_cons 8, ofNat_leNat_one rfl]
  rfl
theorem ofNat_leNat_four {bs : List Byte} (h : bs.length = 4) :
    BitVec.ofNat 32 (leNat bs) = bs.getD 3 0#8 ++ bs.getD 2 0#8 ++ bs.getD 1 0#8 ++ bs.getD 0 0#8 := by
  match bs, h with
  | [a, b, c, d], _ => rw [ofNat_leNat_cons 24, ofNat_leNat_cons 16, ofNat_leNat_two rfl]; rfl

/-- The bytes of a word, the lowest first. -/
theorem leBytes_eq_map (n : Nat) (w : Word) (k : Nat) :
    leBytes n (w.toNat / 2 ^ (8 * k)) = (List.range n).map fun j => w.extractLsb' (8 * (k + j)) 8 := by
  induction n generalizing k with
  | zero => rfl
  | succ n ih =>
    have rest : w.toNat / 2 ^ (8 * k) / 256 = w.toNat / 2 ^ (8 * (k + 1)) := by rw [Nat.div_div_eq_div_mul, Nat.mul_add, Nat.pow_add]
    have first : BitVec.ofNat 8 (w.toNat / 2 ^ (8 * k)) = w.extractLsb' (8 * (k + 0)) 8 :=
      BitVec.eq_of_toNat_eq (by rw [BitVec.toNat_ofNat, BitVec.extractLsb'_toNat, Nat.shiftRight_eq_div_pow, Nat.add_zero])
    rw [leBytes, rest, ih, first, List.range_succ_eq_map, List.map_cons, List.map_map]
    congr 2
    funext j
    simp [Nat.add_assoc, Nat.add_comm 1 j]
theorem leBytes_word (n : Nat) (w : Word) : leBytes n w.toNat = (List.range n).map fun j => w.extractLsb' (8 * j) 8 := by
  simpa using leBytes_eq_map n w 0

/-! ### Loads and stores (R247 to R250) -/

theorem ilen_eq_formLen (short : Bool) : ilen short = formLen short := rfl

/-- A load that its conditions allow writes the extended bytes. -/
theorem State.load_completes {s t : State} {p : Proc} {i : Instr} {rd : RegNo} {m : Addr} {n scale : Nat} {ext : Nat → Word} {rivals : List (Fin 18)}
    {bs : List Byte} {y : Cpu} (he : exec i s = loadInstr i p rd m n scale ext rivals s) (h : s.Issues p (formLen m.short) i)
    (base : (s.cpuAt p.key).putBase ((s.cpuAt p.key).ea m scale).2 = .ok y) (aligned : ((s.cpuAt p.key).ea m scale).1.toNat % n = 0)
    (free : (s.fetched p (formLen m.short)).dataHeld p ((s.cpuAt p.key).ea m scale).1.toNat n = false)
    (loaded : (s.fetched p (formLen m.short)).dataLoad p ((s.cpuAt p.key).ea m scale).1.toNat n (rivals.map (·.val)) = (.ok bs, t))
    (same : t.cpuAt p.key = s.cpuAt p.key) (allowed : rd = 15 → y.limit y.lvl ≤ ext (leNat bs)) :
    exec i s = .next (t.completed p ((y.setReg rd (ext (leNat bs))).advance ((s.cpuAt p.key).pc + BitVec.ofNat 32 (formLen m.short)))) := by
  rw [he, loadInstr]
  refine congrArg _ (State.issue_done_of h ?_ same)
  simp only [ilen_eq_formLen, base, aligned, free, loaded, Cpu.put_of_allowed allowed, ne_eq, not_true_eq_false, if_false, Bool.false_eq_true]
  rfl

/-- Settles O19: each size is `State.load_completes`, with the bytes read as the word that it extends. -/
theorem loadsWriteTheLoadedValue : Obligations.LoadsWriteTheLoadedValue := by
  intro s p rd m rivals n i ext bs t y h kind x u e base aligned free loaded size same allowed
  simp only [List.mem_cons, List.not_mem_nil, or_false, Prod.mk.injEq] at kind
  rcases kind with ⟨rfl, rfl, rfl⟩ | ⟨rfl, rfl, rfl⟩ | ⟨rfl, rfl, rfl⟩ | ⟨rfl, rfl, rfl⟩ | ⟨rfl, rfl, rfl⟩
  · beta_reduce at allowed ⊢
    rw [← ofNat_leNat_one size] at allowed ⊢
    exact State.load_completes (ext := fun v => (BitVec.ofNat 8 v).signExtend 32) rfl h base aligned free loaded same allowed
  · beta_reduce at allowed ⊢
    rw [← ofNat_leNat_one size] at allowed ⊢
    exact State.load_completes (ext := fun v => (BitVec.ofNat 8 v).setWidth 32) rfl h base aligned free loaded same allowed
  · beta_reduce at allowed ⊢
    rw [← ofNat_leNat_two size] at allowed ⊢
    exact State.load_completes (ext := fun v => (BitVec.ofNat 16 v).signExtend 32) rfl h base aligned free loaded same allowed
  · beta_reduce at allowed ⊢
    rw [← ofNat_leNat_two size] at allowed ⊢
    exact State.load_completes (ext := fun v => (BitVec.ofNat 16 v).setWidth 32) rfl h base aligned free loaded same allowed
  · beta_reduce at allowed ⊢
    rw [← ofNat_leNat_four size] at allowed ⊢
    exact State.load_completes (ext := fun v => BitVec.ofNat 32 v) rfl h base aligned free loaded same allowed

/-- A store that its conditions allow hands over the low bytes of rd. -/
theorem State.store_completes {s t : State} {p : Proc} {i : Instr} {rd : RegNo} {m : Addr} {n scale : Nat} {rivals : List (Fin 18)} {y : Cpu}
    (he : exec i s = storeInstr i p rd m n scale rivals s) (h : s.Issues p (formLen m.short) i)
    (base : (s.cpuAt p.key).putBase ((s.cpuAt p.key).ea m scale).2 = .ok y) (aligned : ((s.cpuAt p.key).ea m scale).1.toNat % n = 0)
    (stored : (s.fetched p (formLen m.short)).dataStore p ((s.cpuAt p.key).ea m scale).1.toNat
      ((List.range n).map fun k => ((s.cpuAt p.key).reg rd).extractLsb' (8 * k) 8) (rivals.map (·.val)) = (none, t))
    (same : t.cpuAt p.key = s.cpuAt p.key) :
    exec i s = .next (t.completed p (y.advance ((s.cpuAt p.key).pc + BitVec.ofNat 32 (formLen m.short)))) := by
  rw [he, storeInstr]
  refine congrArg _ (State.issue_done_of h ?_ same)
  simp only [ilen_eq_formLen, base, aligned, leBytes_word, stored, ne_eq, not_true_eq_false, if_false]
  rfl

/-- Settles O20: each size is `State.store_completes`. -/
theorem storesWriteTheRegister : Obligations.StoresWriteTheRegister := by
  intro s p rd m rivals n i t y h kind x e base aligned stored same
  simp only [List.mem_cons, List.not_mem_nil, or_false, Prod.mk.injEq] at kind
  rcases kind with ⟨rfl, rfl⟩ | ⟨rfl, rfl⟩ | ⟨rfl, rfl⟩
  · exact State.store_completes rfl h base aligned stored same
  · exact State.store_completes rfl h base aligned stored same
  · exact State.store_completes rfl h base aligned stored same

/-! ### What an instruction's word can spell (R234 to R236) -/

/-- Are the fields of a LOOP and of a PUSHM ones that a word spells: a body, and registers below w15? -/
def spelled : Instr → Bool
  | .loop _ _ _ _ len _ => len != 0#8
  | .pushm _ mask _ => !mask.getLsbD 15
  | _ => true

theorem spelled_of_form {ok : Bool} {i j : Instr} (h : form ok j = some i) (hj : ok = true → spelled j = true) : spelled i = true := by
  rw [form] at h
  split at h
  · next hok => exact Option.some.inj h ▸ hj hok
  · cases h

theorem spelled_loadStore : ∀ e ∈ loadStore, ∀ p rd m rv, spelled (e.2.2.2 p rd m rv) = true := by simp [loadStore, spelled]
theorem spelled_threeRegister : ∀ e ∈ threeRegister, ∀ p rd a b, spelled (e.2.2 p rd a b) = true := by simp [threeRegister, spelled]
theorem spelled_bothRegister : ∀ e ∈ bothRegister, ∀ p rd a b short, spelled (e.2.2.2.2 p rd a b short) = true := by simp [bothRegister, spelled]
theorem spelled_twoRegister : ∀ e ∈ twoRegister, ∀ p rd a, spelled (e.2.2 p rd a) = true := by simp [twoRegister, spelled]
theorem spelled_compareRegister : ∀ e ∈ compareRegister, ∀ p a b, spelled (e.2.2 p a b) = true := by simp [compareRegister, spelled]
theorem spelled_numberRegister : ∀ e ∈ numberRegister, ∀ p rd a n, spelled (e.2.2 p rd a n) = true := by simp [numberRegister, spelled]

theorem spelled_decodeWr {p : Proc} {w : Nat} {i : Instr} (h : decodeWr p w = some i) : spelled i = true := by
  unfold decodeWr at h
  dsimp only at h
  split at h
  · exact spelled_of_form h fun _ => rfl
  split at h
  · exact spelled_of_form h fun _ => rfl
  split at h
  · exact spelled_of_form h fun _ => by split <;> rfl
  split at h
  · next found => exact spelled_of_form h fun _ => spelled_threeRegister _ (List.mem_of_find?_eq_some found) ..
  split at h
  · next found => exact spelled_of_form h fun _ => spelled_bothRegister _ (List.mem_of_find?_eq_some found) ..
  split at h
  · next found => exact spelled_of_form h fun _ => spelled_twoRegister _ (List.mem_of_find?_eq_some found) ..
  split at h
  · next found => exact spelled_of_form h fun _ => spelled_compareRegister _ (List.mem_of_find?_eq_some found) ..
  split at h
  · next found => exact spelled_of_form h fun _ => spelled_numberRegister _ (List.mem_of_find?_eq_some found) ..
  · cases h

theorem spelled_of_some {i j : Instr} (h : some j = some i) (hj : spelled j = true) : spelled i = true := Option.some.inj h ▸ hj

theorem spelled_decodeWm {p : Proc} {rv : List (Fin 18)} {w : Nat} {i : Instr} (h : decodeWm p rv w = some i) : spelled i = true := by
  unfold decodeWm at h
  dsimp only at h
  split at h
  · cases h
  next found =>
  have entry := spelled_loadStore _ (List.mem_of_find?_eq_some found)
  split at h
  · exact spelled_of_form h fun _ => entry ..
  · exact spelled_of_form h fun _ => entry ..
  · exact spelled_of_form h fun _ => entry ..
  · cases h
theorem spelled_decodeWs {p : Proc} {rv : List (Fin 18)} {w : Nat} {i : Instr} (h : decodeWs p rv w = some i) : spelled i = true := by
  unfold decodeWs at h
  dsimp only at h
  split at h
  case h_9 => cases h
  all_goals exact spelled_of_form h fun _ => rfl
theorem spelled_decodeShift {p : Proc} {w : Nat} {i : Instr} (h : decodeShift p w = some i) : spelled i = true :=
  spelled_of_form h fun _ => by split <;> rfl
theorem spelled_decodeHr {p : Proc} {w : Nat} {i : Instr} (h : decodeHr p w = some i) : spelled i = true := by
  unfold decodeHr at h
  dsimp only at h
  split at h
  · next found => exact spelled_of_some h (spelled_bothRegister _ (List.mem_of_find?_eq_some found) ..)
  split at h
  case h_8 => cases h
  all_goals exact spelled_of_some h rfl

/-- The fields of a LOOP are checked in its word (OP 0x1A), those of a PUSHM too (OP 0x13); no other word spells either. -/
theorem spelled_decode32 {p : Proc} {rv : List (Fin 18)} {w : Nat} {i : Instr} (h : decode32 p rv w = some i) : spelled i = true := by
  unfold decode32 at h
  dsimp only at h
  split at h
  case h_8 => exact spelled_decodeShift h
  case h_9 => exact spelled_decodeWm h
  case h_10 =>
    split at h
    · next found => exact spelled_of_form h fun _ => spelled_loadStore _ (List.mem_of_find?_eq_some found) ..
    · cases h
  case h_11 =>
    refine spelled_of_form h fun ok => ?_
    split
    · rfl
    · next push => simp_all [spelled]
  case h_15 => exact spelled_of_some h (by split <;> rfl)
  case h_17 =>
    refine spelled_of_form h fun ok => ?_
    simp only [Bool.and_eq_true, bne_iff_ne, ne_eq] at ok
    obtain ⟨⟨-, body⟩, -⟩ := ok
    have small : wbits w 15 8 < 2 ^ 8 := Nat.mod_lt _ (by decide)
    refine bne_iff_ne.mpr fun none => body ?_
    simpa only [BitVec.toNat_ofNat, Nat.mod_eq_of_lt small] using congrArg BitVec.toNat none
  case h_18 => exact spelled_decodeWs h
  case h_19 =>
    split at h
    · next found => exact spelled_of_some h (spelled_loadStore _ (List.mem_of_find?_eq_some found) ..)
    · exact spelled_decodeWr h
  case h_5 | h_7 | h_12 => exact spelled_of_form h fun _ => rfl
  all_goals exact spelled_of_some h rfl
theorem spelled_decode16 {p : Proc} {rv : List (Fin 18)} {w : Nat} {i : Instr} (h : decode16 p rv w = some i) : spelled i = true := by
  unfold decode16 at h
  dsimp only at h
  split at h
  case h_1 | h_2 => exact spelled_decodeHr h
  case h_12 => exact spelled_of_form h fun _ => rfl
  case h_14 =>
    split at h
    case h_5 => cases h
    all_goals exact spelled_of_form h fun _ => rfl
  case h_15 => exact spelled_of_form h fun _ => by split <;> rfl
  case h_16 => cases h
  all_goals exact spelled_of_some h rfl

/-- What halfwords decode to, a word spells. -/
theorem spelled_decodeInsn {p : Proc} {rv : List (Fin 18)} {h0 h1 : Nat} {i : Instr} (h : decodeInsn p rv h0 h1 = some i) : spelled i = true := by
  unfold decodeInsn at h
  split at h
  · exact spelled_decode16 h
  · exact spelled_decode32 h
/-- An instruction that issues is one that a word spells. -/
theorem State.Issues.spelled {s : State} {p : Proc} {len : Nat} {i : Instr} (h : s.Issues p len i) : spelled i = true := by
  have found : (len, some i) ∈ s.decoded p i.rivals := List.contains_iff_mem.mp h.2
  obtain ⟨l, hl, hi⟩ := List.mem_flatten.mp found
  obtain ⟨h0, -, rfl⟩ := List.mem_map.mp hl
  split at hi
  · exact spelled_decodeInsn (Prod.mk.inj (List.mem_singleton.mp hi)).2.symm
  · obtain ⟨h1, -, e⟩ := List.mem_map.mp hi
    exact spelled_decodeInsn (Prod.mk.inj e).2

/-! ### Pushes and pops (R251, R253) -/

/-- A push that stores all its words counts them all. -/
theorem State.pushWords_count {p : Proc} {rivals : List Nat} {ws : List Word} {s t : State} {a k : Nat}
    (h : s.pushWords p rivals a ws = (k, none, t)) : k = ws.length := by
  induction ws generalizing s a k with
  | nil => exact (congrArg Prod.fst h).symm
  | cons w ws ih =>
    rw [State.pushWords] at h
    split at h
    · cases h
    · next u _ =>
      obtain ⟨count, rest⟩ := Prod.mk.inj h
      rw [← count, List.length_cons]
      exact congrArg (· + 1) (ih (Prod.ext rfl rest))

/-- The registers that a mask names whose bits from `n` up are 0. -/
theorem regsIn_eq (mask n first : Nat) (hn : n ≤ 16) (high : ∀ k, n ≤ k → k < 16 → bit mask k = false) :
    regsIn mask first = ((List.range n).filter (bit mask)).map (· + first) := by
  obtain ⟨d, hd⟩ : ∃ d, 16 = n + d := ⟨16 - n, by omega⟩
  have above : ((List.range d).map (n + ·)).filter (bit mask) = [] := by
    refine List.filter_eq_nil_iff.mpr fun k hk => ?_
    obtain ⟨j, hj, rfl⟩ := List.mem_map.mp hk
    rw [high _ (Nat.le_add_right n j) (by rw [hd]; exact Nat.add_lt_add_left (List.mem_range.mp hj) n)]
    exact Bool.false_ne_true
  rw [regsIn, hd, List.range_add, List.filter_append, above, List.append_nil]
/-- The registers w4 to w11 that the list of a 16-bit PUSH or POP names. -/
theorem regsIn_list (list : BitVec 8) : regsIn list.toNat 4 = ((List.range 8).filter fun j => list.getLsbD j).map (· + 4) :=
  regsIn_eq _ 8 4 (by decide) fun k hk _ => BitVec.getLsbD_of_ge list k hk
/-- The registers below w15 that a mask names. -/
theorem regsIn_low (mask : BitVec 16) : regsIn (mask.toNat % 2 ^ 15) 0 = (List.range 15).filter fun j => mask.getLsbD j := by
  rw [regsIn_eq _ 15 0 (by decide) fun k hk _ => by rw [bit, Nat.testBit_mod_two_pow, decide_eq_false (by omega), Bool.false_and]]
  refine (List.map_id' _).trans (List.filter_congr fun k hk => ?_)
  rw [bit, Nat.testBit_mod_two_pow, decide_eq_true (List.mem_range.mp hk), Bool.true_and]
  rfl
/-- A PUSHM that a word spells names no register from w15 up. -/
theorem regsIn_pushm {p : Proc} {mask : BitVec 16} {rv : List (Fin 18)} (h : spelled (.pushm p mask rv) = true) :
    regsIn mask.toNat 0 = (List.range 15).filter fun j => mask.getLsbD j := by
  have top : mask.getLsbD 15 = false := by simpa [spelled] using h
  refine (regsIn_eq _ 15 0 (by decide) fun k hk hk' => ?_).trans (List.map_id' _)
  obtain rfl : k = 15 := by omega
  exact top

section
variable {s t : State} {p : Proc} {short : Bool} {rs : List Nat} {i : Instr} {rivals : List (Fin 18)} {y : Cpu}

/-- A push that stores all its words is done. -/
theorem State.push_completes {k : Nat} (he : exec i s = pushInstr i p short rs rivals s) (h : s.Issues p (formLen short) i)
    (put : (s.cpuAt p.key).put 15 ((s.cpuAt p.key).sp - BitVec.ofNat 32 (4 * rs.length)) = .ok y)
    (aligned : ((s.cpuAt p.key).sp - BitVec.ofNat 32 (4 * rs.length)).toNat % 4 = 0)
    (pushed : (s.fetched p (formLen short)).pushWords p (rivals.map (·.val)) ((s.cpuAt p.key).sp - BitVec.ofNat 32 (4 * rs.length)).toNat
      (rs.map (s.cpuAt p.key).reg) = (k, none, t))
    (same : t.cpuAt p.key = s.cpuAt p.key) :
    exec i s = .next (t.completed p (y.advance ((s.cpuAt p.key).pc + BitVec.ofNat 32 (formLen short)))) ∧ k = rs.length := by
  refine ⟨?_, (State.pushWords_count pushed).trans (List.length_map ..)⟩
  rw [he, pushInstr]
  refine congrArg _ (State.issue_done_of h ?_ same)
  simp only [ilen_eq_formLen, put, aligned, pushed, ne_eq, not_true_eq_false, if_false]
  rfl

variable {pc : Bool} {vs : List Word}

/-- A pop that reads all its words loads the registers, and pc where it names it. -/
theorem State.pop_completes (he : exec i s = popInstr i p short pc rs rivals s) (h : s.Issues p (formLen short) i)
    (put : (s.cpuAt p.key).put 15 ((s.cpuAt p.key).sp + BitVec.ofNat 32 (4 * (rs.length + pc.toNat))) = .ok y)
    (aligned : (s.cpuAt p.key).sp.toNat % 4 = 0)
    (free : ∀ k, k < rs.length + pc.toNat → (s.fetched p (formLen short)).dataHeld p (((s.cpuAt p.key).sp.toNat + 4 * k) % 2 ^ 32) 4 = false)
    (popped : (s.fetched p (formLen short)).popWords p (rivals.map (·.val)) (rs.length + pc.toNat) (s.cpuAt p.key).sp.toNat = (vs, none, t))
    (same : t.cpuAt p.key = s.cpuAt p.key) (size : vs.length = rs.length + pc.toNat) :
    (pc = false → exec i s = .next (t.completed p ((y.setRegs rs vs).advance ((s.cpuAt p.key).pc + BitVec.ofNat 32 (formLen short))))) ∧
    (pc = true → (vs.getD rs.length 0#32).getLsbD 0 = false →
      exec i s = .next ((t.taken p (s.cpuAt p.key).pc.toNat (vs.getD rs.length 0#32).toNat).completed p
        ((y.setRegs rs vs).transfer (vs.getD rs.length 0#32)))) := by
  have none_held : ((List.range (rs.length + pc.toNat)).any fun k =>
      (s.fetched p (formLen short)).dataHeld p (((s.cpuAt p.key).sp.toNat + 4 * k) % 2 ^ 32) 4) = false :=
    List.any_eq_false.mpr fun k hk => by rw [free k (List.mem_range.mp hk)]; exact Bool.false_ne_true
  rw [he, popInstr]
  refine ⟨fun hpc => congrArg _ (State.issue_done_of h ?_ same),
    fun hpc even => congrArg _ (State.issue_jump_of (y := (y.setRegs rs vs).transfer (vs.getD rs.length 0#32)) h ?_ same)⟩
  · subst hpc
    simp only [ilen_eq_formLen, put, aligned, none_held, popped, ne_eq, not_true_eq_false, if_false, Bool.false_eq_true, Bool.not_false, if_true]
    rfl
  · subst hpc
    have last : vs.getLastD 0#32 = vs.getD rs.length 0#32 := by
      rw [List.getLastD_eq_getLast?, List.getLast?_eq_getElem?, size, List.getD_eq_getElem?_getD]
      rfl
    simp only [ilen_eq_formLen, put, aligned, none_held, popped, ne_eq, not_true_eq_false, if_false, Bool.false_eq_true, Bool.not_true, last, even]

end

/-- Settles O25: a push is `State.push_completes`, a pop `State.pop_completes`, with the registers that their words name. -/
theorem stackTransfers : Obligations.StackTransfers := by
  refine ⟨fun s t p list xl mask rivals y k => ⟨?push, ?pushm⟩, fun s t p list xl mask rivals y vs => ⟨?pop, ?popm⟩⟩
  case push =>
    rw [← regsIn_list]
    exact fun h put aligned pushed same => State.push_completes rfl h put aligned pushed same
  case pushm =>
    intro h
    rw [← regsIn_pushm h.spelled]
    exact fun put aligned pushed same => State.push_completes rfl h put aligned pushed same
  case pop =>
    rw [← regsIn_list]
    exact fun h put aligned free popped same size => State.pop_completes rfl h put aligned free popped same size
  case popm =>
    rw [← regsIn_low]
    exact fun h put aligned free popped same size => State.pop_completes rfl h put aligned free popped same size

end Sys2Proof.Machine
end

section
/-!
PROOF. Control registers, LOOP, RFE and the system instructions of lanes (R231 to R233, R262, R264, R267, R301, R309), and what remains of a
processor's registers once an instruction has completed.
-/
namespace Sys2Proof.Machine

/-! ### A processor that has completed an instruction -/

/-- Two processors hold the same registers: they differ at most in what debug and waiting keep. -/
def Cpu.SameRegs (y x : Cpu) : Prop := y.w = x.w ∧ y.pc = x.pc ∧ y.ps = x.ps ∧ y.ctl = x.ctl

section
variable {x y z : Cpu}

theorem Cpu.SameRegs.trans (h : z.SameRegs y) (g : y.SameRegs x) : z.SameRegs x :=
  ⟨h.1.trans g.1, h.2.1.trans g.2.1, h.2.2.1.trans g.2.2.1, h.2.2.2.trans g.2.2.2⟩
theorem Cpu.SameRegs.reg (h : y.SameRegs x) (r : Nat) : y.reg r = x.reg r := congrArg (Tab.get 0#32 · r) h.1
theorem Cpu.SameRegs.cr (h : y.SameRegs x) (n : Nat) : y.cr n = x.cr n := congrArg (Tab.get 0#32 · n) h.2.2.2
theorem Cpu.SameRegs.la (h : y.SameRegs x) (k : Nat) : y.la k = x.la k := congrArg (BitVec.getLsbD · k) h.2.2.1
theorem Cpu.SameRegs.pc (h : y.SameRegs x) : y.pc = x.pc := h.2.1
theorem Cpu.SameRegs.ps (h : y.SameRegs x) : y.ps = x.ps := h.2.2.1

end

theorem State.cpuAt_congr {s t : State} (h : t.cpus = s.cpus) (k : Nat) : t.cpuAt k = s.cpuAt k := congrArg (Tab.get (Cpu.init k) · k) h

section
variable (s : State)

@[simp] theorem State.supFault_cpus (q : RF) (k : Nat) : (s.supFault q k).cpus = s.cpus := by rw [State.supFault]; simp

/-- What a halt tells of core `d`: its state and its cause. -/
def State.tellHalt (d cause : Nat) : State := (s.put (R.DBG_Cc_STATUS_STATE d) 1).put (R.DBG_Cc_STATUS_CAUSE d) cause
@[simp] theorem State.tellHalt_cpus (d cause : Nat) : (s.tellHalt d cause).cpus = s.cpus := by simp [State.tellHalt]
theorem State.haltCore_eq (c cause : Nat) : s.haltCore c cause =
    let t := (s.setCpuAt c { s.cpuAt c with wfi := false, step := false, want := false }).tellHalt c cause
    if c = 8 then { t with chip := { t.chip with svBroken := true } }
    else if t.comparing (c / 2) then
      let t := (t.setCpuAt (c + 1) { t.cpuAt c with started := false }).tellHalt (c + 1) cause
      ((t.put (R.SUP_PAIRk_STATUS_COMPARING (c / 2)) 0).put (R.SUP_PAIRk_STATUS_DEBUG_BROKEN (c / 2)) 1).supFault R.SUP_FAULT_DEBUG_BROKEN (c / 2)
    else t := rfl

/-- A debug halt leaves the registers of the core (R512). -/
theorem State.haltCore_cpuAt (c cause : Nat) : (s.haltCore c cause).cpuAt c = { s.cpuAt c with wfi := false, step := false, want := false } := by
  rw [State.haltCore_eq]
  have core : ((s.setCpuAt c { s.cpuAt c with wfi := false, step := false, want := false }).tellHalt c cause).cpuAt c =
      { s.cpuAt c with wfi := false, step := false, want := false } :=
    (State.cpuAt_congr (State.tellHalt_cpus ..) c).trans (State.cpuAt_setCpuAt_same _ _ _)
  generalize (s.setCpuAt c { s.cpuAt c with wfi := false, step := false, want := false }).tellHalt c cause = t at core ⊢
  dsimp only
  split_ifs
  · exact (State.cpuAt_congr rfl c).trans core
  · rw [State.cpuAt_congr (s := t.setCpuAt (c + 1) _) (by simp; rfl) c, State.cpuAt_setCpuAt, if_neg (by omega), core]
  · exact core

/-- What a completed step does with debug and STEP leaves the registers of its processor (R512). -/
theorem State.stepped_cpuAt (p : Proc) : ((s.stepped p).cpuAt p.key).SameRegs (s.cpuAt p.key) := by
  have resumed : ((if (s.cpuAt p.key).resumed then s.setCpuAt p.key { s.cpuAt p.key with resumed := false } else s).cpuAt p.key).SameRegs
      (s.cpuAt p.key) := by
    split
    · rw [State.cpuAt_setCpuAt_same]; exact ⟨rfl, rfl, rfl, rfl⟩
    · exact ⟨rfl, rfl, rfl, rfl⟩
  cases p with
  | lane n => exact resumed
  | core c =>
    unfold State.stepped
    dsimp only
    split
    · rw [show (Proc.core c).key = c.val from rfl, State.haltCore_cpuAt]
      exact resumed
    · exact resumed

/-- A completed instruction leaves the registers that it gives. -/
theorem State.completed_cpuAt (p : Proc) (y : Cpu) : ((s.completed p y).cpuAt p.key).SameRegs y := by
  have h := (s.setCpuAt p.key y).stepped_cpuAt p
  rwa [State.cpuAt_setCpuAt_same] at h

/-- Where debug does not step the processor, completing an instruction leaves all but the processors. -/
theorem State.stepped_of_not_step {p : Proc} (h : (s.cpuAt p.key).step = false) : s.stepped p = { s with cpus := (s.stepped p).cpus } := by
  cases p with
  | lane n => unfold State.stepped; dsimp only; split <;> rfl
  | core c => unfold State.stepped; simp only [h, Bool.false_and, Bool.false_eq_true, if_false]; split <;> rfl

end

/-! ### An instruction that asks for a debug STEP -/

/-- The supervisor runs at M in its TCM and stands at a NOP. -/
def supervisorAtNop : State :=
  ((State.reset.put (R.CLK_Dd_STATUS_RUNNING 21) 1).setCpuAt 8 { started := true, pc := 0x38200000#32, w := [(15, 0x38220000#32)] }).poke
    0x38200000 (leBytes 2 0x1C)
/-- What an instruction would do that asks for a debug STEP of its own core. -/
def asksForStep (x : Cpu) : Except Exc Cpu := .ok { x with step := true }

theorem supervisorAtNop_issues : supervisorAtNop.Issues (.core 8) (formLen true) (.nop (.core 8)) := by
  constructor <;> decide +kernel

/-- Completing such an instruction halts the supervisor, and its halt breaks it for the whole device (R513). -/
theorem supervisorAtNop_steps : (supervisorAtNop.issue (.nop (.core 8)) (.core 8) 2 fun s x => match asksForStep x with
    | .ok y => .done s (y.advance (x.next true))
    | .error e => .raise s e).chip.svBroken = true := by decide +kernel
theorem supervisorAtNop_whole : (supervisorAtNop.fetched (.core 8) 2).chip.svBroken = false := by decide +kernel

/-- Refutes O23: the registers that `f` gives may themselves ask for a debug STEP; the supervisor then halts as it completes, and the device
loses it (`supervisorAtNop`, `asksForStep`). -/
theorem not_registerInstructionsTouchNoMemory : ¬ Obligations.RegisterInstructionsTouchNoMemory := by
  intro h
  obtain ⟨-, frame, -⟩ := h supervisorAtNop _ (.nop (.core 8)) (.core 8) true asksForStep _ supervisorAtNop_issues rfl rfl rfl
  have broken := congrArg (fun u : State => u.chip.svBroken) frame
  exact absurd (supervisorAtNop_steps.symm.trans (broken.trans supervisorAtNop_whole)) (by decide)
/-! ### Control registers (R231 to R233) -/

/-- The control registers of Table 10.2. -/
def listed (n : Nat) : Prop := n ≤ 8 ∨ (0x10 ≤ n ∧ n ≤ 0x14) ∨ (0x18 ≤ n ∧ n ≤ 0x1B)

/-- The lowest level that may read register `n`, and write it where it can be written (Table 10.2). -/
theorem readLevel_eq (n : Nat) : readLevel n = if n = 0x10 ∨ n = 0x11 ∨ n = 0x14 then 1 else if n = 0x12 ∨ n = 0x13 then 2 else 0 := by
  unfold readLevel
  split
  case h_6 => simp_all
  all_goals rfl
theorem ctlMask_of_not_listed {n : Nat} (h : ¬listed n) : ctlMask n = none := by
  unfold listed at h
  unfold ctlMask
  split
  case h_19 => rfl
  all_goals omega

theorem ctlMask_of_listed {n : Nat} (h : listed n) : (ctlMask n).isSome := by
  have below : n < 0x1C := by unfold listed at h; omega
  unfold listed at h
  interval_cases n <;> first | rfl | omega

theorem State.ctlRead_of_not_listed {s : State} {k n : Nat} (h : ¬listed n) : s.ctlRead k n = none := by
  have none := ctlMask_of_not_listed h
  unfold listed at h
  unfold State.ctlRead
  dsimp only
  split
  case h_6 => simp [none]
  all_goals omega

theorem State.ctlRead_of_listed {s : State} {k n : Nat} (h : listed n) :
    s.ctlRead k n = some (if n = 0 then (s.cpuAt k).ps else if n < 0x18 then (s.cpuAt k).cr n else s.feat k (n - 0x18)) := by
  have below : n < 0x1C := by unfold listed at h; omega
  unfold listed at h
  interval_cases n <;> first | rfl | omega

/-- What reads below the statistics of the interconnect keep gives the features of a processor. -/
theorem State.feat_of_atRest {s t : State} (h : t.atRest = s.atRest) (p : Proc) (n : Nat) : t.feat p.key n = s.feat p.key n := by
  have below : p.key / 2 < 16 := by cases p <;> simp only [Proc.key] <;> omega
  have lockstep : t.lockstep (p.key / 2) = s.lockstep (p.key / 2) := by
    rw [State.lockstep, State.lockstep, State.on_of_atRest h (by simp only [R.SUP_PAIRk_STATUS_LOCKSTEP, R.SUP_PAIRk_STATUS]; omega)]
  have broken : t.on (R.SUP_PAIRk_STATUS_DEBUG_BROKEN (p.key / 2)) = s.on (R.SUP_PAIRk_STATUS_DEBUG_BROKEN (p.key / 2)) :=
    State.on_of_atRest h (by simp only [R.SUP_PAIRk_STATUS_DEBUG_BROKEN, R.SUP_PAIRk_STATUS]; omega)
  simp only [State.feat, lockstep, broken, State.chip_of_atRest h]

/-- The lowest level that may write register `n` (Table 10.2). -/
theorem writeLevel_of_listed {n : Nat} (h : listed n) (hn : n < 0x14) :
    writeLevel n = some (if n = 0x10 then 1 else if n = 0x11 ∨ n = 0x12 ∨ n = 0x13 then 2 else 0) := by
  have all : ∀ m < 0x14, (m ≤ 8 ∨ (0x10 ≤ m ∧ m ≤ 0x14) ∨ (0x18 ≤ m ∧ m ≤ 0x1B)) →
      writeLevel m = some (if m = 0x10 then 1 else if m = 0x11 ∨ m = 0x12 ∨ m = 0x13 then 2 else 0) := by decide
  exact all n hn h
theorem writeLevel_of_not_listed {n : Nat} (h : ¬listed n) : writeLevel n = none := by
  have none := ctlMask_of_not_listed h
  unfold listed at h
  unfold writeLevel
  split
  case h_10 => rw [none, Option.map_none]
  all_goals first | rfl | omega
theorem writeLevel_of_not_written {n : Nat} (h : ¬listed n ∨ 0x14 ≤ n) : writeLevel n = none := by
  have all : ∀ m < 0x1C, 0x14 ≤ m → (m ≤ 8 ∨ (0x10 ≤ m ∧ m ≤ 0x14) ∨ (0x18 ≤ m ∧ m ≤ 0x1B)) → writeLevel m = none := by decide
  by_cases hl : listed n
  · exact all n (by unfold listed at hl; omega) (h.resolve_left (not_not_intro hl)) hl
  · exact writeLevel_of_not_listed hl

/-- The bits of register `n`, other than PS, that can be written (Table 10.2). -/
theorem ctlMask_of_written {n : Nat} (h : listed n) (h0 : n ≠ 0) (hn : n < 0x14) :
    ctlMask n = some (if n = 1 then 0xFFFFF000#32 else if n = 3 ∨ n = 4 ∨ n = 6 ∨ n = 7 then 0xFFFFFFFE#32
      else if n = 8 then 0x30F#32 else if n = 0x13 then 0xFFFFF800#32 else 0xFFFFFFFF#32) := by
  have all : ∀ m < 0x14, m ≠ 0 → (m ≤ 8 ∨ (0x10 ≤ m ∧ m ≤ 0x14) ∨ (0x18 ≤ m ∧ m ≤ 0x1B)) →
      ctlMask m = some (if m = 1 then 0xFFFFF000#32 else if m = 3 ∨ m = 4 ∨ m = 6 ∨ m = 7 then 0xFFFFFFFE#32
        else if m = 8 then 0x30F#32 else if m = 0x13 then 0xFFFFF800#32 else 0xFFFFFFFF#32) := by decide
  exact all n hn h0 h


theorem Cpu.advance_of_no_loop {x : Cpu} (h0 : x.la 0 = false) (h1 : x.la 1 = false) (next : Word) : x.advance next = { x with pc := next } := by
  rw [Cpu.advance_of_not_back (Cpu.loopEnd_elsewhere (fun h => absurd (h.1.symm.trans h0) (by decide))), Cpu.outerEnd,
    Cpu.loopEnd_elsewhere (fun h => absurd (h.1.symm.trans h1) (by decide))]
  rfl

/-- A write of a control register other than PS, where the loops are then valid, writes the bits that it has. -/
theorem Cpu.mtc_of_written {x : Cpu} {n : Nat} {v : Word} (h : listed n) (h0 : n ≠ 0) (hn : n < 0x14)
    (level : (if n = 0x10 then 1 else if n = 0x11 ∨ n = 0x12 ∨ n = 0x13 then 2 else 0) ≤ x.lvl) (ok : (x.ctlWrite n v).loopsOk = true) :
    x.mtc n v = .ok (x.ctlWrite n v) := by
  simp only [Cpu.mtc, writeLevel_of_listed h hn, h0, if_false, Nat.not_lt.mpr level, ok, if_true]


/-- What register `n` holds once `v` is written to it. -/
theorem Cpu.cr_ctlWrite {x : Cpu} {n : Nat} {v : Word} (h : listed n) (h0 : n ≠ 0) (hn : n < 0x14) :
    x.ctlWrite n v = x.setCr n (if n = 1 then v &&& 0xFFFFF000#32 else if n = 3 ∨ n = 4 ∨ n = 6 ∨ n = 7 then v &&& 0xFFFFFFFE#32
        else if n = 8 then v &&& 0x30F#32 else if n = 0x13 then v &&& 0xFFFFF800#32 else v) := by
  have all : (v &&& 0xFFFFFFFF#32) = v := BitVec.and_allOnes
  unfold Cpu.ctlWrite
  rw [ctlMask_of_written h h0 hn]
  split
  · exact absurd rfl h0
  · next e =>
    obtain rfl := Option.some.inj e
    rw [if_neg (by split_ifs <;> decide)]
    split_ifs <;> first | rfl | rw [all]
  · next e => cases e

/-- The loops stay valid where none of their registers is written, and where none is active. -/
theorem Cpu.loopsOk_setCr {x : Cpu} {n : Nat} {v : Word} (ok : x.loopsOk = true) (idle : 2 ≤ n → n ≤ 7 → x.la 0 = false ∧ x.la 1 = false) :
    (x.setCr n v).loopsOk = true := by
  by_cases hn : 2 ≤ n ∧ n ≤ 7
  · obtain ⟨la0, la1⟩ := idle hn.1 hn.2
    have la : ∀ k, (x.setCr n v).la k = x.la k := fun _ => rfl
    simp [Cpu.loopsOk, la, la0, la1]
  · have kept : ∀ m, 2 ≤ m → m ≤ 7 → (x.setCr n v).cr m = x.cr m := fun m h2 h7 => x.cr_setCr_ne v (by omega)
    have la : ∀ k, (x.setCr n v).la k = x.la k := fun _ => rfl
    have ls : ∀ k, (x.setCr n v).ls k = x.ls k := fun k => kept _ (by unfold lsNo; split <;> omega) (by unfold lsNo; split <;> omega)
    have le : ∀ k, (x.setCr n v).le k = x.le k := fun k => kept _ (by unfold leNo; split <;> omega) (by unfold leNo; split <;> omega)
    simpa only [Cpu.loopsOk, la, ls, le] using ok

/-- Going on keeps a control register, LC0 and LC1 where no loop is active. -/
theorem Cpu.cr_advance {x : Cpu} {n : Nat} (idle : 2 ≤ n → n ≤ 7 → x.la 0 = false ∧ x.la 1 = false) (next : Word) : (x.advance next).cr n = x.cr n := by
  by_cases hn : 2 ≤ n ∧ n ≤ 7
  · obtain ⟨la0, la1⟩ := idle hn.1 hn.2
    rw [Cpu.advance_of_no_loop la0 la1]
    rfl
  · exact (x.goesOnFrom_advance next).2.2 n (by omega) (by omega)

/-- An instruction on registers that is refused raises its exception where it stands. -/
theorem State.raises_of_regInstr {s : State} {p : Proc} {i : Instr} {short : Bool} {f : Cpu → Except Exc Cpu} {e : Exc}
    (he : exec i s = regInstr i p short f s) (hf : f (s.cpuAt p.key) = .error e) : s.Raises p (formLen short) e i := fun h => by
  rw [he]
  exact congrArg _ (State.issue_raise h (by simp only [hf]))

section
variable {s : State} {p : Proc} {num : BitVec 8} {rd : RegNo}

/-- What an MFC reads beside the fetch is what it would have read before. -/
theorem State.ctlRead_fetched (h : listed num.toNat) : (s.fetched p 4).ctlRead p.key num.toNat =
    some (if num.toNat = 0 then (s.cpuAt p.key).ps else if num.toNat < 0x18 then (s.cpuAt p.key).cr num.toNat else s.feat p.key (num.toNat - 0x18)) := by
  rw [State.ctlRead_of_listed h, State.fetched_cpuAt, State.feat_of_atRest (State.fetched_atRest s p 4)]

theorem State.mfc_undef (h : ¬listed num.toNat) : s.Raises p 4 .undef (.mfc p rd num) := fun issues =>
  congrArg _ (State.issue_raise issues (by simp only [State.ctlRead_of_not_listed h]))
theorem State.mfc_priv (h : listed num.toNat) (level : (s.cpuAt p.key).lvl < readLevel num.toNat) :
    s.Raises p 4 .priv (.mfc p rd num) := fun issues =>
  congrArg _ (State.issue_raise issues (by simp only [State.ctlRead_fetched h, level, if_true]))
theorem State.mfc_reads (issues : s.Issues p 4 (.mfc p rd num)) (h : listed num.toNat) (level : readLevel num.toNat ≤ (s.cpuAt p.key).lvl)
    (hrd : rd ≠ 15) : Goes (.mfc p rd num) s fun t => (t.cpuAt p.key).reg rd =
      if num.toNat = 0 then (s.cpuAt p.key).ps else if num.toNat < 0x18 then (s.cpuAt p.key).cr num.toNat else s.feat p.key (num.toNat - 0x18) := by
  generalize hv : (if num.toNat = 0 then (s.cpuAt p.key).ps else if num.toNat < 0x18 then (s.cpuAt p.key).cr num.toNat
    else s.feat p.key (num.toNat - 0x18)) = v
  have read := hv ▸ State.ctlRead_fetched (s := s) (p := p) h
  refine ⟨_, congrArg Host.Outcome.next (State.issue_done (y := ((s.cpuAt p.key).setReg rd v).advance ((s.cpuAt p.key).next false)) issues ?_), ?_⟩
  · simp only [read, Nat.not_lt.mpr level, if_false, Cpu.put_of_allowed (x := s.cpuAt p.key) (v := v) (fun e => absurd e hrd)]
  · have kept := (((s.cpuAt p.key).setReg rd v).goesOnFrom_advance ((s.cpuAt p.key).next false)).1
    dsimp only
    rw [(State.completed_cpuAt _ p _).reg]
    exact (congrArg (Tab.get 0#32 · rd) kept).trans (Cpu.reg_setReg_same _ _ _)

end

/-- Settles O29: MFC and MTC by the tables of what may be read and written, and registers that going on leaves. -/
theorem controlRegisterAccess : Obligations.ControlRegisterAccess := by
  intro s p rd rs num x n reads writes listed' readAt writeAt v
  refine ⟨State.mfc_undef, fun h => State.raises_of_regInstr (short := false) rfl ?_, fun h level => State.mfc_priv h (readLevel_eq n ▸ level),
    fun h hn level => State.raises_of_regInstr (short := false) rfl ?_, fun issues h level hrd => State.mfc_reads issues h (readLevel_eq n ▸ level) hrd, ?_⟩
  · simp only [Cpu.mtc, writeLevel_of_not_written (n := num.toNat) h]
  · have h0 : num.toNat ≠ 0 := fun e => by
      have : writeAt = 0 := by simp only [writeAt, n, e]; decide
      omega
    have level' : x.lvl < writeAt := level
    simp only [Cpu.mtc, writeLevel_of_listed (n := num.toNat) h hn, h0, if_false]
    exact if_pos level
  · intro issues h h0 hn level ok idle
    have written := Cpu.cr_ctlWrite (x := x) (v := v) h h0 hn
    refine ⟨_, State.regInstr_ok (short := false) issues (Cpu.mtc_of_written h h0 hn level ?_), ?_⟩
    · rw [written]
      exact Cpu.loopsOk_setCr ok idle
    · dsimp only
      rw [(State.completed_cpuAt _ p _).cr, written, Cpu.cr_advance (x := x.setCr n _) (n := n) idle, Cpu.cr_setCr_same]

/-! ### LOOP (R262, R264) -/

section
variable {x : Cpu} {k : Bool} {len : BitVec 8} {ls le n : Word}

/-- The registers of loop `k` take a body and a count. -/
def Cpu.takeBody (x : Cpu) (k : Bool) (ls le n : Word) : Cpu :=
  ((x.setCr (if k then 6 else 3) ls).setCr (if k then 7 else 4) le).setCr (if k then 5 else 2) n

theorem Cpu.startLoop_eq (x : Cpu) (k : Bool) (len : Nat) (n : Word) : x.startLoop k.toNat len n =
    if n = 0#32 then (x.takeBody k (x.pc + 4#32) (x.pc + 4#32 + BitVec.ofNat 32 (2 * len)) n).advance (x.pc + 4#32 + BitVec.ofNat 32 (2 * len))
    else ((x.takeBody k (x.pc + 4#32) (x.pc + 4#32 + BitVec.ofNat 32 (2 * len)) n).setLa k.toNat true).advance (x.pc + 4#32) := by
  cases k <;> rfl

theorem Cpu.ls_takeBody (x : Cpu) (k : Bool) (ls le n : Word) : (x.takeBody k ls le n).cr (if k then 6 else 3) = ls := by
  cases k <;> simp [Cpu.takeBody, Cpu.cr_setCr_ne]
theorem Cpu.le_takeBody (x : Cpu) (k : Bool) (ls le n : Word) : (x.takeBody k ls le n).cr (if k then 7 else 4) = le := by
  cases k <;> simp [Cpu.takeBody, Cpu.cr_setCr_ne]
theorem Cpu.lc_takeBody (x : Cpu) (k : Bool) (ls le n : Word) : (x.takeBody k ls le n).cr (if k then 5 else 2) = n := by
  cases k <;> simp [Cpu.takeBody]
/-- Loop 0 leaves the end of loop 1. -/
theorem Cpu.outer_le_takeBody (x : Cpu) (ls le n : Word) : (x.takeBody false ls le n).cr 7 = x.cr 7 := by
  simp [Cpu.takeBody, Cpu.cr_setCr_ne]

/-- The first instruction of a body is not the end of its loop. -/
theorem ne_add_body (a : Word) {len : BitVec 8} (body : len ≠ 0#8) : a ≠ a + BitVec.ofNat 32 (2 * len.toNat) := by
  have : len.toNat ≠ 0 := fun e => body (BitVec.eq_of_toNat_eq e)
  bv_omega
/-- A body in the lower half of memory ends above its start. -/
theorem lt_add_body {a : Word} {len : BitVec 8} (body : len ≠ 0#8) (low : a.toNat < 2 ^ 31) :
    a + 4#32 < a + 4#32 + BitVec.ofNat 32 (2 * len.toNat) := by
  have : len.toNat ≠ 0 := fun e => body (BitVec.eq_of_toNat_eq e)
  bv_omega

/-- No loop stands at its end where LOOP starts its own: not the other one, whose body holds it, nor its own. -/
theorem Cpu.no_end_at_body (h : x.loopForbidden k.toNat ls le = false) (h0 : ls ≠ le) (above : ls < le) :
    ((x.takeBody k ls le n).setLa k.toNat true).advance ls = { (x.takeBody k ls le n).setLa k.toNat true with pc := ls } := by
  have la : ∀ j, j ≠ k.toNat → ((x.takeBody k ls le n).setLa k.toNat true).la j = x.la j := fun j hj => Cpu.la_setLa_ne _ _ hj
  have inner : ¬((x.takeBody k ls le n).setLa k.toNat true).atEnd 0 ls := by
    rintro ⟨active, stands⟩
    cases k with
    | false => exact h0 (stands.trans (x.le_takeBody false ls le n))
    | true =>
      rw [la 0 (by decide)] at active
      simp [Cpu.loopForbidden, active] at h
  have outer : ¬((x.takeBody k ls le n).setLa k.toNat true).atEnd 1 ls := by
    rintro ⟨active, stands⟩
    cases k with
    | true => exact h0 (stands.trans (x.le_takeBody true ls le n))
    | false =>
      rw [la 1 (by decide)] at active
      have ends : ls = x.cr 7 := stands.trans (x.outer_le_takeBody ls le n)
      have within : le ≤ x.cr 7 := by simp [Cpu.loopForbidden, active] at h; exact h.2.2
      bv_omega
  rw [Cpu.advance_of_not_back (Cpu.loopEnd_elsewhere inner), Cpu.outerEnd_elsewhere outer]

/-- A LOOP with a count of 0 leaves its loop off. -/
theorem Cpu.la_skipped (h : x.loopForbidden k.toNat ls le = false) (next : Word) : ((x.takeBody k ls le n).advance next).la k.toNat = false := by
  have la : ∀ j, (x.takeBody k ls le n).la j = x.la j := fun _ => rfl
  have off : x.la k.toNat = false := by simp [Cpu.loopForbidden] at h; exact h.1.1
  cases k with
  | false =>
    rw [Cpu.advance_of_not_back (x := x.takeBody false ls le n) (Cpu.loopEnd_elsewhere fun e => absurd (e.1.symm.trans off) (by decide)), Bool.toNat_false,
      (Cpu.outerEnd_keeps_inner _ next).2]
    exact off
  | true =>
    have inner : x.la 0 = false := by simp [Cpu.loopForbidden] at h; exact h.2
    rw [Cpu.advance_of_no_loop (x := x.takeBody true ls le n) inner off]
    exact off

end

theorem Cpu.loopForbidden_iff {x : Cpu} {k : Bool} {ls le : Word} : x.loopForbidden k.toNat ls le = true ↔
    x.la k.toNat = true ∨ (k = true ∧ x.la 0 = true) ∨ (k = false ∧ x.la 1 = true ∧ ¬(x.cr 6 ≤ ls ∧ le ≤ x.cr 7)) := by
  have hl : x.ls 1 = x.cr 6 := rfl
  have he : x.le 1 = x.cr 7 := rfl
  cases k <;> simp [Cpu.loopForbidden, hl, he, imp_iff_not_or]

/-- Settles O34: the body is not empty where the LOOP issues, so no loop ends at its first instruction. -/
theorem loopStartsItsBodyOrIsUndefined : Obligations.LoopStartsItsBodyOrIsUndefined := by
  intro s p k imm count len rc x ls le n forbidden
  refine ⟨fun issues low allowed => ?_, fun h issues => congrArg _ (State.issue_raise issues ?_), fun rv h0 h1 found => ?_⟩
  · have body : len ≠ 0#8 := by simpa [spelled] using issues.spelled
    have start : x.loopForbidden k.toNat ls le = false := Bool.eq_false_iff.mpr fun h => allowed (Cpu.loopForbidden_iff.mp h)
    have count' : (if imm then count.setWidth 32 else x.reg rc) = n := by simp only [n, BitVec.ofNat_toNat]
    refine ⟨_, congrArg Host.Outcome.next (State.issue_done (y := x.startLoop k.toNat len.toNat n) issues ?_), ?_⟩
    · exact (if_neg (by simpa using start)).trans (by rw [count'])
    dsimp only
    have same := State.completed_cpuAt (s.fetched p 4) p (x.startLoop k.toNat len.toNat n)
    rw [same.cr, same.cr, same.cr, same.la, same.pc, Cpu.startLoop_eq]
    by_cases h : n = 0#32
    · have kept := fun m h2 h5 => ((x.takeBody k ls le n).goesOnFrom_advance le).2.2 m h2 h5
      rw [if_pos h]
      refine ⟨(kept _ ?_ ?_).trans (x.ls_takeBody k ls le n), (kept _ ?_ ?_).trans (x.le_takeBody k ls le n), ?_, fun e => absurd h e⟩
      any_goals cases k <;> decide
      exact (Cpu.la_skipped start le).trans (by simp [h])
    · rw [if_neg h, Cpu.no_end_at_body start (ne_add_body _ body) (lt_add_body body low)]
      refine ⟨x.ls_takeBody k ls le n, x.le_takeBody k ls le n, ?_, fun _ => ⟨x.lc_takeBody k ls le n, rfl⟩⟩
      refine (Cpu.la_setLa_same _ true (by cases k <;> decide)).trans (by simp [h])
  · exact if_pos (Cpu.loopForbidden_iff.mpr h)
  · simpa [spelled] using spelled_decodeInsn found

/-- Settles O32: what a lane refuses is a lane fault at its pc, which its fetch left. -/
theorem lanesRefuseReturnAndWait : Obligations.LanesRefuseReturnAndWait := by
  intro s n num p u fault
  have stays : u.cpuAt (16 + n) = s.cpuAt (16 + n) := State.fetched_cpuAt s p 4 (16 + n)
  have refused : u.trapped p .undef = (fault 4).stepped p := by
    rw [State.trapped, State.raiseAt, stays]
    rfl
  refine ⟨fun h => ?_, fun h => ?_, fun h => ?_, fun h => congrArg Host.Outcome.next (State.issue_done h rfl), fun h => congrArg Host.Outcome.next (State.issue_done h rfl)⟩
  · exact congrArg _ ((State.issue_raise h rfl).trans refused)
  · exact congrArg _ ((State.issue_raise h rfl).trans refused)
  · obtain ⟨issues, finds⟩ := h
    have run : exec (.swi p num) s = .next (u.raiseAt p (.swi num.toNat) (u.cpuAt p.key).pc) := by
      change Host.Outcome.next (s.issue _ _ _ _) = _
      simp only [State.issue, finds, State.run, issues, Bool.not_true, Bool.false_eq_true, if_true, if_false, p, u]
    rw [run, State.raiseAt, stays]
    rfl

/-! ### RFE (R301, R302) -/

section
variable {x y : Cpu} {f : Nat → Word}

/-- The loops that a frame restores: PS, and the bodies of the loops that it says are active. -/
def Cpu.frameLoops (x : Cpu) (f : Nat → Word) : Cpu :=
  let half (k : Nat) : Word := BitVec.ofNat 32 (2 * ((f 0).toNat / 2 ^ (8 * k) % 256))
  let loop (x : Cpu) (k : Nat) : Cpu :=
    if (f 0x28).getLsbD k then (x.setCr (lsNo k) (f 0x2C - half (2 * k))).setCr (leNo k) (f 0x2C + half (2 * k + 1)) else x
  loop (loop { x with ps := f 0x28 &&& psMask } 0) 1

theorem Cpu.frameLoops_ps (x : Cpu) (f : Nat → Word) : (x.frameLoops f).ps = f 0x28 &&& psMask := by
  unfold Cpu.frameLoops
  dsimp only
  split_ifs <;> rfl

/-- The level of a frame is one that RFE refuses. -/
def Cpu.FrameAbove (x : Cpu) (f : Nat → Word) : Prop :=
  bitsOf (f 0x28).toNat 8 2 = 3 ∨ (x.cr 0x14).toNat % 4 < bitsOf (f 0x28).toNat 8 2 ∨ x.lvl < bitsOf (f 0x28).toNat 8 2
/-- The processor that takes a frame. -/
def Cpu.takeFrame (x : Cpu) (f : Nat → Word) : Cpu :=
  { ((((x.frameLoops f).setRegs [0, 1, 2, 3, 4, 5, 14] [f 0x24, f 0x20, f 0x1C, f 0x18, f 0x14, f 0x10, f 0x0C]).setCr 2 (f 8)).setCr 5
      (f 4)).setReg 15 (x.sp + 48#32 + if (f 0x28).getLsbD 2 then 4#32 else 0#32) with pc := f 0x2C }

theorem Cpu.unstack_above (above : x.FrameAbove f) : x.unstack f = .error .priv := if_pos above
theorem Cpu.unstack_odd (allowed : ¬x.FrameAbove f) (odd : (f 0x2C).getLsbD 0 = true) :
    x.unstack f = .error (.align (f 0x2C).toNat false) := (if_neg allowed).trans (if_pos odd)
theorem Cpu.unstack_even (allowed : ¬x.FrameAbove f) (even : ¬(f 0x2C).getLsbD 0 = true) :
    x.unstack f = if (x.frameLoops f).loopsOk = false then .error .undef else .ok (x.takeFrame f) := (if_neg allowed).trans (if_neg even)
/-- A frame that RFE accepts is taken, and its level does not exceed the core's. -/
theorem Cpu.unstack_ok (h : x.unstack f = .ok y) : y = x.takeFrame f ∧ ¬x.FrameAbove f := by
  by_cases above : x.FrameAbove f
  · cases (Cpu.unstack_above above).symm.trans h
  by_cases odd : (f 0x2C).getLsbD 0 = true
  · cases (Cpu.unstack_odd above odd).symm.trans h
  rw [Cpu.unstack_even above odd] at h
  split_ifs at h
  exact ⟨(Except.ok.inj h).symm, above⟩

theorem Cpu.reg_takeFrame (x : Cpu) (f : Nat → Word) (k : Nat) : (x.takeFrame f).reg k =
    (((x.frameLoops f).setRegs [0, 1, 2, 3, 4, 5, 14] [f 0x24, f 0x20, f 0x1C, f 0x18, f 0x14, f 0x10, f 0x0C]).setReg 15
      (x.sp + 48#32 + if (f 0x28).getLsbD 2 then 4#32 else 0#32)).reg k := rfl

/-- The registers that a frame holds, and its PS. -/
theorem Cpu.takeFrame_regs (x : Cpu) (f : Nat → Word) :
    [(x.takeFrame f).reg 0, (x.takeFrame f).reg 1, (x.takeFrame f).reg 2, (x.takeFrame f).reg 3, (x.takeFrame f).reg 4, (x.takeFrame f).reg 5,
      (x.takeFrame f).reg 14, (x.takeFrame f).cr 2, (x.takeFrame f).cr 5] = [f 0x24, f 0x20, f 0x1C, f 0x18, f 0x14, f 0x10, f 0x0C, f 8, f 4] := by
  have lc0 : (x.takeFrame f).cr 2 = f 8 := (Cpu.cr_setCr_ne _ _ (by decide)).trans (Cpu.cr_setCr_same _ _ _)
  have lc1 : (x.takeFrame f).cr 5 = f 4 := Cpu.cr_setCr_same _ _ _
  simp [lc0, lc1, Cpu.reg_takeFrame, Cpu.setRegs, Cpu.reg_setReg_ne]
theorem Cpu.takeFrame_sp (x : Cpu) (f : Nat → Word) : (x.takeFrame f).reg 15 = x.sp + 48#32 + if (f 0x28).getLsbD 2 then 4#32 else 0#32 :=
  Cpu.reg_setReg_same _ _ _
theorem Cpu.takeFrame_ps (x : Cpu) (f : Nat → Word) : (x.takeFrame f).ps = f 0x28 &&& psMask := x.frameLoops_ps f
theorem Cpu.takeFrame_step (x : Cpu) (f : Nat → Word) : (x.takeFrame f).step = x.step := by
  change (x.frameLoops f).step = x.step
  unfold Cpu.frameLoops
  dsimp only
  split_ifs <;> rfl

end

section
variable {s t : State} {c : Fin 9} {rivals : List (Fin 18)} {vs : List Word} {y : Cpu}

/-- What RFE does to its core once it is back: a suspended service goes on, or the core waits again (R308, R455). -/
def State.backFrom (t : State) (x : Cpu) (c : Fin 9) : State :=
  if (t.cpuAt c).pc == 0x804#32 && !x.inService then t.svcResume c
  else if (t.cpuAt c).rom == some (t.cpuAt c).pc then t.setCpuAt c { t.cpuAt c with wfi := true } else t
/-- The effect of RFE. -/
def rfeEff (c : Fin 9) (rivals : List (Fin 18)) (s : State) (x : Cpu) : Eff :=
  if x.lvl = 0 then .raise s .priv
  else if x.sp.toNat % 4 ≠ 0 then .raise s (.align x.sp.toNat false)
  else match s.popWords (.core c) (rivals.map (·.val)) 12 x.sp.toNat with
    | (_, some e, t) => .raise t e
    | (vs, none, t) => match x.unstack (fun o => vs.getD (o / 4) 0#32) with
      | .error e => .raise t e
      | .ok y => .done (t.put (R.CPS_NMI_ACTIVE c) ((vs.getD 10 0#32).getLsbD 3).toNat) y

theorem exec_rfe (s : State) (c : Fin 9) (rivals : List (Fin 18)) :
    exec (.rfe (.core c) rivals) s = .next ((s.issue (.rfe (.core c) rivals) (.core c) 4 (rfeEff c rivals)).backFrom (s.cpuAt c) c) := rfl

section
variable {x : Cpu} (level : x.lvl ≠ 0) (aligned : x.sp.toNat % 4 = 0) (popped : s.popWords (.core c) (rivals.map (·.val)) 12 x.sp.toNat = (vs, none, t))
include level aligned popped

theorem rfeEff_error {e : Exc} (he : x.unstack (fun o => vs.getD (o / 4) 0#32) = .error e) : rfeEff c rivals s x = .raise t e := by
  rw [rfeEff, if_neg level, if_neg (not_not_intro aligned), popped]
  simp only [he]
theorem rfeEff_ok (hy : x.unstack (fun o => vs.getD (o / 4) 0#32) = .ok y) :
    rfeEff c rivals s x = .done (t.put (R.CPS_NMI_ACTIVE c) ((vs.getD 10 0#32).getLsbD 3).toNat) y := by
  rw [rfeEff, if_neg level, if_neg (not_not_intro aligned), popped]
  simp only [hy]

end

theorem State.backFrom_elsewhere {x : Cpu} (service : (t.cpuAt c).pc ≠ 0x804#32) (routine : (t.cpuAt c).rom ≠ some (t.cpuAt c).pc) :
    t.backFrom x c = t := by
  rw [State.backFrom, if_neg (by simp [service]), if_neg (by simpa using routine)]
/-- Back anywhere but in a service, the core keeps its registers, and all but the cores stays. -/
theorem State.backFrom_keeps {x : Cpu} (service : (t.cpuAt c).pc ≠ 0x804#32) :
    ((t.backFrom x c).cpuAt c).SameRegs (t.cpuAt c) ∧ (t.backFrom x c).regs = t.regs := by
  rw [State.backFrom, if_neg (by simp [service])]
  split
  · rw [State.cpuAt_setCpuAt_same]
    exact ⟨⟨rfl, rfl, rfl, rfl⟩, rfl⟩
  · exact ⟨⟨rfl, rfl, rfl, rfl⟩, rfl⟩

end

/-- Settles O33, by the branches of `Cpu.unstack`, whose frame is the twelve words that the pops gave. -/
theorem returnRestoresTheFrame : Obligations.ReturnRestoresTheFrame := by
  intro s t c rivals vs y x f l issues level aligned popped same unstacked
  have isLevel : bitsOf (f 10).toNat 8 2 = l := by simp [l, bitsOf, Nat.shiftRight_eq_div_pow]
  have above : x.FrameAbove (fun o => vs.getD (o / 4) 0#32) ↔ l = 3 ∨ (x.cr 0x14).toNat % 4 < l ∨ x.lvl < l := by
    rw [← isLevel]; exact Iff.rfl
  refine ⟨fun h => Cpu.unstack_above (above.mpr h), fun l3 origin run odd => Cpu.unstack_odd ?_ odd, ?_, fun ok service step => ?_⟩
  · rw [above]; omega
  · intro e he u service routine
    rw [exec_rfe, State.issue_raise_of issues (rfeEff_error level aligned popped he) same]
    exact congrArg Host.Outcome.next (State.backFrom_elsewhere service routine)
  · obtain ⟨rfl, allowed⟩ := Cpu.unstack_ok ok
    have same' : (t.put (R.CPS_NMI_ACTIVE c) ((f 10).getLsbD 3).toNat).cpuAt c = x := same
    have done := State.issue_done_of issues (rfeEff_ok level aligned popped ok) same'
    have kept := (t.put (R.CPS_NMI_ACTIVE c) ((f 10).getLsbD 3).toNat).completed_cpuAt (.core c) (x.takeFrame fun o => vs.getD (o / 4) 0#32)
    refine ⟨_, (exec_rfe s c rivals).trans (congrArg (fun u : State => Host.Outcome.next (u.backFrom x c)) done), ?_⟩
    obtain ⟨regs, rest⟩ := State.backFrom_keeps (x := x) (kept.pc.trans_ne service)
    have untouched := State.stepped_of_not_step
      ((t.put (R.CPS_NMI_ACTIVE c) ((f 10).getLsbD 3).toNat).setCpuAt c (x.takeFrame fun o => vs.getD (o / 4) 0#32)) (p := .core c)
      (by rw [show (Proc.core c).key = c.val from rfl, State.cpuAt_setCpuAt_same, Cpu.takeFrame_step]; exact step)
    have active := (congrArg (RegFile.fld · (R.CPS_NMI_ACTIVE c)) (rest.trans (congrArg State.regs untouched))).trans
      (State.get_put t (R.CPS_NMI_ACTIVE c) ((f 10).getLsbD 3).toNat (show 1 + 1 ≤ 32 by decide))
    intro z
    have same : z.SameRegs (x.takeFrame fun o => vs.getD (o / 4) 0#32) := regs.trans kept
    clear_value z
    simp only [same.reg, same.cr, same.pc, same.ps]
    refine ⟨x.takeFrame_regs _, rfl, x.takeFrame_ps _, x.takeFrame_sp _, ?_, ?_⟩
    · refine (congrArg (· != 0) active).trans ?_
      cases (f 10).getLsbD 3 <;> rfl
    · rw [above] at allowed
      omega

end Sys2Proof.Machine
end

section
/-!
PROOF. Faults, the interrupt controller, entry and LOCKUP (R236, R278, R291 to R306).
-/
namespace Sys2Proof.Machine

/-! ### Faults (R236, R278, R292, R293) -/

section
variable {s : State}

theorem Exc.num_range (e : Exc) : 2 ≤ e.num ∧ e.num ≤ 9 := by cases e <;> exact ⟨by simp only [Exc.num]; omega, by simp only [Exc.num]; omega⟩

/-- Recording a refusal touches neither memory nor the processors (R390). -/
@[simp] theorem State.refuse_mem (q : Requester) (view : Nat) (k : Access) (a n : Nat) (u : Bool) : (s.refuse q view k a n u).mem = s.mem := by
  unfold State.refuse
  split
  · rfl
  · split
    · simp
    · extract_lets v
      simp
@[simp] theorem State.refuse_cpus (q : Requester) (view : Nat) (k : Access) (a n : Nat) (u : Bool) : (s.refuse q view k a n u).cpus = s.cpus := by
  unfold State.refuse
  split
  · rfl
  · split
    · simp
    · extract_lets v
      simp

/-- A failed fetch of the first halfword, where the core would fetch and none waits. -/
theorem exec_fetchFault_first {c : Fin 9} (ready : s.ready (.core c) = true) (undisplaced : s.displaced (.core c) = false)
    (failed : s.fetchOk (.core c) (s.cpuAt c).pc.toNat = false) (arrived : s.fetchWaits (.core c) (s.cpuAt c).pc.toNat = false) :
    exec (.fetchFault (.core c) false) s = .next (
      if s.fetchMay (.core c) (s.cpuAt c).pc.toNat then
        ((s.memRead ⟨.core c, s.viewOf (.core c)⟩ (s.cpuAt c).pc.toNat 2).2.raiseAt (.core c) (.ecc (s.cpuAt c).pc.toNat false true) (s.cpuAt c).pc).stepped (.core c)
      else
        ((if s.inView (s.viewOf (.core c)) .fetch (s.cpuAt c).pc.toNat then s
          else s.refuse (.core c) (s.viewOf (.core c)) .fetch (s.cpuAt c).pc.toNat 2).raiseAt (.core c) (.bus (s.cpuAt c).pc.toNat false true)
            (s.cpuAt c).pc).stepped (.core c)) := by
  change execFetchFault _ _ _ = _
  unfold execFetchFault
  simp only [State.pcOf, Proc.key, Proc.req, ready, undisplaced, failed, arrived, Bool.toNat_false, Nat.mul_zero, Nat.add_zero, Bool.not_true, Bool.or_self,
    Bool.false_and, Bool.false_eq_true, if_false]
  rfl

end

/-- Settles O39, from the branches of the effect of a failed fetch. -/
theorem faultsAreRaisedAtTheirLevel : Obligations.FaultsAreRaisedAtTheirLevel := by
  constructor
  · refine fun s c n p short e pc => ⟨rfl, rfl, e.num_range.1, e.num_range.2, fun issues found => ?_⟩
    have undefined : exec (.undefinedInstruction p short) s = .next (s.run p (formLen short) fun s _ => .raise s .undef) :=
      congrArg Host.Outcome.next (if_pos (List.contains_iff_mem.mpr found))
    rw [undefined, State.run_raise issues rfl]
  · intro s c a pc ready undisplaced arrived
    constructor
    · intro outside
      have failed : s.fetchOk (.core c) a = false := by rw [State.fetchOk, outside, Bool.false_and]
      refine ⟨_, ?_, ?_, (exec_fetchFault_first ready undisplaced failed arrived).trans (congrArg Host.Outcome.next (if_neg (by rw [outside]; decide)))⟩
      · split_ifs
        · rfl
        · exact State.refuse_cpus ..
      · split_ifs
        · rfl
        · exact State.refuse_mem ..
    · intro may held unsound
      have failed : s.fetchOk (.core c) a = false := by rw [State.fetchOk, held, unsound, Bool.or_self, Bool.and_false]
      have rest := State.memRead_atRest s ⟨.core c, s.viewOf (.core c)⟩ a 2
      exact ⟨_, State.cpus_of_atRest rest, State.mem_of_atRest rest,
        (exec_fetchFault_first ready undisplaced failed arrived).trans (congrArg Host.Outcome.next (if_pos may))⟩

/-! ### The interrupt controller (R303 to R306) -/

/-- The bits of a number below 2^n, added one by one. -/
theorem sum_bits (v n : Nat) : ((List.range n).filter (bit v)).foldl (fun m i => m + 2 ^ i) 0 = v % 2 ^ n := by
  induction n with
  | zero => simp [Nat.mod_one]
  | succ n ih =>
    rw [List.range_succ, List.filter_append, List.foldl_append, ih, Nat.mod_pow_succ, ← Nat.toNat_testBit]
    cases h : v.testBit n <;> simp [bit, h]

theorem State.rd_heat (t : State) (r q : Reg) (m : Word) : (t.heat r m).rd q = t.rd q := by
  unfold State.heat State.rd RegFile.heat
  dsimp only
  split <;> rfl
/-- A register of one field with a bit of it cleared. -/
theorem State.rd_putBit_clear (t : State) (r : Reg) (i k : Nat) :
    ((t.putBit ⟨r, 0, 32⟩ i false).rd r).getLsbD k = ((t.rd r).getLsbD k && decide (k ≠ i)) := by
  have value : (t.putBit ⟨r, 0, 32⟩ i false).rd r = fieldPut (t.rd r) 0 32 (setBit (t.get ⟨r, 0, 32⟩) i false) :=
    (State.rd_heat _ _ _ _).trans (State.rd_put t ⟨r, 0, 32⟩ _)
  have whole : ∀ n, (t.get ⟨r, 0, 32⟩).testBit n = (t.rd r).getLsbD n := fun n => by
    rw [State.get, RegFile.fld, fieldGet_testBit, Nat.zero_add]
    by_cases hn : n < 32
    · simp [hn]; rfl
    · simp [hn, BitVec.getLsbD_of_ge _ _ (Nat.le_of_not_lt hn)]
  rw [value, fieldPut_getLsbD]
  by_cases hk : k < 32
  · rw [if_pos (by omega), Nat.sub_zero, setBit, if_neg (by decide), Nat.testBit_xor, whole, whole]
    by_cases e : k = i
    · subst e
      cases h : (t.rd r).getLsbD k <;> simp
    · cases h : (t.rd r).getLsbD i <;> simp [e, Ne.symm e]
  · rw [if_neg (by omega), BitVec.getLsbD_of_ge _ _ (Nat.le_of_not_lt hk), Bool.false_and]

/-- Taking an interrupt clears its pending bit alone among those of its register. -/
theorem State.irqTaken_pend (t : State) (c : Fin 9) (j : Fin 8) {i : Nat} (hi : i < 32) (k : Nat) :
    ((t.irqTaken c (32 * j + i)).rd (R.CPS_IRQ_SETj c j)).getLsbD k = ((t.rd (R.CPS_IRQ_SETj c j)).getLsbD k && decide (k ≠ i)) := by
  have apart : ∀ e < 256, (R.CPS_IRQ_SETj c j).addr ≠ (R.EVM_Cc_STATUS e).addr := fun e he => by
    simp only [R.CPS_IRQ_SETj, R.EVM_Cc_STATUS]; omega
  have cleared : ((t.setPend c (32 * j + i) false).rd (R.CPS_IRQ_SETj c j)).getLsbD k = ((t.rd (R.CPS_IRQ_SETj c j)).getLsbD k && decide (k ≠ i)) := by
    have hj : (32 * j.val + i) / 32 = j ∧ (32 * j.val + i) % 32 = i := by omega
    rw [State.setPend, hj.1, hj.2]
    exact State.rd_putBit_clear _ _ _ _
  unfold State.irqTaken
  dsimp only
  split
  · next e he =>
    have below : e < 256 := List.mem_range.mp (List.mem_of_find?_eq_some he)
    refine (congrArg (BitVec.getLsbD · k) (State.when_keeps _ (State.rd · (R.CPS_IRQ_SETj c j)) _ ?_)).trans cleared
    simp only [State.takeEvent, State.setChan, State.putB]
    rw [State.rd_put_ne _ _ _ _ (apart e below), State.rd_put_ne _ _ _ _ (apart e below)]
    rfl
  · exact cleared


/-- Taking several interrupts of one register clears their pending bits alone. -/
theorem State.irqTaken_each_pend (c : Fin 9) (j : Fin 8) (k : Nat) : ∀ (l : List Nat) (t : State), (∀ i ∈ l, i < 32) →
    ((t.each l fun i u => u.irqTaken c (32 * j + i)).rd (R.CPS_IRQ_SETj c j)).getLsbD k =
      ((t.rd (R.CPS_IRQ_SETj c j)).getLsbD k && decide (k ∉ l))
  | [], t, _ => by simp [State.each]
  | i :: l, t, h => by
    refine (State.irqTaken_each_pend c j k l (t.irqTaken c (32 * j + i)) fun n hn => h n (List.mem_cons_of_mem _ hn)).trans ?_
    rw [State.irqTaken_pend t c j (h i List.mem_cons_self), Bool.and_assoc]
    simp

section
variable {s : State} {c : Fin 9} (ready : s.ready (.core c) = true) (machine : (s.cpuAt c).lvl = 2)
  (may : ∀ a, 0xE0000000 ≤ a → a < 0xE0010000 → a % 4 = 0 → s.coreMay c 2 .write a 4 = true)
include ready machine may

/-- A write of a core at M to one of its own registers has its effect. -/
theorem State.machine_writes {i : Instr} {r : Nat → Reg} {f : Nat → State → State} (he : exec i s = privWrite c r f s)
    (own : 0xE0000000 ≤ (r c).addr % 2 ^ 32 ∧ (r c).addr % 2 ^ 32 < 0xE0010000 ∧ (r c).addr % 2 ^ 32 % 4 = 0) : exec i s = .next (f 2 s) := by
  obtain ⟨low, high, aligned⟩ := own
  rw [he, privWrite]
  simp only [ready, machine, may _ low high aligned, Bool.not_true, Bool.false_eq_true, if_true, if_false]

end

/-- Settles O38: the registers lie where the hypothesis lets M write, and each write has its effect on them. -/
theorem interruptRegistersAtMachineLevel : Obligations.InterruptRegistersAtMachineLevel := by
  intro s c j n v ready machine may
  have set := State.machine_writes (i := .cpsIrqSet c j v) (r := fun c => R.CPS_IRQ_SETj c j) (f := fun lvl => irqPendWrite c j lvl v.toNat true) ready machine may rfl
    (by simp only [R.CPS_IRQ_SETj]; omega)
  have clr := State.machine_writes (i := .cpsIrqClr c j v) (r := fun c => R.CPS_IRQ_CLRj c j) (f := fun lvl => irqPendWrite c j lvl v.toNat false) ready machine may rfl
    (by simp only [R.CPS_IRQ_CLRj]; omega)
  have cfg := State.machine_writes (i := .cpsIrqCfgWrite c n v) (r := fun c => R.CPS_IRQ_CFGn c n) (f := fun lvl => irqCfgWrite c n lvl v.toNat) ready machine may rfl
    (by simp only [R.CPS_IRQ_CFGn]; omega)
  have nmi := State.machine_writes (i := .cpsNmiSet c) (r := fun c => R.CPS_NMI c) (f := fun lvl => nmiWrite c lvl 0x100) ready machine may rfl (by simp only [R.CPS_NMI]; omega)
  refine ⟨⟨_, set, ?set⟩, ⟨_, clr, ?clr⟩, ⟨_, cfg, ?cfg⟩, ⟨_, nmi, ?nmi⟩⟩
  case set =>
    have all : (List.range 32).filter (fun i => bit v.toNat i && ((2 : Nat) == 2 || s.irqLvl c (32 * j + i) == 1)) = (List.range 32).filter (bit v.toNat) := by
      simp
    dsimp only [irqPendWrite]
    rw [all, sum_bits, if_pos rfl, State.rd_wr_same, Nat.mod_eq_of_lt v.isLt, BitVec.ofNat_toNat, BitVec.setWidth_eq]
  case clr =>
    apply BitVec.eq_of_getLsbD_eq
    intro k hk
    dsimp only [irqPendWrite]
    rw [if_neg (by decide), State.irqTaken_each_pend c j k _ _ (fun i hi => List.mem_range.mp (List.mem_filter.mp (List.mem_filter.mp hi).1).1)]
    simp [bit, hk, BitVec.testBit_toNat, Bool.or_comm]
  case cfg =>
    dsimp only [irqCfgWrite]
    rw [if_pos rfl, State.rd_wr_same]
    exact BitVec.eq_of_toNat_eq (by simp)
  case nmi =>
    refine (congrArg (· != 0) (State.get_put s (R.CPS_NMI_PEND c) 1 (show 0 + 1 ≤ 32 by decide))).trans rfl

/-! ### What an event leaves (R314, R315) -/

section
variable (s : State) {r : Reg}

theorem State.rd_put_apart {q : RF} (x : Nat) (h : r.addr ≠ q.reg.addr) : (s.put q x).rd r = s.rd r := State.rd_put_ne _ _ _ _ h
theorem State.rd_putBit_ne {q : RF} (k : Nat) (b : Bool) (h : r.addr ≠ q.reg.addr) : (s.putBit q k b).rd r = s.rd r :=
  (State.rd_heat _ _ _ _).trans (State.rd_put_ne _ _ _ _ h)

/-- A register outside the event matrix (page 0x4028). -/
def Reg.OutsideMatrix (r : Reg) : Prop := r.addr < 0x40280000 ∨ 0x40284000 ≤ r.addr

variable (out : r.OutsideMatrix)
include out

theorem State.rd_setChan {c : Nat} (x : Chan) (hc : c < 256) : (s.setChan c x).rd r = s.rd r := by
  have apart : r.addr ≠ (R.EVM_Cc_STATUS c).addr := by
    simp only [R.EVM_Cc_STATUS]
    rcases out with h | h <;> omega
  exact (State.rd_put_ne _ _ _ _ apart).trans ((State.rd_put_ne _ _ _ _ apart).trans rfl)
theorem State.rd_leave (p h : Nat) : (s.leave p h).rd r = s.rd r := by
  have arrives : ∀ (l : List Nat) (t : State), (∀ c ∈ l, c < 256) → (t.each l fun c u => u.arrive c h).rd r = t.rd r := by
    intro l
    induction l with
    | nil => intro t _; rfl
    | cons c l ih =>
      intro t hl
      exact (ih _ fun d hd => hl d (List.mem_cons_of_mem _ hd)).trans (State.rd_setChan t out _ (hl c List.mem_cons_self))
  exact arrives _ _ fun c hc => List.mem_range.mp (List.mem_filter.mp hc).1
/-- An event on one of the lines of the matrix changes registers of the matrix alone. -/
theorem State.rd_raise {p : Nat} (h : Nat) (hp : p < 1024) : (s.raise p h).rd r = s.rd r := by
  have apart : r.addr ≠ (R.EVM_PMERGEj_MERGE (p / 32)).reg.addr := by
    simp only [R.EVM_PMERGEj_MERGE, R.EVM_PMERGEj]
    rcases out with h | h <;> omega
  have held : ∀ l, ((s.setLine p l).putBit (R.EVM_PMERGEj_MERGE (p / 32)) (p % 32) true).rd r = s.rd r := fun l =>
    (State.rd_putBit_ne _ _ _ apart).trans rfl
  unfold State.raise
  dsimp only
  split
  · rfl
  · split
    · exact held _
    · split
      · split
        · exact held _
        · exact s.rd_leave out p h
      · exact s.rd_leave out p h

end

theorem Reg.outsideMatrix_of_core {r : Reg} (h : 0xE0000000 ≤ r.addr) : r.OutsideMatrix := Or.inr (by omega)

/-! ### LOCKUP (R299, R300) -/

section
variable (s : State) (c : Fin 9) (v : Nat) (pc : Word) (cause : Nat)

/-- What LOCKUP leaves of a host core's state. -/
theorem State.lockup_host (host : c ≠ 8) : s.lockup c cause v pc =
    (((s.stopCore c).wr (R.CPS_LOCKUP c) (BitVec.ofNat 32 (if v < 16 then cause + 16 * v else cause + 256 * (v - 16)))).wr (R.CPS_LOCKUP_PC c) pc).raise
      (635 + c) := if_neg host

variable {s c}
theorem State.lockup_cpu (host : c ≠ 8) : (s.lockup c cause v pc).cpuAt c =
    { s.cpuAt c with started := false, wfi := false, step := false, want := false } := by
  have cpus : (s.lockup c cause v pc).cpus = (s.setCpuAt c { s.cpuAt c with started := false, wfi := false, step := false, want := false }).cpus := by
    rw [State.lockup_host _ _ _ _ _ host]
    simp [State.stopCore]
  exact (State.cpuAt_congr cpus c).trans (State.cpuAt_setCpuAt_same _ _ _)
theorem State.lockup_rd (host : c ≠ 8) {r : Reg} (core : 0xE0000000 ≤ r.addr) : (s.lockup c cause v pc).rd r =
    (((s.stopCore c).wr (R.CPS_LOCKUP c) (BitVec.ofNat 32 (if v < 16 then cause + 16 * v else cause + 256 * (v - 16)))).wr (R.CPS_LOCKUP_PC c) pc).rd r := by
  rw [State.lockup_host _ _ _ _ _ host, State.rd_raise _ (Reg.outsideMatrix_of_core core) _ (by omega)]

end

/-- The base of a frame is the address 48 below sp, rounded down to 8. -/
theorem frame_base (sp : Word) : (sp - 48#32) &&& ~~~7#32 = (sp - 48#32) &&& 0xFFFFFFF8#32 := by rfl

/-- Settles O36, by the first branch of the entry. -/
theorem entryBelowTheLimitLocksUp : Obligations.EntryBelowTheLimitLocksUp := by
  intro s c v hl pc info addr x host hv below u
  have locked : u = s.lockup c 1 v pc := if_pos below
  have cpu := State.lockup_cpu (s := s) v pc 1 host
  rw [locked, cpu]
  refine ⟨rfl, rfl, rfl, ?_, ?_⟩
  · have apart : (R.CPS_LOCKUP c).addr ≠ (R.CPS_LOCKUP_PC c).addr := by simp only [R.CPS_LOCKUP, R.CPS_LOCKUP_PC]; omega
    rw [State.lockup_rd v pc 1 host (by simp only [R.CPS_LOCKUP]; omega), State.rd_wr_ne _ _ _ _ apart, State.rd_wr_same, if_pos hv]
  · rw [State.lockup_rd v pc 1 host (by simp only [R.CPS_LOCKUP_PC]; omega), State.rd_wr_same]

/-! ### Entry (R296, R299) -/

/-- PS of a handler at level `hl` with mask `ipm`: loops off, all else as it was. -/
def handlerPs (ps : Word) (hl ipm : Nat) : Word := fieldPut (fieldPut (fieldPut ps 0 2 0) 8 2 hl) 16 4 ipm
/-- The processor in a handler: at its vector and level, on its frame. -/
def Cpu.inHandler (x : Cpu) (hl : Nat) (base vec : Word) : Cpu :=
  { (x.setCr 0x14 (BitVec.ofNat 32 x.lvl)).setReg 15 base with ps := handlerPs x.ps hl x.ipm, pc := vec, wfi := false }

theorem handlerPs_getLsbD (ps : Word) (hl ipm : Nat) {k : Nat} (high : 20 ≤ k) : (handlerPs ps hl ipm).getLsbD k = ps.getLsbD k := by
  rw [handlerPs, fieldPut_getLsbD, if_neg (by omega), fieldPut_getLsbD, if_neg (by omega), fieldPut_getLsbD, if_neg (by omega)]
theorem handlerPs_la (ps : Word) (hl ipm : Nat) {k : Nat} (low : k < 2) : (handlerPs ps hl ipm).getLsbD k = false := by
  rw [handlerPs, fieldPut_getLsbD, if_neg (by omega), fieldPut_getLsbD, if_neg (by omega), fieldPut_getLsbD, if_pos (by omega), Nat.zero_testBit]
theorem handlerPs_lvl (ps : Word) {hl : Nat} (ipm : Nat) (h : hl < 3) : fieldGet (handlerPs ps hl ipm) 8 2 = hl := by
  rw [handlerPs, fieldGet_fieldPut_ne _ _ _ _ _ _ (by decide), fieldGet_fieldPut _ _ _ _ (by decide), Nat.mod_eq_of_lt (by omega)]
theorem handlerPs_ipm (ps : Word) (hl : Nat) : fieldGet (handlerPs ps hl (fieldGet ps 16 4)) 16 4 = fieldGet ps 16 4 := by
  rw [handlerPs, fieldGet_fieldPut _ _ _ _ (by decide)]
  exact Nat.mod_eq_of_lt (fieldGet_lt _ _ _)

/-- Entry for a fault whose frame is pushed and whose vector is read and even. -/
theorem State.enter_of_fault {s s1 s2 : State} {c : Fin 9} {v hl : Nat} {pc vec : Word} {info : Nat} {addr : Option Nat} {x : Cpu} {base : Word}
    (hx : s.cpuAt c = x) (hbase : (x.sp - 48#32) &&& ~~~7#32 = base)
    (fault : 2 ≤ v ∧ v < 16) (within : x.limit hl ≤ base)
    (pushed : s.pushFrame c x.lvl base.toNat (x.frame pc (s.on (R.CPS_NMI_ACTIVE c)) ((x.sp - 48#32).getLsbD 2)) = (true, s1))
    (own : ¬((x.cr 0x13).toNat + 4 * v) % 2 ^ 32 < 0x440)
    (read : (s1.setCpuAt c (x.setCr 0x14 (BitVec.ofNat 32 x.lvl))).vectorAt c hl (((x.cr 0x13).toNat + 4 * v) % 2 ^ 32) = (some vec, s2))
    (same : s2.cpuAt c = x.setCr 0x14 (BitVec.ofNat 32 x.lvl)) (even : vec.getLsbD 0 = false) :
    s.enter c v hl pc info addr =
      let u := (s2.setCpuAt c (x.inHandler hl base vec)).wr (R.CPS_EXC_INFO c) (BitVec.ofNat 32 info)
      match addr with | some a => u.wr (R.CPS_FAULT_ADDR c) (BitVec.ofNat 32 a) | none => u := by
  have table : inDefaultTable (((x.cr 0x13).toNat + 4 * v) % 2 ^ 32) = false := decide_eq_false own
  unfold State.enter
  simp only [hx, hbase, BitVec.not_lt.mpr within, if_false, pushed, Bool.not_true, Bool.false_eq_true, show v ≠ 1 by omega, show ¬16 ≤ v by omega, read, even,
    same, table]
  rfl

/-- Settles O35: the entry's one branch without a failure, and the fields of PS that it writes. -/
theorem entryReachesTheHandler : Obligations.EntryReachesTheHandler := by
  intro s s1 s2 c v hl pc vec info addr x t base h2 h16 h3 within pushed _ own read same even u y
  have entered : u = _ := State.enter_of_fault (info := info) (addr := addr) (x := x) (base := base) rfl rfl ⟨h2, h16⟩ within pushed (Nat.not_lt.mpr own) read same even
  have cpu : y = x.inHandler hl base vec := by
    have cpus : u.cpus = (s2.setCpuAt c (x.inHandler hl base vec)).cpus := by
      rw [entered]
      cases addr <;> rfl
    exact (State.cpuAt_congr cpus c).trans (State.cpuAt_setCpuAt_same _ _ _)
  have apart : (R.CPS_EXC_INFO c).addr ≠ (R.CPS_FAULT_ADDR c).addr := by simp only [R.CPS_EXC_INFO, R.CPS_FAULT_ADDR]; omega
  have flag : ∀ k, 20 ≤ k → (x.inHandler hl base vec).psBit k = x.psBit k := fun k hk => handlerPs_getLsbD _ _ _ hk
  rw [cpu]
  refine ⟨rfl, handlerPs_lvl _ _ h3, handlerPs_la _ _ _ (by decide), handlerPs_la _ _ _ (by decide), Cpu.reg_setReg_same _ _ _, ?_,
    handlerPs_ipm _ _, fun k hk => Cpu.reg_setReg_ne _ _ (by omega), Cpu.cr_setCr_same _ _ _, ?_, ?_⟩
  · simp only [Cpu.flags, flag _ (show 20 ≤ 31 by decide), flag _ (show 20 ≤ 30 by decide), flag _ (show 20 ≤ 29 by decide), flag _ (show 20 ≤ 28 by decide)]
  · rw [entered]
    cases addr with
    | none => exact State.rd_wr_same _ _ _
    | some a => exact (State.rd_wr_ne _ _ _ _ apart).trans (State.rd_wr_same _ _ _)
  · rintro a rfl
    rw [entered]
    exact State.rd_wr_same _ _ _

end Sys2Proof.Machine
end

section
/-!
PROOF. States whose tables hold numbers that the device does not have, or whose units meet in a way that a statement does not foresee: each
refutes the statement about its unit.
-/
namespace Sys2Proof.Machine

/-- Arbiter 0 holds a commit for a requester number that no arbiter has, and a commit of arbiter 1 is pending. -/
def strayCommit : State :=
  { State.reset.put (R.ARB_Aa_STATUS_PENDING 1) 1 with now := 1000000#64, arbs := [(0, { commit := some (0, [(0x61, 0#32)]) })] }

theorem strayCommit_accepts : strayCommit.Accepts (.core 8) .write R.ARB_COMMIT_LO := by
  refine ⟨?_, ?_, ?_⟩
  · decide +kernel
  · intro h; cases h
  · decide +kernel

/-- Committing arbiter 0 alone ends the pending commit of arbiter 1. -/
theorem strayCommit_clears : (strayCommit.access (.core 8) .write R.ARB_COMMIT_LO (arbCommitMulti false 1)).on (R.ARB_Aa_STATUS_PENDING 1) = false ∧
    strayCommit.on (R.ARB_Aa_STATUS_PENDING 1) = true := by decide +kernel

/-- Refutes O56: a pending commit may name a requester number beyond those of an arbiter; applying it then writes the status of the next
arbiter, whose own pending commit ends (`strayCommit`). -/
theorem not_memoryDmaAndArbiters : ¬ Obligations.MemoryDmaAndArbiters := by
  intro h
  have all := h strayCommit (.core 8) 0#26 0 0 (Desc.ofBytes []) [] [] [] false false 0 1#32 0#32 0#32 ⟨"", 0, [], .dev, 0, 0, 0, 0, 0, 0, 0⟩ []
  obtain ⟨-, -, -, -, -, -, -, -, -, -, -, -, -, -, multi, -⟩ := all
  obtain ⟨t, step, pending⟩ := multi strayCommit_accepts
  obtain rfl := Host.Outcome.next.inj step
  exact absurd (strayCommit_clears.1.symm.trans ((pending 1 (by decide) (by decide)).trans (congrArg (false || ·) strayCommit_clears.2))) (by decide)

/-- A send of a binding number that the device does not have: the registers of binding 0x2C00 would lie on those of link 0. -/
def straySend (w : Word) : Send := ⟨0x2C00, 0, 0, false, 0#64, [(0, w)]⟩
/-- Lane 0 has such a send on its way to the commit stage, where a differing half of lane B waits. FLK_L0_CTRL and FLK_L0_CFG read as the map of a
compare group and as a destination that is link 0. -/
def strayBinding : State :=
  { ((State.reset.put (R.CLK_Dd_STATUS_RUNNING 16) 1).wr (R.FLK_Ln_CTRL 0) 0x82000010#32).wr (R.FLK_Ln_CFG 0) 0xC0#32 with
    lane := [(0, { out := [straySend 0#32] })]
    bind := [(0x2C00, { pairs := [⟨true, 0#64, straySend 1#32⟩] })] }
/-- The failed comparison forces the destination, link 0, whose force sources take the place of MISMATCH. -/
theorem strayBinding_mismatch : (strayBinding.commitArrival 0).on (R.LNC_Bb_STATUS_MISMATCH 0x2C00) = false := by decide +kernel
theorem strayBinding_running : strayBinding.running 16 = true := by decide +kernel

/-- Refutes O46: a send may name a binding beyond the 64 of the device, whose status register is then that of a link's force sources; forcing its
destinations writes over MISMATCH (`strayBinding`). -/
theorem not_commitStageChecksWords : ¬ Obligations.CommitStageChecksWords := by
  intro h
  obtain ⟨arrives, -⟩ := h strayBinding (.core 8) 0 0 (straySend 0#32) [] ⟨true, 0#64, straySend 1#32⟩ [] 0#32 [] 0 0#32
  obtain ⟨-, -, pair⟩ := arrives strayBinding_running rfl rfl
  obtain ⟨-, differ⟩ := pair (by decide +kernel) (by decide +kernel) rfl (by decide +kernel) rfl
  obtain ⟨t, step, -, -, mismatch, -⟩ := differ (by decide)
  obtain rfl := Host.Outcome.next.inj step
  rw [if_pos strayBinding_running] at mismatch
  exact absurd (strayBinding_mismatch.symm.trans mismatch) (by decide)

/-! ### The debug port's halt of a lane -/

/-- The binding number `b` of which LBb_MISMATCH, line 234 + b, has its merge bit at bit 3 of DBG_C16_CTRL. -/
def mergesIntoDebug : Nat := 32 * ((0x404C1400 - 0x40280040) / 4) + 3 - 234
/-- Lane 0 runs an activation of that binding, a compare group of lanes 0 and 1 with a half of lane B waiting; an event is held on the line. -/
def strayActivation : State :=
  { State.reset.wr (R.LNC_Bb_MAP mergesIntoDebug) 0x82000010#32 with
    tap := { instr := 0x20 }
    lane := [(0, { act := some { binding := mergesIntoDebug, epoch := 0, t := 0#64, cause := none } })]
    evm := { lines := [(234 + mergesIntoDebug, ⟨none, some 0⟩)] }
    bind := [(mergesIntoDebug, { pairs := [⟨true, 0#64, ⟨mergesIntoDebug, 0, 0, false, 0#64, []⟩⟩] })] }

theorem strayActivation_accepts : strayActivation.Accepts .dap .write (R.DBG_Cc_CTRL 16) :=
  ⟨by decide +kernel, fun _ => by decide +kernel, by decide +kernel⟩
/-- The halt stops the lane, its compare group fails, and the merge of LBb_MISMATCH sets HALT_ON_BRK. -/
theorem strayActivation_haltOnBrk : (strayActivation.access .dap .write (R.DBG_Cc_CTRL 16) (dbgCtrlWrite .dap 16 1)).on (R.DBG_Cc_CTRL_HALT_ON_BRK 16) = true := by
  decide +kernel

/-- Refutes O60: an activation may name a binding beyond the 64 of the device, whose merge bit is that of HALT_ON_BRK of lane 0; halting the lane
through the debug port with HALT_ON_BRK 0 then leaves it 1 (`strayActivation`). -/
theorem not_debugRecoveryAndTap : ¬ Obligations.DebugRecoveryAndTap := by
  intro h
  obtain ⟨-, -, -, -, ctrl, -⟩ := h strayActivation .dap 0#32 16 0 false false 0#32 0 0 [] [] [] 0#6 0 0 0 0 0 0#8 0 (show Mem.wf [] = true from rfl)
  obtain ⟨-, halt, -⟩ := ctrl ⟨rfl, by decide, strayActivation_accepts⟩
  obtain ⟨-, -, lane⟩ := halt (by decide +kernel) (by decide +kernel)
  obtain ⟨t, step, brk, -⟩ := lane (by decide)
  obtain rfl := Host.Outcome.next.inj step
  exact absurd (strayActivation_haltOnBrk.symm.trans brk) (by decide)

/-! ### A frame of a port whose owner is no partition -/

/-- The owner number `p` of which SESp_RX, line 708 + p, has its merge bit at bit 1 of SES_NOCTX. -/
def mergesIntoNoctx : Nat := 32 * ((0x4034000C - 0x40280040) / 4) + 1 - 708
/-- A frame without security, from no one. -/
def plainFrame : AirFrame := ⟨true, .broadcast, .broadcast, false, 0, 0, 0, 0#32, false, false, none, [], [], 0#8, 0, []⟩
/-- Feeder port 0 and lane 0 have that owner, its receive queue lies in the lane's data RAM, and an event is held on the line. -/
def strayQueue : State :=
  { (((State.reset.put (R.CLK_Dd_STATUS_RUNNING 24) 1).put (R.CLK_Dd_STATUS_IN_RESET 24) 0).put (R.SES_Pp_RXSIZE_SIZE mergesIntoNoctx) 2).put
      (R.SES_Pp_RXBASE_BASE mergesIntoNoctx) (0x30010000 / 64) with
    own := [(7 * 256, mergesIntoNoctx), (1 * 256, mergesIntoNoctx)]
    fse := [(0, { buf := [(plainFrame, 0#64)] })]
    evm := { lines := [(708 + mergesIntoNoctx, ⟨none, some 0⟩)] } }

/-- Refutes O52: a port's owner may be a number beyond those of the partitions, whose merge bit lies in SES_NOCTX; a frame that no context knows is
then counted with that bit set (`strayQueue`). -/
theorem not_sessionsKeepContexts : ¬ Obligations.SessionsKeepContexts := by
  intro h
  obtain ⟨-, -, -, -, -, -, frame, -⟩ := h strayQueue (.core 8) 0 0 false 0#8 0#32 0 0 0 {} plainFrame 0#64 []
  obtain ⟨unknown, -⟩ := frame (by decide +kernel) (by decide +kernel) (by decide +kernel)
  obtain ⟨t, step, -, count⟩ := unknown (by decide +kernel)
  obtain rfl := Host.Outcome.next.inj step
  -- NOCTX is 0 before; the handling of the frame leaves it 3: the merge sets bit 1, and the count adds 1.
  exact absurd count (by decide +kernel)

end Sys2Proof.Machine
end

section
/-!
PROOF. What the blocks' work leaves as it is. A function of the state is blind outside a window of addresses when neither the registers there nor
the event matrix change it; the rules say which operations of the blocks such a function does not see. The function `State.hub` is what all of them
leave: the rest of the device.
-/
namespace Sys2Proof.Machine

/-! ### Fields after a write -/

theorem State.on_put (s : State) (q : RF) (x : Nat) (h : q.lsb + q.wid ≤ 32) : (s.put q x).on q = (x % 2 ^ q.wid != 0) :=
  congrArg (· != 0) (s.get_put q x h)
theorem State.on_put_ne (s : State) (q r : RF) (x : Nat) (h : r.reg.addr ≠ q.reg.addr) : (s.put q x).on r = s.on r :=
  congrArg (· != 0) (s.get_put_ne q r x h)
theorem State.on_put_apart (s : State) (q r : RF) (x : Nat) (e : r.reg = q.reg) (h : q.lsb + q.wid ≤ r.lsb ∨ r.lsb + r.wid ≤ q.lsb) :
    (s.put q x).on r = s.on r := congrArg (· != 0) (s.get_put_apart q r x e h)

/-- Two terms that compute to one: the form of a side condition that `simp (disch := exact ⟨rfl⟩)` settles. -/
structure Computes {α : Type} (x y : α) : Prop where
  eq : x = y

/-- Field `r` lies beside field `q` of its register. -/
def RF.besideB (q r : RF) : Bool := Nat.ble (q.lsb + q.wid) r.lsb || Nat.ble (r.lsb + r.wid) q.lsb
theorem RF.beside {q r : RF} (h : Computes (q.besideB r) true) : q.lsb + q.wid ≤ r.lsb ∨ r.lsb + r.wid ≤ q.lsb :=
  (Bool.or_eq_true _ _ ▸ h.eq).imp Nat.le_of_ble_eq_true Nat.le_of_ble_eq_true

section
variable (s : State) (q r : RF)
theorem State.get_put_self (x : Nat) (h : Computes (Nat.ble (q.lsb + q.wid) 32) true) : (s.put q x).get q = x % 2 ^ q.wid :=
  s.get_put q x (Nat.le_of_ble_eq_true h.eq)
theorem State.on_put_self (x : Nat) (h : Computes (Nat.ble (q.lsb + q.wid) 32) true) : (s.put q x).on q = (x % 2 ^ q.wid != 0) :=
  s.on_put q x (Nat.le_of_ble_eq_true h.eq)
theorem State.on_putB_self (b : Bool) (h : Computes (Nat.ble (q.lsb + q.wid) 32) true) (hw : Computes (Nat.ble 1 q.wid) true) : (s.putB q b).on q = b :=
  s.on_putB q b (Nat.le_of_ble_eq_true h.eq) (Nat.le_of_ble_eq_true hw.eq)
theorem State.get_put_beside (x : Nat) (e : Computes r.reg q.reg) (h : Computes (q.besideB r) true) : (s.put q x).get r = s.get r :=
  s.get_put_apart q r x e.eq (RF.beside h)
theorem State.on_put_beside (x : Nat) (e : Computes r.reg q.reg) (h : Computes (q.besideB r) true) : (s.put q x).on r = s.on r :=
  s.on_put_apart q r x e.eq (RF.beside h)
theorem State.get_putB_beside (b : Bool) (e : Computes r.reg q.reg) (h : Computes (q.besideB r) true) : (s.putB q b).get r = s.get r :=
  s.get_put_beside q r _ e h
theorem State.on_putB_beside (b : Bool) (e : Computes r.reg q.reg) (h : Computes (q.besideB r) true) : (s.putB q b).on r = s.on r :=
  s.on_put_beside q r _ e h
theorem State.get_put_elsewhere (x : Nat) (h : Computes (Nat.beq r.reg.addr q.reg.addr) false) : (s.put q x).get r = s.get r :=
  s.get_put_ne q r x (Nat.ne_of_beq_eq_false h.eq)
theorem State.on_put_elsewhere (x : Nat) (h : Computes (Nat.beq r.reg.addr q.reg.addr) false) : (s.put q x).on r = s.on r :=
  s.on_put_ne q r x (Nat.ne_of_beq_eq_false h.eq)
theorem State.get_putB_elsewhere (b : Bool) (h : Computes (Nat.beq r.reg.addr q.reg.addr) false) : (s.putB q b).get r = s.get r :=
  s.get_put_elsewhere q r _ h
theorem State.on_putB_elsewhere (b : Bool) (h : Computes (Nat.beq r.reg.addr q.reg.addr) false) : (s.putB q b).on r = s.on r :=
  s.on_put_elsewhere q r _ h
end

theorem State.get_putBit_ne (s : State) (q r : RF) (k : Nat) (b : Bool) (h : r.reg.addr ≠ q.reg.addr) : (s.putBit q k b).get r = s.get r :=
  congrArg (fieldGet · r.lsb r.wid) (State.rd_putBit_ne _ k b h)
theorem State.on_putBit_ne (s : State) (q r : RF) (k : Nat) (b : Bool) (h : r.reg.addr ≠ q.reg.addr) : (s.putBit q k b).on r = s.on r :=
  congrArg (· != 0) (s.get_putBit_ne q r k b h)
theorem State.bitOn_putBit (s : State) (q : RF) (k j : Nat) (b : Bool) (h : q.lsb + q.wid ≤ 32) (hj : j < q.wid) :
    (s.putBit q k b).bitOn q j = if j = k then b else s.bitOn q j := by
  have field : (s.putBit q k b).get q = setBit (s.get q) k b % 2 ^ q.wid :=
    (congrArg (fieldGet · q.lsb q.wid) (State.rd_heat _ _ _ _)).trans (s.get_put q _ h)
  simp only [State.bitOn, bit, field, Nat.testBit_mod_two_pow, testBit_setBit, hj, decide_true, Bool.true_and]
theorem State.each_keeps_mem {α β : Type} {l : List α} {f : α → State → State} (g : State → β) (h : ∀ x ∈ l, ∀ t, g (f x t) = g t) (s : State) :
    g (s.each l f) = g s := by
  induction l generalizing s with
  | nil => rfl
  | cons x l ih => exact (ih (fun y hy => h y (.tail _ hy)) _).trans (h x (.head _) s)

/-- The function `g` of the state looks at no register below address `lo` or from address `a` up, and of the event matrix not at its lines nor at what
has arrived at its channels. -/
structure Blind {β : Type} (g : State → β) (lo a : Nat) : Prop where
  wr (s : State) (r : Reg) (v : Word) (h : a ≤ r.addr ∨ r.addr < lo) : g (s.wr r v) = g s
  heat (s : State) (r : Reg) (m : Word) : g (s.heat r m) = g s
  line (s : State) (x : Tab Line) : g { s with evm := { s.evm with lines := x } } = g s
  arrived (s : State) (c : Nat) (l : List Nat) : g { s with evm := { s.evm with chans := s.evm.chans.set c { s.chan c with arrived := l } } } = g s

/-! ### Registers and events -/

theorem State.apply_when {β : Type} (g : State → β) (s : State) (c : Bool) (f : State → State) : g (s.when c f) = if c then g (f s) else g s := by
  cases c <;> rfl

namespace Blind
variable {β : Type} {g : State → β} {lo a : Nat} (b : Blind g lo a)
include b

theorem put (s : State) (q : RF) (x : Nat) (h : a ≤ q.reg.addr ∨ q.reg.addr < lo) : g (s.put q x) = g s := by rw [State.put_eq, b.heat, b.wr _ _ _ h]
theorem putB (s : State) (q : RF) (v : Bool) (h : a ≤ q.reg.addr ∨ q.reg.addr < lo) : g (s.putB q v) = g s := b.put s q _ h
theorem putBit (s : State) (q : RF) (k : Nat) (v : Bool) (h : a ≤ q.reg.addr ∨ q.reg.addr < lo) : g (s.putBit q k v) = g s := by
  rw [State.putBit, b.heat, b.put _ _ _ h]
theorem incSat (s : State) (q : RF) (h : a ≤ q.reg.addr ∨ q.reg.addr < lo) (d : Nat := 1) : g (s.incSat q d) = g s := b.put s q _ h
theorem inc (s : State) (q : RF) (h : a ≤ q.reg.addr ∨ q.reg.addr < lo) : g (s.inc q) = g s := b.put s q _ h
theorem putTime (s : State) (low high : Reg) (t : Time) (hl : a ≤ low.addr ∨ low.addr < lo) (hh : a ≤ high.addr ∨ high.addr < lo) : g (s.putTime low high t) = g s := by
  rw [State.putTime, b.wr _ _ _ hh, b.wr _ _ _ hl]
theorem clr (s : State) (r : Reg) (m : Word) (h : a ≤ r.addr ∨ r.addr < lo) : g (s.clr r m) = g s := b.wr s r _ h

theorem arrive (s : State) {c : Nat} (k : Nat) (hc : c < 256) (h : a ≤ 0x40280000 ∨ 0x40284000 ≤ lo) : g (s.arrive c k) = g s := by
  have off : a ≤ (R.EVM_Cc_STATUS c).addr ∨ (R.EVM_Cc_STATUS c).addr < lo := by simp only [R.EVM_Cc_STATUS]; omega
  unfold State.arrive State.setChan
  rw [b.putB _ _ _ off, b.putB _ _ _ off]
  exact b.arrived s c _
theorem leave (s : State) (p h : Nat) (ha : a ≤ 0x40280000 ∨ 0x40284000 ≤ lo) : g (s.leave p h) = g s :=
  (State.each_keeps_mem g (fun _ hc t => b.arrive t _ (List.mem_range.1 (List.mem_filter.1 hc).1) ha) _).trans (b.line s _)
theorem raise_line (s : State) (p h : Nat) (hp : a ≤ (R.EVM_PMERGEj (p / 32)).addr ∨ (R.EVM_PMERGEj (p / 32)).addr < lo)
    (ha : a ≤ 0x40280000 ∨ 0x40284000 ≤ lo) : g (s.raise p h) = g s := by
  have merge : ∀ l : Line, g ((s.setLine p l).putBit (R.EVM_PMERGEj_MERGE (p / 32)) (p % 32) true) = g s := fun l => by
    rw [b.putBit _ _ _ _ hp]
    exact b.line s _
  unfold State.raise
  dsimp only
  split_ifs
  · rfl
  · split
    · exact merge _
    · split
      · split_ifs
        · exact merge _
        · exact b.leave s p h ha
      · exact b.leave s p h ha
theorem raise (s : State) (p h : Nat) (ha : a ≤ 0x40280000) : g (s.raise p h) = g s :=
  b.raise_line s p h (.inl (Nat.le_trans ha (Nat.le_add_right_of_le (by decide)))) (.inl ha)
/-- One of the matrix's lines, seen through a window on either side of its page. -/
theorem raise_of (s : State) {p : Nat} (h : Nat) (hp : p < 1024) (ha : a ≤ 0x40280000 ∨ 0x40284000 ≤ lo) : g (s.raise p h) = g s :=
  b.raise_line s p h (by simp only [R.EVM_PMERGEj]; omega) ha
theorem setLoop (s : State) (c : Nat) (h : a ≤ 0x40280000) : g (s.setLoop c) = g s := by
  unfold State.setLoop
  rw [State.apply_when g, b.raise _ _ _ h, ite_self, b.put _ _ _ (.inl (Nat.le_trans h (Nat.le_add_right_of_le (by decide))))]
theorem emit (s : State) (p : Nat) (c : Cause) (h : a ≤ 0x40280000) : g (s.emit p c) = g s := by
  unfold State.emit
  split
  · exact b.raise s p _ h
  · split
    · exact b.raise s p _ h
    · exact b.setLoop s _ h

/-! ### PWM units (R145 to R149) -/

section
variable (pwm : ∀ (s : State) (x : Tab PwmUnit), g { s with pwm := x } = g s)

theorem unitLatch (s : State) (n : Nat) (h : a ≤ 0x40180000) : g (s.unitLatch n) = g s := by
  simp (disch := refine .inl (Nat.le_trans h (Nat.le_add_right_of_le ?_)); decide) only [State.unitLatch, State.apply_when g, b.put, ite_self]
theorem unitStatus (s : State) (n : Nat) (h : a ≤ 0x40180000) : g (s.unitStatus n) = g s := by
  simp (disch := refine .inl (Nat.le_trans h (Nat.le_add_right_of_le ?_)); decide) only [State.unitStatus, b.putB]
include pwm
theorem settleUnit (s : State) (n : Nat) (c : Cause) (h : a ≤ 0x40180000) : g (s.settleUnit n c) = g s := by
  have done : ∀ u, g (((s.unitLatch n).setUnit n u).unitStatus n) = g s := fun u => by
    rw [b.unitStatus _ _ h, State.setUnit, pwm, b.unitLatch _ _ h]
  unfold State.settleUnit
  extract_lets
  split
  · rw [b.emit _ _ _ (by omega)]
    exact done _
  · exact done _
theorem settleUnits (s : State) (h : a ≤ 0x40180000) : g s.settleUnits = g s := State.each_keeps _ _ g (fun n t => b.settleUnit pwm t n none h) s
end

/-! ### Cell links and arms (R176, R177, R193, R198, R201) -/

section
variable (link : ∀ (s : State) (x : Tab Flink), g { s with link := x } = g s) (arm : ∀ (s : State) (x : Tab Arm), g { s with arm := x } = g s)

theorem setModel (s : State) (k i m : Nat) (h : a ≤ 0x40220000) : g (s.setModel k i m) = g s :=
  b.put s _ _ (.inl (Nat.le_trans h (Nat.le_add_right_of_le (Nat.le_add_right_of_le (by decide)))))
theorem forget (s : State) (l : Nat) (h : a ≤ 0x40220000) : g (s.forget l) = g s := by
  unfold State.forget
  split
  · exact State.each_keeps _ _ g (fun _ t => b.setModel t _ _ _ h) s
  · rfl
theorem armStatus (s : State) (k : Nat) (h : a ≤ 0x40220000) : g (s.armStatus k) = g s :=
  b.putB s _ _ (.inl (Nat.le_trans h (Nat.le_add_right_of_le (by decide))))
include link in
theorem setFlink (s : State) (l : Nat) (x : Flink) (h : a ≤ 0x40200000) : g (s.setFlink l x) = g s := by
  unfold State.setFlink
  simp (disch := refine .inl (Nat.le_trans h (Nat.le_add_right_of_le ?_)); decide) only [b.put]
  exact link s _
include link in
theorem safeOrder (s : State) (l : Nat) (h : a ≤ 0x40200000) : g (s.safeOrder l) = g s := by
  unfold State.safeOrder
  rw [b.put _ _ _ (.inl (Nat.le_trans h (Nat.le_add_right_of_le (by decide)))), b.setFlink link _ _ _ h]
include arm in
theorem armLost (s : State) (k : Nat) (h : a ≤ 0x40220000) : g (s.armLost k) = g s := by
  unfold State.armLost
  split
  · rw [b.raise _ _ _ (by omega), b.put _ _ _ (.inl (Nat.le_trans h (Nat.le_add_right_of_le (by decide))))]
    exact arm s _
  · rfl
include link arm
theorem settleLink (s : State) (l : Nat) (h : a ≤ 0x40200000) : g (s.settleLink l) = g s := by
  have arms : a ≤ 0x40220000 := by omega
  have lost : ∀ t : State, g (match t.linkArm l with | some k => t.armLost k | none => t) = g t := fun t => by
    split
    · exact b.armLost arm t _ arms
    · rfl
  have status : ∀ t : State, g (match t.linkArm l with | some k => t.armStatus k | none => t) = g t := fun t => by
    split
    · exact b.armStatus t _ arms
    · rfl
  unfold State.settleLink
  extract_lets s1 was now s2 s3 s4
  have e4 : g s4 = g s3 := s3.when_keeps g _ ((lost _).trans (b.forget s3 l arms))
  have e3 : g s3 = g s2 := s2.when_keeps g _ ((b.safeOrder link _ _ h).trans (b.setFlink link _ _ _ h))
  refine (status s4).trans (e4.trans (e3.trans ?_))
  simp (disch := refine .inl (Nat.le_trans h (Nat.le_add_right_of_le ?_)); decide) only [s2, s1, b.put, b.putB, State.apply_when g, ite_self]
theorem settleLinks (s : State) (h : a ≤ 0x40200000) : g s.settleLinks = g s := State.each_keeps _ _ g (fun l t => b.settleLink link arm t l h) s
end

/-! ### Locks (R397, R399) -/

section
variable (leases : ∀ (s : State) (x : Tab Lease), g { s with leases := x } = g s)
include leases
theorem freeLock (s : State) (k : Nat) (hk : k < 256) (h : 0x40012000 ≤ lo) : g (s.freeLock k) = g s := by
  simp (disch := simp only [R.PART_LOCKk_STAT_HELD, R.PART_LOCKk_STAT_OWNER, R.PART_LOCKk_STAT_UNIT, R.PART_LOCKk_STAT]; omega) only
    [State.freeLock, b.put]
  exact leases s _
theorem breakLock (s : State) (k cause : Nat) (hk : k < 256) (h : 0x40012000 ≤ lo) (ha : a ≤ 0x40280000) : g (s.breakLock k cause) = g s := by
  have below : (R.PART_LOCKk_STAT k).addr < lo := by simp only [R.PART_LOCKk_STAT]; omega
  unfold State.breakLock
  dsimp only
  split_ifs
  · rw [leases, b.raise _ _ _ ha, b.put _ _ _ (.inr below), b.put _ _ _ (.inr below), b.freeLock leases s k hk h]
  · exact b.put _ _ _ (.inr below)
  · rfl
theorem breakLocks (s : State) (f : Nat → Bool) (cause : Nat) (h : 0x40012000 ≤ lo) (ha : a ≤ 0x40280000) : g (s.breakLocks f cause) = g s :=
  State.each_keeps_mem g (fun k hk t => b.breakLock leases t k cause (List.mem_range.1 (List.mem_filter.1 hk).1) h ha) s
end

/-! ### Memory (R387, R388, R405 to R414) -/

theorem refuse (s : State) (q : Requester) (view : Nat) (k : Access) (d n : Nat) (u : Bool) (hm : a ≤ 0x40280000 ∨ 0x40284000 ≤ lo)
    (hf : a ≤ 0x40010000 ∨ 0x40011000 ≤ lo) : g (s.refuse q view k d n u) = g s := by
  have info : a ≤ R.PART_FENCE_INFO.addr ∨ R.PART_FENCE_INFO.addr < lo := by simp only [R.PART_FENCE_INFO]; omega
  have addr : a ≤ R.PART_FENCE_ADDR.addr ∨ R.PART_FENCE_ADDR.addr < lo := by simp only [R.PART_FENCE_ADDR]; omega
  unfold State.refuse
  split
  · rfl
  · split
    · exact b.put _ _ _ info
    · extract_lets v
      rw [b.raise_of _ _ (by decide) hm, b.wr _ _ _ addr, b.put _ _ _ info, b.wr _ _ _ info]

section
variable (marks : ∀ (s : State) (x : Tab LineMark), g { s with marks := x } = g s)
  (flash : ∀ (s : State) (x y : Tab Nat), g { s with flash := { s.flash with corr := x, uncorr := y } } = g s)
  (hm : a ≤ 0x40280000 ∨ 0x40284000 ≤ lo) (he : a ≤ 0x40460000 ∨ 0x40460020 ≤ lo)
include hm he
theorem memError (s : State) (w : Who) (m addr kind : Nat) : g (s.memError w m addr kind) = g s := by
  have off : ∀ x < 0x20, a ≤ 0x40460000 + x ∨ 0x40460000 + x < lo := fun x h => by omega
  have counted : g (if kind = 1 then s.incSat R.MEMC_UNCORR_COUNT else s.incSat R.MEMC_PARCEL_COUNT) = g s := by
    split
    · exact b.incSat _ _ (off 0xC (by decide)) 1
    · exact b.incSat _ _ (off 0x10 (by decide)) 1
  have info : a ≤ R.MEMC_ERR_INFO.addr ∨ R.MEMC_ERR_INFO.addr < lo := off 0 (by decide)
  have at_ : a ≤ R.MEMC_ERR_ADDR.addr ∨ R.MEMC_ERR_ADDR.addr < lo := off 4 (by decide)
  have record : ∀ (t : State) (v : Word), g (if t.on R.MEMC_ERR_INFO_VALID then t.put R.MEMC_ERR_INFO_OVER 1
      else (((t.wr R.MEMC_ERR_INFO v).put R.MEMC_ERR_INFO_VALID 1).wr R.MEMC_ERR_ADDR (BitVec.ofNat 32 addr)).raise 764) = g t := fun t v => by
    split
    · exact b.put _ R.MEMC_ERR_INFO_OVER 1 info
    · rw [b.raise_of _ 0 (p := 764) (by decide) hm, b.wr _ _ _ at_, b.put _ R.MEMC_ERR_INFO_VALID 1 info, b.wr _ _ _ info]
  exact (record _ _).trans counted
include marks flash
theorem lineRead (s : State) (w : Who) (d : Nat) : g (s.lineRead w d).2 = g s := by
  have off : a ≤ R.MEMC_CORR.addr ∨ R.MEMC_CORR.addr < lo := by simp only [R.MEMC_CORR]; omega
  unfold State.lineRead
  split
  · split
    · unfold State.flashEcc
      split
      · rfl
      · exact flash s _ s.flash.uncorr
      · exact flash s s.flash.corr _
    · rfl
  · dsimp only
    split
    · exact b.memError hm he s w _ _ _
    · split
      · exact (b.incSat _ _ off 1).trans (marks s _)
      · rfl
theorem memRead (s : State) (w : Who) (d n : Nat) : g (s.memRead w d n).2 = g s := by
  have lines : ∀ (l : List Nat) (t : State), g (State.linesBy (fun t d => t.lineRead w d) l t).2 = g t := fun l => by
    induction l with
    | nil => exact fun _ => rfl
    | cons x l ih =>
      intro t
      unfold State.linesBy
      dsimp only
      split
      · exact (ih _).trans (b.lineRead marks flash hm he t w x)
      · exact b.lineRead marks flash hm he t w x
  exact lines _ s
variable (free : ∀ (s : State) (x : Nat), g { s with free := x } = g s) (mem : ∀ (s : State) (x : List Host.Cell), g { s with mem := x } = g s)
  (hi : a ≤ 0x40460000 ∨ 0x40460028 ≤ lo)
omit flash hm he
include free hi
theorem inject (s : State) (d : Nat) : g (s.inject d) = g s := by
  have off : a ≤ R.MEMC_INJ_CTRL.addr ∨ R.MEMC_INJ_CTRL.addr < lo := by simp only [R.MEMC_INJ_CTRL]; omega
  have armed : g (s.put R.MEMC_INJ_CTRL_ARMED 0) = g s := b.put _ _ _ off
  unfold State.inject
  split
  · dsimp only
    split
    · exact (marks _ _).trans armed
    · exact (marks _ _).trans armed
    · exact (marks _ _).trans ((free _ _).trans armed)
    · exact armed
  · rfl
include mem flash hm he
theorem lineWrite (s : State) (w : Who) (d : Nat) (bs : List Byte) : g (s.lineWrite w d bs).2 = g s := by
  unfold State.lineWrite
  split
  · exact mem s _
  · split
    · exact (b.inject marks free hi _ _).trans ((mem _ _).trans (marks _ _))
    · dsimp only
      split
      · exact b.lineRead marks flash hm he s w d
      · exact (b.inject marks free hi _ _).trans ((mem _ _).trans ((marks _ _).trans (b.lineRead marks flash hm he s w d)))
theorem memWrite (s : State) (w : Who) (d : Nat) (bs : List Byte) : g (s.memWrite w d bs).2 = g s := by
  have each : ∀ (l : List (Nat × List Byte)) (r : Bool × State),
      g (l.foldl (fun r p => if r.1 then r.2.lineWrite w p.1 p.2 else r) r).2 = g r.2 := fun l => by
    induction l with
    | nil => exact fun _ => rfl
    | cons x l ih =>
      intro r
      refine (ih _).trans ?_
      dsimp only
      split
      · exact b.lineWrite marks flash hm he free mem hi r.2 w x.1 x.2
      · rfl
  exact each _ (true, s)
end

theorem settleOutputs (pwm : ∀ (s : State) (x : Tab PwmUnit), g { s with pwm := x } = g s)
    (link : ∀ (s : State) (x : Tab Flink), g { s with link := x } = g s) (arm : ∀ (s : State) (x : Tab Arm), g { s with arm := x } = g s)
    (s : State) (h : a ≤ 0x40180000) : g s.settleOutputs = g s := by
  rw [State.settleOutputs, b.settleLinks link arm _ (by omega), b.settleUnits pwm _ h]

end Blind

/-! ### The rest of the device -/

/-- What the work of the blocks outside the window from `lo` up to `a` leaves as it is: the state without the tables of lanes, converters, PWM units,
links, arms, position interfaces, locks, clocks, ports, DMA channels, buffers and the event matrix; the registers of the window; and the cores. -/
def State.hub (lo a : Nat) (s : State) : State × (Reg → Word) × (Nat → Cpu) :=
  ({ s with regs := {}, shad := {}, free := 0, evm := {}, marks := [], arbs := [], dma := [], fc := [], fcGroup := [], fcOut := [], fcBox := [], leases := [], clk := {},
            cmpPulse := [], cmpEvt := 0, scan := [], scanCh := [], dmaRound := [], pwm := [], link := [], arm := [], pos := [], lane := [], bind := [],
            cpus := [], bufs := [], fse := [], ses := {}, eth := [], ser := [], gpioOut := 0, flash := { s.flash with corr := [], uncorr := [] } },
    fun r => if lo ≤ r.addr ∧ r.addr < a then s.rd r else 0#32, fun k => if k < 16 then s.cpuAt k else {})

section
variable {lo a : Nat} {s t : State} (h : t.hub lo a = s.hub lo a)
include h
theorem State.now_of_hub : t.now = s.now := congrArg (·.1.now) h
theorem State.mem_of_hub : t.mem = s.mem := congrArg (·.1.mem) h
theorem State.pav_of_hub : t.pav = s.pav := congrArg (·.1.pav) h
theorem State.chip_of_hub : t.chip = s.chip := congrArg (·.1.chip) h
theorem State.rd_of_hub {r : Reg} (here : lo ≤ r.addr ∧ r.addr < a) : t.rd r = s.rd r := by
  have same := congrArg (fun x => x.2.1 r) h
  simpa only [State.hub, if_pos here] using same
theorem State.get_of_hub {q : RF} (here : lo ≤ q.reg.addr ∧ q.reg.addr < a) : t.get q = s.get q := congrArg (fieldGet · q.lsb q.wid) (State.rd_of_hub h here)
theorem State.on_of_hub {q : RF} (here : lo ≤ q.reg.addr ∧ q.reg.addr < a) : t.on q = s.on q := congrArg (fun v => fieldGet v q.lsb q.wid != 0) (State.rd_of_hub h here)
theorem State.bitOn_of_hub {q : RF} (k : Nat) (here : lo ≤ q.reg.addr ∧ q.reg.addr < a) : t.bitOn q k = s.bitOn q k := congrArg (fun v => bit v k) (State.get_of_hub h here)
theorem State.cpuAt_of_hub {k : Nat} (core : k < 16) : t.cpuAt k = s.cpuAt k := by
  have same := congrArg (fun x => x.2.2 k) h
  simpa only [State.hub, if_pos core] using same
end

theorem blind_hub (lo a : Nat) : Blind (State.hub lo a) lo a where
  wr s r v h := by
    refine Prod.ext rfl (Prod.ext (funext fun q => ?_) rfl)
    simp only [State.hub]
    split
    · rw [State.rd_wr_ne _ _ _ _ (by omega)]
    · rfl
  heat s r m := by
    refine Prod.ext rfl (Prod.ext (funext fun q => ?_) rfl)
    simp only [State.hub, State.rd_heat]
  line _ _ := rfl
  arrived _ _ _ := rfl

theorem State.hub_of_atRest {lo a : Nat} {s t : State} (ha : a ≤ 0x40280000) (h : t.atRest = s.atRest) : t.hub lo a = s.hub lo a := by
  refine Prod.ext (congrArg (fun x : State × (Reg → Word) × (Nat → List Buffered × Time) => (State.hub 0 0 x.1).1) h)
    (Prod.ext (funext fun r => ?_) (funext fun k => ?_))
  · simp only [State.hub]
    split
    · exact State.rd_of_atRest h (by omega)
    · rfl
  · simp only [State.hub, State.cpuAt, State.cpus_of_atRest h]

section
variable {lo a : Nat} (s : State)
theorem State.hub_settleUnit (n : Nat) (c : Cause) (h : a ≤ 0x40180000) : (s.settleUnit n c).hub lo a = s.hub lo a :=
  (blind_hub lo a).settleUnit (fun _ _ => rfl) s n c h
theorem State.hub_settleLink (l : Nat) (h : a ≤ 0x40200000) : (s.settleLink l).hub lo a = s.hub lo a :=
  (blind_hub lo a).settleLink (fun _ _ => rfl) (fun _ _ => rfl) s l h
theorem State.hub_settleUnits (h : a ≤ 0x40180000) : s.settleUnits.hub lo a = s.hub lo a := (blind_hub lo a).settleUnits (fun _ _ => rfl) s h
theorem State.hub_settleLinks (h : a ≤ 0x40200000) : s.settleLinks.hub lo a = s.hub lo a :=
  (blind_hub lo a).settleLinks (fun _ _ => rfl) (fun _ _ => rfl) s h
theorem State.hub_settleOutputs (h : a ≤ 0x40180000) : s.settleOutputs.hub lo a = s.hub lo a :=
  (blind_hub lo a).settleOutputs (fun _ _ => rfl) (fun _ _ => rfl) (fun _ _ => rfl) s h
end

end Sys2Proof.Machine
end

section
/-!
PROOF. Redundancy and supervision (spec/22): forces reach the units, failures reach the recovery machine.
-/
namespace Sys2Proof.Machine

/-- What a step of a fold keeps, and what one element's step brings about while it holds, hold after the fold. -/
theorem State.each_reaches {α : Type} {l : List α} {f : α → State → State} {inv goal : State → Prop} {x : α} (mem : x ∈ l)
    (hinv : ∀ y t, inv t → inv (f y t)) (hgoal : ∀ y t, goal t → goal (f y t)) (hx : ∀ t, inv t → goal (f x t)) {s : State} (start : inv s) :
    goal (s.each l f) := by
  have keep : ∀ (l : List α) (t : State), goal t → goal (t.each l f) := fun l => by
    induction l with
    | nil => exact fun _ h => h
    | cons y l ih => exact fun t h => ih _ (hgoal y t h)
  induction l generalizing s with
  | nil => cases mem
  | cons y l ih =>
    cases mem with
    | head => exact keep l _ (hx s start)
    | tail _ mem => exact ih mem (hinv y s start)

/-! ### Forced units (R145, R146, R500) -/

/-- Both outputs of unit `n` drive their safe state. -/
def State.safeUnit (s : State) (n : Nat) : Prop := (s.unit n).safeA = true ∧ (s.unit n).safeB = true

section
variable {s : State} {n : Nat}

theorem State.safeUnit_of_pwm {t : State} (h : t.pwm = s.pwm) (safe : s.safeUnit n) : t.safeUnit n := by
  rwa [State.safeUnit, State.unit, h]
theorem blind_pwm : Blind State.pwm 0 0 := ⟨fun _ _ _ _ => rfl, fun _ _ _ => rfl, fun _ _ => rfl, fun _ _ _ => rfl⟩
theorem State.unit_of_pwm {t : State} (h : t.pwm = s.pwm) (m : Nat) : t.unit m = s.unit m := by rw [State.unit, h, State.unit]
theorem State.unitStatus_pwm : (s.unitStatus n).pwm = s.pwm := blind_pwm.unitStatus s n (Nat.zero_le _)
theorem State.unitLatch_pwm : (s.unitLatch n).pwm = s.pwm := blind_pwm.unitLatch s n (Nat.zero_le _)

theorem State.emit_pwm (p : Nat) (c : Cause) : (s.emit p c).pwm = s.pwm := blind_pwm.emit s p c (Nat.zero_le _)

/-- The outputs of unit `m` once the force sources of unit `n` have acted. -/
theorem State.settleUnit_unit (s : State) (n m : Nat) (c : Cause) :
    ((s.settleUnit n c).unit m).safeA = ((s.unit m).safeA || (m == n && (s.unitLatch n).outForced n false)) ∧
    ((s.settleUnit n c).unit m).safeB = ((s.unit m).safeB || (m == n && (s.unitLatch n).outForced n true)) := by
  have latched (k : Nat) := State.unit_of_pwm (s.unitLatch_pwm (n := n)) k
  unfold State.settleUnit
  extract_lets s1 u fA fB real u' t
  have done : ∀ r : State, r.pwm = (s1.setUnit n u').pwm → r.unit m = if m = n then u' else s.unit m := fun r h =>
    (State.unit_of_pwm h m).trans ((s1.unit_setUnit n m u').trans (by rw [latched]))
  have last : ((if (!u.safeA && !u.safeB && (fA || fB) && real) = true then t.emit (362 + n) c else t).unit m) = if m = n then u' else s.unit m := by
    split
    · exact done _ ((t.emit_pwm _ _).trans State.unitStatus_pwm)
    · exact done _ State.unitStatus_pwm
  rw [last]
  by_cases here : m = n
  · subst here
    simp only [if_pos, u', u, latched, fA, fB, s1, beq_self_eq_true, Bool.true_and, and_self]
  · simp only [if_neg here, beq_eq_false_iff_ne.2 here, Bool.false_and, Bool.or_false, and_self]
theorem State.safeUnit_settleUnit (m : Nat) (c : Cause) (safe : s.safeUnit n) : (s.settleUnit m c).safeUnit n := by
  obtain ⟨a, b⟩ := s.settleUnit_unit m n c
  exact ⟨by rw [a, safe.1, Bool.true_or], by rw [b, safe.2, Bool.true_or]⟩
theorem State.safeUnit_of_unitForce (c : Cause) (force : (s.unitLatch n).unitForce n = true) : (s.settleUnit n c).safeUnit n := by
  obtain ⟨a, b⟩ := s.settleUnit_unit n n c
  exact ⟨by rw [a]; simp [State.outForced, force], by rw [b]; simp [State.outForced, force]⟩

/-- The supervisor or the recovery machine forces unit `n` (R500, R504). -/
def State.centralForce (s : State) (n : Nat) : Prop := s.bitOn R.SUP_FORCE_PWM_UNITS n = true ∨ s.on R.SUP_REC_STATUS_FORCE = true

theorem State.centralForce_of_hub {t : State} (h : t.hub 0x40050000 0x40060000 = s.hub 0x40050000 0x40060000) (force : s.centralForce n) :
    t.centralForce n := by
  rw [State.centralForce, State.bitOn_of_hub h n (by decide), State.on_of_hub h (by decide)]
  exact force
theorem State.safeUnit_settleUnits (hn : n < 32) (force : s.centralForce n) : s.settleUnits.safeUnit n := by
  refine State.each_reaches (inv := (State.centralForce · n)) (goal := (State.safeUnit · n)) (List.mem_range.2 hn)
    (fun m t held => ?_) (fun m t => State.safeUnit_settleUnit m none) (fun t held => ?_) force
  · exact State.centralForce_of_hub (State.hub_settleUnit t m none (by decide)) held
  refine State.safeUnit_of_unitForce none ?_
  have latched := State.centralForce_of_hub ((blind_hub 0x40050000 0x40060000).unitLatch t n (by decide)) held
  rcases latched with h | h <;> simp [State.unitForce, h]
theorem State.safeUnit_settleOutputs (hn : n < 32) (force : s.centralForce n) : s.settleOutputs.safeUnit n :=
  State.safeUnit_of_pwm (blind_pwm.settleLinks (fun _ _ => rfl) (fun _ _ => rfl) _ (Nat.zero_le _)) (State.safeUnit_settleUnits hn force)
end

/-! ### Failures (R503, R506) -/

theorem State.recFail_safeHold {s : State} (c : Nat) (h : s.get R.SUP_REC_STATUS_STATE = 3) : s.recFail c = s := if_pos h

/-- What a failure brings about: FORCE, unit `u` safe, and the failure latched, of two the one with the lower cause. -/
structure State.Failed (s : State) (c : Nat) (u : Fin 32) (t : State) : Prop where
  force : t.on R.SUP_REC_STATUS_FORCE = true
  safe : t.safeUnit u
  latch : t.pav.fail = some (match s.pav.fail with | some d => min c d | none => c)

section
variable {s : State}

/-- A failure is latched, and its force has not yet reached the outputs. -/
def State.failing (s : State) (c : Nat) : State :=
  ({ s with pav := { s.pav with fail := some (match s.pav.fail with | some d => min c d | none => c) } } : State).put R.SUP_REC_STATUS_FORCE 1
theorem State.recFail_eq (s : State) (c : Nat) : s.recFail c = if s.get R.SUP_REC_STATUS_STATE = 3 then s else (s.failing c).settleOutputs := rfl
theorem State.recFail_failed {c : Nat} (u : Fin 32) (h : ¬s.get R.SUP_REC_STATUS_STATE = 3) : s.Failed c u (s.recFail c) := by
  have force : (s.failing c).on R.SUP_REC_STATUS_FORCE = true := State.on_put _ _ 1 (by decide)
  have hub := (s.failing c).hub_settleOutputs (lo := 0x40050000) (a := 0x40060000) (by decide)
  rw [s.recFail_eq, if_neg h]
  exact ⟨(State.on_of_hub hub (by decide)).trans force, State.safeUnit_settleOutputs u.isLt (.inr force), congrArg Pav.fail (State.pav_of_hub hub)⟩
theorem State.recFail_cpuAt (c : Nat) {k : Nat} (hk : k < 16) : (s.recFail c).cpuAt k = s.cpuAt k := by
  rw [s.recFail_eq]
  split
  · rfl
  · exact State.cpuAt_of_hub ((s.failing c).hub_settleOutputs (lo := 0) (a := 0) (by decide)) hk
end

/-! ### Cores that stop (R495) -/

section
variable (s : State)
theorem State.stopCore_cpuAt (c k : Nat) : (s.stopCore c).cpuAt k = if k = c then { s.cpuAt c with started := false, wfi := false, step := false, want := false } else s.cpuAt k :=
  s.cpuAt_setCpuAt c k _
theorem State.stopCore_stopped (c : Nat) : ((s.stopCore c).cpuAt c).started = false := by rw [s.stopCore_cpuAt, if_pos rfl]
theorem State.stopCore_keeps_stopped (c : Nat) {k : Nat} (h : (s.cpuAt k).started = false) : ((s.stopCore c).cpuAt k).started = false := by
  rw [s.stopCore_cpuAt]
  split
  · rfl
  · exact h
theorem State.stopCore_rd (c : Nat) (r : Reg) (h : r.addr < 0x404C0000) : (s.stopCore c).rd r = s.rd r :=
  State.rd_put_ne _ _ r 0 (by simp only [R.DBG_Cc_STATUS_STATE, R.DBG_Cc_STATUS]; omega)
theorem State.hub_breakLocks (f : Nat → Bool) (cause : Nat) {lo a : Nat} (h : 0x40012000 ≤ lo) (ha : a ≤ 0x40280000) :
    (s.breakLocks f cause).hub lo a = s.hub lo a := (blind_hub lo a).breakLocks (fun _ _ => rfl) s f cause h ha
theorem State.hub_raise (p h : Nat) {lo a : Nat} (ha : a ≤ 0x40280000) : (s.raise p h).hub lo a = s.hub lo a := (blind_hub lo a).raise s p h ha
end

section
variable {s : State}

/-- Both cores of host pair `k` stop, and their locks break. -/
def State.pairStopped (s : State) (k : Nat) : State := ((s.stopCore (2 * k)).stopCore (2 * k + 1)).breakLocks (· == 2 * k) 3
theorem State.pairStopped_cpus {k : Nat} (hk : k < 4) :
    ((s.pairStopped k).cpuAt (2 * k)).started = false ∧ ((s.pairStopped k).cpuAt (2 * k + 1)).started = false := by
  have hub := ((s.stopCore (2 * k)).stopCore (2 * k + 1)).hub_breakLocks (· == 2 * k) 3 (lo := 0x40050000) (a := 0x40060000) (by decide) (by decide)
  rw [State.pairStopped, State.cpuAt_of_hub hub (by omega), State.cpuAt_of_hub hub (by omega)]
  exact ⟨State.stopCore_keeps_stopped _ _ (s.stopCore_stopped _), State.stopCore_stopped _ _⟩

/-- LOCKSTEP_FAILURE of a host pair. -/
theorem State.lockstepFail_pair {k : Nat} (g : Fin 4) (comparing : s.comparing k = true) (hk : k < 4) : let t := s.lockstepFail k g
    t.on (R.SUP_PAIRk_STATUS_FAILED k) = true ∧ t.on (R.SUP_PAIRk_STATUS_STOPPED k) = true ∧
      t.get (R.SUP_PAIRk_STATUS_GROUP k) = g ∧ t.on (R.SUP_PAIRk_STATUS_COMPARING k) = false ∧ t.bitOn R.SUP_FAULT_PAIR_FAIL k = true ∧
      (t.cpuAt (2 * k)).started = false ∧ (t.cpuAt (2 * k + 1)).started = false := by
  let marked := ((((s.pairStopped k).put (R.SUP_PAIRk_STATUS_FAILED k) 1).put (R.SUP_PAIRk_STATUS_STOPPED k) 1).put (R.SUP_PAIRk_STATUS_GROUP k) g).put
      (R.SUP_PAIRk_STATUS_COMPARING k) 0
  have end_ : s.lockstepFail k g = (marked.putBit R.SUP_FAULT_PAIR_FAIL k true).raise 764 := by
    rw [State.lockstepFail, comparing, if_neg (by decide), if_neg (by omega)]
    rfl
  have hub := (marked.putBit R.SUP_FAULT_PAIR_FAIL k true).hub_raise 764 0 (lo := 0x40050000) (a := 0x40060000) (by decide)
  have window : 0x40050000 ≤ (R.SUP_PAIRk_STATUS k).addr ∧ (R.SUP_PAIRk_STATUS k).addr < 0x40060000 := by simp only [R.SUP_PAIRk_STATUS]; omega
  have apart : (R.SUP_PAIRk_STATUS k).addr ≠ R.SUP_FAULT.addr := by simp only [R.SUP_PAIRk_STATUS, R.SUP_FAULT]; omega
  simp only [end_]
  rw [State.on_of_hub hub window, State.on_of_hub hub window, State.get_of_hub hub window, State.on_of_hub hub window, State.bitOn_of_hub hub k (by decide),
    State.cpuAt_of_hub hub (by omega), State.cpuAt_of_hub hub (by omega), State.bitOn_putBit _ _ _ _ _ (by decide) hk,
    State.on_putBit_ne _ _ _ _ _ apart, State.on_putBit_ne _ _ _ _ _ apart, State.on_putBit_ne _ _ _ _ _ apart, State.get_putBit_ne _ _ _ _ _ apart]
  simp (disch := exact ⟨rfl⟩) only [marked, State.on_put_self, State.get_put_self, State.on_put_beside, State.get_put_beside]
  exact ⟨rfl, rfl, Nat.mod_eq_of_lt g.isLt, rfl, if_pos trivial, State.pairStopped_cpus hk⟩

/-- The supervisor's lockstep failure. -/
theorem State.lockstepFail_supervisor (g : Nat) (comparing : s.comparing 4 = true) (u : Fin 32) :
    ((s.lockstepFail 4 g).cpuAt 8).started = false ∧ (s.get R.SUP_REC_STATUS_STATE ≠ 3 → s.Failed 1 u (s.lockstepFail 4 g)) := by
  let stopped := (s.stopCore 8).breakLocks (· == 8) 3
  have end_ : s.lockstepFail 4 g = stopped.recFail 1 := by
    rw [State.lockstepFail, comparing, if_neg (by decide), if_pos rfl]
  have hub := (s.stopCore 8).hub_breakLocks (· == 8) 3 (lo := 0x40050000) (a := 0x40060000) (by decide) (by decide)
  have state : stopped.get R.SUP_REC_STATUS_STATE = s.get R.SUP_REC_STATUS_STATE :=
    (State.get_of_hub hub (by decide)).trans (congrArg (fieldGet · 0 3) (s.stopCore_rd 8 _ (by decide)))
  rw [end_, State.recFail_cpuAt 1 (by decide), State.cpuAt_of_hub hub (by decide)]
  refine ⟨s.stopCore_stopped 8, fun h => ?_⟩
  obtain ⟨force, safe, latch⟩ := State.recFail_failed (c := 1) u (state ▸ h)
  exact ⟨force, safe, by rw [latch, State.pav_of_hub hub]; rfl⟩

/-! ### Register writes (R500, R502, R506, R508) -/

theorem State.faultN_settleFault : s.settleFault.on R.SUP_FAULTOUT_LIVE = s.settleFault.faultN := by
  have same : s.settleFault.faultN = s.faultN := by
    simp (disch := exact ⟨rfl⟩) only [State.faultN, State.settleFault, State.get_putB_elsewhere, State.on_putB_beside]
    rfl
  rw [same]
  exact s.on_putB _ _ (by decide) (by decide)
theorem supFaultoutWrite_fields (v : Nat) :
    (supFaultoutWrite v s).on R.SUP_FAULTOUT_ASSERT = (v % 2 != 0) ∧ (supFaultoutWrite v s).on R.SUP_FAULTOUT_LIVE = (supFaultoutWrite v s).faultN := by
  refine ⟨?_, State.faultN_settleFault⟩
  simp (disch := exact ⟨rfl⟩) only [supFaultoutWrite, State.settleFault, State.on_putB_beside, State.on_put_self]
  rfl

theorem supForceWrite_pwm (v : Word) : (supForceWrite false v s).rd R.SUP_FORCE_PWM = v ∧
    ∀ u : Fin 32, v.getLsbD u = true → (supForceWrite false v s).safeUnit u := by
  have hub := (s.wr R.SUP_FORCE_PWM v).hub_settleUnits (lo := 0x40050000) (a := 0x40060000) (by decide)
  rw [supForceWrite, if_neg (by decide)]
  refine ⟨(State.rd_of_hub hub (by decide)).trans (State.rd_wr_same _ _ _), fun u h => State.safeUnit_settleUnits u.isLt (.inl ?_)⟩
  have field := s.get_wr R.SUP_FORCE_PWM_UNITS v
  simp only [State.bitOn, bit, show R.SUP_FORCE_PWM = R.SUP_FORCE_PWM_UNITS.reg from rfl, field, fieldGet_testBit]
  simp [R.SUP_FORCE_PWM_UNITS, h]
theorem supForceWrite_link (v : Word) : (supForceWrite true v s).rd R.SUP_FORCE_LINK = v := by
  rw [supForceWrite, if_pos rfl]
  exact (State.rd_of_hub ((s.wr R.SUP_FORCE_LINK v).hub_settleLinks (lo := 0x40050000) (a := 0x40060000) (by decide)) (by decide)).trans (State.rd_wr_same _ _ _)

/-- WDT_LOCK: the write sets LOCK, and the times while it was not set. -/
theorem wdtWrite_fields (min max : BitVec 10) (w : Nat) (hw : w = 2 ^ 31 + min.toNat * 2 ^ 16 + max.toNat) : (wdtWrite w s).on R.SUP_WDT_LOCK = true ∧
    (wdtWrite w s).get R.SUP_WDT_MIN = (if s.on R.SUP_WDT_LOCK then s.get R.SUP_WDT_MIN else min.toNat) ∧
    (wdtWrite w s).get R.SUP_WDT_MAX = (if s.on R.SUP_WDT_LOCK then s.get R.SUP_WDT_MAX else max.toNat) := by
  have := min.isLt
  have := max.isLt
  have lock : bit w 31 = true := by rw [bit, Nat.testBit_eq_decide_div_mod_eq]; simp only [decide_eq_true_eq]; omega
  have minEq : bitsOf w 16 10 % 2 ^ 10 = min.toNat := by simp only [bitsOf]; omega
  have maxEq : w % 2 ^ 10 = max.toNat := by omega
  simp only [wdtWrite, lock, State.when, if_true]
  by_cases locked : s.on R.SUP_WDT_LOCK = true
  · simp (disch := exact ⟨rfl⟩) only [if_pos locked, State.on_put_self, State.get_put_beside]
    exact ⟨rfl, trivial, trivial⟩
  · simp (disch := exact ⟨rfl⟩) only [if_neg locked, State.on_put_self, State.get_put_beside, State.get_put_self]
    exact ⟨rfl, minEq, maxEq⟩

/-- Does a kick come too early (R502)? -/
def State.kickEarly (s : State) (n : Nat) : Bool := s.pav.kick.isSome && s.get R.SUP_WDT_MIN != 0 || s.pav.kicked && decide (n < 32 * s.get R.SUP_WDT_MIN)
theorem kickWrite_off (v : Nat) (h : s.pav.wdt = none) : kickWrite v s = s := by rw [kickWrite, h]
theorem kickWrite_right {key : Byte} {n : Nat} (h : s.pav.wdt = some n) (right : key.toNat = s.pav.key) (due : s.kickEarly n = false) :
    kickWrite key.toNat s = { s with pav := { s.pav with kick := some 2, kicked := true, key := if key = 0x5A#8 then 0xA5 else 0x5A } } := by
  have mod : key.toNat % 256 = s.pav.key := by rw [Nat.mod_eq_of_lt key.isLt, right]
  have iff : (s.pav.key = 0x5A) ↔ key = 0x5A#8 := by rw [← right, ← BitVec.toNat_inj]; rfl
  rw [State.kickEarly] at due
  simp only [kickWrite, h, mod, due, bne_self_eq_false, Bool.or_self, Bool.false_eq_true, if_false, iff]
theorem kickWrite_wrong {key : Byte} {n : Nat} (h : s.pav.wdt = some n) (wrong : ¬(key.toNat = s.pav.key ∧ s.kickEarly n = false)) :
    kickWrite key.toNat s = s.recFail 4 := by
  have mod : key.toNat % 256 = key.toNat := Nat.mod_eq_of_lt key.isLt
  have fails : (key.toNat != s.pav.key || s.kickEarly n) = true := by
    rw [← Bool.not_eq_false, Bool.or_eq_false_iff, bne_eq_false_iff_eq]
    exact wrong
  rw [State.kickEarly] at fails
  simp only [kickWrite, h, mod, fails, if_true]

theorem execWatchdogTimeout_runs {n : Nat} (h : s.pav.wdt = some n) :
    execWatchdogTimeout s = .next (if 32 * s.get R.SUP_WDT_MAX ≤ n then s.recFail 3 else s) := by rw [execWatchdogTimeout, h]

theorem recCtrlWrite_wrong {v : Nat} (h : bitsOf v 8 8 ≠ 0x96 ∨ s.recBusy = true) : recCtrlWrite v s = s := by
  rw [recCtrlWrite]
  split
  · rfl
  · next key =>
    have busy : s.recBusy = true := h.resolve_left (by simpa using key)
    simp only [busy, Bool.not_true, Bool.and_false, State.when, Bool.false_eq_true, if_false]
theorem recCtrlWrite_release (idle : s.recBusy = false) : (recCtrlWrite (0x96 * 256 + 1) s).on R.SUP_REC_STATUS_FORCE = false := by
  have value : recCtrlWrite (0x96 * 256 + 1) s = (s.put R.SUP_REC_STATUS_FORCE 0).settleOutputs := by
    simp only [recCtrlWrite, show (bitsOf (0x96 * 256 + 1) 8 8 != 0x96) = false from rfl, show bit (0x96 * 256 + 1) 0 = true from rfl,
      show bit (0x96 * 256 + 1) 1 = false from rfl, idle, Bool.false_eq_true, if_false, State.when, Bool.not_false, Bool.and_self, if_true, Bool.false_and]
  rw [value, State.on_of_hub ((s.put R.SUP_REC_STATUS_FORCE 0).hub_settleOutputs (lo := 0x40050000) (a := 0x40060000) (by decide)) (by decide)]
  exact s.on_put R.SUP_REC_STATUS_FORCE 0 (by decide)
theorem recCtrlWrite_reset (idle : s.recBusy = false) : recCtrlWrite (0x96 * 256 + 2) s = s.recFail 7 := by
  simp only [recCtrlWrite, show (bitsOf (0x96 * 256 + 2) 8 8 != 0x96) = false from rfl, show bit (0x96 * 256 + 2) 0 = false from rfl,
      show bit (0x96 * 256 + 2) 1 = true from rfl, idle, Bool.false_eq_true, if_false, State.when, Bool.not_false, Bool.and_self, if_true, Bool.false_and]

/-! ### One edge of the RC (R502, R504) -/

/-- What no edge of the RC touches before the recovery machine acts: everything but the Pavane domain. -/
theorem State.rtcRc_pav : ∃ p : Pav, s.rtcRc = { s with pav := p } ∧ p.edges = s.pav.edges ∧ p.lrt = s.pav.lrt ∧ p.wdt = s.pav.wdt ∧ p.kick = s.pav.kick ∧
    p.fail = s.pav.fail ∧ p.tries = s.pav.tries ∧ p.hold = s.pav.hold := by
  unfold State.rtcRc
  split
  · exact ⟨s.pav, rfl, rfl, rfl, rfl, rfl, rfl, rfl, rfl⟩
  · exact ⟨_, rfl, rfl, rfl, rfl, rfl, rfl, rfl, rfl⟩
theorem State.wdtEdge_pav : ∃ p : Pav, s.wdtEdge = { s with pav := p } ∧ p.edges = s.pav.edges ∧ p.lrt = s.pav.lrt ∧
    p.fail = s.pav.fail ∧ p.tries = s.pav.tries ∧ p.hold = s.pav.hold := by
  unfold State.wdtEdge
  split
  · exact ⟨s.pav, rfl, rfl, rfl, rfl, rfl, rfl⟩
  · split
    · exact ⟨s.pav, rfl, rfl, rfl, rfl, rfl, rfl⟩
    · split
      · split <;> exact ⟨_, rfl, rfl, rfl, rfl, rfl, rfl⟩
      · exact ⟨_, rfl, rfl, rfl, rfl, rfl, rfl⟩

/-- The state after one edge of the RC, before the recovery machine acts. -/
def State.edgeStart (s : State) : State := ({ s with pav := { s.pav with edges := s.pav.edges + 1, lrt := s.pav.lrt + 1 } } : State).rtcRc.wdtEdge
theorem State.edgeStart_eq (s : State) : ∃ p : Pav, s.edgeStart = { s with pav := p } ∧ p.edges = s.pav.edges + 1 ∧ p.lrt = s.pav.lrt + 1 ∧
    p.fail = s.pav.fail ∧ p.tries = s.pav.tries := by
  obtain ⟨p, hp, edges, lrt, -, -, fail, tries, -⟩ :=
    State.rtcRc_pav (s := { s with pav := { s.pav with edges := s.pav.edges + 1, lrt := s.pav.lrt + 1 } })
  obtain ⟨p', hp', edges', lrt', fail', tries', -⟩ := State.wdtEdge_pav (s := { s with pav := p })
  rw [State.edgeStart, hp]
  exact ⟨p', hp', edges'.trans edges, lrt'.trans lrt, fail'.trans fail, tries'.trans tries⟩
theorem State.edgeStart_wdt {n : Nat} (wdt : s.pav.wdt = some n) (runs : s.wdtPaused = false) :
    (s.pav.kick = none → s.edgeStart.pav.wdt = some (n + 1)) ∧
    (s.pav.kick = some 1 → n + 1 < 32 * s.get R.SUP_WDT_MAX → s.edgeStart.pav.wdt = some 0 ∧ s.edgeStart.pav.kick = none) := by
  obtain ⟨p, hp, -, -, wdt', kick', -⟩ := State.rtcRc_pav (s := { s with pav := { s.pav with edges := s.pav.edges + 1, lrt := s.pav.lrt + 1 } })
  have runs' : ({ s with pav := p } : State).wdtPaused = false := runs
  simp only [State.edgeStart, hp]
  refine ⟨fun none => ?_, fun one short => ?_⟩
  · simp only [State.wdtEdge, wdt', wdt, kick', none, runs', Bool.false_eq_true, if_false]
  · have time : ¬32 * ({ s with pav := p } : State).get R.SUP_WDT_MAX ≤ n + 1 := Nat.not_le.2 short
    simp only [State.wdtEdge, wdt', wdt, kick', one, runs', Bool.false_eq_true, if_false, if_neg time, and_self]

/-- The recovery machine's own step on an edge. -/
def State.machineStep (s : State) : State :=
  match s.pav.fail with
  | some c => s.recTake c
  | none => if s.get R.SUP_REC_STATUS_STATE = 1 then ({ s with pav := { s.pav with hold := false } } : State).put R.SUP_REC_STATUS_STATE 2 else s
theorem State.rcEdge_eq (s : State) : s.rcEdge = s.edgeStart.machineStep.put R.SUP_REC_STATUS_ATTEMPTS s.edgeStart.machineStep.pav.recent.length := rfl
theorem State.rcEdge_pav (s : State) : s.rcEdge.pav = s.edgeStart.machineStep.pav := rfl
theorem State.rcEdge_state (s : State) : s.rcEdge.get R.SUP_REC_STATUS_STATE = s.edgeStart.machineStep.get R.SUP_REC_STATUS_STATE := by
  rw [s.rcEdge_eq]
  simp (disch := exact ⟨rfl⟩) only [State.get_put_beside]

theorem State.machineStep_idle (idle : s.pav.fail = none) : s.machineStep =
    if s.get R.SUP_REC_STATUS_STATE = 1 then ({ s with pav := { s.pav with hold := false } } : State).put R.SUP_REC_STATUS_STATE 2 else s := by
  rw [State.machineStep, idle]
theorem State.rcEdge_idle (idle : s.pav.fail = none) : let t := s.rcEdge
    t.pav.edges = s.pav.edges + 1 ∧ t.pav.lrt = s.pav.lrt + 1 ∧
      t.get R.SUP_REC_STATUS_STATE = (if s.get R.SUP_REC_STATUS_STATE = 1 then 2 else s.get R.SUP_REC_STATUS_STATE) ∧
      (s.get R.SUP_REC_STATUS_STATE = 1 → t.pav.hold = false) ∧ t.pav.wdt = s.edgeStart.pav.wdt ∧ t.pav.kick = s.edgeStart.pav.kick := by
  obtain ⟨p, hp, edges, lrt, fail, tries⟩ := s.edgeStart_eq
  have idle' : ({ s with pav := p } : State).pav.fail = none := fail.trans idle
  simp only [State.rcEdge_pav, State.rcEdge_state, hp, State.machineStep_idle idle']
  by_cases restarting : s.get R.SUP_REC_STATUS_STATE = 1
  · have restarting' : ({ s with pav := p } : State).get R.SUP_REC_STATUS_STATE = 1 := restarting
    simp only [if_pos restarting, if_pos restarting']
    exact ⟨edges, lrt, State.get_put _ _ _ (by decide), fun _ => rfl, rfl, rfl⟩
  · have restarting' : ¬({ s with pav := p } : State).get R.SUP_REC_STATUS_STATE = 1 := restarting
    simp only [if_neg restarting, if_neg restarting']
    exact ⟨edges, lrt, rfl, fun h => absurd h restarting, trivial, trivial⟩

/-! ### Attempts and SAFE_HOLD (R504, R505) -/

theorem State.hub_clk {lo a : Nat} (x : Clk) : ({ s with clk := x } : State).hub lo a = s.hub lo a := rfl
theorem State.hub_srcFails {lo a : Nat} (h : 0x40022000 ≤ lo) : s.srcFails.hub lo a = s.hub lo a := by
  refine State.each_keeps_mem (State.hub lo a) (fun d hd t => ?_) s
  have := List.mem_range.1 hd
  split
  · exact (blind_hub lo a).putB _ _ _ (.inr (by simp only [R.CLK_Dd_STATUS_SRC_FAIL, R.CLK_Dd_STATUS]; omega))
  · rfl
theorem State.hub_supOnRc {lo a : Nat} (h : 0x40022000 ≤ lo) : s.supOnRc.hub lo a = s.hub lo a := by
  have b := blind_hub lo a
  have ctrl : (R.CLK_Dd_CTRL 21).addr < lo := Nat.lt_of_lt_of_le (by decide) h
  have status : (R.CLK_Dd_STATUS 21).addr < lo := Nat.lt_of_lt_of_le (by decide) h
  have starts : ∀ t : State, t.domStart 21 = t := fun t => rfl
  have opened : ∀ t : State, (t.openGate 21).hub lo a = t.hub lo a := fun t => by
    unfold State.openGate
    split
    · rfl
    · rw [starts, State.edgesNow, State.hub_clk, b.inc _ _ (.inr status), b.put _ _ _ (.inr status), State.hub_clk]
  have before : (((((s.put (R.CLK_Dd_CTRL_SEL 21) 1).connect 21).put (R.CLK_Dd_CTRL_HOLD_RESET 21) 0).put (R.CLK_Dd_STATUS_IN_RESET 21) 0).srcFails).hub lo a =
      s.hub lo a := by
    rw [State.hub_srcFails h, b.put _ _ _ (.inr status), b.put _ _ _ (.inr ctrl), State.connect, b.put _ _ _ (.inr status), State.hub_clk,
      b.put _ _ _ (.inr ctrl)]
  unfold State.supOnRc
  dsimp only
  split
  · rw [State.edgesNow, State.hub_clk, b.put _ _ _ (.inr status), opened, before]
  · exact before

/-- The failure after which the machine goes to SAFE_HOLD. -/
def State.lastFailure (s : State) (c : Nat) : Prop := c = 6 ∨ s.get R.SCFG_STATUS_BASE_SLOT = 3 ∨ 3 ≤ s.pav.recent.length
/-- A taken failure, before the machine chooses between an attempt and SAFE_HOLD. -/
def State.taking (s : State) (c : Nat) : State :=
  (({ s with pav := { s.pav with fail := none, hold := true, wdt := none, kick := none } } : State).clearCore 8).put R.SUP_REC_STATUS_LAST_CAUSE c
/-- An attempt begins. -/
def State.attempt (s : State) (c : Nat) : State :=
  ((({ s.taking c with pav := { (s.taking c).pav with tries := s.pav.edges :: s.pav.tries } } : State).incSat R.SUP_REC_STATUS_TOTAL).put
    R.SUP_REC_STATUS_STATE 1)
theorem State.taking_rd (c : Nat) {r : Reg} (h : r.addr ≠ 0x40050040) (low : r.addr < 0x404C0000) : (s.taking c).rd r = s.rd r :=
  (State.rd_put_ne _ _ r c h).trans (State.stopCore_rd _ 8 r low)
theorem State.taking_last {c : Nat} : (s.taking c).lastFailure c ↔ s.lastFailure c := by
  have slot : (s.taking c).get R.SCFG_STATUS_BASE_SLOT = s.get R.SCFG_STATUS_BASE_SLOT := congrArg (fieldGet · 0 2) (State.taking_rd c (by decide) (by decide))
  rw [State.lastFailure, State.lastFailure, slot]
  exact Iff.rfl
theorem State.recTake_last {c : Nat} (h : s.lastFailure c) : s.recTake c = ((s.taking c).put R.SUP_REC_STATUS_STATE 3).settleFault :=
  if_pos (State.taking_last.2 h)
theorem State.recTake_attempt {c : Nat} (h : ¬s.lastFailure c) : s.recTake c = (s.attempt c).supOnRc :=
  if_neg (mt State.taking_last.1 h)

theorem State.faultN_of_hold (t : State) (h : t.get R.SUP_REC_STATUS_STATE = 3) : t.settleFault.on R.SUP_FAULTOUT_LIVE = true := by
  refine (t.on_putB _ _ (by decide) (by decide)).trans ?_
  rw [State.faultN, h]
  rfl

theorem State.clearCore_cpuAt (c : Nat) : (s.clearCore c).cpuAt c = Cpu.init c := (Tab.get_drop (Cpu.init c) _ (· == c) c).trans (if_pos (beq_self_eq_true c))
theorem State.taking_cpuAt (c : Nat) : (s.taking c).cpuAt 8 = Cpu.init 8 := by
  rw [State.taking]
  exact State.clearCore_cpuAt 8
theorem State.taking_total (c : Nat) : (s.taking c).get R.SUP_REC_STATUS_TOTAL = s.get R.SUP_REC_STATUS_TOTAL :=
  (State.get_put_beside _ R.SUP_REC_STATUS_LAST_CAUSE R.SUP_REC_STATUS_TOTAL c ⟨rfl⟩ ⟨rfl⟩).trans
    (congrArg (fieldGet · 24 8) (State.stopCore_rd _ 8 R.SUP_REC_STATUS (by decide)))
theorem State.attempt_total (c : Nat) : (s.attempt c).get R.SUP_REC_STATUS_TOTAL = min (s.get R.SUP_REC_STATUS_TOTAL + 1) 255 := by
  rw [State.attempt, State.get_put_beside _ R.SUP_REC_STATUS_STATE R.SUP_REC_STATUS_TOTAL 1 ⟨rfl⟩ ⟨rfl⟩, State.get_incSat _ _ 1 (by decide),
    ← State.taking_total (s := s) c]
  rfl

/-- What every taken failure brings about. -/
theorem State.recTake_fields (c : Nat) : let t := s.recTake c
    t.pav.fail = none ∧ t.pav.wdt = none ∧ t.pav.hold = true ∧ (t.cpuAt 8).started = false ∧ t.get R.SUP_REC_STATUS_LAST_CAUSE = c % 16 ∧
      (s.lastFailure c → t.get R.SUP_REC_STATUS_STATE = 3 ∧ t.on R.SUP_FAULTOUT_LIVE = true) ∧
      (¬s.lastFailure c → t.get R.SUP_REC_STATUS_STATE = 1 ∧ t.pav.tries = s.pav.edges :: s.pav.tries ∧
        t.get R.SUP_REC_STATUS_TOTAL = min (s.get R.SUP_REC_STATUS_TOTAL + 1) 255) := by
  have stopped : ((s.taking c).cpuAt 8).started = false := by rw [State.taking_cpuAt]; rfl
  by_cases last : s.lastFailure c
  · simp only [State.recTake_last last]
    refine ⟨rfl, rfl, rfl, stopped, ?_, fun _ => ⟨?_, State.faultN_of_hold _ (State.get_put _ _ _ (by decide))⟩, fun h => absurd last h⟩ <;>
      simp (disch := exact ⟨rfl⟩) only [State.settleFault, State.get_putB_elsewhere, State.get_put_beside, State.get_put_self, State.taking] <;> rfl
  · have hub := (s.attempt c).hub_supOnRc (lo := 0x40050000) (a := 0x40060000) (by decide)
    have pav := State.pav_of_hub hub
    simp only [State.recTake_attempt last, pav, State.cpuAt_of_hub hub (show 8 < 16 by decide),
      State.get_of_hub hub (q := R.SUP_REC_STATUS_STATE) (by decide), State.get_of_hub hub (q := R.SUP_REC_STATUS_TOTAL) (by decide),
      State.get_of_hub hub (q := R.SUP_REC_STATUS_LAST_CAUSE) (by decide)]
    refine ⟨rfl, rfl, rfl, stopped, ?_, fun h => absurd h last, fun _ => ⟨State.get_put _ _ _ (by decide), rfl, ?_⟩⟩
    · simp (disch := exact ⟨rfl⟩) only [State.attempt, State.incSat, State.get_put_beside]
      exact State.get_put _ _ _ (by decide)
    · exact State.attempt_total c
end

/-- The last-resort timer has expired (R507). -/
theorem State.expired_fields (s : State) : let t := (({ s with chip := { s.chip with expired := true } } : State).put R.SUP_REC_STATUS_LRT_EXPIRED 1).settleFault
    t.on R.SUP_REC_STATUS_LRT_EXPIRED = true ∧ t.on R.SUP_FAULTOUT_LIVE = true := by
  refine ⟨?_, ?_⟩
  · simp (disch := exact ⟨rfl⟩) only [State.settleFault, State.on_putB_elsewhere, State.on_put_self]
    rfl
  · refine (State.on_putB _ _ _ (by decide) (by decide)).trans ?_
    simp only [State.faultN, State.put, Bool.or_true, Bool.true_or]

/-- Settles O59: each clause is what its unit's effect brings about. -/
theorem supervisionAndRecovery : Obligations.SupervisionAndRecovery := by
  unfold Obligations.SupervisionAndRecovery
  intro s q k g v u asserted min0 max0 key n cause state safeHold failure busy early right p1 last
  have fails : ∀ {c : Nat}, ¬safeHold → failure c (s.recFail c) := fun h => by
    obtain ⟨force, ⟨a, b⟩, latch⟩ := State.recFail_failed u h
    exact ⟨force, a, b, latch⟩
  have unkeyed : key ≠ 0x96#8 ∨ busy = true → ∀ b < 256, bitsOf (key.toNat * 256 + b) 8 8 ≠ 0x96 ∨ s.recBusy = true := fun wrong b hb =>
    wrong.imp (fun other e => other (BitVec.toNat_inj.1 (show key.toNat = 0x96 by
      have := key.isLt
      simp only [bitsOf] at e
      omega))) id
  refine ⟨fun off => ?_, fun on hk => ⟨_, rfl, State.lockstepFail_pair g on hk⟩, fun on => ⟨_, rfl, ?_⟩, fun acc => ⟨_, regWrite_accepts _ acc, ?_⟩,
    fun acc => ⟨_, regWrite_accepts _ acc, supForceWrite_link v⟩, fun acc => ⟨_, regWrite_accepts _ acc, ?_⟩,
    fun acc => ⟨_, regWrite_accepts _ acc, wdtWrite_fields min0 max0 _ rfl⟩, fun acc => ⟨fun off => ?_, fun runs ok => ?_, fun runs wrong hold => ?_⟩,
    fun acc => ⟨fun ok idle => ⟨?_, ?_⟩, fun wrong => ⟨?_, ?_⟩⟩, fun runs late hold => ⟨s.recFail 3, ?_, fails hold⟩, fun runs early => ?_,
    fun some hold => ⟨s.recFail cause, ?_, fails hold⟩, fun hold => ?_, fun idle => ⟨_, rfl, ?_⟩, fun c hc => ⟨_, rfl, ?_⟩, fun h => ?_, fun h => ?_,
    ⟨_, rfl, rfl, s.expired_fields⟩⟩
  · exact congrArg Host.Outcome.next (if_pos (by rw [off]; rfl))
  · obtain ⟨stopped, failed⟩ := State.lockstepFail_supervisor g on u
    refine ⟨stopped, fun hold => ?_⟩
    obtain ⟨force, ⟨a, b⟩, latch⟩ := failed hold
    exact ⟨force, a, b, latch⟩
  · obtain ⟨value, forced⟩ := supForceWrite_pwm (s := s) v
    exact ⟨value, forced u⟩
  · obtain ⟨assert, live⟩ := supFaultoutWrite_fields (s := s) asserted.toNat
    exact ⟨assert.trans (by cases asserted <;> rfl), live⟩
  · exact (regWrite_accepts _ acc).trans (congrArg Host.Outcome.next (kickWrite_off _ off))
  · exact ⟨_, regWrite_accepts _ acc, congrArg State.pav (kickWrite_right runs ok.1 ok.2)⟩
  · exact ⟨_, regWrite_accepts _ acc, by rw [kickWrite_wrong runs wrong]; exact fails hold⟩
  · subst ok
    exact ⟨_, regWrite_accepts _ acc, recCtrlWrite_release idle⟩
  · subst ok
    refine ⟨_, (regWrite_accepts _ acc).trans (congrArg Host.Outcome.next (recCtrlWrite_reset idle)), fails fun hold => ?_⟩
    have zero : state s = 0 := by simpa using (Bool.or_eq_false_iff.1 idle).2
    exact absurd (hold.symm.trans zero) (by decide)
  · exact (regWrite_accepts _ acc).trans (congrArg Host.Outcome.next (recCtrlWrite_wrong (unkeyed wrong 1 (by decide))))
  · exact (regWrite_accepts _ acc).trans (congrArg Host.Outcome.next (recCtrlWrite_wrong (unkeyed wrong 2 (by decide))))
  · exact (execWatchdogTimeout_runs runs).trans (congrArg Host.Outcome.next (if_pos late))
  · exact (execWatchdogTimeout_runs runs).trans (congrArg Host.Outcome.next (if_neg (Nat.not_le.2 early)))
  · exact congrArg Host.Outcome.next (if_neg some)
  · refine congrArg Host.Outcome.next ?_
    rw [s.recFail_safeHold _ hold, ite_self]
  · obtain ⟨edges, lrt, next, released, wdt, kick⟩ := State.rcEdge_idle idle
    refine ⟨edges, lrt, next, released, fun runs on none => wdt.trans ((State.edgeStart_wdt runs on).1 none), fun runs on one early => ?_⟩
    obtain ⟨zero, taken⟩ := (State.edgeStart_wdt runs on).2 one early
    exact ⟨wdt.trans zero, kick.trans taken⟩
  · obtain ⟨p, hp, edges, -, fail, tries⟩ := s.edgeStart_eq
    have takes : s.edgeStart.machineStep = s.edgeStart.recTake c := by rw [State.machineStep, hp, fail, hc]
    obtain ⟨none, wdt, held, stopped, cause, atEnd, again⟩ := s.edgeStart.recTake_fields c
    have total : s.edgeStart.get R.SUP_REC_STATUS_TOTAL = s.get R.SUP_REC_STATUS_TOTAL := by rw [hp]; rfl
    have tries' : s.edgeStart.pav.tries = s.pav.tries ∧ s.edgeStart.pav.edges = p1.edges := by rw [hp]; exact ⟨tries, edges⟩
    have lasts : s.edgeStart.lastFailure c ↔ last c := by
      rw [State.lastFailure, Pav.recent, tries'.1, tries'.2, hp]
      exact Iff.rfl
    rw [tries'.1, tries'.2, total] at again
    rw [← takes] at none wdt held stopped cause atEnd again
    simp (disch := exact ⟨rfl⟩) only [state, State.rcEdge_eq, State.get_put_beside, State.on_put_elsewhere]
    refine ⟨none, wdt, held, stopped, cause, fun h => atEnd (lasts.2 h), fun h => ?_⟩
    obtain ⟨trying, tried, counted⟩ := again (mt lasts.1 h)
    exact ⟨trying, tried, counted⟩
  · exact congrArg Host.Outcome.next (if_pos h)
  · exact congrArg Host.Outcome.next (if_neg (Nat.not_le.2 h))

end Sys2Proof.Machine
end

section
/-!
PROOF. Changes that pass through an access to memory: a change of a part of the state that no access reads or writes may come before the access or
after it. What an access answers, and what it stores, follows from the bytes and the damage of lines alone (`State.memView`).
-/
namespace Sys2Proof.Machine

/-- The change `φ` neither reads nor writes registers and the matrix, and the matrix does not see it. -/
structure Passes (φ : State → State) : Prop where
  regs (s : State) : (φ s).regs = s.regs
  evm (s : State) : (φ s).evm = s.evm
  setRegs (s : State) (x : RegFile) : ({ φ s with regs := x } : State) = φ { s with regs := x }
  setEvm (s : State) (x : Evm) : ({ φ s with evm := x } : State) = φ { s with evm := x }
  now (s : State) : (φ s).now = s.now
  mute (s : State) (p : Nat) : (φ s).ownerInReset ((φ s).lineOwner p) = s.ownerInReset (s.lineOwner p)
  joined (s : State) (p c : Nat) : (φ s).joined p c = s.joined p c

namespace Passes
variable {φ : State → State} (h : Passes φ)
include h

theorem rd (s : State) (r : Reg) : (φ s).rd r = s.rd r := congrArg (RegFile.rd · r) (h.regs s)
theorem get (s : State) (q : RF) : (φ s).get q = s.get q := congrArg (RegFile.fld · q) (h.regs s)
theorem on (s : State) (q : RF) : (φ s).on q = s.on q := congrArg (fun f => RegFile.fld f q != 0) (h.regs s)
theorem wr (s : State) (r : Reg) (v : Word) : (φ s).wr r v = φ (s.wr r v) := by rw [State.wr, h.regs, h.setRegs, State.wr]
theorem put (s : State) (q : RF) (x : Nat) : (φ s).put q x = φ (s.put q x) := by rw [State.put, h.regs, h.setRegs, State.put]
theorem heat (s : State) (r : Reg) (m : Word) : (φ s).heat r m = φ (s.heat r m) := by rw [State.heat, h.regs, h.setRegs, State.heat]
theorem putBit (s : State) (q : RF) (k : Nat) (v : Bool) : (φ s).putBit q k v = φ (s.putBit q k v) := by
  rw [State.putBit, h.get, h.put, h.heat, State.putBit]
theorem incSat (s : State) (q : RF) (d : Nat) : (φ s).incSat q d = φ (s.incSat q d) := by rw [State.incSat, h.get, h.put, State.incSat]
omit h in
theorem each {α : Type} {f : α → State → State} (pass : ∀ x t, f x (φ t) = φ (f x t)) (l : List α) (s : State) : (φ s).each l f = φ (s.each l f) := by
  induction l generalizing s with
  | nil => rfl
  | cons x l ih => exact (congrArg (State.each · l f) (pass x s)).trans (ih _)

theorem setLine (s : State) (p : Nat) (l : Line) : (φ s).setLine p l = φ (s.setLine p l) := by rw [State.setLine, h.evm, h.setEvm, State.setLine]
theorem setChan (s : State) (c : Nat) (x : Chan) : (φ s).setChan c x = φ (s.setChan c x) := by
  simp only [State.setChan, State.putB, h.evm, h.setEvm, h.put]
theorem arrive (s : State) (c k : Nat) : (φ s).arrive c k = φ (s.arrive c k) := by
  simp only [State.arrive, State.chan, h.evm, h.setChan]
theorem leave (s : State) (p k : Nat) : (φ s).leave p k = φ (s.leave p k) := by
  simp only [State.leave, h.joined, h.now, h.setLine]
  exact Passes.each (fun c t => h.arrive t c k) _ _
theorem raise (s : State) (p k : Nat) : (φ s).raise p k = φ (s.raise p k) := by
  have line : (φ s).line p = s.line p := by rw [State.line, h.evm, State.line]
  simp only [State.raise, h.mute, line, State.since, h.now, h.setLine, h.putBit, h.leave]
  split_ifs
  · rfl
  · split
    · rfl
    · split
      · exact (apply_ite φ _ _ _).symm
      · rfl
end Passes

/-- The change `φ` passes through every access to memory as well. -/
structure PassesMemory (φ : State → State) : Prop extends Passes φ where
  mem (s : State) : (φ s).mem = s.mem
  marks (s : State) : (φ s).marks = s.marks
  flash (s : State) : (φ s).flash = s.flash
  free (s : State) : (φ s).free = s.free
  setMem (s : State) (x : List Host.Cell) : ({ φ s with mem := x } : State) = φ { s with mem := x }
  setMarks (s : State) (x : Tab LineMark) : ({ φ s with marks := x } : State) = φ { s with marks := x }
  setFlash (s : State) (x : Flash) : ({ φ s with flash := x } : State) = φ { s with flash := x }
  setFree (s : State) (x : Nat) : ({ φ s with free := x } : State) = φ { s with free := x }

namespace PassesMemory
variable {φ : State → State} (h : PassesMemory φ)
include h

theorem mark (s : State) (d : Nat) : (φ s).mark d = s.mark d := by rw [State.mark, h.marks, State.mark]
theorem setMark (s : State) (d : Nat) (m : LineMark) : (φ s).setMark d m = φ (s.setMark d m) := by simp only [State.setMark, h.marks, h.setMarks]
theorem poke (s : State) (d : Nat) (bs : List Byte) : (φ s).poke d bs = φ (s.poke d bs) := by simp only [State.poke, h.mem, h.setMem]
theorem byteAt (s : State) (d : Nat) : (φ s).byteAt d = s.byteAt d := State.byteAt_congr (h.mem s) (congrArg Flash.mix (h.flash s)) d
theorem memError (s : State) (w : Who) (m addr kind : Nat) : (φ s).memError w m addr kind = φ (s.memError w m addr kind) := by
  unfold State.memError
  split_ifs <;> simp only [h.incSat, h.on, h.get, h.put, h.wr, h.raise] <;> split_ifs <;> rfl
theorem flashEcc (s : State) (d : Nat) : (φ s).flashEcc d = ((s.flashEcc d).1, φ (s.flashEcc d).2) := by
  have ecc : (φ s).unitEcc d = s.unitEcc d := by simp only [State.unitEcc, State.mixSeed, h.flash]
  simp only [State.flashEcc, ecc, h.flash, h.setFlash]
  split <;> rfl
theorem lineRead (s : State) (w : Who) (d : Nat) : (φ s).lineRead w d = ((s.lineRead w d).1, φ (s.lineRead w d).2) := by
  unfold State.lineRead
  split
  · split
    · exact h.flashEcc s d
    · rfl
  · simp only [h.mark, h.memError, h.setMark, h.incSat]
    split_ifs <;> rfl
omit h in
theorem linesBy {f : State → Nat → Bool × State} (pass : ∀ s d, f (φ s) d = ((f s d).1, φ (f s d).2)) (l : List Nat) (s : State) :
    State.linesBy f l (φ s) = ((State.linesBy f l s).1, φ (State.linesBy f l s).2) := by
  induction l generalizing s with
  | nil => rfl
  | cons d l ih =>
    simp only [State.linesBy, pass]
    split
    · exact ih _
    · rfl
theorem bytesAt (s : State) (d n : Nat) : (φ s).bytesAt d n = s.bytesAt d n := by simp only [State.bytesAt, h.byteAt]
theorem memRead (s : State) (w : Who) (d n : Nat) : (φ s).memRead w d n = ((s.memRead w d n).1, φ (s.memRead w d n).2) := by
  simp only [State.memRead, PassesMemory.linesBy (φ := φ) (f := fun t d => t.lineRead w d) (fun t d => h.lineRead t w d), h.bytesAt]
theorem lineEgress (s : State) (w : Who) (d : Nat) : (φ s).lineEgress w d = ((s.lineEgress w d).1, φ (s.lineEgress w d).2) := by
  simp only [State.lineEgress, h.lineRead]
  split
  · rfl
  · split
    · simp only [h.mark, h.memError]
      split_ifs <;> rfl
    · rfl
theorem memEgress (s : State) (w : Who) (d n : Nat) : (φ s).memEgress w d n = ((s.memEgress w d n).1, φ (s.memEgress w d n).2) := by
  simp only [State.memEgress, PassesMemory.linesBy (φ := φ) (f := fun t d => t.lineEgress w d) (fun t d => h.lineEgress t w d), h.bytesAt]
theorem inject (s : State) (d : Nat) : (φ s).inject d = φ (s.inject d) := by
  simp only [State.inject, h.on, h.get, h.mark, h.put, State.fresh, h.free, h.setFree, h.setMark]
  split_ifs
  · split <;> rfl
  · rfl
theorem lineWrite (s : State) (w : Who) (d : Nat) (bs : List Byte) : (φ s).lineWrite w d bs = ((s.lineWrite w d bs).1, φ (s.lineWrite w d bs).2) := by
  unfold State.lineWrite
  split
  · rw [h.poke]
  · simp only [h.lineRead, h.setMark, h.mark, h.poke, h.inject]
    split_ifs <;> rfl
theorem memWrite (s : State) (w : Who) (d : Nat) (bs : List Byte) : (φ s).memWrite w d bs = ((s.memWrite w d bs).1, φ (s.memWrite w d bs).2) := by
  have run : ∀ (l : List (Nat × List Byte)) (r : Bool × State),
      l.foldl (fun r p => if r.1 then r.2.lineWrite w p.1 p.2 else r) (r.1, φ r.2) =
        ((l.foldl (fun r p => if r.1 then r.2.lineWrite w p.1 p.2 else r) r).1, φ (l.foldl (fun r p => if r.1 then r.2.lineWrite w p.1 p.2 else r) r).2) :=
    fun l => by
      induction l with
      | nil => exact fun _ => rfl
      | cons x l ih =>
        intro r
        rw [List.foldl_cons, List.foldl_cons, ← ih]
        dsimp only
        split
        · rw [h.lineWrite]
        · rfl
  exact run _ (true, s)
end PassesMemory

/-! ### What an access depends on -/

/-- What the bytes that an access finds and leaves depend on: memory, the lines that cannot be corrected, flash, and the armed injection. -/
def State.memView (s : State) : List Host.Cell × (Nat → Bool) × Flash × Word × Word :=
  (s.mem, fun l => (s.marks.get {} l).double, { s.flash with corr := [], uncorr := [] }, s.rd R.MEMC_INJ_CTRL, s.rd R.MEMC_INJ_ADDR)

section
variable {s t : State}

theorem State.setMark_get (d : Nat) (m : LineMark) (l : Nat) : (s.setMark d m).marks.get {} l = if l = d / 64 then m else s.marks.get {} l := by
  unfold State.setMark
  dsimp only
  split
  · next e =>
    rw [Tab.get_drop, e]
    simp only [beq_iff_eq]
  · exact Tab.get_set _ _ _ _ _
theorem State.setMark_memView {d : Nat} {m : LineMark} (same : m.double = (s.mark d).double) : (s.setMark d m).memView = s.memView := by
  refine Prod.ext rfl (Prod.ext (funext fun l => ?_) rfl)
  simp only [State.memView, State.setMark_get]
  split
  · next e => rw [same, e]; rfl
  · rfl
theorem blind_memView : Blind State.memView 0x40460020 0x40460028 where
  wr s r v h := by
    simp only [State.memView]
    rw [State.rd_wr_ne s r R.MEMC_INJ_CTRL v (by simp only [R.MEMC_INJ_CTRL]; omega), State.rd_wr_ne s r R.MEMC_INJ_ADDR v (by simp only [R.MEMC_INJ_ADDR]; omega)]
    rfl
  heat s r m := by simp only [State.memView, State.rd_heat]; rfl
  line _ _ := rfl
  arrived _ _ _ := rfl
theorem State.flashEcc_memView (d : Nat) : (s.flashEcc d).2.memView = s.memView := by
  unfold State.flashEcc
  split <;> rfl
theorem State.lineRead_memView (w : Who) (d : Nat) : (s.lineRead w d).2.memView = s.memView := by
  unfold State.lineRead
  split
  · split
    · exact s.flashEcc_memView d
    · rfl
  · dsimp only
    split_ifs
    · exact blind_memView.memError (.inr (by decide)) (.inr (by decide)) s w _ _ _
    · exact (blind_memView.incSat _ R.MEMC_CORR_COUNT (.inr (by decide)) 1).trans (State.setMark_memView rfl)
    · rfl
section
variable (e : s.memView = t.memView)
include e
theorem State.double_of_memView (d : Nat) : (s.mark d).double = (t.mark d).double := congrArg (fun x => x.2.1 (d / 64)) e
theorem State.mem_of_memView : s.mem = t.mem := congrArg (·.1) e
theorem State.unitEcc_of_memView (d : Nat) : s.unitEcc d = t.unitEcc d := by
  have mix : s.flash.mix = t.flash.mix := congrArg (·.2.2.1.mix) e
  have ecc : s.flash.ecc = t.flash.ecc := congrArg (·.2.2.1.ecc) e
  simp only [State.unitEcc, State.mixSeed, mix, ecc]
theorem State.lineRead_of_memView (w : Who) (d : Nat) : (s.lineRead w d).1 = (t.lineRead w d).1 := by
  have flash : (s.flashEcc d).1 = (t.flashEcc d).1 := by
    simp only [State.flashEcc, State.unitEcc_of_memView e d]
    split <;> rfl
  unfold State.lineRead
  split
  · split
    · exact flash
    · rfl
  · simp only [State.double_of_memView e d]
    split_ifs <;> rfl
theorem State.poke_memView (d : Nat) (bs : List Byte) : (s.poke d bs).memView = (t.poke d bs).memView :=
  Prod.ext (congrArg (fun m => Mem.puts m d bs) (State.mem_of_memView e)) (congrArg (·.2) e)
theorem State.setMark_memView_congr (d : Nat) {m n : LineMark} (same : m.double = n.double) : (s.setMark d m).memView = (t.setMark d n).memView := by
  refine Prod.ext (show s.mem = t.mem from State.mem_of_memView e) (Prod.ext (funext fun l => ?_) (congrArg (·.2.2) e))
  simp only [State.memView, State.setMark_get]
  split
  · exact same
  · exact congrArg (fun x => x.2.1 l) e
theorem State.inject_memView (d : Nat) : (s.inject d).memView = (t.inject d).memView := by
  have ctrl : s.rd R.MEMC_INJ_CTRL = t.rd R.MEMC_INJ_CTRL := congrArg (·.2.2.2.1) e
  have addr : s.rd R.MEMC_INJ_ADDR = t.rd R.MEMC_INJ_ADDR := congrArg (·.2.2.2.2) e
  have armed : s.on R.MEMC_INJ_CTRL_ARMED = t.on R.MEMC_INJ_CTRL_ARMED := congrArg (fun v => fieldGet v 2 1 != 0) ctrl
  have line : s.get R.MEMC_INJ_ADDR_LINE = t.get R.MEMC_INJ_ADDR_LINE := congrArg (fun v => fieldGet v R.MEMC_INJ_ADDR_LINE.lsb R.MEMC_INJ_ADDR_LINE.wid) addr
  have put : ∀ u : State, (u.put R.MEMC_INJ_CTRL_ARMED 0).rd R.MEMC_INJ_CTRL = fieldPut (u.rd R.MEMC_INJ_CTRL) R.MEMC_INJ_CTRL_ARMED.lsb 1 0 :=
    fun u => u.rd_put R.MEMC_INJ_CTRL_ARMED 0
  have kind : (s.put R.MEMC_INJ_CTRL_ARMED 0).get R.MEMC_INJ_CTRL_KIND = (t.put R.MEMC_INJ_CTRL_ARMED 0).get R.MEMC_INJ_CTRL_KIND :=
    congrArg (fun v => fieldGet v 0 2) ((put s).trans ((congrArg (fieldPut · R.MEMC_INJ_CTRL_ARMED.lsb 1 0) ctrl).trans (put t).symm))
  have disarmed : (s.put R.MEMC_INJ_CTRL_ARMED 0).memView = (t.put R.MEMC_INJ_CTRL_ARMED 0).memView := by
    refine Prod.ext (congrArg (·.1) e) (Prod.ext (congrArg (·.2.1) e) (Prod.ext (congrArg (·.2.2.1) e) (Prod.ext ?_ ?_)))
    · exact (put s).trans ((congrArg (fieldPut · R.MEMC_INJ_CTRL_ARMED.lsb 1 0) ctrl).trans (put t).symm)
    · exact (State.rd_put_ne _ _ _ _ (by decide)).trans (addr.trans (State.rd_put_ne _ _ _ _ (by decide)).symm)
  simp only [State.inject, armed, line, kind]
  split
  · split
    · exact State.setMark_memView_congr disarmed d (State.double_of_memView disarmed d)
    · exact State.setMark_memView_congr disarmed d rfl
    · exact State.setMark_memView_congr (s := (s.put R.MEMC_INJ_CTRL_ARMED 0).fresh.2) (t := (t.put R.MEMC_INJ_CTRL_ARMED 0).fresh.2) disarmed d
        (State.double_of_memView disarmed d)
    · exact disarmed
  · exact e
theorem State.lineWrite_memView (w : Who) (d : Nat) (bs : List Byte) :
    (s.lineWrite w d bs).1 = (t.lineWrite w d bs).1 ∧ (s.lineWrite w d bs).2.memView = (t.lineWrite w d bs).2.memView := by
  have read : (s.lineRead w d).2.memView = (t.lineRead w d).2.memView := (s.lineRead_memView w d).trans (e.trans (t.lineRead_memView w d).symm)
  unfold State.lineWrite
  split
  · exact ⟨rfl, State.poke_memView e d bs⟩
  · simp only [State.lineRead_of_memView e w d]
    split_ifs
    · exact ⟨rfl, State.inject_memView (State.poke_memView (State.setMark_memView_congr e d rfl) d bs) d⟩
    · exact ⟨rfl, read⟩
    · refine ⟨rfl, State.inject_memView (State.poke_memView (State.setMark_memView_congr read d ?_) d bs) d⟩
      rfl
end
theorem State.memWrite_memView (e : s.memView = t.memView) (w : Who) (d : Nat) (bs : List Byte) :
    (s.memWrite w d bs).1 = (t.memWrite w d bs).1 ∧ (s.memWrite w d bs).2.memView = (t.memWrite w d bs).2.memView := by
  have run : ∀ (l : List (Nat × List Byte)) (q r : Bool × State), q.1 = r.1 → q.2.memView = r.2.memView →
      let u := l.foldl (fun r p => if r.1 then r.2.lineWrite w p.1 p.2 else r) q
      let v := l.foldl (fun r p => if r.1 then r.2.lineWrite w p.1 p.2 else r) r
      u.1 = v.1 ∧ u.2.memView = v.2.memView := fun l => by
    induction l with
    | nil => exact fun _ _ h1 h2 => ⟨h1, h2⟩
    | cons x l ih =>
      intro q r h1 h2
      obtain ⟨ok, view⟩ := State.lineWrite_memView h2 w x.1 x.2
      refine ih _ _ ?_ ?_ <;> dsimp only <;> rw [h1] <;> split
      · exact ok
      · exact h1
      · exact view
      · exact h2
  exact run _ (true, s) (true, t) rfl e
end
end Sys2Proof.Machine
end

section
/-!
PROOF. The Ethernet ports and PTP time (spec/16).
-/
namespace Sys2Proof.Machine

/-- The tables of the Ethernet ports pass through an access to memory. -/
theorem passes_eth (y : Tab EthPort) : PassesMemory fun s => { s with eth := y } where
  regs _ := rfl
  evm _ := rfl
  setRegs _ _ := rfl
  setEvm _ _ := rfl
  now _ := rfl
  mute _ _ := rfl
  joined _ _ _ := rfl
  mem _ := rfl
  marks _ := rfl
  flash _ := rfl
  free _ := rfl
  setMem _ _ := rfl
  setMarks _ _ := rfl
  setFlash _ _ := rfl
  setFree _ _ := rfl

theorem blind_field {β : Type} {g : State → β} (wr : ∀ (s : State) (r : Reg) (v : Word), g (s.wr r v) = g s) (heat : ∀ (s : State) (r : Reg) (m : Word), g (s.heat r m) = g s)
    (evm : ∀ (s : State) (x : Evm), g { s with evm := x } = g s) : Blind g 0 0 :=
  ⟨fun s r v _ => wr s r v, heat, fun s _ => evm s _, fun s _ _ => evm s _⟩
theorem blind_mem : Blind State.mem 0 0 := blind_field (fun _ _ _ => rfl) (fun _ _ _ => rfl) (fun _ _ => rfl)
theorem blind_eth : Blind State.eth 0 0 := blind_field (fun _ _ _ => rfl) (fun _ _ _ => rfl) (fun _ _ => rfl)
theorem blind_rd (r : Reg) : Blind (State.rd · r) r.addr (r.addr + 1) where
  wr s q v h := State.rd_wr_ne _ _ _ _ (by omega)
  heat s q m := State.rd_heat _ _ _ _
  line _ _ := rfl
  arrived _ _ _ := rfl

/-! ### Vectors and rings (Table 16.4, R362, R380) -/

namespace Blind
variable {β : Type} {g : State → β} {lo a : Nat} (b : Blind g lo a)
section
variable (pcie : ∀ (s : State) (x : Tab PcieFn), g { s with pcie := x } = g s)
include pcie
theorem source (s : State) (p j : Nat) : g (s.source p j) = g s := by
  unfold State.source State.vector
  dsimp only
  split_ifs
  · rfl
  · exact pcie s _
  · exact pcie s _
  · rfl
include b
theorem settleRing (s : State) {p : Nat} (r : Nat) (hp : p < 2) (h : a ≤ 0x40280000 ∨ 0x40284000 ≤ lo)
    (off : a ≤ (R.ETH_Pp_RXSUM p).addr ∨ (R.ETH_Pp_RXSUM p).addr < lo) : g (s.settleRing p r) = g s := by
  unfold State.settleRing
  dsimp only
  rw [State.apply_when g]
  split
  · rw [source pcie, b.raise_of _ _ (by omega) h]
    exact b.putBit _ _ _ _ off
  · exact b.putBit _ _ _ _ off
end
end Blind

section
variable {s : State} {p : Nat}

theorem State.ethPort_of_eth {t : State} (h : t.eth = s.eth) (p : Nat) : t.ethPort p = s.ethPort p := by rw [State.ethPort, h, State.ethPort]
theorem State.settleRing_eth (s : State) {p : Nat} (r : Nat) (hp : p < 2) : (s.settleRing p r).eth = s.eth :=
  blind_eth.settleRing (fun _ _ => rfl) s r hp (.inl (by decide)) (.inl (Nat.zero_le _))
theorem State.settleRing_mem (s : State) {p : Nat} (r : Nat) (hp : p < 2) : (s.settleRing p r).mem = s.mem :=
  blind_mem.settleRing (fun _ _ => rfl) s r hp (.inl (by decide)) (.inl (Nat.zero_le _))
theorem State.settleRing_rd (s : State) {p : Nat} (r : Nat) (hp : p < 2) {q : Reg} (out : q.OutsideMatrix) (ne : q.addr ≠ (R.ETH_Pp_RXSUM p).addr) :
    (s.settleRing p r).rd q = s.rd q :=
  (blind_rd q).settleRing (fun _ _ => rfl) s r hp (by rcases out with h | h <;> omega) (by omega)

/-! ### Reception (R362) -/

/-- Port `p` hears the frame `fr` whose time-stamp point passed at `t`. -/
def State.hears (s : State) (p : Nat) (fr : List Byte) (t : Time) : Prop :=
  s.ethRuns p false = true ∧ s.on (R.ETH_Pp_STATUS_LINK_UP p) = true ∧ s.reached t = true ∧ 128 * fr.length ≤ 5 * s.since t
/-- Is the length of a frame within the limits of R362? -/
def sizedFrame (fr : List Byte) : Prop := 64 ≤ fr.length ∧ fr.length ≤ if tagged (fr.take (fr.length - 4)) then 1522 else 1518
/-- The VLAN of a frame, 0 without one. -/
def vlanOf (f : List Byte) : Nat := if tagged f then be16 f 14 % 4096 else 0

theorem State.ethReceive_hears {fr : List Byte} {t : Time} (h : s.hears p fr t) : s.ethReceive p fr t =
    if fr.drop (fr.length - 4) != fcsOf (fr.take (fr.length - 4)) then s.incSat (R.ETH_Pp_DROPS_FCS p)
    else if fr.length < 64 || (if tagged (fr.take (fr.length - 4)) then 1522 else 1518) < fr.length then s.incSat (R.ETH_Pp_DROPS_SIZE p)
    else match if vlanOf (fr.take (fr.length - 4)) = 0 then some 8 else (List.range 8).find? fun r => s.ethVlan p r == vlanOf (fr.take (fr.length - 4)) with
      | none => s.incSat (R.ETH_Pp_DROPS_NOVLAN p)
      | some r => if s.ethAccepts p r (fr.take (fr.length - 4)) then (s.ethEnter p r (fr.take (fr.length - 4)) t).ethMove p else s := by
  obtain ⟨runs, up, reached, ended⟩ := h
  refine (if_neg ?_).trans rfl
  simp only [runs, up, reached, Bool.not_true, Bool.or_false, Bool.false_or, decide_eq_true_eq]
  omega

theorem State.dropped (q : RF) (h : q.lsb + q.wid ≤ 32 ∧ q.wid = 8) :
    (s.incSat q).get q = min (s.get q + 1) 255 ∧ (s.incSat q).mem = s.mem ∧ (s.incSat q).ethPort p = s.ethPort p :=
  ⟨(State.get_incSat s q 1 h.1).trans (congrArg (fun w => min (s.get q + 1) (2 ^ w - 1)) h.2), rfl, rfl⟩

theorem State.ethReceive_wrong {fr : List Byte} {t : Time} (h : s.hears p fr t) (bad : fr.drop (fr.length - 4) ≠ fcsOf (fr.take (fr.length - 4))) :
    s.ethReceive p fr t = s.incSat (R.ETH_Pp_DROPS_FCS p) := by rw [State.ethReceive_hears h, if_pos (bne_iff_ne.2 bad)]
theorem State.ethReceive_unsized {fr : List Byte} {t : Time} (h : s.hears p fr t) (good : fr.drop (fr.length - 4) = fcsOf (fr.take (fr.length - 4)))
    (size : ¬sizedFrame fr) : s.ethReceive p fr t = s.incSat (R.ETH_Pp_DROPS_SIZE p) := by
  rw [State.ethReceive_hears h, if_neg (by simp only [good, bne_self_eq_false, Bool.false_eq_true, not_false_eq_true]), if_pos ?_]
  rw [sizedFrame] at size
  simp only [Bool.or_eq_true, decide_eq_true_eq]
  omega
theorem State.ethReceive_sized {fr : List Byte} {t : Time} (h : s.hears p fr t) (good : fr.drop (fr.length - 4) = fcsOf (fr.take (fr.length - 4)))
    (size : sizedFrame fr) : s.ethReceive p fr t =
      match if vlanOf (fr.take (fr.length - 4)) = 0 then some 8 else (List.range 8).find? fun r => s.ethVlan p r == vlanOf (fr.take (fr.length - 4)) with
      | none => s.incSat (R.ETH_Pp_DROPS_NOVLAN p)
      | some r => if s.ethAccepts p r (fr.take (fr.length - 4)) then (s.ethEnter p r (fr.take (fr.length - 4)) t).ethMove p else s := by
  rw [State.ethReceive_hears h, if_neg (by simp only [good, bne_self_eq_false, Bool.false_eq_true, not_false_eq_true]), if_neg ?_]
  rw [sizedFrame] at size
  simp only [Bool.or_eq_true, decide_eq_true_eq]
  omega

/-! ### The frame buffer (R362, R363) -/

theorem blind_buf (p : Nat) : Blind (fun s => (s.ethPort p).buf) 0 0 := blind_field (fun _ _ _ => rfl) (fun _ _ _ => rfl) (fun _ _ => rfl)
/-- Storing a frame leaves the frames that wait in the port's buffer. -/
theorem State.rxStore_buf (hp : p < 2) (r : Nat) (f : List Byte) (t : Time) : ((s.rxStore p r f t).ethPort p).buf = (s.ethPort p).buf := by
  have b := blind_buf p
  have z : ∀ x : Nat, 0 ≤ x ∨ x < 0 := fun x => .inl (Nat.zero_le x)
  have full : ∀ t : State, ((t.incSat (R.ETH_Pp_DROPS_FULL p)).ethPort p).buf = (t.ethPort p).buf := fun _ => rfl
  have refused : ∀ (t : State) (q v k d n u), ((t.refuse q v k d n u).ethPort p).buf = (t.ethPort p).buf :=
    fun t q v k d n u => b.refuse t q v k d n u (.inl (by decide)) (.inl (by decide))
  have read : ∀ (t : State) (w d n), ((t.memRead w d n).2.ethPort p).buf = (t.ethPort p).buf :=
    fun t w d n => b.memRead (fun _ _ => rfl) (fun _ _ _ => rfl) (.inl (by decide)) (.inl (by decide)) t w d n
  have wrote : ∀ (t : State) (w d bs), ((t.memWrite w d bs).2.ethPort p).buf = (t.ethPort p).buf :=
    fun t w d bs => b.memWrite (fun _ _ => rfl) (fun _ _ _ => rfl) (.inl (by decide)) (.inl (by decide)) (fun _ _ => rfl) (fun _ _ => rfl) (.inl (by decide)) t w d bs
  unfold State.rxStore
  extract_lets w full' size head a'
  split
  · rfl
  · split
    · exact (full _).trans (refused ..)
    · split
      · next e => exact (full _).trans (by have := read s w a' 4; rwa [e] at this)
      · next dsc s1 e =>
        have e1 : (s1.ethPort p).buf = (s.ethPort p).buf := by have := read s w a' 4; rwa [e] at this
        dsimp only
        split
        · exact (full _).trans ((refused ..).trans e1)
        · split
          · exact (full _).trans ((wrote ..).trans e1)
          · refine (congrArg EthPort.buf (State.ethPort_of_eth (State.settleRing_eth _ r hp) p)).trans ?_
            rw [State.ethPort_setEth, if_pos rfl]
            exact (wrote ..).trans ((wrote ..).trans e1)

/-- The record that reception writes behind a frame's descriptor (R363). -/
def rxRecord (f : List Byte) (st : Time) : List Byte :=
  leBytes 2 (if tagged f then f.take 12 ++ f.drop 16 else f).length ++
    [BitVec.ofNat 8 ((ptpAt f).isSome.toNat + if tagged f then 4 * (byteOf f 14 / 32) + 32 else 0), 0#8] ++ leBytes 8 st.toNat
/-- Address of the descriptor at the head of a receive ring. -/
def State.rxDescAt (s : State) (p r : Nat) : Nat := s.get (R.ETH_Pp_Rr_RXBASE_BASE p r) * 16 + 16 * s.get (R.ETH_Pp_Rr_RXPTR_HEAD p r)
/-- Ring `r` has a posted buffer. -/
def State.rxRoom (s : State) (p r : Nat) : Prop :=
  s.on (R.ETH_Pp_Rr_CTRL_RX_EN p r) = true ∧ s.get (R.ETH_Pp_Rr_SIZE_RXSIZE p r) ≠ 0 ∧ s.get (R.ETH_Pp_Rr_RXPTR_HEAD p r) ≠ s.get (R.ETH_Pp_Rr_RXPTR_TAIL p r)

theorem State.rxStore_full {r : Nat} (room : ¬s.rxRoom p r) (f : List Byte) (t : Time) : s.rxStore p r f t = s.incSat (R.ETH_Pp_DROPS_FULL p) := by
  refine if_pos ?_
  rw [State.rxRoom] at room
  by_cases en : s.on (R.ETH_Pp_Rr_CTRL_RX_EN p r) = true
  · simp only [en, Bool.not_true, Bool.false_or, Bool.or_eq_true, beq_iff_eq]
    tauto
  · simp only [Bool.not_eq_true] at en
    simp only [en, Bool.not_false, Bool.true_or]

/-- A write to memory leaves the Ethernet ports' tables. -/
theorem State.memWrite_eth (s : State) (w : Who) (d : Nat) (bs : List Byte) : (s.memWrite w d bs).2.eth = s.eth :=
  blind_eth.memWrite (fun _ _ => rfl) (fun _ _ _ => rfl) (.inl (by decide)) (.inl (by decide)) (fun _ _ => rfl) (fun _ _ => rfl) (.inl (by decide)) s w d bs
/-- A write to memory leaves a register of a page above the matrix and below the memory controller. -/
theorem State.memWrite_rd (s : State) (w : Who) (d : Nat) (bs : List Byte) {r : Reg} (h : r.OutsideMatrix) (low : r.addr < 0x40460000) :
    (s.memWrite w d bs).2.rd r = s.rd r :=
  (blind_rd r).memWrite (fun _ _ => rfl) (fun _ _ _ => rfl) (by rcases h with h | h <;> omega) (.inl low) (fun _ _ => rfl) (fun _ _ => rfl) (.inl low) s w d bs

theorem State.rxStore_stores {r : Nat} (hp : p < 2) (hr : r < 9) {f dsc : List Byte} {t : Time} {s1 : State} (room : s.rxRoom p r)
    (desc : s.reach (ethWho p r).req (ethWho p r).view false .write (s.rxDescAt p r) 16 = true)
    (read : s.memRead (ethWho p r) (s.rxDescAt p r) 4 = (some dsc, s))
    (buffer : s.reach (ethWho p r).req (ethWho p r).view false .write (leNat dsc) (if tagged f then f.take 12 ++ f.drop 16 else f).length = true)
    (wrote : s.memWrite (ethWho p r) (leNat dsc) (if tagged f then f.take 12 ++ f.drop 16 else f) = (true, s1)) :
    (s.rxStore p r f t).get (R.ETH_Pp_Rr_RXPTR_HEAD p r) =
      (s.get (R.ETH_Pp_Rr_RXPTR_HEAD p r) + 1) % s.get (R.ETH_Pp_Rr_SIZE_RXSIZE p r) % 4096 ∧
    ((s.rxStore p r f t).ethPort p).waiting = (s.ethPort p).waiting.upd [] r (· ++ [s.get (R.ETH_Pp_Rr_RXPTR_HEAD p r)]) ∧
    ∃ st : Time, (st + BitVec.ofNat 64 (32 + s.get (R.ETH_Pp_TSLAT_INGRESS p)) - t).toNat ≤ 64 ∧
      (s.rxStore p r f t).mem = (s1.memWrite (ethWho p r) (s.rxDescAt p r + 4) (rxRecord f st)).2.mem := by
  obtain ⟨en, size, posted⟩ := room
  let st : Time := t + BitVec.ofNat 64 (s1.fresh.1 % 65) - BitVec.ofNat 64 (32 + s1.fresh.2.get (R.ETH_Pp_TSLAT_INGRESS p))
  let s2 := (s1.fresh.2.memWrite (ethWho p r) (s.rxDescAt p r + 4) (rxRecord f st)).2
  let s3 := (s2.put (R.ETH_Pp_Rr_RXPTR_HEAD p r) ((s.get (R.ETH_Pp_Rr_RXPTR_HEAD p r) + 1) % s.get (R.ETH_Pp_Rr_SIZE_RXSIZE p r))).setEth p
    { s2.ethPort p with waiting := (s2.ethPort p).waiting.upd [] r (· ++ [s.get (R.ETH_Pp_Rr_RXPTR_HEAD p r)]) }
  have stored : s.rxStore p r f t = s3.settleRing p r := by
    rw [State.rxDescAt] at desc read
    simp only [State.rxStore, en, beq_false_of_ne size, beq_false_of_ne posted, desc, read, buffer, wrote, Bool.not_true, Bool.or_self, Bool.false_eq_true, if_false]
    rfl
  have s1eq : s1 = (s.memWrite (ethWho p r) (leNat dsc) (if tagged f then f.take 12 ++ f.drop 16 else f)).2 := (congrArg Prod.snd wrote).symm
  have ports : s2.ethPort p = s.ethPort p := State.ethPort_of_eth
    ((State.memWrite_eth s1.fresh.2 _ _ _).trans (show s1.eth = s.eth from (congrArg State.eth s1eq).trans (State.memWrite_eth _ _ _ _))) p
  have ingress : s1.fresh.2.get (R.ETH_Pp_TSLAT_INGRESS p) = s.get (R.ETH_Pp_TSLAT_INGRESS p) := by
    have same : s1.rd (R.ETH_Pp_TSLAT p) = s.rd (R.ETH_Pp_TSLAT p) := by
      rw [s1eq]
      exact State.memWrite_rd _ _ _ _ (.inr (by simp only [R.ETH_Pp_TSLAT]; omega)) (by simp only [R.ETH_Pp_TSLAT]; omega)
    exact congrArg (fieldGet · (R.ETH_Pp_TSLAT_INGRESS p).lsb (R.ETH_Pp_TSLAT_INGRESS p).wid) same
  rw [stored]
  refine ⟨?_, ?_, st, ?_, ?_⟩
  · have apart := s3.settleRing_rd r hp (q := R.ETH_Pp_Rr_RXPTR p r) (.inr (by simp only [R.ETH_Pp_Rr_RXPTR]; omega))
      (by simp only [R.ETH_Pp_Rr_RXPTR, R.ETH_Pp_RXSUM]; omega)
    exact (congrArg (fieldGet · 16 12) apart).trans (State.get_put _ (R.ETH_Pp_Rr_RXPTR_HEAD p r) _ (Nat.le_of_ble_eq_true rfl))
  · rw [State.ethPort_of_eth (s3.settleRing_eth r hp) p, State.ethPort_setEth, if_pos rfl, ports]
  · have total : st + BitVec.ofNat 64 (32 + s.get (R.ETH_Pp_TSLAT_INGRESS p)) - t = BitVec.ofNat 64 (s1.fresh.1 % 65) := by
      simp only [st, ingress]
      generalize BitVec.ofNat 64 (32 + s.get (R.ETH_Pp_TSLAT_INGRESS p)) = x
      rw [BitVec.sub_add_cancel, BitVec.add_comm t, BitVec.add_sub_cancel]
    rw [total, BitVec.toNat_ofNat]
    omega
  · rw [s3.settleRing_mem r hp]
    have fresh : s1.fresh.2.memView = s1.memView := rfl
    show s2.mem = _
    exact State.mem_of_memView (State.memWrite_memView fresh _ _ _).2

/-- A frame that enters an empty buffer goes to its ring at once. -/
theorem State.ethEnter_empty {f : List Byte} (r : Nat) (t : Time) (empty : (s.ethPort p).buf = []) (short : f.length ≤ 262144) :
    ∃ y : Tab EthPort, y.get {} p = s.ethPort p ∧ (s.ethEnter p r f t).ethMove p = ({ s with eth := y } : State).rxStore p r f t := by
  have entered : s.ethEnter p r f t = s.setEth p { s.ethPort p with buf := [⟨r, f, t⟩] } := by
    rw [State.ethEnter, empty]
    exact if_neg (Nat.not_lt.2 short)
  rw [entered, State.ethMove, State.ethPort_setEth, if_pos rfl]
  refine ⟨(s.eth.set p { s.ethPort p with buf := [⟨r, f, t⟩] }).set p { s.ethPort p with buf := [] }, ?_, rfl⟩
  rw [Tab.get_set, if_pos rfl, ← empty]
theorem State.ethMove_buf {e : EthFrame} {es : List EthFrame} (hp : p < 2) (waits : (s.ethPort p).buf = e :: es) : ((s.ethMove p).ethPort p).buf = es := by
  simp only [State.ethMove, waits]
  rw [State.rxStore_buf hp, State.ethPort_setEth, if_pos rfl]
theorem foldl_lengths (l : List EthFrame) (n : Nat) : l.foldl (fun k e => k + e.bytes.length) n = (l.map fun e => e.bytes.length).sum + n := by
  induction l generalizing n with
  | nil => simp
  | cons e l ih => rw [List.foldl_cons, ih, List.map_cons, List.sum_cons]; omega
/-- A frame that enters a buffer in which others wait: the oldest goes to its ring. -/
theorem State.ethEnter_buf {f : List Byte} (hp : p < 2) (r : Nat) (t : Time) {e : EthFrame} {es : List EthFrame} (waits : (s.ethPort p).buf = e :: es) :
    (((s.ethEnter p r f t).ethMove p).ethPort p).buf =
      if (((s.ethPort p).buf.map fun e => e.bytes.length).sum) + f.length ≤ 262144 then es ++ [⟨r, f, t⟩] else es := by
  rw [State.ethEnter, foldl_lengths]
  split
  · next long =>
    rw [if_neg (Nat.not_le.2 long)]
    exact State.ethMove_buf hp waits
  · next fits =>
    rw [if_pos (Nat.not_lt.1 fits)]
    refine State.ethMove_buf (e := e) hp ?_
    rw [State.ethPort_setEth, if_pos rfl, waits]
    rfl
end

/-! ### Transmission (R363 to R366) -/

section
variable {s : State} {p : Nat}

/-- Ring `k` of port `p` has a descriptor posted for transmission. -/
def State.txPosts (s : State) (p k : Nat) : Bool := s.ethRing p k && s.on (R.ETH_Pp_Rr_CTRL_TX_EN p k) && s.get (R.ETH_Pp_Rr_SIZE_TXSIZE p k) != 0 &&
  s.get (R.ETH_Pp_Rr_TXPTR_HEAD p k) != s.get (R.ETH_Pp_Rr_TXPTR_TAIL p k)
/-- Ring `k` has its head frame, which some window fits, or has none and none posted. -/
def State.txSettled (s : State) (p k : Nat) : Prop :=
  ((s.ethPort p).heads.find? (fun e => e.1 == k) = none ∧ s.txPosts p k = false) ∨
    ∃ h, (s.ethPort p).heads.find? (fun e => e.1 == k) = some (k, h) ∧ s.noWindow p h = false
theorem State.txFill_settled {k : Nat} (n : Nat) (h : s.txSettled p k) : State.txFill n p k s = s := by
  cases n with
  | zero => rfl
  | succ n =>
    rcases h with ⟨none, idle⟩ | ⟨h, head, window⟩
    · rw [State.txFill, none]
      refine if_pos ?_
      simp only [State.txPosts, Bool.and_eq_false_iff, bne_eq_false_iff_eq] at idle
      simp only [Bool.or_eq_true, Bool.not_eq_true', beq_iff_eq]
      exact idle
    · rw [State.txFill, head]
      exact if_neg (by rw [window]; decide)
theorem State.each_id {α : Type} {l : List α} {f : α → State → State} (h : ∀ x ∈ l, f x s = s) : s.each l f = s := by
  induction l with
  | nil => rfl
  | cons x l ih => exact (congrArg (State.each · l f) (h x (.head _))).trans (ih fun y hy => h y (.tail _ hy))

/-- The frame that transmission selection takes (R366). -/
def State.txPick (s : State) (p : Nat) : Option (Nat × Nat × EthHead) :=
  (List.range 8).reverse.findSome? fun q =>
    match (s.ethPort p).nextRing q with
    | some r => match s.mayStart p q r with | some h => some (q, r, h) | none => none
    | none => none
theorem State.txSelect_settled (runs : s.ethRuns p true = true) (up : s.on (R.ETH_Pp_STATUS_LINK_UP p) = true) (idle : (s.ethPort p).wire = none)
    (settled : ∀ k, k < 9 → s.txSettled p k) : s.txSelect p = match s.txPick p with | some (q, r, h) => s.txBegin p q r h | none => s := by
  have filled : (s.each (List.range 9) fun r t => t.txFill 8192 p r) = s := State.each_id fun k hk => State.txFill_settled 8192 (settled k (List.mem_range.1 hk))
  rw [State.txSelect, idle]
  dsimp only
  rw [State.txSelect.go, runs, filled]
  simp only [Bool.not_true, Bool.false_eq_true, if_false, up]
  rfl
theorem State.txPick_none (h : ∀ k, k < 8 → (s.ethPort p).nextRing k = none) : s.txPick p = none := by
  refine List.findSome?_eq_none_iff.2 fun k hk => ?_
  rw [h k (List.mem_range.1 (List.mem_reverse.1 hk))]
theorem findSome?_reverse_range {β : Type} {f : Nat → Option β} {b : β} {q n : Nat} (hq : q < n) (found : f q = some b)
    (higher : ∀ k, q < k → k < n → f k = none) : (List.range n).reverse.findSome? f = some b := by
  induction n with
  | zero => omega
  | succ n ih =>
    rw [List.range_succ, List.reverse_append, List.reverse_singleton, List.singleton_append, List.findSome?_cons]
    rcases Nat.lt_succ_iff_lt_or_eq.1 hq with lt | rfl
    · rw [higher n lt (Nat.lt_succ_self n)]
      exact ih lt fun k h1 h2 => higher k h1 (Nat.lt_succ_of_lt h2)
    · rw [found]
theorem State.txPick_first {r : Nat} {h : EthHead} {q : Nat} (hq : q < 8) (next : (s.ethPort p).nextRing q = some r) (starts : s.mayStart p q r = some h)
    (higher : ∀ k, q < k → k < 8 → (s.ethPort p).nextRing k = none) : s.txPick p = some (q, r, h) :=
  findSome?_reverse_range hq (by rw [next]; simp only [starts]) fun k h1 h2 => by rw [higher k h1 h2]

/-- What a frame that starts shows on its port (R365, R370). -/
theorem State.txBegin_wire (q r : Nat) (h : EthHead) : ∃ y, ((s.txBegin p q r h).ethPort p).wire = some y ∧ y.ring = some r ∧ y.flags = h.flags ∧
    y.done = s.now + BitVec.ofNat 64 ((wireTime5 h.size + 4) / 5) ∧ (h.flags.testBit 1 = false → y.bytes = onWire h.frame) ∧
    ((s.txBegin p q r h).ethPort p).served.get 8 q = r ∧
    let lag := (y.stamp - s.now).toNat - s.get (R.ETH_Pp_TSLAT_EGRESS p)
    174 ≤ lag ∧ lag ≤ 236 := by
  have egress := s.get_lt (R.ETH_Pp_TSLAT_EGRESS p)
  have port : (s.txBegin p q r h).ethPort p = _ := (State.ethPort_setEth _ p p _).trans (if_pos rfl)
  rw [port]
  refine ⟨_, rfl, rfl, rfl, rfl, fun plain => ?_, Tab.get_set_same _ _ _ _, ?_⟩
  · exact congrArg onWire (if_neg (by rw [bit, plain]; decide))
  · have stamped : ((s.now + BitVec.ofNat 64 (205 - 31 + s.fresh.1 % 63 + s.fresh.2.get (R.ETH_Pp_TSLAT_EGRESS p))) - s.now).toNat =
        174 + s.fresh.1 % 63 + s.get (R.ETH_Pp_TSLAT_EGRESS p) := by
      rw [BitVec.add_comm, BitVec.add_sub_cancel, BitVec.toNat_ofNat]
      refine Nat.mod_eq_of_lt ?_
      have : s.fresh.2.get (R.ETH_Pp_TSLAT_EGRESS p) < 2 ^ 16 := egress
      omega
    have := Nat.mod_lt s.fresh.1 (show 0 < 63 by decide)
    refine ⟨?_, ?_⟩
    · exact Nat.le_sub_of_add_le (Nat.le_trans (by omega) (Nat.le_of_eq stamped.symm))
    · exact Nat.sub_le_of_le_add (Nat.le_trans (Nat.le_of_eq stamped) (by omega))

/-! #### The end of a frame -/

/-- The write-back of a transmit descriptor, as far as it reaches memory. -/
def State.txWriteBack (s : State) (p r status : Nat) (stamp : Option Time) : State :=
  let a := s.txDescAt p r
  let w := ethWho p r
  if s.reach w.req w.view false .write a 16 then
    let s := (s.memWrite w (a + 7) (leBytes 1 status)).2
    match stamp with | some t => (s.memWrite w (a + 8) (leBytes 8 t.toNat)).2 | none => s
  else s.refuse w.req w.view .write a 16
/-- The head of the ring advances, before its interrupt. -/
def State.txAdvance (s : State) (p r : Nat) : State :=
  let s := s.put (R.ETH_Pp_Rr_TXPTR_HEAD p r) ((s.get (R.ETH_Pp_Rr_TXPTR_HEAD p r) + 1) % s.get (R.ETH_Pp_Rr_SIZE_TXSIZE p r))
  s.setEth p { s.ethPort p with heads := (s.ethPort p).heads.drop (· == r) }
theorem State.txDone_eq (s : State) (p r flags status : Nat) (stamp : Option Time) : s.txDone p r flags status stamp =
    ((s.txWriteBack p r status stamp).txAdvance p r).when (bit flags 5) fun s => (s.raise (717 + 4 * p)).source r (2 * p + 1) := by
  cases stamp <;> rfl

theorem Blind.txWriteBack {β : Type} {g : State → β} {lo a : Nat} (b : Blind g lo a) (marks : ∀ (s : State) (x : Tab LineMark), g { s with marks := x } = g s)
    (flash : ∀ (s : State) (x y : Tab Nat), g { s with flash := { s.flash with corr := x, uncorr := y } } = g s)
    (free : ∀ (s : State) (x : Nat), g { s with free := x } = g s) (mem : ∀ (s : State) (x : List Host.Cell), g { s with mem := x } = g s)
    (hm : a ≤ 0x40280000 ∨ 0x40284000 ≤ lo) (he : a ≤ 0x40460000) (hf : a ≤ 0x40010000 ∨ 0x40011000 ≤ lo) (s : State) (p r status : Nat) (stamp : Option Time) :
    g (s.txWriteBack p r status stamp) = g s := by
  have wrote : ∀ (t : State) (w d bs), g (t.memWrite w d bs).2 = g t := fun t w d bs => b.memWrite marks flash hm (.inl he) free mem (.inl he) t w d bs
  unfold State.txWriteBack
  dsimp only
  split
  · cases stamp with
    | none => exact wrote ..
    | some t => exact (wrote ..).trans (wrote ..)
  · exact b.refuse s _ _ _ _ _ _ hm hf

theorem State.txDone_wire (r flags status : Nat) (stamp : Option Time) : ((s.txDone p r flags status stamp).ethPort p).wire = (s.ethPort p).wire := by
  have b : Blind (fun s => (s.ethPort p).wire) 0 0 := blind_field (fun _ _ _ => rfl) (fun _ _ _ => rfl) (fun _ _ => rfl)
  have back := b.txWriteBack (fun _ _ => rfl) (fun _ _ _ => rfl) (fun _ _ => rfl) (fun _ _ => rfl) (.inl (by decide)) (by decide) (.inl (by decide)) s p r status stamp
  have on : (((s.txWriteBack p r status stamp).txAdvance p r).ethPort p).wire = ((s.txWriteBack p r status stamp).ethPort p).wire := by
    rw [State.txAdvance, State.ethPort_setEth, if_pos rfl]
    rfl
  rw [State.txDone_eq]
  refine (State.when_keeps _ (fun s => (s.ethPort p).wire) _ ?_).trans (on.trans back)
  exact (Blind.source (g := fun s => (s.ethPort p).wire) (fun _ _ => rfl) _ _ _).trans (b.raise _ _ _ (by decide))
theorem State.txDone_rd (hp : p < 2) {r : Nat} (flags status : Nat) (stamp : Option Time) {q : Reg} (hm : q.OutsideMatrix) : (s.txDone p r flags status stamp).rd q = ((s.txWriteBack p r status stamp).txAdvance p r).rd q := by
  rw [State.txDone_eq]
  refine State.when_keeps _ (State.rd · q) _ ?_
  exact (Blind.source (g := (State.rd · q)) (fun _ _ => rfl) _ _ _).trans ((blind_rd q).raise_of _ _ (by omega) (by rcases hm with h | h <;> omega))
theorem State.txWriteBack_rd (r status : Nat) (stamp : Option Time) {q : Reg} (hm : q.OutsideMatrix) (he : q.addr < 0x40460000)
    (hf : q.addr < 0x40010000 ∨ 0x40011000 ≤ q.addr) : (s.txWriteBack p r status stamp).rd q = s.rd q :=
  (blind_rd q).txWriteBack (fun _ _ => rfl) (fun _ _ _ => rfl) (fun _ _ => rfl) (fun _ _ => rfl) (by rcases hm with h | h <;> omega) he
    (by rcases hf with h | h <;> omega) s p r status stamp

theorem State.txDone_head (hp : p < 2) {r : Nat} (hr : r < 9) (flags status : Nat) (stamp : Option Time) :
    (s.txDone p r flags status stamp).get (R.ETH_Pp_Rr_TXPTR_HEAD p r) =
      (s.get (R.ETH_Pp_Rr_TXPTR_HEAD p r) + 1) % s.get (R.ETH_Pp_Rr_SIZE_TXSIZE p r) % 4096 := by
  have place : ∀ x, 0x1000 ≤ x → x < 0x2000 → let q := 0x40380000 + x + 0x1000 * p + 0x40 * r
      (q < 0x40280000 ∨ 0x40284000 ≤ q) ∧ q < 0x40460000 ∧ (q < 0x40010000 ∨ 0x40011000 ≤ q) := fun x h1 h2 => by dsimp only; omega
  obtain ⟨m, e, f⟩ := place 0x1404 (by decide) (by decide)
  obtain ⟨m', e', f'⟩ := place 0x1410 (by decide) (by decide)
  have ptr := s.txWriteBack_rd (p := p) r status stamp (q := R.ETH_Pp_Rr_TXPTR p r) m e f
  have size := s.txWriteBack_rd (p := p) r status stamp (q := R.ETH_Pp_Rr_SIZE p r) m' e' f'
  refine (congrArg (fieldGet · 16 12) (State.txDone_rd hp flags status stamp (q := R.ETH_Pp_Rr_TXPTR p r) m)).trans ?_
  refine (State.get_put _ (R.ETH_Pp_Rr_TXPTR_HEAD p r) _ (Nat.le_of_ble_eq_true rfl)).trans ?_
  have ptr' : (s.txWriteBack p r status stamp).get (R.ETH_Pp_Rr_TXPTR_HEAD p r) = s.get (R.ETH_Pp_Rr_TXPTR_HEAD p r) := congrArg (fieldGet · 16 12) ptr
  have size' : (s.txWriteBack p r status stamp).get (R.ETH_Pp_Rr_SIZE_TXSIZE p r) = s.get (R.ETH_Pp_Rr_SIZE_TXSIZE p r) :=
    congrArg (fieldGet · (R.ETH_Pp_Rr_SIZE_TXSIZE p r).lsb (R.ETH_Pp_Rr_SIZE_TXSIZE p r).wid) size
  rw [ptr', size']
  rfl
theorem State.ethRuns_of_rd {t : State} (tx : Bool) (h : t.rd (R.CLK_Dd_STATUS (86 + 2 * p + tx.toNat)) = s.rd (R.CLK_Dd_STATUS (86 + 2 * p + tx.toNat))) :
    t.ethRuns p tx = s.ethRuns p tx :=
  congrArg (fun v => (ungated (86 + 2 * p + tx.toNat) || (fieldGet v (R.CLK_Dd_STATUS_RUNNING 0).lsb 1 != 0 && !(fieldGet v (R.CLK_Dd_STATUS_HANG_LIVE 0).lsb 1 != 0))) &&
    !(fieldGet v (R.CLK_Dd_STATUS_IN_RESET 0).lsb 1 != 0)) h

/-- The frame on the wire has ended, and the port does not go on (R363). -/
theorem State.txSelect_ended (hp : p < 2) {r : Nat} (hr : r < 9) {w : EthWire} (wire : (s.ethPort p).wire = some w) (ended : s.reached w.done = true)
    (ring : w.ring = some r) (stops : s.ethRuns p true = false) : ((s.txSelect p).ethPort p).wire = none ∧
      (s.txSelect p).get (R.ETH_Pp_Rr_TXPTR_HEAD p r) = (s.get (R.ETH_Pp_Rr_TXPTR_HEAD p r) + 1) % s.get (R.ETH_Pp_Rr_SIZE_TXSIZE p r) % 4096 := by
  let u := s.setEth p { s.ethPort p with wire := none }
  let stamp := if w.flags % 4 = 0 then none else some w.stamp
  have done : s.txEnd p = u.txDone p r w.flags 0 stamp := by
    rw [State.txEnd]
    simp only [wire, ring]
    rfl
  have clock : (R.CLK_Dd_STATUS (86 + 2 * p + 1)).OutsideMatrix := .inl (by simp only [R.CLK_Dd_STATUS]; omega)
  have runs : (u.txDone p r w.flags 0 stamp).ethRuns p true = false := by
    refine (State.ethRuns_of_rd true ((State.txDone_rd hp w.flags 0 stamp clock).trans ?_)).trans stops
    refine (State.rd_put_ne _ _ _ _ ?_).trans (State.txWriteBack_rd (s := u) (p := p) r 0 stamp clock ?_ ?_)
    all_goals simp only [R.CLK_Dd_STATUS, R.ETH_Pp_Rr_TXPTR_HEAD, R.ETH_Pp_Rr_TXPTR, ne_eq]; omega
  have final : s.txSelect p = u.txDone p r w.flags 0 stamp := by
    rw [State.txSelect, wire]
    simp only [ended, if_true, done, State.txSelect.go, runs, Bool.not_false]
  rw [final]
  exact ⟨(State.txDone_wire r w.flags 0 stamp).trans (congrArg EthPort.wire ((s.ethPort_setEth p p _).trans (if_pos rfl))), State.txDone_head hp hr w.flags 0 stamp⟩

/-! ### Tails, gate lists and the link (R361, R363, R367) -/

theorem State.rxPost_fields (hp : p < 2) {r : Nat} (hr : r < 9) (tail : BitVec 12) :
    (s.rxPost p r (tail.toNat % 4096)).get (R.ETH_Pp_Rr_RXPTR_TAIL p r) = tail.toNat ∧ ((s.rxPost p r (tail.toNat % 4096)).ethPort p).heads = (s.ethPort p).heads := by
  unfold State.rxPost
  extract_lets old size x gone
  refine ⟨?_, ?_⟩
  · have apart := State.settleRing_rd (s := ((s.put (R.ETH_Pp_Rr_RXPTR_TAIL p r) (tail.toNat % 4096)).setEth p
      { x with waiting := x.waiting.set r ((x.waiting.get [] r).filter fun i => !gone i) })) r hp (q := R.ETH_Pp_Rr_RXPTR p r)
      (.inr (by simp only [R.ETH_Pp_Rr_RXPTR]; omega)) (by simp only [R.ETH_Pp_Rr_RXPTR, R.ETH_Pp_RXSUM]; omega)
    refine (congrArg (fieldGet · 0 12) apart).trans ((State.get_put s (R.ETH_Pp_Rr_RXPTR_TAIL p r) _ (Nat.le_of_ble_eq_true rfl)).trans ?_)
    have := tail.isLt
    exact (Nat.mod_mod _ _).trans (Nat.mod_eq_of_lt this)
  · rw [State.ethPort_of_eth (State.settleRing_eth _ r hp), State.ethPort_setEth, if_pos rfl]
theorem ethPtrWrite_fields (hp : p < 2) {r : Nat} (hr : r < 9) (rx : Bool) (tail : BitVec 12) (ring : s.ethRing p r = true) :
    (ethPtrWrite p r rx tail.toNat s).get (if rx then R.ETH_Pp_Rr_RXPTR_TAIL p r else R.ETH_Pp_Rr_TXPTR_TAIL p r) = tail.toNat ∧
      ((ethPtrWrite p r rx tail.toNat s).ethPort p).heads = (s.ethPort p).heads := by
  rw [ethPtrWrite, ring]
  cases rx with
  | true => exact State.rxPost_fields hp hr tail
  | false => exact ⟨(State.get_put s (R.ETH_Pp_Rr_TXPTR_TAIL p r) _ (Nat.le_of_ble_eq_true rfl)).trans (Nat.mod_eq_of_lt tail.isLt), rfl⟩

theorem gclCtrlWrite_fields (p : Nat) (v : Word) : let t := gclCtrlWrite p v.toNat s
    t.on (R.ETH_Pp_GCL_CTRL_GCL_EN p) = v.getLsbD 0 ∧
      (s.on (R.ETH_Pp_GCL_CTRL_PENDING p) = true → t.get (R.ETH_Pp_GCL_CTRL_ADMIN_LEN p) = s.get (R.ETH_Pp_GCL_CTRL_ADMIN_LEN p) ∧ t.ethPort p = s.ethPort p) ∧
      (s.on (R.ETH_Pp_GCL_CTRL_PENDING p) = false → t.get (R.ETH_Pp_GCL_CTRL_ADMIN_LEN p) = v.toNat / 256 % 128 ∧
        t.on (R.ETH_Pp_GCL_CTRL_PENDING p) = v.getLsbD 1 ∧ (t.ethPort p).changed = if v.getLsbD 1 then some s.now else (s.ethPort p).changed) := by
  have low : (v.toNat % 2 != 0) = v.getLsbD 0 := by
    rw [BitVec.getLsbD, Nat.testBit_zero]
    rcases Nat.mod_two_eq_zero_or_one v.toNat with h | h <;> rw [h] <;> rfl
  have change : bit v.toNat 1 = v.getLsbD 1 := rfl
  have len : bitsOf v.toNat 8 7 % 2 ^ 7 = v.toNat / 256 % 128 := by simp only [bitsOf]; omega
  have port : ∀ (t : State) (x : EthPort), (t.setEth p x).ethPort p = x := fun t x => (t.ethPort_setEth p p x).trans (if_pos rfl)
  have eth : ∀ (t : State) (q : RF) (x : Nat), (t.put q x).ethPort p = t.ethPort p := fun _ _ _ => rfl
  have onEth : ∀ (t : State) (q : RF) (x : EthPort), (t.setEth p x).on q = t.on q := fun _ _ _ => rfl
  have getEth : ∀ (t : State) (q : RF) (x : EthPort), (t.setEth p x).get q = t.get q := fun _ _ _ => rfl
  intro t
  simp only [t, gclCtrlWrite, State.when, change]
  cases pend : s.on (R.ETH_Pp_GCL_CTRL_PENDING p) with
  | true =>
    simp (disch := exact ⟨rfl⟩) only [Bool.not_true, Bool.and_false, Bool.false_eq_true, if_false, State.on_put_self, State.get_put_beside, eth]
    exact ⟨low, fun _ => ⟨trivial, trivial⟩, fun h => absurd h (by decide)⟩
  | false =>
    refine ⟨?_, fun h => absurd h (by decide), fun _ => ?_⟩
    · cases v.getLsbD 1 <;>
        simp (disch := exact ⟨rfl⟩) only [Bool.not_false, Bool.and_true, Bool.false_eq_true, if_false, if_true, State.on_put_self, State.on_put_beside, onEth] <;>
        exact low
    · cases v.getLsbD 1 <;>
        simp (disch := exact ⟨rfl⟩) only [Bool.not_false, Bool.and_true, Bool.false_eq_true, if_false, if_true, State.on_put_self, State.on_put_beside,
          State.get_put_self, State.get_put_beside, onEth, getEth, port, eth, pend]
      · exact ⟨len, trivial, trivial⟩
      · exact ⟨len, rfl, rfl⟩
theorem State.ethLink_fields (p : Nat) (hp : p < 2) (lock hiBer : Bool) : let t := s.ethLink p lock hiBer
    let was := s.on (R.ETH_Pp_STATUS_LINK_UP p)
    t.on (R.ETH_Pp_STATUS_BLOCK_LOCK p) = lock ∧ t.on (R.ETH_Pp_STATUS_HI_BER p) = hiBer ∧
      t.on (R.ETH_Pp_STATUS_LINK_UP p) = (lock && !hiBer) ∧ t.on (R.ETH_Pp_STATUS_LINK_CHG p) = ((lock && !hiBer) != was || s.on (R.ETH_Pp_STATUS_LINK_CHG p)) ∧
      (t.ethPort p).wire = if was && !(lock && !hiBer) then none else (s.ethPort p).wire := by
  intro t was
  let u := ((s.putB (R.ETH_Pp_STATUS_BLOCK_LOCK p) lock).putB (R.ETH_Pp_STATUS_HI_BER p) hiBer).putB (R.ETH_Pp_STATUS_LINK_UP p) (lock && !hiBer)
  have block : u.on (R.ETH_Pp_STATUS_BLOCK_LOCK p) = lock := by simp (disch := exact ⟨rfl⟩) only [u, State.on_putB_self, State.on_putB_beside]
  have ber : u.on (R.ETH_Pp_STATUS_HI_BER p) = hiBer := by simp (disch := exact ⟨rfl⟩) only [u, State.on_putB_self, State.on_putB_beside]
  have up : u.on (R.ETH_Pp_STATUS_LINK_UP p) = (lock && !hiBer) := by simp (disch := exact ⟨rfl⟩) only [u, State.on_putB_self]
  have chg : u.on (R.ETH_Pp_STATUS_LINK_CHG p) = s.on (R.ETH_Pp_STATUS_LINK_CHG p) := by simp (disch := exact ⟨rfl⟩) only [u, State.on_putB_beside]
  by_cases same : (lock && !hiBer) = was
  · have stays : t = u := if_pos same
    rw [stays, block, ber, up, chg, same]
    refine ⟨rfl, rfl, rfl, ?_, ?_⟩
    · cases was <;> rfl
    · cases was <;> rfl
  · let w := u.when (!(lock && !hiBer)) fun s => s.setEth p { s.ethPort p with wire := none }
    have moves : t = (w.put (R.ETH_Pp_STATUS_LINK_CHG p) 1).raise (719 + 4 * p) := if_neg same
    have onEth : ∀ (v : State) (x : EthPort) (q : RF), (v.setEth p x).on q = v.on q := fun _ _ _ => rfl
    have fields : ∀ q : RF, w.on q = u.on q := fun q => State.when_keeps u (State.on · q) _ (onEth u _ q)
    have raised : ∀ q : RF, q.reg = R.ETH_Pp_STATUS p → t.on q = (w.put (R.ETH_Pp_STATUS_LINK_CHG p) 1).on q := fun q hq => by
      rw [moves]
      refine congrArg (fun v => fieldGet v q.lsb q.wid != 0) ?_
      rw [hq]
      exact State.rd_raise _ (.inr (by simp only [R.ETH_Pp_STATUS]; omega)) _ (by omega)
    have wire : (t.ethPort p).wire = (w.ethPort p).wire := by
      rw [moves]
      exact congrArg (fun e => (Tab.get {} e p : EthPort).wire) (blind_eth.raise (w.put (R.ETH_Pp_STATUS_LINK_CHG p) 1) _ 0 (by decide))
    rw [raised _ rfl, raised _ rfl, raised _ rfl, raised _ rfl, wire]
    simp (disch := exact ⟨rfl⟩) only [State.on_put_self, State.on_put_beside, fields, block, ber, up]
    have rises : (!(lock && !hiBer)) = was := by revert same; cases (lock && !hiBer) <;> cases was <;> decide
    refine ⟨trivial, trivial, trivial, ?_, ?_⟩
    · rw [← rises]
      cases (lock && !hiBer) <;> rfl
    · simp only [w, State.when, rises]
      cases was
      · rfl
      · exact congrArg EthPort.wire ((u.ethPort_setEth p p _).trans (if_pos rfl))
end

/-- Settles O53: reception, transmission selection, the rings' tails, the gate lists, the link and PTP time, each by what its effect leaves. -/
theorem ethernetCarriesFrames : Obligations.EthernetCarriesFrames := by
  unfold Obligations.EthernetCarriesFrames
  intro s q p r fr at0 dsc s1 h w0 rx lock hiBer tail v x f vid hears used good sized drops names size head a room w g posts ready settled admin was
  have ring : names → (if vid = 0 then some 8 else (List.range 8).find? fun k => s.ethVlan p k == vid) = some r.val := fun names => by
    rcases names with ⟨zero, rfl⟩ | ⟨tag, found⟩
    · exact if_pos zero
    · exact (if_neg tag).trans found
  have short : sized → f.length ≤ 262144 := fun hs => by
    have h1 : f.length ≤ fr.length := by simp only [f, List.length_take]; omega
    have h2 : fr.length ≤ 1522 := Nat.le_trans hs.2 (by split <;> decide)
    omega
  refine ⟨fun heard bad => ⟨_, congrArg Host.Outcome.next (State.ethReceive_wrong heard bad), State.dropped _ ⟨Nat.le_of_ble_eq_true rfl, rfl⟩⟩,
    fun heard ok size => ⟨_, congrArg Host.Outcome.next (State.ethReceive_unsized heard ok size), State.dropped _ ⟨Nat.le_of_ble_eq_true rfl, rfl⟩⟩,
    fun heard ok size tag none => ?_, fun heard ok size named refused => ?_, fun heard ok size named accepted => ?_, ?_, ?_, ?_, ?_, ?_, ?_, ?_, ?_, ?_, ?_, ?_, ?_⟩
  · have lost : ((List.range 8).find? fun k => s.ethVlan p k == vid) = Option.none :=
      List.find?_eq_none.2 fun k hk => by simpa using none k (List.mem_range.1 hk)
    refine ⟨s.incSat (R.ETH_Pp_DROPS_NOVLAN p), congrArg Host.Outcome.next ((State.ethReceive_sized heard ok size).trans ?_),
      State.dropped _ ⟨Nat.le_of_ble_eq_true rfl, rfl⟩⟩
    rw [show (if vlanOf f = 0 then some 8 else (List.range 8).find? fun k => s.ethVlan p k == vlanOf f) = Option.none from (if_neg tag).trans lost]
  · refine congrArg Host.Outcome.next ((State.ethReceive_sized heard ok size).trans ?_)
    rw [show (if vlanOf f = 0 then some 8 else (List.range 8).find? fun k => s.ethVlan p k == vlanOf f) = some r.val from ring named]
    exact if_neg (by rw [refused]; decide)
  · have entered : exec (.ethRxFrame p fr at0) s = .next ((s.ethEnter p r f at0).ethMove p) := by
      refine congrArg Host.Outcome.next ((State.ethReceive_sized heard ok size).trans ?_)
      rw [show (if vlanOf f = 0 then some 8 else (List.range 8).find? fun k => s.ethVlan p k == vlanOf f) = some r.val from ring named]
      exact if_pos accepted
    refine ⟨fun empty full => ?_, fun e es waits => ⟨_, entered, ?_⟩, fun empty hroom desc read buffer wrote => ?_⟩
    · obtain ⟨y, port, moved⟩ := State.ethEnter_empty r at0 empty (short size)
      obtain ⟨count, mem, same⟩ := State.dropped (s := { s with eth := y }) (p := p) (R.ETH_Pp_DROPS_FULL p) ⟨Nat.le_of_ble_eq_true rfl, rfl⟩
      exact ⟨_, entered.trans (congrArg Host.Outcome.next (moved.trans (State.rxStore_full (s := { s with eth := y }) full f at0))), count, mem, same.trans port⟩
    · exact (State.ethEnter_buf p.isLt r at0 waits).trans rfl
    · obtain ⟨y, port, moved⟩ := State.ethEnter_empty r at0 empty (short size)
      have pass := passes_eth y
      obtain ⟨head', waiting, st, near, mem⟩ := State.rxStore_stores (s := { s with eth := y }) (s1 := { s1 with eth := y }) (t := at0) p.isLt r.isLt hroom desc
        ((pass.memRead s w a 4).trans (by rw [read])) buffer ((pass.memWrite s w (leNat dsc) g).trans (by rw [wrote]))
      refine ⟨_, entered.trans (congrArg Host.Outcome.next moved), head', ?_, st, near, mem.trans ?_⟩
      · rw [waiting]
        exact (Tab.get_set_same _ _ _ _).trans (congrArg (fun z : EthPort => z.waiting.get [] r ++ [head]) port)
      · exact congrArg (fun z => z.2.mem) (pass.memWrite s1 w (a + 4) (rxRecord f st))
  · intro ⟨runs, up, idle, heads⟩ next hd higher window
    have starts : s.mayStart p h.queue r = some h := by
      rw [State.mayStart, show (s.ethPort p).heads.find? (fun e => e.1 == r.val) = some (r.val, h) from hd]
      rcases window with off | ⟨open0, opens, fits⟩
      · have never : s.gclOpen p h.queue = Option.none := if_pos (by rw [off]; rfl)
        rw [never]
      · rw [opens]
        exact if_pos fits
    have picks := State.txPick_first (p := p) (Nat.mod_lt _ (by decide)) next starts higher
    refine ⟨_, congrArg Host.Outcome.next ((State.txSelect_settled runs up idle heads).trans ?_), State.txBegin_wire h.queue r h⟩
    rw [picks]
    rfl
  · intro ⟨runs, up, idle, heads⟩ none
    refine ⟨s, congrArg Host.Outcome.next ((State.txSelect_settled runs up idle heads).trans ?_), idle⟩
    rw [State.txPick_none none]
  · intro wire going
    refine congrArg Host.Outcome.next ?_
    rw [State.txSelect, show (s.ethPort p).wire = some w0 from wire]
    exact if_neg (by rw [going]; decide)
  · exact fun wire ended ring stops => ⟨_, rfl, State.txSelect_ended p.isLt r.isLt wire ended ring stops⟩
  · refine fun acc => ⟨fun ring => ⟨_, regWrite_accepts _ acc, ethPtrWrite_fields p.isLt r.isLt rx tail ring⟩, fun none => ?_⟩
    exact (regWrite_accepts _ acc).trans (congrArg Host.Outcome.next (if_pos (by rw [none]; rfl)))
  · exact fun acc => ⟨_, regWrite_accepts _ acc, gclCtrlWrite_fields p v⟩
  · refine fun now => ⟨_, congrArg Host.Outcome.next (if_neg (by rw [now]; decide)), ?_, (State.ethPort_setEth _ p p _).trans (if_pos rfl)⟩
    exact State.on_put s (R.ETH_Pp_GCL_CTRL_PENDING p) 0 (Nat.le_of_ble_eq_true rfl)
  · exact fun early => congrArg Host.Outcome.next (if_pos (by rw [early]; rfl))
  · exact ⟨_, rfl, State.ethLink_fields p p.isLt lock hiBer⟩
  · exact fun acc => ⟨_, regWrite_accepts _ acc, State.rd_wr_same _ _ _⟩
  · refine fun acc => ⟨_, regWrite_accepts _ acc, ?_⟩
    rw [ptpOfsWrite, Nat.mod_eq_of_lt v.isLt]
  · exact fun acc => ⟨_, regWrite_accepts _ acc, rfl⟩
end Sys2Proof.Machine
end

section
/-!
PROOF. The event matrix (spec/13).
-/
namespace Sys2Proof.Machine

/-! ### Channels and lines (R314, R315) -/

section
variable (s : State)
theorem State.arrive_chan (c h d : Nat) : (s.arrive c h).chan d = if d = c then { s.chan c with arrived := (s.chan c).arrived ++ [h] } else s.chan d :=
  s.chan_setChan c d _
theorem State.each_arrive_chan {l : List Nat} (nodup : l.Nodup) (h d : Nat) : (s.each l fun c t => t.arrive c h).chan d =
    if d ∈ l then { s.chan d with arrived := (s.chan d).arrived ++ [h] } else s.chan d := by
  induction l generalizing s with
  | nil => rfl
  | cons c l ih =>
    obtain ⟨new, rest⟩ := List.nodup_cons.1 nodup
    refine (ih (s.arrive c h) rest).trans ?_
    rw [s.arrive_chan]
    by_cases e : d = c
    · subst e
      simp [new]
    · simp [e]
/-- An event that leaves a producer arrives at every joined channel once. -/
theorem State.leave_chan (p h : Nat) {d : Nat} (hd : d < 256) : (s.leave p h).chan d = { s.chan d with arrived := (s.chan d).arrived ++ if s.joined p d then [h] else [] } := by
  refine (State.each_arrive_chan _ (List.nodup_range.filter _) h d).trans ?_
  simp only [List.mem_filter, List.mem_range, hd, true_and]
  split
  · rfl
  · rw [List.append_nil]
    rfl
theorem State.leave_line (p h : Nat) : (s.leave p h).line p = ⟨some s.now, none⟩ :=
  (State.each_keeps _ (fun c t => t.arrive c h) (fun t => t.line p) (fun _ _ => rfl) _).trans (s.line_setLine_same p _)
end

theorem State.laneNo_lt (s : State) (b : Nat) (second : Bool) : s.laneNo b second < 16 := by
  cases second
  · exact s.get_lt (R.LNC_Bb_MAP_LANE_A b)
  · exact s.get_lt (R.LNC_Bb_MAP_LANE_B b)
theorem State.lanesOf_lt (s : State) {b n : Nat} (h : n ∈ s.lanesOf b) : n < 16 := by
  have a := s.laneNo_lt b false
  have b := s.laneNo_lt b true
  unfold State.lanesOf at h
  split at h
  · cases h
  · split at h
    · rcases List.mem_pair.1 h with rfl | rfl
      · exact a
      · exact b
    · rw [List.mem_singleton.1 h]
      exact a

theorem blind_pend (c : Nat) : Blind (fun s => (s.chan c).pend) 0 0 where
  wr _ _ _ _ := rfl
  heat _ _ _ := rfl
  line _ _ := rfl
  arrived s d l := by
    have chan := Tab.get_set ({} : Chan) s.evm.chans d c { s.chan d with arrived := l }
    refine (congrArg Chan.pend chan).trans ?_
    split
    · next e => rw [e]
    · rfl

namespace Blind
variable {β : Type} {g : State → β} {lo a : Nat} (b : Blind g lo a)
include b

theorem setLoop_of (s : State) {c : Nat} (hc : c < 256) (h : a ≤ 0x40280000 ∨ 0x40284000 ≤ lo) : g (s.setLoop c) = g s := by
  have off : a ≤ (R.EVM_Cc_STATUS c).addr ∨ (R.EVM_Cc_STATUS c).addr < lo := by simp only [R.EVM_Cc_STATUS]; omega
  unfold State.setLoop
  rw [State.apply_when g, b.raise_of _ _ (by decide) h, ite_self, b.put _ _ _ off]
/-- An emission on one of the matrix's lines, caused by an event of one of its channels, seen through a window on either side of its page. -/
theorem emit_of (s : State) {p : Nat} (hp : p < 1024) {c : Cause} (hc : ∀ x ∈ c, x.2 < 256) (h : a ≤ 0x40280000 ∨ 0x40284000 ≤ lo) : g (s.emit p c) = g s := by
  unfold State.emit
  split
  · exact b.raise_of s _ hp h
  · split
    · exact b.raise_of s _ hp h
    · exact b.setLoop_of s (hc _ rfl) h

/-! ### What takes events, beside its block's state (Table 13.4) -/

section
variable (port : ∀ (s : State) (x : Tab FsePort), g { s with fse := x } = g s)
theorem fseGate (s : State) (n : Nat) (h : a ≤ 0x40300000) : g (s.fseGate n) = g s :=
  b.putB s _ _ (.inl (Nat.le_trans h (Nat.le_add_right_of_le (by decide))))
include port
theorem setPort (s : State) (n : Nat) (x : FsePort) (h : a ≤ 0x40300000) : g (s.setPort n x) = g s := by
  unfold State.setPort
  simp (disch := refine .inl (Nat.le_trans h (Nat.le_add_right_of_le ?_)); decide) only [b.putB]
  exact port s _
theorem fpGo (s : State) (n : Nat) (c : Cause) (h : a ≤ 0x40300000) : g (s.fpGo n c) = g s := by
  unfold State.fpGo
  split
  · exact (b.fseGate _ n h).trans (b.setPort port s n _ h)
  · rfl
end

section
variable (fc : ∀ (s : State) (x : Tab FcChan), g { s with fc := x } = g s)
include fc
theorem setFch (s : State) (n : Nat) (x : FcChan) (h : a ≤ 0x40100000) : g (s.setFch n x) = g s := by
  unfold State.setFch
  rw [b.putB _ _ _ (.inl (Nat.le_trans h (Nat.le_add_right_of_le (by decide))))]
  exact fc s _
theorem fcSelect (s : State) (n : Nat) (h : a ≤ 0x40100000) : g (s.fcSelect n) = g s := by
  unfold State.fcSelect
  rw [State.apply_when g, b.put _ _ _ (.inl (Nat.le_trans h (Nat.le_add_right_of_le (by decide)))), ite_self]
  exact b.setFch fc s n _ h
theorem fcArm (s : State) (n : Nat) (fire : Bool) (h : a ≤ 0x40100000) : g (s.fcArm n fire) = g s := by
  unfold State.fcArm
  extract_lets x merged s1
  have e1 : g s1 = g s := b.setFch fc s n _ h
  split
  · rfl
  · split
    · exact (b.fcSelect fc s1 n h).trans e1
    · split
      · exact (b.setFch fc s1 n _ h).trans e1
      · exact (b.put _ _ _ (.inl (Nat.le_trans h (Nat.le_add_right_of_le (by decide))))).trans e1
end

section
variable (scan : ∀ (s : State) (x : Tab ScanConv), g { s with scan := x } = g s) (chans : ∀ (s : State) (x : Tab ScanChan), g { s with scanCh := x } = g s)
omit b in
include chans in
theorem scanTake (s : State) (n : Nat) : g (s.scanTake n) = g s := by
  unfold State.scanTake
  dsimp only
  split
  · exact chans s _
  · exact (chans _ _).trans (chans s _)
include scan chans
theorem roundStart (s : State) (k : Nat) (c : Cause) (h : a ≤ 0x40110000) : g (s.roundStart k c) = g s := by
  have off : ∀ x, 0x40110000 ≤ x → a ≤ x + 0x20 * k := fun x hx => by omega
  unfold State.roundStart
  extract_lets s1 slots s2 r s3 y s4
  have e1 : g s1 = g s := State.each_keeps _ _ g (fun i t => scanTake chans t _) s
  have e2 : g s2 = g s1 := b.put _ _ _ (.inl (off _ (by decide)))
  have e3 : g s3 = g s2 := s2.when_keeps g _ (b.put _ _ _ (.inl (off _ (by decide))))
  have e4 : g s4 = g s3 := scan s3 _
  exact (s4.when_keeps g _ (b.put _ _ _ (.inl (off _ (by decide))))).trans (e4.trans (e3.trans (e2.trans e1)))
theorem scanEvent (s : State) (k : Nat) (c : Cause) (h : a ≤ 0x40110000) : g (s.scanEvent k c) = g s := by
  unfold State.scanEvent
  extract_lets x again s1
  have e1 : g s1 = g s := scan s _
  split
  · exact (b.put _ _ _ (.inl (Nat.le_trans h (Nat.le_add_right_of_le (by decide))))).trans e1
  · split
    · exact (b.roundStart scan chans s1 k c h).trans e1
    · exact e1
end

theorem probe (pos : ∀ (s : State) (x : Tab Pos), g { s with pos := x } = g s) (s : State) (n : Nat) (fire : Bool) (t : Time) (c : Cause) (h : a ≤ 0x40240000) :
    g (s.probe n fire t c) = g s := by
  have off : ∀ x, 0x40240000 ≤ x → a ≤ x + 0x100 * n := fun x hx => by omega
  unfold State.probe
  extract_lets x one s1 v s2 s3 s4
  have e1 : g s1 = g s := pos s _
  have e2 : g s2 = g s1 := (b.putTime _ _ _ _ (.inl (off _ (by decide))) (.inl (off _ (by decide)))).trans (b.put _ _ _ (.inl (off _ (by decide))))
  have e3 : g s3 = g s2 := b.putTime _ _ _ _ (.inl (off _ (by decide))) (.inl (off _ (by decide)))
  have e4 : g s4 = g s3 := (b.put _ _ _ (.inl (off _ (by decide)))).trans (b.put _ _ _ (.inl (off _ (by decide))))
  split
  · split
    · rfl
    · exact b.put _ _ _ (.inl (off _ (by decide)))
  · refine (b.emit _ _ _ (by omega)).trans ((b.put _ _ _ (.inl (off _ (by decide)))).trans (e4.trans (e3.trans (e2.trans e1))))
theorem ethCapture (s : State) (p : Nat) (c : Cause) (h : a ≤ 0x40280000) : g (s.ethCapture p c) = g s := by
  have off : ∀ x, 0x40280000 ≤ x → a ≤ x + 0x1000 * p := fun x hx => by omega
  unfold State.ethCapture
  rw [b.emit _ _ _ h, b.put _ _ _ (.inl (off _ (by decide))), b.putTime _ _ _ _ (.inl (off _ (by decide))) (.inl (off _ (by decide)))]
omit b in
theorem gpioAct (gpio : ∀ (s : State) (x : Nat), g { s with gpioOut := x } = g s) (s : State) (k : Nat) : g (s.gpioAct k) = g s := by
  unfold State.gpioAct
  dsimp only
  split
  · exact gpio s _
  · exact gpio s _
  · exact gpio s _
  · rfl

/-! ### Triggers (R106, R111) -/

theorem portFault (s : State) {n : Nat} (hn : n < 4) (k : Nat) (hm : a ≤ 0x40280000 ∨ 0x40284000 ≤ lo) (hf : a ≤ 0x40300000 ∨ 0x40302000 ≤ lo) :
    g (s.portFault n ⟨R.FSE_Pn_STATUS n, k, 1⟩) = g s := by
  have off : a ≤ (R.FSE_Pn_STATUS n).addr ∨ (R.FSE_Pn_STATUS n).addr < lo := by simp only [R.FSE_Pn_STATUS]; omega
  unfold State.portFault
  rw [State.apply_when g, b.raise_of _ _ (by omega) hm, ite_self, b.put _ _ _ off]

section
variable {m : Nat} (bind : ∀ (s : State) (x : Bind), g (s.setBnd m x) = g s)
  (late : ∀ (s : State) (n : Nat), n < 16 → g (s.put (R.LNC_Ln_STATUS_LATE_START n) 1) = g s)
  (pend : ∀ (s : State) (n : Nat) (v : Bool), n < 16 → g (s.putB (R.LNC_Ln_STATUS_PENDING n) v) = g s)
  (status : a ≤ (R.LNC_Bb_STATUS m).addr ∨ (R.LNC_Bb_STATUS m).addr < lo) (counts : a ≤ (R.LNC_Bb_COUNTS m).addr ∨ (R.LNC_Bb_COUNTS m).addr < lo)
  (hm : a ≤ 0x40280000 ∨ 0x40284000 ≤ lo) (hf : a ≤ 0x40300000 ∨ 0x40302000 ≤ lo)
include status counts hm hf in
theorem overrun (s : State) : g (s.overrun m) = g s := by
  have lane : s.laneNo m false < 16 := s.get_lt (R.LNC_Bb_MAP_LANE_A m)
  have dropped : ∀ t : State, g (t.feedDropped m) = g t := fun t => by
    unfold State.feedDropped
    dsimp only
    split
    · exact b.portFault t (t.get_lt (R.LNC_Bb_MAP_FEEDER_PORT m)) _ hm hf
    · rfl
  unfold State.overrun
  rw [dropped, b.raise_of _ _ (by omega) hm, b.incSat _ _ counts, b.put _ _ _ status]
include pend status in
theorem bindStatus (s : State) : g (s.bindStatus m) = g s := by
  unfold State.bindStatus
  extract_lets s1 w s2
  have e1 : g s1 = g s := b.putB _ _ _ status
  have e2 : g s2 = g s1 := pend _ _ _ (s1.laneNo_lt m false)
  split
  · exact (pend _ _ _ (s2.laneNo_lt m true)).trans (e2.trans e1)
  · exact e2.trans e1
include bind late pend status counts hm hf
theorem trigger (s : State) (kind : Nat) (t : Time) (c : Cause) : g (s.trigger m kind t c) = g s := by
  unfold State.trigger
  split
  · rfl
  · extract_lets lanes merged y s1 x w s2 s3
    have e1 : g s1 = g s := bind s _
    have e2 : g s2 = g s1 := by
      simp only [s2]
      split
      · split
        · rfl
        · exact bind _ _
      · split
        · exact bind _ _
        · exact (b.overrun status counts hm hf _).trans (bind _ _)
    split
    · split
      · exact e1
      · exact (b.overrun status counts hm hf _).trans e1
    · exact (b.bindStatus pend status _).trans ((State.each_keeps_mem g (fun n hn u => late u n (s.lanesOf_lt (List.mem_filter.1 hn).1)) _).trans (e2.trans e1))
end
end Blind

/-! ### The trigger of an idle binding (R106, R111) -/

theorem State.ownerInReset_of_rd {s t : State} (h : ∀ p, p < 8 → t.rd (R.PART_Pn_STATE p) = s.rd (R.PART_Pn_STATE p)) (o : Nat) : t.ownerInReset o = s.ownerInReset o := by
  have state : ∀ p, p < 8 → t.partState p = s.partState p := fun p hp =>
    congrArg (fieldGet · (R.PART_Pn_STATE_STATE p).lsb (R.PART_Pn_STATE_STATE p).wid) (h p hp)
  unfold State.ownerInReset State.inPartReset
  split
  · rfl
  · split
    · next hp => rw [state o hp]
    · rfl

/-- What decides how binding `m` takes a trigger. -/
structure State.TriggersAlike (m : Nat) (s t : State) : Prop where
  bnd : t.bnd m = s.bnd m
  lane : t.lane = s.lane
  now : t.now = s.now
  own : t.own = s.own
  map : t.rd (R.LNC_Bb_MAP m) = s.rd (R.LNC_Bb_MAP m)
  halted (j : Nat) (hj : j < 16) : t.on (R.LNC_Ln_STATUS_HALTED j) = s.on (R.LNC_Ln_STATUS_HALTED j)
  part (p : Nat) (hp : p < 8) : t.rd (R.PART_Pn_STATE p) = s.rd (R.PART_Pn_STATE p)

section
variable {s t : State} {m : Nat}

theorem State.TriggersAlike.refl (m : Nat) (s : State) : State.TriggersAlike m s s := ⟨rfl, rfl, rfl, rfl, rfl, fun _ _ => rfl, fun _ _ => rfl⟩
theorem State.TriggersAlike.trans {u : State} (h : State.TriggersAlike m s t) (g : State.TriggersAlike m t u) : State.TriggersAlike m s u :=
  ⟨g.bnd.trans h.bnd, g.lane.trans h.lane, g.now.trans h.now, g.own.trans h.own, g.map.trans h.map, fun j hj => (g.halted j hj).trans (h.halted j hj),
    fun p hp => (g.part p hp).trans (h.part p hp)⟩
theorem State.on_halted_put (s : State) (n j k x : Nat) (hk : k < 4) : (s.put ⟨R.LNC_Ln_STATUS n, k, 1⟩ x).on (R.LNC_Ln_STATUS_HALTED j) = s.on (R.LNC_Ln_STATUS_HALTED j) := by
  by_cases e : j = n
  · subst e
    exact s.on_put_apart ⟨R.LNC_Ln_STATUS j, k, 1⟩ (R.LNC_Ln_STATUS_HALTED j) x rfl (.inl (by simp only [R.LNC_Ln_STATUS_HALTED]; omega))
  · exact s.on_put_ne ⟨R.LNC_Ln_STATUS n, k, 1⟩ (R.LNC_Ln_STATUS_HALTED j) x (by simp only [R.LNC_Ln_STATUS_HALTED, R.LNC_Ln_STATUS]; omega)

/-- The trigger of another binding. -/
theorem State.trigger_alike {b : Nat} (other : b ≠ m) (hm : m < 64) (s : State) (kind : Nat) (at_ : Time) (c : Cause) :
    State.TriggersAlike m s (s.trigger b kind at_ c) := by
  have fields : Blind (fun s => (s.bnd m, s.lane, s.now, s.own)) 0 0 := blind_field (fun _ _ _ => rfl) (fun _ _ _ => rfl) (fun _ _ => rfl)
  have same := fields.trigger (m := b) (fun s x => by simp only [State.bnd_setBnd, if_neg other.symm]; rfl) (fun _ _ _ => rfl) (fun _ _ _ _ => rfl)
    (.inl (Nat.zero_le _)) (.inl (Nat.zero_le _)) (.inl (by decide)) (.inl (by decide)) s kind at_ c
  have reg : ∀ r : Reg, (r.addr < 0x40140000 ∨ 0x40151000 ≤ r.addr ∧ r.addr < 0x40152000) → r.addr ≠ (R.LNC_Bb_STATUS b).addr → r.addr ≠ (R.LNC_Bb_COUNTS b).addr →
      (s.trigger b kind at_ c).rd r = s.rd r := fun r page ne1 ne2 => by
    have lanes : ∀ n < 16, r.addr ≠ (R.LNC_Ln_STATUS n).addr := fun n hn => by simp only [R.LNC_Ln_STATUS]; omega
    exact (blind_rd r).trigger (m := b) (fun _ _ => rfl) (fun s n hn => State.rd_put_ne s _ r _ (lanes n hn)) (fun s n v hn => State.rd_put_ne s _ r _ (lanes n hn))
      (by omega) (by omega) (.inl (by omega)) (.inl (by omega)) s kind at_ c
  have halted : ∀ j, Blind (State.on · (R.LNC_Ln_STATUS_HALTED j)) (0x40140000 + 0x1000 * j) (0x40140000 + 0x1000 * j + 1) := fun j =>
    { wr := fun s r v h => congrArg (· != 0) (State.get_wr_ne s r _ v (by simp only [R.LNC_Ln_STATUS_HALTED, R.LNC_Ln_STATUS]; omega))
      heat := fun s r m => congrArg (fun v => fieldGet v 4 1 != 0) (State.rd_heat s r (R.LNC_Ln_STATUS j) m)
      line := fun _ _ => rfl
      arrived := fun _ _ _ => rfl }
  refine ⟨congrArg (·.1) same, congrArg (·.2.1) same, congrArg (·.2.2.1) same, congrArg (·.2.2.2) same, reg _ ?_ ?_ ?_, fun j hj => ?_, fun p hp => reg _ ?_ ?_ ?_⟩
  case refine_4 =>
    exact (halted j).trigger (m := b) (fun _ _ => rfl) (fun s n _ => s.on_halted_put n j 2 1 (by decide)) (fun s n v _ => s.on_halted_put n j 1 _ (by decide))
      (by simp only [R.LNC_Bb_STATUS]; omega) (by simp only [R.LNC_Bb_COUNTS]; omega) (.inl (by omega)) (.inl (by omega)) s kind at_ c
  all_goals simp only [R.LNC_Bb_MAP, R.LNC_Bb_STATUS, R.LNC_Bb_COUNTS, R.PART_Pn_STATE]; omega

/-- Binding `m` waits for a trigger: its lanes are idle, and none waits. -/
structure State.Idle (s : State) (m : Nat) : Prop where
  bound : s.bound m = true
  owner : s.ownerInReset (s.bindingOwner m) = false
  wait : (s.bnd m).wait = none
  lanes (j : Nat) (hj : j ∈ s.lanesOf m) : (s.laneOf j).act = none ∧ s.on (R.LNC_Ln_STATUS_HALTED j) = false

theorem State.TriggersAlike.fields (h : State.TriggersAlike m s t) :
    t.bound m = s.bound m ∧ t.bindingOwner m = s.bindingOwner m ∧ t.lanesOf m = s.lanesOf m ∧ t.compared m = s.compared m ∧
      t.get (R.LNC_Bb_MAP_TRIG_KIND m) = s.get (R.LNC_Bb_MAP_TRIG_KIND m) ∧ ∀ k, t.mergedTrig m k = s.mergedTrig m k := by
  have field : ∀ l w, fieldGet (t.rd (R.LNC_Bb_MAP m)) l w = fieldGet (s.rd (R.LNC_Bb_MAP m)) l w := fun l w => congrArg (fieldGet · l w) h.map
  have bound : t.bound m = s.bound m := congrArg (· != 0) (field 31 1)
  have compared : t.compared m = s.compared m := congrArg (· != 0) (field 25 1)
  have lane : t.laneNo m = s.laneNo m := funext fun
    | true => field 4 4
    | false => field 0 4
  have owner : ∀ n, t.owner 1 n = s.owner 1 n := fun n => by simp only [State.owner, h.own]
  have laneA : t.get (R.LNC_Bb_MAP_LANE_A m) = s.get (R.LNC_Bb_MAP_LANE_A m) := field 0 4
  refine ⟨bound, ?_, ?_, compared, field 13 3, fun k => ?_⟩
  · rw [State.bindingOwner, bound, laneA, owner, State.bindingOwner]
  · rw [State.lanesOf, bound, compared, lane, State.lanesOf]
  · simp only [State.mergedTrig, h.bnd, State.sameCycle, h.now]
theorem State.Idle.alike (idle : s.Idle m) (h : State.TriggersAlike m s t) : t.Idle m := by
  obtain ⟨bound, owner, lanes, -⟩ := h.fields
  refine ⟨bound.trans idle.bound, ?_, (congrArg Bind.wait h.bnd).trans idle.wait, fun j hj => ?_⟩
  · rw [owner, State.ownerInReset_of_rd h.part, idle.owner]
  · rw [lanes] at hj
    obtain ⟨act, run⟩ := idle.lanes j hj
    exact ⟨by rw [State.laneOf, h.lane]; exact act, (h.halted j (s.lanesOf_lt hj)).trans run⟩

theorem State.bindStatus_bind (m : Nat) : (s.bindStatus m).bind = s.bind :=
  Blind.bindStatus (blind_field (g := State.bind) (fun _ _ _ => rfl) (fun _ _ _ => rfl) (fun _ _ => rfl)) (fun _ _ _ _ => rfl) (.inl (Nat.zero_le _)) s
/-- A trigger of an idle binding waits (R106). -/
theorem State.trigger_idle (idle : s.Idle m) (kind : Nat) (at_ : Time) (c : Cause) (single : s.mergedTrig m kind = false) :
    ((s.trigger m kind at_ c).bnd m).wait = some ⟨at_, kind, c, s.now, true, s.compared m, none⟩ := by
  obtain ⟨bound, owner, wait, lanes⟩ := idle
  have resting : ((s.lanesOf m).any fun n => (s.laneOf n).act.isSome || s.on (R.LNC_Ln_STATUS_HALTED n)) = false := by
    rw [List.any_eq_false]
    intro j hj
    obtain ⟨act, run⟩ := lanes j hj
    rw [act, run]
    decide
  let s1 := s.setBnd m { s.bnd m with trig := some (s.now, kind == 4) }
  let s2 := s1.setBnd m { s1.bnd m with wait := some ⟨at_, kind, c, s.now, true, s.compared m, none⟩ }
  have none1 : (s1.bnd m).wait = none := (congrArg Bind.wait (s.bnd_setBnd_same m _)).trans wait
  have final : s.trigger m kind at_ c = (s2.each ((s.lanesOf m).filter fun n => !s2.running n) fun n t => t.put (R.LNC_Ln_STATUS_LATE_START n) 1).bindStatus m := by
    rw [State.trigger, if_neg (by rw [bound, owner]; decide)]
    simp only [single, Bool.false_eq_true, if_false]
    rw [if_neg (by rw [Bool.not_eq_true]; exact resting), none1]
    rfl
  have kept : (s.trigger m kind at_ c).bind = s2.bind := by
    rw [final, State.bindStatus_bind]
    exact State.each_keeps _ (fun n t => t.put (R.LNC_Ln_STATUS_LATE_START n) 1) State.bind (fun _ _ => rfl) s2
  rw [State.bnd, kept]
  exact congrArg Bind.wait (s1.bnd_setBnd_same m _)

/-- One element of a list has its effect once; what the others' steps keep holds before it, and what they keep of its effect after. -/
theorem State.each_once {α : Type} {l : List α} {f : α → State → State} {inv goal : State → Prop} {x : α} (nodup : l.Nodup) (mem : x ∈ l)
    (before : ∀ y, y ≠ x → ∀ t, inv t → inv (f y t)) (after : ∀ y, y ≠ x → ∀ t, goal t → goal (f y t)) (hx : ∀ t, inv t → goal (f x t)) {s : State} (start : inv s) :
    goal (s.each l f) := by
  have keep : ∀ (l : List α) (t : State), x ∉ l → goal t → goal (t.each l f) := fun l => by
    induction l with
    | nil => exact fun _ _ h => h
    | cons y l ih => exact fun t new h => ih _ (fun h => new (.tail _ h)) (after y (fun e => new (e ▸ .head _)) t h)
  induction l generalizing s with
  | nil => cases mem
  | cons y l ih =>
    obtain ⟨new, rest⟩ := List.nodup_cons.1 nodup
    cases mem with
    | head => exact keep l _ new (hx s start)
    | tail _ mem => exact ih rest mem (before y (fun e => new (e ▸ mem)) s start)

/-- An event at the triggers of lane inputs reaches every idle binding that takes it (R106). -/
theorem State.triggerAll_idle (hm : m < 64) (idle : s.Idle m) {f : Nat → Nat → Nat → Bool}
    (takes : f (s.get (R.LNC_Bb_MAP_TRIG_KIND m)) (s.get (R.LNC_Bb_MAP_TRIG_SRC m)) (s.laneNo m false) = true) (at_ : Time) (c : Cause)
    (single : s.mergedTrig m (s.get (R.LNC_Bb_MAP_TRIG_KIND m)) = false) :
    ((s.triggerAll f at_ c).bnd m).wait = some ⟨at_, s.get (R.LNC_Bb_MAP_TRIG_KIND m), c, s.now, true, s.compared m, none⟩ := by
  refine State.each_once (inv := State.TriggersAlike m s)
    (goal := fun t => (t.bnd m).wait = some ⟨at_, s.get (R.LNC_Bb_MAP_TRIG_KIND m), c, s.now, true, s.compared m, none⟩) (List.nodup_range.filter _)
    (List.mem_filter.2 ⟨List.mem_range.2 hm, by rw [idle.bound, takes]; rfl⟩) (fun b other t alike => ?_) (fun b other t waits => ?_) (fun t alike => ?_)
    (.refl m s)
  · exact alike.trans (State.trigger_alike other hm t _ at_ c)
  · exact (congrArg Bind.wait (State.trigger_alike other hm t _ at_ c).bnd).trans waits
  · obtain ⟨-, -, -, compared, kind, merged⟩ := alike.fields
    rw [kind, State.trigger_idle (idle.alike alike) _ at_ c ((merged _).trans single), alike.now, compared]
end

/-! ### Consumer inputs (Table 13.4) -/

/-- What the event of channel `c` does at consumer input `i`, where it is neither held in reset nor without a clock. -/
def State.reaches (s : State) (i c : Nat) (cause : Cause) : State :=
  if i < 0x0900 then s.handEvent c fun s => s.setPend (i / 256) (i % 256) true
  else if i < 0x0909 then s.handEvent c fun s => s.put (R.CPS_NMI_PEND (i - 0x0900)) 1
  else if i < 0x0A00 then s
  else if i < 0x0A10 then s.takeBy c fun s => s.triggerAll (fun kind _ a => kind == 3 && a == i - 0x0A00) s.now cause
  else if i < 0x0A28 then s.takeBy c fun s => s.when (s.on (R.FCV_CHn_TRIG_EVT_EN (i - 0x0A10))) fun s => s.fcArm (i - 0x0A10) false
  else if i < 0x0A2C then s.takeBy c fun s => s.scanEvent (i - 0x0A28) cause
  else if i < 0x0A30 then s
  else if i < 0x0A50 then s.takeBy c fun s => s.tripEvent (i - 0x0A30) cause
  else if i < 0x0A60 then s.takeBy c fun s =>
    s.when (s.get (R.POS_Pn_CFG_PRB_SRC (i - 0x0A50)) == 3) fun s => s.probe (i - 0x0A50) false s.now cause
  else if i < 0x0A80 then s.handEvent c fun s => s.dmaRequest (i - 0x0A60) cause
  else if i < 0x0A84 then s.takeBy c fun s => s.fpGo (i - 0x0A80) cause
  else if i < 0x0A88 then s
  else if i < 0x0A8A then s.takeBy c fun s => s.ethCapture (i - 0x0A88) cause
  else if i < 0x0A90 then s
  else if i < 0x0AA0 then s.takeBy c fun s => s.gpioAct (i - 0x0A90)
  else s

/-- Channel `c` selects input `i`, whose consumer runs, and the event with hop count `h` is the first that waits there. -/
structure State.Given (s : State) (i c h : Nat) (rest : List Nat) : Prop where
  selects : s.channelOf i = some c
  pend : (s.chan c).pend = h :: rest
  free : s.inputInReset i = false
  runs : s.running (inputDomain i) = true

section
variable {s : State} {i c h : Nat} {rest : List Nat}

theorem State.consume_given (g : s.Given i c h rest) : s.consume i c = s.reaches i c (some (h, c)) := by
  simp only [State.consume, g.pend, g.free, g.runs, Bool.false_eq_true, if_false, Bool.not_true]
  rfl
theorem State.eventAt_given (g : s.Given i c h rest) : s.eventAt i = s.reaches i c (some (h, c)) := by
  rw [State.eventAt, g.selects]
  exact State.consume_given g
theorem State.Given.channel (g : s.Given i c h rest) : c < 256 ∧ s.on (R.EVM_Cc_CONS_VALID c) = true ∧ s.get (R.EVM_Cc_CONS_INPUT c) = i := by
  have found := List.find?_some g.selects
  simp only [Bool.and_eq_true, beq_iff_eq] at found
  exact ⟨List.mem_range.1 (List.mem_of_find?_eq_some g.selects), found⟩

theorem State.takeEvent_chan (s : State) (c : Nat) : (s.takeEvent c).chan c = { s.chan c with pend := (s.chan c).pend.tail, handed := false } := s.chan_setChan_same c _
/-- The event is taken, where its consumer's effect leaves what waits at the channel. -/
theorem State.takeBy_pend (g : s.Given i c h rest) {f : State → State} (keeps : ∀ t, ((f t).chan c).pend = (t.chan c).pend) : ((s.takeBy c f).chan c).pend = rest := by
  refine (keeps _).trans ?_
  rw [s.takeEvent_chan, g.pend]
  rfl
theorem State.handEvent_fresh (c : Nat) (f : State → State) (new : (s.chan c).handed = false) : s.handEvent c f = f (s.setChan c { s.chan c with handed := true }) :=
  if_neg (by rw [new]; decide)
end

section
variable (s : State) (c : Nat) (cause : Cause)
theorem State.reaches_irq (core : Fin 9) (irq : Fin 256) : s.reaches (256 * core + irq) c cause = s.handEvent c fun s => s.setPend core irq true := by
  have div : (256 * core.val + irq.val) / 256 = core := by omega
  have mod : (256 * core.val + irq.val) % 256 = irq := by omega
  rw [State.reaches, if_pos (by omega), div, mod]
theorem State.reaches_nmi (core : Fin 9) : s.reaches (0x0900 + core) c cause = s.handEvent c fun s => s.put (R.CPS_NMI_PEND core) 1 := by
  simp (disch := omega) only [State.reaches, if_neg, if_pos, Nat.add_sub_cancel_left]
theorem State.reaches_lane (n : Fin 16) : s.reaches (0x0A00 + n) c cause = s.takeBy c fun s => s.triggerAll (fun kind _ a => kind == 3 && a == n.val) s.now cause := by
  simp (disch := omega) only [State.reaches, if_neg, if_pos, Nat.add_sub_cancel_left]
theorem State.reaches_fc (n : Fin 24) : s.reaches (0x0A10 + n) c cause =
    s.takeBy c fun s => s.when (s.on (R.FCV_CHn_TRIG_EVT_EN n)) fun s => s.fcArm n false := by
  simp (disch := omega) only [State.reaches, if_neg, if_pos, Nat.add_sub_cancel_left]
theorem State.reaches_scan (k : Fin 4) : s.reaches (0x0A28 + k) c cause = s.takeBy c fun s => s.scanEvent k cause := by
  simp (disch := omega) only [State.reaches, if_neg, if_pos, Nat.add_sub_cancel_left]
theorem State.reaches_trip (n : Fin 32) : s.reaches (0x0A30 + n) c cause = s.takeBy c fun s => s.tripEvent n cause := by
  simp (disch := omega) only [State.reaches, if_neg, if_pos, Nat.add_sub_cancel_left]
theorem State.reaches_probe (n : Fin 16) : s.reaches (0x0A50 + n) c cause =
    s.takeBy c fun s => s.when (s.get (R.POS_Pn_CFG_PRB_SRC n) == 3) fun s => s.probe n false s.now cause := by
  simp (disch := omega) only [State.reaches, if_neg, if_pos, Nat.add_sub_cancel_left]
theorem State.reaches_dma (n : Fin 32) : s.reaches (0x0A60 + n) c cause = s.handEvent c fun s => s.dmaRequest n cause := by
  simp (disch := omega) only [State.reaches, if_neg, if_pos, Nat.add_sub_cancel_left]
theorem State.reaches_go (n : Fin 4) : s.reaches (0x0A80 + n) c cause = s.takeBy c fun s => s.fpGo n cause := by
  simp (disch := omega) only [State.reaches, if_neg, if_pos, Nat.add_sub_cancel_left]
theorem State.reaches_capture (p : Fin 2) : s.reaches (0x0A88 + p) c cause = s.takeBy c fun s => s.ethCapture p cause := by
  simp (disch := omega) only [State.reaches, if_neg, if_pos, Nat.add_sub_cancel_left]
theorem State.reaches_gpio (k : Fin 16) : s.reaches (0x0A90 + k) c cause = s.takeBy c fun s => s.gpioAct k := by
  simp (disch := omega) only [State.reaches, if_neg, if_pos, Nat.add_sub_cancel_left]
end

/-! ### The channel stage (R315 to R317) -/

theorem find?_congr_mem {α : Type} {l : List α} {f g : α → Bool} (h : ∀ x ∈ l, f x = g x) : l.find? f = l.find? g := by
  induction l with
  | nil => rfl
  | cons x l ih => rw [List.find?_cons, List.find?_cons, h x (.head _), ih fun y hy => h y (.tail _ hy)]

theorem ite_lt {c : Prop} [Decidable c] {x y n : Nat} (hx : c → x < n) (hy : ¬c → y < n) : (if c then x else y) < n := by
  split
  case isTrue h => exact hx h
  case isFalse h => exact hy h
theorem inputDomain_lt (i : Nat) : inputDomain i < 104 := by
  unfold inputDomain
  iterate 12 refine ite_lt (fun _ => by omega) fun _ => ?_
  decide

/-- The registers of the pages below the event matrix, and the owners of the structure, are those of `s`. -/
structure State.LowAlike (s t : State) : Prop where
  rd (r : Reg) (h : r.addr < 0x40280000) : t.rd r = s.rd r
  own : t.own = s.own

section
variable {s t : State} (h : State.LowAlike s t)
include h
theorem State.LowAlike.get {q : RF} (low : q.reg.addr < 0x40280000) : t.get q = s.get q := congrArg (fieldGet · q.lsb q.wid) (h.rd q.reg low)
theorem State.LowAlike.on {q : RF} (low : q.reg.addr < 0x40280000) : t.on q = s.on q := congrArg (· != 0) (h.get low)
theorem State.LowAlike.bitOn {q : RF} (k : Nat) (low : q.reg.addr < 0x40280000) : t.bitOn q k = s.bitOn q k := congrArg (bit · k) (h.get low)
theorem State.LowAlike.partWith {f g : Nat → Bool} (same : ∀ p < 8, f p = g p) : t.partWith f = s.partWith g := by
  refine find?_congr_mem fun p hp => ?_
  have := List.mem_range.1 hp
  rw [h.on (q := R.PART_Pn_CFG_PRESENT p) (by simp only [R.PART_Pn_CFG_PRESENT, R.PART_Pn_CFG]; omega), same p this]
theorem State.LowAlike.coreOwner (c : Nat) : t.coreOwner c = s.coreOwner c := by
  unfold State.coreOwner
  rw [h.partWith fun p hp => h.bitOn (q := R.PART_Pn_CFG_CORES p) c (by simp only [R.PART_Pn_CFG_CORES, R.PART_Pn_CFG]; omega)]
theorem State.LowAlike.dmaOwner (c : Nat) : t.dmaOwner c = s.dmaOwner c := by
  unfold State.dmaOwner
  rw [h.partWith fun p hp => h.bitOn (q := R.PART_Pn_DMA_CHANNELS p) c (by simp only [R.PART_Pn_DMA_CHANNELS, R.PART_Pn_DMA]; omega)]
theorem State.LowAlike.owner (k n : Nat) : t.owner k n = s.owner k n := by simp only [State.owner, h.own]
theorem State.LowAlike.inputOwner (i : Nat) : t.inputOwner i = s.inputOwner i := by simp only [State.inputOwner, h.coreOwner, h.dmaOwner, h.owner]
theorem State.LowAlike.ownerInReset (o : Nat) : t.ownerInReset o = s.ownerInReset o :=
  State.ownerInReset_of_rd (fun p hp => h.rd _ (by simp only [R.PART_Pn_STATE]; omega)) o
theorem State.LowAlike.clock {d : Nat} (hd : d < 104) : t.running d = s.running d ∧ t.domReset d = s.domReset d := by
  have field : ∀ k w, t.on ⟨R.CLK_Dd_STATUS d, k, w⟩ = s.on ⟨R.CLK_Dd_STATUS d, k, w⟩ := fun k w => h.on (by simp only [R.CLK_Dd_STATUS]; omega)
  refine ⟨?_, field _ 1⟩
  unfold State.running State.gateOpen
  rw [show t.on (R.CLK_Dd_STATUS_RUNNING d) = _ from field _ 1, show t.on (R.CLK_Dd_STATUS_HANG_LIVE d) = _ from field _ 1]
  rfl
theorem State.LowAlike.inputInReset (i : Nat) : t.inputInReset i = s.inputInReset i := by
  have trailing : t.trailing i = s.trailing i := by
    have bound : (if i < 0x0800 then i / 0x100 else if 0x0900 ≤ i ∧ i < 0x0908 then i - 0x0900 else 8) / 2 < 5 := by split_ifs <;> omega
    unfold State.trailing State.lockstep
    dsimp only
    rw [h.on (q := R.SUP_PAIRk_STATUS_LOCKSTEP _) (by simp only [R.SUP_PAIRk_STATUS_LOCKSTEP, R.SUP_PAIRk_STATUS]; omega)]
  rw [State.inputInReset, h.inputOwner, h.ownerInReset, (h.clock (inputDomain_lt i)).2, trailing, State.inputInReset]
end

section
variable {s : State}
theorem chan_high (c : Nat) : 0x40280000 ≤ (R.EVM_Cc_STATUS c).addr := by simp only [R.EVM_Cc_STATUS]; omega
theorem State.LowAlike.of_put (q : RF) (x : Nat) (high : 0x40280000 ≤ q.reg.addr) : State.LowAlike s (s.put q x) :=
  ⟨fun r h => State.rd_put_ne s q r x (by omega), rfl⟩
theorem State.LowAlike.trans {t u : State} (h : State.LowAlike s t) (g : State.LowAlike t u) : State.LowAlike s u :=
  ⟨fun r low => (g.rd r low).trans (h.rd r low), g.own.trans h.own⟩
theorem State.LowAlike.when (b : Bool) {f : State → State} (h : State.LowAlike s (f s)) : State.LowAlike s (s.when b f) := by
  cases b
  · exact ⟨fun _ _ => rfl, rfl⟩
  · exact h
/-- A channel that changes moves PENDING and ARMED of its status. -/
theorem State.setChan_eq (s : State) (c : Nat) (x : Chan) : s.setChan c x =
    (({ s with evm := { s.evm with chans := s.evm.chans.set c x } } : State).putB (R.EVM_Cc_STATUS_PENDING c) (!x.pend.isEmpty)).putB
      (R.EVM_Cc_STATUS_ARMED c) x.timed.isSome := rfl
theorem State.LowAlike.of_setChan (c : Nat) (x : Chan) : State.LowAlike s (s.setChan c x) := by
  have high := chan_high c
  let u : State := { s with evm := { s.evm with chans := s.evm.chans.set c x } }
  have listed : State.LowAlike s u := ⟨fun _ _ => rfl, rfl⟩
  rw [s.setChan_eq]
  exact (listed.trans (.of_put (R.EVM_Cc_STATUS_PENDING c) _ high)).trans (.of_put (R.EVM_Cc_STATUS_ARMED c) _ high)
theorem State.on_setChan (c : Nat) (x : Chan) {k : Nat} (h : k < 2 ∨ 3 < k) : (s.setChan c x).on ⟨R.EVM_Cc_STATUS c, k, 1⟩ = s.on ⟨R.EVM_Cc_STATUS c, k, 1⟩ := by
  let u : State := { s with evm := { s.evm with chans := s.evm.chans.set c x } }
  let v := u.putB (R.EVM_Cc_STATUS_PENDING c) (!x.pend.isEmpty)
  have pending : v.on ⟨R.EVM_Cc_STATUS c, k, 1⟩ = u.on ⟨R.EVM_Cc_STATUS c, k, 1⟩ :=
    State.on_put_apart u (R.EVM_Cc_STATUS_PENDING c) ⟨R.EVM_Cc_STATUS c, k, 1⟩ _ rfl (by simp only [R.EVM_Cc_STATUS_PENDING]; omega)
  have armed : (v.putB (R.EVM_Cc_STATUS_ARMED c) x.timed.isSome).on ⟨R.EVM_Cc_STATUS c, k, 1⟩ = v.on ⟨R.EVM_Cc_STATUS c, k, 1⟩ :=
    State.on_put_apart v (R.EVM_Cc_STATUS_ARMED c) ⟨R.EVM_Cc_STATUS c, k, 1⟩ _ rfl (by simp only [R.EVM_Cc_STATUS_ARMED]; omega)
  rw [s.setChan_eq]
  exact armed.trans pending
theorem State.get_setChan_ne (c : Nat) (x : Chan) {q : RF} (h : q.reg.addr ≠ (R.EVM_Cc_STATUS c).addr) : (s.setChan c x).get q = s.get q := by
  rw [s.setChan_eq]
  exact (State.get_put_ne _ _ _ _ h).trans ((State.get_put_ne _ _ _ _ h).trans rfl)

/-- What has arrived at channel `c` leaves its list. -/
def State.gathered (s : State) (c : Nat) : State := s.setChan c { s.chan c with arrived := [] }
/-- It is counted as coinciding where it is more than one event. -/
def State.coincided (s : State) (c : Nat) : State :=
  (s.gathered c).when (decide (1 < (s.chan c).arrived.length)) fun s => s.incSat (R.EVM_Cc_STATUS_COINCIDE c)
/-- It is one event, which the stage has yet to hand on. -/
def State.merged (s : State) (c : Nat) : State := (s.coincided c).put (R.EVM_Cc_STATUS_LASTHOP c) ((s.chan c).arrived.foldl max 0)
theorem State.channelStage_eq {c : Nat} (some : (s.chan c).arrived ≠ []) : s.channelStage c =
    if !(s.merged c).on (R.EVM_Cc_CONS_VALID c) then (s.merged c).inc (R.EVM_Cc_COUNT_COUNT c)
    else if (s.merged c).inputInReset ((s.merged c).get (R.EVM_Cc_CONS_INPUT c)) then
      ((s.merged c).setChan c { s.chan c with arrived := [], pend := [], handed := false }).put (R.EVM_Cc_STATUS_DROPPED c) 1
    else match (s.chan c).pend with
      | [] => ((s.merged c).inc (R.EVM_Cc_COUNT_COUNT c)).setChan c { s.chan c with arrived := [], pend := [(s.chan c).arrived.foldl max 0] }
      | p :: ps =>
        if takesOnArrival ((s.merged c).get (R.EVM_Cc_CONS_INPUT c)) &&
            ((s.merged c).inc (R.EVM_Cc_COUNT_COUNT c)).running (inputDomain ((s.merged c).get (R.EVM_Cc_CONS_INPUT c))) then
          ((s.merged c).inc (R.EVM_Cc_COUNT_COUNT c)).setChan c { s.chan c with arrived := [], pend := p :: ps ++ [(s.chan c).arrived.foldl max 0] }
        else (((s.merged c).inc (R.EVM_Cc_COUNT_COUNT c)).setChan c { s.chan c with arrived := [], pend := max p ((s.chan c).arrived.foldl max 0) :: ps }).setOverrun c :=
  if_neg (by rw [List.isEmpty_iff]; exact some)

/-- What the merge leaves: channels' inputs and counts, and all below the matrix. -/
theorem State.merged_low (c : Nat) : State.LowAlike s (s.merged c) :=
  ((State.LowAlike.of_setChan c _).trans (.when (s := s.gathered c) _ (.of_put (R.EVM_Cc_STATUS_COINCIDE c) _ (chan_high c)))).trans
    (.of_put (s := s.coincided c) (R.EVM_Cc_STATUS_LASTHOP c) _ (chan_high c))
theorem State.merged_get (c : Nat) {q : RF} (h : q.reg.addr ≠ (R.EVM_Cc_STATUS c).addr) : (s.merged c).get q = s.get q := by
  have last : (s.merged c).get q = (s.coincided c).get q := State.get_put_ne (s.coincided c) (R.EVM_Cc_STATUS_LASTHOP c) q _ h
  have counted : (s.coincided c).get q = (s.gathered c).get q :=
    (s.gathered c).when_keeps (State.get · q) _ (State.get_put_ne (s.gathered c) (R.EVM_Cc_STATUS_COINCIDE c) q _ h)
  rw [last, counted]
  exact State.get_setChan_ne c _ h
theorem State.merged_chan (c : Nat) : (s.merged c).chan c = { s.chan c with arrived := [] } := by
  have written : ∀ (t : State) (q : RF) (x : Nat), (t.put q x).chan c = t.chan c := fun _ _ _ => rfl
  have counted : (s.coincided c).chan c = (s.gathered c).chan c := (s.gathered c).when_keeps (State.chan · c) _ (written ..)
  rw [State.merged, written, counted]
  exact s.chan_setChan_same c _
theorem State.merged_overrun (c : Nat) : (s.merged c).on (R.EVM_Cc_STATUS_OVERRUN c) = s.on (R.EVM_Cc_STATUS_OVERRUN c) := by
  have last : (s.merged c).on (R.EVM_Cc_STATUS_OVERRUN c) = (s.coincided c).on (R.EVM_Cc_STATUS_OVERRUN c) :=
    State.on_put_beside (s.coincided c) (R.EVM_Cc_STATUS_LASTHOP c) (R.EVM_Cc_STATUS_OVERRUN c) _ ⟨rfl⟩ ⟨rfl⟩
  have counted : (s.coincided c).on (R.EVM_Cc_STATUS_OVERRUN c) = (s.gathered c).on (R.EVM_Cc_STATUS_OVERRUN c) :=
    (s.gathered c).when_keeps (State.on · (R.EVM_Cc_STATUS_OVERRUN c)) _
      (State.on_put_beside (s.gathered c) (R.EVM_Cc_STATUS_COINCIDE c) (R.EVM_Cc_STATUS_OVERRUN c) _ ⟨rfl⟩ ⟨rfl⟩)
  rw [last, counted]
  exact State.on_setChan c _ (.inl (by decide))
theorem State.merged_hop (c : Nat) : (s.merged c).get (R.EVM_Cc_STATUS_LASTHOP c) = (s.chan c).arrived.foldl max 0 % 8 :=
  State.get_put (s.coincided c) _ _ (Nat.le_of_ble_eq_true rfl)
end
end Sys2Proof.Machine
end

section
/-!
PROOF. The event matrix: what its commands do (spec/13).
-/
namespace Sys2Proof.Machine

/-! ### Producers (R314) -/

section
variable {s : State} {p : Nat}

theorem State.raise_leaves (free : s.ownerInReset (s.lineOwner p) = false) (held : (s.line p).held = none)
    (late : ∀ t0, (s.line p).left = some t0 → ns 8 ≤ s.since t0) (h : Nat) : s.raise p h = s.leave p h := by
  simp only [State.raise, free, held, Bool.false_eq_true, if_false]
  split
  · next t0 e => exact if_neg (Nat.not_lt.2 (late t0 e))
  · rfl
theorem State.raise_holds {t0 : Time} (free : s.ownerInReset (s.lineOwner p) = false) (held : (s.line p).held = none)
    (left : (s.line p).left = some t0) (early : s.since t0 < ns 8) (h : Nat) :
    s.raise p h = (s.setLine p { s.line p with held := some h }).putBit (R.EVM_PMERGEj_MERGE (p / 32)) (p % 32) true := by
  simp only [State.raise, free, held, left, early, Bool.false_eq_true, if_false, if_true]
theorem State.raise_merges {e : Nat} (free : s.ownerInReset (s.lineOwner p) = false) (held : (s.line p).held = some e) (h : Nat) :
    s.raise p h = (s.setLine p { s.line p with held := some (max h e) }).putBit (R.EVM_PMERGEj_MERGE (p / 32)) (p % 32) true := by
  simp only [State.raise, free, held, Bool.false_eq_true, if_false]
/-- What leaves a producer has left, and stands at every joined channel once. -/
theorem State.leave_fields (s : State) (p h : Nat) : (s.leave p h).line p = ⟨some s.now, none⟩ ∧ ∀ d, d < 256 → ((s.leave p h).chan d).pend = (s.chan d).pend ∧
    ((s.leave p h).chan d).arrived = (s.chan d).arrived ++ if s.joined p d then [h] else [] := by
  refine ⟨s.leave_line p h, fun d hd => ?_⟩
  rw [s.leave_chan p h hd]
  exact ⟨rfl, rfl⟩
theorem State.held_fields (s : State) (p : Nat) (l : Line) :
    let t := (s.setLine p l).putBit (R.EVM_PMERGEj_MERGE (p / 32)) (p % 32) true
    t.line p = l ∧ t.bitOn (R.EVM_PMERGEj_MERGE (p / 32)) (p % 32) = true ∧ ∀ d, t.chan d = s.chan d := by
  refine ⟨s.line_setLine_same p l, ?_, fun _ => rfl⟩
  exact (State.bitOn_putBit (s.setLine p l) (R.EVM_PMERGEj_MERGE (p / 32)) (p % 32) (p % 32) true (Nat.le_of_ble_eq_true rfl) (Nat.mod_lt _ (by decide))).trans (if_pos rfl)
end

/-! ### The channel stage (R315 to R317) -/

section
variable {s : State} {c : Nat}

theorem State.on_arrive (d h c : Nat) {k : Nat} (hk : k < 2 ∨ 3 < k) : (s.arrive d h).on ⟨R.EVM_Cc_STATUS c, k, 1⟩ = s.on ⟨R.EVM_Cc_STATUS c, k, 1⟩ := by
  by_cases e : c = d
  · subst e
    exact State.on_setChan c _ hk
  · refine congrArg (· != 0) (State.get_setChan_ne d _ (q := ⟨R.EVM_Cc_STATUS c, k, 1⟩) ?_)
    simp only [R.EVM_Cc_STATUS]
    omega
/-- An event raises nothing in a channel's status but PENDING and ARMED. -/
theorem State.on_raise (p h c : Nat) (hp : p < 1024) {k : Nat} (hk : k < 2 ∨ 3 < k) : (s.raise p h).on ⟨R.EVM_Cc_STATUS c, k, 1⟩ = s.on ⟨R.EVM_Cc_STATUS c, k, 1⟩ := by
  have held : ∀ l, ((s.setLine p l).putBit (R.EVM_PMERGEj_MERGE (p / 32)) (p % 32) true).on ⟨R.EVM_Cc_STATUS c, k, 1⟩ = s.on ⟨R.EVM_Cc_STATUS c, k, 1⟩ := fun l =>
    (s.setLine p l).on_putBit_ne (R.EVM_PMERGEj_MERGE (p / 32)) ⟨R.EVM_Cc_STATUS c, k, 1⟩ _ _ (by simp only [R.EVM_Cc_STATUS, R.EVM_PMERGEj_MERGE, R.EVM_PMERGEj]; omega)
  have left : (s.leave p h).on ⟨R.EVM_Cc_STATUS c, k, 1⟩ = s.on ⟨R.EVM_Cc_STATUS c, k, 1⟩ :=
    State.each_keeps _ (fun d t => t.arrive d h) (State.on · ⟨R.EVM_Cc_STATUS c, k, 1⟩) (fun d t => State.on_arrive d h c hk) (s.setLine p ⟨some s.now, none⟩)
  unfold State.raise
  split
  · rfl
  · dsimp only
    split
    · exact held _
    · split
      · split
        · exact held _
        · exact left
      · exact left
theorem State.setOverrun_fields : (s.setOverrun c).on (R.EVM_Cc_STATUS_OVERRUN c) = true ∧ ((s.setOverrun c).chan c).pend = (s.chan c).pend := by
  let t := s.put (R.EVM_Cc_STATUS_OVERRUN c) 1
  have raised : (s.setOverrun c).on (R.EVM_Cc_STATUS_OVERRUN c) = t.on (R.EVM_Cc_STATUS_OVERRUN c) :=
    t.when_keeps (State.on · (R.EVM_Cc_STATUS_OVERRUN c)) _ (State.on_raise 761 0 c (by decide) (.inl (by decide)))
  have pend : ((s.setOverrun c).chan c).pend = (t.chan c).pend := t.when_keeps (fun t => (t.chan c).pend) _ ((blind_pend c).raise t 761 0 (Nat.zero_le _))
  exact ⟨raised.trans (s.on_put_self _ _ ⟨rfl⟩), pend⟩

/-- What has merged is counted. -/
def State.counted (s : State) (c : Nat) : State := (s.merged c).inc (R.EVM_Cc_COUNT_COUNT c)
theorem count_ne (c : Nat) {q : RF} (h : q.reg = R.EVM_Cc_STATUS c) : q.reg.addr ≠ (R.EVM_Cc_COUNT c).addr := by
  rw [h]
  simp only [R.EVM_Cc_COUNT, R.EVM_Cc_STATUS]
  omega
theorem State.counted_low (c : Nat) : State.LowAlike s (s.counted c) :=
  (State.merged_low c).trans (.of_put (R.EVM_Cc_COUNT_COUNT c) _ (by simp only [R.EVM_Cc_COUNT_COUNT, R.EVM_Cc_COUNT]; omega))
theorem State.counted_count (c : Nat) : (s.counted c).get (R.EVM_Cc_COUNT_COUNT c) = (s.get (R.EVM_Cc_COUNT_COUNT c) + 1) % 2 ^ 32 := by
  have count := State.merged_get (s := s) c (q := R.EVM_Cc_COUNT_COUNT c) (count_ne c (q := R.EVM_Cc_STATUS_OVERRUN c) rfl).symm
  rw [State.counted, State.get_inc _ _ (Nat.le_of_ble_eq_true rfl), count]
  rfl
theorem State.chan_put (s : State) (q : RF) (x c : Nat) : (s.put q x).chan c = s.chan c := rfl
theorem State.counted_chan (c : Nat) : (s.counted c).chan c = { s.chan c with arrived := [] } := (State.chan_put ..).trans (State.merged_chan c)
theorem State.counted_hop (c : Nat) : (s.counted c).get (R.EVM_Cc_STATUS_LASTHOP c) = (s.chan c).arrived.foldl max 0 % 8 :=
  (State.get_put_ne (s.merged c) (R.EVM_Cc_COUNT_COUNT c) (R.EVM_Cc_STATUS_LASTHOP c) _ (count_ne c rfl)).trans (State.merged_hop c)
theorem State.counted_overrun (c : Nat) : (s.counted c).on (R.EVM_Cc_STATUS_OVERRUN c) = s.on (R.EVM_Cc_STATUS_OVERRUN c) :=
  (State.on_put_ne (s.merged c) (R.EVM_Cc_COUNT_COUNT c) (R.EVM_Cc_STATUS_OVERRUN c) _ (count_ne c rfl)).trans (State.merged_overrun c)
theorem State.setChan_hop (x : Chan) : (s.setChan c x).get (R.EVM_Cc_STATUS_LASTHOP c) = s.get (R.EVM_Cc_STATUS_LASTHOP c) := by
  let u : State := { s with evm := { s.evm with chans := s.evm.chans.set c x } }
  have pending := u.get_putB_beside (R.EVM_Cc_STATUS_PENDING c) (R.EVM_Cc_STATUS_LASTHOP c) (!x.pend.isEmpty) ⟨rfl⟩ ⟨rfl⟩
  have armed := (u.putB (R.EVM_Cc_STATUS_PENDING c) (!x.pend.isEmpty)).get_putB_beside (R.EVM_Cc_STATUS_ARMED c) (R.EVM_Cc_STATUS_LASTHOP c) x.timed.isSome ⟨rfl⟩ ⟨rfl⟩
  rw [s.setChan_eq]
  exact armed.trans pending

/-- The latest hop count of what has arrived. -/
def State.top (s : State) (c : Nat) : Nat := (s.chan c).arrived.foldl max 0

section
variable (some : (s.chan c).arrived ≠ [])
include some
theorem State.channelStage_unrouted (unrouted : s.on (R.EVM_Cc_CONS_VALID c) = false) : s.channelStage c = s.counted c := by
  have valid : (s.merged c).on (R.EVM_Cc_CONS_VALID c) = false :=
    (congrArg (· != 0) (State.merged_get c (q := R.EVM_Cc_CONS_VALID c) (by simp only [R.EVM_Cc_CONS_VALID, R.EVM_Cc_CONS, R.EVM_Cc_STATUS]; omega))).trans unrouted
  rw [State.channelStage_eq some, valid]
  exact if_pos rfl

variable (routed : s.on (R.EVM_Cc_CONS_VALID c) = true)
include routed
/-- Where the channel has a consumer, its input decides. -/
theorem State.channelStage_routed : s.channelStage c =
    if s.inputInReset (s.get (R.EVM_Cc_CONS_INPUT c)) then
      ((s.merged c).setChan c { s.chan c with arrived := [], pend := [], handed := false }).put (R.EVM_Cc_STATUS_DROPPED c) 1
    else match (s.chan c).pend with
      | [] => (s.counted c).setChan c { s.chan c with arrived := [], pend := [s.top c] }
      | p :: ps =>
        if takesOnArrival (s.get (R.EVM_Cc_CONS_INPUT c)) && s.running (inputDomain (s.get (R.EVM_Cc_CONS_INPUT c))) then
          (s.counted c).setChan c { s.chan c with arrived := [], pend := p :: ps ++ [s.top c] }
        else ((s.counted c).setChan c { s.chan c with arrived := [], pend := max p (s.top c) :: ps }).setOverrun c := by
  have valid : (s.merged c).on (R.EVM_Cc_CONS_VALID c) = true :=
    (congrArg (· != 0) (State.merged_get c (q := R.EVM_Cc_CONS_VALID c) (by simp only [R.EVM_Cc_CONS_VALID, R.EVM_Cc_CONS, R.EVM_Cc_STATUS]; omega))).trans routed
  have input : (s.merged c).get (R.EVM_Cc_CONS_INPUT c) = s.get (R.EVM_Cc_CONS_INPUT c) :=
    State.merged_get c (by simp only [R.EVM_Cc_CONS_INPUT, R.EVM_Cc_CONS, R.EVM_Cc_STATUS]; omega)
  have counted : (s.merged c).inc (R.EVM_Cc_COUNT_COUNT c) = s.counted c := rfl
  rw [State.channelStage_eq some, valid, input, (State.merged_low c).inputInReset, counted, ((State.counted_low c).clock (inputDomain_lt _)).1]
  exact if_neg (by decide)
theorem State.channelStage_drops (off : s.inputInReset (s.get (R.EVM_Cc_CONS_INPUT c)) = true) :
    s.channelStage c = ((s.merged c).setChan c { s.chan c with arrived := [], pend := [], handed := false }).put (R.EVM_Cc_STATUS_DROPPED c) 1 :=
  (State.channelStage_routed some routed).trans (if_pos off)

variable (free : s.inputInReset (s.get (R.EVM_Cc_CONS_INPUT c)) = false)
include free
theorem State.channelStage_first (empty : (s.chan c).pend = []) : s.channelStage c = (s.counted c).setChan c { s.chan c with arrived := [], pend := [s.top c] } := by
  rw [State.channelStage_routed some routed, free, empty]
  rfl

variable {h : Nat} {rest : List Nat} (pend : (s.chan c).pend = h :: rest)
include pend
theorem State.channelStage_follows (takes : (takesOnArrival (s.get (R.EVM_Cc_CONS_INPUT c)) && s.running (inputDomain (s.get (R.EVM_Cc_CONS_INPUT c)))) = true) :
    s.channelStage c = (s.counted c).setChan c { s.chan c with arrived := [], pend := h :: rest ++ [s.top c] } := by
  rw [State.channelStage_routed some routed, free, pend, takes]
  rfl
theorem State.channelStage_overruns (takes : (takesOnArrival (s.get (R.EVM_Cc_CONS_INPUT c)) && s.running (inputDomain (s.get (R.EVM_Cc_CONS_INPUT c)))) = false) :
    s.channelStage c = ((s.counted c).setChan c { s.chan c with arrived := [], pend := max h (s.top c) :: rest }).setOverrun c := by
  rw [State.channelStage_routed some routed, free, pend, takes]
  rfl
end
end

/-! ### Fires (R320, R321) -/

section
variable {s : State} {c : Nat}

theorem State.arrive_fields (s : State) (c h : Nat) : ((s.arrive c h).chan c).arrived = (s.chan c).arrived ++ [h] ∧ ((s.arrive c h).chan c).pend = (s.chan c).pend ∧
    ((s.arrive c h).chan c).timed = (s.chan c).timed := by
  rw [s.arrive_chan, if_pos rfl]
  exact ⟨rfl, rfl, rfl⟩
theorem State.setChan_armed (s : State) (c : Nat) (x : Chan) : (s.setChan c x).on (R.EVM_Cc_STATUS_ARMED c) = x.timed.isSome := by
  rw [s.setChan_eq]
  exact State.on_putB_self _ _ _ ⟨rfl⟩ ⟨rfl⟩

/-- The instant of a timed fire of channel `c`. -/
def State.fireAt (s : State) (c : Nat) : Time := timeOf (s.get (R.EVM_Cc_AT_LO_AT_LO c)) (s.get (R.EVM_Cc_AT_HI_AT_HI c))
theorem evmFireWrite_fire (hop : Fin 8) : evmFireWrite c (1 + 16 * hop) s = s.arrive c hop := by
  have bits : ∀ h : Fin 8, bit (1 + 16 * h) 0 = true ∧ bit (1 + 16 * h) 1 = false ∧ bit (1 + 16 * h) 2 = false ∧ bit (1 + 16 * h) 3 = false ∧ bitsOf (1 + 16 * h) 4 3 = h := by
    decide
  obtain ⟨fire, timed, cancel, clear, value⟩ := bits hop
  simp only [evmFireWrite, State.when, fire, timed, cancel, clear, value, if_true, Bool.false_eq_true, if_false]
theorem evmFireWrite_timed (hop : Fin 8) : evmFireWrite c (2 + 16 * hop) s = if s.reached (s.fireAt c) && s.now != s.fireAt c then
    ((s.setChan c { s.chan c with timed := none }).arrive c hop).put (R.EVM_Cc_STATUS_LATE_AT c) 1 else s.setChan c { s.chan c with timed := some hop.val } := by
  have bits : ∀ h : Fin 8, bit (2 + 16 * h) 0 = false ∧ bit (2 + 16 * h) 1 = true ∧ bit (2 + 16 * h) 2 = false ∧ bit (2 + 16 * h) 3 = false ∧ bitsOf (2 + 16 * h) 4 3 = h := by
    decide
  obtain ⟨fire, timed, cancel, clear, value⟩ := bits hop
  simp only [evmFireWrite, State.when, fire, timed, cancel, clear, value, if_true, Bool.false_eq_true, if_false, State.fireAt]
  rfl
theorem evmFireWrite_late (hop : Fin 8) (due : s.reached (s.fireAt c) = true) (past : s.now ≠ s.fireAt c) :
    ((evmFireWrite c (2 + 16 * hop) s).chan c).arrived = (s.chan c).arrived ++ [hop.val] ∧
      (evmFireWrite c (2 + 16 * hop) s).on (R.EVM_Cc_STATUS_LATE_AT c) = true ∧ ((evmFireWrite c (2 + 16 * hop) s).chan c).timed = none := by
  rw [evmFireWrite_timed, if_pos (by rw [due, Bool.true_and]; exact bne_iff_ne.2 past)]
  obtain ⟨arrived, -, timed⟩ := (s.setChan c { s.chan c with timed := none }).arrive_fields c hop
  rw [s.chan_setChan_same] at arrived timed
  rw [State.chan_put]
  exact ⟨arrived, State.on_put_self _ _ _ ⟨rfl⟩, timed⟩
theorem evmFireWrite_arms (hop : Fin 8) (ahead : s.reached (s.fireAt c) = false ∨ s.now = s.fireAt c) :
    ((evmFireWrite c (2 + 16 * hop) s).chan c).timed = some hop.val ∧ (evmFireWrite c (2 + 16 * hop) s).on (R.EVM_Cc_STATUS_ARMED c) = true ∧
      ((evmFireWrite c (2 + 16 * hop) s).chan c).arrived = (s.chan c).arrived := by
  have armed : ¬(s.reached (s.fireAt c) && s.now != s.fireAt c) = true := by
    rcases ahead with early | exact
    · simp [early]
    · simp [exact]
  rw [evmFireWrite_timed, if_neg armed, s.chan_setChan_same]
  exact ⟨rfl, s.setChan_armed c _, rfl⟩
theorem evmFireWrite_cancel : ((evmFireWrite c 4 s).chan c).timed = none ∧ (evmFireWrite c 4 s).on (R.EVM_Cc_STATUS_ARMED c) = false :=
  ⟨congrArg Chan.timed (s.chan_setChan_same c { s.chan c with timed := none }), s.setChan_armed c _⟩
theorem evmFireWrite_clear : (evmFireWrite c 8 s).get (R.EVM_Cc_STATUS_COINCIDE c) = 0 ∧ (evmFireWrite c 8 s).get (R.EVM_Cc_COUNT_COUNT c) = 0 := by
  have cleared : evmFireWrite c 8 s = (s.put (R.EVM_Cc_STATUS_COINCIDE c) 0).put (R.EVM_Cc_COUNT_COUNT c) 0 := rfl
  have ne : (R.EVM_Cc_STATUS_COINCIDE c).reg.addr ≠ (R.EVM_Cc_COUNT_COUNT c).reg.addr := by
    simp only [R.EVM_Cc_STATUS_COINCIDE, R.EVM_Cc_COUNT_COUNT, R.EVM_Cc_COUNT, R.EVM_Cc_STATUS]
    omega
  rw [cleared, State.get_put_ne _ _ _ _ ne]
  exact ⟨State.get_put_self _ _ _ ⟨rfl⟩, State.get_put_self _ _ _ ⟨rfl⟩⟩
end
end Sys2Proof.Machine
end

section
/-!
PROOF. The event matrix: what its consumers do (spec/13).
-/
namespace Sys2Proof.Machine

/-! ### What each consumer does (Table 13.4) -/

/-- A mask of some of `n` places holds exactly their bits. -/
theorem placesMask (p : Nat → Bool) (n : Nat) : (((List.range n).filter p).foldl (fun m i => m + 2 ^ i) 0) < 2 ^ n ∧
    ∀ j, (((List.range n).filter p).foldl (fun m i => m + 2 ^ i) 0).testBit j = (decide (j < n) && p j) := by
  induction n with
  | zero => exact ⟨Nat.one_pos, fun j => by simp⟩
  | succ n ih =>
    obtain ⟨small, bits⟩ := ih
    rw [List.range_succ, List.filter_append, List.foldl_append]
    generalize ((List.range n).filter p).foldl (fun m i => m + 2 ^ i) 0 = m at small bits
    by_cases hp : p n = true
    · have joined : m + 2 ^ n = 2 ^ n ||| m := by
        simpa [Nat.add_comm] using Nat.two_pow_add_eq_or_of_lt small 1
      rw [List.filter_singleton, hp, cond_true, List.foldl_cons, List.foldl_nil]
      refine ⟨by omega, fun j => ?_⟩
      rw [joined, Nat.testBit_or, Nat.testBit_two_pow, bits]
      rcases Nat.lt_trichotomy j n with lt | eq | gt
      · simp [lt, Nat.lt_succ_of_lt lt, Nat.ne_of_gt lt]
      · simp [eq, hp]
      · simp [Nat.not_lt.2 (Nat.le_of_lt gt), Nat.ne_of_lt gt, Nat.not_lt.2 (Nat.succ_le_of_lt gt)]
    · rw [Bool.not_eq_true] at hp
      rw [List.filter_singleton, hp, cond_false, List.foldl_nil]
      refine ⟨by omega, fun j => ?_⟩
      rw [bits]
      rcases Nat.lt_trichotomy j n with lt | eq | gt
      · simp [lt, Nat.lt_succ_of_lt lt]
      · simp [eq, hp]
      · simp [Nat.not_lt.2 (Nat.le_of_lt gt), Nat.not_lt.2 (Nat.succ_le_of_lt gt)]

section
variable {s : State}

theorem State.fch_put (s : State) (q : RF) (x n : Nat) : (s.put q x).fch n = s.fch n := rfl
theorem State.takeEvent_low (c : Nat) : State.LowAlike s (s.takeEvent c) := .of_setChan c _

/-- A rising event arms the channel for an instant (R62). -/
theorem State.fcArm_target {n : Nat} (mode : s.get (R.FCV_CHn_TRIG_MODE n) = 1) (single : ∀ a, (s.fch n).armed = some (a, true) → s.sameCycle a = false) :
    ((s.fcArm n false).fch n).target.isSome := by
  have apart : (match (s.fch n).armed with | some (t, f) => s.sameCycle t && f != false | none => false) = false := by
    split
    · next t f e =>
      cases f
      · rw [bne_self_eq_false, Bool.and_false]
      · rw [single t e, Bool.false_and]
    · rfl
  unfold State.fcArm
  extract_lets x merged s1
  rw [if_neg (by rw [mode, show merged = false from apart]; decide)]
  have chan1 : s1.fch n = { x with armed := some (s.now, false) } := s.fch_setFch_same n _
  have target1 : (s1.fch n).target = x.target := by rw [chan1]
  split
  · unfold State.fcSelect
    extract_lets m ph a s2
    have kept : ((s2.when (decide (m ≠ 0) && decide (congruent m ph a < a + 512)) fun s => s.put (R.FCV_CHn_STATUS_ARM_LATE n) 1).fch n) = s2.fch n :=
      s2.when_keeps (State.fch · n) _ (State.fch_put ..)
    rw [kept, s1.fch_setFch_same]
    rfl
  · next t0 e =>
    split
    · rw [s1.fch_setFch_same]
      exact Option.isSome_of_mem (target1.trans e)
    · rw [State.fch_put]
      exact Option.isSome_of_mem (target1.trans e)

theorem State.scanEvent_busy {k : Nat} (cause : Cause) (busy : s.on (R.SCV_Ck_STATUS_BUSY k) = true) : (s.scanEvent k cause).on (R.SCV_Ck_STATUS_START_OVERRUN k) = true := by
  have overrun : s.scanEvent k cause = (s.setConv k { s.conv k with event := some s.now }).put (R.SCV_Ck_STATUS_START_OVERRUN k) 1 :=
    if_pos (Bool.or_eq_true_iff.2 (.inl busy))
  rw [overrun]
  exact State.on_put_self _ _ _ ⟨rfl⟩
theorem State.scanEvent_starts {k : Nat} (cause : Cause) (idle : s.on (R.SCV_Ck_STATUS_BUSY k) = false) (runs : s.scanRuns k = true) (mode : (s.conv k).mode = 2)
    (single : ∀ e, (s.conv k).event = some e → s.now.toNat / 6400 ≠ e.toNat / 6400) :
    s.scanEvent k cause = (s.setConv k { s.conv k with event := some s.now }).roundStart k cause := by
  have apart : (match (s.conv k).event with | some t => s.now.toNat / scanCycle == t.toNat / scanCycle | none => false) = false := by
    split
    · next t e => exact beq_eq_false_iff_ne.2 (single t e)
    · rfl
  unfold State.scanEvent
  extract_lets x again s1
  have again_false : again = false := apart
  have idle1 : s1.on (R.SCV_Ck_STATUS_BUSY k) = false := idle
  have runs1 : s1.scanRuns k = true := runs
  have mode1 : x.mode = 2 := mode
  rw [if_neg (by rw [idle1, again_false]; exact Bool.false_ne_true), if_pos (by rw [mode1, runs1]; rfl)]
/-- A round begins with the channels' settings (R89). -/
def State.scanned (s : State) (k : Nat) : State := s.each (List.range 20) fun i t => t.scanTake (scanChannel k i)
/-- The slots of the round. -/
def State.roundSlots (s : State) (k : Nat) : List Nat := (List.range 20).filter fun i => ((s.scanned k).sch (scanChannel k i)).en
def State.roundMasked (s : State) (k : Nat) : State := (s.scanned k).put (R.SCV_Ck_MASK_MASK k) ((s.roundSlots k).foldl (fun m i => m + 2 ^ i) 0)
/-- Its interval may be too short for them. -/
def State.roundChecked (s : State) (k : Nat) : State :=
  (s.roundMasked k).when ((s.roundMasked k).get (R.SCV_Ck_CTRL_MODE k) == 1 && (s.roundMasked k).get (R.SCV_Ck_CTRL_ROUND k) != 0 &&
    decide ((s.roundMasked k).get (R.SCV_Ck_CTRL_ROUND k) < (s.roundSlots k).length)) fun s => s.put (R.SCV_Ck_STATUS_ROUND_LATE k) 1
theorem State.roundStart_eq (k : Nat) (cause : Cause) : s.roundStart k cause =
    ((s.roundChecked k).setConv k { (s.roundChecked k).conv k with
      slots := s.roundSlots k, cause := if (s.roundSlots k).isEmpty then none else cause, mode := (s.roundChecked k).get (R.SCV_Ck_CTRL_MODE k),
      rnd := (s.roundMasked k).get (R.SCV_Ck_CTRL_ROUND k), began := some (s.roundChecked k).now,
      gap := max 1 (max ((s.roundMasked k).get (R.SCV_Ck_CTRL_ROUND k)) (s.roundSlots k).length) }).when (!(s.roundSlots k).isEmpty) fun s =>
        s.put (R.SCV_Ck_STATUS_BUSY k) 1 := rfl
theorem scanMask_ne (k : Nat) : (R.SCV_Ck_MASK k).addr ≠ (R.SCV_Ck_STATUS k).addr := by
  simp only [R.SCV_Ck_MASK, R.SCV_Ck_STATUS]
  omega
theorem State.scanned_field (k : Nat) (q : RF) : (s.scanned k).get q = s.get q :=
  State.each_keeps _ (fun i t => t.scanTake (scanChannel k i)) (fun t => t.get q) (fun _ t => Blind.scanTake (g := fun t => t.get q) (fun _ _ => rfl) t _) s
theorem State.roundChecked_mask (k : Nat) : (s.roundChecked k).get (R.SCV_Ck_MASK_MASK k) = (s.roundSlots k).foldl (fun m i => m + 2 ^ i) 0 := by
  have late : (s.roundChecked k).get (R.SCV_Ck_MASK_MASK k) = (s.roundMasked k).get (R.SCV_Ck_MASK_MASK k) :=
    (s.roundMasked k).when_keeps (State.get · (R.SCV_Ck_MASK_MASK k)) _
      ((s.roundMasked k).get_put_ne (R.SCV_Ck_STATUS_ROUND_LATE k) (R.SCV_Ck_MASK_MASK k) _ (scanMask_ne k))
  have mask : (s.roundMasked k).get (R.SCV_Ck_MASK_MASK k) = (s.roundSlots k).foldl (fun m i => m + 2 ^ i) 0 % 2 ^ 20 :=
    State.get_put_self (s.scanned k) (R.SCV_Ck_MASK_MASK k) _ ⟨rfl⟩
  rw [late, mask, State.roundSlots, Nat.mod_eq_of_lt (placesMask _ 20).1]
theorem State.roundChecked_busy (k : Nat) : (s.roundChecked k).on (R.SCV_Ck_STATUS_BUSY k) = s.on (R.SCV_Ck_STATUS_BUSY k) := by
  have late : (s.roundChecked k).on (R.SCV_Ck_STATUS_BUSY k) = (s.roundMasked k).on (R.SCV_Ck_STATUS_BUSY k) :=
    (s.roundMasked k).when_keeps (State.on · (R.SCV_Ck_STATUS_BUSY k)) _
      (State.on_put_beside (s.roundMasked k) (R.SCV_Ck_STATUS_ROUND_LATE k) (R.SCV_Ck_STATUS_BUSY k) _ ⟨rfl⟩ ⟨rfl⟩)
  have mask : (s.roundMasked k).on (R.SCV_Ck_STATUS_BUSY k) = (s.scanned k).on (R.SCV_Ck_STATUS_BUSY k) :=
    (s.scanned k).on_put_ne (R.SCV_Ck_MASK_MASK k) (R.SCV_Ck_STATUS_BUSY k) _ (scanMask_ne k).symm
  rw [late, mask]
  exact congrArg (· != 0) (State.scanned_field k _)
theorem State.roundStart_mask (k : Nat) (cause : Cause) : (s.roundStart k cause).get (R.SCV_Ck_MASK_MASK k) = (s.roundSlots k).foldl (fun m i => m + 2 ^ i) 0 := by
  rw [State.roundStart_eq, ← State.roundChecked_mask]
  exact State.when_keeps _ (State.get · (R.SCV_Ck_MASK_MASK k)) _ (State.get_put_ne _ (R.SCV_Ck_STATUS_BUSY k) (R.SCV_Ck_MASK_MASK k) _ (scanMask_ne k))
theorem State.roundSlots_empty (k : Nat) : s.roundSlots k = [] ↔ (s.roundSlots k).foldl (fun m i => m + 2 ^ i) 0 = 0 := by
  refine ⟨fun e => by rw [e]; rfl, fun zero => List.eq_nil_iff_forall_not_mem.2 fun i member => ?_⟩
  have bits := (placesMask (fun i => ((s.scanned k).sch (scanChannel k i)).en) 20).2 i
  obtain ⟨low, en⟩ := List.mem_filter.1 member
  rw [← State.roundSlots, zero, decide_eq_true (List.mem_range.1 low), en, Nat.zero_testBit] at bits
  cases bits
theorem State.on_setConv (s : State) (k : Nat) (x : ScanConv) (q : RF) : (s.setConv k x).on q = s.on q := rfl
/-- A round that starts is busy exactly where its mask holds a slot (R84). -/
theorem State.roundStart_busy {k : Nat} (cause : Cause) (idle : s.on (R.SCV_Ck_STATUS_BUSY k) = false) :
    (s.roundStart k cause).on (R.SCV_Ck_STATUS_BUSY k) = decide ((s.roundStart k cause).get (R.SCV_Ck_MASK_MASK k) ≠ 0) := by
  rw [s.roundStart_mask, s.roundStart_eq]
  cases e : (s.roundSlots k).isEmpty
  · rw [List.isEmpty_eq_false_iff] at e
    rw [decide_eq_true (mt (s.roundSlots_empty k).2 e)]
    exact State.on_put_self _ (R.SCV_Ck_STATUS_BUSY k) 1 ⟨rfl⟩
  · rw [List.isEmpty_iff] at e
    rw [decide_eq_false (not_not.2 ((s.roundSlots_empty k).1 e))]
    rw [Bool.not_true, State.when_false, State.on_setConv]
    exact (s.roundChecked_busy k).trans idle

/-! ### Trips, probes, requests and captures -/

theorem blind_on (q : RF) : Blind (State.on · q) q.reg.addr (q.reg.addr + 1) where
  wr s r v h := congrArg (· != 0) (State.get_wr_ne s r q v (by omega))
  heat s r m := congrArg (fun v => fieldGet v q.lsb q.wid != 0) (State.rd_heat s r q.reg m)
  line _ _ := rfl
  arrived _ _ _ := rfl
theorem State.unitLatch_tripEvt {n : Nat} : (s.unitLatch n).on (R.PWM_Un_LATCH_TRIP_EVT n) = s.on (R.PWM_Un_LATCH_TRIP_EVT n) := by
  have one : ∀ (t : State) (b : Bool) (k : Nat), k = 0 ∨ 1 < k → (t.when b fun s => s.put ⟨R.PWM_Un_LATCH n, k, 1⟩ 1).on (R.PWM_Un_LATCH_TRIP_EVT n) =
      t.on (R.PWM_Un_LATCH_TRIP_EVT n) := fun t b k h =>
    t.when_keeps (State.on · (R.PWM_Un_LATCH_TRIP_EVT n)) b (t.on_put_apart ⟨R.PWM_Un_LATCH n, k, 1⟩ (R.PWM_Un_LATCH_TRIP_EVT n) 1 rfl
      (by simp only [R.PWM_Un_LATCH_TRIP_EVT]; omega))
  exact (one _ _ 3 (.inr (by decide))).trans ((one _ _ 2 (.inr (by decide))).trans (one _ _ 0 (.inl rfl)))
theorem State.settleUnit_tripEvt {n : Nat} (hn : n < 32) (c : Cause) : (s.settleUnit n c).on (R.PWM_Un_LATCH_TRIP_EVT n) = s.on (R.PWM_Un_LATCH_TRIP_EVT n) := by
  have latched := State.unitLatch_tripEvt (s := s) (n := n)
  have status : ∀ t : State, (t.unitStatus n).on (R.PWM_Un_LATCH_TRIP_EVT n) = t.on (R.PWM_Un_LATCH_TRIP_EVT n) := fun t => by
    have ne : ∀ k w : Nat, (R.PWM_Un_LATCH_TRIP_EVT n).reg.addr ≠ (⟨R.PWM_Un_STATUS n, k, w⟩ : RF).reg.addr := fun _ _ => by
      simp only [R.PWM_Un_LATCH_TRIP_EVT, R.PWM_Un_LATCH, R.PWM_Un_STATUS]
      omega
    have one : ∀ {t : State} {k w : Nat} {b : Bool}, (t.putB ⟨R.PWM_Un_STATUS n, k, w⟩ b).on (R.PWM_Un_LATCH_TRIP_EVT n) = t.on (R.PWM_Un_LATCH_TRIP_EVT n) :=
      fun {t k w b} => State.on_put_ne t ⟨R.PWM_Un_STATUS n, k, w⟩ (R.PWM_Un_LATCH_TRIP_EVT n) _ (ne k w)
    unfold State.unitStatus R.PWM_Un_STATUS_BOUND R.PWM_Un_STATUS_CMP_LIVE R.PWM_Un_STATUS_COMMIT_FORCE R.PWM_Un_STATUS_SUP_FORCE R.PWM_Un_STATUS_CLK_FORCE
      R.PWM_Un_STATUS_REC_FORCE R.PWM_Un_STATUS_WARN_LIVE R.PWM_Un_STATUS_SAFE
    simp only [one]
  unfold State.settleUnit
  extract_lets s1 u fA fB real u' t
  have set : t.on (R.PWM_Un_LATCH_TRIP_EVT n) = s1.on (R.PWM_Un_LATCH_TRIP_EVT n) := (status _).trans rfl
  split
  · have low : (R.PWM_Un_LATCH n).addr + 1 ≤ 0x40280000 := by simp only [R.PWM_Un_LATCH]; omega
    exact ((blind_on (R.PWM_Un_LATCH_TRIP_EVT n)).emit t _ _ low).trans (set.trans latched)
  · exact set.trans latched
theorem State.tripEvent_fields {n : Nat} (hn : n < 32) (c : Cause) :
    (s.tripEvent n c).on (R.PWM_Un_LATCH_TRIP_EVT n) = true ∧ (s.tripEvent n c).safeUnit n := by
  let t := s.put (R.PWM_Un_LATCH_TRIP_EVT n) 1
  have set : t.on (R.PWM_Un_LATCH_TRIP_EVT n) = true := State.on_put_self _ _ _ ⟨rfl⟩
  refine ⟨(State.settleUnit_tripEvt hn c).trans set, State.safeUnit_of_unitForce c ?_⟩
  rw [State.unitForce, State.unitLatch_tripEvt, set]
  simp

theorem State.get_putTime_ne (s : State) (lo hi : Reg) (t : Time) (q : RF) (h : q.reg.addr ≠ lo.addr) (h' : q.reg.addr ≠ hi.addr) :
    (s.putTime lo hi t).get q = s.get q :=
  (State.get_wr_ne _ hi q _ h').trans (State.get_wr_ne s lo q _ h)
/-- A probe takes the position, and holds it until it is read (R225). -/
theorem State.probe_fields {n : Nat} (hn : n < 16) (fire : Bool) (at_ : Time) (c : Cause) (empty : s.on (R.POS_Pn_PRB_CTRL_FULL n) = false) :
    (s.probe n fire at_ c).on (R.POS_Pn_PRB_CTRL_FULL n) = true ∧ (s.probe n fire at_ c).get (R.POS_Pn_PRB_POS_VALUE n) = (s.posIf n).value % 2 ^ 32 := by
  have low : ∀ q : RF, q.reg.addr < 0x40280000 → ∀ t : State, (t.emit (619 + n) c).get q = t.get q := fun q h t =>
    congrArg (fieldGet · q.lsb q.wid) ((blind_rd q.reg).emit t _ _ h)
  have ne : ∀ r : Reg, (0x4024103C + 0x100 * n ≤ r.addr ∧ r.addr < 0x40241054 + 0x100 * n) ∨ r.addr = (R.POS_Pn_PRB_CTRL n).addr → (R.POS_Pn_PRB_POS n).addr ≠ r.addr :=
    fun r h => by
      simp only [R.POS_Pn_PRB_POS, R.POS_Pn_PRB_CTRL] at h ⊢
      omega
  unfold State.probe
  extract_lets x one s1 v s2 s3 s4
  rw [if_neg (by rw [empty]; exact Bool.false_ne_true)]
  have pos1 : s1.posIf n = { x with probed := some (s.now, fire) } := Tab.get_set_same ({} : Pos) s.pos n _
  have value : v.value = (s1.posIf n).value := rfl
  rw [pos1] at value
  have pos2 : s2.get (R.POS_Pn_PRB_POS_VALUE n) = (s.posIf n).value % 2 ^ 32 := by
    rw [State.get_putTime_ne _ _ _ _ (R.POS_Pn_PRB_POS_VALUE n) (ne _ (.inl (by simp only [R.POS_Pn_PRB_PTIME_LO]; omega)))
      (ne _ (.inl (by simp only [R.POS_Pn_PRB_PTIME_HI]; omega))), ← show v.value = (s.posIf n).value from value]
    exact State.get_put_self s1 (R.POS_Pn_PRB_POS_VALUE n) _ ⟨rfl⟩
  have pos3 : s3.get (R.POS_Pn_PRB_POS_VALUE n) = s2.get (R.POS_Pn_PRB_POS_VALUE n) :=
    State.get_putTime_ne s2 _ _ _ _ (ne _ (.inl (by simp only [R.POS_Pn_PRB_UTIME_LO]; omega))) (ne _ (.inl (by simp only [R.POS_Pn_PRB_UTIME_HI]; omega)))
  have pos4 : s4.get (R.POS_Pn_PRB_POS_VALUE n) = s3.get (R.POS_Pn_PRB_POS_VALUE n) :=
    (State.get_put_ne _ (R.POS_Pn_PRB_INFO_INFO n) _ _ (ne (R.POS_Pn_PRB_INFO n) (.inl (by simp only [R.POS_Pn_PRB_INFO]; omega)))).trans
      (State.get_put_ne s3 (R.POS_Pn_PRB_SPEED_SPEED n) _ _ (ne (R.POS_Pn_PRB_SPEED n) (.inl (by simp only [R.POS_Pn_PRB_SPEED]; omega))))
  refine ⟨?_, ?_⟩
  · have kept := low (R.POS_Pn_PRB_CTRL_FULL n) (by simp only [R.POS_Pn_PRB_CTRL_FULL, R.POS_Pn_PRB_CTRL]; omega) (s4.put (R.POS_Pn_PRB_CTRL_FULL n) 1)
    exact (congrArg (· != 0) kept).trans (State.on_put_self s4 (R.POS_Pn_PRB_CTRL_FULL n) 1 ⟨rfl⟩)
  · rw [low _ (by simp only [R.POS_Pn_PRB_POS_VALUE, R.POS_Pn_PRB_POS]; omega)]
    rw [State.get_put_ne s4 (R.POS_Pn_PRB_CTRL_FULL n) _ _ (ne (R.POS_Pn_PRB_CTRL n) (.inr rfl)), pos4, pos3, pos2]
theorem State.dmaRequest_req {n : Nat} (c : Cause) (rests : (s.dmaCh n).desc = none) : (s.dmaRequest n c).on (R.DMA_Cn_STATUS_REQ n) = true := by
  unfold State.dmaRequest
  extract_lets x s1
  have same : (s1.dmaCh n).desc = none ∧ s1.on (R.DMA_Cn_STATUS_REQ n) = true := by
    simp only [s1]
    split
    case isTrue h => exact ⟨rests, h⟩
    case isFalse =>
      refine ⟨?_, State.on_put_self _ (R.DMA_Cn_STATUS_REQ n) 1 ⟨rfl⟩⟩
      exact (congrArg DmaCh.desc (s.dmaCh_setDma_same n { s.dmaCh n with reqHop := c })).trans rests
  rw [same.1]
  exact same.2
theorem State.fpGo_fields {n : Nat} (c : Cause) (gated : s.on (R.FSE_Pn_STATUS_GATED n) = true) :
    ((s.fpGo n c).port n).go = some c ∧ (s.fpGo n c).on (R.FSE_Pn_STATUS_GATED n) = false := by
  have gate : ∀ (t : State) (q : RF) (b : Bool), (t.putB q b).port n = t.port n := fun _ _ _ => rfl
  have go : ((s.setPort n { s.port n with go := some c }).port n).go = some c := congrArg FsePort.go (s.port_setPort_same n _)
  have goes : s.fpGo n c = (s.setPort n { s.port n with go := some c }).fseGate n := if_pos gated
  rw [goes, State.fseGate, gate]
  refine ⟨go, (State.on_putB_self _ (R.FSE_Pn_STATUS_GATED n) _ ⟨rfl⟩ ⟨rfl⟩).trans ?_⟩
  simp
theorem State.ethCapture_fields {p : Nat} (hp : p < 2) {c : Cause} (hc : ∀ x ∈ c, x.2 < 256) :
    (s.ethCapture p c).rd (R.ETH_Pp_CAP_LO p) = BitVec.ofNat 32 s.now.toNat ∧
      (s.ethCapture p c).rd (R.ETH_Pp_CAP_HI p) = BitVec.ofNat 32 (s.now.toNat / 2 ^ 32) ∧ (s.ethCapture p c).on (R.ETH_Pp_STATUS_CAP_DONE p) = true := by
  let s1 := s.putTime (R.ETH_Pp_CAP_LO p) (R.ETH_Pp_CAP_HI p) s.now
  let s2 := s1.put (R.ETH_Pp_STATUS_CAP_DONE p) 1
  have emitted : ∀ r : Reg, 0x40284000 ≤ r.addr → (s.ethCapture p c).rd r = s2.rd r := fun r h => (blind_rd r).emit_of s2 (by omega) hc (.inr h)
  have lo : 0x40284000 ≤ (R.ETH_Pp_CAP_LO p).addr := by simp only [R.ETH_Pp_CAP_LO]; omega
  have hi : 0x40284000 ≤ (R.ETH_Pp_CAP_HI p).addr := by simp only [R.ETH_Pp_CAP_HI]; omega
  have status : 0x40284000 ≤ (R.ETH_Pp_STATUS p).addr := by simp only [R.ETH_Pp_STATUS]; omega
  have apart : (R.ETH_Pp_CAP_LO p).addr ≠ (R.ETH_Pp_CAP_HI p).addr ∧ (R.ETH_Pp_CAP_LO p).addr ≠ (R.ETH_Pp_STATUS p).addr ∧
      (R.ETH_Pp_CAP_HI p).addr ≠ (R.ETH_Pp_STATUS p).addr := by
    simp only [R.ETH_Pp_CAP_LO, R.ETH_Pp_CAP_HI, R.ETH_Pp_STATUS]
    omega
  obtain ⟨ne1, ne2, ne3⟩ := apart
  refine ⟨?_, ?_, ?_⟩
  · rw [emitted _ lo, State.rd_put_ne s1 (R.ETH_Pp_STATUS_CAP_DONE p) _ _ ne2]
    exact (State.rd_wr_ne _ _ _ _ ne1).trans (State.rd_wr_same ..)
  · rw [emitted _ hi, State.rd_put_ne s1 (R.ETH_Pp_STATUS_CAP_DONE p) _ _ ne3]
    exact State.rd_wr_same ..
  · have kept : (s.ethCapture p c).on (R.ETH_Pp_STATUS_CAP_DONE p) = s2.on (R.ETH_Pp_STATUS_CAP_DONE p) :=
      congrArg (fun v => fieldGet v (R.ETH_Pp_STATUS_CAP_DONE p).lsb (R.ETH_Pp_STATUS_CAP_DONE p).wid != 0) (emitted _ status)
    exact kept.trans (State.on_put_self _ _ _ ⟨rfl⟩)
/-- A general-purpose output drives, releases or turns its pin (R390). -/
theorem State.gpioAct_pin (k : Nat) : (s.gpioAct k).gpioOut.testBit ((s.rd (R.GPIO_OEVk k)).extractLsb' 0 7).toNat =
    match ((s.rd (R.GPIO_OEVk k)).extractLsb' 8 2).toNat with
    | 0 => s.gpioOut.testBit ((s.rd (R.GPIO_OEVk k)).extractLsb' 0 7).toNat
    | 1 => true
    | 2 => false
    | _ => !s.gpioOut.testBit ((s.rd (R.GPIO_OEVk k)).extractLsb' 0 7).toNat := by
  have pin : ((s.rd (R.GPIO_OEVk k)).extractLsb' 0 7).toNat = (s.rd (R.GPIO_OEVk k)).toNat % 128 := by simp
  have action : ((s.rd (R.GPIO_OEVk k)).extractLsb' 8 2).toNat = bitsOf (s.rd (R.GPIO_OEVk k)).toNat 8 2 := by simp [bitsOf, Nat.shiftRight_eq_div_pow]
  have range : bitsOf (s.rd (R.GPIO_OEVk k)).toNat 8 2 < 4 := Nat.mod_lt _ (by decide)
  rw [pin, action]
  unfold State.gpioAct
  dsimp only
  generalize bitsOf (s.rd (R.GPIO_OEVk k)).toNat 8 2 = a at range
  generalize (s.rd (R.GPIO_OEVk k)).toNat % 128 = p
  have set : ∀ b, (setBit s.gpioOut p b).testBit p = b := fun b => (testBit_setBit ..).trans (if_pos rfl)
  match a, range with
  | 0, _ => rfl
  | 1, _ => exact set true
  | 2, _ => exact set false
  | 3, _ => exact set (!s.gpioOut.testBit p)
end


/-! ### The matrix carries events -/

section
variable {s : State} {c : Nat}
theorem State.eventDelivery_drops (waits : (s.chan c).pend ≠ [])
    (off : s.inputInReset (s.get (R.EVM_Cc_CONS_INPUT c)) = true) :
    s.consume (s.get (R.EVM_Cc_CONS_INPUT c)) c = (s.setChan c { s.chan c with pend := [], handed := false }).put (R.EVM_Cc_STATUS_DROPPED c) 1 := by
  unfold State.consume
  split
  · next e => exact absurd e waits
  · exact if_pos off

variable {i h : Nat} {rest : List Nat} (given : s.channelOf i = some c ∧ (s.chan c).pend = h :: rest ∧ s.inputInReset i = false ∧ s.running (inputDomain i) = true)
include given
theorem State.given_of : s.Given i c h rest := ⟨given.1, given.2.1, given.2.2.1, given.2.2.2⟩
/-- An event of a channel is one at the input that it selects. -/
theorem State.delivery_given : s.consume (s.get (R.EVM_Cc_CONS_INPUT c)) c = s.eventAt i ∧ s.on (R.EVM_Cc_CONS_VALID c) = true := by
  obtain ⟨-, valid, input⟩ := (State.given_of given).channel
  refine ⟨?_, valid⟩
  rw [input, State.eventAt, given.1]
end

section
variable {s : State} {c h : Nat} {rest : List Nat}
theorem State.chan_putBit (s : State) (q : RF) (k : Nat) (b : Bool) (c : Nat) : (s.putBit q k b).chan c = s.chan c := rfl
theorem State.setPend_fields (s : State) (core : Fin 9) (irq : Fin 256) : (s.setPend core irq true).irqPend core irq = true :=
  (State.bitOn_putBit s (R.CPS_IRQ_SETj_PEND core (irq / 32)) (irq % 32) (irq % 32) true (Nat.le_of_ble_eq_true rfl) (Nat.mod_lt _ (by decide))).trans (if_pos rfl)
theorem State.irq_taken {core : Fin 9} {irq : Fin 256} (g : s.Given (256 * core + irq) c h rest) (new : (s.chan c).handed = false) :
    (s.eventAt (256 * core + irq)).irqPend core irq = true ∧ ((s.eventAt (256 * core + irq)).chan c).handed = true := by
  rw [State.eventAt_given g, s.reaches_irq, State.handEvent_fresh c _ new]
  refine ⟨State.setPend_fields _ core irq, ?_⟩
  rw [State.setPend, State.chan_putBit, s.chan_setChan_same]
theorem State.nmi_taken {core : Fin 9} (g : s.Given (0x0900 + core) c h rest) (new : (s.chan c).handed = false) :
    (s.eventAt (0x0900 + core)).on (R.CPS_NMI_PEND core) = true ∧ ((s.eventAt (0x0900 + core)).chan c).handed = true := by
  rw [State.eventAt_given g, s.reaches_nmi, State.handEvent_fresh c _ new]
  rw [State.chan_put, s.chan_setChan_same]
  exact ⟨State.on_put_self _ _ _ ⟨rfl⟩, rfl⟩
theorem State.lane_taken {n : Fin 16} (g : s.Given (0x0A00 + n) c h rest) : ((s.eventAt (0x0A00 + n)).chan c).pend = rest := by
  rw [State.eventAt_given g, s.reaches_lane]
  refine State.takeBy_pend g fun t => ?_
  refine State.each_keeps_mem (fun t => (t.chan c).pend) (fun b hb u => ?_) t
  exact (blind_pend c).trigger (fun _ _ => rfl) (fun _ _ _ => rfl) (fun _ _ _ _ => rfl) (.inl (Nat.zero_le _)) (.inl (Nat.zero_le _)) (.inl (Nat.zero_le _))
    (.inl (Nat.zero_le _)) u _ _ _
theorem State.lane_waits {n : Fin 16} {loop : Nat} (hl : loop < 64) (g : s.Given (0x0A00 + n) c h rest) (idle : s.Idle loop)
    (kind : s.get (R.LNC_Bb_MAP_TRIG_KIND loop) = 3) (lane : s.laneNo loop false = n) (single : s.mergedTrig loop 3 = false) :
    ((s.eventAt (0x0A00 + n)).bnd loop).wait = some ⟨s.now, 3, some (h, c), s.now, true, s.compared loop, none⟩ := by
  have low := State.takeEvent_low (s := s) c
  have alike : State.TriggersAlike loop s (s.takeEvent c) := by
    refine ⟨rfl, rfl, rfl, rfl, low.rd _ ?_, fun j hj => low.on ?_, fun p hp => low.rd _ ?_⟩
    all_goals simp only [R.LNC_Bb_MAP, R.LNC_Ln_STATUS_HALTED, R.LNC_Ln_STATUS, R.PART_Pn_STATE]; omega
  obtain ⟨-, -, -, compared, kind', merged⟩ := alike.fields
  have laneA : (s.takeEvent c).laneNo loop false = s.laneNo loop false := low.get (q := R.LNC_Bb_MAP_LANE_A loop) (by simp only [R.LNC_Bb_MAP_LANE_A, R.LNC_Bb_MAP]; omega)
  have waits := State.triggerAll_idle (s := s.takeEvent c) hl (idle.alike alike) (f := fun kind _ a => kind == 3 && a == n.val)
    (by rw [kind', kind, laneA, lane]; simp) s.now (some (h, c)) (by rw [kind', kind, merged, single])
  rw [kind', kind, compared] at waits
  rw [State.eventAt_given g, s.reaches_lane]
  exact waits
end

section
variable {s : State} {c h : Nat} {rest : List Nat}
theorem State.takeEvent_rd (c : Nat) {r : Reg} (off : r.addr < 0x40280000 ∨ 0x40284000 ≤ r.addr) (hc : c < 256) : (s.takeEvent c).rd r = s.rd r := by
  have ne : r.addr ≠ (R.EVM_Cc_STATUS c).addr := by simp only [R.EVM_Cc_STATUS]; omega
  rw [State.takeEvent, s.setChan_eq]
  exact (State.rd_put_ne _ (R.EVM_Cc_STATUS_ARMED c) r _ ne).trans ((State.rd_put_ne _ (R.EVM_Cc_STATUS_PENDING c) r _ ne).trans rfl)
/-- An event that its consumer takes on arrival is taken before the consumer acts. -/
theorem State.eventAt_takes {i : Nat} (g : s.Given i c h rest) {f : State → State} (reaches : s.reaches i c (some (h, c)) = s.takeBy c f) :
    s.eventAt i = f (s.takeEvent c) := (State.eventAt_given g).trans reaches
theorem State.Given.taken {i : Nat} (g : s.Given i c h rest) : ((s.takeEvent c).chan c).pend = rest := by
  rw [s.takeEvent_chan, g.pend]
  rfl
end

theorem execProducerHoldRelease_held {s : State} {p : Fin 768} {e : Nat} {t0 : Time} (held : (s.line p).held = some e) (left : (s.line p).left = some t0) :
    execProducerHoldRelease p s = .next (if s.since t0 < ns 8 then s
      else if s.ownerInReset (s.lineOwner p) then s.setLine p { s.line p with held := none } else s.leave p e) := by
  simp only [execProducerHoldRelease, held, left]

theorem execTimedFireDue_due {s : State} {c : Fin 256} {h : Nat} (timed : (s.chan c).timed = some h) (due : s.reached (s.fireAt c) = true) :
    execTimedFireDue c s = .next ((s.setChan c { s.chan c with timed := none }).arrive c h) := by
  unfold State.fireAt at due
  simp only [execTimedFireDue, timed, due, Bool.not_true, Bool.false_eq_true, if_false]

/-- Settles O50, command by command. -/
theorem eventMatrixCarriesEvents : Obligations.EventMatrixCarriesEvents := by
  intro s q p hop c h rest core irq k16 fc k4 u dma port loop ln x free out top input at0 given taken dest
  have low := State.takeEvent_low (s := s) c
  have caused : ∀ y ∈ (some (h, c.val) : Cause), y.2 < 256 := fun y e => by
    cases e
    exact c.isLt
  have pend := blind_pend c
  refine ⟨fun fr => ⟨fun held late => ?_, fun t0 held left early => ?_, fun e held => ?_⟩, fun e t0 held left => ⟨fun early => ?_, fun late => ⟨fun fr => ?_, fun fr => ?_⟩⟩,
    fun some => ⟨fun un => ?_, fun routed off => ?_, fun routed fr => ⟨fun empty => ?_, fun waits takes => ?_, fun waits takes => ?_⟩⟩,
    fun acc => ⟨?_, fun due past => ?_, fun ahead => ?_, ?_, ?_⟩, fun timed due => ?_, fun routed waits off => ?_, fun g new => ?_, fun g new => ?_, fun g => ?_, fun g en mode single => ?_,
    fun g => ⟨fun busy => ?_, fun idle runs mode single => ?_⟩, fun g => ?_, fun g src empty => ?_, fun g new rests => ?_, fun g gated => ?_, fun g => ?_, fun g => ?_⟩
  · exact ⟨_, congrArg Host.Outcome.next (State.raise_leaves fr held late hop), s.leave_fields p hop⟩
  · obtain ⟨line, merge, chans⟩ := s.held_fields p { s.line p with held := some hop.val }
    exact ⟨_, congrArg Host.Outcome.next (State.raise_holds fr held left early hop), line.trans (congrArg (Line.mk · (some hop.val)) left), merge, chans⟩
  · obtain ⟨line, -, chans⟩ := s.held_fields p { s.line p with held := some (max hop.val e) }
    refine ⟨_, congrArg Host.Outcome.next (State.raise_merges fr held hop), ?_, chans⟩
    rw [line, max_comm]
  · exact (execProducerHoldRelease_held held left).trans (congrArg Host.Outcome.next (if_pos early))
  · have raises : ¬s.ownerInReset (s.lineOwner p) = true := by rw [show s.ownerInReset (s.lineOwner p) = false from fr]; exact Bool.false_ne_true
    exact ⟨_, (execProducerHoldRelease_held held left).trans (congrArg Host.Outcome.next ((if_neg (Nat.not_lt.2 late)).trans (if_neg raises))), s.leave_fields p e⟩
  · have silent : s.ownerInReset (s.lineOwner p) = true := Bool.not_eq_false _ ▸ (fr : ¬s.ownerInReset (s.lineOwner p) = false)
    refine ⟨_, (execProducerHoldRelease_held held left).trans (congrArg Host.Outcome.next ((if_neg (Nat.not_lt.2 late)).trans (if_pos silent))),
      (s.line_setLine_same p _).trans ?_, fun _ => rfl⟩
    exact congrArg (Line.mk · none) left
  · refine ⟨_, congrArg Host.Outcome.next (State.channelStage_unrouted some un), ?_, ?_, State.counted_count c⟩
    all_goals rw [State.counted_chan]
  · refine ⟨_, congrArg Host.Outcome.next (State.channelStage_drops some routed off), ?_, ?_, State.on_put_self _ _ _ ⟨rfl⟩⟩
    all_goals rw [State.chan_put, State.chan_setChan_same]
  · refine ⟨_, congrArg Host.Outcome.next (State.channelStage_first some routed fr empty), ?_, ?_, State.setChan_hop _ |>.trans (State.counted_hop c), ?_⟩
    · rw [State.chan_setChan_same]
    · rw [State.chan_setChan_same]
      rfl
    · rw [State.get_setChan_ne c _ (count_ne c (q := R.EVM_Cc_STATUS_OVERRUN c) rfl).symm, State.counted_count]
  · refine ⟨_, congrArg Host.Outcome.next (State.channelStage_follows some routed fr waits takes), ?_, ?_, ?_⟩
    · rw [State.chan_setChan_same]
    · rw [State.chan_setChan_same]
      rfl
    · rw [R.EVM_Cc_STATUS_OVERRUN, State.on_setChan c _ (.inl (by decide))]
      exact State.counted_overrun c
  · obtain ⟨overrun, pends⟩ := State.setOverrun_fields (s := (s.counted c).setChan c { s.chan c with arrived := [], pend := max h (s.top c) :: rest }) (c := c)
    refine ⟨_, congrArg Host.Outcome.next (State.channelStage_overruns some routed fr waits takes), pends.trans ?_, overrun⟩
    rw [State.chan_setChan_same]
    rfl
  · obtain ⟨arrived, pend, -⟩ := s.arrive_fields c hop
    exact ⟨_, (regWrite_accepts _ acc).trans (congrArg Host.Outcome.next (evmFireWrite_fire hop)), arrived, pend⟩
  · exact ⟨_, regWrite_accepts _ acc, evmFireWrite_late hop due past⟩
  · exact ⟨_, regWrite_accepts _ acc, evmFireWrite_arms hop ahead⟩
  · exact ⟨_, regWrite_accepts _ acc, evmFireWrite_cancel⟩
  · exact ⟨_, regWrite_accepts _ acc, evmFireWrite_clear⟩
  · obtain ⟨arrived, -, used⟩ := (s.setChan c { s.chan c with timed := none }).arrive_fields c h
    rw [s.chan_setChan_same] at arrived used
    exact ⟨_, execTimedFireDue_due timed due, used, arrived⟩
  · refine ⟨_, (congrArg Host.Outcome.next ((if_pos routed).trans (State.eventDelivery_drops waits off))), ?_, State.on_put_self _ _ _ ⟨rfl⟩⟩
    rw [State.chan_put, s.chan_setChan_same]
  · have effect := State.irq_taken (State.given_of g) new
    obtain ⟨same, routed⟩ := State.delivery_given g
    intro i hi
    rcases List.mem_pair.1 hi with rfl | rfl
    · exact ⟨_, rfl, effect⟩
    · exact ⟨_, congrArg Host.Outcome.next ((if_pos routed).trans same), effect⟩
  · exact ⟨_, rfl, State.nmi_taken (State.given_of g) new⟩
  · exact ⟨_, rfl, State.lane_taken (State.given_of g), fun bound kind lane owner wait single lanes =>
      State.lane_waits loop.isLt (State.given_of g) ⟨bound, owner, wait, lanes⟩ kind lane single⟩
  · let g := State.given_of g
    let f := fun s : State => s.when (s.on (R.FCV_CHn_TRIG_EVT_EN fc)) fun s => s.fcArm fc false
    have keeps : ((f (s.takeEvent c)).chan c).pend = ((s.takeEvent c).chan c).pend :=
      State.when_keeps (s.takeEvent c) (fun t => (t.chan c).pend) _ (pend.fcArm (fun _ _ => rfl) _ fc false (Nat.zero_le _))
    have enabled : (s.takeEvent c).on (R.FCV_CHn_TRIG_EVT_EN fc) = true := (low.on (by simp only [R.FCV_CHn_TRIG_EVT_EN, R.FCV_CHn_TRIG]; omega)).trans en
    refine ⟨_, congrArg Host.Outcome.next (State.eventAt_takes g (s.reaches_fc c _ fc)), keeps.trans g.taken, ?_⟩
    rw [enabled]
    refine State.fcArm_target (s := s.takeEvent c) ((low.get (by simp only [R.FCV_CHn_TRIG_MODE, R.FCV_CHn_TRIG]; omega)).trans mode) single
  · let g := State.given_of g
    have busy' : (s.takeEvent c).on (R.SCV_Ck_STATUS_BUSY k4) = true := (low.on (by simp only [R.SCV_Ck_STATUS_BUSY, R.SCV_Ck_STATUS]; omega)).trans busy
    exact ⟨_, congrArg Host.Outcome.next (State.eventAt_takes g (s.reaches_scan c _ k4)),
      (pend.scanEvent (fun _ _ => rfl) (fun _ _ => rfl) _ k4 _ (Nat.zero_le _)).trans g.taken, State.scanEvent_busy _ busy'⟩
  · let g := State.given_of g
    have idle' : (s.takeEvent c).on (R.SCV_Ck_STATUS_BUSY k4) = false := (low.on (by simp only [R.SCV_Ck_STATUS_BUSY, R.SCV_Ck_STATUS]; omega)).trans idle
    have runs' : (s.takeEvent c).scanRuns k4 = true := by
      obtain ⟨running, reset⟩ := low.clock (d := 28 + k4) (by omega)
      rw [State.scanRuns, running, reset]
      exact runs
    refine ⟨_, congrArg Host.Outcome.next (State.eventAt_takes g (s.reaches_scan c _ k4)),
      (pend.scanEvent (fun _ _ => rfl) (fun _ _ => rfl) _ k4 _ (Nat.zero_le _)).trans g.taken, ?_⟩
    rw [State.scanEvent_starts (s := s.takeEvent c) (some (h, c.val)) idle' runs' mode single]
    exact State.roundStart_busy _ ((State.on_setConv ..).trans idle')
  · let g := State.given_of g
    refine ⟨_, congrArg Host.Outcome.next (State.eventAt_takes g (s.reaches_trip c _ u)), ?_, State.tripEvent_fields u.isLt _⟩
    exact ((pend.settleUnit (fun _ _ => rfl) _ u _ (Nat.zero_le _)).trans (pend.put _ _ _ (.inl (Nat.zero_le _)))).trans g.taken
  · let g := State.given_of g
    let f := fun s : State => s.when (s.get (R.POS_Pn_CFG_PRB_SRC k16) == 3) fun s => s.probe k16 false s.now (some (h, c.val))
    have src' : (s.takeEvent c).get (R.POS_Pn_CFG_PRB_SRC k16) = 3 := (low.get (by simp only [R.POS_Pn_CFG_PRB_SRC, R.POS_Pn_CFG]; omega)).trans src
    have empty' : (s.takeEvent c).on (R.POS_Pn_PRB_CTRL_FULL k16) = false := (low.on (by simp only [R.POS_Pn_PRB_CTRL_FULL, R.POS_Pn_PRB_CTRL]; omega)).trans empty
    have acts : f (s.takeEvent c) = (s.takeEvent c).probe k16 false s.now (some (h, c.val)) := if_pos (by rw [src']; rfl)
    refine ⟨_, congrArg Host.Outcome.next ((State.eventAt_takes g (s.reaches_probe c _ k16)).trans acts), ?_, State.probe_fields k16.isLt _ _ _ empty'⟩
    exact (pend.probe (fun _ _ => rfl) _ _ _ _ _ (Nat.zero_le _)).trans g.taken
  · have acts : s.eventAt (0x0A60 + dma) = (s.setChan c { s.chan c with handed := true }).dmaRequest dma (some (h, c.val)) := by
      rw [State.eventAt_given (State.given_of g), s.reaches_dma, State.handEvent_fresh c _ new]
    exact ⟨_, congrArg Host.Outcome.next acts, State.dmaRequest_req _ rests⟩
  · let g := State.given_of g
    have gated' : (s.takeEvent c).on (R.FSE_Pn_STATUS_GATED k4) = true :=
      (congrArg (fun v => fieldGet v 11 1 != 0) (State.takeEvent_rd c (r := R.FSE_Pn_STATUS k4) (.inr (by simp only [R.FSE_Pn_STATUS]; omega)) c.isLt)).trans gated
    obtain ⟨go, open_⟩ := State.fpGo_fields (s := s.takeEvent c) (some (h, c.val)) gated'
    exact ⟨_, congrArg Host.Outcome.next (State.eventAt_takes g (s.reaches_go c _ k4)), (pend.fpGo (fun _ _ => rfl) _ k4 _ (Nat.zero_le _)).trans g.taken, go, open_⟩
  · let g := State.given_of g
    refine ⟨_, congrArg Host.Outcome.next (State.eventAt_takes g (s.reaches_capture c _ port)), ?_, State.ethCapture_fields port.isLt caused⟩
    exact (pend.ethCapture _ _ _ (Nat.zero_le _)).trans g.taken
  · let g := State.given_of g
    refine ⟨_, congrArg Host.Outcome.next (State.eventAt_takes g (s.reaches_gpio c _ k16)), (Blind.gpioAct (g := fun t => (t.chan c).pend) (fun _ _ => rfl) _ k16).trans g.taken, ?_⟩
    have same : (s.takeEvent c).rd (R.GPIO_OEVk k16) = s.rd (R.GPIO_OEVk k16) := State.takeEvent_rd c (.inr (by simp only [R.GPIO_OEVk]; omega)) c.isLt
    have pin := (s.takeEvent c).gpioAct_pin k16
    rw [same] at pin
    exact pin
end Sys2Proof.Machine
end

section
/-!
PROOF. What stores change (spec/01, spec/10).
-/
namespace Sys2Proof.Machine

/-! ### Arbiters, seen through a frame (R428 to R435) -/

namespace Blind
variable {β : Type} {g : State → β} {lo a : Nat} (b : Blind g lo a) (arbs : ∀ (s : State) (x : Tab Arb), g { s with arbs := x } = g s) (h : a ≤ 0x40280000)
include arbs
omit b h in
theorem portSlot (s : State) (n : Nat) : g (s.portSlot n).2 = g s := by
  unfold State.portSlot
  dsimp only
  split
  · rfl
  · exact arbs s _
omit b h in
theorem portRun (f n w : Nat) (rivals : List Nat) (s : State) : g (State.portRun f n w rivals s) = g s := by
  induction f generalizing s with
  | zero => rfl
  | succ f ih =>
    rw [State.portRun]
    dsimp only
    split
    · exact (portSlot arbs _ n).trans (arbs s _)
    · exact (ih _).trans ((portSlot arbs _ n).trans (arbs s _))
include b h
theorem arbApply (s : State) (n slot : Nat) : g (s.arbApply n slot) = g s := by
  have high : ∀ o, 0x40280000 ≤ o → a ≤ o + 0x100 * n := fun o ho => by omega
  unfold State.arbApply
  dsimp only
  split
  · rfl
  · next l _ =>
    split
    · rfl
    · refine ((b.put _ _ _ (.inl (high _ (by decide)))).trans (b.put _ _ _ (.inl (high _ (by decide))))).trans ((arbs _ _).trans ?_)
      refine State.each_keeps l _ g (fun e t => ?_) s
      refine (b.put _ _ _ (.inl ?_)).trans (b.put _ _ _ (.inl ?_))
      all_goals exact Nat.le_add_right_of_le (high _ (by decide))
theorem arbSlot (s : State) (n : Nat) : g (s.arbSlot n).2 = g s := by
  have high : ∀ o, 0x40280000 ≤ o → a ≤ o + 0x100 * n := fun o ho => by omega
  have sums : a ≤ R.ARB_HOGSUM_LO.addr ∧ a ≤ R.ARB_HOGSUM_HI.addr := by simp only [R.ARB_HOGSUM_LO, R.ARB_HOGSUM_HI]; omega
  unfold State.arbSlot
  extract_lets x ws cut s1 s2
  have h1 : g s1 = g s := State.when_keeps s g _ (b.raise s _ _ h)
  have h2 : g s2 = g s1 := State.each_keeps _ _ g (fun r t => by
    have cuts : g (((t.put (R.ARB_Aa_STATUS_HOGGED n) 1).put (R.ARB_Aa_STATUS_HOG_REQ n) r).putBit (R.ARB_Aa_CUT_CUT n) r true) = g t :=
      (b.putBit _ _ _ _ (.inl (high _ (by decide)))).trans ((b.put _ _ _ (.inl (high _ (by decide)))).trans (b.put _ _ _ (.inl (high _ (by decide)))))
    dsimp only
    split
    · exact (b.putBit _ R.ARB_HOGSUM_LO_HOGGED _ _ (.inl sums.1)).trans cuts
    · exact (b.putBit _ R.ARB_HOGSUM_HI_HOGGED _ _ (.inl sums.2)).trans cuts) s1
  split
  · exact h2.trans h1
  · refine (arbs _ _).trans ?_
    split
    · exact ((b.put _ _ _ (.inl (high _ (by decide)))).trans (b.put _ _ _ (.inl (high _ (by decide))))).trans (h2.trans h1)
    · exact h2.trans h1
theorem arbRun (f slot n w : Nat) (rivals : List Nat) (s : State) : g (State.arbRun f slot n w rivals s) = g s := by
  induction f generalizing slot s with
  | zero => rfl
  | succ f ih =>
    rw [State.arbRun]
    dsimp only
    have round : ∀ x, g ((({ s with arbs := s.arbs.set n x } : State).arbApply n slot |>.sendHints n).arbSlot n).2 = g s := fun x =>
      (b.arbSlot arbs h _ n).trans ((arbs _ _).trans ((b.arbApply arbs h _ n slot).trans (arbs s _)))
    split
    · exact round _
    · exact (ih _ _).trans (round _)
theorem arbitrate (s : State) (addr : Nat) (w : Option Nat) (rivals : List Nat) : g (s.arbitrate addr w rivals) = g s := by
  unfold State.arbitrate
  split
  · rfl
  · split
    · split
      · exact b.arbRun arbs h ..
      · rfl
    · split
      · exact portRun arbs ..
      · rfl
end Blind

/-! ### Memory writes (R408, R410) -/

section
variable {s : State}
/-- A line that is written takes its bytes, unless it is uncorrectable. -/
theorem State.lineWrite_mem (w : Who) (a : Nat) (bs : List Byte) :
    ((s.lineWrite w a bs).2.mem = Mem.puts s.mem a bs ∨ (s.lineWrite w a bs).2.mem = s.mem) ∧
      ((s.mark a).double = false → (s.lineWrite w a bs).2.mem = Mem.puts s.mem a bs) := by
  have injected : ∀ t : State, (t.inject a).mem = t.mem := fun t => blind_mem.inject (fun _ _ => rfl) (fun _ _ => rfl) (.inl (Nat.zero_le _)) t a
  have read : (s.lineRead w a).2.mem = s.mem := State.mem_of_atRest (s.lineRead_atRest w a)
  have written : ∀ (t : State) (m : LineMark), t.mem = s.mem → (((t.setMark a m).poke a bs).inject a).mem = Mem.puts s.mem a bs := fun t m e => by
    rw [injected, ← e]
    rfl
  unfold State.lineWrite
  split
  · exact ⟨.inl rfl, fun _ => rfl⟩
  · next code region =>
    split
    · exact ⟨.inl (written s {} rfl), fun _ => written s {} rfl⟩
    · dsimp only
      split
      · next bad =>
        refine ⟨.inr read, fun sound => ?_⟩
        have ok : (s.lineRead w a).1 = true := by
          simp only [State.lineRead, region, sound, Bool.false_eq_true, if_false]
          split <;> rfl
        rw [ok] at bad
        cases bad
      · exact ⟨.inl (written _ _ read), fun _ => written _ _ read⟩

/-- A change of memory that keeps every byte outside [lo, hi), and all that a processor holds. -/
structure State.WritesIn (lo hi : Nat) (s t : State) : Prop where
  ok : t.memOk
  mix : t.flash.mix = s.flash.mix
  cpus : t.cpus = s.cpus
  bufs : t.bufs = s.bufs
  mem (b : Nat) (h : b < lo ∨ hi ≤ b) : Mem.get t.mem b = Mem.get s.mem b

theorem State.WritesIn.trans {lo hi : Nat} {t u : State} (h : State.WritesIn lo hi s t) (g : State.WritesIn lo hi t u) : State.WritesIn lo hi s u :=
  ⟨g.ok, g.mix.trans h.mix, g.cpus.trans h.cpus, g.bufs.trans h.bufs, fun b off => (g.mem b off).trans (h.mem b off)⟩
theorem State.WritesIn.mono {lo hi lo' hi' : Nat} {t : State} (h : State.WritesIn lo hi s t) (hl : lo' ≤ lo) (hh : hi ≤ hi') : State.WritesIn lo' hi' s t :=
  ⟨h.ok, h.mix, h.cpus, h.bufs, fun b off => h.mem b (by omega)⟩
theorem State.WritesIn.byteAt {lo hi b : Nat} {t : State} (h : State.WritesIn lo hi s t) (off : b < lo ∨ hi ≤ b) : t.byteAt b = s.byteAt b := by
  simp only [State.byteAt, State.mixSeed, h.mix, h.mem b off]

/-- What a write of lines leaves beside memory. -/
theorem blind_held : Blind (fun s => (s.flash.mix, s.cpus, s.bufs)) 0 0 := blind_field (fun _ _ _ => rfl) (fun _ _ _ => rfl) (fun _ _ => rfl)
theorem State.lineWrite_writesIn (ok : s.memOk) (w : Who) (a : Nat) (bs : List Byte) : State.WritesIn a (a + bs.length) s (s.lineWrite w a bs).2 := by
  have held := blind_held.lineWrite (fun _ _ => rfl) (fun _ _ _ => rfl) (.inl (Nat.zero_le _)) (.inl (Nat.zero_le _)) (fun _ _ => rfl) (fun _ _ => rfl)
    (.inl (Nat.zero_le _)) s w a bs
  have mem := (s.lineWrite_mem w a bs).1
  refine ⟨?_, congrArg (·.1) held, congrArg (·.2.1) held, congrArg (·.2.2) held, fun b off => ?_⟩
  · rcases mem with e | e
    · exact (congrArg (Mem.wf · = true) e).mpr (Mem.wf_puts a bs ok)
    · exact (congrArg (Mem.wf · = true) e).mpr ok
  · rcases mem with e | e
    · rw [e, Mem.get_puts a bs ok, if_neg (by omega)]
    · rw [e]
theorem mem_pieces {f a : Nat} {bs : List Byte} {p : Nat × List Byte} (h : p ∈ pieces f a bs) : a ≤ p.1 ∧ p.1 + p.2.length ≤ a + bs.length := by
  induction f generalizing a bs with
  | zero => cases h
  | succ f ih =>
    unfold pieces at h
    split at h
    · cases h
    · dsimp only at h
      rcases List.mem_cons.1 h with rfl | h
      · simp only [List.length_take]
        omega
      · obtain ⟨start, stop⟩ := ih h
        have nonempty : bs.length ≠ 0 := fun e => by simp_all
        simp only [List.length_drop] at stop
        by_cases within : 64 - a % 64 ≤ bs.length
        · omega
        · have empty : bs.drop (64 - a % 64) = [] := List.drop_eq_nil_of_le (by omega)
          rw [empty] at h
          cases f <;> simp [pieces] at h
theorem State.memWrite_writesIn (ok : s.memOk) (w : Who) (a : Nat) (bs : List Byte) : State.WritesIn a (a + bs.length) s (s.memWrite w a bs).2 := by
  have each : ∀ (l : List (Nat × List Byte)) (r : Bool × State), (∀ p ∈ l, a ≤ p.1 ∧ p.1 + p.2.length ≤ a + bs.length) → State.WritesIn a (a + bs.length) s r.2 →
      State.WritesIn a (a + bs.length) s (l.foldl (fun r p => if r.1 then r.2.lineWrite w p.1 p.2 else r) r).2 := fun l => by
    induction l with
    | nil => exact fun _ _ h => h
    | cons x l ih =>
      intro r within done
      refine ih _ (fun p hp => within p (.tail _ hp)) ?_
      obtain ⟨start, stop⟩ := within x (.head _)
      dsimp only
      split
      · exact done.trans ((State.lineWrite_writesIn done.ok w x.1 x.2).mono start stop)
      · exact done
  exact each _ (true, s) (fun p hp => mem_pieces hp) ⟨ok, rfl, rfl, rfl, fun _ _ => rfl⟩
/-- Bytes within one line are written at once. -/
theorem pieces_line {a f : Nat} {bs : List Byte} (some : bs ≠ []) (line : a / 64 = (a + bs.length - 1) / 64) : pieces (f + 1) a bs = [(a, bs)] := by
  have length : 0 < bs.length := List.length_pos_iff.2 some
  have within : bs.length ≤ 64 - a % 64 := by omega
  have last : pieces f (a + (64 - a % 64)) [] = [] := by cases f <;> rfl
  rw [pieces, if_neg (by rw [List.isEmpty_iff]; exact some)]
  dsimp only
  rw [List.take_of_length_le within, List.drop_eq_nil_of_le within, last]
theorem State.memWrite_line (w : Who) {a : Nat} {bs : List Byte} (some : bs ≠ []) (line : a / 64 = (a + bs.length - 1) / 64) (sound : (s.mark a).double = false) :
    (s.memWrite w a bs).2.mem = Mem.puts s.mem a bs := by
  rw [State.memWrite, pieces_line some line]
  exact (s.lineWrite_mem w a bs).2 sound
theorem State.byteAt_line {t : State} {a n i : Nat} (mix : t.flash.mix = s.flash.mix) (ram : 0x40000 ≤ a) (free : s.mixSeed a = none)
    (line : a / 64 = (a + n - 1) / 64) (hi : i < n) : t.byteAt (a + i) = Mem.get t.mem (a + i) := by
  have same : t.mixSeed (a + i) = none := by
    have block : flashBlock (a + i) = flashBlock a := by
      have side : (a + i < 0x0A000000) ↔ (a < 0x0A000000) := by omega
      simp only [flashBlock, side]
      split <;> omega
    have range : (0x08000000 ≤ a + i ∧ a + i < 0x0A040000) ↔ (0x08000000 ≤ a ∧ a < 0x0A040000) := by omega
    rw [← free, State.mixSeed, State.mixSeed, mix, block]
    simp only [range]
  rw [State.byteAt, if_neg (by omega), same]

/-! ### The store buffer (R284, R285) -/

/-- A buffered store that drains into memory. -/
theorem State.drain_writesIn {c : Fin 9} {x : Buffered} {rest : List Buffered} (ok : s.memOk) (first : (s.buf c).stores = x :: rest) (ram : isReg x.addr = false) :
    let s' := s.setBuf c { s.buf c with stores := rest, since := s.now }
    State.WritesIn x.addr (x.addr + x.bytes.length) s' (s.drain c) ∧ ∃ t : State, t.mem = s.mem ∧ t.marks = s.marks ∧
      (s.drain c).mem = (t.memWrite ⟨.core c, x.view⟩ x.addr x.bytes).2.mem := by
  let s' := s.setBuf c { s.buf c with stores := rest, since := s.now }
  let t := s'.arbitrate x.addr (Requester.core c).arbNo x.rivals
  have drains : s.drain c = (t.memWrite ⟨.core c, x.view⟩ x.addr x.bytes).2 := by
    unfold State.drain
    rw [first]
    dsimp only
    unfold State.store
    rw [ram]
    rfl
  have fields : Blind (fun s => (s.mem, s.marks, s.flash.mix, s.cpus, s.bufs)) 0 0 := blind_field (fun _ _ _ => rfl) (fun _ _ _ => rfl) (fun _ _ => rfl)
  have same := fields.arbitrate (fun _ _ => rfl) (Nat.zero_le _) s' x.addr (Requester.core c).arbNo x.rivals
  have mem : t.mem = s.mem := congrArg (·.1) same
  have passed : State.WritesIn x.addr (x.addr + x.bytes.length) s' t :=
    ⟨(congrArg (Mem.wf · = true) mem).mpr ok, congrArg (·.2.2.1) same, congrArg (·.2.2.2.1) same, congrArg (·.2.2.2.2) same, fun b _ => by rw [mem]; rfl⟩
  intro s'
  rw [drains]
  exact ⟨passed.trans (State.memWrite_writesIn passed.ok _ _ _), t, mem, congrArg (·.2.1) same, rfl⟩
theorem State.drain_fields {c : Fin 9} {x : Buffered} {rest : List Buffered} (ok : s.memOk) (first : (s.buf c).stores = x :: rest) (ram : isReg x.addr = false) :
    (s.drain c).memOk ∧ ((s.drain c).buf c).stores = rest ∧ ∀ b, b < x.addr ∨ x.addr + x.bytes.length ≤ b → (s.drain c).byteAt b = s.byteAt b := by
  obtain ⟨writes, -⟩ := State.drain_writesIn ok first ram
  refine ⟨writes.ok, ?_, fun b off => writes.byteAt off⟩
  rw [State.buf, writes.bufs]
  exact congrArg CoreBuf.stores (s.buf_setBuf_same c { s.buf c with stores := rest, since := s.now })
theorem State.drain_takes {c : Fin 9} {x : Buffered} {rest : List Buffered} (ok : s.memOk) (first : (s.buf c).stores = x :: rest) (ram : isReg x.addr = false)
    (above : 0x40000 ≤ x.addr) (free : s.mixSeed x.addr = none) (line : x.addr / 64 = (x.addr + x.bytes.length - 1) / 64) (some : x.bytes ≠ [])
    (sound : (s.mark x.addr).double = false) {i : Nat} (hi : i < x.bytes.length) : (s.drain c).byteAt (x.addr + i) = x.bytes.getD i 0#8 := by
  obtain ⟨writes, t, mem, marks, drained⟩ := State.drain_writesIn ok first ram
  have sound' : (t.mark x.addr).double = false := by rw [State.mark, marks]; exact sound
  rw [State.byteAt_line (s := s) writes.mix above free line hi, drained, State.memWrite_line _ some line sound', mem, Mem.get_puts _ _ ok, if_pos (by omega),
    Nat.add_sub_cancel_left]

/-! ### What a core sees of its stores -/

theorem overlaid_length (a : Nat) (bs : List Byte) (e : Buffered) : (overlaid a bs e).length = bs.length := by simp [overlaid]
/-- A store that covers all bytes hides what stood there. -/
theorem overlaid_over {a : Nat} {bs old : List Byte} {e : Buffered} (addr : e.addr = a) (bytes : e.bytes = bs) (length : old.length = bs.length) : overlaid a old e = bs := by
  refine List.ext_getElem ((overlaid_length ..).trans length) fun i h1 h2 => ?_
  simp only [overlaid, List.getElem_map, List.getElem_range, addr, bytes]
  rw [if_pos (by omega), Nat.add_sub_cancel_left, List.getD_eq_getElem _ _ h2]
/-- A store elsewhere leaves a byte. -/
theorem overlaid_beside {b : Nat} {old : List Byte} {e : Buffered} (one : old.length = 1) (off : b < e.addr ∨ e.addr + e.bytes.length ≤ b) : overlaid b old e = old := by
  obtain ⟨v, rfl⟩ := List.length_eq_one_iff.1 one
  have out : ¬(e.addr ≤ b ∧ b < e.addr + e.bytes.length) := by omega
  simp [overlaid, out]
theorem foldl_overlaid_length (a : Nat) (l : List Buffered) (bs : List Byte) : (l.foldl (overlaid a) bs).length = bs.length := by
  induction l generalizing bs with
  | nil => rfl
  | cons e l ih => exact (ih _).trans (overlaid_length ..)
theorem State.seenBy_length (s : State) (c a n : Nat) : (s.seenBy c a n).length = n := (foldl_overlaid_length ..).trans (by simp [State.bytesAt])
/-- A store that enters the buffer is the last one laid over memory. -/
theorem State.seenBy_append {t : State} {c : Nat} {e : Buffered} (bytes : ∀ a n, t.bytesAt a n = s.bytesAt a n) (stores : (t.buf c).stores = (s.buf c).stores ++ [e])
    (a n : Nat) : t.seenBy c a n = overlaid a (s.seenBy c a n) e := by
  rw [State.seenBy, stores, List.foldl_append, bytes]
  rfl

/-! ### Stores and loads of processors -/

theorem State.bufStore_room {c : Fin 9} (lvl a : Nat) (bs : List Byte) (rivals : List Nat) (room : (s.buf c).stores.length < 4) :
    s.bufStore c lvl a bs rivals = s.setBuf c { (s.buf c).stored a bs with
      stores := (s.buf c).stores ++ [⟨a, bs, lvl, s.coreOwner c, rivals⟩], since := if (s.buf c).stores.isEmpty then s.now else (s.buf c).since } := by
  unfold State.bufStore
  rw [if_neg (Nat.not_le.2 room)]
/-- A store that does not raise an exception enters the buffer. -/
theorem State.dataStore_core {c : Fin 9} {a : Nat} {bs : List Byte} {rivals : List Nat} {t : State} (h : s.dataStore (.core c) a bs rivals = (none, t)) :
    t = s.bufStore c (s.cpuAt c).lvl a bs rivals := by
  unfold State.dataStore at h
  dsimp only at h
  split at h
  · cases h
    rfl
  · cases h
theorem State.dataStore_refused {c : Fin 9} {a : Nat} {bs : List Byte} {rivals : List Nat} {e : Exc} {t : State} (h : s.dataStore (.core c) a bs rivals = (some e, t)) :
    t.mem = s.mem ∧ t.flash.mix = s.flash.mix := by
  unfold State.dataStore at h
  dsimp only at h
  split at h
  · cases h
  · cases h
    exact ⟨blind_mem.refuse s _ _ _ _ _ _ (.inl (Nat.zero_le _)) (.inl (Nat.zero_le _)),
      congrArg (·.1) (blind_held.refuse s _ _ _ _ _ _ (.inl (Nat.zero_le _)) (.inl (Nat.zero_le _)))⟩
/-- A store of a lane into its data RAM. -/
theorem State.laneStore_data {k : Fin 16} {a : Nat} {bs : List Byte} {rivals : List Nat} {r : Option Exc} {t : State} (ok : s.memOk)
    (within : inLaneData k a bs.length = true) (h : s.dataStore (.lane k) a bs rivals = (r, t)) : State.WritesIn a (a + bs.length) s t := by
  have stored : s.dataStore (.lane k) a bs rivals = s.ramStore ⟨.lane k, s.owner 1 k⟩ a a bs := if_pos within
  have after : t = (s.memWrite ⟨.lane k, s.owner 1 k⟩ a bs).2 := (congrArg Prod.snd (stored.symm.trans h)).symm
  rw [after]
  exact State.memWrite_writesIn ok ⟨.lane k, s.owner 1 k⟩ a bs

/-- Neither memory nor a register stands where the buffered stores go that byte `b` is kept from. -/
def State.Clear (s : State) (c : Fin 9) (b : Nat) : Prop := ∀ e ∈ (s.buf c).stores, isReg e.addr = false ∧ (b < e.addr ∨ e.addr + e.bytes.length ≤ b)
theorem State.bufStore_clear {c : Fin 9} {b a lvl : Nat} {bs : List Byte} {rivals : List Nat} (ok : s.memOk) (clear : s.Clear c b) (ram : isReg a = false)
    (off : b < a ∨ a + bs.length ≤ b) :
    (s.bufStore c lvl a bs rivals).memOk ∧ (s.bufStore c lvl a bs rivals).Clear c b ∧ (s.bufStore c lvl a bs rivals).byteAt b = s.byteAt b := by
  let u := if 4 ≤ (s.buf c).stores.length then s.drain c else s
  have drained : u.memOk ∧ u.Clear c b ∧ u.byteAt b = s.byteAt b := by
    simp only [u]
    split
    · next full =>
      cases first : (s.buf c).stores with
      | nil => rw [first] at full; cases full
      | cons x rest =>
        have every : ∀ e ∈ x :: rest, isReg e.addr = false ∧ (b < e.addr ∨ e.addr + e.bytes.length ≤ b) := fun e he => clear e (first ▸ he)
        obtain ⟨reg, apart⟩ := every x (.head _)
        obtain ⟨ok', stores, bytes⟩ := State.drain_fields ok first reg
        exact ⟨ok', fun e he => every e (.tail _ (stores ▸ he)), bytes b apart⟩
    · exact ⟨ok, clear, rfl⟩
  obtain ⟨ok', clear', byte⟩ := drained
  refine ⟨ok', fun e he => ?_, byte⟩
  have stores : ((s.bufStore c lvl a bs rivals).buf c).stores = (u.buf c).stores ++ [⟨a, bs, lvl, u.coreOwner c, rivals⟩] :=
    congrArg CoreBuf.stores (u.buf_setBuf_same c _)
  rw [stores] at he
  rcases List.mem_append.1 he with old | new
  · exact clear' e old
  · cases List.mem_singleton.1 new
    exact ⟨ram, off⟩
theorem leBytes_length (n v : Nat) : (leBytes n v).length = n := by
  induction n generalizing v with
  | zero => rfl
  | succ n ih => exact congrArg (· + 1) (ih _)
theorem State.pushWords_byte {c : Fin 9} {b : Nat} {rivals : List Nat} {ws : List Word} {a j : Nat} {r : Option Exc} {t : State} (ok : s.memOk) (clear : s.Clear c b)
    (ram : ∀ i, i < ws.length → isReg ((a + 4 * i) % 2 ^ 32) = false)
    (off : ∀ i, i < ws.length → b < (a + 4 * i) % 2 ^ 32 ∨ (a + 4 * i) % 2 ^ 32 + 4 ≤ b) (h : s.pushWords (.core c) rivals a ws = (j, r, t)) : t.byteAt b = s.byteAt b := by
  induction ws generalizing s a j with
  | nil =>
    cases h
    rfl
  | cons v vs ih =>
    unfold State.pushWords at h
    split at h
    · next e u stored =>
      cases h
      obtain ⟨mem, mix⟩ := State.dataStore_refused stored
      exact State.byteAt_congr mem mix b
    · next u stored =>
      have off0 := off 0 (Nat.succ_pos _)
      obtain ⟨ok', clear', byte⟩ := State.bufStore_clear (lvl := (s.cpuAt c).lvl) (bs := leBytes 4 v.toNat) (rivals := rivals) ok clear (ram 0 (Nat.succ_pos _))
        (by rw [leBytes_length]; exact off0)
      rw [show (a + 4 * 0) % 2 ^ 32 = a % 2 ^ 32 from rfl, ← State.dataStore_core stored] at ok' clear' byte
      have next : ∀ i, a + 4 + 4 * i = a + 4 * (i + 1) := fun i => by omega
      cases pushed : u.pushWords (.core c) rivals (a + 4) vs with
      | mk i p =>
        rw [pushed] at h
        cases h
        refine (ih ok' clear' (fun i hi => ?_) (fun i hi => ?_) pushed).trans byte
        · rw [next]
          exact ram (i + 1) (Nat.succ_lt_succ hi)
        · rw [next]
          exact off (i + 1) (Nat.succ_lt_succ hi)
theorem State.load_mem {a : Nat} (ram : isReg a = false) (w : Who) (n : Nat) (rivals : List Nat) : (s.load w a n rivals).2.mem = s.mem := by
  unfold State.load
  rw [ram]
  exact State.mem_of_atRest ((State.memRead_atRest _ w a n).trans (s.arbitrate_atRest a w.req.arbNo rivals))
theorem State.ramLoad_mem (w : Who) (at_ a n : Nat) : (s.ramLoad w at_ a n).2.mem = s.mem := by
  have read : (s.memRead w at_ n).2.mem = s.mem := State.mem_of_atRest (s.memRead_atRest w at_ n)
  unfold State.ramLoad
  split
  · next e => rw [e] at read; exact read
  · next e => rw [e] at read; exact read
theorem State.coreLoad_mem {c : Fin 9} {a : Nat} (ram : isReg a = false) (n : Nat) (rivals : List Nat) : (s.coreLoad c a n rivals).2.mem = s.mem := by
  unfold State.coreLoad
  rw [if_neg (by rw [ram]; exact Bool.false_ne_true)]
  dsimp only
  split
  · exact State.load_mem ram _ n rivals
  · split
    · rfl
    · exact State.load_mem ram _ n rivals
theorem State.dataLoad_mem {p : Proc} {a : Nat} (ram : isReg a = false) (n : Nat) (rivals : List Nat) : (s.dataLoad p a n rivals).2.mem = s.mem := by
  cases p with
  | lane k =>
    show (s.laneLoad k a n).2.mem = s.mem
    unfold State.laneLoad
    dsimp only
    split_ifs
    · exact State.ramLoad_mem ..
    · rfl
    · exact State.ramLoad_mem ..
    · split <;> rfl
  | core c =>
    have loaded := State.coreLoad_mem (s := s) (c := c) ram n rivals
    unfold State.dataLoad
    dsimp only
    split
    · split
      · next e => rw [e] at loaded; exact loaded
      · next e => rw [e] at loaded; exact loaded
    · exact blind_mem.refuse s _ _ _ _ _ _ (.inl (Nat.zero_le _)) (.inl (Nat.zero_le _))
end

/-- Settles O22, access by access. -/
theorem storesTouchOnlyTheirBytes : Obligations.StoresTouchOnlyTheirBytes := by
  intro s t c p k a n bs ws rivals r j x rest ok
  refine ⟨fun within h => ?_, fun room h => ?_, fun first ram => ?_, fun ram clear h b off apart => ?_, fun e ram h => ?_⟩
  · have writes := State.laneStore_data ok within h
    exact ⟨fun b off => writes.byteAt off, writes.cpus⟩
  · rw [State.dataStore_core h, State.bufStore_room _ _ _ _ room]
    generalize hb : CoreBuf.mk .. = buffer
    have stores : ((s.setBuf c buffer).buf c).stores = (s.buf c).stores ++ [⟨a, bs, (s.cpuAt c).lvl, s.coreOwner c, rivals⟩] := by
      rw [s.buf_setBuf_same, ← hb]
    have seen := State.seenBy_append (s := s) (t := s.setBuf c buffer) (fun _ _ => rfl) stores
    refine ⟨rfl, rfl, ?_, fun b off => ?_⟩
    · rw [seen]
      exact overlaid_over rfl rfl (s.seenBy_length ..)
    · rw [seen]
      exact overlaid_beside (s.seenBy_length ..) off
  · obtain ⟨-, stores, bytes⟩ := State.drain_fields ok first ram
    exact ⟨stores, bytes, fun above free line some sound i hi => State.drain_takes ok first ram above free line some sound hi⟩
  · exact State.pushWords_byte ok (fun e he => ⟨clear e he, apart e he⟩) ram off h
  · have kept := State.dataLoad_mem (s := s) (p := p) ram n rivals
    rw [h] at kept
    exact kept
end Sys2Proof.Machine
end

section
/-!
PROOF. Feeder ports (spec/14).
-/
namespace Sys2Proof.Machine

/-! ### What a port's change leaves -/

theorem blind_fse : Blind State.fse 0 0 := blind_field (fun _ _ _ => rfl) (fun _ _ _ => rfl) (fun _ _ => rfl)
theorem State.port_of_fse {s t : State} (h : t.fse = s.fse) (n : Nat) : t.port n = s.port n := by rw [State.port, h, State.port]

namespace Blind
variable {β : Type} {g : State → β} {lo a : Nat} (b : Blind g lo a)
include b
/-- An emission of one of the matrix's lines, where the channel that caused it has its status elsewhere. -/
theorem emit_off (s : State) {p : Nat} (hp : p < 1024) {c : Cause} (hc : ∀ x ∈ c, a ≤ (R.EVM_Cc_STATUS x.2).addr ∨ (R.EVM_Cc_STATUS x.2).addr < lo)
    (h : a ≤ 0x40280000 ∨ 0x40284000 ≤ lo) : g (s.emit p c) = g s := by
  unfold State.emit
  split
  · exact b.raise_of s _ hp h
  · next k d =>
    split
    · exact b.raise_of s _ hp h
    · unfold State.setLoop
      rw [State.apply_when g, b.raise_of _ _ (by decide) h, ite_self, b.put _ _ _ (hc _ rfl)]
end Blind

section
variable {s : State} {n : Nat}

theorem State.setPort_eq (s : State) (n : Nat) (x : FsePort) : s.setPort n x =
    (({ s with fse := s.fse.set n x } : State).putB (R.FSE_Pn_STATUS_TX_ACTIVE n) x.tx.isSome).putB (R.FSE_Pn_LOOP_INJECTING n) x.tx.isSome := rfl
theorem State.setPort_rd (x : FsePort) {r : Reg} (h : r.addr ≠ (R.FSE_Pn_STATUS n).addr) (h' : r.addr ≠ (R.FSE_Pn_LOOP n).addr) : (s.setPort n x).rd r = s.rd r := by
  let u : State := { s with fse := s.fse.set n x }
  rw [s.setPort_eq]
  exact (State.rd_put_ne (u.putB (R.FSE_Pn_STATUS_TX_ACTIVE n) x.tx.isSome) (R.FSE_Pn_LOOP_INJECTING n) r _ h').trans
    (State.rd_put_ne u (R.FSE_Pn_STATUS_TX_ACTIVE n) r _ h)
theorem fseLoop_ne (n : Nat) : (R.FSE_Pn_STATUS n).addr ≠ (R.FSE_Pn_LOOP n).addr := by
  simp only [R.FSE_Pn_STATUS, R.FSE_Pn_LOOP]
  omega
/-- TX_ACTIVE follows the transmission; the rest of the port's status stays. -/
theorem State.setPort_active (x : FsePort) : (s.setPort n x).on (R.FSE_Pn_STATUS_TX_ACTIVE n) = x.tx.isSome := by
  let u : State := { s with fse := s.fse.set n x }
  rw [s.setPort_eq]
  exact (State.on_put_ne (u.putB (R.FSE_Pn_STATUS_TX_ACTIVE n) x.tx.isSome) (R.FSE_Pn_LOOP_INJECTING n) (R.FSE_Pn_STATUS_TX_ACTIVE n) _ (fseLoop_ne n)).trans
    (State.on_putB_self u (R.FSE_Pn_STATUS_TX_ACTIVE n) _ ⟨rfl⟩ ⟨rfl⟩)
theorem State.setPort_status (x : FsePort) {k : Nat} (h : k ≠ 8) : (s.setPort n x).on ⟨R.FSE_Pn_STATUS n, k, 1⟩ = s.on ⟨R.FSE_Pn_STATUS n, k, 1⟩ := by
  let u : State := { s with fse := s.fse.set n x }
  rw [s.setPort_eq]
  exact (State.on_put_ne (u.putB (R.FSE_Pn_STATUS_TX_ACTIVE n) x.tx.isSome) (R.FSE_Pn_LOOP_INJECTING n) ⟨R.FSE_Pn_STATUS n, k, 1⟩ _ (fseLoop_ne n)).trans
    (State.on_put_apart u (R.FSE_Pn_STATUS_TX_ACTIVE n) ⟨R.FSE_Pn_STATUS n, k, 1⟩ _ rfl (by simp only [R.FSE_Pn_STATUS_TX_ACTIVE]; omega))
theorem State.setPort_mute (x : FsePort) : (s.setPort n x).on (R.FSE_Pn_LOOP_MUTE n) = s.on (R.FSE_Pn_LOOP_MUTE n) := by
  let u : State := { s with fse := s.fse.set n x }
  rw [s.setPort_eq]
  exact (State.on_put_beside (u.putB (R.FSE_Pn_STATUS_TX_ACTIVE n) x.tx.isSome) (R.FSE_Pn_LOOP_INJECTING n) (R.FSE_Pn_LOOP_MUTE n) _ ⟨rfl⟩ ⟨rfl⟩).trans
    (State.on_put_ne u (R.FSE_Pn_STATUS_TX_ACTIVE n) (R.FSE_Pn_LOOP_MUTE n) _ (fseLoop_ne n).symm)
theorem State.fseGate_port (s : State) (n m : Nat) : (s.fseGate n).port m = s.port m := State.port_of_fse (blind_fse.fseGate s n (Nat.zero_le _)) m
theorem State.fseGate_rd {r : Reg} (h : r.addr ≠ (R.FSE_Pn_STATUS n).addr) : (s.fseGate n).rd r = s.rd r := State.rd_put_ne s (R.FSE_Pn_STATUS_GATED n) r _ h
theorem State.fseGate_status {k : Nat} (h : k ≠ 11) : (s.fseGate n).on ⟨R.FSE_Pn_STATUS n, k, 1⟩ = s.on ⟨R.FSE_Pn_STATUS n, k, 1⟩ :=
  State.on_put_apart s (R.FSE_Pn_STATUS_GATED n) ⟨R.FSE_Pn_STATUS n, k, 1⟩ _ rfl (by simp only [R.FSE_Pn_STATUS_GATED]; omega)
/-- An event raised leaves all registers off the matrix. -/
theorem State.raise_rd {r : Reg} {p : Nat} (hp : p < 1024) (off : r.addr < 0x40280000 ∨ 0x40284000 ≤ r.addr) (h : Nat) : (s.raise p h).rd r = s.rd r :=
  (blind_rd r).raise_of s h hp (by omega)
theorem State.raise_port (p h m : Nat) : (s.raise p h).port m = s.port m := State.port_of_fse (blind_fse.raise s p h (Nat.zero_le _)) m

/-! ### The start of a transmission (R327, R329, R339, R340) -/

/-- TX_START is the next multiple of 80,000 ticks, a lead ahead. -/
theorem txStart_fields (now : Time) (ack : Bool) (early : now.toNat < 2 ^ 63) :
    let lead := if ack then 0 else 1600000
    (txStart now ack).toNat % 80000 = 0 ∧ now.toNat + lead ≤ (txStart now ack).toNat ∧ (txStart now ack).toNat < now.toNat + lead + 80000 := by
  have start : (txStart now ack).toNat = (now.toNat + (if ack then 0 else 1600000) + 79999) / 80000 * 80000 % 2 ^ 64 := BitVec.toNat_ofNat ..
  intro lead
  have small : lead ≤ 1600000 := by
    simp only [lead]
    split <;> decide
  rw [start, show (if ack then 0 else 1600000) = lead from rfl]
  clear_value lead
  clear start
  have fits : (now.toNat + lead + 79999) / 80000 * 80000 < 2 ^ 64 := by omega
  rw [Nat.mod_eq_of_lt fits]
  omega

/-! ### The head frame (R329, R339) -/

theorem State.portIdle_start (clear : Bool) (runs : s.portRuns n = true) (enabled : s.on (R.FSE_Pn_CTRL_ENABLE n) = true) (loud : s.on (R.FSE_Pn_LOOP_MUTE n) = false)
    (quiet : (s.port n).tx = none) :
    (if !s.portRuns n || !s.on (R.FSE_Pn_CTRL_ENABLE n) || s.on (R.FSE_Pn_LOOP_MUTE n) || (s.port n).tx.isSome then s
      else if 0 < (s.port n).acks then s.fseAck n
      else if clear && !(s.port n).answers.isEmpty then s.fseReply n
      else (s.fseStart n clear).fseGate n) =
    if 0 < (s.port n).acks then s.fseAck n else if clear && !(s.port n).answers.isEmpty then s.fseReply n else (s.fseStart n clear).fseGate n :=
  if_neg (by rw [runs, enabled, loud, quiet]; decide)

/-- A due acknowledgement goes out where RATE_OK lets it, or counts as failed. -/
theorem State.fseAck_sends (rate : s.on (R.FSE_Pn_STATUS_RATE_OK n) = true) : ((s.fseAck n).port n).acks = (s.port n).acks - 1 ∧
    ((s.fseAck n).port n).tx = some ⟨true, txStart s.now true, [], 1, 0, false⟩ := by
  let t := s.setPort n { s.port n with acks := (s.port n).acks - 1 }
  have rate' : t.on (R.FSE_Pn_STATUS_RATE_OK n) = true := (State.setPort_status _ (k := 9) (by decide)).trans rate
  have port : t.port n = { s.port n with acks := (s.port n).acks - 1 } := s.port_setPort_same n _
  have sends : s.fseAck n = t.setPort n { t.port n with tx := some ⟨true, txStart t.now true, [], 1, 0, false⟩ } := if_neg (by rw [rate']; decide)
  rw [sends, t.port_setPort_same, port]
  exact ⟨rfl, rfl⟩
theorem State.fseAck_fails (quiet : (s.port n).tx = none) (rate : s.on (R.FSE_Pn_STATUS_RATE_OK n) = false) : ((s.fseAck n).port n).acks = (s.port n).acks - 1 ∧
    ((s.fseAck n).port n).tx = none ∧ (s.fseAck n).get (R.FSE_Pn_ERRCNT_ACK_FAIL n) = min (s.get (R.FSE_Pn_ERRCNT_ACK_FAIL n) + 1) 255 := by
  let t := s.setPort n { s.port n with acks := (s.port n).acks - 1 }
  have rate' : t.on (R.FSE_Pn_STATUS_RATE_OK n) = false := (State.setPort_status _ (k := 9) (by decide)).trans rate
  have port : (s.fseAck n).port n = { s.port n with acks := (s.port n).acks - 1 } := by
    have fails : s.fseAck n = t.incSat (R.FSE_Pn_ERRCNT_ACK_FAIL n) := if_pos (by rw [rate']; rfl)
    rw [fails, State.port_of_fse (blind_fse.incSat t _ (.inl (Nat.zero_le _)))]
    exact s.port_setPort_same n _
  have fails : s.fseAck n = t.incSat (R.FSE_Pn_ERRCNT_ACK_FAIL n) := if_pos (by rw [rate']; rfl)
  have kept : t.get (R.FSE_Pn_ERRCNT_ACK_FAIL n) = s.get (R.FSE_Pn_ERRCNT_ACK_FAIL n) :=
    congrArg (fieldGet · 24 8) (State.setPort_rd _ (r := R.FSE_Pn_ERRCNT n) (by simp only [R.FSE_Pn_ERRCNT, R.FSE_Pn_STATUS]; omega)
      (by simp only [R.FSE_Pn_ERRCNT, R.FSE_Pn_LOOP]; omega))
  refine ⟨by rw [port], by rw [port]; exact quiet, ?_⟩
  rw [fails, State.get_incSat t _ _ (Nat.le_of_ble_eq_true rfl), kept]
  rfl

/-- The head frame of port `n`, as its descriptor stands in memory. -/
def State.headDesc (s : State) (n : Nat) : TxDesc := txDesc (s.bytesAt (s.fseDesc n) 32)

/-- The head frame may start: it is posted, not done, waits for nothing, and has its go where it asks for one. -/
structure State.HeadDue (s : State) (n : Nat) : Prop where
  posted : s.fsePosted n = true
  result : (s.port n).result = none
  wait : (s.port n).wait = false
  go : (s.headDesc n).flags.testBit 4 = true → (s.port n).go ≠ none

/-- The transmission of the head frame that starts now. -/
def State.headTx (s : State) (n : Nat) (d : TxDesc) (b : List Byte) : FseTx :=
  ⟨false, txStart s.now false, b, (s.fseMod n d).1, (s.fseMod n d).2, false⟩

section
variable (due : s.HeadDue n) (first : (s.port n).tries = 0)
include due first
theorem State.fseStart_due (clear : Bool) {r : Except Nat (List Byte)} {t : State} (frame : s.fseFrame n (s.headDesc n) = (r, t)) : s.fseStart n clear =
    match r with
    | .error e => t.fseResult n e
    | .ok b =>
      if !clear then t.fseResult n 2
      else if !t.on (R.FSE_Pn_STATUS_RATE_OK n) then t.fseResult n 5
      else t.setPort n { t.port n with
        tx := some (t.headTx n (s.headDesc n) b), last := some (t.headTx n (s.headDesc n) b), tries := (s.port n).tries + 1, tstamp := txStart t.now false } := by
  obtain ⟨posted, result, wait, go⟩ := due
  have gated : (bit (s.headDesc n).flags 4 && (s.port n).go.isNone) = false := by
    cases bit4 : bit (s.headDesc n).flags 4
    · rfl
    · cases e : (s.port n).go
      · exact absurd e (go bit4)
      · rfl
  unfold State.fseStart
  extract_lets x d
  rw [if_neg (by rw [posted, show x.result = none from result, show x.wait = false from wait, show (bit d.flags 4 && x.go.isNone) = false from gated]; decide)]
  rw [if_pos (show x.tries = 0 from first), show s.fseFrame n d = (r, t) from frame]
  cases r with
  | error e => rfl
  | ok b =>
    dsimp only [State.headTx]
    rfl
end

theorem State.fseResult_port (code : Nat) : (s.fseResult n code).port n = { s.port n with result := some code } := by
  have raised : (s.fseResult n code).port n = (s.setPort n { s.port n with result := some code }).port n :=
    State.when_keeps (s.setPort n { s.port n with result := some code }) (State.port · n) _ (State.raise_port ..)
  exact raised.trans (s.port_setPort_same n _)

/-- The head frame is readable: its descriptor names it, and its bytes come from memory. -/
structure State.HeadReads (s : State) (n : Nat) (b : List Byte) : Prop where
  first : (s.port n).tries = 0
  sound : (s.headDesc n).resvd = false
  long : 5 ≤ (s.headDesc n).len
  short : (s.headDesc n).len ≤ 1280
  reach : s.reach .feeder (s.owner 7 n) false .read (s.headDesc n).addr (s.headDesc n).len = true
  read : s.memEgress (s.fseWho n) (s.headDesc n).addr (s.headDesc n).len = (some b, s)
/-- The context of the head frame is the port owner's. -/
structure State.HeadOwned (s : State) (n : Nat) : Prop where
  within : (s.headDesc n).ctx < 2 ^ 20
  valid : ctxFlag (s.ctx (s.headDesc n).ctx) 0 = true
  owner : ctxOwner (s.ctx (s.headDesc n).ctx) = s.owner 7 n

section
variable {b : List Byte}
theorem State.fseFrame_short (bad : (s.headDesc n).resvd = true ∨ (s.headDesc n).len < 5 ∨ 1280 < (s.headDesc n).len) :
    s.fseFrame n (s.headDesc n) = (.error 7, s) := by
  unfold State.fseFrame
  extract_lets p secure owned
  refine if_pos ?_
  rcases bad with h | h | h <;> simp [h]
variable (reads : s.HeadReads n b)
include reads
theorem State.fseFrame_checked (named : (s.headDesc n).ctx = 2 ^ 32 - 1 ∧ (s.headDesc n).flags.testBit 0 = false ∨ s.HeadOwned n) :
    s.fseFrame n (s.headDesc n) = if !bit (s.headDesc n).flags 0 then (.ok b, s)
      else match s.secure (s.owner 7 n) (s.headDesc n).ctx (s.get (R.FSE_Pn_EXT_LO_EXT_LO n) + 2 ^ 32 * s.get (R.FSE_Pn_EXT_HI_EXT_HI n)) b with
        | (none, s) => (.error 6, s)
        | (some f, s) => (.ok f, s) := by
  obtain ⟨-, sound, long, short, reach, read⟩ := reads
  have open_ : ¬(bit (s.headDesc n).flags 0 && (s.headDesc n).ctx == 0xFFFFFFFF) = true := by
    rcases named with ⟨-, plain⟩ | ⟨within, -, -⟩
    · simp [bit, plain]
    · have : ¬(s.headDesc n).ctx = 0xFFFFFFFF := by omega
      simp [this]
  have allowed : ((s.headDesc n).ctx != 0xFFFFFFFF && !((s.headDesc n).ctx < 1048576 && ctxFlag (s.ctx (s.headDesc n).ctx) 0 &&
      ctxOwner (s.ctx (s.headDesc n).ctx) == s.owner 7 n)) = false := by
    rcases named with ⟨none, -⟩ | ⟨within, valid, owner⟩
    · simp [none]
    · simp only [valid, owner, show (s.headDesc n).ctx < 1048576 from within]
      simp
  unfold State.fseFrame
  extract_lets p secure owned
  rw [if_neg (by simp only [sound, Nat.not_lt.2 long, Nat.not_lt.2 short, decide_false, Bool.false_or]; exact open_)]
  rw [if_neg (by rw [show ((s.headDesc n).ctx != 0xFFFFFFFF && !owned) = false from allowed]; exact Bool.false_ne_true)]
  rw [if_neg (by rw [show s.reach .feeder p false .read (s.headDesc n).addr (s.headDesc n).len = true from reach]; decide), read] <;> rfl
theorem State.fseFrame_plain (plain : (s.headDesc n).flags.testBit 0 = false) (named : (s.headDesc n).ctx = 2 ^ 32 - 1 ∨ s.HeadOwned n) :
    s.fseFrame n (s.headDesc n) = (.ok b, s) := by
  rw [State.fseFrame_checked reads (named.imp (fun e => ⟨e, plain⟩) id)]
  exact if_pos (by rw [bit, plain]; rfl)
/-- The key of the head frame's context. -/
def State.headKey (s : State) (n : Nat) : Nat := ctxField (s.ctx (s.headDesc n).ctx) 14 1 % 8
theorem State.fseFrame_secured (secure : (s.headDesc n).flags.testBit 0 = true) (owned : s.HeadOwned n)
    (valid : s.on (R.SES_Pp_KEYk_CTRL_VALID (s.owner 7 n) (s.headKey n)) = true) (left : s.get (R.SES_Pp_KEYk_TXFC_TXFC (s.owner 7 n) (s.headKey n)) ≠ 2 ^ 32 - 1) :
    s.fseFrame n (s.headDesc n) = (.ok (Config.ccmSeal (s.sesKey (s.owner 7 n) (s.headKey n))
      (s.get (R.FSE_Pn_EXT_LO_EXT_LO n) + 2 ^ 32 * s.get (R.FSE_Pn_EXT_HI_EXT_HI n)) (s.get (R.SES_Pp_KEYk_TXFC_TXFC (s.owner 7 n) (s.headKey n)))
      (s.get (R.SES_Pp_KEYk_CTRL_KEY_ID (s.owner 7 n) (s.headKey n))) b),
      s.put (R.SES_Pp_KEYk_TXFC_TXFC (s.owner 7 n) (s.headKey n)) (s.get (R.SES_Pp_KEYk_TXFC_TXFC (s.owner 7 n) (s.headKey n)) + 1)) := by
  rw [State.fseFrame_checked reads (.inr owned), if_neg (by rw [bit, secure]; decide)]
  have sealed : ∀ ext, s.secure (s.owner 7 n) (s.headDesc n).ctx ext b = (some (Config.ccmSeal (s.sesKey (s.owner 7 n) (s.headKey n)) ext
      (s.get (R.SES_Pp_KEYk_TXFC_TXFC (s.owner 7 n) (s.headKey n))) (s.get (R.SES_Pp_KEYk_CTRL_KEY_ID (s.owner 7 n) (s.headKey n))) b),
      s.put (R.SES_Pp_KEYk_TXFC_TXFC (s.owner 7 n) (s.headKey n)) (s.get (R.SES_Pp_KEYk_TXFC_TXFC (s.owner 7 n) (s.headKey n)) + 1)) := fun ext => by
    refine if_neg ?_
    rw [show s.on (R.SES_Pp_KEYk_CTRL_VALID (s.owner 7 n) (ctxField (s.ctx (s.headDesc n).ctx) 14 1 % 8)) = true from valid]
    simpa [State.headKey] using left
  rw [sealed]
end

/-- What a started head frame leaves: its transmission, one more try, and TX_ACTIVE. -/
theorem State.fseStart_sends {bytes : List Byte} {t : State} (due : s.HeadDue n) (first : (s.port n).tries = 0) (frame : s.fseFrame n (s.headDesc n) = (.ok bytes, t))
    (rate : t.on (R.FSE_Pn_STATUS_RATE_OK n) = true) : (s.fseStart n true) = t.setPort n { t.port n with
        tx := some (t.headTx n (s.headDesc n) bytes), last := some (t.headTx n (s.headDesc n) bytes), tries := (s.port n).tries + 1, tstamp := txStart t.now false } := by
  rw [State.fseStart_due due first true frame]
  exact (if_neg (by decide)).trans (if_neg (by rw [rate]; decide))
/-- The head frame is on its way with `bytes`. -/
def State.HeadSent (s t : State) (n : Nat) (bytes : List Byte) : Prop := ∃ y, (t.port n).tx = some y ∧ y.ack = false ∧ y.bytes = bytes ∧
  (s.now.toNat < 2 ^ 63 → y.start.toNat % 80000 = 0 ∧ s.now.toNat + 1600000 ≤ y.start.toNat ∧ y.start.toNat < s.now.toNat + 1600000 + 80000) ∧
  (t.port n).tries = (s.port n).tries + 1 ∧ (t.port n).tstamp = y.start ∧ t.on (R.FSE_Pn_STATUS_TX_ACTIVE n) = true
theorem State.headSent {bytes : List Byte} {t : State} (due : s.HeadDue n) (first : (s.port n).tries = 0) (frame : s.fseFrame n (s.headDesc n) = (.ok bytes, t))
    (rate : t.on (R.FSE_Pn_STATUS_RATE_OK n) = true) (now : t.now = s.now) : s.HeadSent ((s.fseStart n true).fseGate n) n bytes := by
  rw [State.HeadSent, State.fseGate_port, State.fseStart_sends due first frame rate, t.port_setPort_same]
  refine ⟨t.headTx n (s.headDesc n) bytes, rfl, rfl, rfl, fun early => ?_, rfl, rfl, ?_⟩
  · rw [← now] at early ⊢
    exact txStart_fields t.now false early
  · exact (State.fseGate_status (k := 8) (by decide)).trans (State.setPort_active _)
theorem State.fseStart_result {bytes : List Byte} (due : s.HeadDue n) (first : (s.port n).tries = 0) :
    (s.fseFrame n (s.headDesc n) = (.ok bytes, s) → ((s.fseStart n false).fseGate n).port n = { s.port n with result := some 2 } ∧
      (s.on (R.FSE_Pn_STATUS_RATE_OK n) = false → ((s.fseStart n true).fseGate n).port n = { s.port n with result := some 5 })) ∧
    (s.fseFrame n (s.headDesc n) = (.error 7, s) → ∀ clear, ((s.fseStart n clear).fseGate n).port n = { s.port n with result := some 7 }) := by
  refine ⟨fun frame => ⟨?_, fun rate => ?_⟩, fun frame clear => ?_⟩
  · rw [State.fseGate_port, State.fseStart_due due first false frame]
    exact (congrArg (State.port · n) (if_pos rfl)).trans (State.fseResult_port 2)
  · rw [State.fseGate_port, State.fseStart_due due first true frame]
    exact (congrArg (State.port · n) ((if_neg (by decide)).trans (if_pos (by rw [rate]; rfl)))).trans (State.fseResult_port 5)
  · rw [State.fseGate_port, State.fseStart_due due first clear frame]
    exact State.fseResult_port 7

/-! ### Replies, ends and acknowledgements (R327, R334, R337, R339) -/

theorem State.fseReply_sends {u : MacAddr} {m g : Nat} {more : List (MacAddr × Nat × Nat)} (first : (s.port n).answers = (u, m, g) :: more) :
    (s.on (R.FSE_Pn_STATUS_RATE_OK n) = true → (s.fseReply n).port n = { s.port n with
      answers := more, tx := some ⟨false, txStart s.now false, Config.toneReply m g, 1, if s.on (R.FSE_Pn_IMAGE_BAND n) then 0xFFFFFF else 0x3F, true⟩ }) ∧
    (s.on (R.FSE_Pn_STATUS_RATE_OK n) = false → (s.fseReply n).port n = { s.port n with answers := more }) := by
  unfold State.fseReply
  extract_lets x all
  rw [show x.answers = (u, m, g) :: more from first]
  refine ⟨fun rate => ?_, fun rate => ?_⟩
  · exact (congrArg (State.port · n) (if_pos rate)).trans (s.port_setPort_same n _)
  · exact (congrArg (State.port · n) (if_neg (by rw [rate]; exact Bool.false_ne_true))).trans (s.port_setPort_same n _)

theorem State.fseEnd_ends {w : FseTx} (runs : s.portRuns n = true) (sending : (s.port n).tx = some w)
    (over_ : s.reached (w.lastSample (s.on (R.FSE_Pn_IMAGE_BAND n))) = true) :
    s.fseEnd n = if w.ack || w.reply then s.setPort n { s.port n with tx := none, quiet := s.portQuiet }
      else s.setPort n { s.port n with
        tx := none, quiet := s.portQuiet, wait := bit (s.headDesc n).flags 1, result := if bit (s.headDesc n).flags 1 then none else some 0 } := by
  unfold State.fseEnd
  extract_lets x
  rw [show x.tx = some w from sending]
  refine (if_neg ?_).trans rfl
  rw [runs, over_]
  decide
theorem State.fseEnd_early {w : FseTx} (sending : (s.port n).tx = some w) (early : s.reached (w.lastSample (s.on (R.FSE_Pn_IMAGE_BAND n))) = false) :
    s.fseEnd n = s := by
  unfold State.fseEnd
  extract_lets x
  rw [show x.tx = some w from sending]
  refine if_pos ?_
  rw [early]
  simp

/-! ### The write-back (R338) -/

/-- The bytes that a write-back stores. -/
def State.wroteBack (s : State) (n code : Nat) : State :=
  if s.reach .feeder (s.owner 7 n) false .write (s.fseDesc n) 32 then
    (((s.memWrite (s.fseWho n) (s.fseDesc n + 16) (leBytes 1 code ++ leBytes 1 (s.port n).tries)).2).memWrite (s.fseWho n) (s.fseDesc n + 20)
      (leBytes 8 (s.port n).tstamp.toNat)).2
  else s.refuse .feeder (s.owner 7 n) .write (s.fseDesc n) 32
theorem State.fseWriteBack_eq (code : Nat) : ∃ cause : Cause, s.fseWriteBack n code =
    ((((((s.wroteBack n code).inc (R.FSE_Pn_FRAMES_TX n)).put (R.FSE_Pn_TXRING_TXHEAD n)
      (((s.wroteBack n code).get (R.FSE_Pn_TXRING_TXHEAD n) + 1) % (s.wroteBack n code).get (R.FSE_Pn_TXSIZE_SIZE n))).setPort n
        { s.port n with result := none, wait := false, tries := 0, go := none }).fseGate n).emit (684 + 4 * n) cause).source (s.owner 7 n) (6 + n) :=
  ⟨_, rfl⟩
theorem State.wroteBack_rd (code : Nat) {r : Reg} (off : 0x40284000 ≤ r.addr) (low : r.addr < 0x40460000) : (s.wroteBack n code).rd r = s.rd r := by
  have writes : ∀ (t : State) w d bs, (t.memWrite w d bs).2.rd r = t.rd r := fun t w d bs => State.memWrite_rd t w d bs (.inr off) low
  unfold State.wroteBack
  split
  · rw [writes, writes]
  · exact (blind_rd r).refuse s _ _ _ _ _ _ (.inr off) (.inr (by omega))
theorem State.fseWriteBack_fields (hn : n < 4) (code : Nat) : (s.fseWriteBack n code).mem = (s.wroteBack n code).mem ∧
    (s.fseWriteBack n code).port n = { s.port n with result := none, wait := false, tries := 0, go := none } ∧
    (s.fseWriteBack n code).get (R.FSE_Pn_FRAMES_TX n) = (s.get (R.FSE_Pn_FRAMES_TX n) + 1) % 65536 ∧
    (s.fseWriteBack n code).get (R.FSE_Pn_TXRING_TXHEAD n) = (s.get (R.FSE_Pn_TXRING_TXHEAD n) + 1) % s.get (R.FSE_Pn_TXSIZE_SIZE n) % 1024 := by
  obtain ⟨cause, eq⟩ := s.fseWriteBack_eq (n := n) code
  rw [eq]
  let t := s.wroteBack n code
  let head := (t.get (R.FSE_Pn_TXRING_TXHEAD n) + 1) % t.get (R.FSE_Pn_TXSIZE_SIZE n)
  let u := (t.inc (R.FSE_Pn_FRAMES_TX n)).put (R.FSE_Pn_TXRING_TXHEAD n) head
  let x : FsePort := { s.port n with result := none, wait := false, tries := 0, go := none }
  have kept : ∀ q : RF, q.reg.addr = (R.FSE_Pn_FRAMES n).addr ∨ q.reg.addr = (R.FSE_Pn_TXRING n).addr →
      ((((u.setPort n x).fseGate n).emit (684 + 4 * n) cause).source (s.owner 7 n) (6 + n)).get q = u.get q := fun q h => by
    have ne : q.reg.addr ≠ (R.FSE_Pn_STATUS n).addr ∧ q.reg.addr ≠ (R.FSE_Pn_LOOP n).addr := by
      simp only [R.FSE_Pn_STATUS, R.FSE_Pn_LOOP, R.FSE_Pn_FRAMES, R.FSE_Pn_TXRING] at h ⊢
      omega
    have apart : ∀ d, q.reg.addr + 1 ≤ (R.EVM_Cc_STATUS d).addr ∨ (R.EVM_Cc_STATUS d).addr < q.reg.addr := fun d => by
      simp only [R.EVM_Cc_STATUS, R.FSE_Pn_FRAMES, R.FSE_Pn_TXRING] at h ⊢
      omega
    have page : 0x40284000 ≤ q.reg.addr := by
      simp only [R.FSE_Pn_FRAMES, R.FSE_Pn_TXRING] at h
      omega
    have rd : ((((u.setPort n x).fseGate n).emit (684 + 4 * n) cause).source (s.owner 7 n) (6 + n)).rd q.reg = u.rd q.reg :=
      (Blind.source (g := fun t => t.rd q.reg) (fun _ _ => rfl) _ _ _).trans
        (((blind_rd q.reg).emit_off _ (by omega) (fun y _ => apart y.2) (.inr page)).trans ((State.fseGate_rd ne.1).trans (State.setPort_rd x ne.1 ne.2)))
    exact congrArg (fieldGet · q.lsb q.wid) rd
  have regs : ∀ q : RF, 0x40301000 ≤ q.reg.addr → q.reg.addr < 0x40460000 → t.get q = s.get q := fun q h low =>
    congrArg (fieldGet · q.lsb q.wid) (State.wroteBack_rd code (by omega) low)
  have frames : t.get (R.FSE_Pn_FRAMES_TX n) = s.get (R.FSE_Pn_FRAMES_TX n) :=
    regs _ (by simp only [R.FSE_Pn_FRAMES_TX, R.FSE_Pn_FRAMES]; omega) (by simp only [R.FSE_Pn_FRAMES_TX, R.FSE_Pn_FRAMES]; omega)
  have ring : t.get (R.FSE_Pn_TXRING_TXHEAD n) = s.get (R.FSE_Pn_TXRING_TXHEAD n) :=
    regs _ (by simp only [R.FSE_Pn_TXRING_TXHEAD, R.FSE_Pn_TXRING]; omega) (by simp only [R.FSE_Pn_TXRING_TXHEAD, R.FSE_Pn_TXRING]; omega)
  have size : t.get (R.FSE_Pn_TXSIZE_SIZE n) = s.get (R.FSE_Pn_TXSIZE_SIZE n) :=
    regs _ (by simp only [R.FSE_Pn_TXSIZE_SIZE, R.FSE_Pn_TXSIZE]; omega) (by simp only [R.FSE_Pn_TXSIZE_SIZE, R.FSE_Pn_TXSIZE]; omega)
  refine ⟨?_, ?_, ?_, ?_⟩
  · exact (Blind.source (g := State.mem) (fun _ _ => rfl) _ _ _).trans ((blind_mem.emit _ _ _ (Nat.zero_le _)).trans ((blind_mem.fseGate _ n (Nat.zero_le _)).trans
      ((blind_mem.setPort (fun _ _ => rfl) u n x (Nat.zero_le _)).trans ((blind_mem.put _ _ _ (.inl (Nat.zero_le _))).trans (blind_mem.inc t _ (.inl (Nat.zero_le _)))))))
  · have fse := (Blind.source (g := State.fse) (fun _ _ => rfl) (((u.setPort n x).fseGate n).emit (684 + 4 * n) cause) (s.owner 7 n) (6 + n)).trans
      ((blind_fse.emit ((u.setPort n x).fseGate n) (684 + 4 * n) cause (Nat.zero_le _)).trans (blind_fse.fseGate (u.setPort n x) n (Nat.zero_le _)))
    exact (State.port_of_fse fse n).trans (u.port_setPort_same n x)
  · rw [kept _ (.inl rfl), State.get_put_ne _ (R.FSE_Pn_TXRING_TXHEAD n) _ _ (by simp only [R.FSE_Pn_TXRING_TXHEAD, R.FSE_Pn_FRAMES_TX, R.FSE_Pn_TXRING, R.FSE_Pn_FRAMES]; omega),
      State.get_inc _ _ (Nat.le_of_ble_eq_true rfl), frames]
    rfl
  · rw [kept _ (.inr rfl), State.get_put_self _ (R.FSE_Pn_TXRING_TXHEAD n) _ ⟨rfl⟩]
    simp only [head, ring, size]
    rfl
theorem State.wroteBack_mem (code : Nat) :
    (s.reach .feeder (s.owner 7 n) false .write (s.fseDesc n) 32 = true → (s.wroteBack n code).mem =
      ((s.memWrite (s.fseWho n) (s.fseDesc n + 16) [BitVec.ofNat 8 code, BitVec.ofNat 8 (s.port n).tries]).2.memWrite (s.fseWho n) (s.fseDesc n + 20)
        (leBytes 8 (s.port n).tstamp.toNat)).2.mem) ∧
    (s.reach .feeder (s.owner 7 n) false .write (s.fseDesc n) 32 = false → (s.wroteBack n code).mem = s.mem) := by
  refine ⟨fun may => congrArg State.mem (if_pos may), fun not => ?_⟩
  refine (congrArg State.mem (if_neg (by rw [not]; exact Bool.false_ne_true))).trans ?_
  exact blind_mem.refuse s _ _ _ _ _ _ (.inl (Nat.zero_le _)) (.inl (Nat.zero_le _))

/-! ### Reception (R333 to R337) -/

/-- A receiver hears the channel: it is enabled, its converter group runs, and its port neither sends nor has just sent. -/
structure State.Hears (s : State) (n : Nat) : Prop where
  runs : s.portRuns n = true
  enabled : s.on (R.FSE_Pn_CTRL_RX_EN n) = true
  running : s.running (25 + s.get (R.FSE_Pn_IMAGE_RX_FC n) / 8) = true
  released : s.domReset (25 + s.get (R.FSE_Pn_IMAGE_RX_FC n) / 8) = false
  silent (y : FseTx) (h : (s.port n).tx = some y) : s.reached y.start = false
  quiet (e : Time) (h : (s.port n).quiet = some e) : s.reached e = true

/-- The port as it stands once an accepted frame has asked for its acknowledgement and its answer. -/
def State.asked (s : State) (n : Nat) (f : AirFrame) : FsePort :=
  let all := if s.on (R.FSE_Pn_IMAGE_BAND n) then 0xFFFFFF else 0x3F
  let ans := toneMap all (s.get (R.FSE_Pn_TMTHR_G_OFF n)) (s.get (R.FSE_Pn_TMTHR_T_D2 n)) (s.get (R.FSE_Pn_TMTHR_T_D3 n)) f.groups
  { s.port n with
    acks := (s.port n).acks + (f.ackReq && s.on (R.FSE_Pn_CTRL_ACK_EN n)).toNat,
    answers := if f.tmReq then (s.port n).answers ++ [(f.src, ans.1, ans.2)] else (s.port n).answers }
theorem State.fseReceive_hears (hears : s.Hears n) (f : AirFrame) : s.fseReceive n f =
    if !f.fcs then s.incSat (R.FSE_Pn_ERRCNT_RX_FCS_FAIL n)
    else if !s.fseAccepts n f.dest then s
    else if 65536 < (s.port n).buf.foldl (fun k e => k + frameSize e.1) 0 + frameSize f then (s.setPort n (s.asked n f)).portFault n (R.FSE_Pn_STATUS_RX_OVERFLOW n)
    else (((s.setPort n { s.asked n f with buf := (s.port n).buf ++ [(f, s.now)] }).inc (R.FSE_Pn_FRAMES_RX n)).raise (685 + 4 * n)).source (s.owner 7 n) (6 + n) := by
  obtain ⟨runs, enabled, running, released, silent, quiet⟩ := hears
  have free : ((match (s.port n).tx with | some t => s.reached t.start | none => false) || (match (s.port n).quiet with | some t => !s.reached t | none => false)) = false := by
    have first : (match (s.port n).tx with | some t => s.reached t.start | none => false) = false := by
      split
      · next e => exact silent _ e
      · rfl
    have second : (match (s.port n).quiet with | some t => !s.reached t | none => false) = false := by
      split
      · next e => rw [quiet _ e]; rfl
      · rfl
    rw [first, second]
    rfl
  unfold State.fseReceive
  extract_lets x fc all ans y used
  rw [if_neg (by rw [runs, enabled]; decide), if_neg (by rw [running, released]; decide)]
  exact if_neg fun h => Bool.false_ne_true (free.symm.trans h)
theorem foldl_size (l : List (AirFrame × Time)) (k : Nat) :
    l.foldl (fun k e => k + frameSize e.1) k = k + (l.map fun e => e.1.header.length + e.1.payload.length).sum := by
  induction l generalizing k with
  | nil => rfl
  | cons e l ih =>
    rw [List.foldl_cons, ih, List.map_cons, List.sum_cons, frameSize]
    omega
theorem State.portFault_fields (hn : n < 4) (k : Nat) : (s.portFault n ⟨R.FSE_Pn_STATUS n, k, 1⟩).port n = s.port n ∧
    (s.portFault n ⟨R.FSE_Pn_STATUS n, k, 1⟩).rd (R.FSE_Pn_CTRL n) = s.rd (R.FSE_Pn_CTRL n) := by
  refine ⟨State.port_of_fse (blind_fse.portFault s hn k (.inl (Nat.zero_le _)) (.inl (Nat.zero_le _))) n, ?_⟩
  let t := s.put ⟨R.FSE_Pn_STATUS n, k, 1⟩ 1
  have raised : (s.portFault n ⟨R.FSE_Pn_STATUS n, k, 1⟩).rd (R.FSE_Pn_CTRL n) = t.rd (R.FSE_Pn_CTRL n) :=
    t.when_keeps (State.rd · (R.FSE_Pn_CTRL n)) _ (State.raise_rd (by omega) (.inr (by simp only [R.FSE_Pn_CTRL]; omega)) 0)
  exact raised.trans (State.rd_put_ne s ⟨R.FSE_Pn_STATUS n, k, 1⟩ _ _ (by simp only [R.FSE_Pn_CTRL, R.FSE_Pn_STATUS]; omega))
theorem State.portFault_on (hn : n < 4) (q : RF) (page : q.reg = R.FSE_Pn_STATUS n) (one : q.lsb + q.wid ≤ 32) (wide : 0 < q.wid) : (s.portFault n q).on q = true := by
  let t := s.put q 1
  have raised : (s.portFault n q).on q = t.on q :=
    t.when_keeps (State.on · q) _ (congrArg (fun v => fieldGet v q.lsb q.wid != 0)
      (State.raise_rd (by omega) (.inr (by rw [page]; simp only [R.FSE_Pn_STATUS]; omega)) 0))
  rw [raised, State.on_put s q 1 one, Nat.mod_eq_of_lt (Nat.one_lt_two_pow (Nat.pos_iff_ne_zero.1 wide))]
  rfl
theorem State.received_fields (hn : n < 4) (x : FsePort) :
    ((((s.setPort n x).inc (R.FSE_Pn_FRAMES_RX n)).raise (685 + 4 * n)).source (s.owner 7 n) (6 + n)).port n = x ∧
    ((((s.setPort n x).inc (R.FSE_Pn_FRAMES_RX n)).raise (685 + 4 * n)).source (s.owner 7 n) (6 + n)).get (R.FSE_Pn_FRAMES_RX n) = (s.get (R.FSE_Pn_FRAMES_RX n) + 1) % 65536 := by
  let t := s.setPort n x
  have fse := (Blind.source (g := State.fse) (fun _ _ => rfl) ((t.inc (R.FSE_Pn_FRAMES_RX n)).raise (685 + 4 * n)) (s.owner 7 n) (6 + n)).trans
    ((blind_fse.raise (t.inc (R.FSE_Pn_FRAMES_RX n)) (685 + 4 * n) 0 (Nat.zero_le _)).trans (blind_fse.inc t (R.FSE_Pn_FRAMES_RX n) (.inl (Nat.zero_le _))))
  have rd : (((t.inc (R.FSE_Pn_FRAMES_RX n)).raise (685 + 4 * n)).source (s.owner 7 n) (6 + n)).rd (R.FSE_Pn_FRAMES n) = (t.inc (R.FSE_Pn_FRAMES_RX n)).rd (R.FSE_Pn_FRAMES n) :=
    (Blind.source (g := fun t => t.rd (R.FSE_Pn_FRAMES n)) (fun _ _ => rfl) _ _ _).trans (State.raise_rd (by omega) (.inr (by simp only [R.FSE_Pn_FRAMES]; omega)) 0)
  have before : t.get (R.FSE_Pn_FRAMES_RX n) = s.get (R.FSE_Pn_FRAMES_RX n) :=
    congrArg (fieldGet · 16 16) (State.setPort_rd x (r := R.FSE_Pn_FRAMES n) (by simp only [R.FSE_Pn_FRAMES, R.FSE_Pn_STATUS]; omega)
      (by simp only [R.FSE_Pn_FRAMES, R.FSE_Pn_LOOP]; omega))
  refine ⟨(State.port_of_fse fse n).trans (s.port_setPort_same n x), ?_⟩
  have counted := t.get_inc (R.FSE_Pn_FRAMES_RX n) (Nat.le_of_ble_eq_true rfl)
  rw [before] at counted
  exact (congrArg (fieldGet · 16 16) rd).trans counted

/-! ### MUTE and DISABLED (R330, R331, R340) -/

theorem State.endTx_idle (code : Nat) (idle : (s.port n).tx = none) : s.endTx n code = s := by
  unfold State.endTx
  dsimp only
  rw [idle]
/-- A frame in progress ends with its status. -/
theorem State.endTx_frame {w : FseTx} (code : Nat) (sending : (s.port n).tx = some w) (ack : w.ack = false) (reply : w.reply = false) : (s.endTx n code).port n =
    { s.port n with tx := none, result := some code, quiet := if s.reached w.start then some (s.now + 1280000#64) else (s.port n).quiet } := by
  let x : FsePort := { s.port n with tx := none, quiet := if s.reached w.start then s.portQuiet else (s.port n).quiet }
  let t := s.setPort n { x with result := some code }
  have ended : s.endTx n code = t.when (code == 3 || code == 4 || code == 5) fun s => s.raise (686 + 4 * n) := by
    unfold State.endTx
    dsimp only
    rw [sending]
    dsimp only
    rw [ack, reply]
    rfl
  have raised : (t.when (code == 3 || code == 4 || code == 5) fun s => s.raise (686 + 4 * n)).port n = t.port n := t.when_keeps (State.port · n) _ (State.raise_port ..)
  rw [ended, raised]
  exact s.port_setPort_same n _
theorem State.endTx_rd (hn : n < 4) (code : Nat) {r : Reg} (page : r.addr = (R.FSE_Pn_CTRL n).addr) : (s.endTx n code).rd r = s.rd r := by
  have set : ∀ x : FsePort, (s.setPort n x).rd r = s.rd r := fun x =>
    State.setPort_rd x (by rw [page]; simp only [R.FSE_Pn_CTRL, R.FSE_Pn_STATUS]; omega) (by rw [page]; simp only [R.FSE_Pn_CTRL, R.FSE_Pn_LOOP]; omega)
  have raised : ∀ t : State, (t.raise (686 + 4 * n)).rd r = t.rd r := fun t => State.raise_rd (by omega) (.inr (by rw [page]; simp only [R.FSE_Pn_CTRL]; omega)) 0
  unfold State.endTx
  dsimp only
  split
  · rfl
  · split
    · exact (State.rd_put_ne _ (R.FSE_Pn_ERRCNT_ACK_FAIL n) r _ (by rw [page]; simp only [R.FSE_Pn_CTRL, R.FSE_Pn_ERRCNT_ACK_FAIL, R.FSE_Pn_ERRCNT]; omega)).trans (set _)
    · split
      · exact set _
      · exact (State.when_keeps _ (State.rd · r) _ (raised _)).trans (set _)
theorem State.endTx_mute (hn : n < 4) (code : Nat) : (s.endTx n code).on (R.FSE_Pn_LOOP_MUTE n) = s.on (R.FSE_Pn_LOOP_MUTE n) := by
  have raised : ∀ t : State, (t.raise (686 + 4 * n)).on (R.FSE_Pn_LOOP_MUTE n) = t.on (R.FSE_Pn_LOOP_MUTE n) := fun t =>
    congrArg (fun v => fieldGet v 0 1 != 0) (State.raise_rd (r := R.FSE_Pn_LOOP n) (by omega) (.inr (by simp only [R.FSE_Pn_LOOP]; omega)) 0)
  have flagged : ∀ (t : State) (b : Bool), (t.when b fun s => s.raise (686 + 4 * n)).on (R.FSE_Pn_LOOP_MUTE n) = t.on (R.FSE_Pn_LOOP_MUTE n) := fun t b =>
    t.when_keeps (State.on · (R.FSE_Pn_LOOP_MUTE n)) b (raised t)
  have set : ∀ x : FsePort, (s.setPort n x).on (R.FSE_Pn_LOOP_MUTE n) = s.on (R.FSE_Pn_LOOP_MUTE n) := fun x => State.setPort_mute x
  have counted : ∀ t : State, (t.incSat (R.FSE_Pn_ERRCNT_ACK_FAIL n)).on (R.FSE_Pn_LOOP_MUTE n) = t.on (R.FSE_Pn_LOOP_MUTE n) := fun t =>
    State.on_put_ne t (R.FSE_Pn_ERRCNT_ACK_FAIL n) (R.FSE_Pn_LOOP_MUTE n) _ (by simp only [R.FSE_Pn_LOOP_MUTE, R.FSE_Pn_LOOP, R.FSE_Pn_ERRCNT_ACK_FAIL, R.FSE_Pn_ERRCNT]; omega)
  unfold State.endTx
  dsimp only
  split
  · rfl
  · split
    · exact (counted _).trans (set _)
    · split
      · exact set _
      · exact (flagged _ _).trans (set _)
end

section
variable {s : State} {n : Nat}
/-- The tail posts descriptors (R338). -/
theorem txringWrite_fields (tail : BitVec 10) : (txringWrite n tail.toNat s).get (R.FSE_Pn_TXRING_TXTAIL n) = tail.toNat ∧
    (txringWrite n tail.toNat s).get (R.FSE_Pn_TXRING_TXHEAD n) = s.get (R.FSE_Pn_TXRING_TXHEAD n) ∧ (txringWrite n tail.toNat s).port n = s.port n ∧
    (txringWrite n tail.toNat s).on (R.FSE_Pn_STATUS_GATED n) = ((txringWrite n tail.toNat s).fsePosted n && (s.headDesc n).flags.testBit 4 && (s.port n).go.isNone &&
      (s.port n).tx.isNone && (s.port n).result.isNone) := by
  let t := s.put (R.FSE_Pn_TXRING_TXTAIL n) tail.toNat
  have gate : ∀ q : RF, q.reg.addr ≠ (R.FSE_Pn_STATUS n).addr → (t.fseGate n).get q = t.get q := fun q h => congrArg (fieldGet · q.lsb q.wid) (State.fseGate_rd h)
  have ring : (R.FSE_Pn_TXRING n).addr ≠ (R.FSE_Pn_STATUS n).addr := by simp only [R.FSE_Pn_TXRING, R.FSE_Pn_STATUS]; omega
  have size : (R.FSE_Pn_TXSIZE n).addr ≠ (R.FSE_Pn_STATUS n).addr := by simp only [R.FSE_Pn_TXSIZE, R.FSE_Pn_STATUS]; omega
  have headKept : t.get (R.FSE_Pn_TXRING_TXHEAD n) = s.get (R.FSE_Pn_TXRING_TXHEAD n) := s.get_put_beside (R.FSE_Pn_TXRING_TXTAIL n) _ _ ⟨rfl⟩ ⟨rfl⟩
  have base : t.get (R.FSE_Pn_TXBASE_BASE n) = s.get (R.FSE_Pn_TXBASE_BASE n) :=
    s.get_put_ne (R.FSE_Pn_TXRING_TXTAIL n) (R.FSE_Pn_TXBASE_BASE n) _ (by simp only [R.FSE_Pn_TXRING_TXTAIL, R.FSE_Pn_TXBASE_BASE, R.FSE_Pn_TXRING, R.FSE_Pn_TXBASE]; omega)
  have desc : t.headDesc n = s.headDesc n := by
    have at_ : t.fseDesc n = s.fseDesc n := by rw [State.fseDesc, base, headKept, State.fseDesc]
    rw [State.headDesc, at_]
    rfl
  have posted : (t.fseGate n).fsePosted n = t.fsePosted n := by
    rw [State.fsePosted, gate (R.FSE_Pn_TXSIZE_SIZE n) size, gate (R.FSE_Pn_TXRING_TXHEAD n) ring, gate (R.FSE_Pn_TXRING_TXTAIL n) ring, State.fsePosted]
  refine ⟨?_, (gate _ ring).trans headKept, State.fseGate_port t n n, ?_⟩
  · exact (gate (R.FSE_Pn_TXRING_TXTAIL n) ring).trans ((State.get_put_self s (R.FSE_Pn_TXRING_TXTAIL n) _ ⟨rfl⟩).trans (Nat.mod_eq_of_lt tail.isLt))
  · rw [show (txringWrite n tail.toNat s).fsePosted n = t.fsePosted n from posted, ← desc]
    exact State.on_putB_self t (R.FSE_Pn_STATUS_GATED n) _ ⟨rfl⟩ ⟨rfl⟩
/-- MUTE ends a frame in progress (R330). -/
theorem fseLoopWrite_fields (hn : n < 4) (mute : Bool) : (fseLoopWrite n mute.toNat s).on (R.FSE_Pn_LOOP_MUTE n) = mute ∧
    (mute = true → ∀ {w : FseTx}, (s.port n).tx = some w → w.ack = false → w.reply = false → (fseLoopWrite n mute.toNat s).port n =
      { s.port n with tx := none, result := some 3, quiet := if s.reached w.start then some (s.now + 1280000#64) else (s.port n).quiet }) ∧
    (mute = false ∨ (s.port n).tx = none → (fseLoopWrite n mute.toNat s).port n = s.port n) := by
  let t := s.put (R.FSE_Pn_LOOP_MUTE n) mute.toNat
  have set : t.on (R.FSE_Pn_LOOP_MUTE n) = mute :=
    (State.on_put_self s (R.FSE_Pn_LOOP_MUTE n) _ ⟨rfl⟩).trans (by cases mute <;> rfl)
  have port : t.port n = s.port n := State.port_of_fse (blind_fse.put s _ _ (.inl (Nat.zero_le _))) n
  cases mute with
  | false => exact ⟨set, nofun, fun _ => port⟩
  | true =>
    have ends : fseLoopWrite n true.toNat s = t.endTx n 3 := rfl
    rw [ends]
    refine ⟨(State.endTx_mute hn 3).trans set, fun _ w sending ack reply => ?_, fun idle => ?_⟩
    · rw [State.endTx_frame 3 (port ▸ sending) ack reply, port]
      rfl
    · rw [State.endTx_idle 3 ((congrArg FsePort.tx port).trans (idle.resolve_left (by decide)))]
      exact port
/-- Clearing ENABLE ends a frame in progress, also one that waits for its acknowledgement (R340). -/
theorem fseCtrlWrite_fields (hn : n < 4) (v : BitVec 4) : (fseCtrlWrite n v.toNat s).rd (R.FSE_Pn_CTRL n) = v.zeroExtend 32 ∧
    (v.getLsbD 0 = false → ∀ {w : FseTx}, (s.port n).tx = some w → w.ack = false → w.reply = false → (s.port n).wait = false → (fseCtrlWrite n v.toNat s).port n =
      { s.port n with tx := none, result := some 9, quiet := if s.reached w.start then some (s.now + 1280000#64) else (s.port n).quiet }) ∧
    (v.getLsbD 0 = false → (s.port n).tx = none → (s.port n).wait = true → (fseCtrlWrite n v.toNat s).port n = { s.port n with wait := false, result := some 9 }) ∧
    (v.getLsbD 0 = true ∨ ((s.port n).tx = none ∧ (s.port n).wait = false) → (fseCtrlWrite n v.toNat s).port n = s.port n) := by
  let s1 := s.wr (R.FSE_Pn_CTRL n) (BitVec.ofNat 32 (v.toNat % 16))
  let off := fun s : State => if ((s.endTx n 9).port n).wait then (s.endTx n 9).setPort n { (s.endTx n 9).port n with wait := false, result := some 9 } else s.endTx n 9
  let s2 := s1.when (!bit v.toNat 0) off
  have faulted : ∀ (t : State) (b : Bool), (t.when b fun s => s.portFault n (R.FSE_Pn_STATUS_RX_NOSIGNAL n)).port n = t.port n ∧
      (t.when b fun s => s.portFault n (R.FSE_Pn_STATUS_RX_NOSIGNAL n)).rd (R.FSE_Pn_CTRL n) = t.rd (R.FSE_Pn_CTRL n) := fun t b =>
    ⟨t.when_keeps (State.port · n) b (State.portFault_fields hn 5).1, t.when_keeps (State.rd · (R.FSE_Pn_CTRL n)) b (State.portFault_fields hn 5).2⟩
  have port : (fseCtrlWrite n v.toNat s).port n = s2.port n := (faulted s2 _).1
  have ctrl : (fseCtrlWrite n v.toNat s).rd (R.FSE_Pn_CTRL n) = s2.rd (R.FSE_Pn_CTRL n) := (faulted s2 _).2
  have offCtrl : (off s1).rd (R.FSE_Pn_CTRL n) = s1.rd (R.FSE_Pn_CTRL n) := by
    have ended := State.endTx_rd (s := s1) hn 9 (r := R.FSE_Pn_CTRL n) rfl
    simp only [off]
    split
    · exact (State.setPort_rd _ (by simp only [R.FSE_Pn_CTRL, R.FSE_Pn_STATUS]; omega) (by simp only [R.FSE_Pn_CTRL, R.FSE_Pn_LOOP]; omega)).trans ended
    · exact ended
  have low : bit v.toNat 0 = v.getLsbD 0 := rfl
  refine ⟨?_, fun clear w sending ack reply wait => ?_, fun clear idle wait => ?_, fun kept => ?_⟩
  · have value : BitVec.ofNat 32 (v.toNat % 16) = v.zeroExtend 32 := by
      apply BitVec.eq_of_toNat_eq
      have := v.isLt
      simp only [BitVec.toNat_ofNat, BitVec.truncate_eq_setWidth, BitVec.toNat_setWidth]
      omega
    rw [ctrl, s1.when_keeps (State.rd · (R.FSE_Pn_CTRL n)) _ offCtrl, ← value]
    exact State.rd_wr_same ..
  · have ended := State.endTx_frame (s := s1) 9 sending ack reply
    have done : s2 = s1.endTx n 9 := by
      have idle : ((s1.endTx n 9).port n).wait = false := (congrArg FsePort.wait ended).trans wait
      simp only [s2, off, low, clear, Bool.not_false, State.when_true, idle, Bool.false_eq_true, if_false]
    rw [port, done, ended]
    rfl
  · have ended := State.endTx_idle (s := s1) 9 idle
    have done : s2 = s1.setPort n { s1.port n with wait := false, result := some 9 } := by
      simp only [s2, off, low, clear, Bool.not_false, State.when_true, ended, show (s1.port n).wait = true from wait, if_true]
    rw [port, done]
    exact s1.port_setPort_same n _
  · rw [port]
    rcases kept with set | ⟨idle, wait⟩
    · simp only [s2, low, set]
      rfl
    · have ended := State.endTx_idle (s := s1) 9 idle
      have done : off s1 = s1 := by
        simp only [off, ended, show (s1.port n).wait = false from wait, Bool.false_eq_true, if_false]
      exact s1.when_keeps (State.port · n) _ (congrArg (State.port · n) done)
end

/-- Settles O51, command by command. -/
theorem feederPortsSendAndReceive : Obligations.FeederPortsSendAndReceive := by
  intro s q n tail clear acked mute v f w st b x a d p rate idle due given owned start sends stopped ends all key fc written used hears
  have begins : idle → ∀ clear, ∃ t, exec (.fseTxStart n clear) s = .next t ∧
      t = if 0 < x.acks then s.fseAck n else if clear && !x.answers.isEmpty then s.fseReply n else (s.fseStart n clear).fseGate n := fun ⟨runs, on, loud, quiet⟩ clear =>
    ⟨_, rfl, State.portIdle_start clear runs on loud quiet⟩
  have head : idle → due → ∀ clear, exec (.fseTxStart n clear) s = .next ((s.fseStart n clear).fseGate n) := fun i ⟨_, acks, answers, _⟩ clear => by
    obtain ⟨t, goes, eq⟩ := begins i clear
    rw [goes, eq, acks, answers]
    simp
  have isDue : due → s.HeadDue n := fun ⟨posted, _, _, result, wait, go⟩ => ⟨posted, result, wait, go⟩
  have isRead : given → s.HeadReads n b := fun ⟨first, sound, long, short, reach, read⟩ => ⟨first, sound, long, short, reach, read⟩
  have named : d.ctx = 2 ^ 32 - 1 ∨ owned → d.ctx = 2 ^ 32 - 1 ∨ s.HeadOwned n := Or.imp id fun ⟨within, valid, owner⟩ => ⟨within, valid, owner⟩
  have heard : hears → s.Hears n := fun ⟨runs, on, ⟨running, released⟩, silent, quiet⟩ => ⟨runs, on, running, released, silent, quiet⟩
  have wroteBack : ∀ code, written code (s.fseWriteBack n code) := fun code => by
    obtain ⟨mem, port, frames, ring⟩ := State.fseWriteBack_fields (s := s) n.isLt code
    exact ⟨fun may => mem.trans ((State.wroteBack_mem code).1 may), fun not => mem.trans ((State.wroteBack_mem code).2 not), port, frames, ring⟩
  refine ⟨fun acc => ⟨_, regWrite_accepts _ acc, txringWrite_fields tail⟩, fun i acks => ⟨fun ok => ?_, fun low => ?_⟩,
    fun i du gi => ⟨fun ok plain na => ?_, fun ok secure ow valid left => ?_, fun plain na => ?_, fun low plain na => ?_⟩, fun i du first bad => ?_,
    fun i acks u m g more answers => ⟨fun ok => ?_, fun low => ?_⟩, fun runs sending => ⟨fun last => ?_, fun early => ?_⟩, fun runs wait => ?_,
    fun runs result => ?_, fun runs result wait => ?_, fun h => ⟨fun ok accepts room => ?_, fun ok accepts full => ?_, fun ok other => ?_, fun bad => ?_⟩,
    fun acc => ?_, fun acc => ?_⟩
  · obtain ⟨t, goes, rfl⟩ := begins i clear
    obtain ⟨less, sent⟩ := State.fseAck_sends ok
    rw [if_pos acks] at goes
    exact ⟨_, goes, less, _, sent, rfl, fun early => txStart_fields s.now true early⟩
  · obtain ⟨t, goes, rfl⟩ := begins i clear
    rw [if_pos acks] at goes
    exact ⟨_, goes, State.fseAck_fails i.2.2.2 low⟩
  · exact ⟨_, head i du true, State.headSent (isDue du) gi.1 (State.fseFrame_plain (isRead gi) plain (named na)) ok rfl⟩
  · let fcReg := R.SES_Pp_KEYk_TXFC_TXFC p key
    let t := s.put fcReg (fc + 1)
    have frame : s.fseFrame n (s.headDesc n) = (.ok (Config.ccmSeal (s.sesKey p key) (s.get (R.FSE_Pn_EXT_LO_EXT_LO n) + 2 ^ 32 * s.get (R.FSE_Pn_EXT_HI_EXT_HI n))
        fc (s.get (R.SES_Pp_KEYk_CTRL_KEY_ID p key)) b), t) := State.fseFrame_secured (isRead gi) secure ⟨ow.1, ow.2.1, ow.2.2⟩ valid left
    have above : 0x40341000 ≤ fcReg.reg.addr := by simp only [fcReg, R.SES_Pp_KEYk_TXFC_TXFC, R.SES_Pp_KEYk_TXFC]; omega
    have below : (R.FSE_Pn_STATUS n).addr < 0x40341000 ∧ (R.FSE_Pn_LOOP n).addr < 0x40341000 := by simp only [R.FSE_Pn_STATUS, R.FSE_Pn_LOOP]; omega
    have ok' : t.on (R.FSE_Pn_STATUS_RATE_OK n) = true := (State.on_put_ne s fcReg (R.FSE_Pn_STATUS_RATE_OK n) _ (by simp only [R.FSE_Pn_STATUS_RATE_OK]; omega)).trans ok
    refine ⟨_, head i du true, State.headSent (isDue du) gi.1 frame ok' rfl, ?_⟩
    rw [State.fseStart_sends (isDue du) gi.1 frame ok']
    have kept : ∀ y : FsePort, ((t.setPort n y).fseGate n).get fcReg = t.get fcReg := fun y =>
      congrArg (fieldGet · fcReg.lsb fcReg.wid) ((State.fseGate_rd (by omega)).trans (State.setPort_rd y (by omega) (by omega)))
    have small : fc < 2 ^ 32 := s.get_lt fcReg
    exact (kept _).trans ((State.get_put_self s fcReg _ ⟨rfl⟩).trans (Nat.mod_eq_of_lt (show fc + 1 < 2 ^ 32 by omega)))
  · exact ⟨_, head i du false, ((State.fseStart_result (isDue du) gi.1).1 (State.fseFrame_plain (isRead gi) plain (named na))).1⟩
  · exact ⟨_, head i du true, ((State.fseStart_result (isDue du) gi.1).1 (State.fseFrame_plain (isRead gi) plain (named na))).2 low⟩
  · exact ⟨_, head i du clear, (State.fseStart_result (bytes := []) (isDue du) first).2 (State.fseFrame_short bad) clear⟩
  · obtain ⟨t, goes, rfl⟩ := begins i true
    rw [if_neg (Nat.not_lt.2 (Nat.le_of_eq acks)), answers] at goes
    have port := (State.fseReply_sends answers).1 ok
    refine ⟨_, goes, congrArg FsePort.answers port, _, congrArg FsePort.tx port, rfl, rfl, rfl, rfl, rfl, fun early => txStart_fields s.now false early⟩
  · obtain ⟨t, goes, rfl⟩ := begins i true
    rw [if_neg (Nat.not_lt.2 (Nat.le_of_eq acks)), answers] at goes
    exact ⟨_, goes, (State.fseReply_sends answers).2 low⟩
  · refine ⟨_, congrArg Host.Outcome.next (State.fseEnd_ends runs sending last), ?_⟩
    cases kind : w.ack || w.reply
    · obtain ⟨ack, reply⟩ := Bool.or_eq_false_iff.1 kind
      rw [if_neg Bool.false_ne_true, State.port_setPort_same, State.setPort_active]
      refine ⟨rfl, rfl, rfl, fun h => ?_, fun _ _ => ⟨rfl, rfl⟩⟩
      rw [ack, reply] at h
      simp at h
    · rw [if_pos rfl, State.port_setPort_same, State.setPort_active]
      refine ⟨rfl, rfl, rfl, fun _ => ⟨rfl, rfl⟩, fun ack reply => ?_⟩
      rw [ack, reply] at kind
      cases kind
  · exact congrArg Host.Outcome.next (State.fseEnd_early sending early)
  · by_cases again : x.tries ≤ s.get (R.FSE_Pn_CSMA_MAX_RETRIES n)
    · have goes : execFseAckTimeout n s = .next (s.setPort n { x with wait := false }) :=
        congrArg Host.Outcome.next ((if_neg (by rw [runs, show (s.port n).wait = true from wait]; decide)).trans (if_pos again))
      refine ⟨_, goes, (s.port_setPort_same n _).trans ?_⟩
      rw [if_pos again]
    · have goes : execFseAckTimeout n s = .next (s.setPort n { x with wait := false, result := some 1 }) :=
        congrArg Host.Outcome.next ((if_neg (by rw [runs, show (s.port n).wait = true from wait]; decide)).trans (if_neg again))
      refine ⟨_, goes, (s.port_setPort_same n _).trans ?_⟩
      rw [if_neg again]
  · have goes : execFseDescriptorDone n acked s = .next (s.fseWriteBack n st) := by
      simp only [execFseDescriptorDone, runs, show (s.port n).result = some st from result, Bool.not_true, Bool.false_eq_true, if_false]
    exact ⟨_, goes, wroteBack st⟩
  · have goes : execFseDescriptorDone n true s = .next (s.fseWriteBack n 0) := by
      simp only [execFseDescriptorDone, runs, show (s.port n).result = none from result, show (s.port n).wait = true from wait, Bool.not_true, Bool.false_eq_true, if_false,
        Bool.and_self, if_true]
    exact ⟨_, goes, wroteBack 0⟩
  · obtain ⟨port, frames⟩ := State.received_fields (s := s) n.isLt { s.asked n f with buf := (s.port n).buf ++ [(f, s.now)] }
    have goes := State.fseReceive_hears (heard h) f
    rw [if_neg (by rw [ok]; decide), if_neg (by rw [accepts]; decide), if_neg (by rw [foldl_size, Nat.zero_add]; exact Nat.not_lt.2 room)] at goes
    exact ⟨_, congrArg Host.Outcome.next goes, congrArg FsePort.buf port, frames, congrArg FsePort.acks port⟩
  · have goes := State.fseReceive_hears (heard h) f
    rw [if_neg (by rw [ok]; decide), if_neg (by rw [accepts]; decide), if_pos (by rw [foldl_size, Nat.zero_add]; exact full)] at goes
    have port := (State.portFault_fields (s := s.setPort n (s.asked n f)) n.isLt 2).1.trans (s.port_setPort_same n _)
    have buf := congrArg FsePort.buf port
    exact ⟨_, congrArg Host.Outcome.next goes, buf, State.portFault_on n.isLt (R.FSE_Pn_STATUS_RX_OVERFLOW n) rfl (Nat.le_of_ble_eq_true rfl) Nat.one_pos⟩
  · exact congrArg Host.Outcome.next ((State.fseReceive_hears (heard h) f).trans ((if_neg (by rw [ok]; decide)).trans (if_pos (by rw [other]; rfl))))
  · refine ⟨_, congrArg Host.Outcome.next ((State.fseReceive_hears (heard h) f).trans (if_pos (by rw [bad]; rfl))), ?_, ?_⟩
    · exact State.port_of_fse (blind_fse.incSat s _ (.inl (Nat.zero_le _))) n
    · exact State.get_incSat s _ 1 (Nat.le_of_ble_eq_true rfl)
  · obtain ⟨muted, ended, kept⟩ := fseLoopWrite_fields (s := s) n.isLt mute
    exact ⟨_, regWrite_accepts _ acc, muted, fun on sending ack reply => ended on sending ack reply, kept⟩
  · obtain ⟨written, ended, waited, kept⟩ := fseCtrlWrite_fields (s := s) n.isLt v
    exact ⟨_, regWrite_accepts _ acc, written, fun off sending ack reply wait => ended off sending ack reply wait, waited, kept⟩
end Sys2Proof.Machine
end

section
/-!
PROOF. Accesses behind an arbiter (spec/18, spec/19): what they read and store does not depend on the arbiter.
-/
namespace Sys2Proof.Machine

/-- What the bytes that an access finds depend on: memory, what is known of its lines, and flash. -/
def State.lineView (s : State) : List Host.Cell × Tab LineMark × Flash := (s.mem, s.marks, { s.flash with corr := [], uncorr := [] })
theorem blind_lineView : Blind State.lineView 0 0 := blind_field (fun _ _ _ => rfl) (fun _ _ _ => rfl) (fun _ _ => rfl)
theorem State.arbitrate_lineView (s : State) (addr : Nat) (w : Option Nat) (rivals : List Nat) : (s.arbitrate addr w rivals).lineView = s.lineView :=
  blind_lineView.arbitrate (fun _ _ => rfl) (Nat.zero_le _) s addr w rivals

section
variable {s t : State} (e : s.lineView = t.lineView)
include e

theorem State.mem_of_lineView : s.mem = t.mem := congrArg (·.1) e
theorem State.marks_of_lineView : s.marks = t.marks := congrArg (·.2.1) e
theorem State.mark_of_lineView (d : Nat) : s.mark d = t.mark d := congrArg (fun m : Tab LineMark => m.get {} (d / 64)) (State.marks_of_lineView e)
theorem State.mix_of_lineView : s.flash.mix = t.flash.mix := congrArg (·.2.2.mix) e
theorem State.setMark_lineView (d : Nat) (m : LineMark) : (s.setMark d m).lineView = (t.setMark d m).lineView := by
  simp only [State.lineView, State.setMark, State.marks_of_lineView e, State.mem_of_lineView e]
  exact congrArg (fun x => (t.mem, _, x.2.2)) e
theorem State.lineRead_lineView (w : Who) (d : Nat) : (s.lineRead w d).1 = (t.lineRead w d).1 ∧ (s.lineRead w d).2.lineView = (t.lineRead w d).2.lineView := by
  have ecc : s.unitEcc d = t.unitEcc d := by
    have table : s.flash.ecc = t.flash.ecc := congrArg (·.2.2.ecc) e
    simp only [State.unitEcc, State.mixSeed, State.mix_of_lineView e, table]
  have kept : ∀ u : State, (u.flashEcc d).2.lineView = u.lineView := fun u => by
    unfold State.flashEcc
    split <;> rfl
  have failed : ∀ (u : State) m a k, (u.memError w m a k).lineView = u.lineView := fun u m a k =>
    blind_lineView.memError (.inl (Nat.zero_le _)) (.inl (Nat.zero_le _)) u w m a k
  have counted : ∀ u : State, (u.incSat R.MEMC_CORR_COUNT).lineView = u.lineView := fun u => blind_lineView.incSat u _ (.inl (Nat.zero_le _))
  unfold State.lineRead
  split
  · split
    · refine ⟨?_, (kept s).trans (e.trans (kept t).symm)⟩
      simp only [State.flashEcc, ecc]
      split <;> rfl
    · exact ⟨rfl, e⟩
  · simp only [State.mark_of_lineView e d]
    split
    · exact ⟨rfl, (failed s _ _ _).trans (e.trans (failed t _ _ _).symm)⟩
    · split
      · exact ⟨rfl, (counted _).trans ((State.setMark_lineView e d _).trans (counted _).symm)⟩
      · exact ⟨rfl, e⟩
theorem State.lineEgress_lineView (w : Who) (d : Nat) : (s.lineEgress w d).1 = (t.lineEgress w d).1 ∧ (s.lineEgress w d).2.lineView = (t.lineEgress w d).2.lineView := by
  obtain ⟨ok, view⟩ := State.lineRead_lineView e w d
  have failed : ∀ (u : State) m a k, (u.memError w m a k).lineView = u.lineView := fun u m a k =>
    blind_lineView.memError (.inl (Nat.zero_le _)) (.inl (Nat.zero_le _)) u w m a k
  unfold State.lineEgress
  dsimp only
  rw [ok]
  split
  · exact ⟨rfl, view⟩
  · split
    · simp only [State.mark_of_lineView view d]
      split
      · exact ⟨rfl, view⟩
      · exact ⟨rfl, (failed _ _ _ _).trans (view.trans (failed _ _ _ _).symm)⟩
    · exact ⟨rfl, view⟩
theorem State.memEgress_lineView (w : Who) (d n : Nat) : (s.memEgress w d n).1 = (t.memEgress w d n).1 := by
  have lines : ∀ (l : List Nat) (u v : State), u.lineView = v.lineView →
      (State.linesBy (fun s l => s.lineEgress w l) l u).1 = (State.linesBy (fun s l => s.lineEgress w l) l v).1 ∧
      (State.linesBy (fun s l => s.lineEgress w l) l u).2.lineView = (State.linesBy (fun s l => s.lineEgress w l) l v).2.lineView := fun l => by
    induction l with
    | nil => exact fun u v h => ⟨rfl, h⟩
    | cons x l ih =>
      intro u v h
      obtain ⟨ok, view⟩ := State.lineEgress_lineView h w x
      unfold State.linesBy
      dsimp only
      rw [ok]
      split
      · exact ih _ _ view
      · exact ⟨rfl, view⟩
  obtain ⟨ok, view⟩ := lines (linesOf d n) s t e
  have bytes : ∀ {u v : State}, u.lineView = v.lineView → u.bytesAt d n = v.bytesAt d n := fun h => by
    simp only [State.bytesAt, State.byteAt, State.mixSeed, State.mix_of_lineView h, State.mem_of_lineView h]
  unfold State.memEgress
  dsimp only
  rw [ok, bytes view]
end

theorem State.memEgress_mem (s : State) (w : Who) (d n : Nat) : (s.memEgress w d n).2.mem = s.mem := by
  have line : ∀ (t : State) (l : Nat), (t.lineEgress w l).2.mem = t.mem := fun t l => by
    have read : (t.lineRead w l).2.mem = t.mem := State.mem_of_atRest (t.lineRead_atRest w l)
    unfold State.lineEgress
    dsimp only
    split
    · exact read
    · split
      · split
        · exact read
        · exact (blind_mem.memError (.inl (Nat.zero_le _)) (.inl (Nat.zero_le _)) _ w _ _ _).trans read
      · exact read
  exact State.linesBy_keeps State.mem _ (fun t l => line t l) (linesOf d n) s

/-! ### Writes line by line -/

/-- Does a write of bytes within one line reach memory? -/
def State.lineTakes (s : State) (a n : Nat) : Bool := (memCode (regionOf a)).isNone || decide (a % 64 = 0 ∧ n = 64) || !(s.mark a).double

section
variable {s : State}
theorem State.lineWrite_takes (w : Who) (a : Nat) (bs : List Byte) : (s.lineWrite w a bs).1 = s.lineTakes a bs.length ∧
    (s.lineWrite w a bs).2.mem = if s.lineTakes a bs.length then Mem.puts s.mem a bs else s.mem := by
  have injected : ∀ t : State, (t.inject a).mem = t.mem := fun t => blind_mem.inject (fun _ _ => rfl) (fun _ _ => rfl) (.inl (Nat.zero_le _)) t a
  have read : (s.lineRead w a).2.mem = s.mem := State.mem_of_atRest (s.lineRead_atRest w a)
  have written : ∀ (t : State) (m : LineMark), t.mem = s.mem → (((t.setMark a m).poke a bs).inject a).mem = Mem.puts s.mem a bs := fun t m e => by
    rw [injected, ← e]
    rfl
  unfold State.lineWrite State.lineTakes
  split
  · next code =>
    rw [code]
    exact ⟨rfl, rfl⟩
  · next code region =>
    rw [region]
    split
    · next whole =>
      rw [decide_eq_true whole]
      exact ⟨rfl, written s {} rfl⟩
    · next part =>
      have ok : (s.lineRead w a).1 = !(s.mark a).double := by
        simp only [State.lineRead, region]
        cases (s.mark a).double
        · simp only [Bool.false_eq_true, if_false]
          split <;> rfl
        · rfl
      dsimp only
      rw [decide_eq_false part, ok]
      cases (s.mark a).double
      · exact ⟨rfl, written _ _ read⟩
      · exact ⟨rfl, read⟩
/-- A write of one line leaves what is known of the others. -/
theorem State.lineWrite_marks (w : Who) (a : Nat) (bs : List Byte) {l : Nat} (other : l ≠ a / 64) : (s.lineWrite w a bs).2.marks.get {} l = s.marks.get {} l := by
  have set : ∀ (t : State) (m : LineMark), (t.setMark a m).marks.get {} l = t.marks.get {} l := fun t m => (State.setMark_get a m l).trans (if_neg other)
  have regs : Blind State.marks 0 0 := blind_field (fun _ _ _ => rfl) (fun _ _ _ => rfl) (fun _ _ => rfl)
  have read : (s.lineRead w a).2.marks.get {} l = s.marks.get {} l := by
    unfold State.lineRead
    split
    · split
      · unfold State.flashEcc
        split <;> rfl
      · rfl
    · dsimp only
      split
      · rw [regs.memError (.inl (Nat.zero_le _)) (.inl (Nat.zero_le _)) s w]
      · split
        · rw [regs.incSat _ _ (.inl (Nat.zero_le _))]
          exact set s _
        · rfl
  have injected : ∀ t : State, (t.inject a).marks.get {} l = t.marks.get {} l := fun t => by
    unfold State.inject
    split
    · dsimp only
      split
      · exact (set _ _).trans (congrArg (fun m : Tab LineMark => m.get {} l) (regs.put t R.MEMC_INJ_CTRL_ARMED 0 (.inl (Nat.zero_le _))))
      · exact (set _ _).trans (congrArg (fun m : Tab LineMark => m.get {} l) (regs.put t R.MEMC_INJ_CTRL_ARMED 0 (.inl (Nat.zero_le _))))
      · exact (set _ _).trans (congrArg (fun m : Tab LineMark => m.get {} l) (regs.put t R.MEMC_INJ_CTRL_ARMED 0 (.inl (Nat.zero_le _))))
      · exact congrArg (fun m : Tab LineMark => m.get {} l) (regs.put t R.MEMC_INJ_CTRL_ARMED 0 (.inl (Nat.zero_le _)))
    · rfl
  unfold State.lineWrite
  split
  · rfl
  · split
    · exact (injected _).trans (set s {})
    · dsimp only
      split
      · exact read
      · exact (injected _).trans ((set _ _).trans read)
end

/-- Two states with the same bytes, and the same damage in every line from `l` on. -/
structure State.AlikeFrom (l : Nat) (s t : State) : Prop where
  mem : s.mem = t.mem
  marks (k : Nat) (h : l ≤ k) : s.marks.get {} k = t.marks.get {} k

theorem State.lineWrite_alike {s t : State} {a : Nat} (e : State.AlikeFrom (a / 64) s t) (w : Who) (bs : List Byte) :
    (s.lineWrite w a bs).1 = (t.lineWrite w a bs).1 ∧ State.AlikeFrom (a / 64 + 1) (s.lineWrite w a bs).2 (t.lineWrite w a bs).2 := by
  have takes : s.lineTakes a bs.length = t.lineTakes a bs.length := by
    rw [State.lineTakes, State.mark, e.marks _ (Nat.le_refl _)]
    rfl
  obtain ⟨ok, mem⟩ := s.lineWrite_takes w a bs
  obtain ⟨ok', mem'⟩ := t.lineWrite_takes w a bs
  refine ⟨ok.trans (takes.trans ok'.symm), ?_, fun k h => ?_⟩
  · rw [mem, mem', takes, e.mem]
  · rw [State.lineWrite_marks w a bs (by omega), State.lineWrite_marks w a bs (by omega)]
    exact e.marks k (by omega)
theorem State.pieces_alike (w : Who) (f : Nat) {a : Nat} (bs : List Byte) {q r : Bool × State} (ok : q.1 = r.1) (e : State.AlikeFrom (a / 64) q.2 r.2) :
    ((pieces f a bs).foldl (fun r p => if r.1 then r.2.lineWrite w p.1 p.2 else r) q).2.mem =
      ((pieces f a bs).foldl (fun r p => if r.1 then r.2.lineWrite w p.1 p.2 else r) r).2.mem := by
  induction f generalizing a bs q r with
  | zero => exact e.mem
  | succ f ih =>
    unfold pieces
    split
    · exact e.mem
    · have next : (a + (64 - a % 64)) / 64 = a / 64 + 1 := by omega
      obtain ⟨done, after⟩ := State.lineWrite_alike e w (bs.take (64 - a % 64))
      rw [← next] at after
      refine ih _ ?_ ?_
      · dsimp only
        rw [ok]
        split
        · exact done
        · exact ok
      · dsimp only
        rw [ok]
        split
        · exact after
        · exact ⟨e.mem, fun k h => e.marks k (by omega)⟩
/-- What a write leaves in memory depends on memory and its damage alone. -/
theorem State.memWrite_lineView {s t : State} (e : s.lineView = t.lineView) (w : Who) (d : Nat) (bs : List Byte) : (s.memWrite w d bs).2.mem = (t.memWrite w d bs).2.mem :=
  State.pieces_alike w _ bs (q := (true, s)) (r := (true, t)) rfl ⟨State.mem_of_lineView e, fun _ _ => by rw [State.marks_of_lineView e]⟩
end Sys2Proof.Machine
end

section
/-!
PROOF. Hardware locks (spec/17, R395 to R401): what releasing, breaking and starting a lease leave, of the lock itself and of everything else.
-/
namespace Sys2Proof.Machine

/-- What sees no register sees none outside any window. -/
theorem Blind.window {β : Type} {g : State → β} (b : Blind g 0 0) (lo : Nat) : Blind g lo 0 :=
  ⟨fun s r v _ => b.wr s r v (.inl (Nat.zero_le _)), b.heat, b.line, b.arrived⟩

/-- What one element of a list without repetitions does to the state stands at the end, where the others leave it. -/
theorem State.each_once_mem {α : Type} {l : List α} {f : α → State → State} {inv goal : State → Prop} {x : α} (nodup : l.Nodup) (mem : x ∈ l)
    (before : ∀ y ∈ l, y ≠ x → ∀ t, inv t → inv (f y t)) (after : ∀ y ∈ l, y ≠ x → ∀ t, goal t → goal (f y t)) (hx : ∀ t, inv t → goal (f x t)) {s : State}
    (start : inv s) : goal (s.each l f) := by
  have keep : ∀ (l : List α), (∀ y ∈ l, y ≠ x → ∀ t, goal t → goal (f y t)) → x ∉ l → ∀ t, goal t → goal (t.each l f) := fun l => by
    induction l with
    | nil => exact fun _ _ _ h => h
    | cons y l ih =>
      exact fun after new t h => ih (fun z hz => after z (.tail _ hz)) (fun h => new (.tail _ h)) _ (after y (.head _) (fun e => new (e ▸ .head _)) t h)
  induction l generalizing s with
  | nil => cases mem
  | cons y l ih =>
    obtain ⟨new, rest⟩ := List.nodup_cons.1 nodup
    cases mem with
    | head => exact keep l (fun z hz => after z (.tail _ hz)) new _ (hx s start)
    | tail _ mem =>
      exact ih rest mem (fun z hz => before z (.tail _ hz)) (fun z hz => after z (.tail _ hz)) (before y (.head _) (fun e => new (e ▸ mem)) s start)

section
variable (s : State) {k : Nat}

/-- The entry that a search by key finds after a write. -/
theorem Tab.find_set {α : Type} (t : Tab α) (k j : Nat) (v : α) :
    (t.set k v).find? (fun e => e.1 == j) = if k = j then some (k, v) else t.find? fun e => e.1 == j := by
  have first : ∀ (e : Nat × α) (l : Tab α), (e :: l).find? (fun e => e.1 == j) = if e.1 = j then some e else l.find? fun e => e.1 == j := fun e l => by
    by_cases h : e.1 = j <;> simp [h]
  induction t with
  | nil => exact first (k, v) []
  | cons e t ih =>
    by_cases same : k = e.1
    · rw [Tab.set, if_pos same, first, first, ← same]
      split_ifs <;> rfl
    · rw [Tab.set, if_neg same]
      by_cases less : k < e.1
      · rw [if_pos less, first]
      · rw [if_neg less, first, ih, first]
        by_cases here : k = j
        · rw [if_pos here, if_pos here, if_neg fun h => same (here.trans h.symm)]
        · rw [if_neg here, if_neg here]
theorem State.lease_set (t : State) (k j : Nat) (x : Lease) :
    ({ t with leases := t.leases.set k x } : State).lease j = if k = j then some x else t.lease j :=
  (congrArg (Option.map (Prod.snd : Nat × Lease → Lease)) (Tab.find_set t.leases k j x)).trans (apply_ite _ _ _ _)

/-- The status of another lock, or any other register below the event matrix, is not that of lock `k`. -/
theorem State.freeLock_rd {r : Reg} (off : r.addr ≠ 0x40011008 + 0x10 * k) : (s.freeLock k).rd r = s.rd r :=
  (State.rd_put_ne _ (R.PART_LOCKk_STAT_UNIT k) r 0 off).trans ((State.rd_put_ne _ (R.PART_LOCKk_STAT_OWNER k) r 0x3F off).trans
    (State.rd_put_ne _ (R.PART_LOCKk_STAT_HELD k) r 0 off))
theorem State.freeLock_fields : (s.freeLock k).on (R.PART_LOCKk_STAT_HELD k) = false ∧ (s.freeLock k).get (R.PART_LOCKk_STAT_OWNER k) = 0x3F ∧
    (s.freeLock k).get (R.PART_LOCKk_STAT_BROKEN k) = s.get (R.PART_LOCKk_STAT_BROKEN k) ∧
    (s.freeLock k).get (R.PART_LOCKk_STAT_CAUSE k) = s.get (R.PART_LOCKk_STAT_CAUSE k) := by
  unfold State.freeLock
  refine ⟨?_, ?_, ?_, ?_⟩ <;>
    simp (disch := exact ⟨rfl⟩) only [State.on_put_beside, State.on_put_self, State.get_put_beside, State.get_put_self] <;> rfl

theorem State.breakLock_rd {r : Reg} (off : r.addr ≠ 0x40011008 + 0x10 * k) (matrix : r.addr < 0x40280000 ∨ 0x40284000 ≤ r.addr) (cause : Nat) :
    (s.breakLock k cause).rd r = s.rd r := by
  unfold State.breakLock
  dsimp only
  split_ifs
  · refine (State.raise_rd (by decide) matrix 0).trans ?_
    exact (State.rd_put_ne _ (R.PART_LOCKk_STAT_CAUSE k) r cause off).trans ((State.rd_put_ne _ (R.PART_LOCKk_STAT_BROKEN k) r 1 off).trans (s.freeLock_rd off))
  · exact State.rd_put_ne _ (R.PART_LOCKk_STAT_CAUSE k) r cause off
  · rfl

/-- What a lock is that hardware has broken with a cause of Table 17.7. -/
def State.Broken (s : State) (k cause : Nat) : Prop :=
  (s.on (R.PART_LOCKk_STAT_HELD k) = false ∧ s.get (R.PART_LOCKk_STAT_OWNER k) = 0x3F) ∧ s.on (R.PART_LOCKk_STAT_BROKEN k) = true ∧
    s.get (R.PART_LOCKk_STAT_CAUSE k) = cause
theorem State.Broken.of_rd {s t : State} {k cause : Nat} (h : s.Broken k cause) (e : t.rd (R.PART_LOCKk_STAT k) = s.rd (R.PART_LOCKk_STAT k)) : t.Broken k cause := by
  have field : ∀ lsb w, t.get ⟨R.PART_LOCKk_STAT k, lsb, w⟩ = s.get ⟨R.PART_LOCKk_STAT k, lsb, w⟩ := fun lsb w => congrArg (fieldGet · lsb w) e
  exact ⟨⟨(congrArg (· != 0) (field 31 1)).trans h.1.1, (field 24 6).trans h.1.2⟩, (congrArg (· != 0) (field 30 1)).trans h.2.1, (field 20 4).trans h.2.2⟩

/-- A held lock breaks (R399). -/
theorem State.breakLock_breaks (held : s.on (R.PART_LOCKk_STAT_HELD k) = true) {cause : Nat} (small : cause < 16) (hk : k < 256) :
    (s.breakLock k cause).Broken k cause := by
  have before : (((s.freeLock k).put (R.PART_LOCKk_STAT_BROKEN k) 1).put (R.PART_LOCKk_STAT_CAUSE k) cause).Broken k cause := by
    obtain ⟨free, none, -, -⟩ := s.freeLock_fields (k := k)
    refine ⟨⟨?_, ?_⟩, ?_, ?_⟩ <;>
      simp (disch := exact ⟨rfl⟩) only [State.on_put_beside, State.on_put_self, State.get_put_beside, State.get_put_self, free, none]
    · rfl
    · exact Nat.mod_eq_of_lt small
  simp only [State.breakLock, held, if_true]
  exact before.of_rd (State.raise_rd (by decide) (.inl (show 0x40011008 + 0x10 * k < 0x40280000 by omega)) 0)

/-- A lock that nothing holds, and that no break of this cycle has struck, does not break. -/
theorem State.breakLock_free (free : s.on (R.PART_LOCKk_STAT_HELD k) = false) (old : s.justStruck k = none) (cause : Nat) : s.breakLock k cause = s := by
  simp only [State.breakLock, free, old, Option.isSome_none, Bool.false_and, Bool.false_eq_true, if_false]

/-- Breaking locks reaches no register but theirs and the event matrix. -/
theorem State.breakLocks_rd {r : Reg} (off : r.addr < 0x40011000 ∨ 0x40012000 ≤ r.addr) (matrix : r.addr < 0x40280000 ∨ 0x40284000 ≤ r.addr) (f : Nat → Bool) (cause : Nat) :
    (s.breakLocks f cause).rd r = s.rd r :=
  State.each_keeps_mem (State.rd · r) (fun k hk t => t.breakLock_rd (by have := List.mem_range.1 (List.mem_filter.1 hk).1; omega) matrix cause) s
/-- Of the held locks those break whose owner is named. -/
theorem State.breakLocks_breaks (hk : k < 256) (held : s.on (R.PART_LOCKk_STAT_HELD k) = true) {f : Nat → Bool} (owner : f (s.get (R.PART_LOCKk_STAT_OWNER k)) = true)
    {cause : Nat} (small : cause < 16) : (s.breakLocks f cause).Broken k cause := by
  have other : ∀ j, j ≠ k → ∀ t : State, (t.breakLock j cause).rd (R.PART_LOCKk_STAT k) = t.rd (R.PART_LOCKk_STAT k) := fun j ne t =>
    t.breakLock_rd (by simp only [R.PART_LOCKk_STAT]; omega) (.inl (by simp only [R.PART_LOCKk_STAT]; omega)) cause
  exact State.each_once (inv := fun t => t.rd (R.PART_LOCKk_STAT k) = s.rd (R.PART_LOCKk_STAT k)) (goal := fun t => t.Broken k cause) (List.nodup_range.filter _)
    (List.mem_filter.2 ⟨List.mem_range.2 hk, by rw [held, owner]; rfl⟩) (fun j ne t same => (other j ne t).trans same) (fun j ne t broken => broken.of_rd (other j ne t))
    (fun t same => t.breakLock_breaks ((congrArg (fun v => fieldGet v 31 1 != 0) same).trans held) small hk) rfl
end
end Sys2Proof.Machine
end

section
/-!
PROOF. The PCI Express functions (spec/16, R375 to R381): vectors, configuration, resets and the level of PCIE_PERST_N.
-/
namespace Sys2Proof.Machine

section
variable (s : State) (f : Nat)

theorem blind_pcie : Blind State.pcie 0 0 := blind_field (fun _ _ _ => rfl) (fun _ _ _ => rfl) (fun _ _ => rfl)
theorem State.fn_of_pcie {s t : State} (h : t.pcie = s.pcie) (n : Nat) : t.fn n = s.fn n := congrArg (fun p : Tab PcieFn => Tab.get ({} : PcieFn) p n) h
/-! ### Vectors (R380) -/

/-- A request for a vector that may be sent, and is not pending, is wanted; another becomes pending. -/
theorem State.vector_fields {s : State} {f : Nat} (present : s.on (R.PCIE_Fn_STATUS_PRESENT f) = true) (v : Nat) :
    (s.vector f v).on (R.PCIE_Fn_STATUS_PRESENT f) = true ∧ (∀ j, (s.vector f v).maySend f j = s.maySend f j) ∧
    (∀ j, ((s.vector f v).fn f).want.testBit j = if s.maySend f v && !(s.fn f).pend.testBit v && j == v then true else (s.fn f).want.testBit j) ∧
    ∀ j, ((s.vector f v).fn f).pend.testBit j = if !(s.maySend f v && !(s.fn f).pend.testBit v) && j == v then true else (s.fn f).pend.testBit j := by
  have table : ∀ (x : PcieFn), x.table = (s.fn f).table → ∀ j, (s.setFn f x).maySend f j = s.maySend f j := fun x e j => by
    have words : ((s.setFn f x).fn f).word (4 * j + 3) = (s.fn f).word (4 * j + 3) := by rw [State.fn_setFn, if_pos rfl, PcieFn.word, e, PcieFn.word]
    simp only [State.maySend, words]
    rfl
  by_cases send : (s.maySend f v && !(s.fn f).pend.testBit v) = true
  · have wanted : s.vector f v = s.setFn f { s.fn f with want := setBit (s.fn f).want v true } := by
      simp only [State.vector, present, bit, send, Bool.not_true, Bool.false_eq_true, if_false, if_true]
    rw [wanted, send]
    refine ⟨present, table _ rfl, fun j => ?_, fun j => ?_⟩ <;> simp [testBit_setBit]
  · have pends : s.vector f v = s.setFn f { s.fn f with pend := setBit (s.fn f).pend v true } := by
      simp only [State.vector, present, bit, send, Bool.not_true, Bool.false_eq_true, if_false]
    rw [pends, (Bool.not_eq_true _).mp send]
    refine ⟨present, table _ rfl, fun j => ?_, fun j => ?_⟩ <;> simp [testBit_setBit]

/-- A write of VREQ asks for the vectors of its bits. -/
theorem vreqWrite_requests {s : State} {f : Nat} (present : s.on (R.PCIE_Fn_STATUS_PRESENT f) = true) {b : Nat} (hb : b < 32) (hi : Bool) {m : Nat} (bit : m.testBit b = true) :
    let v := if hi then 32 + b else b
    (if s.maySend f v && !(s.fn f).pend.testBit v then ((vreqWrite f hi m s).fn f).want.testBit v else ((vreqWrite f hi m s).fn f).pend.testBit v) = true := by
  intro v
  let Same (t : State) : Prop := t.on (R.PCIE_Fn_STATUS_PRESENT f) = true ∧ ∀ j, t.maySend f j = s.maySend f j
  have other : ∀ c, c ≠ b → v ≠ (if hi then 32 + c else c) := fun c ne => by cases hi <;> simp [v] <;> omega
  refine (State.each_once (inv := fun t => Same t ∧ (t.fn f).pend.testBit v = (s.fn f).pend.testBit v)
    (goal := fun t => Same t ∧ (if s.maySend f v && !(s.fn f).pend.testBit v then (t.fn f).want.testBit v else (t.fn f).pend.testBit v) = true)
    (x := b) (List.nodup_range.filter _) (List.mem_filter.2 ⟨List.mem_range.2 hb, bit⟩) (fun c ne t before => ?_) (fun c ne t after => ?_) (fun t before => ?_)
    ⟨⟨present, fun _ => rfl⟩, rfl⟩).2
  · obtain ⟨⟨here, may⟩, pend⟩ := before
    obtain ⟨here', may', -, pend'⟩ := State.vector_fields here (if hi then 32 + c else c)
    exact ⟨⟨here', fun j => (may' j).trans (may j)⟩, (pend' v).trans (by simp [other c ne, pend])⟩
  · obtain ⟨⟨here, may⟩, asked⟩ := after
    obtain ⟨here', may', want', pend'⟩ := State.vector_fields here (if hi then 32 + c else c)
    refine ⟨⟨here', fun j => (may' j).trans (may j)⟩, ?_⟩
    rw [want', pend']
    simpa [other c ne] using asked
  · obtain ⟨⟨here, may⟩, pend⟩ := before
    obtain ⟨here', may', want', pend'⟩ := State.vector_fields here v
    refine ⟨⟨here', fun j => (may' j).trans (may j)⟩, ?_⟩
    rw [want', pend', may v, pend]
    cases s.maySend f v && !(s.fn f).pend.testBit v <;> simp
theorem vreqWrite_absent {s : State} {f : Nat} (absent : ¬s.on (R.PCIE_Fn_STATUS_PRESENT f) = true) (hi : Bool) (m : Nat) : vreqWrite f hi m s = s := by
  have nothing : ∀ (l : List Nat), s.each l (fun b t => t.vector f (if hi then 32 + b else b)) = s := fun l => by
    induction l with
    | nil => rfl
    | cons b l ih => exact (congrArg (State.each · l _) (by simp [State.vector, absent])).trans ih
  exact nothing _

/-! ### Configuration and resets (R380, R381) -/

/-- MEM_EN, BME, MSIX_EN and FN_MASK of a function. -/
def State.pcieEnables (s : State) (f : Nat) : Bool × Bool × Bool × Bool :=
  (s.on (R.PCIE_Fn_STATUS_MEM_EN f), s.on (R.PCIE_Fn_STATUS_BME f), s.on (R.PCIE_Fn_STATUS_MSIX_EN f), s.on (R.PCIE_Fn_STATUS_FN_MASK f))
theorem State.pcieEnables_of_rd {s t : State} {f : Nat} (h : t.rd (R.PCIE_Fn_STATUS f) = s.rd (R.PCIE_Fn_STATUS f)) : t.pcieEnables f = s.pcieEnables f :=
  congrArg (fun v : Word => (fieldGet v 0 1 != 0, fieldGet v 1 1 != 0, fieldGet v 2 1 != 0, fieldGet v 3 1 != 0)) h
theorem State.pcieConfig_enables (hf : f < 8) (mem bme msix mask : Bool) : (s.pcieConfig f mem bme msix mask).pcieEnables f = (mem, bme, msix, mask) := by
  let u := (((s.putB (R.PCIE_Fn_STATUS_MEM_EN f) mem).putB (R.PCIE_Fn_STATUS_BME f) bme).putB (R.PCIE_Fn_STATUS_MSIX_EN f) msix).putB (R.PCIE_Fn_STATUS_FN_MASK f) mask
  have raised : (s.pcieConfig f mem bme msix mask).rd (R.PCIE_Fn_STATUS f) = u.rd (R.PCIE_Fn_STATUS f) :=
    u.when_keeps (State.rd · (R.PCIE_Fn_STATUS f)) _ (State.raise_rd (by omega) (.inr (by simp only [R.PCIE_Fn_STATUS]; omega)) 0)
  rw [State.pcieEnables_of_rd raised]
  simp (disch := exact ⟨rfl⟩) only [u, State.pcieEnables, State.on_putB_beside, State.on_putB_self]

/-- The event of a function's reset reaches none of its registers. -/
theorem State.fnReset_rd {r : Reg} (hf : f < 8) {flag : RF} (page : flag.reg = R.PCIE_Fn_STATUS f) (off : r.addr ≠ 0x403C1000 + 0x100 * f)
    (locks : r.addr < 0x40011000 ∨ 0x40012000 ≤ r.addr) (matrix : r.addr < 0x40280000 ∨ 0x40284000 ≤ r.addr) : (s.fnReset f flag).rd r = s.rd r := by
  unfold State.fnReset
  refine (State.when_keeps _ (State.rd · r) _ (State.raise_rd (by omega) matrix 0)).trans ?_
  rw [State.rd_put_ne _ flag r 1 (by rw [page]; exact off)]
  refine (State.rd_put_ne _ (R.PCIE_Fn_STATUS_FN_MASK f) r 0 off).trans ((State.rd_put_ne _ (R.PCIE_Fn_STATUS_MSIX_EN f) r 0 off).trans
    ((State.rd_put_ne _ (R.PCIE_Fn_STATUS_BME f) r 0 off).trans ((State.rd_put_ne _ (R.PCIE_Fn_STATUS_MEM_EN f) r 0 off).trans ?_)))
  exact s.breakLocks_rd locks matrix _ 5
theorem State.fnReset_fn (g : Nat) (flag : RF) : (s.fnReset f flag).fn g = if g = f then {} else s.fn g := by
  have locks : (s.breakLocks (· == 16 + f) 5).pcie = s.pcie := State.each_keeps _ _ State.pcie (fun k t => by
    unfold State.breakLock
    dsimp only
    split_ifs
    · exact blind_pcie.raise _ 767 0 (Nat.zero_le _)
    · rfl
    · rfl) s
  have raised : (s.fnReset f flag).pcie = ((s.breakLocks (· == 16 + f) 5).setFn f {}).pcie :=
    State.when_keeps _ State.pcie _ (blind_pcie.raise _ (724 + f) 0 (Nat.zero_le _))
  rw [State.fn_of_pcie raised, State.fn_setFn, State.fn_of_pcie locks]
/-- A function's reset, for one of the two reasons that its status register names. -/
theorem State.fnReset_fields (hf : f < 8) {k : Nat} (hk : k = 5 ∨ k = 6) :
    (s.fnReset f ⟨R.PCIE_Fn_STATUS f, k, 1⟩).pcieEnables f = (false, false, false, false) ∧ (s.fnReset f ⟨R.PCIE_Fn_STATUS f, k, 1⟩).fn f = {} ∧
    (s.fnReset f ⟨R.PCIE_Fn_STATUS f, k, 1⟩).on ⟨R.PCIE_Fn_STATUS f, k, 1⟩ = true := by
  let t := (((s.breakLocks (· == 16 + f) 5).put (R.PCIE_Fn_STATUS_MEM_EN f) 0).put (R.PCIE_Fn_STATUS_BME f) 0).put (R.PCIE_Fn_STATUS_MSIX_EN f) 0
  let u := ((t.put (R.PCIE_Fn_STATUS_FN_MASK f) 0).setFn f {}).put ⟨R.PCIE_Fn_STATUS f, k, 1⟩ 1
  have raised : (s.fnReset f ⟨R.PCIE_Fn_STATUS f, k, 1⟩).rd (R.PCIE_Fn_STATUS f) = u.rd (R.PCIE_Fn_STATUS f) :=
    u.when_keeps (State.rd · (R.PCIE_Fn_STATUS f)) _ (State.raise_rd (by omega) (.inr (by simp only [R.PCIE_Fn_STATUS]; omega)) 0)
  have table : ∀ (v : State) (q : RF), (v.setFn f {}).on q = v.on q := fun _ _ => rfl
  refine ⟨?_, (s.fnReset_fn f f _).trans (if_pos rfl), (congrArg (fun v => fieldGet v k 1 != 0) raised).trans ?_⟩
  · rw [State.pcieEnables_of_rd raised]
    rcases hk with rfl | rfl <;> simp (disch := exact ⟨rfl⟩) only [u, t, table, State.pcieEnables, State.on_put_beside, State.on_put_self] <;> rfl
  · rcases hk with rfl | rfl <;> exact State.on_put_self _ _ _ ⟨rfl⟩

/-- The locks that a function holds break at its reset (R399). -/
theorem State.fnReset_locks {k : Nat} (hf : f < 8) (hk : k < 256) (held : s.on (R.PART_LOCKk_STAT_HELD k) = true)
    (owner : s.get (R.PART_LOCKk_STAT_OWNER k) = 16 + f) (flag : RF) (page : flag.reg = R.PCIE_Fn_STATUS f) : (s.fnReset f flag).Broken k 5 := by
  have broken := s.breakLocks_breaks hk held (f := (· == 16 + f)) (beq_iff_eq.2 owner) (cause := 5) (by decide)
  have low : (R.PART_LOCKk_STAT k).addr < 0x40280000 := by simp only [R.PART_LOCKk_STAT]; omega
  have off : (R.PART_LOCKk_STAT k).addr ≠ 0x403C1000 + 0x100 * f := by omega
  refine broken.of_rd ((State.when_keeps _ (State.rd · (R.PART_LOCKk_STAT k)) _ (State.raise_rd (by omega) (.inl low) 0)).trans ?_)
  rw [State.rd_put_ne _ flag _ 1 (by rw [page]; exact off)]
  exact (State.rd_put_ne _ (R.PCIE_Fn_STATUS_FN_MASK f) _ 0 off).trans ((State.rd_put_ne _ (R.PCIE_Fn_STATUS_MSIX_EN f) _ 0 off).trans
    ((State.rd_put_ne _ (R.PCIE_Fn_STATUS_BME f) _ 0 off).trans (State.rd_put_ne _ (R.PCIE_Fn_STATUS_MEM_EN f) _ 0 off)))

/-- A link whose partner is gone (R381). -/
def State.linkGone (s : State) (l : Nat) : State :=
  (((s.put (R.PCIE_LINKl_STATUS_UP l) 0).put (R.PCIE_LINKl_STATUS_WIDTH l) 0).put (R.PCIE_LINKl_STATUS_SPEED l) 0).put (R.PCIE_LINKl_STATUS_L1 l) 0
theorem State.linkGone_rd {r : Reg} {l : Nat} (off : r.addr ≠ 0x403C0000 + 4 * l) : (s.linkGone l).rd r = s.rd r :=
  (State.rd_put_ne _ (R.PCIE_LINKl_STATUS_L1 l) r 0 off).trans ((State.rd_put_ne _ (R.PCIE_LINKl_STATUS_SPEED l) r 0 off).trans
    ((State.rd_put_ne _ (R.PCIE_LINKl_STATUS_WIDTH l) r 0 off).trans (State.rd_put_ne _ (R.PCIE_LINKl_STATUS_UP l) r 0 off)))
theorem State.linkGone_up (l : Nat) : (s.linkGone l).on (R.PCIE_LINKl_STATUS_UP l) = false := by
  unfold State.linkGone
  simp (disch := exact ⟨rfl⟩) only [State.on_put_beside, State.on_put_self]
  rfl
theorem State.linkGone_onLink (l m g : Nat) : (s.linkGone l).onLink m g = s.onLink m g := by
  have split : (s.linkGone l).on (R.PCIE_LINKl_STATUS_SPLIT 0) = s.on (R.PCIE_LINKl_STATUS_SPLIT 0) := by
    by_cases first : l = 0
    · subst first
      unfold State.linkGone
      simp (disch := exact ⟨rfl⟩) only [State.on_put_beside]
    · exact congrArg (fun v => fieldGet v 11 1 != 0) (s.linkGone_rd (by simp only [R.PCIE_LINKl_STATUS_SPLIT, R.PCIE_LINKl_STATUS]; omega))
  simp only [State.onLink, split]
theorem State.hotReset_eq (l : Nat) (down : Bool) : s.hotReset l down =
    (s.when down fun s => s.linkGone l).each ((List.range 8).filter fun f => (s.when down fun s => s.linkGone l).onLink l f &&
      (s.when down fun s => s.linkGone l).on (R.PCIE_Fn_STATUS_PRESENT f)) fun f t => t.fnReset f (R.PCIE_Fn_STATUS_HOT_RESET f) := rfl
theorem State.hotReset_rd {r : Reg} {l : Nat} (link : r.addr ≠ 0x403C0000 + 4 * l) (off : r.addr < 0x403C1000 ∨ 0x403C1800 ≤ r.addr)
    (locks : r.addr < 0x40011000 ∨ 0x40012000 ≤ r.addr) (matrix : r.addr < 0x40280000 ∨ 0x40284000 ≤ r.addr) (down : Bool) : (s.hotReset l down).rd r = s.rd r := by
  rw [State.hotReset_eq]
  refine (State.each_keeps_mem (State.rd · r) (fun g hg t => ?_) _).trans (s.when_keeps (State.rd · r) down (s.linkGone_rd link))
  have small := List.mem_range.1 (List.mem_filter.1 hg).1
  exact t.fnReset_rd g small rfl (by omega) locks matrix
theorem State.hotReset_up (l : Nat) (hl : l < 2) : (s.hotReset l true).on (R.PCIE_LINKl_STATUS_UP l) = false := by
  rw [State.hotReset_eq]
  refine (State.each_keeps_mem (State.on · (R.PCIE_LINKl_STATUS_UP l)) (fun g hg t => ?_) _).trans (s.linkGone_up l)
  have small := List.mem_range.1 (List.mem_filter.1 hg).1
  exact congrArg (fun v => fieldGet v 0 1 != 0) (t.fnReset_rd g small rfl (by simp only [R.PCIE_LINKl_STATUS_UP, R.PCIE_LINKl_STATUS]; omega)
    (.inr (by simp only [R.PCIE_LINKl_STATUS_UP, R.PCIE_LINKl_STATUS]; omega)) (.inr (by simp only [R.PCIE_LINKl_STATUS_UP, R.PCIE_LINKl_STATUS]; omega)))
/-- A hot reset resets every function on its link. -/
theorem State.hotReset_fields {l : Nat} (hf : f < 8) (hl : l < 2) (present : s.on (R.PCIE_Fn_STATUS_PRESENT f) = true) (onLink : s.onLink l f = true) (down : Bool) :
    (s.hotReset l down).pcieEnables f = (false, false, false, false) ∧ (s.hotReset l down).fn f = {} ∧
    (s.hotReset l down).on (R.PCIE_Fn_STATUS_HOT_RESET f) = true := by
  have link : ∀ m g, (s.when down fun s => s.linkGone l).onLink m g = s.onLink m g := fun m g => s.when_keeps (State.onLink · m g) down (s.linkGone_onLink l m g)
  have here : (s.when down fun s => s.linkGone l).on (R.PCIE_Fn_STATUS_PRESENT f) = true :=
    (congrArg (fun v => fieldGet v 31 1 != 0) (s.when_keeps (State.rd · (R.PCIE_Fn_STATUS f)) down
      (s.linkGone_rd (by simp only [R.PCIE_Fn_STATUS]; omega)))).trans present
  have reset : ∀ t : State, (t.fnReset f (R.PCIE_Fn_STATUS_HOT_RESET f)).pcieEnables f = (false, false, false, false) ∧
      (t.fnReset f (R.PCIE_Fn_STATUS_HOT_RESET f)).fn f = {} ∧ (t.fnReset f (R.PCIE_Fn_STATUS_HOT_RESET f)).on (R.PCIE_Fn_STATUS_HOT_RESET f) = true :=
    fun t => t.fnReset_fields f hf (k := 5) (.inl rfl)
  rw [State.hotReset_eq]
  refine State.each_once_mem (f := fun g t => t.fnReset g (R.PCIE_Fn_STATUS_HOT_RESET g)) (x := f) (inv := fun _ => True) (goal := fun t => t.pcieEnables f = (false, false, false, false) ∧ t.fn f = {} ∧
    t.on (R.PCIE_Fn_STATUS_HOT_RESET f) = true) (List.nodup_range.filter _) (List.mem_filter.2 ⟨List.mem_range.2 hf, by rw [link, here, onLink]; rfl⟩)
    (fun _ _ _ _ h => h) (fun g hg ne t done => ?_) (fun t _ => reset t) trivial
  obtain ⟨enables, reset, flag⟩ := done
  have status : (t.fnReset g (R.PCIE_Fn_STATUS_HOT_RESET g)).rd (R.PCIE_Fn_STATUS f) = t.rd (R.PCIE_Fn_STATUS f) :=
    t.fnReset_rd g (List.mem_range.1 (List.mem_filter.1 hg).1) rfl (by simp only [R.PCIE_Fn_STATUS]; omega) (.inr (by simp only [R.PCIE_Fn_STATUS]; omega))
      (.inr (by simp only [R.PCIE_Fn_STATUS]; omega))
  exact ⟨(State.pcieEnables_of_rd status).trans enables, (t.fnReset_fn g f _).trans ((if_neg (Ne.symm ne)).trans reset),
    (congrArg (fun v => fieldGet v 5 1 != 0) status).trans flag⟩

/-! ### PCIE_PERST_N (R555) -/

/-- A falling edge resets the domains of the PCIe block and takes its links down. -/
theorem State.perst_low (high : s.chip.perstN = true) (alive : s.dead = false) :
    (s.perst false).domReset 90 = true ∧ (s.perst false).domReset 91 = true ∧ (s.perst false).on (R.PCIE_LINKl_STATUS_UP 0) = false := by
  let held (d : Nat) (t : State) : State := if t.domReset d then t else (t.put (R.CLK_Dd_STATUS_IN_RESET d) 1).domClear d
  let t : State := { s with chip := { s.chip with perstN := false } }
  have cleared : ∀ (u : State) (d e : Nat), d = 90 ∨ d = 91 → (u.domClear d).domReset e = u.domReset e := fun u d e h => by
    rcases h with rfl | rfl
    · have buffers : u.domClear 90 = u.each (List.range 8) fun n t => t.setFn n { t.fn n with buf := [] } := rfl
      rw [buffers]
      exact State.each_keeps (List.range 8) (fun n t => t.setFn n { t.fn n with buf := [] }) (State.domReset · e) (fun _ _ => rfl) u
    · exact congrArg (State.domReset · e) (show u.domClear 91 = u from rfl)
  have here : ∀ (u : State) (d : Nat), d = 90 ∨ d = 91 → (held d u).domReset d = true := fun u d h => by
    by_cases already : u.domReset d = true
    · exact (congrArg (State.domReset · d) (if_pos already)).trans already
    · exact (congrArg (State.domReset · d) (if_neg already)).trans ((cleared _ d d h).trans (State.on_put_self u (R.CLK_Dd_STATUS_IN_RESET d) 1 ⟨rfl⟩))
  have other : (held 91 (held 90 t)).domReset 90 = (held 90 t).domReset 90 := by
    by_cases already : (held 90 t).domReset 91 = true
    · exact congrArg (State.domReset · 90) (if_pos already)
    · exact (congrArg (State.domReset · 90) (if_neg already)).trans ((cleared _ 91 90 (.inr rfl)).trans (State.on_put_ne (held 90 t) (R.CLK_Dd_STATUS_IN_RESET 91) (R.CLK_Dd_STATUS_IN_RESET 90) 1 (by decide)))
  have whole : s.perst false = ((held 91 (held 90 t)).hotReset 0 true).hotReset 1 true := by
    have changed : ¬s.chip.perstN = false := by rw [high]; decide
    have awake : ¬t.dead = true := by rw [show t.dead = s.dead from rfl, alive]; decide
    exact (if_neg changed).trans ((if_neg awake).trans (if_neg Bool.false_ne_true))
  have kept : ∀ (u : State) (d : Nat), d < 104 → ((u.hotReset 0 true).hotReset 1 true).domReset d = u.domReset d := fun u d hd => by
    have off : (R.CLK_Dd_STATUS d).addr < 0x40280000 ∧ 0x40012000 ≤ (R.CLK_Dd_STATUS d).addr := by simp only [R.CLK_Dd_STATUS]; omega
    have status : ((u.hotReset 0 true).hotReset 1 true).rd (R.CLK_Dd_STATUS d) = u.rd (R.CLK_Dd_STATUS d) :=
      ((u.hotReset 0 true).hotReset_rd (l := 1) (by omega) (by omega) (.inr off.2) (.inl off.1) true).trans
        (u.hotReset_rd (l := 0) (by omega) (by omega) (.inr off.2) (.inl off.1) true)
    exact congrArg (fun v => fieldGet v (R.CLK_Dd_STATUS_IN_RESET d).lsb (R.CLK_Dd_STATUS_IN_RESET d).wid != 0) status
  rw [whole]
  refine ⟨(kept _ 90 (by decide)).trans (other.trans (here t 90 (.inl rfl))), (kept _ 91 (by decide)).trans (here _ 91 (.inr rfl)), ?_⟩
  exact (congrArg (fun v => fieldGet v 0 1 != 0) (State.hotReset_rd _ (r := R.PCIE_LINKl_STATUS 0) (l := 1) (by decide) (by decide) (by decide) (by decide) true)).trans
    (State.hotReset_up _ 0 (by decide))

/-- A request for a clock leaves the device's pins. -/
theorem State.request_chip (d : Nat) (plain : 46 ≤ d) : (s.request d).chip = s.chip := by
  have start : ∀ t : State, (t.openGate d).chip = t.chip := fun t => by
    unfold State.openGate
    split
    · rfl
    · rw [State.domStart, if_neg (by omega), if_neg (by omega), if_neg (by omega), if_neg (by omega)]
      rfl
  unfold State.request
  split
  · rfl
  · extract_lets u
    have woken : u.chip = s.chip := by
      simp only [u]
      split <;> rfl
    split
    · exact (start _).trans woken
    · split
      · split
        · exact woken
        · exact woken
      · exact woken
theorem blind_chip : Blind State.chip 0 0 := blind_field (fun _ _ _ => rfl) (fun _ _ _ => rfl) (fun _ _ => rfl)
theorem State.hotReset_chip (l : Nat) (down : Bool) : (s.hotReset l down).chip = s.chip := by
  have reset : ∀ (g : Nat) (t : State), (t.fnReset g (R.PCIE_Fn_STATUS_HOT_RESET g)).chip = t.chip := fun g t =>
    (State.when_keeps _ State.chip _ (blind_chip.raise _ (724 + g) 0 (Nat.zero_le _))).trans
      ((blind_chip.window 0x40012000).breakLocks (fun _ _ => rfl) t (· == 16 + g) 5 (Nat.le_refl _) (Nat.zero_le _))
  rw [State.hotReset_eq]
  exact (State.each_keeps _ _ State.chip reset _).trans (s.when_keeps State.chip down rfl)
theorem State.perst_level (high : Bool) : (s.perst high).chip.perstN = high := by
  let t : State := { s with chip := { s.chip with perstN := high } }
  by_cases same : s.chip.perstN = high
  · exact (congrArg (fun t : State => t.chip.perstN) (if_pos same)).trans same
  · have kept : (s.perst high).chip = t.chip := by
      unfold State.perst
      rw [if_neg same]
      dsimp only
      split
      · rfl
      · split
        · refine State.each_keeps_mem State.chip (fun d hd u => ?_) t
          have plain : 46 ≤ d := by simp only [List.mem_cons, List.not_mem_nil, or_false] at hd; omega
          split
          · rfl
          · exact (u.put (R.CLK_Dd_STATUS_IN_RESET d) 0).when_keeps State.chip _ (State.request_chip _ d plain)
        · refine (State.hotReset_chip _ 1 true).trans ((State.hotReset_chip _ 0 true).trans (State.each_keeps_mem State.chip (fun d hd u => ?_) t))
          have named : d = 90 ∨ d = 91 := by simpa using hd
          split
          · rfl
          · rcases named with rfl | rfl
            · exact State.each_keeps (List.range 8) (fun n t => t.setFn n { t.fn n with buf := [] }) State.chip (fun _ _ => rfl) _
            · rfl
    exact congrArg Chip.perstN kept

/-! ### Accesses through a BAR (R377, R378) -/

/-- Function `f` is there, with its memory space enabled, and offset `o` of BAR `bar`, which its owner may use, is device address `a`. -/
def State.BarMaps (s : State) (f : Fin 8) (bar o a : Nat) : Prop :=
  s.dead = false ∧ s.on (R.PCIE_Fn_STATUS_PRESENT f) = true ∧ s.on (R.PCIE_Fn_STATUS_MEM_EN f) = true ∧ barAddr bar o = some a ∧ (s.fnOwner f = platform → bar = 0)
/-- The MSI-X table and the pending bits of BAR 2 are at no device address. -/
theorem barAddr_outside {bar o a : Nat} (maps : barAddr bar o = some a) :
    (bar == 2 && decide (0xFF0000 ≤ o) && decide (o < 0xFF0400)) = false ∧ (bar == 2 && decide (0xFF1000 ≤ o) && decide (o < 0xFF1008)) = false := by
  by_cases two : bar = 2
  · subst two
    have window : (decide (o < 0x1000000) && !(decide (0xFF0000 ≤ o) && decide (o < 0xFF0400)) && !(decide (0xFF1000 ≤ o) && decide (o < 0xFF1008))) = true := by
      simp only [barAddr] at maps
      split at maps
      · assumption
      · cases maps
    simp only [Bool.and_eq_true, Bool.not_eq_true'] at window
    exact ⟨window.1.2, window.2⟩
  · have other : (bar == 2) = false := beq_eq_false_iff_ne.2 two
    rw [other]
    exact ⟨rfl, rfl⟩
variable {s : State} {g : Fin 8} {bar o a : Nat}
theorem State.barAccess_maps (maps : s.BarMaps g bar o a) (n : Nat) (w : Option (List Byte)) (rivals : List Nat) : s.barAccess g bar o n w rivals =
    if s.ownerInReset (s.fnOwner g) || !s.reach (.pcie g) (s.fnOwner g) false (if w.isSome then .write else .read) a n then
      { s.barRefuse g (s.fnOwner g) a n w.isSome with resp := none }
    else match w with
      | some bs => (s.barEnter g a bs).barMove g (s.fnOwner g) rivals
      | none =>
        let s' := s.arbitrate a (Requester.pcie g).arbNo rivals
        if isReg a then { (s'.busRead (.pcie g) (s.fnOwner g) a).2 with resp := some (s'.busRead (.pcie g) (s.fnOwner g) a).1 }
        else { (s'.memEgress ⟨.pcie g, s.fnOwner g⟩ a n).2 with
          resp := (s'.memEgress ⟨.pcie g, s.fnOwner g⟩ a n).1.map fun bs => BitVec.ofNat 32 (leNat bs) } := by
  obtain ⟨alive, present, enabled, at_, owner⟩ := maps
  obtain ⟨table, bits⟩ := barAddr_outside at_
  have host : ¬(s.fnOwner g == platform && bar != 0) = true := by
    by_cases h : s.fnOwner g = platform
    · rw [owner h]
      simp
    · simp [h]
  unfold State.barAccess
  dsimp only
  rw [if_neg (by rw [alive, present, enabled]; decide), if_neg host, if_neg (by rw [table]; decide), if_neg (by rw [bits]; decide), at_] <;> (cases w <;> rfl)
variable (maps : s.BarMaps g bar o a) (n : Nat) (rivals : List Nat)
include maps
theorem State.barAccess_write (bs : List Byte) (running : s.ownerInReset (s.fnOwner g) = false) (reach : s.reach (.pcie g) (s.fnOwner g) false .write a n = true)
    (empty : (s.fn g).buf = []) : s.barAccess g bar o n (some bs) rivals =
      (((s.barEnter g a bs).setFn g (s.fn g)).store ⟨.pcie g, s.fnOwner g⟩ 2 a bs rivals).2 := by
  have entered : (s.barEnter g a bs).fn g = { s.fn g with buf := [(a, bs)] } := by
    rw [State.barEnter, State.fn_setFn_same, empty]
    rfl
  have same : ({ (s.barEnter g a bs).fn g with buf := [] } : PcieFn) = s.fn g := by
    rw [entered, ← empty]
  rw [State.barAccess_maps maps, if_neg (by rw [running, show s.reach _ _ _ (if (some bs).isSome then .write else .read) a n = true from reach]; decide)]
  show (s.barEnter g a bs).barMove g (s.fnOwner g) rivals = _
  unfold State.barMove
  simp only [entered, ← empty]
theorem State.barAccess_stores (bs : List Byte) (running : s.ownerInReset (s.fnOwner g) = false) (reach : s.reach (.pcie g) (s.fnOwner g) false .write a n = true)
    (empty : (s.fn g).buf = []) (memory : isReg a = false) :
    (s.barAccess g bar o n (some bs) rivals).mem = (s.memWrite ⟨.pcie g, s.fnOwner g⟩ a bs).2.mem := by
  rw [State.barAccess_write maps n rivals bs running reach empty, State.store, memory]
  refine (congrArg (fun r : Bool × State => r.2.mem) (if_neg Bool.false_ne_true)).trans ?_
  have entered : ((s.barEnter g a bs).setFn g (s.fn g)).lineView = s.lineView := rfl
  exact State.memWrite_lineView ((State.arbitrate_lineView _ a (Requester.pcie g).arbNo rivals).trans entered) _ a bs
theorem State.barAccess_reads {bs : List Byte} (running : s.ownerInReset (s.fnOwner g) = false) (reach : s.reach (.pcie g) (s.fnOwner g) false .read a n = true)
    (memory : isReg a = false) (read : (s.memEgress ⟨.pcie g, s.fnOwner g⟩ a n).1 = some bs) :
    (s.barAccess g bar o n none rivals).resp = some (BitVec.ofNat 32 (leNat bs)) ∧ (s.barAccess g bar o n none rivals).mem = s.mem := by
  have view := State.arbitrate_lineView s a (Requester.pcie g).arbNo rivals
  rw [State.barAccess_maps maps, if_neg (by rw [running, show s.reach _ _ _ (if (none : Option (List Byte)).isSome then .write else .read) a n = true from reach]; decide)]
  dsimp only
  rw [memory, if_neg Bool.false_ne_true]
  refine ⟨?_, (State.memEgress_mem _ _ a n).trans (State.mem_of_lineView view)⟩
  show ((s.arbitrate a (Requester.pcie g).arbNo rivals).memEgress ⟨.pcie g, s.fnOwner g⟩ a n).1.map (fun bs => BitVec.ofNat 32 (leNat bs)) = _
  rw [State.memEgress_lineView view, read]
  rfl
theorem State.barAccess_refused (small : a < 2 ^ 32)
    (refused : s.ownerInReset (s.fnOwner g) = true ∨ s.reach (.pcie g) (s.fnOwner g) false .read a n = false) :
    (s.barAccess g bar o n none rivals).resp = none ∧ (s.barAccess g bar o n none rivals).on (R.PCIE_Fn_STATUS_REFUSED g) = true ∧
    (s.barAccess g bar o n none rivals).get (R.PCIE_Fn_REFADDR_ADDR g) = a ∧ (s.barAccess g bar o n none rivals).mem = s.mem := by
  let t := s.refuse (.pcie g) (s.fnOwner g) .read a n
  have whole : s.barAccess g bar o n none rivals = { (t.put (R.PCIE_Fn_STATUS_REFUSED g) 1).put (R.PCIE_Fn_REFADDR_ADDR g) a with resp := none } := by
    rw [State.barAccess_maps maps, if_pos (by rcases refused with h | h <;> simp [h])]
    rfl
  rw [whole]
  refine ⟨rfl, ?_, ?_, blind_mem.refuse s _ _ _ a n false (.inl (Nat.zero_le _)) (.inl (Nat.zero_le _))⟩
  · exact (State.on_put_ne _ (R.PCIE_Fn_REFADDR_ADDR g) (R.PCIE_Fn_STATUS_REFUSED g) a (show 0x403C1000 + 0x100 * g.val ≠ 0x403C1004 + 0x100 * g.val by omega)).trans
      (State.on_put_self t (R.PCIE_Fn_STATUS_REFUSED g) 1 ⟨rfl⟩)
  · exact (State.get_put_self (t.put (R.PCIE_Fn_STATUS_REFUSED g) 1) (R.PCIE_Fn_REFADDR_ADDR g) a ⟨rfl⟩).trans (Nat.mod_eq_of_lt small)

end
end Sys2Proof.Machine
end

section
/-!
PROOF. The service ports (spec/16, R382, R383): CAN FD, UART, SPI and I²C controllers and general-purpose events.
-/
namespace Sys2Proof.Machine

/-! ### STATUS of a controller -/

theorem blind_ser : Blind State.ser 0 0 := blind_field (fun _ _ _ => rfl) (fun _ _ _ => rfl) (fun _ _ => rfl)
/-- The states agree on the controllers' queues and counts, and on every register outside the event matrix but STATUS of controller `c`. -/
def State.SerSame (c : Nat) (s t : State) : Prop :=
  t.ser = s.ser ∧ ∀ r : Reg, r.addr ≠ (R.SER_STATUS c).addr → r.addr < 0x40280000 ∨ 0x40284000 ≤ r.addr → t.rd r = s.rd r
theorem State.SerSame.trans {c : Nat} {s t u : State} (h : s.SerSame c t) (k : t.SerSame c u) : s.SerSame c u :=
  ⟨k.1.trans h.1, fun r ne off => (k.2 r ne off).trans (h.2 r ne off)⟩
theorem State.SerSame.port {c : Nat} {s t : State} (h : s.SerSame c t) (d : Nat) : t.serPort d = s.serPort d :=
  congrArg (fun x : Tab SerPort => Tab.get ({} : SerPort) x d) h.1
theorem State.serPort_setSer (s : State) (c : Nat) (x : SerPort) : (s.setSer c x).serPort c = x := Tab.get_set_same ({} : SerPort) s.ser c x

theorem serStatus_addr (c : Nat) : 0x403E0008 + 0x1000 * c ≤ (R.SER_STATUS c).addr ∧ (R.SER_STATUS c).addr ≤ 0x403E000C + 0x1000 * c := by
  simp only [R.SER_STATUS, R.SER]
  split <;> omega

section
variable (s : State) {c : Nat} (hc : c < 12)
include hc
theorem State.serStatus_same (v : Word) : s.SerSame c (s.serStatus c v) := by
  refine ⟨State.when_keeps _ State.ser _ (blind_ser.raise _ (732 + c) 0 (Nat.zero_le _)), fun r ne off => ?_⟩
  exact (State.when_keeps _ (State.rd · r) _ (State.raise_rd (by omega) off 0)).trans (State.rd_wr_ne s (R.SER_STATUS c) r v ne)
theorem State.serStatus_value (v : Word) : (s.serStatus c v).rd (R.SER_STATUS c) = v := by
  have off := serStatus_addr c
  exact (State.when_keeps _ (State.rd · (R.SER_STATUS c)) _ (State.raise_rd (by omega) (.inr (by omega)) 0)).trans (State.rd_wr_same s (R.SER_STATUS c) v)
theorem State.serFlag_same (k : Nat) (b : Bool) : s.SerSame c (s.serFlag c k b) := by
  obtain ⟨ports, regs⟩ := s.serStatus_same hc (fieldPut (s.rd (R.SER_STATUS c)) k 1 b.toNat)
  exact ⟨ports, fun r ne off => (State.rd_heat _ _ _ _).trans (regs r ne off)⟩
theorem State.serFlag_value (k : Nat) (b : Bool) : (s.serFlag c k b).rd (R.SER_STATUS c) = fieldPut (s.rd (R.SER_STATUS c)) k 1 b.toNat :=
  (State.rd_heat _ _ _ _).trans (s.serStatus_value hc _)
/-- A flag of STATUS takes a value, the others keep theirs. -/
theorem State.serFlag_bit {k j : Nat} (hj : j < 32) (b : Bool) :
    ((s.serFlag c k b).rd (R.SER_STATUS c)).getLsbD j = if j = k then b else (s.rd (R.SER_STATUS c)).getLsbD j := by
  rw [s.serFlag_value hc, fieldPut_getLsbD]
  by_cases e : j = k
  · subst e
    rw [if_pos ⟨Nat.le_refl _, Nat.lt_succ_self _, hj⟩, if_pos rfl, Nat.sub_self]
    cases b <;> rfl
  · rw [if_neg (by omega), if_neg e]
end

/-! ### CAN FD (R382) -/

section
variable (s : State) {c : Nat} (hc : c < 2)
include hc
theorem State.canCounts_fields (tec cnt : Nat) :
    (s.canCounts c tec cnt).serPort c = { s.serPort c with tec := tec, cnt := cnt } ∧
    ((s.canCounts c tec cnt).rd (R.SER_STATUS c)).getLsbD 5 = ((s.rd (R.SER_STATUS c)).getLsbD 5 || decide (255 < tec)) ∧
    ∀ r : Reg, r.addr ≠ (R.SER_STATUS c).addr → r.addr < 0x40280000 ∨ 0x40284000 ≤ r.addr → (s.canCounts c tec cnt).rd r = s.rd r := by
  let t := s.setSer c { s.serPort c with tec := tec, cnt := cnt }
  have same := fun v => State.serStatus_same t (c := c) (by omega) v
  refine ⟨((same _).port c).trans (State.serPort_setSer _ _ _), ?_, fun r ne off => (same _).2 r ne off⟩
  refine (congrArg (BitVec.getLsbD · 5) (State.serStatus_value t (c := c) (by omega) _)).trans ?_
  rw [fieldPut_getLsbD, if_pos (by decide), Nat.sub_self, bit, BitVec.testBit_toNat]
  cases (s.rd (R.SER_STATUS c)).getLsbD 5 || decide (255 < tec) <;> rfl

/-- A buffer of the controller lies beside its status, and beside the event matrix. -/
theorem canBuf_addr (m w : Nat) : (R.CAN_BUFm c m w).addr ≠ (R.SER_STATUS c).addr ∧ 0x40284000 ≤ (R.CAN_BUFm c m w).addr := by
  have status := serStatus_addr c
  simp only [R.CAN_BUFm, R.SER]
  omega
/-- A matching frame stands in the buffer it has entered. -/
theorem State.canStore_fields {m : Nat} (dlc : Nat) (data : List Byte) :
    (s.canStore c m dlc data).rd (R.CAN_BUFm c m 2) = BitVec.ofNat 32 (2 ^ 31 + dlc) ∧
    (∀ i, i < 16 → (s.canStore c m dlc data).rd (R.CAN_BUFm c m (5 + i)) = BitVec.ofNat 32 (leNat ((data.drop (4 * i)).take 4))) ∧
    ((s.canStore c m dlc data).rd (R.SER_STATUS c)).getLsbD 7 = true := by
  have hc' : c < 12 := by omega
  have apart : ∀ i j, i ≠ j → (R.CAN_BUFm c m i).addr ≠ (R.CAN_BUFm c m j).addr := fun i j h => by simp only [R.CAN_BUFm, R.SER]; omega
  let t0 := s.fresh.2
  let t1 := t0.wr (R.CAN_BUFm c m 0) ((t0.rd (R.CAN_BUFm c m 0) &&& ~~~(~~~(t0.rd (R.CAN_BUFm c m 1)) &&& 0x1FFFFFFF#32)) |||
    (BitVec.ofNat 32 s.fresh.1 &&& (~~~(t0.rd (R.CAN_BUFm c m 1)) &&& 0x1FFFFFFF#32)))
  let t2 := t1.wr (R.CAN_BUFm c m 2) (BitVec.ofNat 32 (2 ^ 31 + dlc))
  let t3 := t2.putTime (R.CAN_BUFm c m 3) (R.CAN_BUFm c m 4) t2.now
  let word (i : Nat) (t : State) : State := t.wr (R.CAN_BUFm c m (5 + i)) ((wordsOf data).getD i 0#32)
  let t4 := t3.each (List.range 16) word
  have whole : s.canStore c m dlc data = t4.serFlag c 7 true := rfl
  have flag : ∀ w, (s.canStore c m dlc data).rd (R.CAN_BUFm c m w) = t4.rd (R.CAN_BUFm c m w) := fun w =>
    (congrArg (State.rd · (R.CAN_BUFm c m w)) whole).trans ((State.serFlag_same t4 hc' 7 true).2 _ (canBuf_addr hc m w).1 (.inr (canBuf_addr hc m w).2))
  have other : ∀ i j, i ≠ 5 + j → ∀ t : State, (word j t).rd (R.CAN_BUFm c m i) = t.rd (R.CAN_BUFm c m i) := fun i j h t =>
    State.rd_wr_ne t (R.CAN_BUFm c m (5 + j)) (R.CAN_BUFm c m i) _ (apart i (5 + j) h)
  refine ⟨(flag 2).trans ?_, fun i hi => (flag _).trans ?_, ?_⟩
  · refine (State.each_keeps (List.range 16) word (State.rd · (R.CAN_BUFm c m 2)) (fun j t => other 2 j (by omega) t) t3).trans ?_
    exact (State.rd_wr_ne _ (R.CAN_BUFm c m 4) (R.CAN_BUFm c m 2) _ (apart 2 4 (by decide))).trans
      ((State.rd_wr_ne t2 (R.CAN_BUFm c m 3) (R.CAN_BUFm c m 2) _ (apart 2 3 (by decide))).trans (State.rd_wr_same t1 (R.CAN_BUFm c m 2) _))
  · refine State.each_once (f := word) (x := i) (inv := fun _ => True)
      (goal := fun t => t.rd (R.CAN_BUFm c m (5 + i)) = BitVec.ofNat 32 (leNat ((data.drop (4 * i)).take 4)))
      List.nodup_range (List.mem_range.2 hi) (fun _ _ _ _ => trivial) (fun j ne t h => (other (5 + i) j (by omega) t).trans h) (fun t _ => ?_) trivial
    refine (State.rd_wr_same t (R.CAN_BUFm c m (5 + i)) _).trans ?_
    simp [wordsOf, hi]
  · exact (congrArg (fun t => (State.rd t (R.SER_STATUS c)).getLsbD 7) whole).trans ((State.serFlag_bit t4 hc' (by decide) true).trans (if_pos rfl))

/-- The controller runs, is enabled and is not bus-off. -/
def State.CanUp (s : State) (c : Nat) : Prop :=
  s.serRuns c = true ∧ (s.serReg c 8).testBit 0 = true ∧ (s.rd (R.SER_STATUS c)).getLsbD 5 = false
variable {s} (up : s.CanUp c)
include up
theorem State.canReceive_error (ext fd : Bool) (id dlc : Nat) (data : List Byte) :
    ((s.canReceive c false ext id fd dlc data).serPort c).cnt = (s.serPort c).cnt + 1 := by
  obtain ⟨runs, enabled, on⟩ := up
  have step : s.canReceive c false ext id fd dlc data = s.canCounts c (s.serPort c).tec ((s.serPort c).cnt + 1) := by
    simp only [State.canReceive, bit, runs, enabled, BitVec.testBit_toNat, on, Bool.not_true, Bool.not_false, Bool.or_self, Bool.true_or, Bool.false_eq_true,
      if_false, if_true]
  rw [step, (s.canCounts_fields hc _ _).1]
/-- A good frame enters the first buffer that takes its identifier. -/
theorem State.canReceive_stores {m : Nat} {ext fd : Bool} {id : Nat} (match_ : (List.range 32).find? (fun m => s.canMatch c m ext id) = some m)
    (rate : fd = true → (s.serReg c 8).testBit 2 = true) (dlc : Nat) (data : List Byte) :
    ∃ t : State, s.canReceive c true ext id fd dlc data = t.canStore c m dlc data := by
  obtain ⟨runs, enabled, on⟩ := up
  let t := s.canCounts c (s.serPort c).tec (if 127 < (s.serPort c).cnt then 127 else (s.serPort c).cnt - 1)
  have buffers : ∀ m w, t.rd (R.CAN_BUFm c m w) = s.rd (R.CAN_BUFm c m w) := fun m w =>
    (s.canCounts_fields hc _ _).2.2 _ (canBuf_addr hc m w).1 (.inr (canBuf_addr hc m w).2)
  have taken : (List.range 32).find? (fun m => t.canMatch c m ext id) = some m := by
    simpa only [State.canMatch, buffers] using match_
  have slow : (fd && !(s.serReg c 8).testBit 2) = false := by cases fd <;> simp_all
  refine ⟨t, ?_⟩
  simp only [State.canReceive, bit, runs, enabled, BitVec.testBit_toNat, on, slow, Bool.not_true, Bool.or_self, Bool.false_eq_true, if_false]
  rw [taken]
variable {m : Nat} (auto : (s.serReg c 8).testBit 1 = false) (used : (s.rd (R.CAN_BUFm c m 0)).getLsbD 31 = true) (posted : (s.rd (R.CAN_BUFm c m 2)).getLsbD 31 = true)
include auto used posted
theorem State.canSent_sent : ((s.canSent c m true).rd (R.CAN_BUFm c m 2)).getLsbD 31 = false ∧ ((s.canSent c m true).rd (R.SER_STATUS c)).getLsbD 6 = true ∧
    ((s.canSent c m true).serPort c).tec = (s.serPort c).tec - 1 := by
  obtain ⟨runs, enabled, on⟩ := up
  let t := s.wr (R.CAN_BUFm c m 2) (fieldPut (s.rd (R.CAN_BUFm c m 2)) 31 1 0)
  let u := t.canCounts c ((s.serPort c).tec - 1) (s.serPort c).cnt
  have step : s.canSent c m true = u.serFlag c 6 true := by
    simp only [State.canSent, bit, runs, enabled, auto, BitVec.testBit_toNat, on, used, posted, Bool.not_true, Bool.or_self, Bool.false_eq_true, if_false, if_true]
    rfl
  obtain ⟨port, -, regs⟩ := t.canCounts_fields hc ((s.serPort c).tec - 1) (s.serPort c).cnt
  have flag := u.serFlag_same (c := c) (by omega) 6 true
  rw [step]
  refine ⟨?_, (u.serFlag_bit (by omega) (by decide) true).trans (if_pos rfl), ?_⟩
  · rw [flag.2 _ (canBuf_addr hc m 2).1 (.inr (canBuf_addr hc m 2).2), show u.rd _ = t.rd _ from regs _ (canBuf_addr hc m 2).1 (.inr (canBuf_addr hc m 2).2),
      State.rd_wr_same, fieldPut_getLsbD]
    rfl
  · rw [flag.port, show u.serPort c = _ from port]
theorem State.canSent_failed : (s.canSent c m false).rd (R.CAN_BUFm c m 2) = s.rd (R.CAN_BUFm c m 2) ∧
    ((s.canSent c m false).serPort c).tec = (s.serPort c).tec + 8 ∧ ((s.canSent c m false).rd (R.SER_STATUS c)).getLsbD 5 = decide (255 < (s.serPort c).tec + 8) := by
  obtain ⟨runs, enabled, on⟩ := up
  have step : s.canSent c m false = s.canCounts c ((s.serPort c).tec + 8) (s.serPort c).cnt := by
    simp only [State.canSent, bit, runs, enabled, auto, BitVec.testBit_toNat, on, used, posted, Bool.not_true, Bool.or_self, Bool.false_eq_true, if_false]
  obtain ⟨port, off, regs⟩ := s.canCounts_fields hc ((s.serPort c).tec + 8) (s.serPort c).cnt
  rw [step, port, off, on]
  exact ⟨regs _ (canBuf_addr hc m 2).1 (.inr (canBuf_addr hc m 2).2), rfl, rfl⟩
end

/-! ### UART, SPI and I²C (R382) -/

section
variable (s : State) {c : Nat} (hc : c < 12)
include hc
/-- The receive level leaves the queues, and every flag of STATUS but bit 0 and the level itself. -/
theorem State.serLevel_fields : (s.serLevel c).ser = s.ser ∧
    ∀ j, 1 ≤ j → j < 8 → ((s.serLevel c).rd (R.SER_STATUS c)).getLsbD j = (s.rd (R.SER_STATUS c)).getLsbD j := by
  unfold State.serLevel
  dsimp only
  split_ifs
  · refine ⟨(s.serStatus_same hc _).1, fun j hj hj' => ?_⟩
    rw [s.serStatus_value hc, fieldPut_getLsbD, if_neg (by omega), fieldPut_getLsbD, if_neg (by omega)]
  · refine ⟨(s.serStatus_same hc _).1, fun j hj hj' => ?_⟩
    rw [s.serStatus_value hc, fieldPut_getLsbD, if_neg (by omega)]
  · exact ⟨rfl, fun _ _ _ => rfl⟩
/-- A received word enters the queue, or is lost with the overrun flag. -/
theorem State.serPush_fields (v : Nat) : ((s.serPush c v).serPort c).tx = (s.serPort c).tx ∧
    ((s.serPort c).rx.length < 64 → ((s.serPush c v).serPort c).rx = (s.serPort c).rx ++ [v]) ∧
    (64 ≤ (s.serPort c).rx.length → ((s.serPush c v).rd (R.SER_STATUS c)).getLsbD 1 = true) ∧
    ∀ j, 2 ≤ j → j < 8 → ((s.serPush c v).rd (R.SER_STATUS c)).getLsbD j = (s.rd (R.SER_STATUS c)).getLsbD j := by
  by_cases full : 64 ≤ (s.serPort c).rx.length
  · have step : s.serPush c v = s.serFlag c 1 true := if_pos full
    rw [step, (s.serFlag_same hc 1 true).port]
    exact ⟨rfl, fun room => absurd full (by omega), fun _ => (s.serFlag_bit hc (by decide) true).trans (if_pos rfl),
      fun j hj hj' => (s.serFlag_bit hc (by omega) true).trans (if_neg (by omega))⟩
  · let t := s.setSer c { s.serPort c with rx := (s.serPort c).rx ++ [v] }
    have step : s.serPush c v = t.serLevel c := if_neg full
    obtain ⟨queues, flags⟩ := t.serLevel_fields hc
    have port : (s.serPush c v).serPort c = { s.serPort c with rx := (s.serPort c).rx ++ [v] } :=
      (congrArg (State.serPort · c) step).trans ((congrArg (fun x : Tab SerPort => Tab.get ({} : SerPort) x c) queues).trans (State.serPort_setSer s c _))
    rw [port]
    exact ⟨rfl, fun _ => rfl, fun h => absurd h full, fun j hj hj' => (congrArg (fun t => (State.rd t (R.SER_STATUS c)).getLsbD j) step).trans (flags j (by omega) hj')⟩
end

section
variable {s : State} {u : Nat} (hu : u < 4)
include hu
/-- A character that ends at a UART's receiver is counted as one error, or received. -/
theorem State.uartByte_fields (runs : s.serRuns (2 + u) = true) (enabled : (s.serReg (2 + u) 0).testBit 0 = true) (b : Nat) (brk framing parity : Bool) :
    if brk then ((s.uartByte u b brk framing parity).rd (R.SER_STATUS (2 + u))).getLsbD 4 = true
    else if framing then ((s.uartByte u b brk framing parity).rd (R.SER_STATUS (2 + u))).getLsbD 3 = true
    else if parity ∧ s.serReg (2 + u) 0 / 4 % 4 ≠ 0 then ((s.uartByte u b brk framing parity).rd (R.SER_STATUS (2 + u))).getLsbD 2 = true
    else if 64 ≤ (s.serPort (2 + u)).rx.length then ((s.uartByte u b brk framing parity).rd (R.SER_STATUS (2 + u))).getLsbD 1 = true
    else ((s.uartByte u b brk framing parity).serPort (2 + u)).rx = (s.serPort (2 + u)).rx ++ [if (s.serReg (2 + u) 0).testBit 1 then b % 128 else b] := by
  have hc : 2 + u < 12 := by omega
  have flagged : ∀ k, k < 32 → ((s.serFlag (2 + u) k true).rd (R.SER_STATUS (2 + u))).getLsbD k = true := fun k hk =>
    (s.serFlag_bit hc hk true).trans (if_pos rfl)
  have step : s.uartByte u b brk framing parity = if brk then s.serFlag (2 + u) 4 true else if framing then s.serFlag (2 + u) 3 true
      else if parity && bitsOf (s.serReg (2 + u) 0) 2 2 != 0 then s.serFlag (2 + u) 2 true
      else s.serPush (2 + u) (if bit (s.serReg (2 + u) 0) 1 then b % 128 else b) :=
    if_neg (by rw [runs, bit, enabled]; decide)
  rw [step]
  obtain ⟨-, pushed, lost, -⟩ := s.serPush_fields hc (if bit (s.serReg (2 + u) 0) 1 then b % 128 else b)
  have checked : (parity && bitsOf (s.serReg (2 + u) 0) 2 2 != 0) = true ↔ parity ∧ s.serReg (2 + u) 0 / 4 % 4 ≠ 0 := by simp [bitsOf]
  cases brk
  · cases framing
    · by_cases wrong : parity ∧ s.serReg (2 + u) 0 / 4 % 4 ≠ 0
      · simp only [Bool.false_eq_true, if_false, if_pos wrong, if_pos (checked.2 wrong)]
        exact flagged 2 (by decide)
      · simp only [Bool.false_eq_true, if_false, if_neg wrong, if_neg (mt checked.1 wrong)]
        split
        · exact lost (by assumption)
        · exact pushed (by omega)
    · exact flagged 3 (by decide)
  · exact flagged 4 (by decide)
/-- An SPI word shifts out of one queue and into the other. -/
theorem State.spiWord_fields (runs : s.serRuns (6 + u) = true) (moves : (s.serReg (6 + u) 0).testBit 0 = true ∨ (s.serPort (6 + u)).tx ≠ []) (v : Nat) :
    ((s.spiWord u v).serPort (6 + u)).tx = (s.serPort (6 + u)).tx.tail ∧
    ((s.serPort (6 + u)).rx.length < 64 →
      ((s.spiWord u v).serPort (6 + u)).rx = (s.serPort (6 + u)).rx ++ [v % 2 ^ (s.serReg (6 + u) 0 / 256 % 32 + 1)]) ∧
    (64 ≤ (s.serPort (6 + u)).rx.length → ((s.spiWord u v).rd (R.SER_STATUS (6 + u))).getLsbD 1 = true) ∧
    ((s.serReg (6 + u) 0).testBit 0 = true → (s.serPort (6 + u)).tx = [] → ((s.spiWord u v).rd (R.SER_STATUS (6 + u))).getLsbD 2 = true) := by
  have hc : 6 + u < 12 := by omega
  let x := s.serPort (6 + u)
  let s1 := s.setSer (6 + u) { x with tx := x.tx.tail }
  let s2 := if bit (s.serReg (6 + u) 0) 0 then s1.when x.tx.isEmpty fun s => s.serFlag (6 + u) 2 true else s1.serFlag (6 + u) 0 (decide (1 < x.tx.length))
  have step : s.spiWord u v = s2.serPush (6 + u) (v % 2 ^ (bitsOf (s.serReg (6 + u) 0) 8 5 + 1)) := by
    refine if_neg ?_
    rcases moves with target | queued
    · simp [runs, bit, target]
    · rw [runs, List.isEmpty_eq_false_iff.2 queued, Bool.and_false]
      decide
  have port : s2.serPort (6 + u) = { x with tx := x.tx.tail } := by
    refine Eq.trans ?_ (State.serPort_setSer s (6 + u) { x with tx := x.tx.tail })
    simp only [s2]
    split
    · exact s1.when_keeps (State.serPort · (6 + u)) _ ((s1.serFlag_same hc 2 true).port _)
    · exact (s1.serFlag_same hc 0 _).port _
  obtain ⟨tx, pushed, lost, flags⟩ := s2.serPush_fields hc (v % 2 ^ (bitsOf (s.serReg (6 + u) 0) 8 5 + 1))
  rw [step, tx]
  rw [port] at pushed lost ⊢
  refine ⟨rfl, pushed, lost, fun target empty => (flags 2 (by decide) (by decide)).trans ?_⟩
  have underrun : s2 = s1.serFlag (6 + u) 2 true := by
    simp only [s2, bit, target, if_true, show x.tx = [] from empty]
    rfl
  rw [underrun]
  exact (s1.serFlag_bit hc (by decide) true).trans (if_pos rfl)
end

section
variable {s : State} {i : Nat}
theorem State.i2cDone_step (runs : s.serRuns (10 + i) = true) (busy : (s.rd (R.SER_STATUS (10 + i))).getLsbD 0 = true) (o : Nat) (data : List Byte) :
    s.i2cDone i o data = ((if o != 0 then s
      else if bit (s.serReg (10 + i) 4) 30 then
        s.setSer (10 + i) { s.serPort (10 + i) with rx := (s.serPort (10 + i)).rx ++ (data.take (s.serReg (10 + i) 4 % 256)).map (·.toNat) }
      else s.setSer (10 + i) { s.serPort (10 + i) with tx := (s.serPort (10 + i)).tx.drop (s.serReg (10 + i) 4 % 256) }).serFlag (10 + i) 0 false).serFlag (10 + i)
        (match o with | 0 => 1 | 1 => 3 | _ => 4) true :=
  if_neg (by rw [runs, bit, BitVec.testBit_toNat, busy]; decide)
/-- The end of a controller's transfer clears BUSY and sets the flag of its outcome. -/
theorem State.i2cEnd_fields (hi : i < 2) (t : State) {k : Nat} (hk : 1 ≤ k) (small : k < 32) :
    (((t.serFlag (10 + i) 0 false).serFlag (10 + i) k true).rd (R.SER_STATUS (10 + i))).getLsbD 0 = false ∧
    (((t.serFlag (10 + i) 0 false).serFlag (10 + i) k true).rd (R.SER_STATUS (10 + i))).getLsbD k = true ∧
    ((t.serFlag (10 + i) 0 false).serFlag (10 + i) k true).serPort (10 + i) = t.serPort (10 + i) := by
  have hc : 10 + i < 12 := by omega
  exact ⟨(State.serFlag_bit _ hc (by decide) true).trans ((if_neg (by omega)).trans ((t.serFlag_bit hc (by decide) false).trans (if_pos rfl))),
    (State.serFlag_bit _ hc small true).trans (if_pos rfl),
    ((State.serFlag_same _ hc k true).port _).trans ((t.serFlag_same hc 0 false).port _)⟩
end

/-! ### General-purpose events (R383) -/

theorem gpio_masks (w : Word) : BitVec.ofNat 32 (w.toNat &&& 0x37F) = w &&& 0x37F#32 ∧ BitVec.ofNat 32 (w.toNat &&& 0x77F) = w &&& 0x77F#32 :=
  ⟨BitVec.eq_of_toNat_eq (by simp [BitVec.toNat_and]),
    BitVec.eq_of_toNat_eq (by simp [BitVec.toNat_and])⟩
/-- The owner of the pin of an event, old and new, writes the event's entry. -/
theorem gpioEvWrite_takes {s : State} {view : Nat} {k : Nat} (oev : Bool) (w : Word)
    (may : view = platform ∨ (s.owner 13 (w.toNat % 128) = view ∧ (gpioOff oev (s.rd (if oev then R.GPIO_OEVk k else R.GPIO_EVk k)).toNat = true ∨
      s.owner 13 ((s.rd (if oev then R.GPIO_OEVk k else R.GPIO_EVk k)).toNat % 128) = view))) :
    (gpioEvWrite view k oev w.toNat s).rd (if oev then R.GPIO_OEVk k else R.GPIO_EVk k) = w &&& (if oev then 0x37F#32 else 0x77F#32) := by
  obtain ⟨output, input⟩ := gpio_masks w
  have allowed : (view == platform || (s.owner 13 (w.toNat % 128) == view && (gpioOff oev (s.rd (if oev then R.GPIO_OEVk k else R.GPIO_EVk k)).toNat ||
      s.owner 13 ((s.rd (if oev then R.GPIO_OEVk k else R.GPIO_EVk k)).toNat % 128) == view))) = true := by
    rcases may with h | ⟨new, off | old⟩
    · simp [h]
    · simp [new, off]
    · simp [new, old]
  refine (congrArg (State.rd · (if oev then R.GPIO_OEVk k else R.GPIO_EVk k)) (if_pos allowed)).trans ((State.rd_wr_same _ _ _).trans ?_)
  cases oev
  · exact input
  · exact output
theorem gpioEvWrite_refused {s : State} {view : Nat} (k : Nat) (oev : Bool) (w : Word) (partition : view ≠ platform) (foreign : s.owner 13 (w.toNat % 128) ≠ view) :
    gpioEvWrite view k oev w.toNat s = s :=
  if_neg (by simp [partition, foreign])
end Sys2Proof.Machine
end

section
/-!
PROOF. The host and service ports: PCI Express functions and access, CAN, UART, SPI, I²C and general-purpose events (spec/16).
-/
namespace Sys2Proof.Machine

theorem testBit_setBit_same (x k : Nat) (b : Bool) : (setBit x k b).testBit k = b := (testBit_setBit x k k b).trans (if_pos rfl)

/-- What becomes of a vector's message at an attempt to send it (R380). -/
theorem execMsixMessage_fields (s : State) (f : Fin 8) (v : Fin 64) (asked : (s.fn f).want.testBit v || (s.fn f).pend.testBit v = true) :
    (s.maySend f v = true → Goes (.msixMessage f v) s fun t => (t.fn f).want.testBit v = false ∧ (t.fn f).pend.testBit v = false ∧
      t.up = some ⟨f, ((s.fn f).word (4 * v)).toNat + 2 ^ 32 * ((s.fn f).word (4 * v + 1)).toNat, leBytes 4 ((s.fn f).word (4 * v + 2)).toNat⟩) ∧
    (s.maySend f v = false → Goes (.msixMessage f v) s fun t => (t.fn f).pend.testBit v = true ∧ t.up = s.up) := by
  have due : ¬(!((s.fn f).want.testBit v || (s.fn f).pend.testBit v)) = true := by
    rcases (by simpa using asked : (s.fn f).want.testBit v = true ∨ (s.fn f).pend.testBit v = true) with h | h <;> simp [h]
  refine ⟨fun may => ⟨_, congrArg Host.Outcome.next ((if_neg due).trans (if_pos may)), ?_, ?_, ?_⟩,
    fun held => ⟨_, congrArg Host.Outcome.next ((if_neg due).trans (if_neg (by rw [held]; decide))), ?_, rfl⟩⟩
  · exact (congrArg (fun x : PcieFn => x.want.testBit v) (State.fn_setFn_same s f _)).trans (testBit_setBit_same (s.fn f).want v false)
  · exact (congrArg (fun x : PcieFn => x.pend.testBit v) (State.fn_setFn_same s f _)).trans (testBit_setBit_same (s.fn f).pend v false)
  · rw [leBytes_word]
    rfl
  · exact (congrArg (fun x : PcieFn => x.pend.testBit v) (State.fn_setFn_same s f _)).trans (testBit_setBit_same (s.fn f).pend v true)

/-- A link trains whose functions exist and whose domains run (R375). -/
theorem execPcieLinkUp_fields (s : State) (l : Fin 2) (f : Fin 8) (speed : Fin 4) (width : Fin 5) (present : s.on (R.PCIE_Fn_STATUS_PRESENT f) = true)
    (link : s.onLink l f = true) (run0 : s.running 90 = true) (run1 : s.running 91 = true) (out0 : s.domReset 90 = false) (out1 : s.domReset 91 = false) :
    Goes (.pcieLinkUp l speed width) s fun t => t.on (R.PCIE_LINKl_STATUS_UP l) = true ∧ t.get (R.PCIE_LINKl_STATUS_SPEED l) = speed ∧
      t.get (R.PCIE_LINKl_STATUS_WIDTH l) = width := by
  have used : ((List.range 8).any fun f => s.onLink l f && s.on (R.PCIE_Fn_STATUS_PRESENT f)) = true :=
    List.any_eq_true.2 ⟨f, List.mem_range.2 f.isLt, by rw [present, link]; rfl⟩
  refine ⟨_, congrArg Host.Outcome.next (if_pos (by rw [used, run0, run1, out0, out1]; rfl)), ?_, ?_, ?_⟩ <;>
    simp (disch := exact ⟨rfl⟩) only [State.on_put_beside, State.on_put_self, State.get_put_beside, State.get_put_self]
  · rfl
  · exact Nat.mod_eq_of_lt speed.isLt
  · exact Nat.mod_eq_of_lt (Nat.lt_of_lt_of_le width.isLt (show 5 ≤ 2 ^ 4 by decide))

/-- An input event's edge leaves on the line of its entry (R383). -/
theorem execGpioInputEvent_fields (s : State) (k : Fin 16) (rising : Bool) :
    let ev := s.rd (R.GPIO_EVk k)
    let selected := ev.getLsbD 10 && ev.getLsbD (if rising then 8 else 9)
    (selected = true → s.ownerInReset (s.lineOwner (744 + k.val)) = false → s.line (744 + k.val) = {} →
      Goes (.gpioInputEvent k rising) s fun t => t.line (744 + k.val) = ⟨some s.now, none⟩) ∧
    (selected = false → exec (.gpioInputEvent k rising) s = .next s) := by
  intro ev selected
  have step : ∀ b, selected = b → exec (.gpioInputEvent k rising) s = .next (s.when b fun s => s.raise (744 + k.val)) := fun b e => by
    have cond : (bit ev.toNat 10 && bit ev.toNat (if rising then 8 else 9)) = b := by simp only [bit, BitVec.testBit_toNat]; exact e
    exact congrArg (fun b => Host.Outcome.next (s.when b fun s => s.raise (744 + k.val))) cond
  refine ⟨fun on free idle => ⟨_, step true on, ?_⟩, fun off => step false off⟩
  have leaves : s.raise (744 + k.val) = s.leave (744 + k.val) 0 :=
    State.raise_leaves free (by rw [idle]) (fun t0 e => by rw [idle] at e; cases e) 0
  exact (congrArg (State.line · (744 + k.val)) leaves).trans (s.leave_fields _ 0).1

/-- Settles O54: each command is its block's rule; an access through a BAR does what it would without the arbiter, and the reset of a function, or of
the functions on a link, reaches those functions' registers and the locks they hold. -/
theorem hostAndServicePorts : Obligations.HostAndServicePorts := by
  intro s q f l vec hi mem bme msix mask down high m b speed width o n k bs rivals c c2 ext fd id dlc j u u2 byte brk framing parity rising oev k16 v w a i
    x pcie config clean vi view reached st can cx ux uart sx target ix i2c addressed ev r
  have hf := f.isLt
  have maps : ∀ bar access a, reached bar access a → s.BarMaps f bar o.toNat a ∧ s.ownerInReset view = false ∧ s.reach (.pcie f) view false access a n = true :=
    fun bar access a h => by
      obtain ⟨alive, present, enabled, at_, owner, running, reach⟩ := h
      exact ⟨⟨alive, present, enabled, at_, owner⟩, running, reach⟩
  refine ⟨fun acc => ⟨fun present on => ?_, fun absent => ?_⟩, execMsixMessage_fields s f vec, fun present => ?_, fun present => ?_, fun present link => ?_,
    fun present link run0 run1 out0 out1 => execPcieLinkUp_fields s l f speed width present link run0 run1 out0 out1, ?_, fun empty goes memory => ?_, fun goes memory read => ?_,
    fun empty goes register => ?_, fun alive present enabled at_ refused => ?_, fun up => ?_, fun runs off => ?_, fun h => ?_, fun runs moves => ?_, fun h => ?_, fun h => ?_,
    fun h => ?_, execGpioInputEvent_fields s k16 rising, fun acc => ⟨fun may => ?_, fun partition foreign => ?_⟩⟩
  · exact ⟨_, regWrite_accepts _ acc, vreqWrite_requests present b.isLt hi ((BitVec.testBit_toNat m).trans on)⟩
  · exact (regWrite_accepts _ acc).trans (congrArg Host.Outcome.next (vreqWrite_absent absent hi _))
  · exact ⟨_, congrArg Host.Outcome.next (if_pos present), s.pcieConfig_enables f hf mem bme msix mask⟩
  · exact ⟨_, congrArg Host.Outcome.next (if_pos present), s.fnReset_fields f hf (k := 6) (.inr rfl), fun k held owner => by
      obtain ⟨⟨free, -⟩, broken, cause⟩ := s.fnReset_locks f hf k.isLt held owner (R.PCIE_Fn_STATUS_FLR f) rfl
      exact ⟨free, broken, cause⟩⟩
  · exact ⟨_, rfl, s.hotReset_fields f hf l.isLt present link down, fun e => by subst e; exact s.hotReset_up l l.isLt⟩
  · exact ⟨_, rfl, s.perst_level high, fun was low alive => by subst low; exact s.perst_low was alive⟩
  · obtain ⟨at_, running, reach⟩ := maps _ _ _ goes
    exact ⟨_, rfl, State.barAccess_stores at_ n _ bs running reach empty memory⟩
  · obtain ⟨at_, running, reach⟩ := maps _ _ _ goes
    exact ⟨_, rfl, State.barAccess_reads at_ n _ running reach memory read⟩
  · obtain ⟨at_, running, reach⟩ := maps _ _ _ goes
    refine congrArg Host.Outcome.next ((State.barAccess_write at_ n _ bs running reach empty).trans ?_)
    exact congrArg Prod.snd (if_pos register)
  · have small : k < 2 ^ 32 := by
      have window := o.isLt
      have address : 0x10000000 + o.toNat = k := Option.some.inj ((if_pos window).symm.trans at_)
      omega
    exact ⟨_, rfl, State.barAccess_refused ⟨alive, present, enabled, at_, fun _ => rfl⟩ n _ small refused⟩
  · have hc := c.isLt
    refine ⟨fun match_ rate => ?_, ⟨_, rfl, State.canReceive_error hc up ext fd id.toNat dlc bs⟩, fun auto used posted =>
      ⟨⟨_, rfl, State.canSent_sent hc up auto used posted⟩, ⟨_, rfl, State.canSent_failed hc up auto used posted⟩⟩⟩
    obtain ⟨t, stored⟩ := State.canReceive_stores hc up match_ rate dlc bs
    obtain ⟨length, data, flag⟩ := t.canStore_fields hc (m := k) dlc bs
    exact ⟨_, congrArg Host.Outcome.next stored, length, data i i.isLt, flag⟩
  · have hc := c.isLt
    let t := s.wr (R.SER_STATUS c) (fieldPut (s.rd (R.SER_STATUS c)) 5 1 0)
    obtain ⟨port, on, -⟩ := t.canCounts_fields hc 0 0
    refine ⟨t.canCounts c 0 0, congrArg Host.Outcome.next (if_pos (by rw [runs, bit, BitVec.testBit_toNat, off]; rfl)), on.trans ?_, by rw [port], by rw [port]⟩
    rw [State.rd_wr_same, fieldPut_getLsbD]
    rfl
  · exact ⟨_, rfl, State.uartByte_fields u.isLt h.1 h.2 byte.toNat brk framing parity⟩
  · exact ⟨_, rfl, State.spiWord_fields u2.isLt runs moves v.toNat⟩
  · obtain ⟨runs, busy⟩ := h
    refine ⟨⟨_, congrArg Host.Outcome.next (State.i2cDone_step runs busy 0 bs), ?_⟩, ⟨_, congrArg Host.Outcome.next (State.i2cDone_step runs busy 1 bs), ?_⟩,
      ⟨_, congrArg Host.Outcome.next (State.i2cDone_step runs busy 2 bs), ?_⟩⟩
    · let received := s.setSer (10 + c2.val) { ix with rx := ix.rx ++ (bs.take (s.serReg (10 + c2.val) 4 % 256)).map (·.toNat) }
      let sent := s.setSer (10 + c2.val) { ix with tx := ix.tx.drop (s.serReg (10 + c2.val) 4 % 256) }
      let t := if bit (s.serReg (10 + c2.val) 4) 30 then received else sent
      obtain ⟨idle, done, port⟩ := State.i2cEnd_fields c2.isLt t (k := 1) (by decide) (by decide)
      refine ⟨idle, done, ?_⟩
      show if bit (s.serReg (10 + c2.val) 4) 30 = true then _ else _
      by_cases way : bit (s.serReg (10 + c2.val) 4) 30 = true
      · have queues : t = received := if_pos way
        rw [if_pos way]
        exact congrArg SerPort.rx (port.trans ((congrArg (State.serPort · (10 + c2.val)) queues).trans (State.serPort_setSer s _ _)))
      · have queues : t = sent := if_neg way
        rw [if_neg way]
        exact congrArg SerPort.tx (port.trans ((congrArg (State.serPort · (10 + c2.val)) queues).trans (State.serPort_setSer s _ _)))
    · obtain ⟨-, nack, port⟩ := State.i2cEnd_fields c2.isLt s (k := 3) (by decide) (by decide)
      exact ⟨nack, port⟩
    · obtain ⟨-, lost, port⟩ := State.i2cEnd_fields c2.isLt s (k := 4) (by decide) (by decide)
      exact ⟨lost, port⟩
  · obtain ⟨runs, enabled, ten, own⟩ := h
    refine ⟨_, congrArg Host.Outcome.next (if_pos ?_), (State.serFlag_bit s (by omega) (by decide) true).trans (if_pos rfl)⟩
    have named : (if ext then bitsOf (s.serReg (10 + c2.val) 0) 16 10 else bitsOf (s.serReg (10 + c2.val) 0) 16 7) = a.toNat := by
      cases ext <;> exact own
    rw [runs, bit, enabled, bit, ten, named]
    simp
  · refine congrArg Host.Outcome.next (if_neg fun all => h ?_)
    simp only [Bool.and_eq_true, beq_iff_eq] at all
    obtain ⟨⟨⟨runs, enabled⟩, ten⟩, own⟩ := all
    refine ⟨runs, enabled, ten, Eq.trans ?_ own⟩
    cases ext <;> rfl
  · exact ⟨_, regWrite_accepts _ acc, gpioEvWrite_takes oev w may⟩
  · exact (regWrite_accepts _ acc).trans (congrArg Host.Outcome.next (gpioEvWrite_refused k16 oev w partition foreign))

end Sys2Proof.Machine
end

section
/-!
PROOF. What the blocks' work at a reset leaves as it is (spec/17, R391): a function of the state that sees none of the blocks' tables, and no
register from an address up, sees no block stopping or resetting; and what settling a PWM unit leaves of every field but its own.
-/
namespace Sys2Proof.Machine

theorem Blind.startLink {β : Type} {g : State → β} {lo a : Nat} (b : Blind g lo a) (link : ∀ (s : State) (x : Tab Flink), g { s with link := x } = g s)
    (arm : ∀ (s : State) (x : Tab Arm), g { s with arm := x } = g s) (s : State) (l : Nat) (h : a ≤ 0x40200000) : g (s.startLink l) = g s := by
  have low : a ≤ (R.FLK_Ln_STATUS l).addr := by simp only [R.FLK_Ln_STATUS]; omega
  unfold State.startLink State.bringUp
  split
  · rw [b.settleLink link arm _ l h, b.put _ (R.FLK_Ln_STATUS_STATE l) 1 (.inl low), b.setFlink link _ l _ h]
  · rfl

/-- The function `g` is blind outside its window, and looks at no table of a block, at no memory and at no processor of a lane. -/
structure Still {β : Type} (g : State → β) (lo a : Nat) : Prop extends Blind g lo a where
  evm (s : State) (x : Evm) : g { s with evm := x } = g s
  fc (s : State) (x : Tab FcChan) (y : Tab FcGroup) (z : Nat) : g { s with fc := x, fcGroup := y, cmpEvt := z } = g s
  pwm (s : State) (x : Tab PwmUnit) : g { s with pwm := x } = g s
  link (s : State) (x : Tab Flink) (y : Tab Arm) : g { s with link := x, arm := y } = g s
  pos (s : State) (x : Tab Pos) : g { s with pos := x } = g s
  lane (s : State) (x : Tab Lane) (y : Tab Bind) : g { s with lane := x, bind := y } = g s
  laneCpu (s : State) (n : Nat) (x : Cpu) (h : 16 ≤ n) : g (s.setCpuAt n x) = g s
  ports (s : State) (x : Tab FsePort) (y : Ses) (z : Tab EthPort) (w : Tab SerPort) (v : Tab PcieFn) : g { s with fse := x, ses := y, eth := z, ser := w, pcie := v } = g s
  dma (s : State) (x : Tab DmaCh) : g { s with dma := x } = g s
  memory (s : State) (x : List Host.Cell) (y : Tab LineMark) (z : Flash) (w : Nat) : g { s with mem := x, marks := y, flash := z, free := w } = g s

/-- A register is such a function, of its own address. -/
theorem still_rd (r : Reg) : Still (State.rd · r) r.addr (r.addr + 1) where
  toBlind := blind_rd r
  evm _ _ := rfl
  fc _ _ _ _ := rfl
  pwm _ _ := rfl
  link _ _ _ := rfl
  pos _ _ := rfl
  lane _ _ _ := rfl
  laneCpu _ _ _ _ := rfl
  ports _ _ _ _ _ _ := rfl
  dma _ _ := rfl
  memory _ _ _ _ _ := rfl
/-- So is a core. -/
theorem still_core {c : Nat} (hc : c < 16) : Still (State.cpuAt · c) 0 0 where
  toBlind := blind_field (fun _ _ _ => rfl) (fun _ _ _ => rfl) (fun _ _ => rfl)
  evm _ _ := rfl
  fc _ _ _ _ := rfl
  pwm _ _ := rfl
  link _ _ _ := rfl
  pos _ _ := rfl
  lane _ _ _ := rfl
  laneCpu s n x h := (State.cpuAt_setCpuAt s n c x).trans (if_neg (by omega))
  ports _ _ _ _ _ _ := rfl
  dma _ _ := rfl
  memory _ _ _ _ _ := rfl
/-- And what lies in none of those tables: the time, the leases, and who owns what. -/
theorem still_leases : Still (fun s => (s.now, s.leases, s.own)) 0 0 where
  toBlind := blind_field (fun _ _ _ => rfl) (fun _ _ _ => rfl) (fun _ _ => rfl)
  evm _ _ := rfl
  fc _ _ _ _ := rfl
  pwm _ _ := rfl
  link _ _ _ := rfl
  pos _ _ := rfl
  lane _ _ _ := rfl
  laneCpu _ _ _ _ := rfl
  ports _ _ _ _ _ _ := rfl
  dma _ _ := rfl
  memory _ _ _ _ _ := rfl

/-- The channels of `p` stop; the rest of `partBlocks` follows. -/
def State.partDma (s : State) (p : Nat) : State :=
  s.each ((List.range 32).filter fun n => s.dmaOwner n == p) fun n t => (t.setDma n {}).put (R.DMA_Cn_STATUS_STATE n) 0

namespace Still
variable {β : Type} {g : State → β} {lo a : Nat} (k : Still g lo a)
include k

/-! ### Lanes and their destinations (R118, R520) -/

theorem units (s : State) (n : Nat) (c : Cause) (h : a ≤ 0x40180000) : g (s.settleUnit n c) = g s := k.settleUnit k.pwm s n c h
theorem links (s : State) (l : Nat) (h : a ≤ 0x40200000) : g (s.settleLink l) = g s :=
  k.toBlind.settleLink (fun s x => k.link s x s.arm) (fun s x => k.link s s.link x) s l h
theorem settleDests (s : State) (b : Nat) (h : a ≤ 0x40180000) : g (s.settleDests b) = g s := by
  refine State.each_keeps _ _ g (fun j t => ?_) s
  split
  · exact k.units t _ none h
  · exact State.each_keeps _ _ g (fun l u => k.links u l (by omega)) t
  · exact k.links t _ (by omega)
  · rfl
theorem forceBinding (s : State) (b : Nat) (h : a ≤ 0x40140000) : g (s.forceBinding b) = g s :=
  (k.settleDests _ b (by omega)).trans (k.put s _ 1 (.inl (Nat.le_trans h (Nat.le_add_right_of_le (by decide)))))
theorem setLane (s : State) (n : Nat) (x : Lane) (h : a ≤ 0x40140000) : g (s.setLane n x) = g s :=
  (k.putB _ (R.LNC_Ln_STATUS_RUNNING n) _ (.inl (Nat.le_trans h (Nat.le_add_right_of_le (by decide))))).trans (k.lane s _ s.bind)
theorem setBnd (s : State) (b : Nat) (x : Bind) : g (s.setBnd b x) = g s := k.lane s s.lane _
theorem bindStatus (s : State) (b : Nat) (h : a ≤ 0x40140000) : g (s.bindStatus b) = g s := by
  have status : ∀ (t : State) (n : Nat) (v : Bool), g (t.putB (R.LNC_Ln_STATUS_PENDING n) v) = g t := fun t n v =>
    k.putB t _ v (.inl (Nat.le_trans h (Nat.le_add_right_of_le (by decide))))
  have run : ∀ v, g (s.putB (R.LNC_Bb_STATUS_RUNNING b) v) = g s := fun v => k.putB s _ v (.inl (Nat.le_trans h (Nat.le_add_right_of_le (by decide))))
  unfold State.bindStatus
  dsimp only
  split_ifs
  · rw [status, status, run]
  · rw [status, run]
theorem stopLane (s : State) (n : Nat) (h : a ≤ 0x40140000) : g (s.stopLane n) = g s := by
  unfold State.stopLane
  split
  · exact (k.bindStatus _ _ h).trans (k.setLane s n _ h)
  · rfl
theorem laneClear (s : State) (n : Nat) (h : a ≤ 0x40140000) : g (s.laneClear n) = g s := by
  have low : ∀ x : Nat, 0x40140000 ≤ x → a ≤ x ∨ x < lo := fun x hx => .inl (by omega)
  unfold State.laneClear
  dsimp only
  rw [k.wr _ (R.LNC_Ln_ACTCNT n) _ (low _ (by simp only [R.LNC_Ln_ACTCNT]; omega)), k.wr _ (R.LNC_Ln_STATUS n) _ (low _ (by simp only [R.LNC_Ln_STATUS]; omega)),
    k.laneCpu _ (16 + n) _ (by omega), k.setLane _ n _ h, k.stopLane s n h]
theorem partLanes (s : State) (p : Nat) (h : a ≤ 0x40140000) : g (s.partLanes p) = g s := by
  have low : ∀ x : Nat, 0x40140000 ≤ x → a ≤ x ∨ x < lo := fun x hx => .inl (by omega)
  refine (State.each_keeps _ _ g (fun n t => ?_) _).trans (State.each_keeps _ _ g (fun b t => ?_) s)
  · rw [k.wr _ (R.LNC_Ln_FAULT_PC n) _ (low _ (by simp only [R.LNC_Ln_FAULT_PC]; omega)), k.wr _ (R.LNC_Ln_FAULT n) _ (low _ (by simp only [R.LNC_Ln_FAULT]; omega)),
      k.laneClear t n h]
  · rw [k.bindStatus _ b h, k.forceBinding _ b h, k.setBnd]

/-! ### Converters, PWM units and links -/

theorem channel (s : State) (n : Nat) (x : FcChan) (h : a ≤ 0x40100000) : g (s.setFch n x) = g s := k.setFch (fun s x => k.fc s x s.fcGroup s.cmpEvt) s n x h
theorem pwmStop (s : State) (n : Nat) (h : a ≤ 0x40180000) : g (s.pwmStop n) = g s := by
  have low : ∀ x : Nat, 0x40180000 ≤ x → a ≤ x ∨ x < lo := fun x hx => .inl (by omega)
  have compare : ∀ t : State, g (t.flushCompare n) = g t := fun t => by
    unfold State.flushCompare
    split
    · exact (k.pwm _ _).trans (k.wr t (R.PWM_Un_CMP_ACTIVE n) _ (low _ (by simp only [R.PWM_Un_CMP_ACTIVE]; omega)))
    · rfl
  unfold State.pwmStop
  dsimp only
  rw [k.units _ n none h, compare, State.setUnit, k.pwm, k.put _ (R.PWM_Un_STATUS_RUNNING n) 0 (low _ (by simp only [R.PWM_Un_STATUS_RUNNING, R.PWM_Un_STATUS]; omega))]
theorem flink (s : State) (l : Nat) (x : Flink) (h : a ≤ 0x40200000) : g (s.setFlink l x) = g s := k.setFlink (fun s x => k.link s x s.arm) s l x h
theorem leaveTo (s : State) (l st : Nat) (h : a ≤ 0x40200000) : g (s.leaveTo l st) = g s := by
  have low : ∀ x : Nat, 0x40200000 ≤ x → a ≤ x ∨ x < lo := fun x hx => .inl (by omega)
  unfold State.leaveTo
  dsimp only
  rw [k.links _ l h, k.put _ (R.FLK_Ln_STATUS_STATE l) st (low _ (by simp only [R.FLK_Ln_STATUS_STATE, R.FLK_Ln_STATUS]; omega)),
    k.put _ (R.FLK_Ln_STATUS_SHORT l) 0 (low _ (by simp only [R.FLK_Ln_STATUS_SHORT, R.FLK_Ln_STATUS]; omega)), k.flink _ l _ h,
    k.toBlind.safeOrder (fun s x => k.link s x s.arm) s l h]
theorem startLink (s : State) (l : Nat) (h : a ≤ 0x40200000) : g (s.startLink l) = g s :=
  k.toBlind.startLink (fun s x => k.link s x s.arm) (fun s x => k.link s s.link x) s l h

/-! ### Blocks that hold work (R322, R357, R369, R423, R459) -/

omit k in
/-- The window lies below the event matrix, or between the network ports and the memory controller, as the registers of the DMA channels do. -/
def Apart (lo a : Nat) : Prop := a ≤ 0x40280000 ∨ 0x40400000 ≤ lo ∧ a ≤ 0x40460000
omit k in
theorem Apart.out {lo a x : Nat} (h : Apart lo a) (hx : 0x40280000 ≤ x) (hy : x < 0x40400000 ∨ 0x40460000 ≤ x) : a ≤ x ∨ x < lo := by
  rcases h with h | ⟨hlo, ha⟩
  · exact .inl (Nat.le_trans h hx)
  · omega
theorem marks (s : State) (x : Tab LineMark) : g { s with marks := x } = g s := k.memory s s.mem x s.flash s.free
theorem flash (s : State) (x : Flash) : g { s with flash := x } = g s := k.memory s s.mem s.marks x s.free
theorem setFlashOp (s : State) (b : Nat) (x : FlashOp) : g (s.setFlashOp b x) = g s := k.flash s _
theorem poke (s : State) (d : Nat) (bs : List Byte) : g (s.poke d bs) = g s := k.memory s _ s.marks s.flash s.free
theorem blank (s : State) (j : Nat) : g (s.blank j) = g s := k.memory s _ s.marks _ s.free
theorem eraseStart (s : State) (o j : Nat) : g (s.eraseStart o j) = g s := by
  have put : ∀ (t : State) (i ty p b v : Nat), g (t.putJournal i ty p b v) = g t := fun t i ty p b v => (k.flash _ _).trans (k.poke t _ _)
  have switched : ∀ (t : State) (i : Nat), g (t.journalSwitch i) = g t := fun t i =>
    (put _ i 4 0xFF 0xFFFF _).trans ((k.flash _ _).trans ((k.poke _ _ _).trans (k.blank t _)))
  have written : ∀ (t : State) (ty p b v : Nat), g (t.journal ty p b v) = g t := fun t ty p b v => by
    refine (put _ _ ty p b v).trans ?_
    split
    · exact switched t 0
    · split
      · exact switched t _
      · rfl
  unfold State.eraseStart State.scramble
  dsimp only
  exact (k.memory _ _ _ _ _).trans ((k.blank _ j).trans ((k.flash _ _).trans (written s 1 _ j _)))
theorem persistTry (s : State) : g s.persistTry = g s := by
  unfold State.persistTry
  split
  · rfl
  · dsimp only
    split
    · rfl
    · exact (k.setFlashOp _ _ _).trans ((k.blank _ _).trans (State.each_keeps _ _ g (fun b t => k.eraseStart t platform b) s))
section
variable (h : Apart lo a)
include h
omit k in
theorem Apart.matrix : a ≤ 0x40280000 ∨ 0x40284000 ≤ lo := h.imp id fun h => Nat.le_trans (by decide) h.1
omit k in
theorem Apart.memory : a ≤ 0x40460000 := h.elim (fun h => Nat.le_trans h (by decide)) (·.2)
theorem raises (s : State) {p : Nat} (hp : p < 1024) (j : Nat) : g (s.raise p j) = g s := k.raise_of s j hp h.matrix
theorem memEgress (s : State) (w : Who) (d n : Nat) : g (s.memEgress w d n).2 = g s := by
  have line : ∀ (t : State) (l : Nat), g (t.lineEgress w l).2 = g t := fun t l => by
    have read : g (t.lineRead w l).2 = g t :=
      k.toBlind.lineRead k.marks (fun s _ _ => k.flash s _) h.matrix (.inl h.memory) t w l
    unfold State.lineEgress
    dsimp only
    split
    · exact read
    · split
      · split
        · exact read
        · exact (k.toBlind.memError h.matrix (.inl h.memory) _ w _ _ _).trans read
      · exact read
  exact State.linesBy_keeps g _ (fun t l => line t l) (linesOf d n) s
theorem pulseEnd (s : State) (b : Nat) : g (s.pulseEnd b) = g s := by
  unfold State.pulseEnd
  split
  · next program =>
    unfold State.flashUnit
    dsimp only
    split
    · rfl
    · rw [if_pos program.2]
      have read : ∀ w d, g (s.memEgress w d 32).2 = g s := fun w d => k.memEgress h s w d 32
      split
      · next e => exact (k.setFlashOp _ b _).trans (e ▸ read _ _ :)
      · next e =>
        split
        · exact (k.setFlashOp _ b _).trans (e ▸ read _ _ :)
        · exact (k.setFlashOp _ b _).trans ((k.poke _ _ _).trans (e ▸ read _ _ :))
  · rfl
theorem flashPartReset (s : State) (p : Nat) : g (s.flashPartReset p) = g s :=
  (k.persistTry _).trans ((k.flash _ _).trans (State.each_keeps _ _ g (fun b t => (k.setFlashOp _ b {}).trans (k.pulseEnd h t b)) s))
theorem ethRingReset (s : State) {p : Nat} (hp : p < 2) (r : Nat) : g (s.ethRingReset p r) = g s :=
  (k.putBit _ (R.ETH_Pp_RXSUM_RING p) r false (h.out (by simp only [R.ETH_Pp_RXSUM_RING, R.ETH_Pp_RXSUM]; omega)
    (.inl (by simp only [R.ETH_Pp_RXSUM_RING, R.ETH_Pp_RXSUM]; omega)))).trans (k.ports s s.fse s.ses _ s.ser s.pcie)
theorem port (s : State) {n : Nat} (hn : n < 4) (x : FsePort) : g (s.setPort n x) = g s :=
  (k.putB _ (R.FSE_Pn_LOOP_INJECTING n) _ (h.out (by simp only [R.FSE_Pn_LOOP_INJECTING, R.FSE_Pn_LOOP]; omega) (.inl (by simp only [R.FSE_Pn_LOOP_INJECTING, R.FSE_Pn_LOOP]; omega)))).trans
    ((k.putB _ (R.FSE_Pn_STATUS_TX_ACTIVE n) _ (h.out (by simp only [R.FSE_Pn_STATUS_TX_ACTIVE, R.FSE_Pn_STATUS]; omega)
      (.inl (by simp only [R.FSE_Pn_STATUS_TX_ACTIVE, R.FSE_Pn_STATUS]; omega)))).trans (k.ports s _ s.ses s.eth s.ser s.pcie))
theorem setChan (s : State) {c : Nat} (hc : c < 256) (x : Chan) : g (s.setChan c x) = g s := by
  have status : ∀ y : Nat, y = 0x40281004 + 0x20 * c → a ≤ y ∨ y < lo := fun y e => h.out (by omega) (.inl (by omega))
  exact (k.putB _ (R.EVM_Cc_STATUS_ARMED c) _ (status _ rfl)).trans ((k.putB _ (R.EVM_Cc_STATUS_PENDING c) _ (status _ rfl)).trans (k.evm s _))

theorem blocks (s : State) (p : Nat) : g (s.partBlocks p) = g (s.partDma p) := by
  unfold State.partBlocks
  extract_lets s1 s2 s3 s4 ses s5 s6
  have e6 : g s6 = g s5 := State.each_keeps_mem g (fun c hc t => k.setChan h t (List.mem_range.1 (List.mem_filter.1 hc).1) {}) s5
  have e5 : g s5 = g s4 := k.ports s4 s4.fse _ s4.eth s4.ser s4.pcie
  have e4 : g s4 = g s3 := State.each_keeps_mem g (fun n hn t => k.port h t (List.mem_range.1 (List.mem_filter.1 hn).1) {}) s3
  have e3 : g s3 = g s2 := State.each_keeps_mem g (fun n hn t => k.ethRingReset h t (List.mem_range.1 hn) p) s2
  exact (k.ports s6 s6.fse s6.ses s6.eth _ s6.pcie).trans (e6.trans (e5.trans (e4.trans (e3.trans (k.flashPartReset h s1 p)))))
end

/-! ### Clocks that start (R31, R471) -/

section
omit k
/-- The window holds no register of the converters, of position feedback or of the lanes. -/
def OffBlocks (lo a : Nat) : Prop := a ≤ 0x40100000 ∨ (0x40180100 ≤ lo ∧ a ≤ 0x40240000) ∨ (0x40400000 ≤ lo ∧ a ≤ 0x40460000)
theorem OffBlocks.out {lo a x : Nat} (h : OffBlocks lo a) (hx : 0x40100000 ≤ x) (hy : x < 0x40180100 ∨ 0x40240000 ≤ x) (hz : x < 0x40400000) : a ≤ x ∨ x < lo := by
  unfold OffBlocks at h
  omega
/-- The window holds no register of the clock and power control, of the converters, of position feedback or of the lanes. -/
def OffClocks (lo a : Nat) : Prop := a ≤ 0x40020000 ∨ (0x40180100 ≤ lo ∧ a ≤ 0x40240000) ∨ (0x40400000 ≤ lo ∧ a ≤ 0x40460000)
theorem OffClocks.out {lo a x : Nat} (h : OffClocks lo a) (hx : 0x40020000 ≤ x) (hy : x < 0x40180100 ∨ 0x40240000 ≤ x) (hz : x < 0x40400000) : a ≤ x ∨ x < lo := by
  unfold OffClocks at h
  omega
theorem OffClocks.blocks {lo a : Nat} (h : OffClocks lo a) : OffBlocks lo a := h.imp (fun h => by omega) id
end
section
variable (w : OffBlocks lo a) (h : Apart lo a) (unit : ∀ (s : State) (n : Nat), n < 32 → g (s.settleUnit n) = g s)
include w h
theorem posStart (s : State) {n : Nat} (hn : n < 16) : g (s.posStart n) = g s := by
  have off : ∀ x : Nat, x = 0x40241030 + 0x100 * n → a ≤ x ∨ x < lo := fun x e => w.out (by omega) (.inr (by omega)) (by omega)
  have change : ∀ (t : State) (u : Bool) (y : Pos), g (t.posChange n u y) = g t := fun t u y => by
    unfold State.posChange
    dsimp only
    refine (State.when_keeps _ g _ (k.raises h _ (by omega) 0)).trans ((State.when_keeps _ g _ (k.raises h _ (by omega) 0)).trans ?_)
    exact (k.put _ (R.POS_Pn_STATUS_IDX n) _ (off _ rfl)).trans (k.pos t _)
  unfold State.posStart
  dsimp only
  split
  · rfl
  · split
    · split
      · exact change _ _ _
      · exact (k.raises h _ (by omega) 0).trans ((k.put _ (R.POS_Pn_STATUS_HALL_INVALID n) 1 (off _ rfl)).trans (change _ _ _))
    · exact change _ _ _
    · exact change _ _ _
    · rfl
include unit
theorem domStart (s : State) (d : Nat) : g (s.domStart d) = g s := by
  have lane : ∀ (n : Nat) (x : Lane), n < 16 → g (s.setLane n x) = g s := fun n x hn => by
    have out := w.out (x := 0x40140000 + 0x1000 * n) (by omega) (.inl (by omega)) (by omega)
    exact (k.putB _ (R.LNC_Ln_STATUS_RUNNING n) _ out).trans (k.lane s _ s.bind)
  unfold State.domStart
  split_ifs with lanes converters positions pwm
  · unfold State.laneGo
    split
    · split
      · exact lane d _ lanes
      · rfl
    · rfl
  · have out := w.out (x := 0x40100000 + 0x10 * (d - 25)) (by omega) (.inl (by omega)) (by omega)
    have resume : g (s.calResume (d - 25)) = g s := by
      unfold State.calResume
      dsimp only
      split
      · exact (k.fc _ _ _ _).trans (k.putB s (R.FCV_Gg_STATUS_STARTING (d - 25)) _ out)
      · exact k.putB s (R.FCV_Gg_STATUS_STARTING (d - 25)) _ out
    refine (State.each_keeps_mem g (fun i hi t => ?_) _).trans resume
    have small := List.mem_range.1 (List.mem_filter.1 hi).1
    exact (k.raises h _ (by omega) 0).trans (k.fc t t.fc t.fcGroup _)
  · exact State.each_keeps_mem g (fun n hn t => k.posStart w h t (List.mem_range.1 hn)) s
  · have out := w.out (x := 0x40180000 + 0x10 * (d - 41)) (by omega) (.inl (by omega)) (by omega)
    refine (State.each_keeps_mem g (fun i hi t => ?_) _).trans
      ((k.put _ (R.PWM_Gg_STATUS_SUBSTEP_OK (d - 41)) 0 out).trans (k.put s (R.PWM_Gg_STATUS_ALIGNED (d - 41)) 0 out))
    have small := List.mem_range.1 hi
    exact (unit _ _ (by omega)).trans (k.pwm t _)
  · rfl
end
section
variable (w : OffClocks lo a) (h : Apart lo a) (unit : ∀ (s : State) (n : Nat), n < 32 → g (s.settleUnit n) = g s)
  (clk : ∀ (s : State) (x : Clk), g { s with clk := x } = g s)
include w h unit clk
theorem request (s : State) {d : Nat} (hd : d < 104) : g (s.request d) = g s := by
  have status : ∀ x : Nat, x = 0x40021004 + 8 * d → a ≤ x ∨ x < lo := fun x e => w.out (by omega) (.inl (by omega)) (by omega)
  have start : ∀ t : State, g (t.openGate d) = g t := fun t => by
    unfold State.openGate
    split
    · rfl
    · exact (k.domStart w.blocks h unit _ d).trans ((clk _ _).trans ((k.inc _ (R.CLK_Dd_STATUS_STARTS d) (status _ rfl)).trans
        ((k.put _ (R.CLK_Dd_STATUS_RUNNING d) 1 (status _ rfl)).trans (clk t _))))
  unfold State.request
  split
  · rfl
  · extract_lets u
    have woken : g u = g s := by
      simp only [u]
      split
      · exact k.put s R.PWR_STATUS_STATE 0 (w.out (x := 0x40030004) (by decide) (.inl (by decide)) (by decide))
      · rfl
    split
    · exact (start _).trans woken
    · split
      · split
        · exact (clk u _).trans woken
        · exact woken
      · exact woken
theorem settleHeld (s : State) : g s.settleHeld = g s := by
  refine State.each_keeps_mem g (fun d hd t => ?_) s
  have small := List.mem_range.1 hd
  have held : g (if t.domHeld d == t.isHeld d then t else t.putB (R.CLK_Dd_STATUS_HELD d) (t.isHeld d)) = g t := by
    split
    · rfl
    · exact k.putB t (R.CLK_Dd_STATUS_HELD d) _ (w.out (x := 0x40021004 + 8 * d) (by omega) (.inl (by omega)) (by omega))
  extract_lets b u
  split
  · exact (k.request w h unit clk _ small).trans held
  · exact held
end
end Still


/-! ### Fields beside those that a unit's settling writes (R145 to R149) -/

/-- Field `q` shares no bit with field `f`. -/
def RF.Off (f q : RF) : Prop := q.reg.addr ≠ f.reg.addr ∨ q.reg = f.reg ∧ (f.lsb + f.wid ≤ q.lsb ∨ q.lsb + q.wid ≤ f.lsb)
theorem State.get_put_off (s : State) {f q : RF} (h : f.Off q) (x : Nat) : (s.put f x).get q = s.get q := by
  rcases h with h | ⟨e, h⟩
  · exact State.get_put_ne s f q x h
  · exact State.get_put_apart s f q x e h
/-- The field is none that `settleUnit` writes: neither a latched source other than TRIP_EVT nor a level bit of STATUS. -/
structure RF.Unsettled (n : Nat) (q : RF) : Prop where
  latch : ∀ k ∈ [0, 2, 3], RF.Off ⟨R.PWM_Un_LATCH n, k, 1⟩ q
  status : ∀ k ∈ [7, 8, 9, 10, 11, 12, 13, 15], RF.Off ⟨R.PWM_Un_STATUS n, k, 1⟩ q
theorem RF.unsettled_of_ne {n : Nat} {q : RF} (latch : q.reg.addr ≠ 0x40181024 + 0x100 * n) (status : q.reg.addr ≠ 0x40181028 + 0x100 * n) : RF.Unsettled n q :=
  ⟨fun _ _ => .inl latch, fun _ _ => .inl status⟩
/-- RUNNING of any unit is such a field. -/
theorem running_unsettled (u n : Nat) : RF.Unsettled n (R.PWM_Un_STATUS_RUNNING u) where
  latch _ _ := .inl (show 0x40181028 + 0x100 * u ≠ 0x40181024 + 0x100 * n by omega)
  status k hk := by
    by_cases e : u = n
    · subst e
      refine .inr ⟨rfl, ?_⟩
      simp only [List.mem_cons, List.not_mem_nil, or_false] at hk
      simp only [R.PWM_Un_STATUS_RUNNING]
      omega
    · exact .inl (show 0x40181028 + 0x100 * u ≠ 0x40181028 + 0x100 * n by omega)
theorem State.unitLatch_get (s : State) {n : Nat} {q : RF} (off : q.Unsettled n) : (s.unitLatch n).get q = s.get q := by
  have one : ∀ (t : State) (b : Bool) (k : Nat), k ∈ [0, 2, 3] → (t.when b fun s => s.put ⟨R.PWM_Un_LATCH n, k, 1⟩ 1).get q = t.get q := fun t b k hk =>
    t.when_keeps (State.get · q) b (t.get_put_off (off.latch k hk) 1)
  exact (one _ _ 3 (by decide)).trans ((one _ _ 2 (by decide)).trans (one _ _ 0 (by decide)))
theorem State.unitStatus_get (s : State) {n : Nat} {q : RF} (off : q.Unsettled n) : (s.unitStatus n).get q = s.get q := by
  have one : ∀ (t : State) (b : Bool) (k : Nat), k ∈ [7, 8, 9, 10, 11, 12, 13, 15] → (t.putB ⟨R.PWM_Un_STATUS n, k, 1⟩ b).get q = t.get q := fun t b k hk =>
    by cases b <;> exact t.get_put_off (off.status k hk) _
  exact (one _ _ 13 (by decide)).trans ((one _ _ 7 (by decide)).trans ((one _ _ 8 (by decide)).trans ((one _ _ 9 (by decide)).trans ((one _ _ 10 (by decide)).trans
    ((one _ _ 11 (by decide)).trans ((one _ _ 12 (by decide)).trans (one _ _ 15 (by decide))))))))
theorem State.settleUnit_get (s : State) {n : Nat} (hn : n < 32) {q : RF} (off : q.Unsettled n)
    (matrix : q.reg.addr < 0x40280000 ∨ 0x40284000 ≤ q.reg.addr) : (s.settleUnit n).get q = s.get q := by
  unfold State.settleUnit
  extract_lets s1 u fA fB real u' t
  have table : (s1.setUnit n u').get q = s1.get q := rfl
  have set : t.get q = s.get q := (State.unitStatus_get _ off).trans (table.trans (s.unitLatch_get off))
  split
  · have raised : (t.raise (362 + n)).get q = t.get q := congrArg (fieldGet · q.lsb q.wid) (State.raise_rd (by omega) matrix 0)
    exact raised.trans set
  · exact set
end Sys2Proof.Machine
end

section
/-!
PROOF. Hardware locks, command by command (spec/17, R396 to R401).
-/
namespace Sys2Proof.Machine

section
variable (s : State) (k : Nat)

/-! ### Leases -/

theorem State.leaseLeft_of_lease {s t : State} {k : Nat} (now : t.now = s.now) (h : t.lease k = s.lease k) : t.leaseLeft k = s.leaseLeft k := by
  simp only [State.leaseLeft, h, State.since, now]
/-- A lease starts with its full length (R398), and touches nothing of the lock but its unit. -/
theorem State.startLease_fields (got : Time) : (s.startLease k got).leaseLeft k = s.get (R.PART_LOCKk_LEASE_LEASE k) ∧
    (s.startLease k got).on (R.PART_LOCKk_STAT_HELD k) = s.on (R.PART_LOCKk_STAT_HELD k) ∧
    (s.startLease k got).get (R.PART_LOCKk_STAT_OWNER k) = s.get (R.PART_LOCKk_STAT_OWNER k) ∧
    (s.startLease k got).get (R.PART_LOCKk_STAT_CAUSE k) = s.get (R.PART_LOCKk_STAT_CAUSE k) := by
  let e : Lease := ⟨s.now, s.get (R.PART_LOCKk_LEASE_LEASE k), s.on (R.PART_LOCKk_LEASE_UNIT k), got, none⟩
  let t : State := { s with leases := s.leases.set k e }
  have lease : (s.startLease k got).lease k = some e := (State.lease_set s k k e).trans (if_pos rfl)
  refine ⟨?_, State.on_put_beside t (R.PART_LOCKk_STAT_UNIT k) _ _ ⟨rfl⟩ ⟨rfl⟩, State.get_put_beside t (R.PART_LOCKk_STAT_UNIT k) _ _ ⟨rfl⟩ ⟨rfl⟩,
    State.get_put_beside t (R.PART_LOCKk_STAT_UNIT k) _ _ ⟨rfl⟩ ⟨rfl⟩⟩
  have fresh : (s.startLease k got).since s.now = 0 := by simp [State.since, State.startLease, State.putB, State.put_eq]
  simp only [State.leaseLeft, lease, e, fresh, Nat.zero_div, Nat.sub_zero]

/-- The lease of a held lock has run out by `margin` ticks, or it has none. -/
def State.RunOut (s : State) (k margin : Nat) : Prop := ∀ e, s.lease k = some e → e.len * e.unit + margin ≤ s.since e.start
theorem State.lockExpire_runs {margin : Nat} (held : s.on (R.PART_LOCKk_STAT_HELD k) = true) (out : s.RunOut k margin) : s.lockExpire k margin = s.breakLock k 4 := by
  unfold State.lockExpire
  rw [held]
  cases e : s.lease k with
  | none => rfl
  | some l => exact congrArg (fun b => s.when (true && b) fun s => s.breakLock k 4) (decide_eq_true (out l e))
theorem State.lockExpire_stays {margin : Nat} (h : s.on (R.PART_LOCKk_STAT_HELD k) = true → ∃ e, s.lease k = some e ∧ s.since e.start < e.len * e.unit + margin) :
    s.lockExpire k margin = s := by
  unfold State.lockExpire
  cases held : s.on (R.PART_LOCKk_STAT_HELD k) with
  | false => rfl
  | true =>
    obtain ⟨e, lease, early⟩ := h held
    rw [lease]
    exact congrArg (fun b => s.when (true && b) fun s => s.breakLock k 4) (decide_eq_false (Nat.not_le.2 early))
theorem Lease.unit_pos (e : Lease) : 0 < e.unit := by
  unfold Lease.unit
  split <;> decide
/-- No unit of a lease is left when its length has run out. -/
theorem State.leaseLeft_zero_iff {s : State} {k : Nat} : s.leaseLeft k = 0 ↔ s.RunOut k 0 := by
  unfold State.leaseLeft State.RunOut
  cases s.lease k with
  | none => simp
  | some e =>
    have pos := e.unit_pos
    simp only [Option.some.injEq, forall_eq', Nat.sub_eq_zero_iff_le, Nat.add_zero]
    exact Nat.le_div_iff_mul_le pos

/-! ### Breaking a broken lock -/

variable {s k}
theorem State.get_of_on {q : RF} (one : q.wid = 1) (h : s.on q = true) : s.get q = 1 := by
  have small := fieldGet_lt (s.rd q.reg) q.lsb q.wid
  rw [one] at small
  have some : s.get q ≠ 0 := bne_iff_ne.1 h
  have small' : s.get q < 2 ^ 1 := one ▸ small
  omega
/-- A lock that has just broken with a cause does not break again for one that is no lower (R401). -/
theorem State.breakLock_again {c d : Nat} (hk : k < 256) (held : s.on (R.PART_LOCKk_STAT_HELD k) = true) (small : c < 16) (order : c ≤ d) :
    (s.breakLock k c).breakLock k d = s.breakLock k c := by
  obtain ⟨⟨free, -⟩, -, cause⟩ := s.breakLock_breaks held small hk
  simp only [State.breakLock.eq_1 (s.breakLock k c), free, Bool.false_eq_true, if_false, cause, decide_eq_false (Nat.not_lt.2 order), Bool.and_false]

/-! ### Reading ACQ (R396) -/

theorem State.lockAcquire_free (q : Requester) (free : s.on (R.PART_LOCKk_STAT_HELD k) = false) :
    ∃ t, s.lockAcquire q k = (BitVec.ofNat 32 (2 ^ 31 + s.get (R.PART_LOCKk_STAT_BROKEN k) * 2 ^ 30 + s.lockCode q * 2 ^ 24), t) ∧
      t.on (R.PART_LOCKk_STAT_HELD k) = true ∧ t.get (R.PART_LOCKk_STAT_OWNER k) = s.lockCode q % 64 ∧
      t.leaseLeft k = s.get (R.PART_LOCKk_LEASE_LEASE k) ∧ t.get (R.PART_LOCKk_STAT_CAUSE k) = s.get (R.PART_LOCKk_STAT_CAUSE k) := by
  let t := (s.put (R.PART_LOCKk_STAT_HELD k) 1).put (R.PART_LOCKk_STAT_OWNER k) (s.lockCode q)
  have stays : s.lockExpire k 0 = s := s.lockExpire_stays k (fun held => absurd (free.symm.trans held) Bool.false_ne_true)
  obtain ⟨left, held, owner, cause⟩ := t.startLease_fields k s.now
  refine ⟨t.startLease k s.now, ?_, held.trans ?_, owner.trans ?_, left.trans ?_, cause.trans ?_⟩
  · simp only [State.lockAcquire, stays, free, Bool.not_false, if_true]
    rfl
  · simp (disch := exact ⟨rfl⟩) only [t, State.on_put_beside, State.on_put_self]
    rfl
  · exact State.get_put_self _ (R.PART_LOCKk_STAT_OWNER k) _ ⟨rfl⟩
  · have off : (R.PART_LOCKk_LEASE k).addr ≠ (R.PART_LOCKk_STAT k).addr := by simp only [R.PART_LOCKk_LEASE, R.PART_LOCKk_STAT]; omega
    exact (State.get_put_ne _ (R.PART_LOCKk_STAT_OWNER k) (R.PART_LOCKk_LEASE_LEASE k) _ off).trans
      (State.get_put_ne s (R.PART_LOCKk_STAT_HELD k) (R.PART_LOCKk_LEASE_LEASE k) _ off)
  · simp (disch := exact ⟨rfl⟩) only [t, State.get_put_beside]
theorem State.lockAcquire_expired (q : Requester) (hk : k < 256) (held : s.on (R.PART_LOCKk_STAT_HELD k) = true) (out : s.leaseLeft k = 0) :
    ∃ t, s.lockAcquire q k = (BitVec.ofNat 32 (2 ^ 31 + 2 ^ 30 + s.lockCode q * 2 ^ 24), t) ∧
      t.on (R.PART_LOCKk_STAT_HELD k) = true ∧ t.get (R.PART_LOCKk_STAT_OWNER k) = s.lockCode q % 64 ∧
      t.leaseLeft k = s.get (R.PART_LOCKk_LEASE_LEASE k) ∧ t.get (R.PART_LOCKk_STAT_CAUSE k) = 4 := by
  let u := s.breakLock k 4
  obtain ⟨⟨free, -⟩, broken, cause⟩ := s.breakLock_breaks held (cause := 4) (by decide) hk
  obtain ⟨t, step, here, owner, left, same⟩ := State.lockAcquire_free (s := u) q free
  have outside : ∀ r : Reg, r.addr ≠ 0x40011008 + 0x10 * k → r.addr < 0x40280000 → u.rd r = s.rd r := fun r ne low => s.breakLock_rd ne (.inl low) 4
  have code : u.lockCode q = s.lockCode q := by
    cases q with
    | core c =>
      have pair : u.lockstep (c.val / 2) = s.lockstep (c.val / 2) :=
        congrArg (fun v => c.val / 2 == 4 || fieldGet v (R.SUP_PAIRk_STATUS_LOCKSTEP (c.val / 2)).lsb (R.SUP_PAIRk_STATUS_LOCKSTEP (c.val / 2)).wid != 0)
          (outside (R.SUP_PAIRk_STATUS (c.val / 2)) (by simp only [R.SUP_PAIRk_STATUS]; omega) (by simp only [R.SUP_PAIRk_STATUS]; omega))
      simp only [State.lockCode, pair]
    | _ => rfl
  have expires : s.lockAcquire q k = u.lockAcquire q k := by
    have once : u.lockExpire k 0 = u := u.lockExpire_stays k (fun held => absurd (free.symm.trans held) Bool.false_ne_true)
    have first : s.lockExpire k 0 = u := s.lockExpire_runs k held (State.leaseLeft_zero_iff.1 out)
    simp only [State.lockAcquire, once, first]
  refine ⟨t, ?_, here, owner.trans (congrArg (· % 64) code), left.trans ?_, same.trans cause⟩
  · rw [expires, step, code, State.get_of_on rfl broken, Nat.one_mul]
  · exact congrArg (fieldGet · 0 16) (outside (R.PART_LOCKk_LEASE k) (by simp only [R.PART_LOCKk_LEASE]; omega) (by simp only [R.PART_LOCKk_LEASE]; omega))
/-- A lease that still runs. -/
theorem State.lease_of_left (h : s.leaseLeft k ≠ 0) : ∃ e, s.lease k = some e ∧ s.since e.start < e.len * e.unit + 0 := by
  by_contra none
  exact h (State.leaseLeft_zero_iff.2 fun e lease => Nat.not_lt.1 fun early => none ⟨e, lease, early⟩)
theorem State.lockAcquire_held (q : Requester) (held : s.on (R.PART_LOCKk_STAT_HELD k) = true) (left : s.leaseLeft k ≠ 0) :
    s.lockAcquire q k = (BitVec.ofNat 32 (if s.get (R.PART_LOCKk_STAT_OWNER k) = s.lockCode q then
        2 ^ 31 + s.get (R.PART_LOCKk_STAT_BROKEN k) * 2 ^ 30 + s.lockCode q * 2 ^ 24 + 2 ^ 23
      else s.get (R.PART_LOCKk_STAT_BROKEN k) * 2 ^ 30 + s.get (R.PART_LOCKk_STAT_OWNER k) * 2 ^ 24), s) := by
  have stays : s.lockExpire k 0 = s := s.lockExpire_stays k (fun _ => State.lease_of_left left)
  simp only [State.lockAcquire, stays, held, Bool.not_true, Bool.false_eq_true, if_false]
  split
  · next mine => rw [mine]
  · rfl

/-! ### Writing CTRL (R397, R399) -/

/-- The requester is the lock's holder. -/
def State.Mine (s : State) (q : Requester) (k : Nat) : Prop :=
  s.on (R.PART_LOCKk_STAT_HELD k) = true ∧ s.get (R.PART_LOCKk_STAT_OWNER k) = s.lockCode q ∧ canLock q = true
/-- The error record of a partition that is not the holder leaves the lock. -/
theorem State.lockErr_rd (s : State) (view k x j : Nat) : ((s.put (R.PART_Pn_LOCKERR_NOT_OWNER view) x).put (R.PART_Pn_LOCKERR_LOCK view) j).rd (R.PART_LOCKk_STAT k) =
    s.rd (R.PART_LOCKk_STAT k) ∨ 8 ≤ view := by
  by_cases h : view < 8
  · have off : (R.PART_LOCKk_STAT k).addr ≠ (R.PART_Pn_LOCKERR view).addr := by simp only [R.PART_LOCKk_STAT, R.PART_Pn_LOCKERR]; omega
    exact .inl ((State.rd_put_ne _ (R.PART_Pn_LOCKERR_LOCK view) _ j off).trans (State.rd_put_ne s (R.PART_Pn_LOCKERR_NOT_OWNER view) _ x off))
  · exact .inr (by omega)
/-- A lock whose lease has run out breaks, whatever is written. -/
theorem lockCtrlWrite_expired {q : Requester} (hk : k < 256) (held : s.on (R.PART_LOCKk_STAT_HELD k) = true) (out : s.RunOut k (ns 10)) (v : Nat) :
    (lockCtrlWrite q k v s).Broken k 4 := by
  let u := s.breakLock k 4
  have broken : u.Broken k 4 := s.breakLock_breaks held (by decide) hk
  have expires : s.lockExpire k (ns 10) = u := s.lockExpire_runs k held out
  have forced : ∀ b, u.when b (fun s => s.breakLock k 6) = u := fun b => by
    cases b
    · rfl
    · exact State.breakLock_again hk held (by decide) (by decide)
  unfold lockCtrlWrite
  simp only [expires, broken.1.1, Bool.false_and, Bool.false_eq_true, if_false, forced]
  split
  · next low => exact broken.of_rd ((u.lockErr_rd _ k 1 k).resolve_right (by omega))
  · exact broken
section
variable {q : Requester} (leased : s.on (R.PART_LOCKk_STAT_HELD k) = true → ∃ e, s.lease k = some e ∧ s.since e.start < e.len * e.unit + ns 10)
include leased
theorem lockCtrlWrite_mine (mine : s.Mine q k) (v : Nat) (owner : bit v 3 = false) : ∃ got, lockCtrlWrite q k v s =
    let s := s.when (bit v 2) fun s => s.put (R.PART_LOCKk_STAT_BROKEN k) 0
    let s := s.when (bit v 1 && s.on (R.PART_LOCKk_STAT_HELD k)) fun s => s.startLease k got
    s.when (bit v 0 && s.on (R.PART_LOCKk_STAT_HELD k)) fun s => s.freeLock k := by
  obtain ⟨held, own, may⟩ := mine
  have stays := s.lockExpire_stays k leased
  simp only [lockCtrlWrite, stays, held, own, may, owner, beq_self_eq_true, Bool.and_self, Bool.false_and, State.when_false, if_true]
  exact ⟨_, rfl⟩
theorem lockCtrlWrite_foreign (foreign : ¬s.Mine q k) (low : s.viewOf q < 8) (v : Nat) : lockCtrlWrite q k v s =
    (s.put (R.PART_Pn_LOCKERR_NOT_OWNER (s.viewOf q)) 1).put (R.PART_Pn_LOCKERR_LOCK (s.viewOf q)) k := by
  have stays := s.lockExpire_stays k leased
  have not_mine : (s.on (R.PART_LOCKk_STAT_HELD k) && s.get (R.PART_LOCKk_STAT_OWNER k) == s.lockCode q && canLock q) = false := by
    rw [Bool.eq_false_iff]
    intro all
    simp only [Bool.and_eq_true, beq_iff_eq] at all
    exact foreign ⟨all.1.1, all.1.2, all.2⟩
  have partition : (s.viewOf q == platform) = false := beq_eq_false_iff_ne.2 (by unfold platform; omega)
  simp only [lockCtrlWrite, stays, not_mine, partition, Bool.and_false, State.when_false, Bool.false_eq_true, if_false, low, if_true]
theorem lockCtrlWrite_force (hk : k < 256) (held : s.on (R.PART_LOCKk_STAT_HELD k) = true) (top : s.viewOf q = platform) : (lockCtrlWrite q k 8 s).Broken k 6 := by
  have stays := s.lockExpire_stays k leased
  have broken := s.breakLock_breaks held (cause := 6) (by decide) hk
  have bits : bit 8 3 = true ∧ bit 8 2 = false ∧ bit 8 1 = false ∧ bit 8 0 = false := ⟨rfl, rfl, rfl, rfl⟩
  have high : ¬platform < 8 := by decide
  simp only [lockCtrlWrite, stays, top, bits.1, bits.2.1, bits.2.2.1, bits.2.2.2, beq_self_eq_true, Bool.and_self, Bool.false_and, State.when_true, State.when_false,
    high, if_false, ite_self]
  exact broken
end
end
end Sys2Proof.Machine
end

section
/-!
PROOF. Partition resets: what the stopping of a partition's blocks leaves (spec/17, R390, R391).
-/
namespace Sys2Proof.Machine

/-- What every element's step keeps holds at the end. -/
theorem State.each_inv {α : Type} {P : State → Prop} {f : α → State → State} (h : ∀ x t, P t → P (f x t)) (l : List α) {s : State} (start : P s) : P (s.each l f) := by
  induction l generalizing s with
  | nil => exact start
  | cons x l ih => exact ih (h x s start)

/-! ### Owners, from the partition registers (R384, R390, R415) -/

section
variable {s t : State}
theorem State.partWith_congr (cfg : ∀ p, p < 8 → t.rd (R.PART_Pn_CFG p) = s.rd (R.PART_Pn_CFG p)) {f g : Nat → Bool} (h : ∀ p, p < 8 → f p = g p) :
    t.partWith f = s.partWith g :=
  find?_congr_mem fun p hp => by
    have hp := List.mem_range.1 hp
    have present : t.on (R.PART_Pn_CFG_PRESENT p) = s.on (R.PART_Pn_CFG_PRESENT p) := congrArg (fun v => fieldGet v 31 1 != 0) (cfg p hp)
    rw [present, h p hp]
theorem State.coreOwner_congr (cfg : ∀ p, p < 8 → t.rd (R.PART_Pn_CFG p) = s.rd (R.PART_Pn_CFG p)) (c : Nat) : t.coreOwner c = s.coreOwner c := by
  exact congrArg (fun o : Option Nat => if c = 8 then platform else o.getD unassigned) (State.partWith_congr cfg fun p hp => congrArg (fun v => bit (fieldGet v (R.PART_Pn_CFG_CORES p).lsb (R.PART_Pn_CFG_CORES p).wid) c) (cfg p hp))
theorem State.fnOwner_congr (cfg : ∀ p, p < 8 → t.rd (R.PART_Pn_CFG p) = s.rd (R.PART_Pn_CFG p)) (f : Nat) : t.fnOwner f = s.fnOwner f := by
  exact congrArg (fun o : Option Nat => o.getD platform) (State.partWith_congr cfg fun p hp => congrArg (fun v => fieldGet v (R.PART_Pn_CFG_PCIE_FN p).lsb (R.PART_Pn_CFG_PCIE_FN p).wid == f) (cfg p hp))
theorem State.lockHolder_congr (cfg : ∀ p, p < 8 → t.rd (R.PART_Pn_CFG p) = s.rd (R.PART_Pn_CFG p)) (p : Nat) : t.lockHolder p = s.lockHolder p :=
  funext fun o => by simp only [State.lockHolder, State.coreOwner_congr cfg, State.fnOwner_congr cfg]
theorem State.dmaOwner_congr (cfg : ∀ p, p < 8 → t.rd (R.PART_Pn_CFG p) = s.rd (R.PART_Pn_CFG p)) (dma : ∀ p, p < 8 → t.rd (R.PART_Pn_DMA p) = s.rd (R.PART_Pn_DMA p)) (c : Nat) :
    t.dmaOwner c = s.dmaOwner c := by
  exact congrArg (fun o : Option Nat => o.getD platform) (State.partWith_congr cfg fun p hp => congrArg (fun v => bit (fieldGet v (R.PART_Pn_DMA_CHANNELS p).lsb (R.PART_Pn_DMA_CHANNELS p).wid) c) (dma p hp))
theorem State.bankOwner_congr (cfg : ∀ p, p < 8 → t.rd (R.PART_Pn_CFG p) = s.rd (R.PART_Pn_CFG p)) (sram : ∀ p, p < 8 → t.rd (R.PART_Pn_SRAM p) = s.rd (R.PART_Pn_SRAM p)) (b : Nat) :
    t.bankOwner b = s.bankOwner b := by
  exact congrArg (fun o : Option Nat => o.getD unassigned) (State.partWith_congr cfg fun p hp => congrArg (fun v => bit (fieldGet v (R.PART_Pn_SRAM_BANKS p).lsb (R.PART_Pn_SRAM_BANKS p).wid) b) (sram p hp))
end

/-- What a function makes of such a value is such a value. -/
theorem Still.comp {β γ : Type} {g : State → β} {lo a : Nat} (k : Still g lo a) (f : β → γ) : Still (fun s => f (g s)) lo a where
  wr s r v h := congrArg f (k.wr s r v h)
  heat s r m := congrArg f (k.heat s r m)
  line s x := congrArg f (k.line s x)
  arrived s c l := congrArg f (k.arrived s c l)
  evm s x := congrArg f (k.evm s x)
  fc s x y z := congrArg f (k.fc s x y z)
  pwm s x := congrArg f (k.pwm s x)
  link s x y := congrArg f (k.link s x y)
  pos s x := congrArg f (k.pos s x)
  lane s x y := congrArg f (k.lane s x y)
  laneCpu s n x h := congrArg f (k.laneCpu s n x h)
  ports s x y z w v := congrArg f (k.ports s x y z w v)
  dma s x := congrArg f (k.dma s x)
  memory s x y z w := congrArg f (k.memory s x y z w)
theorem still_get (q : RF) : Still (State.get · q) q.reg.addr (q.reg.addr + 1) := (still_rd q.reg).comp fun v => fieldGet v q.lsb q.wid

/-! ### ASSERTING (Table 17.5) -/

section
variable (s : State) (p cause : Nat)

/-- The partition's state register says why it resets. -/
def State.asserting : State := ((s.put (R.PART_Pn_STATE_STATE p) 2).put (R.PART_Pn_STATE_LAST_CAUSE p) cause).inc (R.PART_Pn_STATE_RESETS p)
/-- Its cores, lanes and fast channels stop. -/
def State.haltCores : State := s.each ((List.range 8).filter fun c => s.coreOwner c == p) fun c t => t.stopCore c
def State.haltChannels : State :=
  (s.partLanes p).each ((List.range 24).filter fun n => (s.partLanes p).owner 2 n == p && (s.partLanes p).get (R.FCV_CHn_PHASE_PHASE n) != 0) fun n t =>
    t.setFch n { t.fch n with old := some (t.fcPhase n) }
/-- Its PWM units stop. -/
def State.haltUnits : State := s.each ((List.range 32).filter fun n => s.owner 4 n == p) fun n t => t.pwmStop n
/-- Its links stop. -/
def State.haltLinks : State := s.each ((List.range 32).filter fun l => s.owner 5 l == p) fun l t => t.stopLink l
/-- All of them in this order. -/
def State.halted : State := ((((s.asserting p cause).haltCores p).haltChannels p).haltUnits p).haltLinks p
theorem State.partAssert_eq : s.partAssert p cause = ((s.halted p cause).resetLocks ((s.halted p cause).lockHolder p)).partBlocks p := rfl

variable {s p} in
theorem State.asserting_fields : (s.asserting p cause).partState p = 2 ∧ (s.asserting p cause).get (R.PART_Pn_STATE_LAST_CAUSE p) = cause % 2 ^ 2 ∧
    (s.asserting p cause).get (R.PART_Pn_STATE_RESETS p) = (s.get (R.PART_Pn_STATE_RESETS p) + 1) % 65536 := by
  unfold State.asserting State.inc State.partState
  refine ⟨?_, ?_, ?_⟩ <;> simp (disch := exact ⟨rfl⟩) only [State.get_put_beside, State.get_put_self] <;> rfl
end

namespace Still
variable {β : Type} {g : State → β} {lo a : Nat} (k : Still g lo a)
include k
theorem haltChannels (s : State) (p : Nat) (h : a ≤ 0x40100000) : g (s.haltChannels p) = g s :=
  (State.each_keeps _ _ g (fun n t => k.channel t n _ h) _).trans (k.partLanes s p (by omega))
theorem haltUnits (s : State) (p : Nat) (h : a ≤ 0x40180000) : g (s.haltUnits p) = g s := State.each_keeps _ _ g (fun n t => k.pwmStop t n h) s
theorem haltLinks (s : State) (p : Nat) (h : a ≤ 0x40200000) : g (s.haltLinks p) = g s := State.each_keeps _ _ g (fun l t => k.leaveTo t l 0 h) s
/-- Everything but the cores. -/
theorem halted (s : State) (p cause : Nat) (h : a ≤ 0x40100000) : g (s.halted p cause) = g ((s.asserting p cause).haltCores p) :=
  (k.haltLinks _ p (by omega)).trans ((k.haltUnits _ p (by omega)).trans (k.haltChannels _ p h))
end Still

/-! ### Cores and PWM units stop -/

section
variable (s : State) (p : Nat)
theorem State.haltCores_rd {r : Reg} (h : r.addr < 0x404C0000) : (s.haltCores p).rd r = s.rd r := State.each_keeps _ _ (State.rd · r) (fun c t => t.stopCore_rd c r h) s
theorem State.haltCores_stops {c : Nat} (hc : c < 8) (owner : s.coreOwner c = p) : ((s.haltCores p).cpuAt c).started = false := by
  exact State.each_once_mem (f := fun c t => t.stopCore c) (x := c) (inv := fun _ => True) (goal := fun t => (t.cpuAt c).started = false)
    (List.nodup_range.filter fun c => s.coreOwner c == p) (List.mem_filter.2 ⟨List.mem_range.2 hc, beq_iff_eq.2 owner⟩) (fun _ _ _ _ h => h)
    (fun d _ ne t h => (congrArg Cpu.started ((t.stopCore_cpuAt d c).trans (if_neg (Ne.symm ne)))).trans h) (fun t _ => t.stopCore_stopped c) trivial

/-- A unit that stops keeps every field that is neither RUNNING nor one of its settling, nor its active compare. -/
theorem State.pwmStop_get {n : Nat} (hn : n < 32) {q : RF} (off : q.Unsettled n) (compare : q.reg.addr ≠ 0x4018101C + 0x100 * n)
    (matrix : q.reg.addr < 0x40280000 ∨ 0x40284000 ≤ q.reg.addr) : (s.pwmStop n).get q = (s.put (R.PWM_Un_STATUS_RUNNING n) 0).get q := by
  have flushed : ∀ t : State, (t.flushCompare n).get q = t.get q := fun t => by
    unfold State.flushCompare
    split
    · exact State.get_wr_ne t (R.PWM_Un_CMP_ACTIVE n) q _ compare
    · rfl
  exact (State.settleUnit_get _ hn off matrix).trans (flushed _)
theorem State.haltUnits_stops {u : Nat} (hu : u < 32) (owner : s.owner 4 u = p) : (s.haltUnits p).on (R.PWM_Un_STATUS_RUNNING u) = false := by
  have low : (R.PWM_Un_STATUS_RUNNING u).reg.addr < 0x40280000 := show 0x40181028 + 0x100 * u < 0x40280000 by omega
  have stop : ∀ n, n < 32 → ∀ t : State, (t.pwmStop n).get (R.PWM_Un_STATUS_RUNNING u) = (t.put (R.PWM_Un_STATUS_RUNNING n) 0).get (R.PWM_Un_STATUS_RUNNING u) := fun n hn t =>
    t.pwmStop_get hn (running_unsettled u n) (show 0x40181028 + 0x100 * u ≠ 0x4018101C + 0x100 * n by omega) (.inl low)
  have off := State.each_once_mem (f := fun n t => t.pwmStop n) (x := u) (inv := fun _ => True) (goal := fun t => t.get (R.PWM_Un_STATUS_RUNNING u) = 0) (s := s)
    (List.nodup_range.filter fun n => s.owner 4 n == p) (List.mem_filter.2 ⟨List.mem_range.2 hu, beq_iff_eq.2 owner⟩) (fun _ _ _ _ h => h)
    (fun n hn ne t h => (stop n (List.mem_range.1 (List.mem_filter.1 hn).1) t).trans ((State.get_put_ne t (R.PWM_Un_STATUS_RUNNING n) (R.PWM_Un_STATUS_RUNNING u) 0
      (show 0x40181028 + 0x100 * u ≠ 0x40181028 + 0x100 * n by omega)).trans h))
    (fun t _ => (stop u hu t).trans (State.get_put_self t (R.PWM_Un_STATUS_RUNNING u) 0 ⟨rfl⟩)) trivial
  exact congrArg (· != 0) off
end

/-! ### Its locks break (R399, R401) -/

section
variable (s : State)
theorem State.resetLock_rd {j : Nat} {r : Reg} (off : r.addr ≠ 0x40011008 + 0x10 * j) (matrix : r.addr < 0x40280000 ∨ 0x40284000 ≤ r.addr) : (s.resetLock j).rd r = s.rd r := by
  unfold State.resetLock
  split
  · split
    · exact s.freeLock_rd off
    · exact s.breakLock_rd off matrix 1
  · exact s.breakLock_rd off matrix 1
theorem State.resetLocks_rd {r : Reg} (off : r.addr < 0x40011000 ∨ 0x40012000 ≤ r.addr) (matrix : r.addr < 0x40280000 ∨ 0x40284000 ≤ r.addr) (f : Nat → Bool) :
    (s.resetLocks f).rd r = s.rd r :=
  (State.breakLocks_rd _ off matrix f 1).trans
    (State.each_keeps_mem (State.rd · r) (fun k hk t => t.resetLock_rd (by have := List.mem_range.1 (List.mem_filter.1 hk).1; omega) matrix) s)
theorem State.resetLocks_cpuAt (f : Nat → Bool) (c : Nat) : (s.resetLocks f).cpuAt c = s.cpuAt c := by
  have b : Blind (State.cpuAt · c) 0x40012000 0 := (blind_field (fun _ _ _ => rfl) (fun _ _ _ => rfl) (fun _ _ => rfl)).window 0x40012000
  refine (b.breakLocks (fun _ _ => rfl) _ f 1 (Nat.le_refl _) (Nat.zero_le _)).trans (State.each_keeps_mem (State.cpuAt · c) (fun k hk t => ?_) s)
  have small := List.mem_range.1 (List.mem_filter.1 hk).1
  unfold State.resetLock
  split
  · split
    · exact b.freeLock (fun _ _ => rfl) t k small (Nat.le_refl _)
    · exact b.breakLock (fun _ _ => rfl) t k 1 small (Nat.le_refl _) (Nat.zero_le _)
  · exact b.breakLock (fun _ _ => rfl) t k 1 small (Nat.le_refl _) (Nat.zero_le _)

/-- Two states agree on lock `k`: its status, its lease and the time. -/
structure State.LockSame (k : Nat) (s t : State) : Prop where
  stat : t.rd (R.PART_LOCKk_STAT k) = s.rd (R.PART_LOCKk_STAT k)
  lease : t.lease k = s.lease k
  now : t.now = s.now
variable {s} {t u : State} {k : Nat}
theorem State.LockSame.trans (h : s.LockSame k t) (e : t.LockSame k u) : s.LockSame k u := ⟨e.stat.trans h.stat, e.lease.trans h.lease, e.now.trans h.now⟩
theorem State.LockSame.on (h : s.LockSame k t) : t.on (R.PART_LOCKk_STAT_HELD k) = s.on (R.PART_LOCKk_STAT_HELD k) := congrArg (fun v => fieldGet v 31 1 != 0) h.stat
theorem State.LockSame.get (h : s.LockSame k t) (lsb w : Nat) : t.get ⟨R.PART_LOCKk_STAT k, lsb, w⟩ = s.get ⟨R.PART_LOCKk_STAT k, lsb, w⟩ := congrArg (fieldGet · lsb w) h.stat
theorem State.LockSame.sameCycle (h : s.LockSame k t) (x : Time) : t.sameCycle x = s.sameCycle x := by simp only [State.sameCycle, h.now]
theorem State.freeLock_lease (t : State) (j k : Nat) : (t.freeLock j).lease k = if k = j then none else t.lease k := by
  have dropped : (t.leases.drop (· == j)).find? (fun e => e.1 == k) = if k = j then none else t.leases.find? fun e => e.1 == k := by
    unfold Tab.drop
    induction t.leases with
    | nil => simp
    | cons e l ih =>
      by_cases here : e.1 = j <;> by_cases there : e.1 = k <;> simp_all
  exact (congrArg (Option.map (Prod.snd : Nat × Lease → Lease)) dropped).trans (by split <;> rfl)
theorem State.raise_now_lease (t : State) (q h k : Nat) : (t.raise q h).now = t.now ∧ (t.raise q h).lease k = t.lease k := by
  have kept := still_leases.toBlind.raise t q h (Nat.zero_le _)
  have leases : (t.raise q h).leases = t.leases := congrArg (fun x : Time × Tab Lease × Tab Nat => x.2.1) kept
  exact ⟨congrArg (·.1) kept, congrArg (fun x : Tab Lease => ({ t with leases := x } : State).lease k) leases⟩
theorem State.put_lease (t : State) (q : RF) (x k : Nat) : (t.put q x).lease k = t.lease k := rfl
/-- A break starts a lease of no length, which says whom it has struck. -/
theorem State.breakLock_lease (t : State) {j : Nat} (c : Nat) (held : t.on (R.PART_LOCKk_STAT_HELD j) = true) (k : Nat) :
    (t.breakLock j c).now = t.now ∧ (t.breakLock j c).lease k = if j = k then some ⟨t.now, 0, false, t.now, some (t.get (R.PART_LOCKk_STAT_OWNER j))⟩ else t.lease k := by
  let v := ((t.freeLock j).put (R.PART_LOCKk_STAT_BROKEN j) 1).put (R.PART_LOCKk_STAT_CAUSE j) c
  let u := v.raise 767
  obtain ⟨now, lease⟩ := v.raise_now_lease 767 0 k
  have now : u.now = t.now := now
  have step : t.breakLock j c = { u with leases := u.leases.set j ⟨u.now, 0, false, u.now, some (t.get (R.PART_LOCKk_STAT_OWNER j))⟩ } := if_pos held
  rw [step]
  refine ⟨now, (u.lease_set j k _).trans ?_⟩
  rw [now]
  by_cases e : j = k
  · rw [if_pos e, if_pos e]
  · rw [if_neg e, if_neg e]
    have puts : v.lease k = (t.freeLock j).lease k := by rw [State.put_lease, State.put_lease]
    exact lease.trans (puts.trans ((t.freeLock_lease j k).trans (if_neg (Ne.symm e))))
/-- Releasing or breaking another lock leaves lock `k`. -/
theorem State.freeLock_other {j : Nat} (ne : k ≠ j) (t : State) : t.LockSame k (t.freeLock j) :=
  ⟨t.freeLock_rd (by simp only [R.PART_LOCKk_STAT]; omega), (t.freeLock_lease j k).trans (if_neg ne), rfl⟩
theorem State.breakLock_other {j : Nat} (ne : k ≠ j) (hk : k < 256) (t : State) (cause : Nat) : t.LockSame k (t.breakLock j cause) := by
  have stat : (t.breakLock j cause).rd (R.PART_LOCKk_STAT k) = t.rd (R.PART_LOCKk_STAT k) :=
    t.breakLock_rd (by simp only [R.PART_LOCKk_STAT]; omega) (.inl (by simp only [R.PART_LOCKk_STAT]; omega)) cause
  by_cases held : t.on (R.PART_LOCKk_STAT_HELD j) = true
  · obtain ⟨now, lease⟩ := t.breakLock_lease cause held k
    exact ⟨stat, lease.trans (if_neg (Ne.symm ne)), now⟩
  · have idle : ∀ x : State, x = t ∨ x = t.put (R.PART_LOCKk_STAT_CAUSE j) cause → x.lease k = t.lease k ∧ x.now = t.now := fun x h => by
      rcases h with rfl | rfl <;> exact ⟨rfl, rfl⟩
    have step : t.breakLock j cause = t ∨ t.breakLock j cause = t.put (R.PART_LOCKk_STAT_CAUSE j) cause := by
      unfold State.breakLock
      rw [if_neg held]
      split
      · exact .inr rfl
      · exact .inl rfl
    obtain ⟨lease, now⟩ := idle _ step
    exact ⟨stat, lease, now⟩
theorem State.resetLock_other {j : Nat} (ne : k ≠ j) (hk : k < 256) (t : State) : t.LockSame k (t.resetLock j) := by
  unfold State.resetLock
  split
  · split
    · exact t.freeLock_other ne
    · exact t.breakLock_other ne hk 1
  · exact t.breakLock_other ne hk 1

/-- A broken lock does not break again for a cause that is no lower. -/
theorem State.Broken.stays {c d : Nat} (h : s.Broken k c) (order : c ≤ d) : s.breakLock k d = s := by
  obtain ⟨⟨free, -⟩, -, cause⟩ := h
  simp only [State.breakLock, free, Bool.false_eq_true, if_false, cause, decide_eq_false (Nat.not_lt.2 order), Bool.and_false]
/-- The locks of a partition break at its reset. -/
theorem State.resetLocks_breaks (hk : k < 256) (held : s.on (R.PART_LOCKk_STAT_HELD k) = true) {f : Nat → Bool} (owner : f (s.get (R.PART_LOCKk_STAT_OWNER k)) = true)
    (older : ∀ e, s.lease k = some e → s.sameCycle e.got = false) : (s.resetLocks f).Broken k 1 := by
  have breaks : ∀ t : State, s.LockSame k t → (t.resetLock k).Broken k 1 := fun t same => by
    have broken := t.breakLock_breaks (same.on.trans held) (cause := 1) (by decide) hk
    have step : t.resetLock k = t.breakLock k 1 := by
      unfold State.resetLock
      split
      · next e lease => exact if_neg (by rw [same.sameCycle, older e (same.lease ▸ lease)]; decide)
      · rfl
    exact step ▸ broken
  have first := State.each_once (f := fun k t => t.resetLock k) (inv := s.LockSame k) (goal := fun t => t.Broken k 1) (x := k) (s := s)
    (List.nodup_range.filter fun k => s.on (R.PART_LOCKk_STAT_HELD k) && f (s.get (R.PART_LOCKk_STAT_OWNER k)))
    (List.mem_filter.2 ⟨List.mem_range.2 hk, by rw [held, owner]; rfl⟩) (fun j ne t same => same.trans (State.resetLock_other (Ne.symm ne) hk t))
    (fun j ne t broken => broken.of_rd (State.resetLock_other (Ne.symm ne) hk t).stat) breaks ⟨rfl, rfl, rfl⟩
  unfold State.resetLocks State.breakLocks
  dsimp only
  refine State.each_inv (P := fun t => t.Broken k 1) (f := fun j t => t.breakLock j 1) (fun j t broken => ?_) _ first
  by_cases e : k = j
  · exact e ▸ (show (t.breakLock k 1).Broken k 1 from (broken.stays (Nat.le_refl _)).symm ▸ broken)
  · exact broken.of_rd (t.breakLock_other e hk 1).stat
/-- What lock `k` is once it is free, with its mark as it was. -/
def State.FreeLock (s : State) (k broken : Nat) : Prop :=
  s.on (R.PART_LOCKk_STAT_HELD k) = false ∧ s.get (R.PART_LOCKk_STAT_OWNER k) = 0x3F ∧ s.get (R.PART_LOCKk_STAT_BROKEN k) = broken ∧ s.lease k = none
theorem State.FreeLock.same {b : Nat} (h : s.FreeLock k b) (e : s.LockSame k t) : t.FreeLock k b :=
  ⟨e.on.trans h.1, (e.get 24 6).trans h.2.1, (e.get 30 1).trans h.2.2.1, e.lease.trans h.2.2.2⟩
/-- A lock acquired in the very cycle of the reset was not acquired (R401). -/
theorem State.resetLocks_frees (hk : k < 256) (held : s.on (R.PART_LOCKk_STAT_HELD k) = true) {f : Nat → Bool} (owner : f (s.get (R.PART_LOCKk_STAT_OWNER k)) = true)
    {e : Lease} (lease : s.lease k = some e) (young : s.sameCycle e.got = true) : (s.resetLocks f).FreeLock k (s.get (R.PART_LOCKk_STAT_BROKEN k)) := by
  have frees : ∀ t : State, s.LockSame k t → (t.resetLock k).FreeLock k (s.get (R.PART_LOCKk_STAT_BROKEN k)) := fun t same => by
    obtain ⟨free, none, broken, -⟩ := t.freeLock_fields (k := k)
    have step : t.resetLock k = t.freeLock k := by
      unfold State.resetLock
      rw [same.lease, lease]
      exact if_pos (by rw [same.sameCycle, young])
    exact step ▸ ⟨free, none, broken.trans (same.get 30 1), (t.freeLock_lease k k).trans (if_pos rfl)⟩
  have first := State.each_once (f := fun k t => t.resetLock k) (inv := s.LockSame k) (goal := fun t => t.FreeLock k (s.get (R.PART_LOCKk_STAT_BROKEN k))) (x := k) (s := s)
    (List.nodup_range.filter fun k => s.on (R.PART_LOCKk_STAT_HELD k) && f (s.get (R.PART_LOCKk_STAT_OWNER k)))
    (List.mem_filter.2 ⟨List.mem_range.2 hk, by rw [held, owner]; rfl⟩) (fun j ne t same => same.trans (State.resetLock_other (Ne.symm ne) hk t))
    (fun j ne t free => free.same (State.resetLock_other (Ne.symm ne) hk t)) frees ⟨rfl, rfl, rfl⟩
  unfold State.resetLocks State.breakLocks
  dsimp only
  refine State.each_inv (P := fun t => t.FreeLock k (s.get (R.PART_LOCKk_STAT_BROKEN k))) (f := fun j t => t.breakLock j 1) (fun j t free => ?_) _ first
  by_cases e : k = j
  · have none : t.justStruck k = none := by rw [State.justStruck, free.2.2.2]
    exact e ▸ (show (t.breakLock k 1).FreeLock k _ from (t.breakLock_free free.1 none 1).symm ▸ free)
  · exact free.same (t.breakLock_other e hk 1)
end

/-! ### Its DMA channels stop -/

theorem State.partDma_stops (s : State) {d p : Nat} (hd : d < 32) (owner : s.dmaOwner d = p) : (s.partDma p).dmaState d = 0 :=
  State.each_once_mem (f := fun n t => (t.setDma n {}).put (R.DMA_Cn_STATUS_STATE n) 0) (x := d) (inv := fun _ => True) (goal := fun t => t.dmaState d = 0) (s := s)
    (List.nodup_range.filter fun n => s.dmaOwner n == p) (List.mem_filter.2 ⟨List.mem_range.2 hd, beq_iff_eq.2 owner⟩) (fun _ _ _ _ h => h)
    (fun n _ ne t h => (State.get_put_ne (t.setDma n {}) (R.DMA_Cn_STATUS_STATE n) (R.DMA_Cn_STATUS_STATE d) 0
      (show 0x40401010 + 0x40 * d ≠ 0x40401010 + 0x40 * n by omega)).trans h)
    (fun t _ => State.get_put_self (t.setDma d {}) (R.DMA_Cn_STATUS_STATE d) 0 ⟨rfl⟩) trivial
theorem Still.partDma {β : Type} {g : State → β} {lo a : Nat} (k : Still g lo a) (s : State) (p : Nat) (h : a ≤ 0x40400000) : g (s.partDma p) = g s :=
  State.each_keeps_mem g (fun n hn t => (k.put _ (R.DMA_Cn_STATUS_STATE n) 0 (.inl (Nat.le_trans h (Nat.le_add_right_of_le (by decide))))).trans (k.dma t _)) s
end Sys2Proof.Machine
end

section
/-!
PROOF. A partition reset from its request to its end (spec/17, R390 to R394).
-/
namespace Sys2Proof.Machine

section
variable (s : State) {p : Nat} (cause : Nat)

/-! ### After ASSERTING -/

namespace Still
variable {β : Type} {g : State → β} {lo a : Nat} (k : Still g lo a)
include k
theorem afterLocks (hs : a ≤ 0x40280000) : g (s.partAssert p cause) = g ((s.halted p cause).resetLocks ((s.halted p cause).lockHolder p)) :=
  (k.blocks (.inl hs) _ p).trans (k.partDma _ p (by omega))
end Still

theorem State.asserting_rd {r : Reg} (ne : r.addr ≠ 0x40010018 + 0x40 * p) : (s.asserting p cause).rd r = s.rd r :=
  (State.rd_put_ne _ (R.PART_Pn_STATE_RESETS p) r _ ne).trans ((State.rd_put_ne _ (R.PART_Pn_STATE_LAST_CAUSE p) r cause ne).trans
    (State.rd_put_ne s (R.PART_Pn_STATE_STATE p) r 2 ne))
theorem State.halted_rd {r : Reg} (low : r.addr < 0x40020000) : (s.halted p cause).rd r = (s.asserting p cause).rd r :=
  ((still_rd r).halted s p cause (by omega)).trans (State.haltCores_rd _ p (by omega))
theorem State.partAssert_rd {r : Reg} (low : r.addr < 0x40020000) (locks : r.addr < 0x40011000 ∨ 0x40012000 ≤ r.addr) :
    (s.partAssert p cause).rd r = (s.asserting p cause).rd r :=
  ((still_rd r).afterLocks s cause (by omega)).trans ((State.resetLocks_rd _ locks (.inl (by omega)) _).trans (s.halted_rd cause low))
theorem State.asserting_cfg (n : Nat) : (s.asserting p cause).rd (R.PART_Pn_CFG n) = s.rd (R.PART_Pn_CFG n) := s.asserting_rd cause (by simp only [R.PART_Pn_CFG]; omega)
theorem State.haltCores_leases (p : Nat) : ((s.haltCores p).now, (s.haltCores p).leases, (s.haltCores p).own) = (s.now, s.leases, s.own) :=
  State.each_keeps ((List.range 8).filter fun c => s.coreOwner c == p) (fun c t => t.stopCore c) (fun s : State => (s.now, s.leases, s.own)) (fun _ _ => rfl) s
theorem State.halted_leases : ((s.halted p cause).now, (s.halted p cause).leases, (s.halted p cause).own) = (s.now, s.leases, s.own) :=
  (still_leases.halted s p cause (Nat.zero_le _)).trans ((s.asserting p cause).haltCores_leases p)
theorem State.halted_cfg (n : Nat) (hn : n < 8) : (s.halted p cause).rd (R.PART_Pn_CFG n) = s.rd (R.PART_Pn_CFG n) :=
  (s.halted_rd cause (by simp only [R.PART_Pn_CFG]; omega)).trans (s.asserting_cfg cause n)

theorem State.partAssert_started {c : Nat} (hc : c < 8) (owner : s.coreOwner c = p) : ((s.partAssert p cause).cpuAt c).started = false := by
  have k := still_core (c := c) (by omega)
  have same : (s.partAssert p cause).cpuAt c = ((s.asserting p cause).haltCores p).cpuAt c :=
    (k.afterLocks s cause (Nat.zero_le _)).trans ((State.resetLocks_cpuAt _ _ c).trans (k.halted s p cause (Nat.zero_le _)))
  rw [same]
  exact State.haltCores_stops _ p hc ((State.coreOwner_congr (fun n _ => s.asserting_cfg cause n) c).trans owner)
theorem State.partAssert_running {u : Nat} (hu : u < 32) (owner : s.owner 4 u = p) : (s.partAssert p cause).on (R.PWM_Un_STATUS_RUNNING u) = false := by
  have low : (R.PWM_Un_STATUS_RUNNING u).reg.addr + 1 ≤ 0x40200000 := show 0x40181028 + 0x100 * u + 1 ≤ 0x40200000 by omega
  have k := still_get (R.PWM_Un_STATUS_RUNNING u)
  let x := ((s.asserting p cause).haltCores p).haltChannels p
  have same : (s.partAssert p cause).get (R.PWM_Un_STATUS_RUNNING u) = (x.haltUnits p).get (R.PWM_Un_STATUS_RUNNING u) :=
    (k.afterLocks s cause (by omega)).trans ((congrArg (fieldGet · 14 1) (State.resetLocks_rd _ (.inr (show 0x40012000 ≤ 0x40181028 + 0x100 * u by omega)) (.inl (by omega)) _)).trans
      (k.haltLinks _ p low))
  have own : x.own = s.own := by
    have kept := (still_leases.haltChannels ((s.asserting p cause).haltCores p) p (Nat.zero_le _)).trans ((s.asserting p cause).haltCores_leases p)
    exact congrArg (·.2.2) kept
  have owned : x.owner 4 u = p := by rw [← owner, State.owner, own]; rfl
  exact (congrArg (· != 0) same).trans (x.haltUnits_stops p hu owned)
theorem State.partAssert_dma {d : Nat} (hd : d < 32) (owner : s.dmaOwner d = p) : (s.partAssert p cause).dmaState d = 0 := by
  have k := still_get (R.DMA_Cn_STATUS_STATE d)
  have at_ : (R.DMA_Cn_STATUS_STATE d).reg.addr = 0x40401010 + 0x40 * d := rfl
  let l := (s.halted p cause).resetLocks ((s.halted p cause).lockHolder p)
  have same : (s.partAssert p cause).dmaState d = (l.partDma p).dmaState d := k.blocks (.inr ⟨by omega, by omega⟩) l p
  have part : ∀ r : Reg, r.addr < 0x40011000 → r.addr ≠ 0x40010018 + 0x40 * p → l.rd r = s.rd r := fun r low ne =>
    (State.resetLocks_rd _ (.inl low) (.inl (by omega)) _).trans ((s.halted_rd cause (by omega)).trans (s.asserting_rd cause ne))
  have cfg : ∀ n, n < 8 → l.rd (R.PART_Pn_CFG n) = s.rd (R.PART_Pn_CFG n) := fun n hn =>
    part _ (by simp only [R.PART_Pn_CFG]; omega) (by simp only [R.PART_Pn_CFG]; omega)
  have dma : ∀ n, n < 8 → l.rd (R.PART_Pn_DMA n) = s.rd (R.PART_Pn_DMA n) := fun n hn =>
    part _ (by simp only [R.PART_Pn_DMA]; omega) (by simp only [R.PART_Pn_DMA]; omega)
  exact same.trans (l.partDma_stops hd ((State.dmaOwner_congr cfg dma d).trans owner))
section
variable {s} {k : Nat} (hk : k < 256) (held : s.on (R.PART_LOCKk_STAT_HELD k) = true) (owner : s.lockHolder p (s.get (R.PART_LOCKk_STAT_OWNER k)) = true)
include hk
omit owner held in
theorem State.halted_lock (hp : p < 8) : s.LockSame k (s.halted p cause) := by
  obtain ⟨now, rest⟩ := Prod.mk.inj (s.halted_leases (p := p) cause)
  obtain ⟨leases, -⟩ := Prod.mk.inj rest
  have stat : (s.halted p cause).rd (R.PART_LOCKk_STAT k) = s.rd (R.PART_LOCKk_STAT k) :=
    (s.halted_rd cause (by simp only [R.PART_LOCKk_STAT]; omega)).trans (s.asserting_rd cause (by simp only [R.PART_LOCKk_STAT]; omega))
  have lease : (s.halted p cause).lease k = s.lease k := by rw [State.lease, leases]; rfl
  exact ⟨stat, lease, now⟩
omit held owner in
theorem State.partAssert_stat : (s.partAssert p cause).rd (R.PART_LOCKk_STAT k) =
    ((s.halted p cause).resetLocks ((s.halted p cause).lockHolder p)).rd (R.PART_LOCKk_STAT k) :=
  (still_rd _).afterLocks s cause (by simp only [R.PART_LOCKk_STAT]; omega)
include held owner
theorem State.partAssert_breaks (hp : p < 8) (older : ∀ e, s.lease k = some e → s.sameCycle e.got = false) : (s.partAssert p cause).Broken k 1 := by
  have same := State.halted_lock (s := s) cause hk hp
  refine State.Broken.of_rd (State.resetLocks_breaks hk (same.on.trans held) ?_ fun e lease => ?_) (State.partAssert_stat cause hk)
  · rw [State.lockHolder_congr (fun n hn => s.halted_cfg cause n hn), show (s.halted p cause).get (R.PART_LOCKk_STAT_OWNER k) = _ from same.get 24 6]
    exact owner
  · rw [same.sameCycle]
    exact older e (same.lease ▸ lease)
theorem State.partAssert_frees (hp : p < 8) {e : Lease} (lease : s.lease k = some e) (young : s.sameCycle e.got = true) :
    ((s.partAssert p cause).on (R.PART_LOCKk_STAT_HELD k) = false ∧ (s.partAssert p cause).get (R.PART_LOCKk_STAT_OWNER k) = 0x3F) ∧
    (s.partAssert p cause).get (R.PART_LOCKk_STAT_BROKEN k) = s.get (R.PART_LOCKk_STAT_BROKEN k) := by
  have same := State.halted_lock (s := s) cause hk hp
  have stat := State.partAssert_stat (s := s) (p := p) cause hk
  obtain ⟨free, none, broken, -⟩ := State.resetLocks_frees hk (same.on.trans held) (f := (s.halted p cause).lockHolder p) (by
    rw [State.lockHolder_congr (fun n hn => s.halted_cfg cause n hn), show (s.halted p cause).get (R.PART_LOCKk_STAT_OWNER k) = _ from same.get 24 6]
    exact owner) (same.lease.trans lease) ((same.sameCycle _).trans young)
  exact ⟨⟨(congrArg (fun v => fieldGet v 31 1 != 0) stat).trans free, (congrArg (fieldGet · 24 6) stat).trans none⟩,
    ((congrArg (fieldGet · 30 1) stat).trans broken).trans (same.get 30 1)⟩
end
end

/-! ### The request (R50, R390, R394) -/

/-- A reload of the partition that is in CHECKING or PREPARING is cancelled (R50). -/
def State.cancelled (s : State) (p : Nat) : State := (({ s with reload := none } : State).reloadTo p 6 (some (0x0A07, 0))).settleHeld
section
variable {s : State} {p : Nat} {cause : Nat}
theorem State.partReset_asserts (h0 : s.partState p ≠ 0) (h2 : s.partState p ≠ 2) (h3 : s.partState p ≠ 3) (waits : s.get (R.SCFG_RQn_STAT_STATE p) ≠ 3) :
    s.partReset p cause = if s.get (R.SCFG_RQn_STAT_STATE p) = 1 ∨ s.get (R.SCFG_RQn_STAT_STATE p) = 2 then (s.partAssert p cause).cancelled p else s.partAssert p cause := by
  unfold State.partReset
  split
  · exact absurd (by assumption) h0
  · exact absurd (by assumption) h2
  · exact absurd (by assumption) h3
  · exact if_neg waits
theorem State.partReset_waits (h0 : s.partState p ≠ 0) (h2 : s.partState p ≠ 2) (h3 : s.partState p ≠ 3) (waits : s.get (R.SCFG_RQn_STAT_STATE p) = 3) :
    s.partReset p cause = { s with deferred := s.deferred.set p cause } := by
  unfold State.partReset
  split
  · exact absurd (by assumption) h0
  · exact absurd (by assumption) h2
  · exact absurd (by assumption) h3
  · exact if_pos waits
theorem State.partReset_again (h : s.partState p = 2 ∨ s.partState p = 3) : s.partReset p cause = s.put (R.PART_Pn_STATE_LAST_CAUSE p) cause := by
  unfold State.partReset
  split
  · next none => omega
  · rfl
  · rfl
  · next other => exact absurd h (not_or.2 ⟨by assumption, by assumption⟩)

namespace Still
variable {β : Type} {g : State → β} {lo a : Nat} (k : Still g lo a)
include k
theorem reloadTo (h : Apart lo a) (scfg : a ≤ 0x40000000 ∨ 0x40000200 ≤ lo) (s : State) {p : Nat} (hp : p < 8) (st : Nat) (e : Option (Nat × Nat)) :
    g (s.reloadTo p st e) = g s := by
  have low : ∀ x : Nat, 0x40000000 ≤ x → x < 0x40000200 → a ≤ x ∨ x < lo := fun x h1 h2 => by omega
  have rq : a ≤ (R.SCFG_RQn_STAT p).addr ∨ (R.SCFG_RQn_STAT p).addr < lo := low _ (by simp only [R.SCFG_RQn_STAT]; omega) (by simp only [R.SCFG_RQn_STAT]; omega)
  have event : ∀ t : State, g (t.reloadEvent p) = g t := fun t => by
    unfold State.reloadEvent
    split
    · rfl
    · exact (Blind.source (fun s x => k.ports s s.fse s.ses s.eth s.ser x) _ p 10).trans (k.raises h t (by omega) 0)
  have state : g (((s.put (R.SCFG_RQn_STAT_STATE p) st).put R.SCFG_STATUS_RELOAD_STATE st).put R.SCFG_STATUS_RELOAD_PART p) = g s :=
    (k.put _ R.SCFG_STATUS_RELOAD_PART p (low 0x40000000 (by decide) (by decide))).trans
      ((k.put _ R.SCFG_STATUS_RELOAD_STATE st (low 0x40000000 (by decide) (by decide))).trans (k.put s (R.SCFG_RQn_STAT_STATE p) st rq))
  unfold State.reloadTo
  split
  · exact (event _).trans ((k.put _ R.SCFG_CHK_OFFSET_OFFSET _ (low 0x40000018 (by decide) (by decide))).trans
      ((k.put _ R.SCFG_CHK_CODE_CODE _ (low 0x40000014 (by decide) (by decide))).trans ((k.put _ (R.SCFG_RQn_STAT_CODE p) _ rq).trans state)))
  · exact state
theorem cancelled (w : OffClocks lo a) (h : Apart lo a) (unit : ∀ (s : State) (n : Nat), n < 32 → g (s.settleUnit n) = g s)
    (clk : ∀ (s : State) (x : Clk), g { s with clk := x } = g s) (scfg : a ≤ 0x40000000 ∨ 0x40000200 ≤ lo) (reload : ∀ s : State, g { s with reload := none } = g s) (s : State) {p : Nat} (hp : p < 8) : g (s.cancelled p) = g s :=
  (k.settleHeld w h unit clk _).trans ((k.reloadTo h scfg _ hp 6 _).trans (reload s))
/-- What the blocks' registers and processors become at the reset stays while a reload is cancelled. -/
theorem partReset (w : OffClocks lo a) (h : Apart lo a) (unit : ∀ (s : State) (n : Nat), n < 32 → g (s.settleUnit n) = g s)
    (clk : ∀ (s : State) (x : Clk), g { s with clk := x } = g s) (scfg : a ≤ 0x40000000 ∨ 0x40000200 ≤ lo) (reload : ∀ s : State, g { s with reload := none } = g s) (hp : p < 8) (h0 : s.partState p ≠ 0) (h2 : s.partState p ≠ 2)
    (h3 : s.partState p ≠ 3) (waits : s.get (R.SCFG_RQn_STAT_STATE p) ≠ 3) : g (s.partReset p cause) = g (s.partAssert p cause) := by
  rw [State.partReset_asserts h0 h2 h3 waits]
  split
  · exact k.cancelled w h unit clk scfg reload _ hp
  · rfl
end Still
theorem State.cancelled_state (s : State) (hp : p < 8) : (s.cancelled p).get (R.SCFG_RQn_STAT_STATE p) = 6 := by
  have at_ : (R.SCFG_RQn_STAT p).addr = 0x4000010C + 0x20 * p := rfl
  have k := still_get (R.SCFG_RQn_STAT_STATE p)
  have low : (R.SCFG_RQn_STAT_STATE p).reg.addr + 1 ≤ 0x40020000 := show 0x4000010C + 0x20 * p + 1 ≤ 0x40020000 by omega
  let t : State := { s with reload := none }
  let u := ((t.put (R.SCFG_RQn_STAT_STATE p) 6).put R.SCFG_STATUS_RELOAD_STATE 6).put R.SCFG_STATUS_RELOAD_PART p
  let v := ((u.put (R.SCFG_RQn_STAT_CODE p) 0x0A07).put R.SCFG_CHK_CODE_CODE 0x0A07).put R.SCFG_CHK_OFFSET_OFFSET 0
  have event : (v.reloadEvent p).get (R.SCFG_RQn_STAT_STATE p) = v.get (R.SCFG_RQn_STAT_STATE p) := by
    unfold State.reloadEvent
    split
    · rfl
    · exact (Blind.source (g := fun t => t.get (R.SCFG_RQn_STAT_STATE p)) (fun _ _ => rfl) _ p 10).trans (k.raises (.inl (by omega)) v (by omega) 0)
  have held : (s.cancelled p).get (R.SCFG_RQn_STAT_STATE p) = (v.reloadEvent p).get (R.SCFG_RQn_STAT_STATE p) :=
    k.settleHeld (.inl low) (.inl (by omega)) (fun s n _ => k.units s n none (by omega)) (fun _ _ => rfl) _
  have one : ∀ (x : State) (q : RF) (y : Nat), q.reg.addr ≠ 0x4000010C + 0x20 * p → (x.put q y).get (R.SCFG_RQn_STAT_STATE p) = x.get (R.SCFG_RQn_STAT_STATE p) := fun x q y ne =>
    State.get_put_ne x q (R.SCFG_RQn_STAT_STATE p) y (Ne.symm ne)
  refine held.trans (event.trans ?_)
  refine (one _ R.SCFG_CHK_OFFSET_OFFSET 0 (show 0x40000018 ≠ _ by omega)).trans ((one _ R.SCFG_CHK_CODE_CODE _ (show 0x40000014 ≠ _ by omega)).trans ?_)
  refine (State.get_put_beside u (R.SCFG_RQn_STAT_CODE p) (R.SCFG_RQn_STAT_STATE p) _ ⟨rfl⟩ ⟨rfl⟩).trans ?_
  refine (one _ R.SCFG_STATUS_RELOAD_PART _ (show 0x40000000 ≠ _ by omega)).trans ((one _ R.SCFG_STATUS_RELOAD_STATE _ (show 0x40000000 ≠ _ by omega)).trans ?_)
  exact State.get_put_self t (R.SCFG_RQn_STAT_STATE p) 6 ⟨rfl⟩
end

/-! ### The release (R393) -/

section
variable (s : State) {p : Nat}
theorem State.startCore_rd {c : Nat} (hc : c < 8) {r : Reg} (low : r.addr < 0x40020000) (d : Word) : (s.startCore c d).rd r = s.rd r := by
  have pair : r.addr ≠ (R.SUP_PAIRk_STATUS_COMPARING (c / 2)).reg.addr := by simp only [R.SUP_PAIRk_STATUS_COMPARING, R.SUP_PAIRk_STATUS]; omega
  have debug : r.addr ≠ (R.DBG_Cc_STATUS_STATE c).reg.addr := by simp only [R.DBG_Cc_STATUS_STATE, R.DBG_Cc_STATUS]; omega
  have core : ∀ x, ((s.setCpuAt c x).put (R.DBG_Cc_STATUS_STATE c) 0).rd r = s.rd r := fun x => State.rd_put_ne (s.setCpuAt c x) (R.DBG_Cc_STATUS_STATE c) r 0 debug
  unfold State.startCore
  dsimp only
  split
  · exact (State.rd_put_ne _ (R.SUP_PAIRk_STATUS_COMPARING (c / 2)) r 1 pair).trans (core _)
  · exact core _
theorem State.startCore_cpuAt (c k : Nat) (d : Word) : (s.startCore c d).cpuAt k = if k = c then { Cpu.init c with pc := d, started := true } else s.cpuAt k := by
  unfold State.startCore
  dsimp only
  split
  · exact State.cpuAt_setCpuAt s c k _
  · exact State.cpuAt_setCpuAt s c k _
theorem State.coresOf_lt {c : Nat} (h : c ∈ s.coresOf p) : c < 8 := List.mem_range.1 (List.mem_filter.1 h).1
theorem State.partStart_rd {r : Reg} (low : r.addr < 0x40020000) (ne : r.addr ≠ 0x40010018 + 0x40 * p) : (s.partStart p).rd r = s.rd r :=
  (State.rd_put_ne _ (R.PART_Pn_STATE_STATE p) r 1 ne).trans (State.each_keeps_mem (State.rd · r) (fun _ hc t => t.startCore_rd (s.coresOf_lt hc) low _) s)
/-- Every core of the partition starts at its boot address. -/
theorem State.partStart_fields (hp : p < 8) : (s.partStart p).partState p = 1 ∧
    ∀ c ∈ s.coresOf p, ((s.partStart p).cpuAt c).started = true ∧ ((s.partStart p).cpuAt c).pc = s.rd (R.PART_Pn_BOOT p) := by
  refine ⟨State.get_put_self _ (R.PART_Pn_STATE_STATE p) 1 ⟨rfl⟩, fun c hc => ?_⟩
  have low : (R.PART_Pn_BOOT p).addr < 0x40020000 := by simp only [R.PART_Pn_BOOT]; omega
  exact State.each_once_mem (f := fun c t => t.startCore c (t.rd (R.PART_Pn_BOOT p))) (x := c) (inv := fun t => t.rd (R.PART_Pn_BOOT p) = s.rd (R.PART_Pn_BOOT p))
    (goal := fun t => (t.cpuAt c).started = true ∧ (t.cpuAt c).pc = s.rd (R.PART_Pn_BOOT p)) (s := s) (List.nodup_range.filter _) hc
    (fun d hd _ t boot => (t.startCore_rd (s.coresOf_lt hd) low _).trans boot) (fun d hd ne t h => by rw [t.startCore_cpuAt, if_neg (Ne.symm ne)]; exact h)
    (fun t boot => by rw [t.startCore_cpuAt, if_pos rfl]; exact ⟨rfl, boot⟩) rfl

/-- The end of a release: the outputs follow, and links start. -/
def State.releaseLinks (s : State) (p : Nat) : State :=
  let s := s.each ((List.range 32).filter fun n => s.owner 4 n == p) fun n t => t.settleUnit n
  s.each ((List.range 32).filter fun l => s.owner 5 l == p && s.on (R.FLK_Ln_IMAGE_BOOT_START l)) fun l t => t.startLink l
theorem Blind.releaseLinks {β : Type} {g : State → β} {lo a : Nat} (b : Blind g lo a) (pwm : ∀ (s : State) (x : Tab PwmUnit), g { s with pwm := x } = g s)
    (link : ∀ (s : State) (x : Tab Flink), g { s with link := x } = g s) (arm : ∀ (s : State) (x : Tab Arm), g { s with arm := x } = g s) (h : a ≤ 0x40180000) :
    g (s.releaseLinks p) = g s :=
  (State.each_keeps _ _ g (fun l t => b.startLink link arm t l (by omega)) _).trans (State.each_keeps _ _ g (fun n t => b.settleUnit pwm t n none h) s)
theorem Still.releaseLinks {β : Type} {g : State → β} {lo a : Nat} (k : Still g lo a) (h : a ≤ 0x40180000) : g (s.releaseLinks p) = g s :=
  k.toBlind.releaseLinks s k.pwm (fun s x => k.link s x s.arm) (fun s x => k.link s s.link x) h
/-- A release starts the partition's cores, or waits for START, or has no core to start. -/
theorem State.partRelease_cases : ∃ t : State, s.partRelease p = t.releaseLinks p ∧
    (t = s.put (R.PART_Pn_STATE_STATE p) 1 ∨ t = s.put (R.PART_Pn_STATE_STATE p) 5 ∨ t = s.partStart p) := by
  refine ⟨_, rfl, ?_⟩
  split
  · exact .inl rfl
  · split
    · exact .inr (.inl rfl)
    · exact .inr (.inl rfl)
    · exact .inr (.inr rfl)
theorem State.partRelease_state (hp : p < 8) : (s.partRelease p).partState p = 1 ∨ (s.partRelease p).partState p = 5 := by
  obtain ⟨t, step, start⟩ := s.partRelease_cases (p := p)
  have kept : (s.partRelease p).partState p = t.partState p := (congrArg (State.partState · p) step).trans
    ((still_get (R.PART_Pn_STATE_STATE p)).releaseLinks t (show 0x40010018 + 0x40 * p + 1 ≤ 0x40180000 by omega))
  rw [kept]
  rcases start with rfl | rfl | rfl
  · exact .inl (State.get_put_self s (R.PART_Pn_STATE_STATE p) 1 ⟨rfl⟩)
  · exact .inr (State.get_put_self s (R.PART_Pn_STATE_STATE p) 5 ⟨rfl⟩)
  · exact .inl (s.partStart_fields hp).1
theorem State.partRelease_rd {r : Reg} (low : r.addr < 0x40020000) (ne : r.addr ≠ 0x40010018 + 0x40 * p) : (s.partRelease p).rd r = s.rd r := by
  obtain ⟨t, step, start⟩ := s.partRelease_cases (p := p)
  refine (congrArg (State.rd · r) step).trans (((still_rd r).releaseLinks t (by omega)).trans ?_)
  rcases start with rfl | rfl | rfl
  · exact State.rd_put_ne s (R.PART_Pn_STATE_STATE p) r 1 ne
  · exact State.rd_put_ne s (R.PART_Pn_STATE_STATE p) r 5 ne
  · exact s.partStart_rd low ne

/-! ### HOLD (R393) -/

theorem State.mustHold_hold (h : s.on (R.PART_Pn_RSTCTRL_HOLD p) = true) : s.mustHold p = true := by rw [State.mustHold, h]; rfl
theorem State.putHold_state (hold : Bool) : (s.putB (R.PART_Pn_RSTCTRL_HOLD p) hold).partState p = s.partState p :=
  State.get_put_ne s (R.PART_Pn_RSTCTRL_HOLD p) (R.PART_Pn_STATE_STATE p) _ (show 0x40010018 + 0x40 * p ≠ 0x4001001C + 0x40 * p by omega)
theorem State.holdPart_stays {hold : Bool} (h : s.partState p ≠ 4 ∨ hold = true) : s.holdPart p hold = s.putB (R.PART_Pn_RSTCTRL_HOLD p) hold := by
  have state : (s.putB (R.PART_Pn_RSTCTRL_HOLD p) hold).partState p = s.partState p :=
    s.putHold_state hold
  refine if_neg fun all => ?_
  simp only [Bool.and_eq_true, beq_iff_eq, Bool.not_eq_true'] at all
  obtain ⟨four, free⟩ := all
  rcases h with h | rfl
  · exact h (state ▸ four)
  · rw [State.mustHold_hold _ (State.on_putB_self s (R.PART_Pn_RSTCTRL_HOLD p) true ⟨rfl⟩ ⟨rfl⟩)] at free
    exact absurd free (by decide)
theorem State.holdPart_rd {r : Reg} (low : r.addr < 0x40020000) (state : r.addr ≠ 0x40010018 + 0x40 * p) (hold : Bool) :
    (s.holdPart p hold).rd r = (s.putB (R.PART_Pn_RSTCTRL_HOLD p) hold).rd r := by
  unfold State.holdPart
  dsimp only
  split
  · exact State.partRelease_rd _ low state
  · rfl
theorem State.holdPart_hold (hp : p < 8) (hold : Bool) : (s.holdPart p hold).on (R.PART_Pn_RSTCTRL_HOLD p) = hold :=
  (congrArg (fun v => fieldGet v 1 1 != 0) (s.holdPart_rd (r := R.PART_Pn_RSTCTRL p) (by simp only [R.PART_Pn_RSTCTRL]; omega) (by simp only [R.PART_Pn_RSTCTRL]; omega) hold)).trans
    (State.on_putB_self s (R.PART_Pn_RSTCTRL_HOLD p) hold ⟨rfl⟩ ⟨rfl⟩)
/-- The partition's state after a write of HOLD is the one before, or one of a released partition. -/
theorem State.holdPart_state (hp : p < 8) (hold : Bool) : (s.holdPart p hold).partState p = s.partState p ∨ (s.holdPart p hold).partState p = 1 ∨ (s.holdPart p hold).partState p = 5 := by
  unfold State.holdPart
  dsimp only
  split
  · exact .inr (State.partRelease_state _ hp)
  · exact .inl (s.putHold_state hold)
/-- A held partition that nothing holds any more is released. -/
theorem State.holdPart_releases (hp : p < 8) (held : s.partState p = 4) (tested : ∀ j, j < 4 → s.bitOn R.SUP_CMPTEST_PAIR j = true → s.coreOwner (2 * j) ≠ p) :
    (s.holdPart p false).partState p = 1 ∨ (s.holdPart p false).partState p = 5 := by
  let t := s.putB (R.PART_Pn_RSTCTRL_HOLD p) false
  have state : t.partState p = s.partState p :=
    s.putHold_state false
  have other : ∀ r : Reg, r.addr ≠ 0x4001001C + 0x40 * p → t.rd r = s.rd r := fun r ne => State.rd_put_ne s (R.PART_Pn_RSTCTRL_HOLD p) r _ ne
  have owner : ∀ c, t.coreOwner c = s.coreOwner c := State.coreOwner_congr fun n _ => other _ (by simp only [R.PART_Pn_CFG]; omega)
  have test : ∀ j, t.bitOn R.SUP_CMPTEST_PAIR j = s.bitOn R.SUP_CMPTEST_PAIR j := fun j =>
    congrArg (fun v => bit (fieldGet v R.SUP_CMPTEST_PAIR.lsb R.SUP_CMPTEST_PAIR.wid) j) (other R.SUP_CMPTEST (by simp only [R.SUP_CMPTEST]; omega))
  have free : t.mustHold p = false := by
    have hold : t.on (R.PART_Pn_RSTCTRL_HOLD p) = false := State.on_putB_self s (R.PART_Pn_RSTCTRL_HOLD p) false ⟨rfl⟩ ⟨rfl⟩
    rw [State.mustHold, hold, Bool.false_or, List.any_eq_false]
    intro j hj all
    rw [test, owner, Bool.and_eq_true, beq_iff_eq] at all
    exact tested j (List.mem_range.1 hj) all.1 all.2
  have step : s.holdPart p false = t.partRelease p := if_pos (by rw [state, held, free]; rfl)
  rw [step]
  exact t.partRelease_state hp
end
end Sys2Proof.Machine
end

section
/-!
PROOF. The wipe of a partition, and hardware locks and partition resets as the obligation states them (spec/17, R390 to R399).
-/
namespace Sys2Proof.Machine

/-! ### Registers that return to reset (Table 17.5) -/

theorem Tab.get_filterMap {α : Type} (d : α) (f : Nat × α → Option (Nat × α)) (k : Nat) (same : ∀ v, f (k, v) = some (k, v))
    (key : ∀ e e', f e = some e' → e'.1 = e.1) (t : Tab α) : Tab.get d (t.filterMap f) k = Tab.get d t k := by
  induction t with
  | nil => rfl
  | cons e t ih =>
    obtain ⟨j, v⟩ := e
    by_cases here : k = j
    · subst here
      rw [List.filterMap_cons_some (same v), Tab.get, Tab.get, if_pos rfl, if_pos rfl]
    · cases image : f (j, v) with
      | none => rw [List.filterMap_cons_none image, ih, Tab.get, if_neg here]
      | some e' =>
        have at_ : e'.1 = j := key _ _ image
        rw [List.filterMap_cons_some image, Tab.get, Tab.get, if_neg (at_ ▸ here), if_neg here, ih]
/-- A register of the device level is none of a partition's. -/
theorem State.partReg_dev {k : Nat} (dev : (regClassOf k).map (·.level) = some .dev) (s : State) (p : Nat) : s.partReg p k = none := by
  unfold State.partReg
  cases c : regClassOf k with
  | none => rfl
  | some c' =>
    rw [c] at dev
    have level : c'.level = .dev := Option.some.inj dev
    refine if_neg fun h => ?_
    rw [level] at h
    rcases h with ⟨h, -⟩ | ⟨h, -⟩ <;> cases h
theorem State.partRegs_rd (s : State) (p : Nat) {r : Reg} (dev : (regClassOf r.addr).map (·.level) = some .dev) : (s.partRegs p).rd r = s.rd r := by
  refine Tab.get_filterMap _ _ r.addr (fun v => ?_) (fun e e' h => ?_) s.regs.vals
  · simp only [State.partReg_dev dev]
  · split at h
    · split at h
      · cases h
      · exact (congrArg Prod.fst (Option.some.inj h)).symm
    · exact (congrArg Prod.fst (Option.some.inj h)).symm
/-- The registers that say what a partition is and whether it is held. -/
theorem partClass : ∀ n : Fin 8, ∀ o ∈ [0x00, 0x04, 0x14, 0x18, 0x1C], (regClassOf (0x40010000 + o + 0x40 * n.val)).map (·.level) = some .dev := by decide +kernel

theorem Still.posCold {β : Type} {g : State → β} {lo a : Nat} (k : Still g lo a) (s : State) {n : Nat} (hn : n < 16) (h : a ≤ 0x40100000) : g (s.posCold n) = g s := by
  have low : ∀ x : Nat, 0x40240000 ≤ x → a ≤ x ∨ x < lo := fun x hx => .inl (by omega)
  unfold State.posCold
  dsimp only [List.foldl]
  rw [k.posStart (.inl h) (.inl (by omega)) _ hn, k.put _ (R.POS_Pn_STATUS_IDX n) 0 (low _ (by simp only [R.POS_Pn_STATUS_IDX, R.POS_Pn_STATUS]; omega)),
    k.wr _ (R.POS_Pn_INFO n) _ (low _ (by simp only [R.POS_Pn_INFO]; omega)), k.wr _ (R.POS_Pn_SPEED n) _ (low _ (by simp only [R.POS_Pn_SPEED]; omega)),
    k.wr _ (R.POS_Pn_TIME_HI n) _ (low _ (by simp only [R.POS_Pn_TIME_HI]; omega)), k.wr _ (R.POS_Pn_TIME_LO n) _ (low _ (by simp only [R.POS_Pn_TIME_LO]; omega)), k.pos]
theorem State.clearCore_rd (s : State) (c : Nat) {r : Reg} (low : r.addr < 0x404C0000) : (s.clearCore c).rd r = s.rd r := s.stopCore_rd c r low
theorem State.partRest_rd (s : State) (p : Nat) {r : Reg} (low : r.addr < 0x40020000) : (s.partRest p).rd r = s.rd r := by
  have k := still_rd r
  have up : ∀ x : Nat, 0x40020000 ≤ x → r.addr + 1 ≤ x ∨ x < r.addr := fun x hx => .inl (by omega)
  unfold State.partRest
  extract_lets s1 s2 s3 s4 s5 s6 s7 s8
  have e1 : s1.rd r = s.rd r := State.each_keeps _ (fun c t => t.clearCore c) (State.rd · r) (fun c t => t.clearCore_rd c (by omega)) s
  have e2 : s2.rd r = s1.rd r := State.each_keeps _ _ (State.rd · r) (fun n t => k.channel t n _ (show r.addr + 1 ≤ 0x40100000 by omega)) s1
  have e3 : s3.rd r = s2.rd r := State.each_keeps _ (fun n t => t.setSch n { en := (t.sch n).en, avg := (t.sch n).avg, shift := (t.sch n).shift, void := true })
    (State.rd · r) (fun _ _ => rfl) s2
  have e4 : s4.rd r = s3.rd r := State.each_keeps_mem (State.rd · r) (fun n hn t => k.posCold t (List.mem_range.1 (List.mem_filter.1 hn).1) (by omega)) s3
  have e5 : s5.rd r = s4.rd r := State.each_keeps _ _ (State.rd · r) (fun n t => (k.units _ n none (by omega)).trans (k.pwm t _)) s4
  have e6 : s6.rd r = s5.rd r := State.each_keeps _ _ (State.rd · r) (fun l t => by
    have lead : ∀ u : State, (u.leadShort l).rd r = u.rd r := fun u =>
      (State.when_keeps _ (State.rd · r) _ (k.raises (.inl (by omega)) _ (by decide) 0)).trans (k.putBit u R.ABL_LEAD_SHORT_SHORT l _ (up 0x40220000 (by decide)))
    exact (lead _).trans ((k.links _ l (by omega)).trans (k.flink t l _ (by omega)))) s5
  have e7 : s7.rd r = s6.rd r := State.each_keeps _ (fun a t => t.setArm a {}) (State.rd · r) (fun _ _ => rfl) s6
  have e8 : s8.rd r = s7.rd r := State.each_keeps _ _ (State.rd · r) (fun j t => k.put t ⟨R.SUP_PAIRk_STATUS j, 2, 6⟩ _ (up _ (by simp only [R.SUP_PAIRk_STATUS]; omega))) s7
  have e9 : ∀ (u : State) x, ({ u with orphans := x } : State).rd r = u.rd r := fun _ _ => rfl
  exact (e9 s8 _).trans (e8.trans (e7.trans (e6.trans (e5.trans (e4.trans (e3.trans (e2.trans e1)))))))

/-! ### The wipe (R392) -/

theorem Mem.get_clear (m : List Host.Cell) {lo hi d : Nat} (h : lo ≤ d ∧ d < hi) : Mem.get (Mem.clear m lo hi) d = memDefault d := by
  unfold Mem.clear
  induction m with
  | nil => rfl
  | cons e m ih =>
    obtain ⟨j, v⟩ := e
    rw [List.filter_cons]
    split
    · next outside =>
      have ne : j ≠ d := by rintro rfl; simp [h] at outside
      rw [Mem.get, if_neg ne, ih]
    · exact ih
theorem Mem.get_clear_outside (m : List Host.Cell) {lo hi d : Nat} (h : ¬(lo ≤ d ∧ d < hi)) : Mem.get (Mem.clear m lo hi) d = Mem.get m d := by
  unfold Mem.clear
  induction m with
  | nil => rfl
  | cons e m ih =>
    obtain ⟨j, v⟩ := e
    rw [List.filter_cons]
    split
    · rw [Mem.get, Mem.get, ih]
    · next inside =>
      have ne : j ≠ d := by rintro rfl; simp at inside; omega
      rw [ih, Mem.get, if_neg ne]
/-- A byte of SRAM reads 0 once it is wiped, and stays so while other memories are wiped. -/
def ZeroAt (d : Nat) (s : State) : Prop := Mem.get s.mem d = 0#8
theorem ZeroAt.wipe {d : Nat} (ram : 0x10000000 ≤ d) {s : State} (h : ZeroAt d s) (lo hi : Nat) : ZeroAt d (s.wipe lo hi) := by
  by_cases inside : lo ≤ d ∧ d < hi
  · exact (Mem.get_clear s.mem inside).trans (if_neg (by omega))
  · exact (Mem.get_clear_outside s.mem inside).trans h
theorem State.wipe_zero (s : State) {d lo hi : Nat} (ram : 0x10000000 ≤ d) (inside : lo ≤ d ∧ d < hi) : ZeroAt d (s.wipe lo hi) :=
  (Mem.get_clear s.mem inside).trans (if_neg (by omega))
theorem State.byteAt_zero {s : State} {d : Nat} (ram : 0x10000000 ≤ d) (h : ZeroAt d s) : s.byteAt d = 0#8 := by
  have seed : s.mixSeed d = none := if_neg (by omega)
  simp only [State.byteAt, seed, if_neg (show ¬d < 0x40000 by omega)]
  exact h
theorem State.wipe_regs (s : State) (lo hi : Nat) : (s.wipe lo hi).regs = s.regs := rfl
theorem State.partWipeMem_regs (s : State) (p : Nat) : (s.partWipeMem p).regs = s.regs := by
  unfold State.partWipeMem
  extract_lets s1 s2
  have e1 : s1.regs = s.regs := State.each_keeps _ (fun b t => t.wipe (0x10000000 + 0xC0000 * b) (0x10000000 + 0xC0000 * (b + 1))) State.regs (fun _ t => t.wipe_regs _ _) s
  have e2 : s2.regs = s1.regs := State.each_keeps _ (fun c t => t.wipe (0x38000000 + 0x40000 * c) (0x38000000 + 0x40000 * (c + 1))) State.regs (fun _ t => t.wipe_regs _ _) s1
  have e3 : ∀ n, ∀ t : State, ((t.wipe (laneDataBase n) (laneDataBase n + 0x10000)).when (!t.laneBound n) fun t => t.wipe (laneCodeBase n) (laneCodeBase n + 0x10000)).regs = t.regs :=
    fun n t => (State.when_keeps (t.wipe (laneDataBase n) (laneDataBase n + 0x10000)) State.regs _ (State.wipe_regs _ _ _)).trans (t.wipe_regs _ _)
  exact (State.each_keeps _ _ State.regs e3 s2).trans (e2.trans e1)
theorem State.partWipeMem_zero (s : State) {p b d : Nat} (hb : b < 32) (owner : s.bankOwner b = p) (inside : 0x10000000 + 0xC0000 * b ≤ d ∧ d < 0x10000000 + 0xC0000 * (b + 1)) :
    ZeroAt d (s.partWipeMem p) := by
  have ram : 0x10000000 ≤ d := by omega
  unfold State.partWipeMem
  extract_lets s1 s2
  have e1 : ZeroAt d s1 := State.each_once_mem (f := fun b t => t.wipe (0x10000000 + 0xC0000 * b) (0x10000000 + 0xC0000 * (b + 1))) (x := b) (inv := fun _ => True) (goal := ZeroAt d)
    (List.nodup_range.filter fun b => s.bankOwner b == p) (List.mem_filter.2 ⟨List.mem_range.2 hb, beq_iff_eq.2 owner⟩) (fun _ _ _ _ h => h) (fun c _ _ t h => h.wipe ram _ _)
    (fun t _ => t.wipe_zero ram inside) trivial
  have e2 : ZeroAt d s2 := State.each_inv (P := ZeroAt d) (fun c t h => h.wipe ram _ _) _ e1
  refine State.each_inv (P := ZeroAt d) (f := fun n t => (t.wipe (laneDataBase n) (laneDataBase n + 0x10000)).when (!t.laneBound n) fun t =>
    t.wipe (laneCodeBase n) (laneCodeBase n + 0x10000)) (fun n t h => ?_) _ e2
  cases bound : !t.laneBound n
  · exact h.wipe ram _ _
  · exact (h.wipe ram _ _).wipe ram _ _
end Sys2Proof.Machine
end

section
/-!
PROOF. Partition resets from request to release, and the lock commands, as the obligation states them (spec/17, R390 to R399).
-/
namespace Sys2Proof.Machine

/-! ### The wipe and what follows it (R392, R393) -/

section
variable (s : State) {p : Nat}
theorem State.partRest_part {q : RF} (low : q.reg.addr < 0x40020000) (dev : (regClassOf q.reg.addr).map (·.level) = some .dev) :
    ((s.partRegs p).partRest p).get q = s.get q :=
  congrArg (fieldGet · q.lsb q.wid) ((State.partRest_rd _ p low).trans (s.partRegs_rd p dev))
/-- The wipe begins in WIPING, and the registers that say what a partition owns and whether it is held stay. -/
theorem State.partWipe_fields (hp : p < 8) (resets : s.partState p = 2 ∨ s.partState p = 3) : (s.partWipe p).partState p = 3 ∧
    ∀ n, n < 8 → ∀ o ∈ [0x00, 0x04, 0x14, 0x1C], ∀ r : Reg, r.addr = 0x40010000 + o + 0x40 * n → (s.partWipe p).rd r = s.rd r := by
  rcases resets with two | three
  · have step : s.partWipe p = ((s.put (R.PART_Pn_STATE_STATE p) 3).partRegs p).partRest p := if_pos two
    have state : (regClassOf (R.PART_Pn_STATE p).addr).map (·.level) = some .dev := partClass ⟨p, hp⟩ 0x18 (by decide)
    rw [step]
    refine ⟨(State.partRest_part _ (show 0x40010018 + 0x40 * p < 0x40020000 by omega) state).trans (State.get_put_self s (R.PART_Pn_STATE_STATE p) 3 ⟨rfl⟩), fun n hn o ho r at_ => ?_⟩
    have among : o ∈ [0x00, 0x04, 0x14, 0x18, 0x1C] := by clear at_; revert o; decide
    have small : o < 0x20 ∧ o ≠ 0x18 := by clear among at_; revert o; decide
    refine (State.partRest_rd _ p (by omega)).trans ((State.partRegs_rd _ p (at_ ▸ partClass ⟨n, hn⟩ o among)).trans
      (State.rd_put_ne s (R.PART_Pn_STATE_STATE p) r 3 (show r.addr ≠ 0x40010018 + 0x40 * p by omega)))
  · have step : s.partWipe p = s := if_neg (by rw [three]; decide)
    rw [step]
    exact ⟨three, fun _ _ _ _ _ _ => rfl⟩
theorem Tab.rd_regs {s t : State} (h : t.regs = s.regs) (r : Reg) : t.rd r = s.rd r := by rw [State.rd, State.rd, h]
theorem State.startCore_mem (c : Nat) (d : Word) : (s.startCore c d).mem = s.mem := by
  unfold State.startCore
  dsimp only
  split
  · rfl
  · rfl
theorem State.partStart_mem : (s.partStart p).mem = s.mem :=
  State.each_keeps (s.coresOf p) (fun c t => t.startCore c (t.rd (R.PART_Pn_BOOT p))) State.mem (fun c t => t.startCore_mem c _) s
theorem State.partRelease_mem : (s.partRelease p).mem = s.mem := by
  obtain ⟨t, step, start⟩ := s.partRelease_cases (p := p)
  refine (congrArg State.mem step).trans ((blind_mem.releaseLinks t (fun _ _ => rfl) (fun _ _ => rfl) (fun _ _ => rfl) (Nat.zero_le _)).trans ?_)
  rcases start with rfl | rfl | rfl
  · rfl
  · rfl
  · exact s.partStart_mem
theorem State.partWiped_fields (hp : p < 8) (resets : s.partState p = 2 ∨ s.partState p = 3) :
    (s.on (R.PART_Pn_RSTCTRL_HOLD p) = true → (s.partWiped p).partState p = 4) ∧
    ((s.partWiped p).partState p = 4 ∨ (s.partWiped p).partState p = 1 ∨ (s.partWiped p).partState p = 5) ∧
    ∀ b a, b < 32 → s.bankOwner b = p → 0x10000000 + 0xC0000 * b ≤ a → a < 0x10000000 + 0xC0000 * (b + 1) → (s.partWiped p).byteAt a = 0#8 := by
  obtain ⟨wiping, kept⟩ := s.partWipe_fields hp resets
  let t := s.partWipe p
  let u := t.partWipeMem p
  have regs : ∀ r, u.rd r = t.rd r := Tab.rd_regs (t.partWipeMem_regs p)
  have step : s.partWiped p = if u.mustHold p then u.put (R.PART_Pn_STATE_STATE p) 4 else u.partRelease p := if_neg (by rw [wiping]; decide)
  have owner : ∀ b, t.bankOwner b = s.bankOwner b := State.bankOwner_congr (fun n hn => kept n hn 0 (by decide) _ rfl) (fun n hn => kept n hn 4 (by decide) _ rfl)
  have mem : (s.partWiped p).mem = u.mem := by
    rw [step]
    split
    · rfl
    · exact u.partRelease_mem
  refine ⟨fun hold => ?_, ?_, fun b a hb own low high => ?_⟩
  · have here : u.on (R.PART_Pn_RSTCTRL_HOLD p) = true := (congrArg (fun v => fieldGet v 1 1 != 0) ((regs _).trans (kept p hp 0x1C (by decide) _ rfl))).trans hold
    rw [step, if_pos (State.mustHold_hold u here)]
    exact State.get_put_self u (R.PART_Pn_STATE_STATE p) 4 ⟨rfl⟩
  · rw [step]
    split
    · exact .inl (State.get_put_self u (R.PART_Pn_STATE_STATE p) 4 ⟨rfl⟩)
    · exact .inr (u.partRelease_state hp)
  · have zero : ZeroAt a u := t.partWipeMem_zero hb ((owner b).trans own) ⟨low, high⟩
    exact State.byteAt_zero (by omega) ((congrArg (Mem.get · a) mem).trans zero)
end

/-! ### What a reset does (R390 to R394) -/

/-- A reset of partition `p` with its cause is in ASSERTING, as `s` was before it. -/
def State.ResetBy (s : State) (p cause : Nat) (t : State) : Prop :=
  t.partState p = 2 ∧ t.get (R.PART_Pn_STATE_LAST_CAUSE p) = cause ∧ t.get (R.PART_Pn_STATE_RESETS p) = (s.get (R.PART_Pn_STATE_RESETS p) + 1) % 65536
section
variable {s : State} {p : Nat} {cause : Nat} (hp : p < 8) (h0 : s.partState p ≠ 0) (h2 : s.partState p ≠ 2) (h3 : s.partState p ≠ 3) (waits : s.get (R.SCFG_RQn_STAT_STATE p) ≠ 3)
include hp h0 h2 h3 waits
/-- Beside the request of a reload, a low register is as ASSERTING left it. -/
theorem State.partReset_rd {r : Reg} (low : r.addr < 0x40020000) (scfg : 0x40000200 ≤ r.addr) : (s.partReset p cause).rd r = (s.partAssert p cause).rd r :=
  (still_rd r).partReset (.inl low) (.inl (by omega)) (fun t n _ => (still_rd r).units t n none (by omega)) (fun _ _ => rfl) (.inr scfg) (fun _ => rfl) hp h0 h2 h3 waits
theorem State.partReset_fields (small : cause < 4) : s.ResetBy p cause (s.partReset p cause) := by
  have at_ : (R.PART_Pn_STATE p).addr = 0x40010018 + 0x40 * p := rfl
  have same : (s.partReset p cause).rd (R.PART_Pn_STATE p) = (s.asserting p cause).rd (R.PART_Pn_STATE p) :=
    (State.partReset_rd hp h0 h2 h3 waits (by omega) (by omega)).trans (s.partAssert_rd cause (by omega) (.inl (by omega)))
  obtain ⟨state, last, resets⟩ := s.asserting_fields (p := p) cause
  have field : ∀ lsb w, (s.partReset p cause).get ⟨R.PART_Pn_STATE p, lsb, w⟩ = (s.asserting p cause).get ⟨R.PART_Pn_STATE p, lsb, w⟩ :=
    fun lsb w => congrArg (fieldGet · lsb w) same
  exact ⟨(field _ _).trans state, (field _ _).trans (last.trans (Nat.mod_eq_of_lt small)), (field _ _).trans resets⟩
theorem State.partReset_rstctrl : (s.partReset p cause).rd (R.PART_Pn_RSTCTRL p) = s.rd (R.PART_Pn_RSTCTRL p) := by
  have at_ : (R.PART_Pn_RSTCTRL p).addr = 0x4001001C + 0x40 * p := rfl
  exact (State.partReset_rd hp h0 h2 h3 waits (by omega) (by omega)).trans ((s.partAssert_rd cause (by omega) (.inl (by omega))).trans (s.asserting_rd cause (by omega)))
theorem State.partReset_started {c : Nat} (hc : c < 8) (owner : s.coreOwner c = p) : ((s.partReset p cause).cpuAt c).started = false := by
  have k := still_core (c := c) (by omega)
  rw [k.partReset (.inl (Nat.zero_le _)) (.inl (Nat.zero_le _)) (fun t n _ => k.units t n none (Nat.zero_le _)) (fun _ _ => rfl) (.inl (Nat.zero_le _)) (fun _ => rfl) hp h0 h2 h3 waits]
  exact s.partAssert_started cause hc owner
theorem State.partReset_running {u : Nat} (hu : u < 32) (owner : s.owner 4 u = p) : (s.partReset p cause).on (R.PWM_Un_STATUS_RUNNING u) = false := by
  have at_ : (R.PWM_Un_STATUS_RUNNING u).reg.addr = 0x40181028 + 0x100 * u := rfl
  have same := (still_get (R.PWM_Un_STATUS_RUNNING u)).partReset (cause := cause) (.inr (.inl ⟨by omega, by omega⟩)) (.inl (by omega))
    (fun t n hn => t.settleUnit_get hn (running_unsettled u n) (.inl (by omega))) (fun _ _ => rfl) (.inr (by omega)) (fun _ => rfl) hp h0 h2 h3 waits
  exact (congrArg (· != 0) same).trans (s.partAssert_running cause hu owner)
theorem State.partReset_dma {d : Nat} (hd : d < 32) (owner : s.dmaOwner d = p) : (s.partReset p cause).dmaState d = 0 := by
  have at_ : (R.DMA_Cn_STATUS_STATE d).reg.addr = 0x40401010 + 0x40 * d := rfl
  have same := (still_get (R.DMA_Cn_STATUS_STATE d)).partReset (cause := cause) (.inr (.inr ⟨by omega, by omega⟩)) (.inr ⟨by omega, by omega⟩)
    (fun t n hn => t.settleUnit_get hn (RF.unsettled_of_ne (by omega) (by omega)) (.inr (by omega))) (fun _ _ => rfl) (.inr (by omega)) (fun _ => rfl) hp h0 h2 h3 waits
  exact same.trans (s.partAssert_dma cause hd owner)
theorem State.partReset_stat {k : Nat} (hk : k < 256) : (s.partReset p cause).rd (R.PART_LOCKk_STAT k) = (s.partAssert p cause).rd (R.PART_LOCKk_STAT k) := by
  have at_ : (R.PART_LOCKk_STAT k).addr = 0x40011008 + 0x10 * k := rfl
  exact State.partReset_rd hp h0 h2 h3 waits (by omega) (by omega)
theorem State.partReset_cancels (checking : s.get (R.SCFG_RQn_STAT_STATE p) = 1 ∨ s.get (R.SCFG_RQn_STAT_STATE p) = 2) :
    (s.partReset p cause).get (R.SCFG_RQn_STAT_STATE p) = 6 := by
  rw [State.partReset_asserts h0 h2 h3 waits, if_pos checking]
  exact State.cancelled_state _ hp
end

/-! ### Writes of SELF and RSTCTRL (R390, R393) -/

section
variable {s : State} {q : Requester} {p lvl : Nat}
theorem selfKey (key : Byte) : bit (key.toNat * 256 + 1) 0 = true ∧ bit (key.toNat * 256 + 1) 1 = false ∧ bitsOf (key.toNat * 256 + 1) 8 8 = key.toNat := by
  revert key
  decide +kernel
theorem partSelfWrite_wrong {key : Byte} (wrong : key ≠ 0x5A#8) : partSelfWrite p (key.toNat * 256 + 1) q lvl s = s := by
  obtain ⟨one, start, key_⟩ := selfKey key
  have other : (key.toNat == 0x5A) = false := beq_eq_false_iff_ne.2 fun h => wrong (BitVec.eq_of_toNat_eq h)
  simp only [partSelfWrite, one, start, key_, other, Bool.and_false, Bool.false_and, Bool.false_eq_true, if_false]
  split
  · next h => cases h
  · rfl
theorem selfKey_right : (bit ((0x5A#8).toNat * 256 + 1) 0 && bitsOf ((0x5A#8).toNat * 256 + 1) 8 8 == 0x5A) = true := by
  obtain ⟨one, -, key⟩ := selfKey 0x5A#8
  rw [one, key]
  rfl
theorem partSelfWrite_platform (top : s.viewOf q = platform) : partSelfWrite p ((0x5A#8).toNat * 256 + 1) q lvl s = s.partReset p 1 := by
  simp only [partSelfWrite, top, selfKey_right, if_true]
theorem partSelfWrite_core {m : Fin 9} (part : s.viewOf (.core m) ≠ platform) : partSelfWrite p ((0x5A#8).toNat * 256 + 1) (.core m) 2 s = s.partReset p 2 := by
  simp only [partSelfWrite, part, selfKey_right, if_true, if_false]
theorem partSelfWrite_pcie {f : Fin 8} (part : s.viewOf (.pcie f) ≠ platform) : partSelfWrite p ((0x5A#8).toNat * 256 + 1) (.pcie f) lvl s = s.partReset p 3 := by
  simp only [partSelfWrite, part, selfKey_right, if_false]
theorem partSelfWrite_start (who : s.viewOf q = platform ∨ ∃ f, q = .pcie f) (waiting : s.partState p = 5) : partSelfWrite p 2 q lvl s = s.partStart p := by
  have bits : bit 2 0 = false ∧ bit 2 1 = true := ⟨rfl, rfl⟩
  have five : (5 == 5) = true := rfl
  unfold partSelfWrite
  simp only [bits.1, bits.2, Bool.false_and, Bool.true_and, waiting, five, Bool.and_true]
  rcases who with top | ⟨f, rfl⟩
  · simp only [top, beq_self_eq_true, Bool.true_or, if_true]
  · simp only [Bool.or_true, if_true]
    split
    · next h => cases h
    · rfl
theorem rstctrl_bits (hold : Bool) : (bit (2 * hold.toNat) 0 = false ∧ bit (2 * hold.toNat) 1 = hold) ∧ bit (2 * hold.toNat + 1) 0 = true ∧ bit (2 * hold.toNat + 1) 1 = hold := by
  cases hold <;> decide
theorem rstctrlWrite_hold (hold : Bool) : rstctrlWrite p (2 * hold.toNat) s = s.holdPart p hold := by
  obtain ⟨⟨keep, h⟩, -⟩ := rstctrl_bits hold
  simp only [rstctrlWrite, keep, h, State.when_false]
theorem rstctrlWrite_reset (hold : Bool) : rstctrlWrite p (2 * hold.toNat + 1) s = (s.holdPart p hold).partReset p 1 := by
  obtain ⟨-, reset, h⟩ := rstctrl_bits hold
  simp only [rstctrlWrite, reset, h, State.when_true]
/-- A reset written with HOLD stops the partition, whatever HOLD made of it, and HOLD stays as written. -/
theorem rstctrlWrite_resets (hp : p < 8) (h0 : s.partState p ≠ 0) (h2 : s.partState p ≠ 2) (h3 : s.partState p ≠ 3) (waits : s.get (R.SCFG_RQn_STAT_STATE p) ≠ 3) (hold : Bool) :
    let t := rstctrlWrite p (2 * hold.toNat + 1) s
    t.partState p = 2 ∧ t.on (R.PART_Pn_RSTCTRL_HOLD p) = hold ∧ t.get (R.PART_Pn_STATE_LAST_CAUSE p) = 1 := by
  have state := s.holdPart_state hp hold
  have request : (s.holdPart p hold).get (R.SCFG_RQn_STAT_STATE p) = s.get (R.SCFG_RQn_STAT_STATE p) := by
    have at_ : (R.SCFG_RQn_STAT p).addr = 0x4000010C + 0x20 * p := rfl
    exact congrArg (fieldGet · (R.SCFG_RQn_STAT_STATE p).lsb (R.SCFG_RQn_STAT_STATE p).wid) ((s.holdPart_rd (r := R.SCFG_RQn_STAT p) (by omega) (by omega) hold).trans
      (State.rd_put_ne s (R.PART_Pn_RSTCTRL_HOLD p) _ _ (show (R.SCFG_RQn_STAT p).addr ≠ 0x4001001C + 0x40 * p by omega)))
  have w0 : (s.holdPart p hold).partState p ≠ 0 := by omega
  have w2 : (s.holdPart p hold).partState p ≠ 2 := by omega
  have w3 : (s.holdPart p hold).partState p ≠ 3 := by omega
  have free := request ▸ waits
  obtain ⟨two, last, -⟩ := State.partReset_fields (cause := 1) hp w0 w2 w3 free (by decide)
  dsimp only
  rw [rstctrlWrite_reset]
  exact ⟨two, (congrArg (fun v => fieldGet v 1 1 != 0) (State.partReset_rstctrl hp w0 w2 w3 free)).trans (s.holdPart_hold hp hold), last⟩
end
end Sys2Proof.Machine
end

section
/-!
PROOF. Hardware locks and partition resets as the obligation states them (spec/17, R390 to R399).
-/
namespace Sys2Proof.Machine

section
variable {s : State} {q : Requester} {k : Fin 256}
/-- The commands that write CTRL of a lock. -/
theorem lockCtrl_goes (acc : s.Accepts q .write (R.PART_LOCKk_CTRL k)) {P : State → Prop} (h : ∀ v, P (lockCtrlWrite q k v s)) :
    ∀ g ∈ [Instr.lockRelease q k, .lockRenew q k, .clearBroken q k, .forceRelease q k], Goes g s P := by
  intro g hg
  simp only [List.mem_cons, List.not_mem_nil, or_false] at hg
  rcases hg with rfl | rfl | rfl | rfl
  · exact ⟨_, regWrite_accepts _ acc, h 1⟩
  · exact ⟨_, regWrite_accepts _ acc, h 2⟩
  · exact ⟨_, regWrite_accepts _ acc, h 4⟩
  · exact ⟨_, regWrite_accepts _ acc, h 8⟩
variable (leased : ∃ e, s.lease k = some e ∧ s.since e.start < e.len * e.unit + ns 10) (mine : s.Mine q k)
include leased mine
theorem lockRelease_mine : (lockCtrlWrite q k 1 s).on (R.PART_LOCKk_STAT_HELD k) = false ∧ (lockCtrlWrite q k 1 s).get (R.PART_LOCKk_STAT_OWNER k) = 0x3F ∧
    (lockCtrlWrite q k 1 s).get (R.PART_LOCKk_STAT_BROKEN k) = s.get (R.PART_LOCKk_STAT_BROKEN k) := by
  obtain ⟨got, step⟩ := lockCtrlWrite_mine (fun _ => leased) mine 1 rfl
  have free : lockCtrlWrite q k 1 s = s.freeLock k := by
    have bits : bit 1 2 = false ∧ bit 1 1 = false ∧ bit 1 0 = true := ⟨rfl, rfl, rfl⟩
    simp only [step, bits.1, bits.2.1, bits.2.2, mine.1, State.when_false, State.when_true, Bool.and_true]
  obtain ⟨held, none, broken, -⟩ := s.freeLock_fields (k := k)
  rw [free]
  exact ⟨held, none, broken⟩
theorem lockRenew_mine : (lockCtrlWrite q k 2 s).on (R.PART_LOCKk_STAT_HELD k) = true ∧ (lockCtrlWrite q k 2 s).leaseLeft k = s.get (R.PART_LOCKk_LEASE_LEASE k) := by
  obtain ⟨got, step⟩ := lockCtrlWrite_mine (fun _ => leased) mine 2 rfl
  have renewed : lockCtrlWrite q k 2 s = s.startLease k got := by
    have bits : bit 2 2 = false ∧ bit 2 1 = true ∧ bit 2 0 = false := ⟨rfl, rfl, rfl⟩
    simp only [step, bits.1, bits.2.1, bits.2.2, mine.1, State.when_false, State.when_true, Bool.false_and, Bool.and_true]
  obtain ⟨left, held, -, -⟩ := s.startLease_fields k got
  rw [renewed]
  exact ⟨held.trans mine.1, left⟩
theorem clearBroken_mine : (lockCtrlWrite q k 4 s).on (R.PART_LOCKk_STAT_HELD k) = true ∧ (lockCtrlWrite q k 4 s).on (R.PART_LOCKk_STAT_BROKEN k) = false := by
  obtain ⟨got, step⟩ := lockCtrlWrite_mine (fun _ => leased) mine 4 rfl
  have cleared : lockCtrlWrite q k 4 s = s.put (R.PART_LOCKk_STAT_BROKEN k) 0 := by
    have bits : bit 4 2 = true ∧ bit 4 1 = false ∧ bit 4 0 = false := ⟨rfl, rfl, rfl⟩
    simp only [step, bits.1, bits.2.1, bits.2.2, State.when_false, State.when_true, Bool.false_and]
  rw [cleared]
  exact ⟨(State.on_put_beside s (R.PART_LOCKk_STAT_BROKEN k) (R.PART_LOCKk_STAT_HELD k) 0 ⟨rfl⟩ ⟨rfl⟩).trans mine.1, State.on_put_self s (R.PART_LOCKk_STAT_BROKEN k) 0 ⟨rfl⟩⟩
end
/-- A partition that is not the holder is recorded, and the lock stays. -/
theorem lockCtrlWrite_records {s : State} {q : Requester} {k : Fin 256} (leased : s.on (R.PART_LOCKk_STAT_HELD k) = true → ∃ e, s.lease k = some e ∧ s.since e.start < e.len * e.unit + ns 10)
    (foreign : ¬s.Mine q k) (low : s.viewOf q < 8) (v : Nat) :
    (lockCtrlWrite q k v s).on (R.PART_Pn_LOCKERR_NOT_OWNER (s.viewOf q)) = true ∧ (lockCtrlWrite q k v s).get (R.PART_Pn_LOCKERR_LOCK (s.viewOf q)) = k ∧
    (lockCtrlWrite q k v s).rd (R.PART_LOCKk_STAT k) = s.rd (R.PART_LOCKk_STAT k) := by
  rw [lockCtrlWrite_foreign leased foreign low]
  let t := s.put (R.PART_Pn_LOCKERR_NOT_OWNER (s.viewOf q)) 1
  refine ⟨(State.on_put_beside t (R.PART_Pn_LOCKERR_LOCK (s.viewOf q)) (R.PART_Pn_LOCKERR_NOT_OWNER (s.viewOf q)) k ⟨rfl⟩ ⟨rfl⟩).trans ?_, ?_,
    (s.lockErr_rd _ k 1 k).resolve_right (by omega)⟩
  · exact State.on_put_self s (R.PART_Pn_LOCKERR_NOT_OWNER (s.viewOf q)) 1 ⟨rfl⟩
  · exact (State.get_put_self t (R.PART_Pn_LOCKERR_LOCK (s.viewOf q)) k ⟨rfl⟩).trans (Nat.mod_eq_of_lt k.isLt)

/-- Settles O55, from the lemmas about each lock command, about ASSERTING with the cancelled reload, about the wipe, and about the release. -/
theorem locksAndPartitionResets : Obligations.LocksAndPartitionResets := by
  intro s q k p cause key hold f m held broken owner code mine freed leased breaks view st rq runs reset
  have hp := p.isLt
  have hk := k.isLt
  refine ⟨fun acc => ⟨fun free => ?_, fun held left => ?_, fun held left own => ?_, fun held left own => ?_⟩, fun acc => ⟨fun held out => ?_, fun own run => ⟨?_, ?_, ?_⟩,
      fun foreign run low => ?_, fun top held run => ?_⟩, fun held left => ?_, fun left => ?_, fun h0 h2 h3 waits => ?_, fun again => ?_, fun h0 h2 h3 waits => ?_,
    fun acc => ⟨fun top => ?_, fun part core lvl => ?_, fun part fn => ?_, fun wrong => ?_, fun who waiting => ?_⟩,
    fun acc => ⟨fun h0 h2 h3 waits => ?_, ?_, fun four tested => ?_⟩, fun wipes => ?_⟩
  · obtain ⟨t, step, here, own, left, -⟩ := s.lockAcquire_free q (Bool.eq_false_iff.2 free)
    exact ⟨_, regRead_accepts _ acc, by rw [step]; exact ⟨here, own, left, rfl⟩⟩
  · obtain ⟨t, step, here, own, left', cause⟩ := State.lockAcquire_expired q hk held left
    exact ⟨_, regRead_accepts _ acc, by rw [step]; exact ⟨here, own, left', cause, rfl⟩⟩
  · refine (regRead_accepts _ acc).trans (congrArg Host.Outcome.next ?_)
    rw [State.lockAcquire_held q held left, if_pos own]
  · refine (regRead_accepts _ acc).trans (congrArg Host.Outcome.next ?_)
    rw [State.lockAcquire_held q held left, if_neg own]
  · exact lockCtrl_goes acc fun v => lockCtrlWrite_expired hk held (fun e lease => Nat.not_lt.1 fun early => out ⟨e, lease, early⟩) v
  · obtain ⟨free, none, stays⟩ := lockRelease_mine run own
    exact ⟨_, regWrite_accepts _ acc, ⟨free, none⟩, stays⟩
  · exact ⟨_, regWrite_accepts _ acc, lockRenew_mine run own⟩
  · exact ⟨_, regWrite_accepts _ acc, clearBroken_mine run own⟩
  · exact lockCtrl_goes acc fun v => lockCtrlWrite_records run foreign low v
  · exact ⟨_, regWrite_accepts _ acc, lockCtrlWrite_force (fun _ => run) hk held top⟩
  · exact ⟨_, congrArg Host.Outcome.next (if_pos left), s.breakLock_breaks held (by decide) hk⟩
  · exact congrArg Host.Outcome.next (if_neg left)
  · obtain ⟨two, last, resets⟩ := State.partReset_fields (cause := cause) hp h0 h2 h3 waits cause.isLt
    have stat := State.partReset_stat (cause := cause) hp h0 h2 h3 waits hk
    refine ⟨_, rfl, two, last, resets, fun c hc own => State.partReset_started hp h0 h2 h3 waits hc own, fun u hu own => State.partReset_running hp h0 h2 h3 waits hu own,
      fun d hd own => State.partReset_dma hp h0 h2 h3 waits hd own, fun held own older => (State.partAssert_breaks cause hk held own hp older).of_rd stat,
      fun e held own lease young => ?_, State.partReset_cancels hp h0 h2 h3 waits⟩
    obtain ⟨⟨free, none⟩, stays⟩ := State.partAssert_frees cause hk held own hp lease young
    exact ⟨⟨(congrArg (fun v => fieldGet v 31 1 != 0) stat).trans free, (congrArg (fieldGet · 24 6) stat).trans none⟩, (congrArg (fieldGet · 30 1) stat).trans stays⟩
  · exact congrArg Host.Outcome.next (State.partReset_again again)
  · exact congrArg Host.Outcome.next (State.partReset_waits h0 h2 h3 waits)
  · exact (regWrite_accepts _ acc).trans (congrArg Host.Outcome.next (partSelfWrite_platform top))
  · subst core
    refine (regWrite_accepts _ acc).trans (congrArg Host.Outcome.next ?_)
    rw [lvl]
    exact partSelfWrite_core part
  · subst fn
    exact (regWrite_accepts _ acc).trans (congrArg Host.Outcome.next (partSelfWrite_pcie part))
  · exact (regWrite_accepts _ acc).trans (congrArg Host.Outcome.next (partSelfWrite_wrong wrong))
  · refine ⟨_, (regWrite_accepts _ acc).trans (congrArg Host.Outcome.next (partSelfWrite_start (who.imp_right fun h => ⟨f, h⟩) waiting)), s.partStart_fields hp⟩
  · exact ⟨_, regWrite_accepts _ acc, rstctrlWrite_resets hp h0 h2 h3 waits hold⟩
  · refine ⟨_, (regWrite_accepts _ acc).trans (congrArg Host.Outcome.next (rstctrlWrite_hold hold)), s.holdPart_hold hp hold, fun stays => ?_⟩
    rw [s.holdPart_stays (p := p) stays]
    exact s.putHold_state hold
  · exact ⟨_, (regWrite_accepts _ acc).trans (congrArg Host.Outcome.next (rstctrlWrite_hold false)), s.holdPart_releases hp four tested⟩
  · exact ⟨_, congrArg Host.Outcome.next (if_pos wipes), s.partWiped_fields hp wipes⟩
end Sys2Proof.Machine
end

section
/-!
PROOF. What clocks, gates and DOMAIN resets leave alone: the registers below the blocks, and the clock network's own state (spec/21, R470 to R479,
R521).
-/
namespace Sys2Proof.Machine

theorem State.ite_keeps {β : Type} (g : State → β) {c : Prop} [Decidable c] {s t u : State} (yes : c → g t = g s) (no : ¬c → g u = g s) : g (if c then t else u) = g s := by
  split
  · exact yes (by assumption)
  · exact no (by assumption)

/-- The function `g` lies below the blocks' registers and above the locks', and looks at no table that a DOMAIN reset clears. -/
structure Calm {β : Type} (g : State → β) (lo a : Nat) : Prop extends Still g lo a where
  scans (s : State) (x : Tab ScanConv) (y : Tab ScanChan) (z : List (Nat × Nat)) (w : List Sample) : g { s with scan := x, scanCh := y, dmaRound := z, fcOut := w } = g s
  pav (s : State) (x : Pav) : g { s with pav := x } = g s
  core (s : State) (n : Nat) (x : Cpu) : g (s.setCpuAt n x) = g s
  leases (s : State) (x : Tab Lease) : g { s with leases := x } = g s
  above : 0x40012000 ≤ lo
  below : a ≤ 0x40050040

/-- Such are the registers of clocks and power. -/
theorem calm_rd {r : Reg} (above : 0x40012000 ≤ r.addr) (below : r.addr < 0x40050040) : Calm (State.rd · r) r.addr (r.addr + 1) where
  toStill := still_rd r
  scans _ _ _ _ _ := rfl
  pav _ _ := rfl
  core _ _ _ := rfl
  leases _ _ := rfl
  above := above
  below := below
/-- And what the clock network keeps beside its registers. -/
theorem calm_clk : Calm State.clk 0x40012000 0 where
  toBlind := (blind_field (fun _ _ _ => rfl) (fun _ _ _ => rfl) (fun _ _ => rfl)).window _
  evm _ _ := rfl
  fc _ _ _ _ := rfl
  pwm _ _ := rfl
  link _ _ _ := rfl
  pos _ _ := rfl
  lane _ _ _ := rfl
  laneCpu _ _ _ _ := rfl
  ports _ _ _ _ _ _ := rfl
  dma _ _ := rfl
  memory _ _ _ _ _ := rfl
  scans _ _ _ _ _ := rfl
  pav _ _ := rfl
  core _ _ _ := rfl
  leases _ _ := rfl
  above := by decide
  below := by decide

namespace Still
variable {β : Type} {g : State → β} {lo a : Nat} (k : Still g lo a) (low : a ≤ 0x40100000)
include k low

/-! ### Clocks that start, stop and force (Table 21.3) -/

theorem domStarts (s : State) (d : Nat) : g (s.domStart d) = g s :=
  k.domStart (.inl low) (.inl (by omega)) (fun t n _ => k.units t n none (by omega)) s d
theorem groupLost (s : State) (j : Nat) : g (s.groupLost j) = g s := by
  have at_ : a ≤ 0x40180000 + 0x10 * j := by omega
  exact (State.each_keeps _ _ g (fun i t => (k.units _ _ none (by omega)).trans (k.pwm t _)) _).trans
    ((k.put _ (R.PWM_Gg_STATUS_SUBSTEP_OK j) 0 (.inl at_)).trans (k.put s (R.PWM_Gg_STATUS_ALIGNED j) 0 (.inl at_)))
theorem lanePause (s : State) (n : Nat) : g (s.lanePause n) = g s := by
  unfold State.lanePause
  split
  · exact k.setLane s n _ (by omega)
  · rfl
theorem calBreak (s : State) (j : Nat) : g (s.calBreak j) = g s := by
  have put : ∀ t : State, g (t.put (R.FCV_Gg_STATUS_STARTING j) 0) = g t := fun t => k.put t _ 0 (.inl (show a ≤ 0x40100000 + 0x10 * j by omega))
  unfold State.calBreak
  dsimp only
  split
  · exact (put _).trans (k.fc s s.fc _ s.cmpEvt)
  · exact put s
theorem noSignal (s : State) (j : Nat) : g (s.noSignal j) = g s :=
  State.each_keeps_mem g (fun n hn t => k.toBlind.portFault t (List.mem_range.1 (List.mem_filter.1 hn).1) 5 (.inl (by omega)) (.inl (by omega))) s
theorem settles (s : State) : g s.settleOutputs = g s :=
  (State.each_keeps _ _ g (fun l t => k.links t l (by omega)) _).trans (State.each_keeps _ _ g (fun n t => k.units t n none (by omega)) s)
theorem forceReach (s : State) (d : Nat) : g (s.forceReach d) = g s := by
  unfold State.forceReach
  split_ifs
  · exact State.each_keeps _ _ g (fun b t => k.forceBinding t b (by omega)) s
  · rfl
  · exact State.each_keeps _ _ g (fun i t => k.units t _ none (by omega)) s
  · exact k.settles low s
  · exact k.links s _ (by omega)
  · exact State.each_keeps _ _ g (fun i t => k.links t _ (by omega)) s
  · rfl
end Still

namespace Calm
variable {β : Type} {g : State → β} {lo a : Nat} (k : Calm g lo a)
include k
theorem low : a ≤ 0x40100000 := Nat.le_trans k.below (by decide)
theorem scanDrop (s : State) (j : Nat) : g (s.scanDrop j) = g s := by
  have at_ : a ≤ (R.SCV_Ck_STATUS_BUSY j).reg.addr := Nat.le_trans k.low (by simp only [R.SCV_Ck_STATUS_BUSY, R.SCV_Ck_STATUS]; omega)
  exact (State.each_keeps _ _ g (fun n t => k.scans t t.scan _ t.dmaRound t.fcOut) _).trans
    ((k.put _ (R.SCV_Ck_STATUS_BUSY j) 0 (.inl at_)).trans (k.scans s _ s.scanCh s.dmaRound s.fcOut))
theorem domStop (s : State) (d : Nat) : g (s.domStop d) = g s := by
  have low := k.low
  unfold State.domStop
  split_ifs with lanes converters scans position positions
  · exact k.lanePause low s d
  · exact (k.noSignal low _ _).trans (k.calBreak low s _)
  · exact k.scanDrop s _
  · exact k.toStill.posCold s (by omega) low
  · exact State.each_keeps_mem g (fun n hn t => k.toStill.posCold t (List.mem_range.1 hn) low) s
  · exact k.groupLost low s _
  · rfl

/-! ### A DOMAIN reset (R521) -/

theorem partnerLost (s : State) (b : Nat) (second : Bool) : g (s.partnerLost b second) = g s := by
  have low := k.low
  have at_ : a ≤ 0x4015101C + 0x40 * b := by omega
  unfold State.partnerLost
  extract_lets y t lost
  have marked : g t = g s := k.setBnd s b _
  split_ifs
  · refine (k.toBlind.raise _ _ 0 (by omega)).trans ((k.forceBinding _ b (by omega)).trans ((k.put _ (R.LNC_Bb_STATUS_MISSING b) 1 (.inl at_)).trans ((k.setBnd t b _).trans marked)))
  · exact marked
theorem laneFault (s : State) (n cause exc : Nat) (pc : Word) : g (s.laneFault n cause exc pc) = g s := by
  have low := k.low
  have fault : a ≤ (R.LNC_Ln_FAULT n).addr := by simp only [R.LNC_Ln_FAULT]; omega
  have fault_pc : a ≤ (R.LNC_Ln_FAULT_PC n).addr := by simp only [R.LNC_Ln_FAULT_PC]; omega
  unfold State.laneFault
  extract_lets hit begun s1
  have e1 : g s1 = g s := (k.toBlind.raise _ _ 0 (by omega)).trans ((k.wr _ (R.LNC_Ln_FAULT_PC n) pc (.inl fault_pc)).trans
    ((k.put _ (R.LNC_Ln_FAULT_EXC n) exc (.inl fault)).trans ((k.put _ (R.LNC_Ln_FAULT_CAUSE n) cause (.inl fault)).trans (k.stopLane s n (by omega)))))
  clear_value hit
  split
  · exact e1
  · next b =>
    extract_lets s2 s3 s4 s5
    have at_ : a ≤ (R.LNC_Bb_STATUS b).addr := by simp only [R.LNC_Bb_STATUS]; omega
    have e2 : g s2 = g s1 := k.put s1 (R.LNC_Bb_STATUS_FAULTED b) 1 (.inl at_)
    have e3 : g s3 = g s2 := State.each_keeps _ _ g (fun m t => k.stopLane t m (by omega)) s2
    have e4 : g s4 = g s3 := s3.when_keeps g _ ((k.bindStatus _ b (by omega)).trans (k.setBnd s3 b _))
    have e5 : g s5 = g s4 := s4.when_keeps g _ (k.forceBinding s4 b (by omega))
    have all := e5.trans (e4.trans (e3.trans (e2.trans e1)))
    split_ifs
    · exact (k.partnerLost s5 b _).trans all
    · exact all
theorem laneResetOwn (s : State) (n : Nat) : g (s.laneResetOwn n) = g s := by
  have low := k.low
  unfold State.laneResetOwn
  dsimp only
  refine (k.laneClear _ n (by omega)).trans ?_
  split
  · exact (k.bindStatus _ _ (by omega)).trans ((k.setBnd _ _ _).trans (k.laneFault s n 6 0 _))
  · rfl
theorem stopCore (s : State) (c : Nat) : g (s.stopCore c) = g s :=
  (k.put _ (R.DBG_Cc_STATUS_STATE c) 0 (.inl (Nat.le_trans k.below (by simp only [R.DBG_Cc_STATUS_STATE, R.DBG_Cc_STATUS]; omega)))).trans (k.core s c _)
theorem recFail (s : State) (cause : Nat) : g (s.recFail cause) = g s := by
  unfold State.recFail
  dsimp only
  split
  · rfl
  · exact (k.settles k.low _).trans ((k.put _ R.SUP_REC_STATUS_FORCE 1 (.inl (Nat.le_trans k.below (by decide)))).trans (k.pav s _))
theorem sesClear (s : State) : g s.sesClear = g s := by
  have below := k.below
  have each : ∀ (l : Tab SesResult) (t : State), g (l.foldl (fun t e => t.put (R.SES_Pp_CSTAT_BUSY e.1) 0) t) = g t := by
    intro l
    induction l with
    | nil => exact fun _ => rfl
    | cons e l ih => exact fun t => (ih _).trans (k.put t (R.SES_Pp_CSTAT_BUSY e.1) 0 (.inl (by simp only [R.SES_Pp_CSTAT_BUSY, R.SES_Pp_CSTAT]; omega)))
  exact (each _ _).trans (k.ports s s.fse _ s.eth s.ser s.pcie)
theorem domClear (s : State) (d : Nat) : g (s.domClear d) = g s := by
  have low := k.low
  unfold State.domClear
  refine State.ite_keeps g (fun _ => k.laneResetOwn s d) fun _ => ?_
  refine State.ite_keeps g (fun _ => k.lane s s.lane _) fun _ => ?_
  refine State.ite_keeps g (fun _ => (k.toBlind.breakLocks k.leases _ _ 2 k.above (by omega)).trans ((k.stopCore _ _).trans (k.stopCore s _))) fun _ => ?_
  refine State.ite_keeps g (fun _ => (k.recFail _ 5).trans (k.stopCore s 8)) fun _ => ?_
  refine State.ite_keeps g (fun _ => ?_) fun _ => ?_
  · refine State.each_keeps_mem g (fun c hc t => ?_) s
    dsimp only
    split
    · rfl
    · exact k.setChan (.inl (by omega)) t (List.mem_range.1 hc) _
  refine State.ite_keeps g (fun _ => k.scans s s.scan s.scanCh _ s.fcOut) fun _ => ?_
  refine State.ite_keeps g (fun _ => k.sesClear s) fun _ => ?_
  refine State.ite_keeps g (fun _ => (State.each_keeps _ _ g (fun i t => k.channel t _ _ (by omega)) _).trans ((k.domStop _ d).trans (k.scans s s.scan s.scanCh s.dmaRound _))) fun _ => ?_
  refine State.ite_keeps g (fun _ => k.flink s _ _ (by omega)) fun _ => ?_
  refine State.ite_keeps g (fun _ => State.each_keeps _ _ g (fun i t => k.flink t _ _ (by omega)) s) fun _ => ?_
  refine State.ite_keeps g (fun _ => k.ports s s.fse s.ses _ s.ser s.pcie) fun _ => ?_
  refine State.ite_keeps g (fun _ => k.ports s s.fse s.ses _ s.ser s.pcie) fun _ => ?_
  refine State.ite_keeps g (fun _ => State.each_keeps _ _ g (fun n t => k.ports t t.fse t.ses t.eth t.ser _) s) fun _ => ?_
  exact State.ite_keeps g (fun _ => State.each_keeps_mem g (fun n hn t => (k.toBlind.fseGate _ n (by omega)).trans (k.port (.inl (by omega)) t (List.mem_range.1 hn) _)) s) fun _ => k.domStop s d
end Calm
end Sys2Proof.Machine
end

section
/-!
PROOF. Gates, DOMAIN resets and failed sources (spec/21, R469 to R479).
-/
namespace Sys2Proof.Machine

/-! ### Fields of a domain's registers -/

/-- Fields of STATUS at different places share no bit, of whichever domains they are. -/
theorem status_off {d e i w j v : Nat} (h : i + w ≤ j ∨ j + v ≤ i) : RF.Off ⟨R.CLK_Dd_STATUS d, i, w⟩ ⟨R.CLK_Dd_STATUS e, j, v⟩ := by
  by_cases same : d = e
  · subst same
    exact .inr ⟨rfl, h⟩
  · exact .inl (show 0x40021004 + 8 * e ≠ 0x40021004 + 8 * d by omega)
theorem ctrl_off {d e i w j v : Nat} (h : i + w ≤ j ∨ j + v ≤ i) : RF.Off ⟨R.CLK_Dd_CTRL d, i, w⟩ ⟨R.CLK_Dd_CTRL e, j, v⟩ := by
  by_cases same : d = e
  · subst same
    exact .inr ⟨rfl, h⟩
  · exact .inl (show 0x40021000 + 8 * e ≠ 0x40021000 + 8 * d by omega)
theorem ctrl_status_off {d e i w j v : Nat} : RF.Off ⟨R.CLK_Dd_CTRL d, i, w⟩ ⟨R.CLK_Dd_STATUS e, j, v⟩ := .inl (show 0x40021004 + 8 * e ≠ 0x40021000 + 8 * d by omega)
theorem status_ctrl_off {d e i w j v : Nat} : RF.Off ⟨R.CLK_Dd_STATUS d, i, w⟩ ⟨R.CLK_Dd_CTRL e, j, v⟩ := .inl (show 0x40021000 + 8 * e ≠ 0x40021004 + 8 * d by omega)
/-- A field of another domain. -/
theorem status_other {d e : Nat} (ne : e ≠ d) {i w j v : Nat} : RF.Off ⟨R.CLK_Dd_STATUS d, i, w⟩ ⟨R.CLK_Dd_STATUS e, j, v⟩ :=
  .inl (show 0x40021004 + 8 * e ≠ 0x40021004 + 8 * d by omega)
theorem State.on_put_off (s : State) {f q : RF} (h : f.Off q) (x : Nat) : (s.put f x).on q = s.on q := congrArg (· != 0) (s.get_put_off h x)

/-- A field of the clock and power control. -/
def RF.Clock (q : RF) : Prop := 0x40012000 ≤ q.reg.addr ∧ q.reg.addr < 0x40050040
theorem clock_status {e j v : Nat} (he : e < 104) : RF.Clock ⟨R.CLK_Dd_STATUS e, j, v⟩ :=
  ⟨show 0x40012000 ≤ 0x40021004 + 8 * e by omega, show 0x40021004 + 8 * e < 0x40050040 by omega⟩
theorem clock_ctrl {e j v : Nat} (he : e < 104) : RF.Clock ⟨R.CLK_Dd_CTRL e, j, v⟩ :=
  ⟨show 0x40012000 ≤ 0x40021000 + 8 * e by omega, show 0x40021000 + 8 * e < 0x40050040 by omega⟩
/-- Such a field, seen as a function of the state. -/
theorem RF.Clock.calm {q : RF} (h : q.Clock) : Calm (State.rd · q.reg) q.reg.addr (q.reg.addr + 1) := calm_rd h.1 h.2
theorem RF.Clock.keeps {q : RF} {s t : State} (h : t.rd q.reg = s.rd q.reg) : t.get q = s.get q := congrArg (fieldGet · q.lsb q.wid) h
theorem RF.Clock.domStart {q : RF} (h : q.Clock) (s : State) (d : Nat) : (s.domStart d).get q = s.get q := keeps (h.calm.domStarts h.calm.low s d)
theorem RF.Clock.domStop {q : RF} (h : q.Clock) (s : State) (d : Nat) : (s.domStop d).get q = s.get q := keeps (h.calm.domStop s d)
theorem RF.Clock.domClear {q : RF} (h : q.Clock) (s : State) (d : Nat) : (s.domClear d).get q = s.get q := keeps (h.calm.domClear s d)
theorem RF.Clock.forceReach {q : RF} (h : q.Clock) (s : State) (d : Nat) : (s.forceReach d).get q = s.get q := keeps (h.calm.forceReach h.calm.low s d)
theorem RF.Clock.clkEvt {q : RF} (h : q.Clock) (s : State) : s.clkEvt.get q = s.get q :=
  keeps (h.calm.raises (.inl (Nat.le_trans h.calm.low (by decide))) s (by decide) 0)

/-! ### Gates (R470 to R472) -/

section
variable (s : State) (d : Nat)
/-- The registers of a gate that opens, before its blocks start. -/
def State.opened : State := ((({ s with clk := { s.clk with waiting := setBit s.clk.waiting d false } } : State).put (R.CLK_Dd_STATUS_RUNNING d) 1).inc (R.CLK_Dd_STATUS_STARTS d)).edgesNow d
theorem State.openGate_eq : s.openGate d = if s.gateOpen d then s else (s.opened d).domStart d := rfl
theorem State.edgesNow_get (q : RF) : (s.edgesNow d).get q = s.get q := rfl
theorem State.edgesGone_get (q : RF) : (s.edgesGone d).get q = s.get q := rfl
theorem State.clk_get (x : Clk) (q : RF) : ({ s with clk := x } : State).get q = s.get q := rfl
theorem State.opened_get {q : RF} (running : (R.CLK_Dd_STATUS_RUNNING d).Off q) (starts : (R.CLK_Dd_STATUS_STARTS d).Off q) : (s.opened d).get q = s.get q := by
  unfold State.opened
  rw [State.edgesNow_get, State.inc, State.get_put_off _ starts, State.get_put_off _ running, State.clk_get]
theorem State.opened_running : (s.opened d).get (R.CLK_Dd_STATUS_RUNNING d) = 1 := by
  unfold State.opened
  rw [State.edgesNow_get, State.inc, State.get_put_off _ (f := R.CLK_Dd_STATUS_STARTS d) (q := R.CLK_Dd_STATUS_RUNNING d) (status_off (.inr (by decide))),
    State.get_put_self _ (R.CLK_Dd_STATUS_RUNNING d) 1 ⟨rfl⟩]
  rfl
theorem State.opened_starts : (s.opened d).get (R.CLK_Dd_STATUS_STARTS d) = (s.get (R.CLK_Dd_STATUS_STARTS d) + 1) % 256 := by
  unfold State.opened
  rw [State.edgesNow_get, State.inc, State.get_put_self _ (R.CLK_Dd_STATUS_STARTS d) _ ⟨rfl⟩,
    State.get_put_off _ (f := R.CLK_Dd_STATUS_RUNNING d) (q := R.CLK_Dd_STATUS_STARTS d) (status_off (.inl (by decide))), State.clk_get]
  rfl
theorem State.opened_onSys : (s.opened d).clk.onSys = s.clk.onSys := rfl
/-- Beside RUNNING and STARTS of its domain, no field of the clock control sees a gate open. -/
theorem State.openGate_get {q : RF} (clock : q.Clock) (running : (R.CLK_Dd_STATUS_RUNNING d).Off q) (starts : (R.CLK_Dd_STATUS_STARTS d).Off q) :
    (s.openGate d).get q = s.get q := by
  rw [State.openGate_eq]
  split
  · rfl
  · exact (clock.domStart _ d).trans (s.opened_get d running starts)
theorem State.openGate_open (hd : d < 104) : (s.openGate d).gateOpen d = true := by
  rw [State.openGate_eq]
  split
  · assumption
  · have running : RF.Clock (R.CLK_Dd_STATUS_RUNNING d) := clock_status hd
    exact congrArg (· != 0) ((running.domStart _ d).trans (s.opened_running d))
theorem State.openGate_starts (hd : d < 104) (shut : s.gateOpen d = false) :
    (s.openGate d).get (R.CLK_Dd_STATUS_STARTS d) = (s.get (R.CLK_Dd_STATUS_STARTS d) + 1) % 256 := by
  have starts : RF.Clock (R.CLK_Dd_STATUS_STARTS d) := clock_status hd
  rw [State.openGate_eq, shut]
  exact (starts.domStart _ d).trans (s.opened_starts d)
theorem State.openGate_keeps {e : Nat} (he : e < 104) (open_ : s.gateOpen e = true) : (s.openGate d).gateOpen e = true := by
  by_cases same : e = d
  · subst same
    exact s.openGate_open e he
  · exact (congrArg (· != 0) (s.openGate_get d (clock_status he) (status_other same) (status_other same))).trans open_
theorem State.openGate_onSys : (s.openGate d).clk.onSys = s.clk.onSys := by
  rw [State.openGate_eq]
  split
  · rfl
  · exact (congrArg Clk.onSys (calm_clk.domStarts (by decide) (s.opened d) d)).trans (s.opened_onSys d)

/-- The registers of a gate that closes, before its blocks stop. -/
def State.shutting : State :=
  let t := ((s.put (R.CLK_Dd_STATUS_RUNNING d) 0).put (R.CLK_Dd_STATUS_HANG_LIVE d) 0).edgesGone d
  { t with clk := { t.clk with shut := t.clk.shut.set d t.now } }
theorem State.closeGate_eq : s.closeGate d = if s.gateOpen d then (s.shutting d).domStop d else s := rfl
theorem State.shutting_get {q : RF} (running : (R.CLK_Dd_STATUS_RUNNING d).Off q) (live : (R.CLK_Dd_STATUS_HANG_LIVE d).Off q) : (s.shutting d).get q = s.get q := by
  unfold State.shutting
  dsimp only
  rw [State.clk_get, State.edgesGone_get, State.get_put_off _ live, State.get_put_off _ running]
theorem State.shutting_running : (s.shutting d).get (R.CLK_Dd_STATUS_RUNNING d) = 0 := by
  unfold State.shutting
  dsimp only
  rw [State.clk_get, State.edgesGone_get, State.get_put_off _ (f := R.CLK_Dd_STATUS_HANG_LIVE d) (q := R.CLK_Dd_STATUS_RUNNING d) (status_off (.inr (by decide))),
    State.get_put_self _ (R.CLK_Dd_STATUS_RUNNING d) 0 ⟨rfl⟩]
  rfl
theorem State.shutting_onSys : (s.shutting d).clk.onSys = s.clk.onSys := rfl
theorem State.closeGate_get {q : RF} (clock : q.Clock) (running : (R.CLK_Dd_STATUS_RUNNING d).Off q) (live : (R.CLK_Dd_STATUS_HANG_LIVE d).Off q) :
    (s.closeGate d).get q = s.get q := by
  rw [State.closeGate_eq]
  split
  · exact (clock.domStop _ d).trans (s.shutting_get d running live)
  · rfl
theorem State.closeGate_shut (hd : d < 104) : (s.closeGate d).gateOpen d = false := by
  rw [State.closeGate_eq]
  split
  · have running : RF.Clock (R.CLK_Dd_STATUS_RUNNING d) := clock_status hd
    exact congrArg (· != 0) ((running.domStop _ d).trans (s.shutting_running d))
  · exact Bool.eq_false_iff.2 (by assumption)
theorem State.closeGate_keeps {e : Nat} (he : e < 104) (shut : s.gateOpen e = false) : (s.closeGate d).gateOpen e = false := by
  by_cases same : e = d
  · subst same
    exact s.closeGate_shut e he
  · exact (congrArg (· != 0) (s.closeGate_get d (clock_status he) (status_other same) (status_other same))).trans shut
theorem State.closeGate_onSys : (s.closeGate d).clk.onSys = s.clk.onSys := by
  rw [State.closeGate_eq]
  split
  · exact (congrArg Clk.onSys (calm_clk.domStop (s.shutting d) d)).trans (s.shutting_onSys d)
  · rfl

/-! ### DOMAIN reset and clock forces (R476, R479) -/

theorem State.holdDomain_get {q : RF} (clock : q.Clock) (hold : (R.CLK_Dd_CTRL_HOLD_RESET d).Off q) (reset : (R.CLK_Dd_STATUS_IN_RESET d).Off q) :
    (s.holdDomain d).get q = s.get q := by
  unfold State.holdDomain
  split
  · exact s.get_put_off hold 1
  · exact (clock.domClear _ d).trans ((State.get_put_off _ reset 1).trans (s.get_put_off hold 1))
theorem State.holdDomain_held (hd : d < 104) : (s.holdDomain d).on (R.CLK_Dd_CTRL_HOLD_RESET d) = true ∧ (s.holdDomain d).domReset d = true := by
  unfold State.holdDomain
  split
  · next reset =>
    exact ⟨State.on_put_self s (R.CLK_Dd_CTRL_HOLD_RESET d) 1 ⟨rfl⟩, (s.on_put_off (f := R.CLK_Dd_CTRL_HOLD_RESET d) (q := R.CLK_Dd_STATUS_IN_RESET d) ctrl_status_off 1).trans reset⟩
  · have hold : RF.Clock (R.CLK_Dd_CTRL_HOLD_RESET d) := clock_ctrl hd
    have reset : RF.Clock (R.CLK_Dd_STATUS_IN_RESET d) := clock_status hd
    refine ⟨(congrArg (· != 0) (hold.domClear _ d)).trans ?_, (congrArg (· != 0) (reset.domClear _ d)).trans ?_⟩
    · exact (State.on_put_off _ (f := R.CLK_Dd_STATUS_IN_RESET d) (q := R.CLK_Dd_CTRL_HOLD_RESET d) status_ctrl_off 1).trans (State.on_put_self s (R.CLK_Dd_CTRL_HOLD_RESET d) 1 ⟨rfl⟩)
    · exact State.on_put_self _ (R.CLK_Dd_STATUS_IN_RESET d) 1 ⟨rfl⟩
theorem State.holdDomain_clk : (s.holdDomain d).clk = s.clk := by
  unfold State.holdDomain
  split
  · rfl
  · exact calm_clk.domClear _ d
theorem State.domForce_get {q : RF} (clock : q.Clock) (forcing : (R.CLK_Dd_STATUS_FORCING d).Off q) : (s.domForce d).get q = s.get q := by
  unfold State.domForce
  split
  · exact (clock.forceReach _ d).trans (s.get_put_off forcing 1)
  · rfl
theorem State.domForce_forcing (hd : d < 104) (force : hasForce d = true) : (s.domForce d).forcing d = true := by
  have forcing : RF.Clock (R.CLK_Dd_STATUS_FORCING d) := clock_status hd
  unfold State.domForce
  rw [if_pos force]
  exact (congrArg (· != 0) (forcing.forceReach _ d)).trans (State.on_put_self s (R.CLK_Dd_STATUS_FORCING d) 1 ⟨rfl⟩)
theorem State.domForce_clk : (s.domForce d).clk = s.clk := by
  unfold State.domForce
  split
  · exact calm_clk.forceReach (by decide) _ d
  · rfl
end
end Sys2Proof.Machine
end

section
/-!
PROOF. Sources that fail, start and stop (spec/21, R469 to R479).
-/
namespace Sys2Proof.Machine

/-! ### Bits of the source registers -/

theorem fieldGet_bit (v : Word) (k : Nat) : (fieldGet v k 1 != 0) = v.toNat.testBit k := by
  have small := fieldGet_lt v k 1
  have low := fieldGet_testBit v k 1 0
  rw [Nat.testBit_zero] at low
  rw [BitVec.testBit_toNat, ← Nat.add_zero k, ← Bool.true_and (v.getLsbD (k + 0)), ← show decide (0 < 1) = true from rfl, ← low, Nat.add_zero]
  have two : fieldGet v k 1 = 0 ∨ fieldGet v k 1 = 1 := by omega
  rcases two with h | h <;> rw [h] <;> rfl
theorem State.srcRuns_eq (s : State) (k : Nat) : s.srcRuns k = s.on ⟨R.CLK_SRC_STATUS, k, 1⟩ := (fieldGet_bit _ k).symm
theorem State.srcFailed_eq (s : State) (k : Nat) : s.srcFailed k = s.on ⟨R.CLK_SRC_FAIL, k, 1⟩ := (fieldGet_bit _ k).symm
theorem State.srcRuns_congr {s t : State} {k : Nat} (h : t.get ⟨R.CLK_SRC_STATUS, k, 1⟩ = s.get ⟨R.CLK_SRC_STATUS, k, 1⟩) : t.srcRuns k = s.srcRuns k := by
  rw [t.srcRuns_eq, s.srcRuns_eq]
  exact congrArg (· != 0) h
theorem State.srcFailed_congr {s t : State} {k : Nat} (h : t.get ⟨R.CLK_SRC_FAIL, k, 1⟩ = s.get ⟨R.CLK_SRC_FAIL, k, 1⟩) : t.srcFailed k = s.srcFailed k := by
  rw [t.srcFailed_eq, s.srcFailed_eq]
  exact congrArg (· != 0) h
theorem bit_word (v : Word) {k : Nat} (hk : k < 32) (b : Bool) (j : Nat) : bit (BitVec.ofNat 32 (setBit v.toNat k b)).toNat j = if j = k then b else bit v.toNat j := by
  simp only [bit, BitVec.toNat_ofNat, Nat.testBit_mod_two_pow, testBit_setBit]
  by_cases h : j < 32
  · simp only [h, decide_true, Bool.true_and]
  · have off : v.toNat.testBit j = false := Nat.testBit_lt_two_pow (Nat.lt_of_lt_of_le v.isLt (Nat.pow_le_pow_right (by decide) (by omega)))
    rw [if_neg (by omega), off, Bool.and_false]
theorem State.srcRuns_setSrc (s : State) {k : Nat} (hk : k < 32) (b : Bool) (j : Nat) : (s.setSrc k b).srcRuns j = if j = k then b else s.srcRuns j := by
  rw [State.srcRuns, State.setSrc, State.rd_wr_same]
  exact bit_word _ hk b j
theorem State.setSrc_rd (s : State) (k : Nat) (b : Bool) {r : Reg} (ne : r.addr ≠ 0x40020000) : (s.setSrc k b).rd r = s.rd r := State.rd_wr_ne _ _ _ _ ne
theorem State.setSrc_get (s : State) (k : Nat) (b : Bool) {q : RF} (ne : q.reg.addr ≠ 0x40020000) : (s.setSrc k b).get q = s.get q :=
  RF.Clock.keeps (s.setSrc_rd k b ne)
theorem State.setSrc_clk (s : State) (k : Nat) (b : Bool) : (s.setSrc k b).clk = s.clk := rfl
theorem State.srcOf_congr {s t : State} (h : t.clk.onSys = s.clk.onSys) (d : Nat) : t.srcOf d = s.srcOf d := by simp only [State.srcOf, h]
theorem clock_src {k : Nat} : RF.Clock ⟨R.CLK_SRC_STATUS, k, 1⟩ := ⟨show 0x40012000 ≤ 0x40020000 by decide, show 0x40020000 < 0x40050040 by decide⟩
theorem clock_fail {k : Nat} : RF.Clock ⟨R.CLK_SRC_FAIL, k, 1⟩ := ⟨show 0x40012000 ≤ 0x40020004 by decide, show 0x40020004 < 0x40050040 by decide⟩
/-- A register below those of the domains. -/
theorem src_status_off {d i w : Nat} {q : RF} (low : q.reg.addr < 0x40021000) : RF.Off ⟨R.CLK_Dd_STATUS d, i, w⟩ q := .inl (show q.reg.addr ≠ 0x40021004 + 8 * d by omega)
theorem src_ctrl_off {d i w : Nat} {q : RF} (low : q.reg.addr < 0x40021000) : RF.Off ⟨R.CLK_Dd_CTRL d, i, w⟩ q := .inl (show q.reg.addr ≠ 0x40021000 + 8 * d by omega)

/-! ### A source that fails (R479) -/

section
variable (s : State)
/-- What the failure of its source does to domain `d`. -/
def State.domainLost (d : Nat) : State := (((s.put (R.CLK_Dd_STATUS_SRC_FAIL d) 1).domForce d).closeGate d).holdDomain d
/-- Domain `e` has lost its source: its gate is closed, it is held in reset and its force is on. -/
def State.Lost (e : Nat) : Prop := s.gateOpen e = false ∧ s.domReset e = true ∧ s.on (R.CLK_Dd_CTRL_HOLD_RESET e) = true ∧
  s.on (R.CLK_Dd_STATUS_SRC_FAIL e) = true ∧ (hasForce e = true → s.forcing e = true)
theorem State.domainLost_get (d : Nat) {q : RF} (clock : q.Clock) (src : (R.CLK_Dd_STATUS_SRC_FAIL d).Off q) (forcing : (R.CLK_Dd_STATUS_FORCING d).Off q)
    (running : (R.CLK_Dd_STATUS_RUNNING d).Off q) (live : (R.CLK_Dd_STATUS_HANG_LIVE d).Off q) (hold : (R.CLK_Dd_CTRL_HOLD_RESET d).Off q)
    (reset : (R.CLK_Dd_STATUS_IN_RESET d).Off q) : (s.domainLost d).get q = s.get q := by
  rw [State.domainLost, State.holdDomain_get _ d clock hold reset, State.closeGate_get _ d clock running live, State.domForce_get _ d clock forcing, State.get_put_off _ src]
theorem State.domainLost_low (d : Nat) {q : RF} (clock : q.Clock) (low : q.reg.addr < 0x40021000) : (s.domainLost d).get q = s.get q :=
  s.domainLost_get d clock (src_status_off low) (src_status_off low) (src_status_off low) (src_status_off low) (src_ctrl_off low) (src_status_off low)
theorem State.domainLost_runs (d j : Nat) : (s.domainLost d).srcRuns j = s.srcRuns j := State.srcRuns_congr (s.domainLost_low d clock_src (show 0x40020000 < 0x40021000 by decide))
theorem State.domainLost_failed (d j : Nat) : (s.domainLost d).srcFailed j = s.srcFailed j :=
  State.srcFailed_congr (s.domainLost_low d clock_fail (show 0x40020004 < 0x40021000 by decide))
theorem State.domainLost_onSys (d : Nat) : (s.domainLost d).clk.onSys = s.clk.onSys := by
  rw [State.domainLost, State.holdDomain_clk, State.closeGate_onSys, State.domForce_clk]
  rfl
theorem State.domainLost_lost {d : Nat} (hd : d < 104) : (s.domainLost d).Lost d := by
  let t := (s.put (R.CLK_Dd_STATUS_SRC_FAIL d) 1).domForce d
  let u := t.closeGate d
  have held := u.holdDomain_held d hd
  have kept : ∀ j, 6 + 1 ≤ j ∨ j + 1 ≤ 6 → (s.domainLost d).get ⟨R.CLK_Dd_STATUS d, j, 1⟩ = u.get ⟨R.CLK_Dd_STATUS d, j, 1⟩ := fun _ h =>
    u.holdDomain_get d (clock_status hd) ctrl_status_off (status_off h)
  refine ⟨(congrArg (· != 0) (kept 0 (.inr (by decide)))).trans (t.closeGate_shut d hd), held.2, held.1, ?_, fun force => ?_⟩
  · have before := State.domForce_get (s.put (R.CLK_Dd_STATUS_SRC_FAIL d) 1) d (q := R.CLK_Dd_STATUS_SRC_FAIL d) (clock_status hd) (status_off (.inr (by decide)))
    have gate := t.closeGate_get d (q := R.CLK_Dd_STATUS_SRC_FAIL d) (clock_status hd) (status_off (.inl (by decide))) (status_off (.inl (by decide)))
    exact (congrArg (· != 0) ((kept 4 (.inr (by decide))).trans (gate.trans before))).trans (State.on_put_self s (R.CLK_Dd_STATUS_SRC_FAIL d) 1 ⟨rfl⟩)
  · exact (congrArg (· != 0) ((kept 5 (.inr (by decide))).trans (t.closeGate_get d (clock_status hd) (status_off (.inl (by decide))) (status_off (.inl (by decide)))))).trans
      (State.domForce_forcing _ d hd force)
/-- What has lost its source stays so while others lose theirs. -/
theorem State.Lost.stays {s : State} {e : Nat} (h : s.Lost e) (he : e < 104) (d : Nat) : (s.domainLost d).Lost e := by
  by_cases same : e = d
  · subst same
    exact s.domainLost_lost he
  · have status : ∀ j v, (s.domainLost d).get ⟨R.CLK_Dd_STATUS e, j, v⟩ = s.get ⟨R.CLK_Dd_STATUS e, j, v⟩ := fun j v =>
      s.domainLost_get d (clock_status he) (status_other same) (status_other same) (status_other same) (status_other same) ctrl_status_off (status_other same)
    have ctrl : (s.domainLost d).get (R.CLK_Dd_CTRL_HOLD_RESET e) = s.get (R.CLK_Dd_CTRL_HOLD_RESET e) :=
      s.domainLost_get d (clock_ctrl he) status_ctrl_off status_ctrl_off status_ctrl_off status_ctrl_off (.inl (show 0x40021000 + 8 * e ≠ 0x40021000 + 8 * d by omega)) status_ctrl_off
    obtain ⟨gate, reset, hold, src, force⟩ := h
    exact ⟨(congrArg (· != 0) (status 0 1)).trans gate, (congrArg (· != 0) (status 6 1)).trans reset, (congrArg (· != 0) ctrl).trans hold,
      (congrArg (· != 0) (status 4 1)).trans src, fun f => (congrArg (· != 0) (status 5 1)).trans (force f)⟩

/-- The source's own bits, before its domains lose it. -/
def State.sourceLost (k : Nat) : State :=
  let t := ({ s with clk := { s.clk with started := setBit s.clk.started k false } } : State).setSrc k false
  (t.wr R.CLK_SRC_FAIL (BitVec.ofNat 32 (setBit (t.rd R.CLK_SRC_FAIL).toNat k true))).when (!s.srcFailed k) fun s => s.clkEvt
theorem State.oneSourceFail_eq (k : Nat) : s.oneSourceFail k = (s.sourceLost k).each ((List.range 104).filter fun d => (s.sourceLost k).srcOf d == some k) fun d t => t.domainLost d := rfl
theorem State.sourceLost_fields {k : Nat} (hk : k < 24) : (∀ j, (s.sourceLost k).srcRuns j = if j = k then false else s.srcRuns j) ∧
    (∀ j, (s.sourceLost k).srcFailed j = if j = k then true else s.srcFailed j) ∧ (s.sourceLost k).clk.onSys = s.clk.onSys ∧
    ∀ q : RF, q.Clock → 0x40021000 ≤ q.reg.addr → (s.sourceLost k).get q = s.get q := by
  let u : State := { s with clk := { s.clk with started := setBit s.clk.started k false } }
  let t := u.setSrc k false
  let w := t.wr R.CLK_SRC_FAIL (BitVec.ofNat 32 (setBit (t.rd R.CLK_SRC_FAIL).toNat k true))
  have event : ∀ q : RF, q.Clock → (s.sourceLost k).get q = w.get q := fun q clock => State.when_keeps w (State.get · q) _ (clock.clkEvt w)
  have runs : ∀ j, w.srcRuns j = t.srcRuns j := fun j => congrArg (fun v : Word => bit v.toNat j) (State.rd_wr_ne t R.CLK_SRC_FAIL R.CLK_SRC_STATUS _ (by decide))
  have failed : t.rd R.CLK_SRC_FAIL = s.rd R.CLK_SRC_FAIL := u.setSrc_rd k false (by decide)
  refine ⟨fun j => ?_, fun j => ?_, ?_, fun q clock high => ?_⟩
  · exact (State.srcRuns_congr (event _ clock_src)).trans ((runs j).trans (u.srcRuns_setSrc (by omega) false j))
  · refine (State.srcFailed_congr (event _ clock_fail)).trans ?_
    rw [State.srcFailed, State.rd_wr_same, bit_word _ (by omega), failed]
    rfl
  · have kept : (s.sourceLost k).clk = w.clk := State.when_keeps w State.clk _ (calm_clk.raises (.inl (by decide)) w (p := 762) (by decide) 0)
    exact (congrArg Clk.onSys kept).trans rfl
  · refine (event q clock).trans ((RF.Clock.keeps (State.rd_wr_ne t R.CLK_SRC_FAIL q.reg _ (show q.reg.addr ≠ 0x40020004 by omega))).trans ?_)
    exact u.setSrc_get k false (by omega)
/-- What is known of source `j` and of a domain that it feeds. -/
def State.FailedSource (j e : Nat) (from_ : Option Nat) : Prop := s.srcFailed j = true ∧ s.srcRuns j = false ∧ (from_ = some j → s.Lost e)
theorem State.oneSourceFail_keeps {k e : Nat} (hk : k < 24) (he : e < 104) {j : Nat} {from_ : Option Nat} (h : s.FailedSource j e from_) : (s.oneSourceFail k).FailedSource j e from_ := by
  obtain ⟨runs, fails, -, same⟩ := s.sourceLost_fields hk
  obtain ⟨failed, stopped, lost⟩ := h
  rw [State.oneSourceFail_eq]
  refine State.each_inv (P := fun t => t.FailedSource j e from_) (fun d t h => ?_) _ ⟨?_, ?_, fun src => ?_⟩
  · obtain ⟨failed, stopped, lost⟩ := h
    exact ⟨(t.domainLost_failed d j).trans failed, (t.domainLost_runs d j).trans stopped, fun src => (lost src).stays he d⟩
  · rw [fails]
    split
    · rfl
    · exact failed
  · rw [runs]
    split
    · rfl
    · exact stopped
  · obtain ⟨gate, reset, hold, source, force⟩ := lost src
    have status : ∀ j v, (s.sourceLost k).get ⟨R.CLK_Dd_STATUS e, j, v⟩ = s.get ⟨R.CLK_Dd_STATUS e, j, v⟩ := fun j v => same _ (clock_status he) (show 0x40021000 ≤ 0x40021004 + 8 * e by omega)
    exact ⟨(congrArg (· != 0) (status 0 1)).trans gate, (congrArg (· != 0) (status 6 1)).trans reset,
      (congrArg (· != 0) (same _ (clock_ctrl he) (show 0x40021000 ≤ 0x40021000 + 8 * e by omega))).trans hold,
      (congrArg (· != 0) (status 4 1)).trans source, fun f => (congrArg (· != 0) (status 5 1)).trans (force f)⟩
theorem State.oneSourceFail_onSys {k : Nat} (hk : k < 24) : (s.oneSourceFail k).clk.onSys = s.clk.onSys := by
  obtain ⟨-, -, onSys, -⟩ := s.sourceLost_fields hk
  rw [State.oneSourceFail_eq]
  exact (State.each_keeps _ _ (fun t : State => t.clk.onSys) (fun d t => t.domainLost_onSys d) _).trans onSys
theorem State.oneSourceFail_fails {k e : Nat} (hk : k < 24) (he : e < 104) : (s.oneSourceFail k).FailedSource k e (s.srcOf e) := by
  obtain ⟨runs, fails, onSys, -⟩ := s.sourceLost_fields hk
  have own : (s.sourceLost k).srcFailed k = true ∧ (s.sourceLost k).srcRuns k = false := ⟨(fails k).trans (if_pos rfl), (runs k).trans (if_pos rfl)⟩
  have kept : ∀ t : State, ∀ d, t.srcFailed k = true ∧ t.srcRuns k = false → (t.domainLost d).srcFailed k = true ∧ (t.domainLost d).srcRuns k = false := by
    intro t d ⟨failed, stopped⟩
    exact ⟨(t.domainLost_failed d k).trans failed, (t.domainLost_runs d k).trans stopped⟩
  have bits := State.each_inv (P := fun t => t.srcFailed k = true ∧ t.srcRuns k = false) (f := fun d t => t.domainLost d) (fun d t h => kept t d h)
    ((List.range 104).filter fun d => (s.sourceLost k).srcOf d == some k) own
  rw [State.oneSourceFail_eq]
  refine ⟨bits.1, bits.2, fun src => ?_⟩
  have mem : e ∈ (List.range 104).filter fun d => (s.sourceLost k).srcOf d == some k :=
    List.mem_filter.2 ⟨List.mem_range.2 he, beq_iff_eq.2 ((State.srcOf_congr onSys e).trans src)⟩
  exact State.each_once_mem (f := fun d t => t.domainLost d) (x := e) (inv := fun _ => True) (goal := fun t => t.Lost e) (List.nodup_range.filter _) mem (fun _ _ _ _ h => h)
    (fun d _ _ t h => h.stays he d) (fun t _ => t.domainLost_lost he) trivial
/-- Sources that fail in turn have all failed. -/
theorem State.sourcesFail {e : Nat} (he : e < 104) {j : Nat} (l : List Nat) (hl : ∀ k ∈ l, k < 24) (s : State) (h : j ∈ l ∨ s.FailedSource j e (s.srcOf e)) :
    (l.foldl State.oneSourceFail s).FailedSource j e (s.srcOf e) := by
  induction l generalizing s with
  | nil => exact h.resolve_left List.not_mem_nil
  | cons k l ih =>
    have hk := hl k List.mem_cons_self
    have src : (s.oneSourceFail k).srcOf e = s.srcOf e := State.srcOf_congr (s.oneSourceFail_onSys hk) e
    have step := ih (fun k hk => hl k (List.mem_cons_of_mem _ hk)) (s.oneSourceFail k)
    rw [src] at step
    refine step ?_
    rcases h with h | h
    · rcases List.mem_cons.1 h with rfl | h
      · exact .inr (s.oneSourceFail_fails hk he)
      · exact .inl h
    · exact .inr (s.oneSourceFail_keeps hk he h)
end
end Sys2Proof.Machine
end

section
/-!
PROOF. Requests for clocks, PLLs, and writes of CLK_Dd_CTRL (spec/21, R469 to R480).
-/
namespace Sys2Proof.Machine

section
variable (s : State) {d : Nat}

/-! ### Requests (R472) -/

/-- A request leaves PARK (R485). -/
def State.woken : State := if s.get R.PWR_STATUS_STATE = 1 then s.put R.PWR_STATUS_STATE 0 else s
theorem State.woken_get {q : RF} (off : R.PWR_STATUS_STATE.Off q) : s.woken.get q = s.get q := by
  unfold State.woken
  split
  · exact s.get_put_off off 0
  · rfl
theorem State.woken_clk : s.woken.clk = s.clk := by
  unfold State.woken
  split
  · rfl
  · rfl
theorem State.woken_state (park : s.get R.PWR_STATUS_STATE = 1) : s.woken.get R.PWR_STATUS_STATE = 0 := by
  unfold State.woken
  rw [if_pos park]
  exact State.get_put_self s R.PWR_STATUS_STATE 0 ⟨rfl⟩
theorem State.woken_low {q : RF} (ne : q.reg.addr ≠ 0x40030004) : s.woken.get q = s.get q := s.woken_get (.inl ne)
/-- What feeds a domain is seen in the source registers and the multiplexer alone. -/
theorem State.fed_congr {s t : State} (src : ∀ k, t.srcRuns k = s.srcRuns k) (onSys : t.clk.onSys = s.clk.onSys) (d : Nat) : t.fed d = s.fed d := by
  simp only [State.fed, State.srcOf_congr onSys, src]
theorem State.woken_fed (d : Nat) : s.woken.fed d = s.fed d :=
  State.fed_congr (fun _ => State.srcRuns_congr (s.woken_low (show 0x40020000 ≠ 0x40030004 by decide))) (by rw [s.woken_clk]) d
/-- Domain `d` may open: its gate is closed, its clock can be gated, its mode is not OFF, and nothing holds it in reset. -/
def State.Opens (d : Nat) : Prop := s.gateOpen d = false ∧ ungated d = false ∧ s.domMode d ≠ 2 ∧ s.on (R.CLK_Dd_CTRL_HOLD_RESET d) = false
section
variable {s}
/-- PLL `k` starts, and domain `d` waits for it. -/
def State.awaitPll (s : State) (k d : Nat) : State := { s with clk := { s.clk with started := setBit s.clk.started k true, waiting := setBit s.clk.waiting d true } }
theorem State.Opens.free (o : s.Opens d) : (s.gateOpen d || ungated d || s.domMode d == 2 || s.on (R.CLK_Dd_CTRL_HOLD_RESET d)) = false := by
  obtain ⟨gate, gated, mode, hold⟩ := o
  rw [gate, gated, hold, beq_eq_false_iff_ne.2 mode]
  rfl
theorem State.request_opens (o : s.Opens d) (fed : s.fed d = true) : s.request d = s.woken.openGate d :=
  (if_neg (by rw [o.free]; decide)).trans (if_pos (show s.woken.fed d = true by rw [s.woken_fed, fed]))
theorem State.request_awaits (o : s.Opens d) {k : Nat} (fed : s.fed d = false) (src : s.srcOf d = some k) (pll : isPll k = true) (good : s.srcFailed k = false) :
    s.request d = s.woken.awaitPll k d := by
  have good' : s.woken.srcFailed k = false := (State.srcFailed_congr (s.woken_low (show 0x40020004 ≠ 0x40030004 by decide))).trans good
  have src' : s.woken.srcOf d = some k := (State.srcOf_congr (by rw [s.woken_clk]) d).trans src
  refine (if_neg (by rw [o.free]; decide)).trans ((if_neg (show ¬s.woken.fed d = true by rw [s.woken_fed, fed]; decide)).trans ?_)
  split
  · next j e =>
    obtain rfl : j = k := Option.some.inj (e.symm.trans src')
    exact if_pos (show (isPll j && !s.woken.srcFailed j) = true by rw [pll, good']; rfl)
  · next none => exact absurd (none.symm.trans src') nofun
theorem State.request_fed (hd : d < 104) (o : s.Opens d) (fed : s.fed d = true) : (s.request d).gateOpen d = true ∧
    (s.request d).get (R.CLK_Dd_STATUS_STARTS d) = (s.get (R.CLK_Dd_STATUS_STARTS d) + 1) % 256 ∧ (s.get R.PWR_STATUS_STATE = 1 → (s.request d).get R.PWR_STATUS_STATE = 0) := by
  have far : ∀ j v, s.woken.get ⟨R.CLK_Dd_STATUS d, j, v⟩ = s.get ⟨R.CLK_Dd_STATUS d, j, v⟩ := fun j v => s.woken_low (show 0x40021004 + 8 * d ≠ 0x40030004 by omega)
  have shut : s.woken.gateOpen d = false := (congrArg (· != 0) (far 0 1)).trans o.1
  have power : RF.Clock R.PWR_STATUS_STATE := ⟨by decide, by decide⟩
  have off : ∀ j v, RF.Off ⟨R.CLK_Dd_STATUS d, j, v⟩ R.PWR_STATUS_STATE := fun j v => .inl (show 0x40030004 ≠ 0x40021004 + 8 * d by omega)
  rw [State.request_opens o fed]
  exact ⟨s.woken.openGate_open d hd, (s.woken.openGate_starts d hd shut).trans (congrArg (fun x => (x + 1) % 256) (far 24 8)), fun park => (s.woken.openGate_get d power (off 0 1) (off 24 8)).trans (s.woken_state park)⟩
theorem State.request_starts (hd : d < 104) (o : s.Opens d) {j : Nat} (fed : s.fed d = false) (src : s.srcOf d = some j) (pll : isPll j = true) (good : s.srcFailed j = false) :
    (s.request d).clk.started.testBit j = true ∧ (s.request d).clk.waiting.testBit d = true ∧ (s.request d).gateOpen d = false := by
  have far : s.woken.get (R.CLK_Dd_STATUS_RUNNING d) = s.get (R.CLK_Dd_STATUS_RUNNING d) := s.woken_low (show 0x40021004 + 8 * d ≠ 0x40030004 by omega)
  rw [State.request_awaits o fed src pll good]
  exact ⟨testBit_setBit_same s.woken.clk.started j true, testBit_setBit_same s.woken.clk.waiting d true, (congrArg (· != 0) far).trans o.1⟩
end
/-- Beside the gate of its domain and the power state, no field of the clock control sees a request. -/
theorem State.request_get {q : RF} (clock : q.Clock) (power : R.PWR_STATUS_STATE.Off q) (running : (R.CLK_Dd_STATUS_RUNNING d).Off q)
    (starts : (R.CLK_Dd_STATUS_STARTS d).Off q) : (s.request d).get q = s.get q := by
  unfold State.request
  split
  · rfl
  · extract_lets u
    have woken : u.get q = s.get q := s.woken_get power
    clear_value u
    split
    · exact (u.openGate_get d clock running starts).trans woken
    · split
      · split
        · exact woken
        · exact woken
      · exact woken

/-! ### PLLs (R469) -/

theorem State.pllStop_fields {k : Nat} (hk : k < 32) : (s.pllStop k).srcRuns k = false ∧ (s.pllStop k).clk.started.testBit k = false :=
  ⟨(State.srcRuns_setSrc _ hk false k).trans (if_pos rfl), testBit_setBit_same s.clk.started k false⟩
theorem State.pllStop_get (k : Nat) {q : RF} (ne : q.reg.addr ≠ 0x40020000) : (s.pllStop k).get q = s.get q := State.setSrc_get _ k false ne
/-- A PLL that locks opens the gates that wait for it. -/
theorem State.pllLock_locks {k : Nat} (hk : k < 24) (pll : isPll k = true) (started : s.clk.started.testBit k = true) (off : s.srcRuns k = false) (ref : s.srcRuns 0 = true ∨ 8 ≤ k) :
    (s.pllLock k).srcRuns k = true ∧ ∀ d, d < 104 → s.clk.waiting.testBit d = true → s.srcOf d = some k → (s.pllLock k).gateOpen d = true := by
  let t := s.setSrc k true
  have step : s.pllLock k = t.each ((List.range 104).filter fun d => bit t.clk.waiting d && t.srcOf d == some k) fun d t => t.openGate d := by
    refine if_pos ?_
    have reference : (s.srcRuns 0 || decide (8 ≤ k)) = true := by simpa using ref
    rw [pll, bit, started, off, reference]
    rfl
  have runs : t.srcRuns k = true := (s.srcRuns_setSrc (by omega) true k).trans (if_pos rfl)
  have low : ∀ {d i v : Nat}, RF.Off ⟨R.CLK_Dd_STATUS d, i, v⟩ ⟨R.CLK_SRC_STATUS, k, 1⟩ := src_status_off (show 0x40020000 < 0x40021000 by decide)
  rw [step]
  refine ⟨?_, fun d hd waits src => ?_⟩
  · refine State.each_inv (P := fun t => t.srcRuns k = true) (fun d t h => ?_) _ runs
    exact (State.srcRuns_congr (t.openGate_get d clock_src low low)).trans h
  · have mem : d ∈ (List.range 104).filter fun d => bit t.clk.waiting d && t.srcOf d == some k := by
      refine List.mem_filter.2 ⟨List.mem_range.2 hd, ?_⟩
      have same : t.srcOf d = s.srcOf d := State.srcOf_congr rfl d
      have wait : bit t.clk.waiting d = true := waits
      simp only [wait, same, src, beq_self_eq_true, Bool.and_self]
    exact State.each_once_mem (f := fun d t => t.openGate d) (x := d) (inv := fun _ => True) (goal := fun t => t.gateOpen d = true) (List.nodup_range.filter _) mem
      (fun _ _ _ _ h => h) (fun e _ _ t h => t.openGate_keeps e hd h) (fun t _ => t.openGate_open d hd) trivial
theorem State.pllIdle_stops {k : Nat} (kind : k = 6 ∨ k = 8 ∨ k = 9 ∨ 16 ≤ k) (hk : k < 24) (keep : s.keep k = false)
    (idle : ∀ j, j < 104 → s.srcOf j = some k → s.gateOpen j = false ∧ s.clk.waiting.testBit j = false ∧ s.longShut j = true) : s.pllIdle k = s.pllStop k := by
  refine if_pos ?_
  have stops : (k = 6 || k = 8 || k = 9 || (16 ≤ k && k < 24)) = true := by
    simp only [Bool.or_eq_true, Bool.and_eq_true, decide_eq_true_eq]
    omega
  rw [stops, keep, Bool.not_false, Bool.true_and, Bool.true_and, List.all_eq_true]
  intro j hj
  by_cases src : s.srcOf j = some k
  · obtain ⟨gate, waits, long⟩ := idle j (List.mem_range.1 hj) src
    rw [gate, bit, waits, long]
    simp
  · rw [bne_iff_ne.2 src, Bool.true_or]

/-! ### SEL, HOLD_RESET and the multiplexer (R473, R475) -/

theorem State.selWrite_starts (two : twoSources d = true) (idle : s.on (R.CLK_Dd_STATUS_SWITCHING d) = false) (b : Bool) :
    (s.selWrite d b).on (R.CLK_Dd_CTRL_SEL d) = b ∧ (s.selWrite d b).on (R.CLK_Dd_STATUS_SWITCHING d) = (s.on (R.CLK_Dd_CTRL_SEL d) != b) := by
  unfold State.selWrite
  rw [two, idle, Bool.not_true, Bool.false_or, Bool.false_or]
  split
  · next same => exact ⟨beq_iff_eq.1 same, idle.trans (by rw [bne, same]; rfl)⟩
  · next differs =>
    have other : (s.on (R.CLK_Dd_CTRL_SEL d) != b) = true := by rw [bne, Bool.eq_false_iff.2 differs]; rfl
    refine ⟨?_, ?_⟩
    · refine (State.on_put_off _ (f := R.CLK_Dd_STATUS_SWITCHING d) (q := R.CLK_Dd_CTRL_SEL d) status_ctrl_off 1).trans ?_
      exact State.on_putB_self s (R.CLK_Dd_CTRL_SEL d) b ⟨rfl⟩ ⟨rfl⟩
    · rw [other]
      exact State.on_put_self _ (R.CLK_Dd_STATUS_SWITCHING d) 1 ⟨rfl⟩
theorem State.selWrite_ignored {b : Bool} (h : twoSources d = false ∨ s.on (R.CLK_Dd_STATUS_SWITCHING d) = true ∨ s.on (R.CLK_Dd_CTRL_SEL d) = b) : s.selWrite d b = s := by
  refine if_pos ?_
  rcases h with h | h | h
  · rw [h]; rfl
  · rw [h]; simp
  · rw [h]; simp
theorem State.selWrite_get (b : Bool) {q : RF} (sel : (R.CLK_Dd_CTRL_SEL d).Off q) (switching : (R.CLK_Dd_STATUS_SWITCHING d).Off q) : (s.selWrite d b).get q = s.get q := by
  unfold State.selWrite
  split
  · rfl
  · exact (State.get_put_off _ switching 1).trans (s.get_put_off sel _)
theorem State.selWrite_clk (b : Bool) : (s.selWrite d b).clk = s.clk := by
  unfold State.selWrite
  split
  · rfl
  · rfl
/-- The source of domain `d` has failed. -/
def State.lostSource (d : Nat) : Bool := match s.srcOf d with | some k => s.srcFailed k | none => false
theorem State.lostSource_congr {s t : State} (src : ∀ k, t.srcFailed k = s.srcFailed k) (onSys : t.clk.onSys = s.clk.onSys) (d : Nat) : t.lostSource d = s.lostSource d := by
  simp only [State.lostSource, State.srcOf_congr onSys, src]
theorem State.freeDomain_eq : s.freeDomain d = if !s.on (R.CLK_Dd_CTRL_HOLD_RESET d) then s else if !s.fed d || s.lostSource d then s else
    let t := (s.put (R.CLK_Dd_CTRL_HOLD_RESET d) 0).put (R.CLK_Dd_STATUS_IN_RESET d) 0
    if t.gateOpen d then t.domStart d else if t.domHeld d || t.requested d then t.request d else t := rfl
theorem State.freeDomain_get {q : RF} (clock : q.Clock) (hold : (R.CLK_Dd_CTRL_HOLD_RESET d).Off q) (reset : (R.CLK_Dd_STATUS_IN_RESET d).Off q)
    (power : R.PWR_STATUS_STATE.Off q) (running : (R.CLK_Dd_STATUS_RUNNING d).Off q) (starts : (R.CLK_Dd_STATUS_STARTS d).Off q) : (s.freeDomain d).get q = s.get q := by
  have released : ((s.put (R.CLK_Dd_CTRL_HOLD_RESET d) 0).put (R.CLK_Dd_STATUS_IN_RESET d) 0).get q = s.get q := (State.get_put_off _ reset 0).trans (s.get_put_off hold 0)
  rw [State.freeDomain_eq]
  split
  · rfl
  · split
    · rfl
    · dsimp only
      split
      · exact (clock.domStart _ d).trans released
      · split
        · exact (State.request_get _ clock power running starts).trans released
        · exact released
theorem State.freeDomain_frees (hd : d < 104) (hold : s.on (R.CLK_Dd_CTRL_HOLD_RESET d) = true) (fed : s.fed d = true) (good : s.lostSource d = false) :
    (s.freeDomain d).on (R.CLK_Dd_CTRL_HOLD_RESET d) = false ∧ (s.freeDomain d).domReset d = false := by
  let t := (s.put (R.CLK_Dd_CTRL_HOLD_RESET d) 0).put (R.CLK_Dd_STATUS_IN_RESET d) 0
  have held : t.on (R.CLK_Dd_CTRL_HOLD_RESET d) = false := (State.on_put_off _ (f := R.CLK_Dd_STATUS_IN_RESET d) (q := R.CLK_Dd_CTRL_HOLD_RESET d) status_ctrl_off 0).trans
    (State.on_put_self s (R.CLK_Dd_CTRL_HOLD_RESET d) 0 ⟨rfl⟩)
  have reset : t.on (R.CLK_Dd_STATUS_IN_RESET d) = false := State.on_put_self _ (R.CLK_Dd_STATUS_IN_RESET d) 0 ⟨rfl⟩
  have step : s.freeDomain d = if t.gateOpen d then t.domStart d else if t.domHeld d || t.requested d then t.request d else t := by
    rw [State.freeDomain_eq, hold, fed, good]
    rfl
  have kept : ∀ q : RF, q.Clock → R.PWR_STATUS_STATE.Off q → (R.CLK_Dd_STATUS_RUNNING d).Off q → (R.CLK_Dd_STATUS_STARTS d).Off q → (s.freeDomain d).get q = t.get q := by
    intro q clock power running starts
    rw [step]
    split
    · exact clock.domStart t d
    · split
      · exact t.request_get clock power running starts
      · rfl
  exact ⟨(congrArg (· != 0) (kept (R.CLK_Dd_CTRL_HOLD_RESET d) (clock_ctrl hd) (.inl (show 0x40021000 + 8 * d ≠ 0x40030004 by omega)) status_ctrl_off status_ctrl_off)).trans held,
    (congrArg (· != 0) (kept (R.CLK_Dd_STATUS_IN_RESET d) (clock_status hd) (.inl (show 0x40021004 + 8 * d ≠ 0x40030004 by omega)) (status_off (.inl (by decide)))
      (status_off (.inr (by decide))))).trans reset⟩
theorem State.freeDomain_stays (h : s.on (R.CLK_Dd_CTRL_HOLD_RESET d) = false ∨ s.fed d = false ∨ s.lostSource d = true) : s.freeDomain d = s := by
  rw [State.freeDomain_eq]
  rcases h with h | h | h
  · rw [h]; rfl
  · rw [h]; simp
  · rw [h]; simp
/-- The multiplexer of domain `d` stands where SEL says, and no switch runs. -/
def State.Connected (d : Nat) : Prop := s.on (R.CLK_Dd_STATUS_SWITCHING d) = false ∧ s.clk.onSys.testBit d = !s.on (R.CLK_Dd_CTRL_SEL d)
theorem State.connect_connected (d : Nat) : (s.connect d).Connected d :=
  ⟨State.on_put_self _ (R.CLK_Dd_STATUS_SWITCHING d) 0 ⟨rfl⟩, (testBit_setBit_same s.clk.onSys d (!s.on (R.CLK_Dd_CTRL_SEL d))).trans
    (congrArg (!·) (State.on_put_off ({ s with clk := { s.clk with onSys := setBit s.clk.onSys d (!s.on (R.CLK_Dd_CTRL_SEL d)) } } : State) (f := R.CLK_Dd_STATUS_SWITCHING d)
      (q := R.CLK_Dd_CTRL_SEL d) status_ctrl_off 0).symm)⟩
theorem State.connect_get (d : Nat) {q : RF} (off : (R.CLK_Dd_STATUS_SWITCHING d).Off q) : (s.connect d).get q = s.get q := State.get_put_off _ off 0
end
end Sys2Proof.Machine
end

section
/-!
PROOF. Commands of the clock control, power states and supply warnings (spec/21).
-/
namespace Sys2Proof.Machine

/-! ### Writes of CLK_Dd_CTRL (R473 to R480) -/

theorem ctrlBits (v : BitVec 2) : (bit v.toNat 0 = v.getLsbD 0 ∧ bit v.toNat 1 = v.getLsbD 1 ∧ bit v.toNat 2 = false ∧ bit v.toNat 3 = false) ∧
    (bit (4 + v.toNat) 0 = v.getLsbD 0 ∧ bit (4 + v.toNat) 1 = v.getLsbD 1 ∧ bit (4 + v.toNat) 2 = true ∧ bit (4 + v.toNat) 3 = false) ∧
    bit (8 + v.toNat) 0 = v.getLsbD 0 ∧ bit (8 + v.toNat) 1 = v.getLsbD 1 ∧ bit (8 + v.toNat) 2 = false ∧ bit (8 + v.toNat) 3 = true := by
  revert v
  decide
section
variable (s : State) {d : Nat} (v : BitVec 2)
/-- SEL and HOLD_RESET take their values. -/
def State.ctrlWritten (d : Nat) : State :=
  if v.getLsbD 1 then (s.selWrite d (v.getLsbD 0)).holdDomain d else (s.selWrite d (v.getLsbD 0)).freeDomain d
theorem clkCtrlWrite_plain : clkCtrlWrite d v.toNat s = s.ctrlWritten v d := by
  obtain ⟨⟨sel, hold, break_, clear⟩, -⟩ := ctrlBits v
  simp only [clkCtrlWrite, sel, hold, break_, clear, State.when_false, State.ctrlWritten]
theorem clkCtrlWrite_break : clkCtrlWrite d (4 + v.toNat) s = (s.ctrlWritten v d).breakSwitch d := by
  obtain ⟨-, ⟨sel, hold, break_, clear⟩, -⟩ := ctrlBits v
  simp only [clkCtrlWrite, sel, hold, break_, clear, State.when_false, State.when_true, State.ctrlWritten]
theorem clkCtrlWrite_clear : clkCtrlWrite d (8 + v.toNat) s = (s.ctrlWritten v d).clearForce d := by
  obtain ⟨-, -, sel, hold, break_, clear⟩ := ctrlBits v
  simp only [clkCtrlWrite, sel, hold, break_, clear, State.when_false, State.when_true, State.ctrlWritten]
/-- SEL and SWITCHING see the write of SEL alone. -/
theorem State.ctrlWritten_sel (hd : d < 104) : (s.ctrlWritten v d).get (R.CLK_Dd_CTRL_SEL d) = (s.selWrite d (v.getLsbD 0)).get (R.CLK_Dd_CTRL_SEL d) ∧
    (s.ctrlWritten v d).get (R.CLK_Dd_STATUS_SWITCHING d) = (s.selWrite d (v.getLsbD 0)).get (R.CLK_Dd_STATUS_SWITCHING d) := by
  have sel : RF.Clock (R.CLK_Dd_CTRL_SEL d) := clock_ctrl hd
  have switching : RF.Clock (R.CLK_Dd_STATUS_SWITCHING d) := clock_status hd
  unfold State.ctrlWritten
  split
  · exact ⟨State.holdDomain_get _ d sel (ctrl_off (.inr (by decide))) status_ctrl_off, State.holdDomain_get _ d switching ctrl_status_off (status_off (.inr (by decide)))⟩
  · exact ⟨State.freeDomain_get _ sel (ctrl_off (.inr (by decide))) status_ctrl_off (.inl (show 0x40021000 + 8 * d ≠ 0x40030004 by omega)) status_ctrl_off status_ctrl_off,
      State.freeDomain_get _ switching ctrl_status_off (status_off (.inr (by decide))) (.inl (show 0x40021004 + 8 * d ≠ 0x40030004 by omega))
        (status_off (.inl (by decide))) (status_off (.inr (by decide)))⟩
theorem State.ctrlWritten_starts (hd : d < 104) (two : twoSources d = true) (idle : s.on (R.CLK_Dd_STATUS_SWITCHING d) = false) :
    (s.ctrlWritten v d).on (R.CLK_Dd_CTRL_SEL d) = v.getLsbD 0 ∧ (s.ctrlWritten v d).on (R.CLK_Dd_STATUS_SWITCHING d) = (s.on (R.CLK_Dd_CTRL_SEL d) != v.getLsbD 0) := by
  obtain ⟨sel, switching⟩ := s.ctrlWritten_sel v hd
  obtain ⟨h, k⟩ := s.selWrite_starts two idle (v.getLsbD 0)
  exact ⟨(congrArg (· != 0) sel).trans h, (congrArg (· != 0) switching).trans k⟩
theorem State.ctrlWritten_ignored (hd : d < 104) (h : twoSources d = false ∨ s.on (R.CLK_Dd_STATUS_SWITCHING d) = true) :
    (s.ctrlWritten v d).on (R.CLK_Dd_CTRL_SEL d) = s.on (R.CLK_Dd_CTRL_SEL d) := by
  obtain ⟨sel, -⟩ := s.ctrlWritten_sel v hd
  rw [s.selWrite_ignored (h.imp id .inl)] at sel
  exact congrArg (· != 0) sel
variable {v}
theorem State.ctrlWritten_holds (hd : d < 104) (hold : v.getLsbD 1 = true) :
    (s.ctrlWritten v d).on (R.CLK_Dd_CTRL_HOLD_RESET d) = true ∧ (s.ctrlWritten v d).domReset d = true := by
  unfold State.ctrlWritten
  rw [if_pos hold]
  exact State.holdDomain_held _ d hd
/-- The write of SEL changes neither HOLD_RESET nor what feeds the domain. -/
theorem State.selWrite_same (b : Bool) : (s.selWrite d b).on (R.CLK_Dd_CTRL_HOLD_RESET d) = s.on (R.CLK_Dd_CTRL_HOLD_RESET d) ∧ (s.selWrite d b).fed d = s.fed d ∧
    (s.selWrite d b).lostSource d = s.lostSource d := by
  have low : ∀ q : RF, q.reg.addr < 0x40021000 → (s.selWrite d b).get q = s.get q := fun q low => s.selWrite_get b (src_ctrl_off low) (src_status_off low)
  have onSys : (s.selWrite d b).clk.onSys = s.clk.onSys := by rw [s.selWrite_clk]
  exact ⟨congrArg (· != 0) (s.selWrite_get b (q := R.CLK_Dd_CTRL_HOLD_RESET d) (ctrl_off (.inl (by decide))) status_ctrl_off),
    State.fed_congr (fun k => State.srcRuns_congr (low _ (show 0x40020000 < 0x40021000 by decide))) onSys d,
    State.lostSource_congr (fun k => State.srcFailed_congr (low _ (show 0x40020004 < 0x40021000 by decide))) onSys d⟩
theorem State.ctrlWritten_frees (hd : d < 104) (free : v.getLsbD 1 = false) (hold : s.on (R.CLK_Dd_CTRL_HOLD_RESET d) = true) (fed : s.fed d = true)
    (good : s.lostSource d = false) : (s.ctrlWritten v d).on (R.CLK_Dd_CTRL_HOLD_RESET d) = false ∧ (s.ctrlWritten v d).domReset d = false := by
  obtain ⟨h, f, l⟩ := s.selWrite_same (d := d) (v.getLsbD 0)
  unfold State.ctrlWritten
  rw [free]
  exact State.freeDomain_frees _ hd (h.trans hold) (f.trans fed) (l.trans good)
theorem State.ctrlWritten_free_eq (free : v.getLsbD 1 = false) (h : s.on (R.CLK_Dd_CTRL_HOLD_RESET d) = false ∨ s.fed d = false ∨ s.lostSource d = true) :
    s.ctrlWritten v d = s.selWrite d (v.getLsbD 0) := by
  obtain ⟨e, f, l⟩ := s.selWrite_same (d := d) (v.getLsbD 0)
  unfold State.ctrlWritten
  rw [free]
  exact State.freeDomain_stays _ (h.imp (e.trans ·) (.imp (f.trans ·) (l.trans ·)))
theorem State.breakSwitch_breaks (hold : s.on (R.CLK_Dd_CTRL_HOLD_RESET d) = true) : (s.breakSwitch d).on (R.CLK_Dd_STATUS_SWITCHING d) = false ∧
    (s.breakSwitch d).on (R.CLK_Dd_CTRL_HOLD_RESET d) = true ∧ (twoSources d = true → (s.breakSwitch d).Connected d) := by
  let t := if twoSources d then s.connect d else s.put (R.CLK_Dd_STATUS_SWITCHING d) 0
  have switching : t.on (R.CLK_Dd_STATUS_SWITCHING d) = false := by
    simp only [t]
    split
    · exact (s.connect_connected d).1
    · exact State.on_put_self s (R.CLK_Dd_STATUS_SWITCHING d) 0 ⟨rfl⟩
  have held : t.on (R.CLK_Dd_CTRL_HOLD_RESET d) = true := by
    simp only [t]
    split
    · exact (congrArg (· != 0) (s.connect_get d (q := R.CLK_Dd_CTRL_HOLD_RESET d) status_ctrl_off)).trans hold
    · exact (s.on_put_off (f := R.CLK_Dd_STATUS_SWITCHING d) (q := R.CLK_Dd_CTRL_HOLD_RESET d) status_ctrl_off 0).trans hold
  have mux : twoSources d = true → t.Connected d := fun two => by
    simp only [t, two, if_true]
    exact s.connect_connected d
  have live : ∀ q : RF, (R.CLK_Dd_STATUS_HANG_LIVE d).Off q → ((t.put (R.CLK_Dd_STATUS_HANG_LIVE d) 0).edgesNow d).get q = t.get q := fun q off => t.get_put_off off 0
  have step : s.breakSwitch d = if t.fed d && t.gateOpen d && t.on (R.CLK_Dd_STATUS_HANG_LIVE d) then (t.put (R.CLK_Dd_STATUS_HANG_LIVE d) 0).edgesNow d else t := if_pos hold
  rw [step]
  split
  · have s1 := live (R.CLK_Dd_STATUS_SWITCHING d) (status_off (.inr (by decide)))
    refine ⟨(congrArg (· != 0) s1).trans switching, (congrArg (· != 0) (live (R.CLK_Dd_CTRL_HOLD_RESET d) status_ctrl_off)).trans held, fun two => ?_⟩
    exact ⟨(congrArg (· != 0) s1).trans switching, (mux two).2.trans (congrArg (fun x => !(x != 0)) (live (R.CLK_Dd_CTRL_SEL d) status_ctrl_off)).symm⟩
  · exact ⟨switching, held, mux⟩
theorem State.breakSwitch_refused (hd : d < 104) (hold : s.on (R.CLK_Dd_CTRL_HOLD_RESET d) = false) : (s.breakSwitch d).on (R.CLK_Dd_STATUS_BREAK_REFUSED d) = true := by
  unfold State.breakSwitch
  rw [if_neg (by rw [hold]; decide)]
  split
  · assumption
  · have refused : RF.Clock (R.CLK_Dd_STATUS_BREAK_REFUSED d) := clock_status hd
    exact (congrArg (· != 0) (refused.clkEvt _)).trans (State.on_put_self s (R.CLK_Dd_STATUS_BREAK_REFUSED d) 1 ⟨rfl⟩)
theorem State.clearForce_clears (hd : d < 104) (edges : s.edgesOk d = true) (good : s.lostSource d = false) :
    (s.clearForce d).forcing d = false ∧ (s.clearForce d).on (R.CLK_Dd_STATUS_HANG d) = false := by
  have forcing : RF.Clock (R.CLK_Dd_STATUS_FORCING d) := clock_status hd
  have hang : RF.Clock (R.CLK_Dd_STATUS_HANG d) := clock_status hd
  have step : s.clearForce d = ((s.put (R.CLK_Dd_STATUS_HANG d) 0).put (R.CLK_Dd_STATUS_FORCING d) 0).forceReach d := if_pos (show (s.edgesOk d && !s.lostSource d) = true by rw [edges, good]; rfl)
  rw [step]
  refine ⟨(congrArg (· != 0) (forcing.forceReach _ d)).trans (State.on_put_self _ (R.CLK_Dd_STATUS_FORCING d) 0 ⟨rfl⟩), (congrArg (· != 0) (hang.forceReach _ d)).trans ?_⟩
  exact (State.on_put_off _ (f := R.CLK_Dd_STATUS_FORCING d) (q := R.CLK_Dd_STATUS_HANG d) (status_off (.inr (by decide))) 0).trans (State.on_put_self s (R.CLK_Dd_STATUS_HANG d) 0 ⟨rfl⟩)
theorem State.clearForce_stays (h : s.edgesOk d = false ∨ s.lostSource d = true) : s.clearForce d = s := by
  refine if_neg fun all => ?_
  obtain ⟨edges, good⟩ := Bool.and_eq_true_iff.1 all
  rcases h with h | h
  · rw [h] at edges
    exact Bool.false_ne_true edges
  · have good' : (!s.lostSource d) = true := good
    rw [h] at good'
    exact Bool.false_ne_true good'
end

/-! ### Missing edges, and sources without a detector (R476, R481, R483) -/

theorem RF.Clock.recFail {q : RF} (h : q.Clock) (s : State) (c : Nat) : (s.recFail c).get q = s.get q := keeps (h.calm.recFail s c)
section
variable (s : State) {d : Nat}
/-- The domain's own bits at a missing edge. -/
def State.silent (d : Nat) : State := ((s.put (R.CLK_Dd_STATUS_HANG d) 1).put (R.CLK_Dd_STATUS_HANG_LIVE d) 1).edgesGone d
theorem State.hang_get {q : RF} (clock : q.Clock) (watched : s.watched d = true) : ∃ t : State, (s.hang d).get q = (t.domForce d).get q ∧ (∀ r : RF, r.Clock → t.get r = (s.silent d).get r) := by
  let t := (s.silent d).when (!s.on (R.CLK_Dd_STATUS_HANG d)) fun s => s.clkEvt
  let u := (t.domForce d).when (d == 21) fun s => s.recFail 5
  have step : s.hang d = if stopsBlocks d then u.domStop d else u := if_pos watched
  have failed : u.get q = (t.domForce d).get q := State.when_keeps _ (State.get · q) _ (clock.recFail _ 5)
  refine ⟨t, ?_, fun r clock => State.when_keeps (s.silent d) (State.get · r) _ (clock.clkEvt _)⟩
  rw [step]
  split
  · exact (clock.domStop u d).trans failed
  · exact failed
theorem State.hang_fields (hd : d < 104) (watched : s.watched d = true) : (s.hang d).on (R.CLK_Dd_STATUS_HANG d) = true ∧ (s.hang d).on (R.CLK_Dd_STATUS_HANG_LIVE d) = true ∧
    (hasForce d = true → (s.hang d).forcing d = true) := by
  have hang : (s.silent d).on (R.CLK_Dd_STATUS_HANG d) = true := (State.on_put_off _ (f := R.CLK_Dd_STATUS_HANG_LIVE d) (q := R.CLK_Dd_STATUS_HANG d) (status_off (.inl (by decide))) 1).trans
    (State.on_put_self s (R.CLK_Dd_STATUS_HANG d) 1 ⟨rfl⟩)
  have live : (s.silent d).on (R.CLK_Dd_STATUS_HANG_LIVE d) = true := State.on_put_self _ (R.CLK_Dd_STATUS_HANG_LIVE d) 1 ⟨rfl⟩
  have kept : ∀ j, j < 5 → (s.hang d).get ⟨R.CLK_Dd_STATUS d, j, 1⟩ = (s.silent d).get ⟨R.CLK_Dd_STATUS d, j, 1⟩ := fun j hj => by
    obtain ⟨t, step, same⟩ := s.hang_get (q := ⟨R.CLK_Dd_STATUS d, j, 1⟩) (clock_status hd) watched
    exact step.trans ((t.domForce_get d (clock_status hd) (status_off (.inr (by omega)))).trans (same _ (clock_status hd)))
  refine ⟨(congrArg (· != 0) (kept 3 (by decide))).trans hang, (congrArg (· != 0) (kept 2 (by decide))).trans live, fun force => ?_⟩
  obtain ⟨t, step, -⟩ := s.hang_get (q := R.CLK_Dd_STATUS_FORCING d) (clock_status hd) watched
  exact (congrArg (· != 0) step).trans (t.domForce_forcing d hd force)
end
end Sys2Proof.Machine
end

section
/-!
PROOF. Power states and supply warnings (spec/21, R484 to R492).
-/
namespace Sys2Proof.Machine

section
variable (s : State)

/-! ### Entries (R485, R486, R488) -/

theorem pwrKey (key : Byte) : ∀ k ∈ [1, 2, 3], bitsOf (key.toNat * 256 + k) 0 2 = k ∧ bitsOf (key.toNat * 256 + k) 8 8 = key.toNat := by
  intro k hk
  have small : k < 4 := by
    simp only [List.mem_cons, List.not_mem_nil, or_false] at hk
    omega
  have byte := key.isLt
  simp only [bitsOf]
  constructor <;> omega
theorem pwrCtrlWrite_off {key : Byte} (wrong : key ≠ 0xC3#8) {k : Nat} (hk : k ∈ [1, 2, 3]) : pwrCtrlWrite (key.toNat * 256 + k) s = s := by
  have other : (key.toNat != 0xC3) = true := bne_iff_ne.2 fun h => wrong (BitVec.eq_of_toNat_eq h)
  simp only [pwrCtrlWrite, (pwrKey key k hk).2, other, Bool.true_or, if_true]
theorem pwrCtrlWrite_key {k : Nat} (hk : k ∈ [1, 2, 3]) : pwrCtrlWrite ((0xC3#8).toNat * 256 + k) s =
    if s.entryRefusal k != 0 then ((s.put R.PWR_STATUS_REFUSE (s.entryRefusal k)).put R.PWR_STATUS_REFUSED 1).raise 763 else if k = 1 then s.enterPark else s.enterSleep k := by
  have some : (k == 0) = false := beq_eq_false_iff_ne.2 (by rintro rfl; simp at hk)
  obtain ⟨target, key⟩ := pwrKey 0xC3#8 k hk
  have right : ((0xC3#8).toNat != 0xC3) = false := rfl
  simp only [pwrCtrlWrite, target, key, some, right, Bool.or_false, Bool.false_eq_true, if_false]
theorem State.entryRefusal_lt (k : Nat) : s.entryRefusal k < 16 := by
  unfold State.entryRefusal
  split_ifs <;> decide
theorem State.refused_fields (r : Nat) (hr : r < 16) : let t := ((s.put R.PWR_STATUS_REFUSE r).put R.PWR_STATUS_REFUSED 1).raise 763
    t.on R.PWR_STATUS_REFUSED = true ∧ t.get R.PWR_STATUS_REFUSE = r ∧ t.chip = s.chip := by
  let u := (s.put R.PWR_STATUS_REFUSE r).put R.PWR_STATUS_REFUSED 1
  have event : ∀ q : RF, q.reg.addr < 0x40280000 → (u.raise 763).get q = u.get q := fun q low => (still_get q).raises (.inl (by omega)) u (by decide) 0
  refine ⟨(congrArg (· != 0) (event _ (by decide))).trans (State.on_put_self _ R.PWR_STATUS_REFUSED 1 ⟨rfl⟩), (event _ (by decide)).trans ?_, blind_chip.raise u 763 0 (Nat.zero_le _)⟩
  exact (State.get_put_beside _ R.PWR_STATUS_REFUSED R.PWR_STATUS_REFUSE 1 ⟨rfl⟩ ⟨rfl⟩).trans ((State.get_put_self s R.PWR_STATUS_REFUSE r ⟨rfl⟩).trans (Nat.mod_eq_of_lt hr))
/-- Of the gates that close one after the other, each stays closed. -/
theorem State.closeGates {e : Nat} (he : e < 104) {l : List Nat} (nodup : l.Nodup) (mem : e ∈ l) : (s.each l fun d t => t.closeGate d).gateOpen e = false :=
  State.each_once_mem (f := fun d t => t.closeGate d) (x := e) (inv := fun _ => True) (goal := fun t => t.gateOpen e = false) nodup mem (fun _ _ _ _ h => h)
    (fun d _ _ t h => t.closeGate_keeps d he h) (fun t _ => t.closeGate_shut e he) trivial
theorem State.ethLink_get (p : Nat) (lock hiBer : Bool) {q : RF} (low : q.reg.addr < 0x40280000) : (s.ethLink p lock hiBer).get q = s.get q := by
  have k := still_get q
  have status : q.reg.addr + 1 ≤ (R.ETH_Pp_STATUS p).addr := by simp only [R.ETH_Pp_STATUS]; omega
  unfold State.ethLink
  extract_lets up was u
  have base : u.get q = s.get q := (k.putB _ (R.ETH_Pp_STATUS_LINK_UP p) _ (.inl status)).trans
    ((k.putB _ (R.ETH_Pp_STATUS_HI_BER p) _ (.inl status)).trans (k.putB s (R.ETH_Pp_STATUS_BLOCK_LOCK p) _ (.inl status)))
  clear_value u
  have gone : (u.when (!up) fun s => s.setEth p { s.ethPort p with wire := none }).get q = u.get q := u.when_keeps (State.get · q) _ (k.ports u u.fse u.ses _ u.ser u.pcie)
  split
  · exact base
  · exact (k.toBlind.raise _ _ 0 (by omega)).trans ((k.put _ (R.ETH_Pp_STATUS_LINK_CHG p) 1 (.inl status)).trans (gone.trans base))
theorem State.enterPark_fields {e : Nat} (he : e < 104) : s.enterPark.get R.PWR_STATUS_STATE = 1 ∧ (ungated e = false → e ∉ parkDomains → s.enterPark.gateOpen e = false) := by
  refine ⟨State.get_put_self _ R.PWR_STATUS_STATE 1 ⟨rfl⟩, fun gated out => ?_⟩
  have low : (R.CLK_Dd_STATUS_RUNNING e).reg.addr < 0x40280000 := show 0x40021004 + 8 * e < 0x40280000 by omega
  have mem : e ∈ (List.range 104).filter fun d => !parkDomains.contains d && !ungated d := by
    refine List.mem_filter.2 ⟨List.mem_range.2 he, ?_⟩
    have other : parkDomains.contains e = false := Bool.eq_false_iff.2 fun h => out (List.contains_iff_mem.1 h)
    rw [other, gated]
    rfl
  unfold State.enterPark
  extract_lets t u v
  have shut : u.gateOpen e = false := t.closeGates he (List.nodup_range.filter _) mem
  have links : v.get (R.CLK_Dd_STATUS_RUNNING e) = u.get (R.CLK_Dd_STATUS_RUNNING e) :=
    State.each_keeps _ _ (State.get · (R.CLK_Dd_STATUS_RUNNING e)) (fun p t => t.ethLink_get p false false low) u
  exact (congrArg (· != 0) ((v.get_put_off (f := R.PWR_STATUS_STATE) (q := R.CLK_Dd_STATUS_RUNNING e) (.inl (show 0x40021004 + 8 * e ≠ 0x40030004 by omega)) 1).trans links)).trans shut

/-! ### STANDBY and DORMANT (R486) -/

/-- A register above those of the locks and below the blocks is none of a partition's reset. -/
theorem State.partAssert_off (p cause : Nat) (hp : p < 8) {r : Reg} (above : 0x40012000 ≤ r.addr) (below : r.addr < 0x40100000) : (s.partAssert p cause).rd r = s.rd r :=
  ((still_rd r).afterLocks s cause (by omega)).trans ((State.resetLocks_rd _ (.inr above) (.inl (by omega)) _).trans
    (((still_rd r).halted s p cause (by omega)).trans ((State.haltCores_rd _ p (by omega)).trans (s.asserting_rd cause (by omega)))))
theorem State.stopLink_rd (l : Nat) {r : Reg} (below : r.addr < 0x40100000) : (s.stopLink l).rd r = s.rd r := (still_rd r).leaveTo s l 0 (by omega)
theorem State.chip_rd (x : Chip) (r : Reg) : ({ s with chip := x } : State).rd r = s.rd r := rfl
theorem State.pllStop_rd (k : Nat) {r : Reg} (ne : r.addr ≠ 0x40020000) : (s.pllStop k).rd r = s.rd r :=
  State.setSrc_rd { s with clk := { s.clk with started := setBit s.clk.started k false } } k false ne
theorem State.closeGate_rd (d : Nat) {r : Reg} (above : 0x40012000 ≤ r.addr) (below : r.addr < 0x40050040) (ne : r.addr ≠ 0x40021004 + 8 * d) : (s.closeGate d).rd r = s.rd r := by
  rw [State.closeGate_eq]
  split
  · exact ((calm_rd above below).domStop (s.shutting d) d).trans ((State.rd_put_ne _ (R.CLK_Dd_STATUS_HANG_LIVE d) r 0 ne).trans (State.rd_put_ne s (R.CLK_Dd_STATUS_RUNNING d) r 0 ne))
  · rfl
theorem State.closeGates_rd {l : List Nat} (small : ∀ d ∈ l, d < 104) {r : Reg} (above : 0x40012000 ≤ r.addr) (below : r.addr < 0x40050040) (high : 0x40022000 ≤ r.addr) :
    (s.each l fun d t => t.closeGate d).rd r = s.rd r :=
  State.each_keeps_mem (State.rd · r) (fun d hd t => t.closeGate_rd d above below (by have := small d hd; omega)) s
theorem State.enterSleep_fields {e k : Nat} (he : e < 103) : (s.enterSleep k).chip.asleep = k ∧ (s.enterSleep k).rd R.SUP_FORCE_PWM = 0xFFFFFFFF#32 ∧
    (ungated e = false → (s.enterSleep k).gateOpen e = false) := by
  unfold State.enterSleep
  extract_lets s1 s2 s3 c s4 s5 s6 s7
  have power : ∀ {r : Reg}, r.addr = 0x40050020 → Calm (State.rd · r) r.addr (r.addr + 1) := fun h => calm_rd (by omega) (by omega)
  have calm := power (r := R.SUP_FORCE_PWM) rfl
  have e1 : s1.rd R.SUP_FORCE_PWM = 0xFFFFFFFF#32 := (calm.settles calm.low _).trans ((State.rd_wr_ne _ R.SUP_FORCE_LINK R.SUP_FORCE_PWM _ (by decide)).trans (State.rd_wr_same s R.SUP_FORCE_PWM _))
  have e2 : s2.rd R.SUP_FORCE_PWM = s1.rd R.SUP_FORCE_PWM := State.each_keeps _ _ (State.rd · R.SUP_FORCE_PWM) (fun l t => t.stopLink_rd l (by decide)) s1
  have e3 : s3.rd R.SUP_FORCE_PWM = s2.rd R.SUP_FORCE_PWM := by
    refine State.each_keeps_mem (State.rd · R.SUP_FORCE_PWM) (fun p hp t => ?_) s2
    split
    · rfl
    · exact t.partAssert_off p 1 (List.mem_range.1 (List.mem_filter.1 hp).1) (by decide) (by decide)
  have e4 : s4.rd R.SUP_FORCE_PWM = s3.rd R.SUP_FORCE_PWM := s3.chip_rd { c with latch := s3.latched } _
  have e5 : s5.rd R.SUP_FORCE_PWM = s4.rd R.SUP_FORCE_PWM := s4.closeGates_rd (fun d hd => by have := List.mem_range.1 (List.mem_filter.1 hd).1; omega) (by decide) (by decide) (by decide)
  have e6 : s6.rd R.SUP_FORCE_PWM = s5.rd R.SUP_FORCE_PWM := State.each_keeps _ _ (State.rd · R.SUP_FORCE_PWM) (fun k t => t.pllStop_rd k (by decide)) s5
  have e7 : s7.rd R.SUP_FORCE_PWM = s6.rd R.SUP_FORCE_PWM := s6.clearCore_rd 8 (by decide)
  refine ⟨rfl, e7.trans (e6.trans (e5.trans (e4.trans (e3.trans (e2.trans e1))))), fun gated => ?_⟩
  have mem : e ∈ (List.range 103).filter fun d => !ungated d := List.mem_filter.2 ⟨List.mem_range.2 he, by rw [gated]; rfl⟩
  have shut : s5.gateOpen e = false := s4.closeGates (by omega) (List.nodup_range.filter _) mem
  have after : s6.get (R.CLK_Dd_STATUS_RUNNING e) = s5.get (R.CLK_Dd_STATUS_RUNNING e) :=
    State.each_keeps _ _ (State.get · (R.CLK_Dd_STATUS_RUNNING e)) (fun k t => t.pllStop_get k (show 0x40021004 + 8 * e ≠ 0x40020000 by omega)) s5
  have last : s7.get (R.CLK_Dd_STATUS_RUNNING e) = s6.get (R.CLK_Dd_STATUS_RUNNING e) := RF.Clock.keeps (s6.clearCore_rd 8 (show 0x40021004 + 8 * e < 0x404C0000 by omega))
  exact (congrArg (· != 0) (last.trans after)).trans shut
end
end Sys2Proof.Machine
end

section
/-!
PROOF. Clocks, power states and supply warnings as the obligation states them (spec/21).
-/
namespace Sys2Proof.Machine

section
variable (s : State)

/-! ### Supply warnings (R490 to R492) -/

theorem State.flashHold_rd {r : Reg} (low : r.addr < 0x40280000) : s.flashHold.rd r = s.rd r :=
  State.each_keeps _ _ (State.rd · r) (fun b t => ((still_rd r).setFlashOp _ b _).trans ((still_rd r).pulseEnd (.inl (by omega)) t b)) s
/-- The place of monitor `m` in the supply registers. -/
theorem State.warn_eq (m : Nat) : s.warn m = s.bitOn (supBit R.PWR_SUP_LIVE_CORE R.PWR_SUP_LIVE_VDDIO m).1 (supBit R.PWR_SUP_LIVE_CORE R.PWR_SUP_LIVE_VDDIO m).2 := by
  unfold State.warn supBit
  split
  · rfl
  · rfl
theorem supBit_wide {core io : RF} (hc : core.wid = 7) (hi : io.wid = 8) {m : Nat} (hm : m < 16) (seven : m ≠ 7) : (supBit core io m).2 < (supBit core io m).1.wid := by
  unfold supBit
  split
  · show m < core.wid
    omega
  · show m - 8 < io.wid
    omega
theorem supBit_cases (core io : RF) (m : Nat) : (supBit core io m).1 = core ∨ (supBit core io m).1 = io := by
  unfold supBit
  split
  · exact .inl rfl
  · exact .inr rfl
theorem State.putWarn_rd (m : Nat) (b : Bool) : (s.putWarn m b).rd R.PWR_SUP_LIVE =
    (s.putBit (supBit R.PWR_SUP_LIVE_CORE R.PWR_SUP_LIVE_VDDIO m).1 (supBit R.PWR_SUP_LIVE_CORE R.PWR_SUP_LIVE_VDDIO m).2 b).rd R.PWR_SUP_LIVE := by
  have k := still_rd R.PWR_SUP_LIVE
  unfold State.putWarn
  extract_lets f t c u
  refine (k.settles (by decide) u).trans ?_
  simp only [u]
  split
  · exact k.flash t _
  · rfl
theorem State.warn_putWarn {m : Nat} (hm : m < 16) (seven : m ≠ 7) (b : Bool) : (s.putWarn m b).warn m = b := by
  rw [State.warn_eq]
  have live : ∀ t u : State, t.rd R.PWR_SUP_LIVE = u.rd R.PWR_SUP_LIVE → ∀ k, t.bitOn (supBit R.PWR_SUP_LIVE_CORE R.PWR_SUP_LIVE_VDDIO m).1 k =
      u.bitOn (supBit R.PWR_SUP_LIVE_CORE R.PWR_SUP_LIVE_VDDIO m).1 k := fun t u e k => by
    rcases supBit_cases R.PWR_SUP_LIVE_CORE R.PWR_SUP_LIVE_VDDIO m with h | h <;> rw [h] <;> exact congrArg (fun v => bit v k) (RF.Clock.keeps e)
  rw [live _ _ (s.putWarn_rd m b)]
  have fits : (supBit R.PWR_SUP_LIVE_CORE R.PWR_SUP_LIVE_VDDIO m).1.lsb + (supBit R.PWR_SUP_LIVE_CORE R.PWR_SUP_LIVE_VDDIO m).1.wid ≤ 32 := by
    rcases supBit_cases R.PWR_SUP_LIVE_CORE R.PWR_SUP_LIVE_VDDIO m with h | h <;> rw [h] <;> decide
  exact (State.bitOn_putBit s _ _ _ b fits (supBit_wide rfl rfl hm seven)).trans (if_pos rfl)
theorem State.warn_of_rd {s t : State} (h : t.rd R.PWR_SUP_LIVE = s.rd R.PWR_SUP_LIVE) (m : Nat) : t.warn m = s.warn m := by
  have core : ∀ k, t.bitOn R.PWR_SUP_LIVE_CORE k = s.bitOn R.PWR_SUP_LIVE_CORE k := fun k => congrArg (fun v => bit v k) (RF.Clock.keeps h)
  have io : ∀ k, t.bitOn R.PWR_SUP_LIVE_VDDIO k = s.bitOn R.PWR_SUP_LIVE_VDDIO k := fun k => congrArg (fun v => bit v k) (RF.Clock.keeps h)
  simp only [State.warn, core, io]
/-- The latch of monitor `m`. -/
def State.warnLatch (m : Nat) : Bool := if m < 8 then s.bitOn R.PWR_SUP_LATCH_CORE m else s.bitOn R.PWR_SUP_LATCH_VDDIO (m - 8)
theorem State.warnLatch_eq (m : Nat) : s.warnLatch m = s.bitOn (supBit R.PWR_SUP_LATCH_CORE R.PWR_SUP_LATCH_VDDIO m).1 (supBit R.PWR_SUP_LATCH_CORE R.PWR_SUP_LATCH_VDDIO m).2 := by
  unfold State.warnLatch supBit
  split
  · rfl
  · rfl
theorem State.warnLatch_of_rd {s t : State} (h : t.rd R.PWR_SUP_LATCH = s.rd R.PWR_SUP_LATCH) (m : Nat) : t.warnLatch m = s.warnLatch m := by
  have core : ∀ k, t.bitOn R.PWR_SUP_LATCH_CORE k = s.bitOn R.PWR_SUP_LATCH_CORE k := fun k => congrArg (fun v => bit v k) (RF.Clock.keeps h)
  have io : ∀ k, t.bitOn R.PWR_SUP_LATCH_VDDIO k = s.bitOn R.PWR_SUP_LATCH_VDDIO k := fun k => congrArg (fun v => bit v k) (RF.Clock.keeps h)
  simp only [State.warnLatch, core, io]
theorem State.warnUp_fields {m : Nat} (hm : m < 16) (seven : m ≠ 7) (watched : s.monitored m = true) (fresh : s.warn m = false) :
    (s.warnUp m).warn m = true ∧ (s.warnUp m).warnLatch m = true := by
  let f := supBit R.PWR_SUP_LATCH_CORE R.PWR_SUP_LATCH_VDDIO m
  let t := s.putWarn m true
  let u := (t.putBit f.1 f.2 true).raise 763
  have step : s.warnUp m = if m = 0 ∨ m = 2 ∨ m = 3 then u.flashHold else u := if_neg (by rw [watched, fresh]; decide)
  have kept : ∀ r : Reg, r.addr < 0x40280000 → (s.warnUp m).rd r = (t.putBit f.1 f.2 true).rd r := fun r low => by
    have event : u.rd r = (t.putBit f.1 f.2 true).rd r := (still_rd r).raises (.inl (by omega)) _ (p := 763) (by decide) 0
    rw [step]
    split
    · exact (u.flashHold_rd low).trans event
    · exact event
  have at_ : f.1.reg = R.PWR_SUP_LATCH := by
    rcases supBit_cases R.PWR_SUP_LATCH_CORE R.PWR_SUP_LATCH_VDDIO m with h | h <;> exact congrArg RF.reg h
  have live : (t.putBit f.1 f.2 true).rd R.PWR_SUP_LIVE = t.rd R.PWR_SUP_LIVE := (blind_rd R.PWR_SUP_LIVE).putBit t f.1 f.2 true (.inl (at_ ▸ (by decide : R.PWR_SUP_LIVE.addr + 1 ≤ R.PWR_SUP_LATCH.addr)))
  refine ⟨(State.warn_of_rd ((kept _ (by decide)).trans live) m).trans (s.warn_putWarn hm seven true), (State.warnLatch_of_rd (kept _ (by decide)) m).trans ?_⟩
  have fits : f.1.lsb + f.1.wid ≤ 32 := by
    rcases supBit_cases R.PWR_SUP_LATCH_CORE R.PWR_SUP_LATCH_VDDIO m with h | h <;> rw [show f.1 = _ from h] <;> decide
  rw [State.warnLatch_eq]
  exact (State.bitOn_putBit t f.1 f.2 f.2 true fits (supBit_wide rfl rfl hm seven)).trans (if_pos rfl)
theorem State.putWarn_chip (m : Nat) (b : Bool) : (s.putWarn m b).chip = s.chip := by
  unfold State.putWarn
  extract_lets f t c u
  have settled : u.settleOutputs.chip = u.chip := blind_chip.settleOutputs (fun _ _ => rfl) (fun _ _ => rfl) (fun _ _ => rfl) u (Nat.zero_le _)
  refine settled.trans ?_
  have bit : t.chip = s.chip := blind_chip.putBit s _ _ b (.inl (Nat.zero_le _))
  simp only [u]
  split
  · exact bit
  · exact bit
end

section
variable {s : State} {d : Fin 104} {v : BitVec 2} {q : Requester}
theorem State.relock_fields (w : Word) : (pllCtrlWrite (w.toNat ||| 1) s).rd R.CLK_PLL_CTRL = w &&& 0xFF0006#32 ∧
    ∀ k, k < 24 → isPll k = true → s.srcFailed k = true → (pllCtrlWrite (w.toNat ||| 1) s).clk.started.testBit k = true := by
  let t := s.wr R.CLK_PLL_CTRL (BitVec.ofNat 32 ((w.toNat ||| 1) &&& 0xFF0006))
  let restart := fun (k : Nat) (t : State) => ({ t with clk := { t.clk with started := setBit t.clk.started k true } } : State)
  let l := (List.range 24).filter fun k => isPll k && t.srcFailed k
  have step : pllCtrlWrite (w.toNat ||| 1) s = t.each l restart := by
    have bit : bit (w.toNat ||| 1) 0 = true := by simp [bit]
    simp only [pllCtrlWrite, bit, State.when_true]
    rfl
  have failed : ∀ k, t.srcFailed k = s.srcFailed k := fun k => congrArg (fun v : Word => bit v.toNat k) (State.rd_wr_ne s R.CLK_PLL_CTRL R.CLK_SRC_FAIL _ (by decide))
  rw [step]
  refine ⟨?_, fun k hk pll fail => ?_⟩
  · refine (State.each_keeps l restart (State.rd · R.CLK_PLL_CTRL) (fun _ _ => rfl) t).trans ((State.rd_wr_same s R.CLK_PLL_CTRL _).trans (BitVec.eq_of_toNat_eq ?_))
    have mask : (w.toNat ||| 1) &&& 0xFF0006 = w.toNat &&& 0xFF0006 := by
      rw [Nat.and_or_distrib_right]
      exact Nat.or_zero _
    have small : w.toNat &&& 0xFF0006 < 2 ^ 32 := Nat.lt_of_le_of_lt Nat.and_le_left w.isLt
    rw [BitVec.toNat_ofNat, mask, Nat.mod_eq_of_lt small, BitVec.toNat_and]
    rfl
  · have mem : k ∈ l := List.mem_filter.2 ⟨List.mem_range.2 hk, by rw [failed, pll, fail]; rfl⟩
    exact State.each_once_mem (f := restart) (x := k) (inv := fun _ => True) (goal := fun t => t.clk.started.testBit k = true) (List.nodup_range.filter _) mem (fun _ _ _ _ h => h)
      (fun j _ _ t h => (testBit_setBit t.clk.started j k true).trans (ite_eq_left_iff.2 fun _ => h)) (fun t _ => testBit_setBit_same t.clk.started k true) trivial
theorem State.brcFail_fields : let t := (((s.setSrc 2 false).put R.CLK_SRC_FAIL_BRC_FAIL 1).when (!s.srcFailed 2) fun s => s.clkEvt).recFail 6
    t.srcRuns 2 = false ∧ t.srcFailed 2 = true ∧ (s.get R.SUP_REC_STATUS_STATE ≠ 3 → t.on R.SUP_REC_STATUS_FORCE = true) := by
  let u := (s.setSrc 2 false).put R.CLK_SRC_FAIL_BRC_FAIL 1
  let w := u.when (!s.srcFailed 2) fun s => s.clkEvt
  have event : ∀ q : RF, q.reg.addr < 0x40280000 → w.get q = u.get q := fun q low => u.when_keeps (State.get · q) _ ((still_get q).raises (.inl (by omega)) u (p := 762) (by decide) 0)
  have kept : ∀ q : RF, q.Clock → (w.recFail 6).get q = u.get q := fun q clock => (clock.recFail w 6).trans (event q (Nat.lt_of_lt_of_le clock.2 (by decide)))
  have runs : u.get ⟨R.CLK_SRC_STATUS, 2, 1⟩ = (s.setSrc 2 false).get ⟨R.CLK_SRC_STATUS, 2, 1⟩ := State.get_put_ne _ R.CLK_SRC_FAIL_BRC_FAIL _ 1 (by decide)
  refine ⟨(State.srcRuns_congr ((kept _ clock_src).trans runs)).trans ((s.srcRuns_setSrc (by decide) false 2).trans rfl), ?_, fun state => ?_⟩
  · exact (State.srcFailed_congr (kept _ clock_fail)).trans ((u.srcFailed_eq 2).trans (State.on_put_self _ R.CLK_SRC_FAIL_BRC_FAIL 1 ⟨rfl⟩))
  · have before : w.get R.SUP_REC_STATUS_STATE = s.get R.SUP_REC_STATUS_STATE := (event _ (by decide)).trans
      ((State.get_put_ne _ R.CLK_SRC_FAIL_BRC_FAIL _ 1 (by decide)).trans (s.setSrc_get 2 false (by decide)))
    obtain ⟨force, -⟩ := State.recFail_failed (c := 6) (0 : Fin 32) (s := w) (before ▸ state)
    exact force
theorem State.xtalFail_fields (runs : s.srcRuns 1 = true) : ∃ t, execXtal32Fail s = .next t ∧ t.srcRuns 1 = false ∧ t.srcFailed 1 = true ∧
    t.on R.PWR_RTC_CTRL_XTAL32_FAIL = true ∧ t.on R.PWR_RTC_CTRL_VALID = false := by
  let a := (s.setSrc 1 false).put R.CLK_SRC_FAIL_XTAL32_FAIL 1
  let u := (a.put R.PWR_RTC_CTRL_XTAL32_FAIL 1).put R.PWR_RTC_CTRL_VALID 0
  let w := u.when (!s.srcFailed 1) fun s => s.clkEvt
  have event : ∀ q : RF, q.Clock → w.get q = u.get q := fun q clock => u.when_keeps (State.get · q) _ (clock.clkEvt u)
  have low : ∀ q : RF, q.reg.addr ≠ 0x40030030 → u.get q = a.get q := fun q ne =>
    (State.get_put_ne _ R.PWR_RTC_CTRL_VALID q 0 ne).trans (State.get_put_ne a R.PWR_RTC_CTRL_XTAL32_FAIL q 1 ne)
  have src : a.get ⟨R.CLK_SRC_STATUS, 1, 1⟩ = (s.setSrc 1 false).get ⟨R.CLK_SRC_STATUS, 1, 1⟩ := State.get_put_ne _ R.CLK_SRC_FAIL_XTAL32_FAIL _ 1 (by decide)
  have power : ∀ j v, RF.Clock ⟨R.PWR_RTC_CTRL, j, v⟩ := fun j v => ⟨show 0x40012000 ≤ 0x40030030 by decide, show 0x40030030 < 0x40050040 by decide⟩
  refine ⟨w, congrArg Host.Outcome.next (if_pos runs), ?_, ?_, ?_, ?_⟩
  · exact (State.srcRuns_congr ((event _ clock_src).trans ((low _ (by decide)).trans src))).trans ((s.srcRuns_setSrc (by decide) false 1).trans rfl)
  · exact (State.srcFailed_congr ((event _ clock_fail).trans (low _ (by decide)))).trans ((a.srcFailed_eq 1).trans (State.on_put_self _ R.CLK_SRC_FAIL_XTAL32_FAIL 1 ⟨rfl⟩))
  · exact (congrArg (· != 0) ((event _ (power 3 1)).trans (State.get_put_beside _ R.PWR_RTC_CTRL_VALID R.PWR_RTC_CTRL_XTAL32_FAIL 0 ⟨rfl⟩ ⟨rfl⟩))).trans
      (State.on_put_self a R.PWR_RTC_CTRL_XTAL32_FAIL 1 ⟨rfl⟩)
  · exact (congrArg (· != 0) (event _ (power 2 1))).trans (State.on_put_self _ R.PWR_RTC_CTRL_VALID 0 ⟨rfl⟩)
end

/-- The commands that write SEL and HOLD_RESET alone. -/
theorem selCommands {s : State} {q : Requester} {d : Fin 104} {v : BitVec 2} (acc : s.Accepts q .write (R.CLK_Dd_CTRL d)) :
    ∀ g ∈ [Instr.clkSelWrite q d v, .holdResetWrite q d v], exec g s = .next (s.ctrlWritten v d) := by
  intro g hg
  simp only [List.mem_cons, List.not_mem_nil, or_false] at hg
  rcases hg with rfl | rfl
  · exact (regWrite_accepts _ acc).trans (congrArg Host.Outcome.next (clkCtrlWrite_plain s v))
  · exact (regWrite_accepts _ acc).trans (congrArg Host.Outcome.next (clkCtrlWrite_plain s v))
/-- Settles O58, command by command: gates and DOMAIN resets by P31's lemmas about their fields, failed sources by the list of sources that fail
in turn, and entries by what closing every gate leaves. -/
theorem clocksAndPowerStates : Obligations.ClocksAndPowerStates := by
  intro s q d e k v w hi key m gate hold sel switching failed opens wanted connected ctrl fails sleeps off
  have hd := d.isLt
  have he := e.isLt
  have hk := k.isLt
  have sleepGoes : ∀ {c : Instr} {target : Nat}, (exec c s = .next (pwrCtrlWrite (key.toNat * 256 + target) s)) → target ∈ [2, 3] → sleeps c target := by
    intro c target step two right free
    subst right
    have mem : target ∈ [1, 2, 3] := List.mem_cons_of_mem _ two
    have some : target ≠ 1 ∧ target ≠ 0 := by
      simp only [List.mem_cons, List.not_mem_nil, or_false] at two
      omega
    rw [pwrCtrlWrite_key s mem, free] at step
    refine ⟨s.enterSleep target, step.trans (congrArg Host.Outcome.next (if_neg some.1)), ?_⟩
    have asleep : (s.enterSleep target).chip.asleep = target := rfl
    refine ⟨asleep, ?_, (s.enterSleep_fields (e := 0) (by decide)).2.1, fun small gated => (s.enterSleep_fields small).2.2 gated⟩
    rw [State.dead, asleep, bne_iff_ne.2 some.2, Bool.or_true]
  refine ⟨fun want o => ⟨fun fed => ?_, fun j fed src pll good => ?_⟩, fun none => ?_, fun may => ?_, fun may => ?_, fun pll started off ref => ?_, fun kind keep idle => ?_,
    fun acc => ⟨fun g hg => ⟨fun two idle => ?_, fun ignored => ?_, fun h => ?_, fun h held fed good => ?_, fun h held bad => ?_⟩, fun h => ?_, fun h free => ?_,
      fun h free same => ⟨fun edges good => ?_, fun bad => ?_⟩⟩,
    ⟨fun ready => ?_, fun ready => ?_⟩, fun acc => ?_, fun watched => ?_, fun watched => ?_, fun j hj => ?_, fun pll started => ?_, ?_, fun runs => ?_, fun acc => ?_,
    ⟨fun due => ?_, fun due => ?_⟩, fun acc => ⟨fun right free => ?_, ?_, ?_, fun wrong => ?_, fun g hg refused => ?_⟩, fun watched fresh => ?_, fun watched => ?_, fun watched => ?_⟩
  · exact ⟨_, congrArg Host.Outcome.next (if_pos want), State.request_fed hd o fed⟩
  · exact ⟨_, congrArg Host.Outcome.next (if_pos want), State.request_starts hd o fed src pll good⟩
  · refine congrArg Host.Outcome.next ?_
    rcases none with none | gate
    · exact if_neg (by rw [show (s.requested d || s.domHeld d) = false from none]; decide)
    · have open_ : s.request d = s := if_pos (by rw [show s.gateOpen d = true from gate]; rfl)
      rw [open_, ite_self]
  · exact ⟨_, congrArg Host.Outcome.next (if_pos may), s.closeGate_shut d hd⟩
  · exact congrArg Host.Outcome.next (if_neg (by rw [may]; decide))
  · obtain ⟨locked, gates⟩ := s.pllLock_locks hk pll started off ref
    exact ⟨_, rfl, locked, fun waits src => gates d hd waits src⟩
  · refine ⟨s.pllStop k, congrArg Host.Outcome.next (s.pllIdle_stops ?_ hk keep idle), s.pllStop_fields (by omega)⟩
    rcases kind with rfl | rfl | rfl | h
    · exact .inl rfl
    · exact .inr (.inl rfl)
    · exact .inr (.inr (.inl rfl))
    · exact .inr (.inr (.inr h))
  · exact ⟨_, selCommands acc g hg, s.ctrlWritten_starts v hd two idle⟩
  · exact ⟨_, selCommands acc g hg, s.ctrlWritten_ignored v hd ignored⟩
  · exact ⟨_, selCommands acc g hg, s.ctrlWritten_holds hd h⟩
  · exact ⟨_, selCommands acc g hg, s.ctrlWritten_frees hd h held fed good⟩
  · refine ⟨_, selCommands acc g hg, ?_⟩
    rw [s.ctrlWritten_free_eq h (.inr bad)]
    exact (s.selWrite_same _).1.trans held
  · refine ⟨_, (regWrite_accepts _ acc).trans (congrArg Host.Outcome.next (clkCtrlWrite_break s v)), ?_⟩
    exact State.breakSwitch_breaks _ (s.ctrlWritten_holds hd h).1
  · refine ⟨_, (regWrite_accepts _ acc).trans (congrArg Host.Outcome.next (clkCtrlWrite_break s v)), ?_⟩
    rw [s.ctrlWritten_free_eq h (.inl free)]
    exact State.breakSwitch_refused _ hd ((s.selWrite_same _).1.trans free)
  · have written : s.ctrlWritten v d = s := (s.ctrlWritten_free_eq h (.inl free)).trans (s.selWrite_ignored (.inr (.inr same)))
    refine ⟨_, (regWrite_accepts _ acc).trans (congrArg Host.Outcome.next (clkCtrlWrite_clear s v)), ?_⟩
    rw [written]
    exact s.clearForce_clears hd edges good
  · have written : s.ctrlWritten v d = s := (s.ctrlWritten_free_eq h (.inl free)).trans (s.selWrite_ignored (.inr (.inr same)))
    refine (regWrite_accepts _ acc).trans (congrArg Host.Outcome.next ((clkCtrlWrite_clear s v).trans ?_))
    rw [written]
    exact s.clearForce_stays bad
  · obtain ⟨on, fed, src⟩ := ready
    refine ⟨_, congrArg Host.Outcome.next (if_pos ?_), s.connect_connected d⟩
    rw [show s.on (R.CLK_Dd_STATUS_SWITCHING d) = true from on, fed]
    exact src
  · refine congrArg Host.Outcome.next (if_neg fun all => ready ?_)
    obtain ⟨both, src⟩ := Bool.and_eq_true_iff.1 all
    obtain ⟨on, fed⟩ := Bool.and_eq_true_iff.1 both
    exact ⟨on, fed, src⟩
  · obtain ⟨mask, restarts⟩ := State.relock_fields (s := s) w
    exact ⟨_, regWrite_accepts _ acc, mask, fun pll fail => restarts k hk pll fail⟩
  · exact ⟨_, rfl, s.hang_fields hd watched⟩
  · exact congrArg Host.Outcome.next (if_neg (by rw [watched]; decide))
  · exact ⟨_, congrArg Host.Outcome.next (if_pos rfl), State.sourcesFail he [0, 5, 6, 7] (by decide) s (.inl hj)⟩
  · have zero : (k : Nat) ≠ 0 := fun h => by rw [h] at pll; exact absurd pll (by decide)
    have step : s.sourceFail k = s.oneSourceFail k := (if_neg zero).trans (if_pos (by rw [pll, bit, started]; rfl))
    refine ⟨_, congrArg Host.Outcome.next step, s.oneSourceFail_fails hk he⟩
  · exact ⟨_, rfl, State.brcFail_fields⟩
  · exact State.xtalFail_fields runs
  · have small : hi.toNat % 65536 = hi.toNat := Nat.mod_eq_of_lt hi.isLt
    refine ⟨_, regWrite_accepts _ acc, ?_, State.on_put_self _ R.PWR_RTC_CTRL_VALID 1 ⟨rfl⟩⟩
    exact congrArg (fun x => x * 2 ^ 32 + s.pav.stage) small
  · obtain ⟨on, count⟩ := due
    refine ⟨_, congrArg Host.Outcome.next (if_pos (by rw [on, beq_iff_eq.2 count]; rfl)), ?_⟩
    have event := (still_get R.PWR_RTC_CTRL_ALARM).raises (.inl (by decide)) (s.put R.PWR_RTC_CTRL_ALARM 1) (p := 763) (by decide) 0
    exact (congrArg (· != 0) event).trans (State.on_put_self s R.PWR_RTC_CTRL_ALARM 1 ⟨rfl⟩)
  · refine congrArg Host.Outcome.next (if_neg fun all => due ?_)
    obtain ⟨on, count⟩ := Bool.and_eq_true_iff.1 all
    exact ⟨on, beq_iff_eq.1 count⟩
  · subst right
    have step := pwrCtrlWrite_key s (k := 1) (by decide)
    rw [free] at step
    exact ⟨_, (regWrite_accepts _ acc).trans (congrArg Host.Outcome.next step), s.enterPark_fields he⟩
  · exact sleepGoes (regWrite_accepts _ acc) (by decide)
  · exact sleepGoes (regWrite_accepts _ acc) (by decide)
  · have nothing : ∀ k ∈ [1, 2, 3], pwrCtrlWrite (key.toNat * 256 + k) s = s := fun k hk => pwrCtrlWrite_off s wrong hk
    exact ⟨(regWrite_accepts _ acc).trans (congrArg Host.Outcome.next (nothing 1 (by decide))), (regWrite_accepts _ acc).trans (congrArg Host.Outcome.next (nothing 2 (by decide))),
      (regWrite_accepts _ acc).trans (congrArg Host.Outcome.next (nothing 3 (by decide)))⟩
  · have record : ∀ k ∈ [1, 2, 3], s.entryRefusal k ≠ 0 → pwrCtrlWrite ((0xC3#8).toNat * 256 + k) s =
        ((s.put R.PWR_STATUS_REFUSE (s.entryRefusal k)).put R.PWR_STATUS_REFUSED 1).raise 763 := fun k hk some => (pwrCtrlWrite_key s hk).trans (if_pos (bne_iff_ne.2 some))
    simp only [List.mem_cons, List.not_mem_nil, or_false] at hg
    rcases hg with rfl | rfl | rfl
    · exact ⟨_, (regWrite_accepts _ acc).trans (congrArg Host.Outcome.next (record 1 (by decide) refused)), s.refused_fields _ (s.entryRefusal_lt 1)⟩
    · exact ⟨_, (regWrite_accepts _ acc).trans (congrArg Host.Outcome.next (record 2 (by decide) refused)), s.refused_fields _ (s.entryRefusal_lt 2)⟩
    · exact ⟨_, (regWrite_accepts _ acc).trans (congrArg Host.Outcome.next (record 3 (by decide) refused)), s.refused_fields _ (s.entryRefusal_lt 3)⟩
  · have seven : (m : Nat) ≠ 7 := fun h => by rw [State.monitored, h] at watched; exact absurd watched (by simp)
    exact ⟨_, rfl, s.warnUp_fields m.isLt seven watched fresh⟩
  · have seven : (m : Nat) ≠ 7 := fun h => by rw [State.monitored, h] at watched; exact absurd watched (by simp)
    let t : State := { s with chip := { s.chip with low := setBit s.chip.low m false } }
    refine ⟨t.putWarn m false, congrArg Host.Outcome.next (if_pos watched), t.warn_putWarn m.isLt seven false, ?_⟩
    rw [t.putWarn_chip]
    exact testBit_setBit_same s.chip.low m false
  · refine ⟨congrArg Host.Outcome.next (if_pos (by rw [watched]; rfl)), congrArg Host.Outcome.next (if_neg (by rw [watched]; decide))⟩

end Sys2Proof.Machine
end

section
/-!
PROOF. A flash operation that ends while the call that waits for it returns into a DEVICE reset: the counterexample to O57.
-/
namespace Sys2Proof.Machine

/-! ### The end of an operation whose caller has an odd return address -/

/-- The supervisor waits at 0x804 for array 0 with an odd lk, its vectors where nothing is; its store buffer is full, the oldest store being the key of RST_CTRL. -/
def resettingReturn : State :=
  { Tests.supBy (fun x => { (x.setReg 14 1#32).setCr 0x13 0x80000000#32 with pc := 0x804#32 }) with
    svc := [(8, [{ bank := 0 }])]
    flash := { ops := [(0, { state := 1, op := 1 })] }
    bufs := [(8, { stores := List.replicate 4 ⟨R.RST_CTRL.addr, leBytes 4 0x3C01, 2, platform, []⟩ })] }

/-- The alignment fault of the return pushes its frame, the push drains the store, and the reset that it asks for makes the array IDLE. -/
theorem resettingReturn_idle :
    ((((resettingReturn.flashFinish 0 none).flashDone 0).svcDone 0).flashOp 0).state = 0 := by decide +kernel

theorem resettingReturn_runs : (resettingReturn.flashOp 0).state = 1 ∧ (resettingReturn.flashOp 0).op ≠ 0 := by decide +kernel

/-- Refutes O57: the operation of a PROGRAM that has ended is not always DONE afterwards: the call that waits for it may return to an odd lk, and
the alignment fault's pushes drain a buffered store that resets the device (`resettingReturn`). -/
theorem not_flashServices : ¬ Obligations.FlashServices := by
  intro h
  obtain ⟨-, -, -, -, -, -, -, -, -, -, -, -, -, programEnds, -⟩ := h resettingReturn 8 [] 0 none 0 0
  obtain ⟨t, step, done, -⟩ := programEnds rfl (by decide +kernel) (by decide +kernel) (by decide +kernel) (by decide +kernel)
  obtain rfl := Host.Outcome.next.inj ((congrArg Host.Outcome.next (if_pos resettingReturn_runs).symm).trans step)
  exact absurd (resettingReturn_idle.symm.trans done) (by decide)

end Sys2Proof.Machine
end

section
/-!
PROOF. Trip comparators (spec/03, R80 to R84): their thresholds, their outputs, the lock and the test pulse.
-/
namespace Sys2Proof.Machine

/-! ### What an output leaves -/

/-- The test pulses lie in none of the blocks' tables. -/
theorem still_pulses : Still State.cmpPulse 0 0 where
  toBlind := blind_field (fun _ _ _ => rfl) (fun _ _ _ => rfl) (fun _ _ => rfl)
  evm _ _ := rfl
  fc _ _ _ _ := rfl
  pwm _ _ := rfl
  link _ _ _ := rfl
  pos _ _ := rfl
  lane _ _ _ := rfl
  laneCpu _ _ _ _ := rfl
  ports _ _ _ _ _ _ := rfl
  dma _ _ := rfl
  memory _ _ _ _ _ := rfl

theorem Still.cmpSettle {β : Type} {g : State → β} {lo a : Nat} (k : Still g lo a) (s : State) (c : Nat) (h : a ≤ 0x40180000) : g (s.cmpSettle c) = g s :=
  State.each_keeps _ _ g (fun n t => k.units t n none h) s

section
variable (s : State) (c : Fin 48)

theorem cmpField_low {q : RF} (h : q.reg.addr < 0x40121000) : q.reg.addr + 1 ≤ 0x40180000 := by omega
theorem cmpStatus_low : (R.CMP_Cc_STATUS c).addr < 0x40121000 := by
  simp only [R.CMP_Cc_STATUS]
  omega
theorem cmpCtrl_low : (R.CMP_Cc_CTRL c).addr < 0x40121000 := by
  simp only [R.CMP_Cc_CTRL]
  omega
theorem cmpCtrl_ne : (R.CMP_Cc_CTRL c).addr ≠ (R.CMP_Cc_STATUS c).addr := by
  simp only [R.CMP_Cc_CTRL, R.CMP_Cc_STATUS]
  omega

theorem State.cmpSettle_get {q : RF} (h : q.reg.addr < 0x40121000) : (s.cmpSettle c).get q = s.get q := (still_get q).cmpSettle s c (cmpField_low h)
theorem State.cmpSettle_on {q : RF} (h : q.reg.addr < 0x40121000) : (s.cmpSettle c).on q = s.on q := congrArg (· != 0) (s.cmpSettle_get c h)

/-- An output that becomes active, before its event and the units that it trips (R81). -/
def State.cmpRaised (s : State) (c : Nat) : State := (s.put (R.CMP_Cc_STATUS_LIVE c) 1).put (R.CMP_Cc_STATUS_TRIPPED c) 1
theorem Still.cmpActivate {β : Type} {g : State → β} {lo a : Nat} (k : Still g lo a) (h : a ≤ 0x40180000) : g (s.cmpActivate c) = g (s.cmpRaised c) := by
  refine (k.cmpSettle _ c h).trans (State.when_keeps _ g _ ?_)
  split
  · exact k.raise _ _ _ (by omega)
  · exact k.fc _ _ _ _
theorem State.cmpRaised_live : (s.cmpRaised c).on (R.CMP_Cc_STATUS_LIVE c) = true :=
  (State.on_put_beside _ (R.CMP_Cc_STATUS_TRIPPED c) (R.CMP_Cc_STATUS_LIVE c) 1 ⟨rfl⟩ ⟨rfl⟩).trans (State.on_put_self s (R.CMP_Cc_STATUS_LIVE c) 1 ⟨rfl⟩)
theorem State.cmpRaised_tripped : (s.cmpRaised c).on (R.CMP_Cc_STATUS_TRIPPED c) = true := State.on_put_self _ (R.CMP_Cc_STATUS_TRIPPED c) 1 ⟨rfl⟩
theorem State.cmpActivate_on {q : RF} (h : q.reg.addr < 0x40121000) : (s.cmpActivate c).on q = (s.cmpRaised c).on q :=
  congrArg (· != 0) ((still_get q).cmpActivate s c (cmpField_low h))
theorem State.cmpActivate_live : (s.cmpActivate c).on (R.CMP_Cc_STATUS_LIVE c) = true := (s.cmpActivate_on c (cmpStatus_low c)).trans (s.cmpRaised_live c)
theorem State.cmpActivate_tripped : (s.cmpActivate c).on (R.CMP_Cc_STATUS_TRIPPED c) = true := (s.cmpActivate_on c (cmpStatus_low c)).trans (s.cmpRaised_tripped c)
theorem State.cmpActivate_pulse : (s.cmpActivate c).pulse c = s.pulse c := congrArg (Tab.get none · c) (still_pulses.cmpActivate s c (by decide))

theorem State.cmpRelease_live : (s.cmpRelease c).on (R.CMP_Cc_STATUS_LIVE c) = false :=
  (State.cmpSettle_on _ c (cmpStatus_low c)).trans (State.on_put_self s (R.CMP_Cc_STATUS_LIVE c) 0 ⟨rfl⟩)
theorem State.cmpRelease_pulse : (s.cmpRelease c).pulse c = s.pulse c := congrArg (Tab.get none · c) (still_pulses.cmpSettle _ c (by decide))
/-- It leaves the fields of the control register. -/
theorem State.cmpRelease_ctrl (l w : Nat) : (s.cmpRelease c).get ⟨R.CMP_Cc_CTRL c, l, w⟩ = s.get ⟨R.CMP_Cc_CTRL c, l, w⟩ :=
  (State.cmpSettle_get _ c (cmpCtrl_low c)).trans (State.get_put_ne s (R.CMP_Cc_STATUS_LIVE c) ⟨R.CMP_Cc_CTRL c, l, w⟩ 0 (cmpCtrl_ne c))

/-! ### The input (R80) -/

variable (vd : Int)

/-- The threshold of comparator `c` (R80), times 512, in nanovolts. -/
def State.cmpThreshold (s : State) (c : Nat) : Int := signed 10 (s.get (R.CMP_Cc_THR_THRESH c)) * fullScale (s.get (R.FCV_CHn_CFG_RANGE (c / 2)))
/-- Its hysteresis (Table 3.6). -/
def State.cmpHysteresis (s : State) (c : Nat) : Int :=
  let fs : Int := fullScale (s.get (R.FCV_CHn_CFG_RANGE (c / 2)))
  [0, fs, 2 * fs, 4 * fs].getD (s.get (R.CMP_Cc_CTRL_HYST c)) 0
theorem State.cmpLevels_eq : s.cmpLevels c = (s.cmpThreshold c, s.cmpHysteresis c) := by
  have small : s.get (R.CMP_Cc_CTRL_HYST c) < 4 := fieldGet_lt ..
  unfold State.cmpLevels State.cmpThreshold State.cmpHysteresis
  dsimp only
  generalize s.get (R.CMP_Cc_CTRL_HYST c) = h at small
  interval_cases h <;> simp

theorem State.cmpRises_iff : s.cmpRises c vd = true ↔ if c.val % 2 = 0 then s.cmpThreshold c < 512 * vd else 512 * vd < s.cmpThreshold c := by
  unfold State.cmpRises
  rw [s.cmpLevels_eq]
  dsimp only
  split <;> rw [decide_eq_true_iff, mul_comm]
theorem State.cmpFalls_iff : s.cmpFalls c vd = true ↔
    if c.val % 2 = 0 then 512 * vd < s.cmpThreshold c - s.cmpHysteresis c else s.cmpThreshold c + s.cmpHysteresis c < 512 * vd := by
  unfold State.cmpFalls
  rw [s.cmpLevels_eq]
  dsimp only
  split <;> rw [decide_eq_true_iff, mul_comm]
theorem fullScale_pos (r : Nat) : 0 < fullScale r := by
  unfold fullScale
  split <;> decide
theorem State.cmpHysteresis_nonneg : 0 ≤ s.cmpHysteresis c := by
  have small : s.get (R.CMP_Cc_CTRL_HYST c) < 4 := fieldGet_lt ..
  have scale := fullScale_pos (s.get (R.FCV_CHn_CFG_RANGE (c / 2)))
  unfold State.cmpHysteresis
  dsimp only
  generalize s.get (R.CMP_Cc_CTRL_HYST c) = h at small
  interval_cases h <;> simp [scale.le]
/-- An input is not on both sides of the threshold. -/
theorem State.cmpRises_of_falls (falls : s.cmpFalls c vd = true) : s.cmpRises c vd = false := by
  have wide := s.cmpHysteresis_nonneg c
  rw [s.cmpFalls_iff] at falls
  rw [Bool.eq_false_iff, Ne, s.cmpRises_iff]
  split at falls
  · next even => rw [if_pos even]; omega
  · next odd => rw [if_neg odd]; omega

/-! ### What the input makes of the output -/

theorem State.cmpInput_rises (idle : s.pulse c = none) (low : s.on (R.CMP_Cc_STATUS_LIVE c) = false) (rises : s.cmpRises c vd = true) :
    s.cmpInput c vd = s.cmpActivate c := by
  unfold State.cmpInput State.cmpOut
  rw [idle]
  dsimp only
  rw [low, rises]
  rfl
theorem State.cmpInput_falls (idle : s.pulse c = none) (high : s.on (R.CMP_Cc_STATUS_LIVE c) = true) (falls : s.cmpFalls c vd = true) :
    s.cmpInput c vd = s.cmpRelease c := by
  unfold State.cmpInput State.cmpOut
  rw [idle]
  dsimp only
  rw [high, falls, s.cmpRises_of_falls c vd falls]
  rfl
/-- During a test pulse the comparator below it follows alone (R84). -/
theorem State.cmpInput_pulsed {t0 : Time} {was : Bool} (pulsed : s.pulse c = some (t0, was)) :
    s.cmpInput c vd = s.setPulse c (some (t0, s.cmpOut c was vd)) := by
  unfold State.cmpInput
  rw [pulsed]
theorem State.cmpOut_rises (was : Bool) (rises : s.cmpRises c vd = true) : s.cmpOut c was vd = true := by rw [State.cmpOut, rises, Bool.true_or]
theorem State.cmpOut_falls (was : Bool) (falls : s.cmpFalls c vd = true) : s.cmpOut c was vd = false := by
  rw [State.cmpOut, falls, s.cmpRises_of_falls c vd falls, Bool.not_true, Bool.and_false, Bool.or_false]
theorem State.setPulse_on (x : Option (Time × Bool)) (q : RF) : (s.setPulse c x).on q = s.on q := rfl

theorem execCmpOutputActive_next (on : s.cmpOn c = true) (rises : s.cmpRises c vd = true) : exec (.cmpOutputActive c vd) s = .next (s.cmpInput c vd) :=
  congrArg Host.Outcome.next (if_pos (by rw [on, rises]; rfl))
theorem execCmpOutputInactive_next (on : s.cmpOn c = true) (falls : s.cmpFalls c vd = true) : exec (.cmpOutputInactive c vd) s = .next (s.cmpInput c vd) :=
  congrArg Host.Outcome.next (if_pos (by rw [on, falls]; rfl))

/-! ### CMP_TEST (R84) -/

theorem State.cmpTest_live (on : s.cmpOn c = true) : (cmpTestWrite c 1 s).on (R.CMP_Cc_STATUS_LIVE c) = true := by
  unfold cmpTestWrite
  rw [on, if_pos (by decide)]
  dsimp only
  split
  · assumption
  · exact State.cmpActivate_live _ c
theorem State.cmpTest_pulse (on : s.cmpOn c = true) : (cmpTestWrite c 1 s).pulse c =
    some (s.now, ((s.pulse c).map (·.2)).getD (s.on (R.CMP_Cc_STATUS_LIVE c))) := by
  have under : ∀ t : State, t.pulse c = (if s.on (R.CMP_Cc_STATUS_LIVE c) = true then t else t.cmpActivate c).pulse c := fun t => by
    split
    · rfl
    · exact (t.cmpActivate_pulse c).symm
  unfold cmpTestWrite
  rw [on, if_pos (by decide)]
  dsimp only
  rw [← under, State.pulse_setPulse_same]
  cases s.pulse c <;> rfl
theorem execCmpTestPulseEnd_early {t0 : Time} {was : Bool} (pulsed : s.pulse c = some (t0, was)) (early : s.since t0 < 32000) :
    exec (.cmpTestPulseEnd c vd) s = .next s := by
  show execCmpTestPulseEnd c vd s = _
  unfold execCmpTestPulseEnd
  rw [pulsed]
  exact congrArg Host.Outcome.next (if_pos early)
theorem execCmpTestPulseEnd_late {t0 : Time} {was : Bool} (pulsed : s.pulse c = some (t0, was)) (late : 32000 ≤ s.since t0) :
    exec (.cmpTestPulseEnd c vd) s = .next (if s.cmpOn c && s.cmpOut c was vd then s.setPulse c none else (s.setPulse c none).cmpRelease c) := by
  show execCmpTestPulseEnd c vd s = _
  unfold execCmpTestPulseEnd
  rw [pulsed]
  exact congrArg Host.Outcome.next (if_neg (Nat.not_lt.2 late))

/-! ### CMP_CTRL (R82) -/

/-- A write of HYST and EN, which LOCK refuses. -/
def State.cmpOpened (s : State) (c v : Nat) : State := (s.put (R.CMP_Cc_CTRL_HYST c) (bitsOf v 2 2)).put (R.CMP_Cc_CTRL_EN c) (bitsOf v 0 1)
/-- The state after EVT_EN, HYST and EN are written. -/
def State.cmpFielded (s : State) (c v : Nat) : State := (s.put (R.CMP_Cc_CTRL_EVT_EN c) (bitsOf v 4 1)).when (!s.on (R.CMP_Cc_CTRL_LOCK c)) (State.cmpOpened · c v)
/-- And after LOCK, before a disabled comparator's output falls. -/
def State.cmpCtrlled (s : State) (c v : Nat) : State := (s.cmpFielded c v).when (bit v 1) fun s => s.put (R.CMP_Cc_CTRL_LOCK c) 1

theorem State.cmpCtrlWrite_eq (v : Nat) : cmpCtrlWrite c v s =
    if !(s.cmpCtrlled c v).on (R.CMP_Cc_CTRL_EN c) && (s.cmpCtrlled c v).on (R.CMP_Cc_STATUS_LIVE c) then ((s.cmpCtrlled c v).setPulse c none).cmpRelease c
    else s.cmpCtrlled c v := rfl
theorem State.cmpCtrlWrite_ctrl (v l w : Nat) : (cmpCtrlWrite c v s).get ⟨R.CMP_Cc_CTRL c, l, w⟩ = (s.cmpCtrlled c v).get ⟨R.CMP_Cc_CTRL c, l, w⟩ := by
  rw [s.cmpCtrlWrite_eq]
  split
  · exact State.cmpRelease_ctrl ((s.cmpCtrlled c v).setPulse c none) c l w
  · rfl
theorem State.cmpCtrlled_lock {v : Nat} (lock : bit v 1 = true) : (s.cmpCtrlled c v).on (R.CMP_Cc_CTRL_LOCK c) = true := by
  unfold State.cmpCtrlled
  rw [lock]
  exact State.on_put_self (s.cmpFielded c v) (R.CMP_Cc_CTRL_LOCK c) 1 ⟨rfl⟩
theorem State.cmpCtrlled_beside {q : RF} (v : Nat) (same : q.reg = R.CMP_Cc_CTRL c) (apart : Computes ((R.CMP_Cc_CTRL_LOCK c).besideB q) true) :
    (s.cmpCtrlled c v).get q = (s.cmpFielded c v).get q :=
  (s.cmpFielded c v).when_keeps (State.get · q) (bit v 1) (State.get_put_beside (s.cmpFielded c v) (R.CMP_Cc_CTRL_LOCK c) q 1 ⟨same⟩ apart)
theorem State.cmpCtrlled_evt (v : Nat) : (s.cmpCtrlled c v).get (R.CMP_Cc_CTRL_EVT_EN c) = bitsOf v 4 1 % 2 := by
  have opened : ∀ t : State, (t.cmpOpened c v).get (R.CMP_Cc_CTRL_EVT_EN c) = t.get (R.CMP_Cc_CTRL_EVT_EN c) := fun t =>
    (State.get_put_beside (t.put (R.CMP_Cc_CTRL_HYST c) (bitsOf v 2 2)) (R.CMP_Cc_CTRL_EN c) (R.CMP_Cc_CTRL_EVT_EN c) _ ⟨rfl⟩ ⟨rfl⟩).trans
      (State.get_put_beside t (R.CMP_Cc_CTRL_HYST c) (R.CMP_Cc_CTRL_EVT_EN c) _ ⟨rfl⟩ ⟨rfl⟩)
  rw [s.cmpCtrlled_beside c v rfl ⟨rfl⟩]
  refine ((s.put (R.CMP_Cc_CTRL_EVT_EN c) (bitsOf v 4 1)).when_keeps (State.get · (R.CMP_Cc_CTRL_EVT_EN c)) (!s.on (R.CMP_Cc_CTRL_LOCK c))
    (f := (State.cmpOpened · c v)) (opened _)).trans ?_
  exact State.get_put_self s (R.CMP_Cc_CTRL_EVT_EN c) _ ⟨rfl⟩
theorem State.cmpCtrlled_en (v : Nat) : (s.cmpCtrlled c v).get (R.CMP_Cc_CTRL_EN c) =
    if s.on (R.CMP_Cc_CTRL_LOCK c) then s.get (R.CMP_Cc_CTRL_EN c) else bitsOf v 0 1 % 2 := by
  rw [s.cmpCtrlled_beside c v rfl ⟨rfl⟩, State.cmpFielded]
  cases s.on (R.CMP_Cc_CTRL_LOCK c)
  · exact State.get_put_self ((s.put (R.CMP_Cc_CTRL_EVT_EN c) (bitsOf v 4 1)).put (R.CMP_Cc_CTRL_HYST c) (bitsOf v 2 2)) (R.CMP_Cc_CTRL_EN c) _ ⟨rfl⟩
  · exact State.get_put_beside s (R.CMP_Cc_CTRL_EVT_EN c) (R.CMP_Cc_CTRL_EN c) _ ⟨rfl⟩ ⟨rfl⟩
theorem State.cmpCtrlled_hyst (v : Nat) : (s.cmpCtrlled c v).get (R.CMP_Cc_CTRL_HYST c) =
    if s.on (R.CMP_Cc_CTRL_LOCK c) then s.get (R.CMP_Cc_CTRL_HYST c) else bitsOf v 2 2 % 4 := by
  have en : ∀ t : State, (t.cmpOpened c v).get (R.CMP_Cc_CTRL_HYST c) = bitsOf v 2 2 % 4 := fun t =>
    (State.get_put_beside (t.put (R.CMP_Cc_CTRL_HYST c) (bitsOf v 2 2)) (R.CMP_Cc_CTRL_EN c) (R.CMP_Cc_CTRL_HYST c) _ ⟨rfl⟩ ⟨rfl⟩).trans
      (State.get_put_self t (R.CMP_Cc_CTRL_HYST c) _ ⟨rfl⟩)
  rw [s.cmpCtrlled_beside c v rfl ⟨rfl⟩, State.cmpFielded]
  cases s.on (R.CMP_Cc_CTRL_LOCK c)
  · exact en _
  · exact State.get_put_beside s (R.CMP_Cc_CTRL_EVT_EN c) (R.CMP_Cc_CTRL_HYST c) _ ⟨rfl⟩ ⟨rfl⟩
/-- The fields of a word with LOCK set (R82). -/
theorem lockWord_fields (v : BitVec 5) : bit (v ||| 2#5).toNat 1 = true ∧ bitsOf (v ||| 2#5).toNat 0 1 % 2 = v.toNat % 2 ∧
    bitsOf (v ||| 2#5).toNat 2 2 % 4 = v.toNat / 4 % 4 ∧ bitsOf (v ||| 2#5).toNat 4 1 % 2 = v.toNat / 16 := by
  revert v
  decide
end

end Sys2Proof.Machine
end

section
/-!
PROOF. Scan converters (spec/04, R90 to R96): the settings, mask and interval of a round, the result of a conversion, the end of a round and the
window limits; and the obligation on both kinds of converter.
-/
namespace Sys2Proof.Machine

section
variable (s : State)

/-! ### The start of a round (R90, R91) -/

theorem State.scanTake_get (n : Nat) (q : RF) : (s.scanTake n).get q = s.get q := Blind.scanTake (g := fun t => t.get q) (fun _ _ => rfl) s n
theorem State.scanTake_own (n : Nat) : (s.scanTake n).own = s.own := Blind.scanTake (g := State.own) (fun _ _ => rfl) s n
/-- Is channel `n` to take part in a round (R91)? -/
def State.scanEn (s : State) (n : Nat) : Bool := s.on (R.SCV_CHn_CFG_EN n) && !s.ownerInReset (s.owner 3 n)
theorem State.scanTake_rd (n : Nat) (r : Reg) : (s.scanTake n).rd r = s.rd r := Blind.scanTake (g := fun t => t.rd r) (fun _ _ => rfl) s n
theorem State.scanEn_congr {s t : State} (rd : ∀ r : Reg, t.rd r = s.rd r) (own : t.own = s.own) (n : Nat) : t.scanEn n = s.scanEn n := by
  have owner : t.owner 3 n = s.owner 3 n := congrArg (fun own => if (3 : Nat) = 3 ∧ 64 ≤ n then platform else Tab.get unassigned own (3 * 256 + n)) own
  have en : t.on (R.SCV_CHn_CFG_EN n) = s.on (R.SCV_CHn_CFG_EN n) := congrArg (fun v => fieldGet v 0 1 != 0) (rd (R.SCV_CHn_CFG n))
  rw [State.scanEn, en, owner, State.ownerInReset_of_rd (fun p _ => rd _), State.scanEn]
theorem State.scanTake_en (m n : Nat) : ((s.scanTake m).sch n).en = if n = m then s.scanEn n else (s.sch n).en := by
  unfold State.scanTake
  extract_lets x0 s1 x en avg sh
  have en_eq : en = s.scanEn m := rfl
  by_cases h : n = m
  · subst h
    rw [if_pos rfl]
    split
    · next same => exact same.1.trans en_eq
    · rw [State.sch_setSch_same]
      exact en_eq
  · rw [if_neg h]
    have first : (s1.sch n).en = (s.sch n).en := congrArg ScanChan.en ((s.sch_setSch m n _).trans (if_neg h))
    split
    · exact first
    · rw [State.sch_setSch, if_neg h]
      exact first
theorem State.scanned_own (k : Nat) : (s.scanned k).own = s.own := State.each_keeps _ _ State.own (fun _ t => t.scanTake_own _) s
/-- Once taken, a setting of a channel stays through the round's other channels. -/
theorem State.scanned_en (k : Nat) {i : Nat} (hi : i < 20) : ((s.scanned k).sch (scanChannel k i)).en = s.scanEn (scanChannel k i) := by
  have taken : ∀ (l : List Nat) (t : State), (∀ n, t.scanEn n = s.scanEn n) → (i ∈ l ∨ (t.sch (scanChannel k i)).en = s.scanEn (scanChannel k i)) →
      ((t.each l fun i t => t.scanTake (scanChannel k i)).sch (scanChannel k i)).en = s.scanEn (scanChannel k i) := by
    intro l
    induction l with
    | nil => exact fun t _ h => h.resolve_left (List.not_mem_nil)
    | cons j l ih =>
      intro t cfg h
      have cfg1 : ∀ n, (t.scanTake (scanChannel k j)).scanEn n = s.scanEn n := fun n =>
        (State.scanEn_congr (t.scanTake_rd _) (t.scanTake_own _) n).trans (cfg n)
      refine ih _ cfg1 (or_iff_not_imp_left.2 fun other => ?_)
      rw [State.scanTake_en, cfg]
      split
      · rfl
      · next ne =>
        rcases h with member | known
        · rcases List.mem_cons.1 member with rfl | member
          · exact absurd rfl ne
          · exact absurd member other
        · exact known
  exact taken (List.range 20) s (fun _ => rfl) (.inl (List.mem_range.2 hi))

theorem State.roundStart_bit (k : Nat) (cause : Cause) {i : Nat} (hi : i < 20) :
    (s.roundStart k cause).bitOn (R.SCV_Ck_MASK_MASK k) i = s.scanEn (scanChannel k i) := by
  have bits := (placesMask (fun i => ((s.scanned k).sch (scanChannel k i)).en) 20).2 i
  rw [← State.roundSlots, ← s.roundStart_mask k cause, decide_eq_true hi, Bool.true_and, s.scanned_en k hi] at bits
  exact bits
theorem State.conv_when_put (t : State) (k : Nat) (b : Bool) (q : RF) (v : Nat) : (t.when b fun s => s.put q v).conv k = t.conv k :=
  t.when_keeps (State.conv · k) b rfl
theorem State.roundMasked_round (k : Nat) : (s.roundMasked k).get (R.SCV_Ck_CTRL_ROUND k) = s.get (R.SCV_Ck_CTRL_ROUND k) :=
  (State.get_put_ne (s.scanned k) (R.SCV_Ck_MASK_MASK k) (R.SCV_Ck_CTRL_ROUND k) _ (by simp only [R.SCV_Ck_MASK_MASK, R.SCV_Ck_MASK, R.SCV_Ck_CTRL_ROUND, R.SCV_Ck_CTRL]; omega)).trans
    (s.scanned_field k _)
theorem State.roundStart_slots (k : Nat) (cause : Cause) : ((s.roundStart k cause).conv k).slots = s.roundSlots k := by
  rw [s.roundStart_eq, State.conv_when_put, State.conv_setConv_same]
theorem State.roundStart_gap (k : Nat) (cause : Cause) : ((s.roundStart k cause).conv k).gap = max 1 (max (s.get (R.SCV_Ck_CTRL_ROUND k)) (s.roundSlots k).length) := by
  rw [s.roundStart_eq, State.conv_when_put, State.conv_setConv_same]
  exact congrArg (fun r => max 1 (max r (s.roundSlots k).length)) (s.roundMasked_round k)
theorem State.roundStart_began (k : Nat) (cause : Cause) : ((s.roundStart k cause).conv k).began = some s.now := by
  have scanned : (s.scanned k).now = s.now := State.each_keeps _ _ State.now (fun i t => Blind.scanTake (g := State.now) (fun _ _ => rfl) t _) s
  have late : ∀ (t : State) (b : Bool) (q : RF), (t.when b fun s => s.put q 1).now = t.now := fun t b q => t.when_keeps State.now b rfl
  have masked : ∀ (t : State) (q : RF) (v : Nat), (t.put q v).now = t.now := fun t q v => rfl
  have now : (s.roundChecked k).now = s.now := by rw [State.roundChecked, late, State.roundMasked, masked, scanned]
  rw [s.roundStart_eq, State.conv_when_put, State.conv_setConv_same]
  exact congrArg some now
/-- A round with a slot of its mask set is busy. -/
theorem State.roundStart_busy_of_bit {k i : Nat} (cause : Cause) (idle : s.on (R.SCV_Ck_STATUS_BUSY k) = false)
    (masked : (s.roundStart k cause).bitOn (R.SCV_Ck_MASK_MASK k) i = true) : (s.roundStart k cause).on (R.SCV_Ck_STATUS_BUSY k) = true := by
  rw [s.roundStart_busy cause idle, decide_eq_true_iff]
  intro zero
  rw [State.bitOn, zero] at masked
  simp [bit] at masked
theorem State.roundDue_of {k : Nat} (mode : (s.conv k).mode = 1) (idle : s.on (R.SCV_Ck_STATUS_BUSY k) = false) (runs : s.scanRuns k = true)
    (due : (s.conv k).began = none ∨ ∃ b, (s.conv k).began = some b ∧ s.since b ≠ 0 ∧ s.since b % ((s.conv k).gap * 6400) = 0) : s.roundDue k = true := by
  unfold State.roundDue
  rw [idle, runs]
  dsimp only
  rw [mode]
  rcases due with none | ⟨b, began, later, whole⟩
  · rw [none]
    rfl
  · rw [began]
    dsimp only
    rw [show scanCycle = 6400 from rfl, whole]
    simp [later]

/-! ### A conversion and its result (R93 to R95) -/

/-- The window check writes the channel's STATUS alone, and raises an event. -/
theorem State.windowCheck_get (n v : Nat) (cause : Cause) {q : RF} (off : q.reg.addr ≠ (R.SCV_CHn_STATUS n).addr) (low : q.reg.addr < 0x40200000) :
    (s.windowCheck n v cause).get q = s.get q := by
  have side : ∀ (t : State) (x : ScanChan) (l w e : Nat), ((t.setSch n x).put ⟨R.SCV_CHn_STATUS n, l, w⟩ e).get q = t.get q := fun t x l w e =>
    State.get_put_ne (t.setSch n x) ⟨R.SCV_CHn_STATUS n, l, w⟩ q e off
  have event : ∀ (t : State) (p : Nat), (t.emit p cause).get q = t.get q := fun t p => (still_get q).toBlind.emit t p cause (by omega)
  unfold State.windowCheck
  extract_lets x0
  split
  next lo hi wcnt limits =>
  extract_lets outside x full s1 s2
  split
  · rfl
  split
  · split
    · rfl
    split
    swap
    · rfl
    have crossed : s2.get q = s1.get q := by
      show State.get (if v < lo then _ else _) q = _
      split
      · exact State.get_put_ne s1 (R.SCV_CHn_STATUS_OUT_LO n) q 1 off
      · exact State.get_put_ne s1 (R.SCV_CHn_STATUS_OUT_HI n) q 1 off
    split
    · exact (event s2 _).trans (crossed.trans (side s _ 4 1 1))
    · exact crossed.trans (side s _ 4 1 1)
  · split
    · rfl
    split
    · exact side s _ 4 1 0
    · rfl
theorem State.limitAfter_get (n : Nat) (q : RF) : (s.limitAfter n).get q = s.get q := by
  unfold State.limitAfter
  extract_lets x
  clear_value x
  split
  · split <;> rfl
  · rfl

/-- The result register after a complete average (R94). -/
def State.resulted (s : State) (n v : Nat) (clip susp : Bool) : State :=
  ((((s.put (R.SCV_CHn_RESULT_VALUE n) v).putB (R.SCV_CHn_RESULT_CLIP n) clip).putB (R.SCV_CHn_RESULT_SUSPECT n) susp).inc
    (R.SCV_CHn_RESULT_RSEQ n)).put (R.SCV_CHn_RESULT_VALID n) 1
theorem State.resulted_valid (n v : Nat) (clip susp : Bool) : (s.resulted n v clip susp).on (R.SCV_CHn_RESULT_VALID n) = true :=
  State.on_put_self _ (R.SCV_CHn_RESULT_VALID n) 1 ⟨rfl⟩
theorem State.valued_get (n v : Nat) (clip susp : Bool) {q : RF} (same : q.reg = R.SCV_CHn_RESULT n) (clipOff : Computes ((R.SCV_CHn_RESULT_CLIP n).besideB q) true)
    (suspOff : Computes ((R.SCV_CHn_RESULT_SUSPECT n).besideB q) true) : (((s.put (R.SCV_CHn_RESULT_VALUE n) v).putB (R.SCV_CHn_RESULT_CLIP n) clip).putB
      (R.SCV_CHn_RESULT_SUSPECT n) susp).get q = (s.put (R.SCV_CHn_RESULT_VALUE n) v).get q :=
  (State.get_putB_beside _ (R.SCV_CHn_RESULT_SUSPECT n) q susp ⟨same⟩ suspOff).trans (State.get_putB_beside _ (R.SCV_CHn_RESULT_CLIP n) q clip ⟨same⟩ clipOff)
theorem State.resulted_value (n v : Nat) (clip susp : Bool) : (s.resulted n v clip susp).get (R.SCV_CHn_RESULT_VALUE n) = v % 2 ^ 24 := by
  have valid : ∀ t : State, (t.put (R.SCV_CHn_RESULT_VALID n) 1).get (R.SCV_CHn_RESULT_VALUE n) = t.get (R.SCV_CHn_RESULT_VALUE n) := fun t =>
    State.get_put_beside t (R.SCV_CHn_RESULT_VALID n) (R.SCV_CHn_RESULT_VALUE n) 1 ⟨rfl⟩ ⟨rfl⟩
  have count : ∀ t : State, (t.inc (R.SCV_CHn_RESULT_RSEQ n)).get (R.SCV_CHn_RESULT_VALUE n) = t.get (R.SCV_CHn_RESULT_VALUE n) := fun t =>
    State.get_put_beside t (R.SCV_CHn_RESULT_RSEQ n) (R.SCV_CHn_RESULT_VALUE n) _ ⟨rfl⟩ ⟨rfl⟩
  rw [State.resulted, valid, count, s.valued_get n v clip susp rfl ⟨rfl⟩ ⟨rfl⟩]
  exact State.get_put_self s (R.SCV_CHn_RESULT_VALUE n) v ⟨rfl⟩
theorem State.resulted_seq (n v : Nat) (clip susp : Bool) : (s.resulted n v clip susp).get (R.SCV_CHn_RESULT_RSEQ n) = (s.get (R.SCV_CHn_RESULT_RSEQ n) + 1) % 16 := by
  have valid : ∀ t : State, (t.put (R.SCV_CHn_RESULT_VALID n) 1).get (R.SCV_CHn_RESULT_RSEQ n) = t.get (R.SCV_CHn_RESULT_RSEQ n) := fun t =>
    State.get_put_beside t (R.SCV_CHn_RESULT_VALID n) (R.SCV_CHn_RESULT_RSEQ n) 1 ⟨rfl⟩ ⟨rfl⟩
  have count : ∀ t : State, (t.inc (R.SCV_CHn_RESULT_RSEQ n)).get (R.SCV_CHn_RESULT_RSEQ n) = (t.get (R.SCV_CHn_RESULT_RSEQ n) + 1) % 16 := fun t =>
    State.get_put_self t (R.SCV_CHn_RESULT_RSEQ n) _ ⟨rfl⟩
  rw [State.resulted, valid, count, s.valued_get n v clip susp rfl ⟨rfl⟩ ⟨rfl⟩, State.get_put_beside s (R.SCV_CHn_RESULT_VALUE n) (R.SCV_CHn_RESULT_RSEQ n) v ⟨rfl⟩ ⟨rfl⟩]

theorem scanStatus_ne_result (n : Nat) : (R.SCV_CHn_RESULT n).addr ≠ (R.SCV_CHn_STATUS n).addr := by
  simp only [R.SCV_CHn_RESULT, R.SCV_CHn_STATUS]
  omega
/-- What follows the result register, its two sticky flags, the window check and the limits, leaves every field but the channel's STATUS. -/
theorem State.resultChecked_get (n v w : Nat) (clip susp : Bool) (cause : Cause) {q : RF} (off : q.reg.addr ≠ (R.SCV_CHn_STATUS n).addr) (low : q.reg.addr < 0x40200000) :
    (((((s.resulted n v clip susp).when clip fun s => s.put (R.SCV_CHn_STATUS_CLIPPED n) 1).when susp fun s =>
      s.put (R.SCV_CHn_STATUS_SUSPECT_SEEN n) 1).windowCheck n w cause).limitAfter n).get q = (s.resulted n v clip susp).get q := by
  have flag : ∀ (t : State) (b : Bool) (l : Nat), (t.when b fun s => s.put ⟨R.SCV_CHn_STATUS n, l, 1⟩ 1).get q = t.get q := fun t b l =>
    t.when_keeps (State.get · q) b (State.get_put_ne t ⟨R.SCV_CHn_STATUS n, l, 1⟩ q 1 off)
  rw [State.limitAfter_get, State.windowCheck_get _ n w cause off low]
  exact (flag _ susp 0).trans (flag _ clip 1)
/-- A sample that completes the average makes the result. -/
theorem State.scanSample_full {n : Nat} (d : Nat) (clip : Bool) (cause : Cause) (full : (s.sch n).count + 1 = 2 ^ (s.sch n).avg) :
    ∃ (x : ScanChan) (b c : Bool), ∀ q : RF, q.reg.addr ≠ (R.SCV_CHn_STATUS n).addr → q.reg.addr < 0x40200000 →
      (s.scanSample n d clip cause).get q = ((s.setSch n x).resulted n (((s.sch n).sum + d) / 2 ^ (s.sch n).shift) b c).get q := by
  refine ⟨{ s.sch n with sum := 0, count := 0, clip := false, susp := false }, (s.sch n).clip || clip,
    (s.sch n).susp || s.warn 0 || s.warn 2 || s.warn 3, fun q off low => ?_⟩
  unfold State.scanSample
  rw [if_pos full]
  exact State.resultChecked_get _ n _ _ _ _ cause off low
theorem State.scanSample_get (n d : Nat) (clip : Bool) (cause : Cause) {q : RF} (off : q.reg.addr ≠ (R.SCV_CHn_STATUS n).addr)
    (result : q.reg.addr ≠ (R.SCV_CHn_RESULT n).addr) (low : q.reg.addr < 0x40200000) : (s.scanSample n d clip cause).get q = s.get q := by
  by_cases full : (s.sch n).count + 1 = 2 ^ (s.sch n).avg
  · obtain ⟨x, b, c, fields⟩ := s.scanSample_full d clip cause full
    have side : ∀ (t : State) (l w e : Nat), (t.put ⟨R.SCV_CHn_RESULT n, l, w⟩ e).get q = t.get q := fun t l w e =>
      State.get_put_ne t ⟨R.SCV_CHn_RESULT n, l, w⟩ q e result
    refine (fields q off low).trans ((side _ 26 1 1).trans ((side _ 28 4 _).trans ((side _ 24 1 _).trans ((side _ 25 1 _).trans (side (s.setSch n x) 0 24 _)))))
  · unfold State.scanSample
    rw [if_neg full]
    rfl

/-! ### The end of a conversion (R90, R93) -/

/-- The sample of a conversion on channel `n` is taken, unless its owner is in reset or the channel discards it (R91). -/
def State.scanStored (s : State) (n : Nat) (x : Int) (cause : Cause) : State :=
  if s.ownerInReset (s.owner 3 n) || (s.sch n).void then s else s.scanSample n (s.scanCode n x).1 (s.scanCode n x).2 cause
/-- The converter goes on to the slots that remain. -/
def State.scanMoved (s : State) (k i : Nat) (rest : List Nat) (x : Int) : State :=
  (s.scanStored (scanChannel k i) x (s.conv k).cause).setConv k { s.conv k with slots := rest, cause := if rest.isEmpty then none else (s.conv k).cause }
/-- The round ends after its last slot. -/
def State.scanEnded (s : State) (k : Nat) (cause : Cause) : State :=
  (((s.put (R.SCV_Ck_STATUS_BUSY k) 0).inc (R.SCV_Ck_STATUS_ROUNDS k)).roundOver k).emit (182 + k) cause
theorem execScanConversion_next {k : Fin 4} {i : Nat} {rest : List Nat} (vd : Int) (slots : (s.conv k).slots = i :: rest) (runs : s.scanRuns k = true) :
    exec (.scanConversion k vd) s = .next (if rest.isEmpty then (s.scanMoved k i rest vd).scanEnded k (s.conv k).cause else s.scanMoved k i rest vd) := by
  show execScanConversion k vd s = _
  unfold execScanConversion
  dsimp only
  rw [slots]
  dsimp only
  rw [runs, if_neg (by decide)]
  rfl
theorem State.roundOver_get (k : Nat) (q : RF) : (s.roundOver k).get q = s.get q := by
  unfold State.roundOver State.scanSettings
  dsimp only
  split_ifs <;> rfl
theorem State.roundOver_slots (k : Nat) : ((s.roundOver k).conv k).slots = (s.conv k).slots := by
  unfold State.roundOver State.scanSettings
  dsimp only
  split_ifs
  · rfl
  · rfl
  · rw [State.conv_setConv_same]
theorem blind_conv (k : Nat) : Blind (State.conv · k) 0 0 := blind_field (fun _ _ _ => rfl) (fun _ _ _ => rfl) (fun _ _ => rfl)
theorem State.scanEnded_slots (k : Nat) (cause : Cause) : ((s.scanEnded k cause).conv k).slots = (s.conv k).slots := by
  unfold State.scanEnded
  rw [(blind_conv k).emit _ (182 + k) cause (by decide), State.roundOver_slots]
  rfl
theorem State.scanEnded_get (k : Nat) (cause : Cause) {q : RF} (low : q.reg.addr < 0x40200000) :
    (s.scanEnded k cause).get q = ((s.put (R.SCV_Ck_STATUS_BUSY k) 0).inc (R.SCV_Ck_STATUS_ROUNDS k)).get q :=
  ((still_get q).toBlind.emit _ (182 + k) cause (by omega)).trans (State.roundOver_get _ k q)
theorem State.scanEnded_off (k : Nat) (cause : Cause) {q : RF} (low : q.reg.addr < 0x40200000) (off : q.reg.addr ≠ (R.SCV_Ck_STATUS k).addr) :
    (s.scanEnded k cause).get q = s.get q :=
  (s.scanEnded_get k cause low).trans ((State.get_put_ne _ (R.SCV_Ck_STATUS_ROUNDS k) q _ off).trans (State.get_put_ne s (R.SCV_Ck_STATUS_BUSY k) q 0 off))
section
variable (k : Fin 4) (cause : Cause)
theorem convStatus_low : (R.SCV_Ck_STATUS k).addr < 0x40110100 := by
  simp only [R.SCV_Ck_STATUS]
  omega
theorem State.scanEnded_busy : (s.scanEnded k cause).on (R.SCV_Ck_STATUS_BUSY k) = false :=
  (congrArg (· != 0) (s.scanEnded_get k cause (q := R.SCV_Ck_STATUS_BUSY k) (Nat.lt_trans (convStatus_low k) (by decide)))).trans
    ((State.on_put_beside (s.put (R.SCV_Ck_STATUS_BUSY k) 0) (R.SCV_Ck_STATUS_ROUNDS k) (R.SCV_Ck_STATUS_BUSY k) _ ⟨rfl⟩ ⟨rfl⟩).trans
      (State.on_put_self s (R.SCV_Ck_STATUS_BUSY k) 0 ⟨rfl⟩))
theorem State.scanEnded_rounds : (s.scanEnded k cause).get (R.SCV_Ck_STATUS_ROUNDS k) = (s.get (R.SCV_Ck_STATUS_ROUNDS k) + 1) % 65536 := by
  have count : ∀ t : State, (t.inc (R.SCV_Ck_STATUS_ROUNDS k)).get (R.SCV_Ck_STATUS_ROUNDS k) = (t.get (R.SCV_Ck_STATUS_ROUNDS k) + 1) % 65536 := fun t =>
    State.get_put_self t (R.SCV_Ck_STATUS_ROUNDS k) _ ⟨rfl⟩
  rw [s.scanEnded_get k cause (q := R.SCV_Ck_STATUS_ROUNDS k) (Nat.lt_trans (convStatus_low k) (by decide)), count,
    State.get_put_beside s (R.SCV_Ck_STATUS_BUSY k) (R.SCV_Ck_STATUS_ROUNDS k) 0 ⟨rfl⟩ ⟨rfl⟩]
theorem State.scanMoved_low (i : Nat) (rest : List Nat) (vd : Int) {q : RF} (low : q.reg.addr < 0x40111000) : (s.scanMoved k i rest vd).get q = s.get q := by
  show (s.scanStored (scanChannel k i) vd _).get q = _
  unfold State.scanStored
  split
  · rfl
  · exact s.scanSample_get _ _ _ _ (by simp only [R.SCV_CHn_STATUS]; omega) (by simp only [R.SCV_CHn_RESULT]; omega) (by omega)
theorem State.scanMoved_slots (i : Nat) (rest : List Nat) (vd : Int) : ((s.scanMoved k i rest vd).conv k).slots = rest := by
  unfold State.scanMoved
  rw [State.conv_setConv_same]
end
/-- The result of a complete average, on a channel that does not discard it. -/
theorem State.scanStored_result {n : Nat} (vd : Int) (cause : Cause) (hn : n < 80) (owned : s.ownerInReset (s.owner 3 n) = false) (void : (s.sch n).void = false)
    (full : (s.sch n).count + 1 = 2 ^ (s.sch n).avg) :
    (s.scanStored n vd cause).on (R.SCV_CHn_RESULT_VALID n) = true ∧
    (s.scanStored n vd cause).get (R.SCV_CHn_RESULT_VALUE n) = ((s.sch n).sum + (s.scanCode n vd).1) / 2 ^ (s.sch n).shift % 2 ^ 24 ∧
    (s.scanStored n vd cause).get (R.SCV_CHn_RESULT_RSEQ n) = (s.get (R.SCV_CHn_RESULT_RSEQ n) + 1) % 16 := by
  obtain ⟨x, b, c, fields⟩ := s.scanSample_full (s.scanCode n vd).1 (s.scanCode n vd).2 cause full
  have low : (R.SCV_CHn_RESULT n).addr < 0x40200000 := by
    simp only [R.SCV_CHn_RESULT]
    omega
  have stored : s.scanStored n vd cause = s.scanSample n (s.scanCode n vd).1 (s.scanCode n vd).2 cause := if_neg (by rw [owned, void]; decide)
  rw [stored]
  have field := fun (q : RF) (same : q.reg = R.SCV_CHn_RESULT n) => fields q (same ▸ scanStatus_ne_result n) (same ▸ low)
  exact ⟨(congrArg (· != 0) (field (R.SCV_CHn_RESULT_VALID n) rfl)).trans (State.resulted_valid _ n _ b c),
    (field (R.SCV_CHn_RESULT_VALUE n) rfl).trans (State.resulted_value _ n _ b c),
    (field (R.SCV_CHn_RESULT_RSEQ n) rfl).trans (State.resulted_seq (s.setSch n x) n _ b c)⟩
/-- What becomes of the round leaves a channel's result. -/
theorem State.scanEnd_result {k : Fin 4} (i : Nat) (rest : List Nat) (vd : Int) {n : Nat} (hn : n < 80) {q : RF} (same : q.reg = R.SCV_CHn_RESULT n) :
    (if rest.isEmpty then (s.scanMoved k i rest vd).scanEnded k (s.conv k).cause else s.scanMoved k i rest vd).get q =
      (s.scanStored (scanChannel k i) vd (s.conv k).cause).get q := by
  have addr : q.reg.addr = 0x40111004 + 0x40 * n := congrArg Reg.addr same
  split
  · exact State.scanEnded_off _ k _ (by omega) (by rw [addr]; have := convStatus_low k; omega)
  · rfl
theorem scanChannel_lt {k : Nat} (hk : k < 4) (i : Nat) : scanChannel k i < 80 := by
  unfold scanChannel
  split_ifs <;> omega

/-! ### Window limits (R96) -/

theorem winLimitWrite_limit (n : Fin 80) (hi : Bool) (lim : BitVec 24) :
    (winLimitWrite n hi lim.toNat s).get (if hi then R.SCV_CHn_WIN_HI_HI n else R.SCV_CHn_WIN_LO_LO n) = lim.toNat := by
  have small : lim.toNat % 2 ^ 24 = lim.toNat := Nat.mod_eq_of_lt lim.isLt
  cases hi
  · exact (State.get_put_self s (R.SCV_CHn_WIN_LO_LO n) lim.toNat ⟨rfl⟩).trans small
  · exact (State.get_put_self s (R.SCV_CHn_WIN_HI_HI n) lim.toNat ⟨rfl⟩).trans small
theorem winLimitWrite_count (n : Fin 80) (hi : Bool) (v : Nat) : ((winLimitWrite n hi v s).sch n).wcnt = 0 := by
  unfold winLimitWrite
  rw [State.sch_setSch_same]
end

/-- Settles O44. -/
theorem comparatorsAndScanConverters : Obligations.ComparatorsAndScanConverters := by
  intro s q c vd v k n i rest hi was lim t0
  refine ⟨fun on idle low rises => ?_, fun on idle high falls => ?_, fun on pulsed => ⟨fun rises => ?_, fun falls => ?_⟩, fun accepted => ?_, fun accepted on => ?_,
    fun pulsed => ⟨fun early => execCmpTestPulseEnd_early s c vd pulsed early, fun late => ?_⟩, fun mode idle runs due => ?_, fun slots runs => ?_, fun accepted => ?_⟩
  · have rises := (s.cmpRises_iff c vd).2 rises
    refine ⟨_, execCmpOutputActive_next s c vd on rises, ?_⟩
    rw [s.cmpInput_rises c vd idle low rises]
    exact ⟨s.cmpActivate_live c, s.cmpActivate_tripped c⟩
  · have falls := (s.cmpFalls_iff c vd).2 falls
    refine ⟨_, execCmpOutputInactive_next s c vd on falls, ?_⟩
    rw [s.cmpInput_falls c vd idle high falls]
    exact s.cmpRelease_live c
  · have rises := (s.cmpRises_iff c vd).2 rises
    refine ⟨_, execCmpOutputActive_next s c vd on rises, ?_⟩
    rw [s.cmpInput_pulsed c vd pulsed, s.cmpOut_rises c vd was rises]
    exact ⟨s.setPulse_on c _ _, s.pulse_setPulse_same ..⟩
  · have falls := (s.cmpFalls_iff c vd).2 falls
    refine ⟨_, execCmpOutputInactive_next s c vd on falls, ?_⟩
    rw [s.cmpInput_pulsed c vd pulsed, s.cmpOut_falls c vd was falls]
    exact ⟨s.setPulse_on c _ _, s.pulse_setPulse_same ..⟩
  · obtain ⟨lock, en, hyst, evt⟩ := lockWord_fields v
    refine ⟨_, regWrite_accepts _ accepted, ?_, ?_, ?_, ?_⟩
    · exact (congrArg (· != 0) (s.cmpCtrlWrite_ctrl c _ 1 1)).trans (s.cmpCtrlled_lock c lock)
    · exact (s.cmpCtrlWrite_ctrl c _ 0 1).trans ((s.cmpCtrlled_en c _).trans (by rw [en]))
    · exact (s.cmpCtrlWrite_ctrl c _ 2 2).trans ((s.cmpCtrlled_hyst c _).trans (by rw [hyst]))
    · exact (s.cmpCtrlWrite_ctrl c _ 4 1).trans ((s.cmpCtrlled_evt c _).trans evt)
  · refine ⟨_, regWrite_accepts _ accepted, s.cmpTest_live c on, fun idle => ?_, fun pulsed => ?_⟩
    · rw [s.cmpTest_pulse c on, idle]
      rfl
    · rw [s.cmpTest_pulse c on, pulsed]
      rfl
  · refine ⟨_, execCmpTestPulseEnd_late s c vd pulsed late, ?_⟩
    have rises : decide (if c.val % 2 = 0 then s.cmpThreshold c < 512 * vd else 512 * vd < s.cmpThreshold c) = s.cmpRises c vd :=
      Bool.eq_iff_iff.2 (decide_eq_true_iff.trans (s.cmpRises_iff c vd).symm)
    have falls : decide (if c.val % 2 = 0 then 512 * vd < s.cmpThreshold c - s.cmpHysteresis c else s.cmpThreshold c + s.cmpHysteresis c < 512 * vd) = s.cmpFalls c vd :=
      Bool.eq_iff_iff.2 (decide_eq_true_iff.trans (s.cmpFalls_iff c vd).symm)
    show _ ∧ _ = (s.on (R.CMP_Cc_STATUS_LIVE c) && s.cmpOn c && (decide (if c.val % 2 = 0 then s.cmpThreshold c < 512 * vd else 512 * vd < s.cmpThreshold c) ||
      (was && !decide (if c.val % 2 = 0 then 512 * vd < s.cmpThreshold c - s.cmpHysteresis c else s.cmpThreshold c + s.cmpHysteresis c < 512 * vd))))
    rw [rises, falls]
    cases high : s.cmpOn c && s.cmpOut c was vd
    · refine ⟨(State.cmpRelease_pulse _ c).trans (s.pulse_setPulse_same ..), (State.cmpRelease_live _ c).trans ?_⟩
      rw [Bool.and_assoc, ← State.cmpOut, high, Bool.and_false]
    · refine ⟨s.pulse_setPulse_same .., (s.setPulse_on c none _).trans ?_⟩
      rw [Bool.and_assoc, ← State.cmpOut, high, Bool.and_true]
  · refine ⟨_, congrArg Host.Outcome.next (if_pos (s.roundDue_of mode idle runs due)), s.roundStart_began k none, ?_, fun hi => s.roundStart_bit k none hi,
      fun _ masked => s.roundStart_busy_of_bit none idle masked⟩
    rw [s.roundStart_gap, s.roundStart_slots]
  · have low := scanChannel_lt k.isLt i
    refine ⟨_, execScanConversion_next s vd slots runs, ?_, fun last => ?_, fun owned void full => ?_⟩
    · split
      · exact (State.scanEnded_slots _ k _).trans (s.scanMoved_slots k i rest vd)
      · exact s.scanMoved_slots k i rest vd
    · subst last
      exact ⟨State.scanEnded_busy _ k _, (State.scanEnded_rounds _ k _).trans (by rw [s.scanMoved_low k i [] vd (Nat.lt_trans (convStatus_low k) (by decide))])⟩
    · obtain ⟨valid, value, seq⟩ := s.scanStored_result vd (s.conv k).cause low owned void full
      exact ⟨(congrArg (· != 0) (s.scanEnd_result i rest vd low rfl)).trans valid, (s.scanEnd_result i rest vd low rfl).trans value,
        (s.scanEnd_result i rest vd low rfl).trans seq⟩
  · exact ⟨_, regWrite_accepts _ accepted, winLimitWrite_limit s n hi lim, winLimitWrite_count s n hi _⟩

end Sys2Proof.Machine
end
